-- ==== Sys2Proof/Word.lean ====
section
/-! DEFINITION. The word types of the OD2620 (00 R1, R2, R3): the 128-bit native word, the byte, and the
reading of bit ranges [msb:lsb] of a word. -/

-- The package as one text is elaborated in order: its memory then stays small.
set_option Elab.async false

namespace Sys2Proof

/-- A byte (00 R2). -/
abbrev Byte := BitVec 8

/-- The native word of the device (00 R1). -/
abbrev W128 := BitVec 128

/-- Bits [lo + n - 1 : lo] of `x` as a number (00 R3). -/
def bitsNat {w : Nat} (x : BitVec w) (lo n : Nat) : Nat := x.toNat / 2 ^ lo % 2 ^ n

/-- Bits [lo + n - 1 : lo] of `x` as a word of n bits (00 R3). -/
def bitsOf {w : Nat} (x : BitVec w) (lo n : Nat) : BitVec n := BitVec.ofNat n (x.toNat / 2 ^ lo)

/-- Bit `i` of `x` (00 R3). -/
def bitAt {w : Nat} (x : BitVec w) (i : Nat) : Bool := x.toNat.testBit i

/-- The two's-complement reading of the low `n` bits of `v` (00 R4). -/
def signedNat (n v : Nat) : Int :=
  if v % 2 ^ n < 2 ^ (n - 1) then (v % 2 ^ n : Nat) else ((v % 2 ^ n : Nat) : Int) - ((2 ^ n : Nat) : Int)

/-- The low `n` bits of an integer, as a word (00 R4). -/
def wrapInt (n : Nat) (i : Int) : BitVec n := BitVec.ofInt n i

end Sys2Proof
end

