-- ==== Sys2Proof/Syntax.lean ====
section
/-! DEFINITION. The commands of the block: one constructor of `Instr` for each row of spec/opcode_table.json, in
the table's order, with what comes from outside the device (an entry's words, a pin's reading, a message's
words, a measured value) as its operands. -/

namespace Sys2Proof

/-- Where a command entry comes from: one of the eight mailboxes (12 R271) or the service port (20 R449). -/
inductive Src where
  | mailbox (i : Fin 8)
  | service
  deriving DecidableEq, Repr

/-- A submission entry as the device reads it (12 R277), with what the read of its buffer met (13 R291). -/
structure Entry where
  /-- the mailbox, or the service port -/
  src : Src
  /-- host value echoed in the completion -/
  tag : BitVec 16
  /-- argument words that follow, 0 to 7 -/
  argWords : Nat
  /-- bits [63:35] of word 0, reserved -/
  rsv : BitVec 29
  /-- host value echoed in the completion -/
  ctx : BitVec 64
  /-- words 1 to 7 of the entry -/
  args : Vector W128 7
  /-- a bus error or uncorrectable memory error met the read of the buffer (13 R290, reason 0x8004) -/
  busErr : Bool
  /-- the buffer's bytes that follow a command sent over the service port (20 R449) -/
  follow : List Byte
  deriving DecidableEq, Repr

/-- A return message of the BSA (08 R182): its first native word and the words after it. -/
structure RetMsg where
  word0 : W128
  body : List W128
  deriving DecidableEq, Repr

/-- A spore as a port receives it (15 R352, R356): SPORE_START's hop sequence, class, TTL and length, the header
word and the payload bytes. -/
structure Spore where
  hopSeq : BitVec 24
  cls : Fin 4
  ttl : BitVec 4
  words : Nat
  header : W128
  payload : List Byte
  /-- reserved bits of SPORE_START ([3:2] of byte 4, byte 7) were zero, and the sender held the credits -/
  startOk : Bool
  credOk : Bool
  /-- the receiver's FT as the SPORE_START arrived, 48 bits (16 R382) -/
  arrived : BitVec 48
  deriving DecidableEq, Repr

/-- An OASIS repetition, as the list of its displacements after the first, in P39 order (03 R53, R54). -/
abbrev Displacements := List (Int × Int)

/-- One parsed OASIS record (03 R53). The byte encoding is that of SEMI P39; the operand is the record as the
parser delivers it: `off` its byte offset in the plaintext stream. -/
inductive OasisBody where
  /-- PAD, CELLNAME, TEXTSTRING, PROPNAME, LAYERNAME, XYABSOLUTE, XYRELATIVE, XNAME: parsed, no geometry -/
  | passive (id : Nat)
  /-- START: version correct, and `unit` as a fraction num/den of steps per micrometre -/
  | start (versionOk : Bool) (num den : Nat)
  /-- END: validation scheme 0 ignored; schemes 1 and 2 correct or not -/
  | end_ (validationOk : Bool)
  /-- PROPSTRING used as S_TOP_CELL names the cell -/
  | topCellProperty (name : List Byte)
  /-- CELL begins the cell of that name -/
  | cell (name : List Byte)
  /-- PLACEMENT (17) or with magnification and angle (18); `exact` = magnification exactly 1 and angle a multiple
  of 90 degrees -/
  | placement (exact : Bool) (name : List Byte) (x y : Int) (quarter : Fin 4) (flip : Bool) (rep : Displacements)
  /-- TEXT: ignored and counted -/
  | text
  /-- RECTANGLE, POLYGON, TRAPEZOID or CTRAPEZOID as its closed point list -/
  | shape (layer datatype : Nat) (pts : List (Int × Int)) (rep : Displacements)
  /-- PATH with its outline when both ends are flush -/
  | path (flush : Bool) (layer datatype : Nat) (nPts : Nat) (outline : List (Int × Int)) (rep : Displacements)
  /-- PROPERTY: ignored and counted -/
  | property
  /-- XELEMENT: ignored and counted -/
  | xelement
  /-- CIRCLE or XGEOMETRY, fatal -/
  | rejected
  /-- CBLOCK: comp-type, uncomp-byte-count, the compressed bytes, and whether it stands inside a CBLOCK -/
  | cblock (compType uncomp : Nat) (comp : List Byte) (inside : Bool)
  /-- a record that uses a modal variable with no value -/
  | modalUndefined
  /-- an unknown record ID -/
  | unknown (id : Nat)
  /-- the source ends inside the record -/
  | truncated
  /-- the file does not begin with the magic string -/
  | badMagic
  deriving DecidableEq, Repr

/-- A parsed OASIS record with its offset. -/
structure OasisRec where
  off : Nat
  body : OasisBody
  deriving DecidableEq, Repr

/-- A PTP message as the management port delivers it (16 R388): sender identity, sequence, the dataset the best
master algorithm compares (as the manual leaves it to IEEE 1588, one number, lower is better), the transport and
domain it came on, and its times in 2^-16 ns. -/
structure PtpMsg where
  sender : BitVec 80
  seq : BitVec 16
  quality : Nat
  layer2 : Bool
  domain : BitVec 8
  twoStep : Bool
  origin : Int
  received : Int
  deriving DecidableEq, Repr

/-- What the boot ROM finds at a start (21 R461): the digest, header and signature checks of the staged image and
of the slot, as their outcomes. -/
structure BootIn where
  stagedDigestOk : Bool
  stagedHeaderOk : Bool
  stagedSigOk : Bool
  slotOk : Bool
  slotId : BitVec 32
  slotFwVer : BitVec 32
  slotCfgVer : BitVec 32
  slotCfgMin : BitVec 32
  deriving DecidableEq, Repr

/-- One measured pair of calibration passes: target, unit, quantity, a and b (18 R411). -/
structure CalMeas where
  target : Fin 4
  unit : Nat
  quantity : Nat
  a : Int
  b : Int
  deriving DecidableEq, Repr

/-- The commands: one constructor per row of spec/opcode_table.json. -/
inductive Instr where
  -- commands of the mailboxes and the service port (13)
  | devIdentify (e : Entry)
  | devSetMode (e : Entry)
  | devGetStatus (e : Entry)
  | devReadback (e : Entry)
  | devReset (e : Entry)
  | cfgSet (e : Entry)
  | cfgGet (e : Entry)
  | cfgCommit (e : Entry) (verified : Bool)
  | cfgLoadBeamTable (e : Entry)
  | cfgLoadLayerMap (e : Entry)
  | flowOpen (e : Entry)
  | flowClose (e : Entry)
  | workSubmit (e : Entry)
  | workCancel (e : Entry)
  | workQuery (e : Entry)
  /-- `stored`: the write of the configuration store verifies -/
  | ledgerSetWitness (e : Entry) (stored : Bool)
  | ledgerCheckpoint (e : Entry)
  | ledgerRead (e : Entry)
  | dmaChannelSetup (e : Entry)
  | dtuSetRoot (e : Entry)
  | dtuInvalidate (e : Entry)
  | dtuResumeFault (e : Entry)
  | fabDiscover (e : Entry)
  | fabAssignNode (e : Entry)
  | fabSetRoute (e : Entry)
  | fabPair (e : Entry)
  | fabHandover (e : Entry)
  | timeSetSource (e : Entry)
  | timeGet (e : Entry)
  | timeAdjust (e : Entry)
  | calRun (e : Entry)
  | calStatus (e : Entry)
  | calSetLimits (e : Entry)
  | trackSetCoeffs (e : Entry)
  | trackArm (e : Entry)
  | scanHome (e : Entry)
  | scanSetProfile (e : Entry)
  | scanStop (e : Entry)
  | ilkConfigure (e : Entry)
  /-- `steady`: the inputs that AON has sampled at their inactive level for 10 ms without interruption -/
  | ilkClear (e : Entry) (steady : BitVec 8)
  | secImportKey (e : Entry)
  | secEraseKey (e : Entry)
  | secStatus (e : Entry)
  | secUnlockDebug (e : Entry)
  | updBegin (e : Entry)
  /-- `readBackOk`: the bytes read back from the staging sector after programming match `pcrc` -/
  | updPutPiece (e : Entry) (readBackOk : Bool)
  | updStatus (e : Entry)
  | updArm (e : Entry)
  | diagLoopback (e : Entry)
  | diagInject (e : Entry)
  | diagCounters (e : Entry)
  -- the host window (12)
  | doorbellWrite (ring : Fin 64) (value : BitVec 64)
  | ringEnable (ring : Fin 64) (cfg : BitVec 64)
  | ringDisable (ring : Fin 64) (cfg : BitVec 64)
  | winStatusClear (v : BitVec 32)
  | ringStatusClear (ring : Fin 64) (v : BitVec 32)
  | winStageWrite (v : BitVec 32)
  | registerWrite (off : BitVec 24) (wide : Bool) (v : BitVec 64)
  | winReservedWrite (off : BitVec 24) (size : Nat)
  | bar4Access (addr : BitVec 28) (write : Bool) (len : Nat) (data : List Byte)
  | msixVectorUnmask (vec : Fin 64)
  | msixCoalesceTimeout (ring : Fin 64)
  | ringBusError (ring : Fin 64) (addr : BitVec 64)
  | functionLevelReset
  | perst
  -- the work ledger (11)
  | workItemStart (flow : BitVec 8)
  | acceptTimeout (flow : BitVec 8)
  | witnessReadbackDone (unchanged : Bool)
  | witnessResendTimeout
  | witnessLost
  | witnessRetry (answered : Bool)
  | progressTimer
  /-- `recs`: the 64-byte records the read of the witness returned -/
  | ledgerRebuild (recs : List (BitVec 512))
  -- ingest and census (03, 04)
  | ingestRecord (flow : BitVec 8) (r : OasisRec)
  | containerRecordAuth (flow : BitVec 8)
  | ingestComplete (flow : BitVec 8)
  | densitySweepDone (flow : BitVec 8)
  | censusStripeReady (flow : BitVec 8)
  -- rendering and the delay store (05, 06)
  | lineDispatch
  | lineRendered (core : Fin 32)
  | spillWriteAck (slot : Nat)
  | spillReadReturn (slot : Nat)
  | renderBinComplete (flow : BitVec 8)
  | copyComplete (flow : BitVec 8)
  -- the flash sequencer (07)
  | stripeArm
  /-- flash number and the interval since the previous fire event in 0.25 ns -/
  | fireEvent (n : Int) (interval : Nat)
  | frameDeadlineMissed
  | gstrobeRise
  | gstrobeFall
  | strobeCut
  | endingTimeout
  | highWaterTimeout
  | resumeConditionMet
  /-- the sixteen die sensors, raw s13.3; `cool`: the die has stayed at or below 90 degrees for 1 s -/
  | tempSample (sensors : Vector (BitVec 16) 16) (cool : Bool)
  -- the blanker link (08)
  | linkDownRetry
  | lockingTimeout
  | degradedRetry
  | ctrlFrameResend
  | ctrlAck (m : RetMsg)
  | flashAck (m : RetMsg)
  | status (m : RetMsg)
  | error (m : RetMsg)
  | portEvent (m : RetMsg)
  | trainStatus (m : RetMsg)
  | returnLaneSwitched
  | bsaStatusTimeout
  | portClaimTimeout
  -- tracking (09)
  | positionSample
  | serialPositionFrame (ch : Fin 4) (frame : BitVec 80)
  | serialFrameTimeout (ch : Fin 4)
  | quadratureIllegalTransition (ch : Fin 4)
  | indexPulse (ch : Fin 4)
  | acquireTimeout
  -- scan profile and interlocks (10)
  | spoFrame
  | moveComplete
  | spoReleaseTimeout
  | homingTravelLimit
  /-- input and the FT and LT of the first active edge of its episode -/
  | ilkTrip (input : Fin 8) (ft lt : BitVec 32)
  | ilkChatter (input : Fin 8)
  -- the fabric (15)
  | portTrainStart (p : Fin 8)
  | portTrainingTimeout (p : Fin 8)
  | portRetry (p : Fin 8)
  | fabPortDown (p : Fin 8)
  | linkAck (p : Fin 8) (block : BitVec 64)
  | credit (p : Fin 8) (block : BitVec 64)
  | sporeAckTimeout (p : Fin 8) (cls : Fin 4)
  | creditReturnTimer (p : Fin 8)
  | linkAckTimer (p : Fin 8) (cls : Fin 4)
  | sporeForward (p : Fin 8) (sp : Spore)
  | hello (p : Fin 8) (sp : Spore)
  | topo (p : Fin 8) (sp : Spore)
  | assign (p : Fin 8) (sp : Spore)
  | assignAck (p : Fin 8) (sp : Spore)
  | nack (p : Fin 8) (sp : Spore)
  | pairReq (p : Fin 8) (sp : Spore)
  | pairAck (p : Fin 8) (sp : Spore)
  | pairBeat (p : Fin 8) (sp : Spore)
  | pairFail (p : Fin 8) (sp : Spore)
  | handoverReq (p : Fin 8) (sp : Spore)
  | handoverGo (p : Fin 8) (sp : Spore)
  | handoverDone (p : Fin 8) (sp : Spore)
  | ledgerRec (p : Fin 8) (sp : Spore)
  | ledgerAck (p : Fin 8) (sp : Spore)
  | offloadReq (p : Fin 8) (sp : Spore)
  | offloadDone (p : Fin 8) (sp : Spore)
  | segments (p : Fin 8) (sp : Spore)
  | time (p : Fin 8) (sp : Spore)
  | host (p : Fin 8) (sp : Spore)
  | updRelay (p : Fin 8) (sp : Spore)
  | hostSporeSend (p : Fin 8) (entry : BitVec 512)
  | rxBufferPost (p : Fin 8) (entry : BitVec 512)
  | discoveryCollectTimeout
  | assignTimeout
  | pairTimeout
  | pairBeatTimer
  | partnerBeatTimeout
  | takeoverRecheck
  | handoverShadowTimeout
  -- time bases (16)
  | timeSporeTimer
  | timeSourceTimeout (base : Fin 4)
  -- firmware relay (21)
  | relayHalfTimeout
  | updateTargetTimeout (flow : BitVec 8)
  -- PTP (16)
  | ptpAnnounce (m : PtpMsg)
  | ptpSync (m : PtpMsg)
  | ptpFollowUp (m : PtpMsg)
  | ptpDelayResp (m : PtpMsg)
  | ptpMasterTimeout
  -- DMA and translation (14)
  | dmaDescriptorStart (ch : Fin 16) (desc : BitVec 512)
  | dmaDescriptorDone (ch : Fin 16) (idx : BitVec 32)
  /-- context 0-15 with its descriptor index, or 19 with the flow of a COPY item (14 R328, R348); `arrived`:
  destination bytes whose data had arrived without error -/
  | dmaBusError (ctx : Fin 20) (idx : BitVec 32) (arrived : Nat)
  | dmaReadTimeout (ctx : Fin 20) (idx : BitVec 32) (arrived : Nat)
  | dmaRetry (ctx : Fin 20) (idx : BitVec 32)
  /-- context 0-19 (14 R346), descriptor index for a channel or flow for an internal context, the access, the
  address and the progress; `tableBusErr`: a bus error met the table read -/
  | dtuFault (ctx : Fin 20) (idx : BitVec 32) (write : Bool) (va : BitVec 64) (progress : Nat) (tableBusErr : Bool)
  -- HBM (17)
  | hbmRefresh (pc : Fin 64)
  | hbmTempRead (t0 t1 : BitVec 16)
  /-- offset of the native word, kind of error 0-5 (0 none), severity, syndrome, requester, found by the read of
  a partial write -/
  | hbmReadComplete (off : BitVec 36) (kind : Fin 6) (sev : BitVec 3) (syndrome : BitVec 9) (req : BitVec 8) (rmw : Bool)
  | hbmRetrainSliceStart (pc : Fin 64)
  | hbmRetrainSliceEnd (pc : Fin 64) (eyeMilliUI : BitVec 16)
  | hbmRetrainForced (pc : Fin 64)
  -- calibration (18)
  | calRunStart (iRefNa : Nat)
  | calDone (meas : List CalMeas)
  -- modes, power and reset (19)
  /-- `failed`: a domain failed to power up; `badTables`: the restored tables whose CRC fails on wake, bit 0 beam
  table, 1 layer map, 2 render image, 3 bank A, 4 bank B, 5 profile -/
  | modeChangeDone (failed : Bool) (badTables : BitVec 6) (tUs : BitVec 32)
  | heartbeatTick
  | supplyWarning (rail : Fin 9) (mv : BitVec 16)
  /-- `boot` is what a start held by the supplies then finds -/
  | supplyRecovered (boot : BootIn)
  | railResetTrip (rail : Fin 9) (mv : BitVec 16)
  | thermalTrip
  | watchdogReset
  | powerOnReset (testEn : Bool) (boot : BootIn)
  /-- which array: 0 beam table, 1 coefficient bank, 2 translation cache, 3 routing table -/
  | tableArrayUncorrectable (array : Fin 4)
  | domainPowerLoss (domain : Fin 12)
  -- keeper and service access (20)
  | tamperCheck (pass : Bool)
  | tamperCleared
  | vbatThreshold (mv : BitVec 16)
  | keeperSupplySwitch (onBattery : Bool)
  | dbgRequest
  | svcAttached
  | svcDetached
  | identPressed (ms : BitVec 32)
  | identStuck
  -- SMBus and pins (22)
  | smbStatusClear (v : BitVec 16)
  | smbAlertEnWrite (v : BitVec 16)
  | smbAlertResponse
  | resetNAsserted
  | quadratureEdge (ch : Fin 4) (up : Bool)
  | commandedResetStart (boot : BootIn)
  | erasureZeroingDone
  | thermalResetRelease (boot : BootIn)
  | monitorAdcSample (ch : Fin 8) (raw : BitVec 16)
  | loopbackDurationEnd (bits errors : BitVec 64) (losses : BitVec 32)
  | ackWithholdEnd
  | updateRateTick (flow : BitVec 8)
  | identFlashEnd
  deriving DecidableEq, Repr

end Sys2Proof
end

