-- ==== Sys2Proof/Config.lean ====
section
/-! DEFINITION. What the manual leaves open or gives to cited standards, as constants with no body: nothing in Lean
can evaluate them, so no statement rests on a value of them. Each is named in the assumption log. -/

namespace Sys2Proof

/-- AES-256-GCM opening (NIST SP 800-38D, cited by 03 R63, R64 and 20 R442): key, 96-bit IV, additional data,
ciphertext and tag to the plaintext, or none where the tag does not verify (DESIGN CHOICE, safe, log 5). -/
opaque Config.gcmOpen : BitVec 256 → BitVec 96 → List Byte → List Byte → List Byte → Option (List Byte)

/-- The key K that the keeper derives for a blob (ECDH P-384 and the KDF of 20 R442): private identity of the
keeper (its serial), the ephemeral x and y, and the slot; none where the point is not on P-384 or is the identity
(DESIGN CHOICE, safe, log 5). -/
opaque Config.unwrapKey : BitVec 64 → List Byte → List Byte → Nat → Option (BitVec 256)

/-- SHA-384 (21 R455) (DESIGN CHOICE, safe, log 5). -/
opaque Config.sha384 : List Byte → BitVec 384

/-- The public half of the keeper's key pair, x then y, 96 bytes (20 R453), as a function of the serial (DESIGN CHOICE, safe, log 5). -/
opaque Config.keeperPublicKey : BitVec 64 → Vector Byte 96

/-- The serial number burnt into the keeper (12 R266); each device has its own (DESIGN CHOICE, safe, log 6). -/
opaque Config.serial : BitVec 64

/-- The BSA port the device is wired to (08 R192): 0 = A, 1 = B (DESIGN CHOICE, safe, log 6). -/
opaque Config.ownPort : BitVec 1

/-- A time at which nothing is specified further than that some value results: the free value number n (DESIGN CHOICE, safe, log 7). -/
opaque Config.freeValue : Nat → BitVec 128

/-- Byte `off` of a readback object whose byte layout the manual does not give (13 R326), at the snapshot counted
by the second argument (DESIGN CHOICE, safe, log 8). -/
opaque Config.readbackByte : Nat → Nat → Nat → Byte

/-- The size in bytes of such an object, at that snapshot (DESIGN CHOICE, safe, log 8). -/
opaque Config.readbackSize : Nat → Nat → Nat

/-- The CRC-32C of the configuration store image, whose byte layout the manual does not give (13 R304), by store
version and number of commits (DESIGN CHOICE, safe, log 8). -/
opaque Config.storeCrc : BitVec 32 → BitVec 32 → BitVec 32

/-- The setpoint of a planned motion (10 R223: time-optimal, on the 10 µs grid; the manual gives no discretization):
the parameters of the motion and the interval counted from its start, to position in sixteenths of a line, velocity and
acceleration in the units of R228 (DESIGN CHOICE, safe, log 9). -/
opaque Config.planPos : List Int → Nat → Int

@[inherit_doc Config.planPos]
opaque Config.planVel : List Int → Nat → Int

@[inherit_doc Config.planPos]
opaque Config.planAcc : List Int → Nat → Int

/-- The rate offset the PI servo of a time base sets (16 R383 gives no gains), from the previous rate, the offset and
the count of exchanges (DESIGN CHOICE, safe, log 10). -/
opaque Config.servoRate : Int → Int → Nat → Int

/-- The seed of a pseudo-channel's LFSR (17 R399: from the serial and the pseudo-channel number; the function is not
given), never zero by the use made of it (DESIGN CHOICE, safe, log 11). -/
opaque Config.lfsrSeed : BitVec 64 → Nat → BitVec 32

/-- Manufacturing calibration value of a quantity (18 R416): target, unit, quantity (DESIGN CHOICE, safe, log 12). -/
opaque Config.manufacturingCal : Nat → Nat → Nat → Int

/-- A code number that the manual uses but does not give: the family (0 kind of a reset that has no number, 1 trigger of a
reset, 2 table of RETENTION_FAILED) and the member of it (DESIGN CHOICE, safe, log 25). -/
opaque Config.openCode : Nat → Nat → BitVec 8

/-- The parameter block with which a device continues an item it has taken over: the manual lets it continue (11 R259)
but gives no path by which the block reaches it; by flow, sequence number and `param_crc` (DESIGN CHOICE, safe, log 26). -/
opaque Config.takenBlock : BitVec 8 → BitVec 64 → BitVec 32 → List Byte

end Sys2Proof
end

