-- ==== Sys2Proof/Machine/State.lean ====
section
/-! DEFINITION. The state of the OD2620 as plain data, part by part, and the state right after reset. Each field's
comment names the chapter and rule that give it and its reset value; DC marks a DESIGN CHOICE of the model (the
number is the log entry). -/

namespace Sys2Proof.Machine

/-- Reasons for a fault. -/
inductive Fault where
  /-- No meaning raises it: every operand the syntax admits has an effect that the manual names. It is kept so that
  the type of reasons is not empty. Safe. -/
  | outsideDevice
  deriving DecidableEq, Repr

/-- Reasons for a refusal. -/
inductive Refusal where
  /-- Raised by Dispatch for a command that has no meaning yet. Safe. -/
  | notModelled (mnemonic : String)
  deriving DecidableEq, Repr

/-- A sparse table: pairs of key and value, keys rising; a key that is not listed holds the table's default. -/
abbrev Tbl (α : Type) := List (Nat × α)

/-- Byte-addressed memory (HBM, host memory): a canonical list of cells. -/
abbrev Memory := List Host.Cell

/-! ### Events, completions and other outputs -/

/-- An event record (13 R324). -/
structure EventRec where
  code : BitVec 16
  node : BitVec 12
  domain : BitVec 4
  ft : BitVec 32
  lt : BitVec 32
  detail : W128
  deriving DecidableEq, Repr

/-- A completion entry (12 R278). -/
structure Completion where
  opcode : BitVec 16
  tag : BitVec 16
  status : BitVec 16
  reason : BitVec 16
  mode : BitVec 4
  subIdx : BitVec 32
  ctx : BitVec 64
  ft : BitVec 32
  lt : BitVec 32
  results : List W128
  deriving DecidableEq, Repr

/-- A sorus frame as sent (07 R158): flash, row and its 17 words. -/
structure Frame where
  flash : Int
  row : Nat
  words : List W128
  deriving DecidableEq, Repr

/-- What the device gives to its outside, in the order in which it gives it. -/
inductive Output where
  | completion (src : Src) (c : Completion)
  | mappedBytes (bytes : List Byte)
  | ringEntry (ring : Nat) (idx : BitVec 32) (bytes : List Byte)
  | shadow (ring : Nat) (idx : BitVec 32)
  | msix (vector : Nat)
  | bar4Read (data : List Byte)
  | control (lane : Nat) (words : List W128)
  | flashFrames (n : Int) (frames : List Frame)
  | laneMap (map : List Byte)
  | trainBlocks
  | spo (frame : BitVec 144)
  | dac (d : Nat) (code : Int)
  | block (port : Nat) (b : BitVec 64)
  | spore (port : Nat) (hopSeq : Nat) (cls : Nat) (ttl : Nat) (header : W128) (payload : List Byte)
  | delayReq (seq : BitVec 16)
  | smbAlertAddress (addr : BitVec 7)
  deriving DecidableEq, Repr

/-! ### Modes, power and reset (19) -/

/-- The modes (00, table of modes). -/
inductive Mode where
  | recovery | standby | ready | expose | render | shadow | calibrate | hold
  deriving DecidableEq, Repr

/-- The power domains, in the order of 13 R298. -/
inductive Domain where
  | aon | keep | ctrl | host | fab | ing | rnd0 | rnd1 | store | seq | mem | trk
  deriving DecidableEq, Repr

/-- Why start-up has not run or is held (19 R428, R429, R434; 22 R469, R474). -/
inductive Held where
  | no | resetLow | testEn | supply | thermal
  deriving DecidableEq, Repr

/-- An entry of the mode history (19 R436). -/
structure ModeChange where
  old : Mode
  new : Mode
  trigger : Nat
  ft : BitVec 32
  lt : BitVec 32
  deriving DecidableEq, Repr

/-- An entry of the reset history (19 R436). -/
structure ResetRec where
  kind : Nat
  trigger : Nat
  lt : BitVec 32
  rail : Nat
  mode : Mode
  deriving DecidableEq, Repr

/-- Modes, power domains, supplies and resets. -/
structure Power where
  /-- WIN_MODE.MODE (12 R267; reset 0, RECOVERY's code) -/
  mode : Mode
  /-- WIN_MODE.TARGET (12 R267; reset 0) -/
  target : Mode
  /-- WIN_MODE.CHANGING (12 R267; reset 0) -/
  changing : Bool
  /-- WIN_MODE.FW_STATE, 2 bits used of 4 (12 R267; reset 0) -/
  fwState : Nat
  /-- why start-up has not run (19 R434; reset resetLow: RESET_N has not been released) -/
  held : Held
  /-- trigger of the change in progress (19 R437; reset 1, DC 2) -/
  trigger : Nat
  /-- the change claims the port and waits for it (19 R422, 08 R193; reset false) -/
  claimWait : Bool
  /-- the mode a firmware restart re-enters (19 R430; reset none) -/
  reenter : Option Mode
  /-- voltage of each rail in mV, 16 bits each (19 R426, R436; reset 0: SMB_VRAILb of 22 R483) -/
  railMv : Vector (BitVec 16) 9
  /-- rails below warning, bit b of rails_low (19 R426; reset 0) -/
  railsLow : BitVec 9
  /-- lowest voltage of each rail since power-on (19 R436; reset 0xFFFF, DC 2) -/
  railMin : Vector (BitVec 16) 9
  /-- warnings and recoveries (19 R436; reset 0) -/
  warnings : BitVec 64
  /-- recoveries (19 R436; reset 0) -/
  recoveries : BitVec 64
  /-- last 64 mode changes, newest first (19 R436; reset empty) -/
  modeHistory : List ModeChange
  /-- last 32 resets, newest first; survives all but a power-on reset (19 R436, R437; reset empty) -/
  resetHistory : List ResetRec
  /-- watchdog resets (19 R436; reset 0) -/
  watchdogResets : BitVec 64
  /-- thermal trips (19 R436; reset 0) -/
  thermalTrips : BitVec 64
  /-- the commanded reset that begins 10 µs after its completion: kind 1 to 4 (13 R300; reset none) -/
  commandedReset : Option Nat
  /-- LT at which the reset in progress began (19 R432; reset 0) -/
  resetLt : BitVec 32
  /-- kind and trigger of the reset held (19 R428, R429; reset 0) -/
  heldKind : Nat
  deriving DecidableEq, Repr

/-! ### Time bases (16) -/

/-- A time base (16 R379): an accumulator in units of 2^-40 ns modulo 2^72, its rate offset r in 2^-40 of nominal, its
source and state. -/
structure TimeBase where
  /-- 32 bits of ns and 40 of fraction (16 R379, R380; reset 0) -/
  acc : Nat
  /-- rate offset r (16 R379; reset 0) -/
  rate : Int
  /-- source code of TIME_SET_SOURCE (13 R314; reset 0) -/
  src : Nat
  /-- 0 unset, 1 locked, 2 last rate, 3 free-running (13 R314, 16 R380; reset 0) -/
  state : Nat
  /-- last offset and delay in 2^-16 ns (16 R390; reset 0) -/
  offset : Int
  /-- last delay (16 R390; reset 0) -/
  delay : Int
  /-- steps made (16 R390; reset 0) -/
  steps : BitVec 64
  /-- a first offset has been taken since acquiring began (16 R385; reset false) -/
  acquired : Bool
  /-- consecutive exchanges below the lock bound (16 R383, R388; reset 0) -/
  lockRun : Nat
  /-- exchanges since the source was set (16 R383; reset 0) -/
  exchanges : Nat
  deriving DecidableEq, Repr

/-- One PTP master heard (16 R388). -/
structure PtpMaster where
  sender : BitVec 80
  quality : Nat
  deriving DecidableEq, Repr

/-- All time bases. -/
structure Times where
  /-- FT, ST, LT and PT in the order of the base codes (16 R378; reset zero, unset) -/
  base : Vector TimeBase 4
  /-- PTP domain (13 R314; reset 0) -/
  ptpDomain : BitVec 8
  /-- FT source port (13 R314; reset 0) -/
  ftPort : Nat
  /-- hops from the FT master (16 R382; reset 0) -/
  hops : Nat
  /-- node of the FT master (16 R382; reset 0) -/
  master : BitVec 12
  /-- per port, own FT at the arrival of the last TIME and its msg_id (16 R382; reset 0) -/
  lastRx : Vector (BitVec 48 × BitVec 32) 8
  /-- own transmit times of TIME spores by msg_id, newest first (16 R383; reset empty) -/
  sent : List (BitVec 32 × BitVec 48)
  /-- masters a conflict has been raised for (16 R384; reset empty) -/
  conflicts : List (BitVec 12)
  /-- PTP masters heard (16 R388; reset empty) -/
  ptpMasters : List PtpMaster
  /-- the PTP master followed (16 R388; reset none) -/
  ptpMaster : Option (BitVec 80)
  /-- a two-step Sync awaiting its Follow_Up: sequence and receipt time (16 R388; reset none) -/
  ptpSync : Option (BitVec 16 × Int)
  /-- receipt minus origin of the last Sync (16 R388; reset 0) -/
  ptpForward : Int
  /-- the outstanding Delay_Req: sequence and send time (16 R388; reset none) -/
  ptpReq : Option (BitVec 16 × Int)
  /-- next Delay_Req sequence (16 R388; reset 0) -/
  ptpSeq : BitVec 16
  /-- ST and FT of the fire events of n0, of the last flash fired and of m at the last stop (16 R387; reset 0) -/
  stamps : Vector (BitVec 48 × BitVec 48) 3
  deriving DecidableEq, Repr

/-! ### Host window (12) -/

/-- One ring table entry (12 R272-R274). -/
structure Ring where
  /-- WIN_RING_BASE, 64 bits (12 R272; reset 0) -/
  base : BitVec 64
  /-- WIN_RING_CFG, 64 bits (12 R273; reset LOG2N 4, VEC per R282, CLASS_MASK 0x1FFF on ring 48) -/
  cfg : BitVec 64
  /-- WIN_RING_SHADOW, 64 bits (12 R272; reset 0) -/
  shadow : BitVec 64
  /-- WIN_RING_DEV_IDX, 32 bits (12 R272; reset 0) -/
  devIdx : BitVec 32
  /-- WIN_RING_HOST_IDX, 32 bits (12 R272; reset 0) -/
  hostIdx : BitVec 32
  /-- STATE: 0 DISABLED, 1 ACTIVE, 2 STOPPING, 3 ERROR (12 R274; reset 0) -/
  st : Nat
  /-- FULL (12 R274; reset 0) -/
  full : Bool
  /-- DB_BAD (12 R274; reset 0) -/
  dbBad : Bool
  /-- BUS_ERR (12 R274; reset 0) -/
  busErr : Bool
  /-- WIN_RING_ERR_ADDR, 64 bits (12 R272; reset 0) -/
  errAddr : BitVec 64
  /-- entries advanced in the open coalescing interval, 0 when none is open (12 R283; reset 0) -/
  coal : Nat
  /-- a completion-space stall has been raised in this episode (12 R280; reset false) -/
  stalled : Bool
  deriving DecidableEq, Repr

/-- The host window. -/
structure Win where
  /-- WIN_HEARTBEAT, 32 bits (12 R267; reset 0) -/
  heartbeat : BitVec 32
  /-- WIN_STATUS flags, 11 bits (12 R267, R268; reset 0) -/
  status : BitVec 11
  /-- WIN_STATUS_IRQ, 11 bits (12 R267; reset 0) -/
  statusIrq : BitVec 11
  /-- WIN_STAGE.WINDOW, 8 bits (12 R267; reset 0) -/
  window : BitVec 8
  /-- WIN_STAGE.EN (12 R267; reset 0) -/
  stageEn : Bool
  /-- WIN_TEMP, 16 bits (12 R267; reset 0) -/
  temp : BitVec 16
  /-- set counters of the eleven flags, 32 bits each (12 R269; reset 0) -/
  setCnt : Vector (BitVec 32) 11
  /-- the 64 rings (12 R271-R274) -/
  rings : Vector Ring 64
  /-- MSI-X table: the four 32-bit words of each vector (12 R282; reset masked, DC 2 after the PCI Express Base
  Specification, PRESUMED) -/
  msix : Vector (BitVec 128) 64
  /-- MSI-X pending bits, 64 bits (12 R282; reset 0) -/
  pba : BitVec 64
  /-- WIN_FW_VER, 32 bits: 0 while the boot ROM runs (12 R266; reset 0) -/
  fwVer : BitVec 32
  /-- result records waiting for space on each ledger ring, in order (12 R281; reset empty) -/
  resultWait : Vector (List (BitVec 512)) 8
  deriving DecidableEq, Repr

/-! ### Mailboxes (12, 13) -/

/-- What a started command waits for (13 R292). -/
inductive WaitOn where
  | modeChange (oldMode : Mode)
  | accept (flow : BitVec 8) (seq : BitVec 64)
  | flowOpen (flow : BitVec 8) (wseq : Nat) (first : BitVec 64)
  | flowClose (flow : BitVec 8) (wseq : Nat)
  | cancel (flow : BitVec 8) (seq : BitVec 64)
  | setWitness (copied : Nat) (stored : Bool)
  | checkpoint (flow : BitVec 8) (wseq : Nat) (floor : BitVec 64)
  | discover
  | assignNode (serial : BitVec 64) (node : BitVec 12)
  | pair
  | handover
  | calRun
  | swap (bank : Nat)
  | home
  | loopback
  deriving DecidableEq, Repr

/-- A command that has started and not completed (12 R280). -/
structure Waiting where
  src : Src
  opcode : BitVec 16
  tag : BitVec 16
  ctx : BitVec 64
  subIdx : BitVec 32
  mode : Mode
  on : WaitOn
  deriving DecidableEq, Repr

/-- The mailboxes. -/
structure Mailboxes where
  /-- the started commands, at most one a mailbox and one on the service port (12 R280, 20 R449; reset empty) -/
  running : List Waiting
  /-- completions kept for a ring that is not ACTIVE (12 R280; reset empty) -/
  kept : List (Nat × Completion)
  deriving DecidableEq, Repr

/-! ### Configuration and tables (02, 03, 05, 06, 13) -/

/-- The configuration items of 13 R302 with a value inline, at their active values, and the staged ones. -/
structure CfgItems where
  /-- t_q in 0.25 ns, 12 bits (13 R302; default 112) -/
  tq : Nat
  /-- job f_max in Hz, 32 bits (13 R302; default 2,000,000) -/
  fMax : Nat
  /-- cond_enable (02 R41; default 0) -/
  condEnable : Nat
  /-- cond_idle_flashes (02 R41; default 64) -/
  condIdle : Nat
  /-- cond_width in 0.25 ns (02 R41; default 12) -/
  condWidth : Nat
  /-- t_mark in 0.25 ns (02 R41; default 24) -/
  tMark : Nat
  /-- render_offload (05 R123; default 0) -/
  renderOffload : Nat
  /-- offload_peers, node IDs (05 R123; default none) -/
  offloadPeers : List (BitVec 12)
  /-- offload_lead (05 R123; default 128) -/
  offloadLead : Nat
  /-- offload_deadline (05 R123; default 64) -/
  offloadDeadline : Nat
  /-- render_x_reserve (05 R102; default 8) -/
  xReserve : Nat
  /-- seg_code (06 R141; default 0) -/
  segCode : Nat
  /-- ctab_addr (06 R141; default 0) -/
  ctabAddr : Nat
  /-- link_lane_disable, 80 bits (08 R187; default 0) -/
  laneDisable : BitVec 80
  /-- pos_cfg of the four channels, a native word each (09 R202; default mode 0) -/
  posCfg : Vector W128 4
  /-- dac_cfg of the four DACs, 32 bits each (09 R217; default 0) -/
  dacCfg : Vector (BitVec 32) 4
  /-- dac_host of the four DACs, 20 bits each (09 R217; default 0) -/
  dacHost : Vector (BitVec 20) 4
  /-- trk_model_enable (09 R212; default 1) -/
  modelEnable : Nat
  /-- trk_model_delay in 100 ns (09 R212; default 20) -/
  modelDelay : Nat
  /-- trk_model_limit in fine steps (09 R212; default 1,024) -/
  modelLimit : Nat
  /-- trk_fe_limit in fine steps (09 R212; default 128) -/
  feLimit : Nat
  /-- trk_fe_time in samples (09 R212; default 100) -/
  feTime : Nat
  /-- diag_enable (13 R322; default 0) -/
  diagEnable : Nat
  /-- hbm_nrr_k (17 R400; default 10) -/
  nrrK : Nat
  /-- hbm_retrain_ms (17 R400; default 1,000) -/
  retrainMs : Nat
  deriving DecidableEq, Repr

/-- A verified image with its CRC (02 R39, 03 R62, 05 R111). -/
structure Image where
  bytes : List Byte
  crc : BitVec 32
  deriving DecidableEq, Repr

/-- The configuration: items, tables and images. -/
structure Config where
  /-- active values of the inline items (13 R302) -/
  act : CfgItems
  /-- staged values: item ID and index, and the raw value (13 R301; reset empty) -/
  staged : List (Nat × Nat × W128)
  /-- active beam table, 1 MiB (02 R38, R39; reset none loaded) -/
  btab : Option Image
  /-- staged beam table (02 R39; reset none) -/
  btabStaged : Option Image
  /-- beam table activations, 32 bits (02 R47; reset 0) -/
  btabActs : BitVec 32
  /-- active layer map, 4,160 bytes (03 R60, R62; reset none) -/
  lmap : Option Image
  /-- staged layer map (03 R62; reset none) -/
  lmapStaged : Option Image
  /-- layer map activations (03 R80; reset 0) -/
  lmapActs : BitVec 32
  /-- active render parameter image, 400 bytes (05 R109, R111; reset none) -/
  rp : Option Image
  /-- staged render parameter image (05 R111; reset none) -/
  rpStaged : Option Image
  /-- render image activations (05 R126; reset 0) -/
  rpActs : BitVec 32
  /-- code configuration activations (06 R153; reset 0) -/
  codeActs : BitVec 32
  deriving DecidableEq, Repr

/-! ### Work ledger (11) -/

/-- State of a work item (11 R247, codes of R253). -/
inductive ItemSt where
  | submitted | accepted | running | done | failed
  deriving DecidableEq, Repr

/-- A work item's record (11 R246-R249). -/
structure Item where
  flow : BitVec 8
  seq : BitVec 64
  kind : BitVec 8
  st : ItemSt
  /-- its parameter block; none while it waits for it after a rebuild (11 R257) -/
  params : Option (List Byte)
  paramCrc : BitVec 32
  status : BitVec 16
  reason : BitVec 16
  result : BitVec 64
  resumes : BitVec 32
  h : Int
  stripe : BitVec 16
  detail : W128
  /-- wseq of its ACCEPT record, and of its FINAL record once written -/
  acceptWseq : Nat
  finalWseq : Option Nat
  finalFt : BitVec 32
  finalLt : BitVec 32
  published : Bool
  cancel : Bool
  /-- a stripe that a rebuild found RUNNING and that waits for its resubmission (11 R258) -/
  waitResume : Bool
  deriving DecidableEq, Repr

/-- A flow context (11 R242, R245, R256). -/
structure Flow where
  isOpen : Bool
  owner : BitVec 12
  nextSeq : BitVec 64
  floor : BitVec 64
  doneCnt : BitVec 32
  failCnt : BitVec 32
  deriving DecidableEq, Repr

/-- A witness record (11 R253). -/
structure WRec where
  rtype : Nat
  flow : BitVec 8
  kind : BitVec 8
  st : Nat
  status : BitVec 16
  stripe : BitVec 16
  seq : BitVec 64
  wseq : Nat
  paramCrc : BitVec 32
  h : Int
  ft : BitVec 32
  lt : BitVec 32
  owner : BitVec 12
  result : BitVec 64
  epoch : BitVec 32
  deriving DecidableEq, Repr

/-- Who the witness is (11 R252). -/
inductive WitnessKind where
  | none
  | peer (node : BitVec 12)
  | region (flow : BitVec 8) (addr : Nat) (n : Nat)
  deriving DecidableEq, Repr

/-- The ledger and its witness. -/
structure Ledger where
  /-- the 256 flow contexts, by number; unlisted = closed (11 R242; reset empty) -/
  flows : Tbl Flow
  /-- unretired items, in submission order (11 R246; reset empty) -/
  items : List Item
  /-- the witness (11 R252; reset none) -/
  witness : WitnessKind
  /-- epoch, 32 bits (11 R252; reset 0) -/
  epoch : BitVec 32
  /-- next wseq, 64 bits, starts at 1 (11 R253; reset 1) -/
  wseq : Nat
  /-- records sent and not acknowledged, oldest first (11 R254; reset empty) -/
  unacked : List WRec
  /-- highest wseq acknowledged by the witness, and by the second mirror (11 R254, 15 R368; reset 0) -/
  acked : Nat
  /-- highest wseq acknowledged by the second mirror (15 R368; reset 0) -/
  acked2 : Nat
  /-- a second mirror is in use (15 R368; reset false) -/
  second : Bool
  /-- the witness is lost (11 R254; reset false) -/
  lost : Bool
  /-- the ledger rebuild is done (11 R257; reset false) -/
  rebuilt : Bool
  /-- a new witness being copied to, its epoch and the number of records copied (11 R252; reset none) -/
  pendingWitness : Option (WitnessKind × BitVec 32 × Nat)
  /-- rebuilds (11 R263; reset 0) -/
  rebuilds : BitVec 64
  /-- the latest witness record of each unretired item (11 R263; reset empty) -/
  recs : List WRec
  /-- flow whose turn is next among waiting stripes, round robin (11 R243; reset 0) -/
  turn : Nat
  deriving DecidableEq, Repr

/-! ### Ingest and census (03, 04) -/

/-- A placement of a cell. -/
structure Placing where
  name : List Byte
  x : Int
  y : Int
  quarter : Nat
  flip : Bool
  rep : Displacements
  deriving DecidableEq, Repr

/-- A shape of a cell. -/
structure Shape where
  layer : Nat
  datatype : Nat
  pts : List (Int × Int)
  rep : Displacements
  deriving DecidableEq, Repr

/-- A cell as the index of 03 R54 holds it. -/
structure Cell where
  name : List Byte
  elems : List (Nat × (Placing ⊕ Shape))
  deriving DecidableEq, Repr

/-- A running ingest (03 R48-R68). -/
structure IngestRun where
  flow : BitVec 8
  seq : BitVec 64
  /-- s of 03 R51, once START has been read -/
  s : Option Nat
  topProp : Option (List Byte)
  cells : List Cell
  current : Option (List Byte)
  ended : Bool
  /-- container record number next to authenticate (03 R64) -/
  recNo : Nat
  /-- plaintext authenticated so far -/
  plain : List Byte
  /-- skip kinds already reported (03 R67) -/
  skipped : List Nat
  /-- stalled by a translation fault (03 R68) -/
  stalled : Bool
  deriving DecidableEq, Repr

/-- A running census (03 R69-R78). -/
structure CensusRun where
  flow : BitVec 8
  seq : BitVec 64
  /-- the density sweep has finished for the whole job -/
  forecast : Bool
  /-- the next stripe of the job to forecast, counted from 0 -/
  next : Nat
  /-- trial lines of that stripe rendered (03 R72): line and the values of its 16 segments -/
  values : List (Nat × List (List Nat))
  deriving DecidableEq, Repr

/-- Ingest and census. -/
structure Layout where
  /-- ingests running (03 R48; reset empty) -/
  ingests : List IngestRun
  /-- censuses running (03 R69; reset empty) -/
  censuses : List CensusRun
  /-- the container decryptor key register and its slot (20 R444; reset none) -/
  decryptor : Option (Nat × BitVec 256)
  /-- job last censused: stream space, flow and address (03 R80; reset none) -/
  lastJob : Option (Nat × Nat × Nat)
  /-- density map of that job: HBM offset (03 R80; reset none) -/
  lastMap : Option Nat
  deriving DecidableEq, Repr

/-! ### Rendering and the delay store (05, 06) -/

/-- A line of render work (05 R101, R102). -/
structure RLine where
  /-- 0 = X, 2 = R, 3 = B; 4 = an X line whose fill has ended, its result to be discarded (06 R130) -/
  cls : Nat
  flow : BitVec 8
  seq : BitVec 64
  /-- requester of an offload line: node and msg_id of its request -/
  req : Option (BitVec 12 × BitVec 32)
  stripe : Nat
  line : Nat
  deriving DecidableEq, Repr

/-- An offload request issued to a peer (05 R123, 15 R366). -/
structure OffloadReq where
  node : BitVec 12
  msgId : BitVec 32
  lineFirst : Nat
  lineLast : Nat
  expired : Bool
  deriving DecidableEq, Repr

/-- A RENDER_BIN in progress: a work item of this device, or a request of a peer (05 R121, R122, 15 R366). -/
structure BinRun where
  flow : BitVec 8
  seq : BitVec 64
  req : Option (BitVec 12 × BitVec 32)
  /-- its 64-byte parameter block -/
  params : List Byte
  /-- next line of the bin to be delivered -/
  next : Nat
  /-- bytes and lines delivered -/
  written : Nat
  /-- lines rendered and not yet delivered, with their segments in transfer form -/
  held : List (Nat × List (List Byte))
  /-- reason of R122 it has failed with, 0 while none -/
  failed : Nat
  deriving DecidableEq, Repr

/-- The render cores. -/
structure Render where
  /-- the line each core renders (05 R101; reset none) -/
  cores : Vector (Option RLine) 32
  /-- lines waiting, in dispatch order within their class (05 R102; reset empty) -/
  waiting : List RLine
  /-- RENDER_BIN work in progress, own and of peers (05 R122, 15 R366; reset empty) -/
  bins : List BinRun
  /-- offload requests outstanding (05 R123; reset empty) -/
  offloads : List OffloadReq
  /-- next peer to be offered lines, round robin (05 R123; reset 0) -/
  nextPeer : Nat
  /-- render-ready has been reported for n0 (05 R104; reset false) -/
  ready : Bool
  /-- lowest line of the exposing stripe whose stream or map structures failed a check, none while sound (04 R95;
  reset none) -/
  badLine : Option Nat
  deriving DecidableEq, Repr

/-- A slot that is not FREE (06 R131, R132). -/
structure Slot where
  /-- coded length 1-576 -/
  len : Nat
  /-- 0 slot, 1 pool, 2 spill -/
  where_ : Nat
  kind : Nat
  check : BitVec 32
  /-- body bytes of the coded segment (where 0) -/
  body : List Byte
  /-- pool block indices (where 1) -/
  blocks : List Nat
  /-- 1 PENDING, 2 VALID -/
  st : Nat
  reads : Nat
  /-- an uncorrectable SRAM error stands in the segment's bytes -/
  ecc : Bool
  deriving DecidableEq, Repr

/-- The delay store. -/
structure Store where
  /-- slots that are not FREE, by slot number 0-139,263 (06 R127-R132; reset all FREE) -/
  slots : Tbl Slot
  /-- bytes of the pool blocks in use (06 R127; reset empty) -/
  pool : Tbl (List Byte)
  /-- first block never taken since the free list was filled (06 R145; reset 0) -/
  fresh : Nat
  /-- blocks returned to the tail of the free list, in order (06 R145; reset empty) -/
  returned : List Nat
  /-- slots whose next read has returned from the spill area (06 R147; reset empty) -/
  spillReady : List Nat
  /-- SPILL_STARTED has been raised for this stripe or resume (06 R147; reset false) -/
  spillRaised : Bool
  /-- code table of the stripe being exposed, 272 bytes (06 R153; reset none) -/
  ctab : Option (List Byte)
  deriving DecidableEq, Repr

/-! ### The flash sequencer (07) -/

/-- Sequencer states (07 R165). -/
inductive SeqSt where
  | idle | filling | armed | running | ending | stopping | stopped
  deriving DecidableEq, Repr

/-- The flash sequencer. -/
structure Seq where
  /-- state (07 R165; reset IDLE) -/
  st : SeqSt
  /-- flow and sequence number of the stripe's item (07 R165; reset none) -/
  item : Option (BitVec 8 × BitVec 64)
  /-- stripe number (07 R158; reset 0) -/
  stripe : Nat
  /-- lines_m1 of the stripe (04 R82; reset 0) -/
  linesM1 : Nat
  /-- n_first, n_last, n0 (07 R154, R170; reset 0) -/
  nFirst : Int
  /-- last flash of the stripe (07 R154; reset 0) -/
  nLast : Int
  /-- first flash of the stripe or resume (07 R170; reset 0) -/
  n0 : Int
  /-- last flash fired, signed 32 bits (07 R162; reset 0) -/
  f : Int
  /-- last flash accepted before the stop (07 R166; reset 0) -/
  m : Int
  /-- last reported BSA high-water (07 R168; reset 0) -/
  h : Int
  /-- some high-water has been reported for this stripe identity (08 R196 code 4; reset false) -/
  hKnown : Bool
  /-- causes of the stop present, 1-14 (07 R169; reset empty) -/
  causes : List Nat
  /-- the resume conditions of causes already met (07 R169; reset empty) -/
  met : List Nat
  /-- the stop recorded last (07 R173; reset 0) -/
  lastCause : Nat
  /-- the stop in progress is immediate (07 R167; reset false) -/
  immediate : Bool
  /-- cause and violation codes observed since the stop began: a violation of code 4, 5 or 6 (07 R490; reset false) -/
  violated : Bool
  /-- a second failure of one segment (06 R149; reset false) -/
  secondFail : Bool
  /-- an overflow or render-late stop (03 R76, 05 R105; reset false) -/
  late : Bool
  /-- resumes of the stripe, 32 bits (07 R173; reset 0) -/
  resumes : BitVec 32
  /-- segments that have failed checks 2-5 once: line and sub-raster (06 R149; reset empty) -/
  failed : List (Nat × Nat)
  /-- STRIPE_OPEN answers without hope for this resume (08 R189; reset 0) -/
  openFails : Nat
  /-- the stripe has been opened at the BSA (08 R180 new; reset false) -/
  opened : Bool
  /-- the flash whose frames have left and which is not yet strobed (07 R161; reset none) -/
  framed : Option Int
  /-- flashes fired and not yet strobed, oldest first (07 R161; reset empty) -/
  fired : List Int
  /-- the flash whose strobe is high or was last high (07 R161; reset 0) -/
  strobed : Int
  /-- GBLANK, driven level (01 R20; reset high) -/
  gblank : Bool
  /-- GSTROBE, driven level (07 R161; reset low) -/
  gstrobe : Bool
  /-- strobe watchdog latch (07 R164; reset clear; survives all but a power-on reset) -/
  wdLatch : Bool
  /-- die temperature warning has been raised and has not re-armed (07 R171; reset false) -/
  dieWarned : Bool
  /-- the same for the BSA warning flag (07 R171; reset false) -/
  bsaWarned : Bool
  /-- die limit reached and the cool-down not yet met (07 R171; reset false) -/
  dieHot : Bool
  /-- BSA limit flag as last reported, and its warning flag (07 R171; reset false) -/
  bsaLimit : Bool
  /-- BSA warning flag as last reported (07 R171; reset false) -/
  bsaWarn : Bool
  /-- die cooled: at or below 90 degrees for 1 s (07 R171; reset true, DC 2) -/
  cool : Bool
  deriving DecidableEq, Repr

/-! ### The blanker link (08) -/

/-- Link states (08 R186). -/
inductive LinkSt where
  | down | locking | mapping | configuring | trained | degraded
  deriving DecidableEq, Repr

/-- A control frame sent and not answered (08 R179). -/
structure Ctrl where
  op : Nat
  arg : Nat
  cseq : BitVec 32
  words : List W128
  sends : Nat
  deriving DecidableEq, Repr

/-- The blanker link. -/
structure Link where
  /-- state (08 R186; reset DOWN) -/
  st : LinkSt
  /-- failed physical lanes, until a power-on reset (08 R187; reset 0) -/
  failed : BitVec 80
  /-- logical lane of each physical lane, 0xFF unmapped (08 R174; reset identity on 0-75, DC 2) -/
  map : Vector Byte 80
  /-- block lock of the latest TRAIN_STATUS (08 R183; reset 0) -/
  locks : BitVec 80
  /-- a TRAIN_STATUS has arrived since LOCKING was entered (08 R186; reset false) -/
  trainSeen : Bool
  /-- block lock of the return lanes 0 and 1 (08 R181; reset lock on both, DC 2) -/
  rlock : Vector Bool 2
  /-- return lane in use (08 R181; reset 0) -/
  rlane : Nat
  /-- next cseq, 32 bits (08 R179; reset 0) -/
  cseq : BitVec 32
  /-- control frames outstanding, oldest first (08 R179; reset empty) -/
  out : List Ctrl
  /-- chunks of BEAM_CONFIG acknowledged, 0-128 (08 R186; reset 0) -/
  chunks : Nat
  /-- beam entry CRC committed, or none (08 R180; reset none) -/
  committed : Option (BitVec 32)
  /-- CONFIG_COMMIT has been acknowledged in this configuration (08 R186; reset false) -/
  commitAcked : Bool
  /-- M of the return window, 16 bits, or none right after LOCKING (08 R181; reset none) -/
  mseq : Option (BitVec 16)
  /-- reports of error 0x01 per physical lane within 1 ms (08 R187; reset empty) -/
  errs : Tbl Nat
  /-- the device holds its port (08 R193; reset false) -/
  held : Bool
  /-- a PORT_CLAIM is pending, and whether it is forced (08 R193; reset none) -/
  claim : Option Bool
  /-- PORT_EVENT lost has been received (08 R194; reset false) -/
  lost : Bool
  /-- last STATUS: active port, stripe state, S_b, temperature, CRC held, blocked CRC and count (08 R183; reset 0) -/
  sActive : BitVec 2
  /-- stripe state of the last STATUS (08 R183; reset 0) -/
  sStripeSt : BitVec 2
  /-- S_b (08 R182; reset 0) -/
  sStripe : BitVec 16
  /-- H_b as last reported by any message (08 R183; reset 0) -/
  hb : Int
  /-- temperature (08 R183; reset 0) -/
  sTemp : BitVec 16
  /-- beam entry CRC held (08 R183; reset 0) -/
  sCrc : BitVec 32
  /-- blocked_crc (08 R184; reset 0) -/
  sBlockedCrc : BitVec 32
  /-- blocked_count (08 R184; reset 0) -/
  sBlockedCount : BitVec 18
  /-- a STATUS has arrived since training (08 R186; reset false) -/
  statusSeen : Bool
  deriving DecidableEq, Repr

/-! ### Stage tracking (09) -/

/-- Tracking states (09 R210). -/
inductive TrkSt where
  | off | acquiring | locked | lost
  deriving DecidableEq, Repr

/-- One of the 16 block-floating stages (09 R205): mantissas (w for stage 0; x1, x2, y1, y2 otherwise) and exponent. -/
structure Stage where
  /-- mantissas, 24 bits two's complement each (09 R205; reset 0) -/
  m : Vector Int 4
  /-- exponent, signed 8 bits (09 R205; reset 0) -/
  e : Int
  /-- saturation flag of the last sample (09 R206; reset false) -/
  sat : Bool
  deriving DecidableEq, Repr

/-- A position channel (09 R200, R201). -/
structure Channel where
  /-- position in counts, signed 48 bits (09 R200; reset 0) -/
  pos : Int
  /-- last seq of a serial frame (09 R201; reset none) -/
  seq : Option (BitVec 8)
  /-- consecutive frames that were not good (09 R214; reset 0) -/
  bad : Nat
  /-- count latched by Z (09 R200; reset none) -/
  index : Option Int
  /-- positions of the last 21 samples, newest first (09 R213; reset empty) -/
  hist : List Int
  deriving DecidableEq, Repr

/-- The tracking engine. -/
structure Track where
  /-- state (09 R210; reset OFF) -/
  st : TrkSt
  /-- the four channels (09 R200) -/
  ch : Vector Channel 4
  /-- banks A and B, 1,040-byte images; none = empty (09 R207, R208; reset empty unless the store holds one) -/
  banks : Vector (Option (List Byte)) 2
  /-- active bank (09 R208; reset none) -/
  active : Option Nat
  /-- swap awaiting the sample boundary: bank (09 R209; reset none) -/
  swap : Option Nat
  /-- the 16 stages (09 R205) -/
  stages : Vector Stage 16
  /-- φ, om, e, s40.24 raw (09 R203; reset 0) -/
  phi : Int
  /-- om (09 R203; reset 0) -/
  om : Int
  /-- e (09 R203; reset 0) -/
  e : Int
  /-- phase step st (09 R203; reset 0) -/
  step : Int
  /-- lead, fixed while armed, u8.16 (09 R203; reset 0) -/
  lead : Int
  /-- λ of the last samples, newest first, at most 17 (09 R210; reset empty) -/
  lams : List Int
  /-- λ_hw (09 R216; reset 0) -/
  lamHw : Int
  /-- inside an excursion already counted (09 R216; reset false) -/
  excursion : Bool
  /-- last flash for which a fire event was issued (09 R203; reset 0) -/
  f : Int
  /-- the fire event scheduled: flash and placement in 0.25 ns after the sample (09 R203; reset none) -/
  fire : Option (Int × Nat)
  /-- p0 and dir of the stripe (09 R203, 10 R220; reset 0 and +1, DC 2) -/
  p0 : Int
  /-- direction (10 R220; reset +1, DC 2) -/
  dir : Int
  /-- a new frame of reference handed over, taken at the next sample (09 R203; reset none) -/
  newFrame : Option (Int × Int)
  /-- samples since ACQUIRING began with |e| inside ±h, consecutive (09 R210; reset 0) -/
  lockRun : Nat
  /-- the arming sample has not run yet (09 R210; reset false) -/
  arming : Bool
  /-- consecutive samples with |e| beyond trk_fe_limit (09 R214; reset 0) -/
  feRun : Nat
  /-- model positions of the last 21 samples, newest first (09 R213; reset empty) -/
  model : List Int
  /-- a clamp of the DAC has been raised in this stripe (09 R217; reset false) -/
  dacClamped : Vector Bool 4
  /-- DAC output codes (09 R217; reset 0) -/
  dac : Vector Int 4
  /-- samples since power-up of TRK (09 R203; reset 0) -/
  samples : Nat
  deriving DecidableEq, Repr

/-! ### Scan profile and interlocks (10) -/

/-- Generator states (10 R231). -/
inductive GenSt where
  | released | idle | moving | atApproach | stripe | stopping | homing
  deriving DecidableEq, Repr

/-- A motion being made: its parameters (kind 0 a move, 1 a ramp to rest, 2 the run of a stripe, 3 a search, 4 a move to a target of SCAN_STOP; then the
numbers it is planned from), and the target of a move (10 R223, R225). -/
structure Move where
  params : List Int
  target : Int
  deriving DecidableEq, Repr

/-- An index search in progress (10 R238): 0 searching, 1 ramping to rest, 2 returning, 3 aborted and ramping, 4 waiting for the
generator to be at rest. -/
structure Homing where
  neg : Bool
  speed : Nat
  travel : Nat
  phase : Nat
  index : Int
  abort : Nat
  deriving DecidableEq, Repr

/-- The profile generator. -/
structure Scan where
  /-- state (10 R231; reset RELEASED) -/
  st : GenSt
  /-- active profile image, 64 bytes (10 R221, R491; reset none) -/
  profile : Option (BitVec 512)
  /-- p_home, signed 48 bits (10 R220; reset 0) -/
  pHome : Int
  /-- homed (10 R226; reset false) -/
  homed : Bool
  /-- SPO seq, 8 bits (10 R228; reset 0) -/
  spoSeq : BitVec 8
  /-- setpoint position, velocity, acceleration (10 R228; reset 0) -/
  pos : Int
  /-- setpoint velocity (10 R228; reset 0) -/
  vel : Int
  /-- setpoint acceleration (10 R228; reset 0) -/
  acc : Int
  /-- positions and velocities of the last 12 setpoints, newest first: the path of the motion model (09 R212; reset
  empty) -/
  hist : List (Int × Int)
  /-- the move being made (10 R223; reset none) -/
  move : Option Move
  /-- intervals since the move began (10 R228; reset 0) -/
  k : Nat
  /-- target to move to once at rest, and target of a SCAN_STOP (10 R232; reset none) -/
  target : Option Int
  /-- homing in progress (10 R238; reset none) -/
  homing : Option Homing
  /-- stop = 1 in the frames: a ramped stop is in progress (10 R228; reset false) -/
  stop : Bool
  /-- f_w of the stripe in Hz (10 R224; reset 0) -/
  fw : Nat
  /-- λ_a in lines (10 R225; reset 0) -/
  lamA : Int
  /-- y_s of the stripe (10 R220; reset 0) -/
  ys : Int
  /-- waits raised once per stripe: no profile, not homed, soft limit (10 R226, R491; reset false) -/
  raisedNoProfile : Bool
  /-- SCAN_NOT_HOMED raised for the stripe (10 R226; reset false) -/
  raisedNotHomed : Bool
  /-- SCAN_SOFT_LIMIT raised for the stripe (10 R226; reset false) -/
  raisedSoft : Bool
  /-- SPO frames with fault = 1 still to send in HOLD, 10 µs each (19 R424; reset 0) -/
  faultFrames : Nat
  deriving DecidableEq, Repr

/-- One interlock input (10 R234, R235). -/
structure Ilk where
  /-- configuration, 16 bits (10 R234; reset EN 1, HARD 1, POL 0, ROLE 0, DEB 10) -/
  cfg : BitVec 16
  /-- latched (10 R235; reset clear; survives all but a power-on reset) -/
  latched : Bool
  /-- FT of the first active edge of the latched episode (10 R235; reset 0) -/
  ft : BitVec 32
  /-- LT of that edge (10 R235; reset 0) -/
  lt : BitVec 32
  /-- chatter count of the episode (10 R235; reset 0) -/
  chatter : BitVec 32
  /-- ILK_CHATTER has been raised for the latched episode (10 R235; reset false) -/
  noted : Bool
  deriving DecidableEq, Repr

/-! ### DMA and translation (14) -/

/-- Descriptor states (14 R341). -/
inductive DescSt where
  | queued | active | yielded | stalled | retryWait | final
  deriving DecidableEq, Repr

/-- A started or queued descriptor of a channel (14 R331, R341). -/
structure Desc where
  idx : BitVec 32
  words : BitVec 512
  st : DescSt
  /-- destination bytes written (14 R337) -/
  done : Nat
  attempts : Nat
  status : BitVec 16
  reason : BitVec 16
  faultId : BitVec 16
  deriving DecidableEq, Repr

/-- A DMA channel (13 R311). -/
structure Channel16 where
  /-- address space (13 R311; reset 0) -/
  flow : BitVec 8
  /-- 2 = R, 3 = B (13 R311; reset 3, DC 2) -/
  cls : Nat
  /-- retries (13 R311; reset 0) -/
  retries : Nat
  /-- pacing ring (13 R311; reset 0) -/
  paceRing : Nat
  /-- pacing on (13 R311; reset false) -/
  paceEn : Bool
  /-- high water mark (13 R311; reset 0) -/
  hi : Nat
  /-- low water mark (13 R311; reset 0) -/
  lo : Nat
  /-- pacing holds the channel (14 R342; reset false) -/
  paced : Bool
  /-- unreleased descriptors, in ring order (14 R338; reset empty) -/
  descs : List Desc
  /-- some descriptor has been released with a status other than OK since the ring was enabled (14 R338; reset false) -/
  notOk : Bool
  /-- descriptors interrupted by a Function Level Reset (14 R345; reset empty) -/
  stoppedDescs : List Desc
  deriving DecidableEq, Repr

/-- An outstanding translation fault (14 R346). -/
structure DFault where
  id : BitVec 16
  flow : BitVec 8
  reason : Nat
  write : Bool
  ctx : Nat
  idx : BitVec 32
  va : BitVec 64
  progress : Nat
  deriving DecidableEq, Repr

/-- A translation cache entry (14 R345). -/
structure TEntry where
  slot : Nat
  flow : BitVec 8
  page : Nat
  big : Bool
  host : Nat
  w : Bool
  deriving DecidableEq, Repr

/-- A COPY item that runs (14 R348). -/
structure CopyRun where
  flow : BitVec 8
  seq : BitVec 64
  /-- destination bytes written (14 R337) -/
  done : Nat
  attempts : Nat
  /-- 0 active, 1 stalled by a translation fault, 2 waiting to retry -/
  st : Nat
  deriving DecidableEq, Repr

/-- DMA engine and translation unit. -/
structure Dma where
  /-- the sixteen channels (14 R328) -/
  ch : Vector Channel16 16
  /-- root of each flow's space; listed = translation on (14 R343; reset none: en = 0) -/
  roots : Tbl (BitVec 64)
  /-- cache entries in use (14 R345; reset empty) -/
  cache : List TEntry
  /-- round-robin replacement pointer of expose-critical flows, over all 2,048 entries (14 R345; reset 0, DC 2) -/
  ptr : Nat
  /-- the same of other flows, over the 1,792 shared entries (14 R345; reset 0, DC 2) -/
  ptrShared : Nat
  /-- outstanding faults (14 R346; reset empty) -/
  faults : List DFault
  /-- next fault id, 16 bits (14 R346; reset 0) -/
  nextId : BitVec 16
  /-- faults stalled without an id, oldest first (14 R346; reset empty) -/
  waiting : List DFault
  /-- DTU_FAULT_TABLE_FULL raised in this episode (14 R346; reset false) -/
  fullRaised : Bool
  /-- COPY items that run (14 R348; reset empty) -/
  copies : List CopyRun
  deriving DecidableEq, Repr

/-! ### Fabric and pairs (15) -/

/-- Port states (15 R355). -/
inductive PortSt where
  | down | training | up | quarantined
  deriving DecidableEq, Repr

/-- An unacknowledged spore of a port and class (15 R354). -/
structure TxSpore where
  hopSeq : Nat
  ttl : Nat
  header : W128
  payload : List Byte
  deriving DecidableEq, Repr

/-- One class of a port's link layer (15 R353, R354). -/
structure PClass where
  /-- credits held, at most 256 (15 R353; reset 256) -/
  credits : Nat
  /-- credits spent since UP, cumulative (15 R352; reset 0) -/
  spent : Nat
  /-- credits returned by the partner, cumulative modulo 256 (15 R352; reset 0) -/
  returned : Nat
  /-- next hop sequence sent, 24 bits (15 R354; reset 0) -/
  tx : Nat
  /-- next hop sequence expected, 24 bits (15 R354; reset 0) -/
  rx : Nat
  /-- unacknowledged spores, oldest first (15 R354; reset empty) -/
  unacked : List TxSpore
  /-- spores waiting for credits (15 R353; reset empty) -/
  queue : List TxSpore
  /-- consecutive retransmission episodes without progress (15 R354; reset 0) -/
  episodes : Nat
  /-- spores taken and not yet acknowledged (15 R354; reset 0) -/
  owedAcks : Nat
  /-- credits freed, cumulative modulo 256 (15 R352; reset 0) -/
  freed : Nat
  /-- credits owed and not yet sent (15 R353; reset 0) -/
  owed : Nat
  deriving DecidableEq, Repr

/-- A fabric port (15 R351). -/
structure Port where
  /-- state (15 R355; reset DOWN) -/
  st : PortSt
  /-- partner's serial, node and mode (15 R358; reset 0) -/
  pSerial : BitVec 64
  /-- partner's node (15 R358; reset 0) -/
  pNode : BitVec 12
  /-- the four classes X, L, R, B -/
  cls : Vector PClass 4
  /-- times in LT of the last violations, newest first, at most 16 (15 R374; reset empty) -/
  viol : List Nat
  /-- posted receive buffers: etag and buffer reference, oldest first, at most 64 (15 R364; reset empty) -/
  posted : List (BitVec 32 × W128)
  deriving DecidableEq, Repr

/-- A device found by a discovery (15 R377). -/
structure Found where
  serial : BitVec 64
  node : BitVec 12
  up : BitVec 8
  nbr : List (BitVec 64)
  deriving DecidableEq, Repr

/-- Pair states (15 R370). -/
inductive PairSt where
  | unpaired | paired | handingOver | partnerLost
  deriving DecidableEq, Repr

/-- The last PAIR_BEAT of the partner (15 R358). -/
structure Beat where
  wack : Nat
  mode : Nat
  seqSt : Nat
  stripe : BitVec 16
  flow : BitVec 8
  f : BitVec 32
  h : BitVec 32
  seq : BitVec 64
  crcs : BitVec 96
  deriving DecidableEq, Repr

/-- The lichen pair (15 R368-R372). -/
structure Pair where
  /-- state (15 R370; reset UNPAIRED) -/
  st : PairSt
  /-- pair_role: 0, 1 exposing, 2 shadow (13 R296; reset 0) -/
  role : Nat
  /-- partner node (15 R377; reset 0) -/
  partner : BitVec 12
  /-- a FAB_PAIR in progress: partner and role (15 R368; reset none) -/
  pending : Option (BitVec 12 × Nat)
  /-- the latest PAIR_REQ received: node, role and CRCs (15 R368; reset none) -/
  req : Option (BitVec 12 × Nat × BitVec 96)
  /-- the partner's PAIR_ACK has been received (15 R368; reset false) -/
  ackSeen : Bool
  /-- last beat (15 R377; reset none) -/
  beat : Option Beat
  /-- beats sent (15 R358; reset 0) -/
  beats : BitVec 32
  /-- the crcs differ now (15 R369; reset false) -/
  mismatch : Bool
  /-- the single-route condition (15 R368; reset false) -/
  singleRoute : Bool
  /-- handover step: 0 none, 1 boundary, 2 witness, 3 release, 4 waiting for GO as shadow, 5 claim, 6 done (15 R371;
  reset 0) -/
  step : Nat
  /-- this device issued the handover (15 R371; reset false) -/
  issuer : Bool
  /-- now of the handover (15 R371; reset false) -/
  now : Bool
  /-- host region named by the handover: flow, address and N (11 R259; reset none) -/
  region : Option (BitVec 8 × Nat × Nat)
  /-- a takeover is claiming the port (15 R372; reset false) -/
  takeover : Bool
  /-- handovers and takeovers made (15 R377; reset 0) -/
  handovers : BitVec 64
  /-- takeovers (15 R377; reset 0) -/
  takeovers : BitVec 64
  deriving DecidableEq, Repr

/-- The mirror a device keeps as another's witness (15 R367). -/
structure Mirror where
  /-- client node (15 R367; reset none) -/
  client : Option (BitVec 12)
  /-- epoch last acknowledged (15 R367; reset 0) -/
  epoch : BitVec 32
  /-- epoch of the latest PAIR_REQ (15 R367; reset none) -/
  pairEpoch : Option (BitVec 32)
  /-- records held, by wseq (15 R367; reset empty) -/
  recs : List WRec
  /-- highest wseq up to which every record is held (15 R358; reset 0) -/
  upTo : Nat
  deriving DecidableEq, Repr

/-- The fabric. -/
structure Fabric where
  /-- the eight ports (15 R351) -/
  ports : Vector Port 8
  /-- own node ID, 12 bits; 0 unassigned (15 R361; reset 0) -/
  node : BitVec 12
  /-- routing table, 32 bits each, by destination (15 R362; reset 0) -/
  routes : Tbl (BitVec 32)
  /-- next msg_id, 32 bits (15 R356; reset 0, DC 2) -/
  msgId : BitVec 32
  /-- next flood_id, 32 bits (15 R360; reset 0, DC 2) -/
  floodId : BitVec 32
  /-- floods remembered, newest first, at most 1,024: origin, flood_id and LT in ns (15 R360; reset empty) -/
  floods : List (BitVec 64 × BitVec 32 × Nat)
  /-- floods of TOPO already answered: origin and flood_id (15 R360; reset empty) -/
  answered : List (BitVec 64 × BitVec 32)
  /-- devices collected by the discovery (15 R360; reset empty) -/
  found : List Found
  /-- HOST spores of this device not yet known to be delivered: msg_id (15 R365; reset empty) -/
  hostSent : List (BitVec 32)
  /-- the mirror (15 R367) -/
  mirror : Mirror
  /-- the pair (15 R368) -/
  pair : Pair
  /-- lone half pieces: img_id, index, half, pcrc and bytes (21 R459; reset empty) -/
  halves : List (BitVec 32 × Nat × Bool × BitVec 32 × List Byte)
  deriving DecidableEq, Repr

/-! ### HBM controller (17) -/

/-- A pseudo-channel (17 R399, R401). -/
structure PseudoCh where
  /-- LFSR, 32 bits (17 R399; reset: seeded from the serial and the number, never zero) -/
  lfsr : BitVec 32
  /-- in a retraining slice (17 R401; reset false) -/
  slice : Bool
  /-- FT at the last training (17 R407; reset 0) -/
  trained : BitVec 32
  /-- temperature at the last training (17 R401; reset 0) -/
  tempAt : BitVec 16
  /-- width of the last eye in thousandths of a UI (17 R407; reset 0) -/
  eye : BitVec 16
  /-- the next slice is due early, after a failed one or by temperature (17 R401, R402; reset false) -/
  due : Bool
  deriving DecidableEq, Repr

/-- The HBM controller. -/
structure Hbm where
  /-- the 64 pseudo-channels -/
  pcs : Vector PseudoCh 64
  /-- stack temperatures, raw s13.3 (17 R398; reset 0) -/
  temp : Vector (BitVec 16) 2
  /-- refresh rate doubled (17 R398; reset false) -/
  doubled : Vector Bool 2
  /-- HBM_TEMP_HIGH raised and not re-armed (17 R398; reset false) -/
  hotRaised : Vector Bool 2
  /-- frozen by an uncorrectable error (17 R403; reset false) -/
  frozen : Bool
  /-- the frozen record, 256 bits (17 R404; reset none) -/
  frozenRec : Option (BitVec 256)
  /-- latest corrected records, newest first, at most 255 (17 R404; reset empty) -/
  log : List (BitVec 256)
  /-- errors of each kind 1-5 since power-on (17 R404; reset 0) -/
  kindCnt : Vector (BitVec 64) 6
  deriving DecidableEq, Repr

/-! ### Calibration (18) -/

/-- Calibration. -/
structure Cal where
  /-- 0 none, 1 waiting for its point, 2 running (18 R419; reset 0) -/
  st : Nat
  /-- targets requested, 4 bits (18 R414; reset 0) -/
  targets : BitVec 4
  /-- flow and seq of the CAL item that asked for it (18 R413; reset none: a CAL_RUN) -/
  item : Option (BitVec 8 × BitVec 64)
  /-- I_R of the run in nA (18 R408; reset 0) -/
  iRef : Nat
  /-- active corrections: target, unit, quantity and value; unlisted = the manufacturing value (18 R416) -/
  values : List (Nat × Nat × Nat × Int)
  /-- swing trims accepted and not yet applied (18 R415; reset empty) -/
  swing : List (Nat × Nat × Nat × Int)
  /-- measurements of the last run (18 R419; reset empty) -/
  last : List CalMeas
  /-- limits image, 64 bytes (18 R412; reset its stated defaults) -/
  limits : BitVec 512
  /-- calibration count, 32 bits, in NOR (18 R416; reset 0, DC 2: as manufactured) -/
  count : BitVec 32
  /-- failure count, 32 bits, in NOR (18 R416; reset 0, DC 2) -/
  failures : BitVec 32
  /-- PT of the last run (18 R416; reset 0) -/
  pt : BitVec 32
  /-- FT of the last run (18 R416; reset 0) -/
  ft : BitVec 32
  /-- accepted and failed masks of the last run (18 R419; reset 0) -/
  accepted : BitVec 4
  /-- failed mask (18 R419; reset 0) -/
  failedMask : BitVec 4
  /-- monitor ADC: corrected reading, stale flag and LT stamp per channel (18 R419; reset 0) -/
  adc : Vector (Int × Bool × BitVec 32) 8
  deriving DecidableEq, Repr

/-! ### Keeper, update, service, SMBus, diagnostics -/

/-- A key slot (20 R440). -/
structure KeySlot where
  key : BitVec 256
  keyId : BitVec 64
  imports : BitVec 32
  occupied : Bool
  deriving DecidableEq, Repr

/-- A sealed region of the register (20 R443). -/
structure Region where
  slot : Nat
  start : Nat
  len : Nat
  deriving DecidableEq, Repr

/-- An entry of the tamper log (20 R445). -/
structure TamperEntry where
  cause : Nat
  mask : BitVec 64
  ticks : BitVec 48
  lt : BitVec 32
  deriving DecidableEq, Repr

/-- An erasure whose regions are being zeroed (20 R444). -/
structure Erasure where
  mask : BitVec 64
  cause : Nat
  all : Bool
  deriving DecidableEq, Repr

/-- The keeper (20). -/
structure Keeper where
  /-- the 64 slots (20 R440; reset empty, DC 2) -/
  slots : Vector KeySlot 64
  /-- import, erase and tamper trip counts, 32 bits (20 R445; reset 0, DC 2: as manufactured) -/
  imports : BitVec 32
  /-- erase count (20 R445; reset 0, DC 2) -/
  erases : BitVec 32
  /-- tamper trip count (20 R445; reset 0, DC 2) -/
  trips : BitVec 32
  /-- sealed-region register, at most 64 (20 R443; reset empty, DC 2) -/
  regions : List Region
  /-- scrub mark: erasures whose zeroing waits for MEM (20 R444; reset empty) -/
  scrub : List Erasure
  /-- erasures whose zeroing runs (20 R444; reset empty) -/
  zeroing : List Erasure
  /-- tamper latch (20 R446; reset clear) -/
  latched : Bool
  /-- consecutive failed checks (20 R446; reset 0) -/
  fails : Nat
  /-- the loop failed its last check (20 R447; reset false) -/
  loopOpen : Bool
  /-- failed checks while latched (20 R447; reset 0) -/
  latchedFails : BitVec 32
  /-- tamper log, newest first, at most 32 (20 R445; reset empty) -/
  log : List TamperEntry
  /-- debug access open (20 R448; reset false) -/
  debug : Bool
  /-- a debug request is held (20 R448; reset false) -/
  dbgHeld : Bool
  /-- VBAT in mV (20 R439; reset 0: SMB_VBAT of 22 R483) -/
  vbat : BitVec 16
  /-- VBAT low flag (20 R439; reset false) -/
  vbatLow : Bool
  /-- the keeper runs on VBAT (20 R438; reset false) -/
  battery : Bool
  /-- stopped below 2.05 V on battery (20 R439; reset false) -/
  stopped : Bool
  /-- tick counter, 48 bits (20 R438; reset 0, DC 2) -/
  ticks : BitVec 48
  /-- events to raise when main power returns: code and detail (20 R453; reset empty) -/
  later : List (Nat × W128)
  deriving DecidableEq, Repr

/-- An UPDATE item that runs (21 R458). -/
structure UpdRun where
  flow : BitVec 8
  seq : BitVec 64
  /-- the image, as read once at the start -/
  image : List Byte
  /-- pieces sent -/
  sent : Nat
  /-- NACKs met by each piece -/
  nacks : Tbl Nat
  /-- UPD_RELAY begin has been answered -/
  begun : Bool
  /-- pieces the target holds -/
  have_ : List Nat
  /-- msg_id and piece of the PIECE spores sent, newest first (15 R359, 21 R458) -/
  msgs : List (BitVec 32 × Nat)
  deriving DecidableEq, Repr

/-- Firmware update state in NOR (21 R454, R456). -/
structure Update where
  /-- 0 none, 1 receiving, 2 complete, 3 armed, 4 writing (13 R320, 21 R461; reset 0, DC 2) -/
  st : Nat
  /-- descriptor: img_id, img_len, pieces, img_crc, digest (21 R454; reset 0) -/
  imgId : BitVec 32
  /-- image length (21 R454; reset 0) -/
  imgLen : Nat
  /-- pieces (21 R454; reset 0) -/
  pieces : Nat
  /-- image CRC (21 R454; reset 0) -/
  imgCrc : BitVec 32
  /-- SHA-384 (21 R454; reset 0) -/
  digest : BitVec 384
  /-- pieces held: index, pcrc and the 4,096 bytes in the staging area (21 R454, R456; reset empty) -/
  held : List (Nat × BitVec 32 × List Byte)
  /-- boot code (21 R461; reset 0, DC 2) -/
  boot : Nat
  /-- running image identifier, firmware version, and the versions it writes and migrates from (21 R455; reset 0) -/
  runId : BitVec 32
  /-- cfg_ver of the running image (21 R455; reset 0) -/
  cfgVer : BitVec 32
  /-- cfg_min of the running image (21 R455; reset 0) -/
  cfgMin : BitVec 32
  /-- installs since manufacture (21 R466; reset 0, DC 2) -/
  installs : BitVec 32
  /-- refusals since manufacture (21 R466; reset 0, DC 2) -/
  refusals : BitVec 32
  /-- UPDATE items that run (21 R458; reset empty) -/
  items : List UpdRun
  deriving DecidableEq, Repr

/-- The configuration store in NOR (13 R304). -/
structure NorStore where
  /-- a store has been written (13 R304; reset false, DC 2: as manufactured) -/
  valid : Bool
  ver : BitVec 32
  items : CfgItems
  ilk : Vector (BitVec 16) 8
  profile : Option (BitVec 512)
  banks : Vector (Option (List Byte)) 2
  activeBank : Option Nat
  witness : WitnessKind
  epoch : BitVec 32
  node : BitVec 12
  routes : Tbl (BitVec 32)
  timeSrc : Vector Nat 4
  ptpDomain : BitVec 8
  ftPort : Nat
  limits : BitVec 512
  commits : BitVec 32
  deriving DecidableEq, Repr

/-- NOR contents besides the update state: the store and the calibration record are applied from here. -/
structure Nor where
  /-- the configuration store (13 R304) -/
  store : NorStore
  /-- the persistent log, newest first (21 R454; reset empty, DC 2) -/
  log : List EventRec
  /-- service marks with FT and LT, newest first (20 R451; reset empty) -/
  marks : List (BitVec 32 × BitVec 32)
  /-- frozen records kept beside their events (17 R404; reset empty) -/
  frozen : List (BitVec 256)
  deriving DecidableEq, Repr

/-- Service port and IDENT (20 R449-R451). -/
structure Service where
  /-- attached (20 R450; reset false) -/
  attached : Bool
  /-- completions discarded (20 R450; reset 0) -/
  discarded : BitVec 64
  /-- last 64 edges: 0 attach, 1 detach, 2 IDENT, with LT, newest first (20 R453; reset empty) -/
  edges : List (Nat × BitVec 32)
  /-- all LEDs flash at 4 Hz (20 R451; reset false) -/
  flashing : Bool
  /-- IDENT is held as stuck (20 R451; reset false) -/
  stuck : Bool
  deriving DecidableEq, Repr

/-- The SMBus registers that hold state (22 R483). -/
structure Smb where
  /-- SMB_STATUS, 4 bits (22 R483; reset RESET = 1) -/
  status : BitVec 4
  /-- SMB_ALERT_EN, 4 bits (22 R483; reset 0) -/
  alertEn : BitVec 4
  /-- SMB_TEMP, 16 bits (22 R483; reset 0) -/
  temp : BitVec 16
  /-- the strap address bits SMB_ADDR1 and SMB_ADDR0 (22 R483; reset 0, DC 2) -/
  addr : BitVec 2
  deriving DecidableEq, Repr

/-- Diagnostics (13 R321-R323). -/
structure Diag where
  /-- injected faults still to occur: fault, occurrences left, param (13 R322; reset empty) -/
  inject : List (Nat × Nat × BitVec 32)
  /-- witness acknowledgements are withheld (13 R322; reset false) -/
  withhold : Bool
  /-- the loopback in progress: path and unit (13 R321; reset none) -/
  loop : Option (Nat × Nat)
  /-- result of the last loopback (13 R326; reset 0) -/
  result : BitVec 64 × BitVec 64 × BitVec 32
  deriving DecidableEq, Repr

/-- The readback aperture (13 R299). -/
structure Aperture where
  /-- object mapped (13 R299; reset 0) -/
  object : BitVec 32
  /-- bytes mapped (13 R299; reset empty) -/
  bytes : List Byte
  /-- generation, 32 bits (13 R299; reset 0) -/
  gen : BitVec 32
  deriving DecidableEq, Repr

/-- The event engine (12 R285, 13 R324). -/
structure Events where
  /-- event counters by code, 32 bits each (12 R285; reset 0) -/
  count : Tbl (BitVec 32)
  /-- 64-bit extensions by code (13 R323; reset 0) -/
  ext : Tbl (BitVec 64)
  /-- last millisecond in which a rate-limited record was written: key and LT in ms plus one (12 R286; reset empty) -/
  limit : Tbl Nat
  deriving DecidableEq, Repr

/-- The state of the block: every part of the device, the memories it reaches, its outputs, and the queue of commands
that wait, first in, first out. -/
structure State where
  /-- commands waiting, first in, first out (the model's own; reset empty) -/
  pending : List Instr
  /-- outputs given, newest first (the model's own; reset empty) -/
  out : List Output
  pm : Power
  time : Times
  win : Win
  mb : Mailboxes
  cfg : Config
  led : Ledger
  lay : Layout
  rnd : Render
  store : Store
  seq : Seq
  link : Link
  trk : Track
  scan : Scan
  ilk : Vector Ilk 8
  dma : Dma
  fab : Fabric
  hbm : Hbm
  cal : Cal
  keep : Keeper
  upd : Update
  nor : Nor
  svc : Service
  smb : Smb
  diag : Diag
  aper : Aperture
  evt : Events
  /-- 64-bit statistics by object and index (13 R326; reset 0) -/
  stats : Tbl (BitVec 64)
  /-- HBM contents, 48 GiB of bytes (17 R391; unlisted bytes read 0, DC 3) -/
  hbmMem : Memory
  /-- host memory as the device's reads find it (12, 14; unlisted bytes read 0, DC 3) -/
  hostMem : Memory
  /-- free values used so far (the model's own; reset 0, DC 7) -/
  free : Nat
  deriving DecidableEq, Repr

/-! ### The state after reset

The instant at which RESET_N is about to be released with main power present for the first time (19 R434, step 0):
power-on reset values everywhere, the keeper and NOR as manufactured (DC 2). The command POWER_ON_RESET runs the
start-up from here. -/

/-- The power state at reset (19 R430, R434). -/
def Power.init : Power where
  mode := .recovery
  target := .recovery
  changing := false
  fwState := 0
  held := .resetLow
  trigger := 1
  claimWait := false
  reenter := none
  railMv := Vector.replicate 9 0
  railsLow := 0
  railMin := Vector.replicate 9 0xFFFF
  warnings := 0
  recoveries := 0
  modeHistory := []
  resetHistory := []
  watchdogResets := 0
  thermalTrips := 0
  commandedReset := none
  resetLt := 0
  heldKind := 0

/-- A base at power-up: zero, unset, at the nominal rate (16 R380). -/
def TimeBase.init : TimeBase where
  acc := 0
  rate := 0
  src := 0
  state := 0
  offset := 0
  delay := 0
  steps := 0
  acquired := false
  lockRun := 0
  exchanges := 0

/-- The time bases at reset (16 R380). -/
def Times.init : Times where
  base := Vector.replicate 4 TimeBase.init
  ptpDomain := 0
  ftPort := 0
  hops := 0
  master := 0
  lastRx := Vector.replicate 8 (0, 0)
  sent := []
  conflicts := []
  ptpMasters := []
  ptpMaster := none
  ptpSync := none
  ptpForward := 0
  ptpReq := none
  ptpSeq := 0
  stamps := Vector.replicate 3 (0, 0)

/-- The MSI-X vector of ring `i` at reset (12 R282). -/
def Ring.resetVec (i : Nat) : Nat :=
  if i < 16 then (if i % 2 = 1 then 1 + i / 2 else 0)
  else if i < 32 then 9 + (i - 16)
  else if i < 48 then (if i % 2 = 1 then 25 + (i - 33) / 2 else 0)
  else if i < 56 then 33 + (i - 48)
  else 41 + (i - 56)

/-- WIN_RING_CFG of ring `i` at reset (12 R273): LOG2N 4, VEC as R282, CLASS_MASK 0x1FFF on ring 48. -/
def Ring.resetCfg (i : Nat) : BitVec 64 :=
  BitVec.ofNat 64 (4 * 2 + Ring.resetVec i * 2 ^ 6 + if i = 48 then 0x1FFF * 2 ^ 32 else 0)

/-- Ring table entry `i` at reset (12 R272-R274). -/
def Ring.init (i : Nat) : Ring where
  base := 0
  cfg := Ring.resetCfg i
  shadow := 0
  devIdx := 0
  hostIdx := 0
  st := 0
  full := false
  dbBad := false
  busErr := false
  errAddr := 0
  coal := 0
  stalled := false

/-- The host window at reset (12 R266-R282). -/
def Win.init : Win where
  heartbeat := 0
  status := 0
  statusIrq := 0
  window := 0
  stageEn := false
  temp := 0
  setCnt := Vector.replicate 11 0
  rings := Vector.ofFn (fun i => Ring.init i.val)
  msix := Vector.replicate 64 (BitVec.ofNat 128 (2 ^ 96))
  pba := 0
  fwVer := 0
  resultWait := Vector.replicate 8 []

/-- The defaults of the configuration items (13 R302). -/
def CfgItems.init : CfgItems where
  tq := 112
  fMax := 2000000
  condEnable := 0
  condIdle := 64
  condWidth := 12
  tMark := 24
  renderOffload := 0
  offloadPeers := []
  offloadLead := 128
  offloadDeadline := 64
  xReserve := 8
  segCode := 0
  ctabAddr := 0
  laneDisable := 0
  posCfg := Vector.replicate 4 0
  dacCfg := Vector.replicate 4 0
  dacHost := Vector.replicate 4 0
  modelEnable := 1
  modelDelay := 20
  modelLimit := 1024
  feLimit := 128
  feTime := 100
  diagEnable := 0
  nrrK := 10
  retrainMs := 1000

/-- The configuration at reset: item defaults, nothing staged, no table or image loaded (13 R302, R304). -/
def Config.init : Config where
  act := CfgItems.init
  staged := []
  btab := none
  btabStaged := none
  btabActs := 0
  lmap := none
  lmapStaged := none
  lmapActs := 0
  rp := none
  rpStaged := none
  rpActs := 0
  codeActs := 0

/-- The ledger with nothing in it (11 R242-R257). -/
def Ledger.init : Ledger where
  flows := []
  items := []
  witness := .none
  epoch := 0
  wseq := 1
  unacked := []
  acked := 0
  acked2 := 0
  second := false
  lost := false
  rebuilt := false
  pendingWitness := none
  rebuilds := 0
  recs := []
  turn := 0

/-- No ingest and no census running. -/
def Layout.init : Layout where
  ingests := []
  censuses := []
  decryptor := none
  lastJob := none
  lastMap := none

/-- All render cores idle (05 R101). -/
def Render.init : Render where
  cores := Vector.replicate 32 none
  waiting := []
  bins := []
  offloads := []
  nextPeer := 0
  ready := false
  badLine := none

/-- Every slot FREE, every pool block on the free list in order (06 R131, R145). -/
def Store.init : Store where
  slots := []
  pool := []
  fresh := 0
  returned := []
  spillReady := []
  spillRaised := false
  ctab := none

/-- The sequencer IDLE, GBLANK high (07 R165, 01 R20). -/
def Seq.init : Seq where
  st := .idle
  item := none
  stripe := 0
  linesM1 := 0
  nFirst := 0
  nLast := 0
  n0 := 0
  f := 0
  m := 0
  h := 0
  hKnown := false
  causes := []
  met := []
  lastCause := 0
  immediate := false
  violated := false
  secondFail := false
  late := false
  resumes := 0
  failed := []
  openFails := 0
  opened := false
  framed := none
  fired := []
  strobed := 0
  gblank := true
  gstrobe := false
  wdLatch := false
  dieWarned := false
  bsaWarned := false
  dieHot := false
  bsaLimit := false
  bsaWarn := false
  cool := true

/-- The identity lane map: logical lanes 0-75 on physical lanes 0-75, 76-79 spare (08 R174). -/
def Link.identityMap : Vector Byte 80 :=
  Vector.ofFn (fun i => if i.val < 76 then BitVec.ofNat 8 i.val else 0xFF)

/-- The blanker link DOWN (08 R186). -/
def Link.init : Link where
  st := .down
  failed := 0
  map := Link.identityMap
  locks := 0
  trainSeen := false
  rlock := Vector.replicate 2 true
  rlane := 0
  cseq := 0
  out := []
  chunks := 0
  committed := none
  commitAcked := false
  mseq := none
  errs := []
  held := false
  claim := none
  lost := false
  sActive := 0
  sStripeSt := 0
  sStripe := 0
  hb := 0
  sTemp := 0
  sCrc := 0
  sBlockedCrc := 0
  sBlockedCount := 0
  statusSeen := false

/-- A stage at zero (09 R205). -/
def Stage.init : Stage where
  m := Vector.replicate 4 0
  e := 0
  sat := false

/-- A position channel at power-up (09 R200). -/
def Channel.init : Channel where
  pos := 0
  seq := none
  bad := 0
  index := none
  hist := []

/-- Tracking OFF (09 R210). -/
def Track.init : Track where
  st := .off
  ch := Vector.replicate 4 Channel.init
  banks := Vector.replicate 2 none
  active := none
  swap := none
  stages := Vector.replicate 16 Stage.init
  phi := 0
  om := 0
  e := 0
  step := 0
  lead := 0
  lams := []
  lamHw := 0
  excursion := false
  f := 0
  fire := none
  p0 := 0
  dir := 1
  newFrame := none
  lockRun := 0
  arming := false
  feRun := 0
  model := []
  dacClamped := Vector.replicate 4 false
  dac := Vector.replicate 4 0
  samples := 0

/-- The profile generator RELEASED (10 R231). -/
def Scan.init : Scan where
  st := .released
  profile := none
  pHome := 0
  homed := false
  spoSeq := 0
  pos := 0
  vel := 0
  acc := 0
  hist := []
  move := none
  k := 0
  target := none
  homing := none
  stop := false
  fw := 0
  lamA := 0
  ys := 0
  raisedNoProfile := false
  raisedNotHomed := false
  raisedSoft := false
  faultFrames := 0

/-- An interlock input at reset: EN 1, HARD 1, POL 0, ROLE 0, DEB 10, not latched (10 R234). -/
def Ilk.init : Ilk where
  cfg := 0x0A03
  latched := false
  ft := 0
  lt := 0
  chatter := 0
  noted := false

/-- A DMA channel as no DMA_CHANNEL_SETUP has set it (13 R311). -/
def Channel16.init : Channel16 where
  flow := 0
  cls := 3
  retries := 0
  paceRing := 0
  paceEn := false
  hi := 0
  lo := 0
  paced := false
  descs := []
  notOk := false
  stoppedDescs := []

/-- DMA idle, translation off for every flow (14 R343). -/
def Dma.init : Dma where
  ch := Vector.replicate 16 Channel16.init
  roots := []
  cache := []
  ptr := 0
  ptrShared := 0
  faults := []
  nextId := 0
  waiting := []
  fullRaised := false
  copies := []

/-- One class of a port right after UP (15 R353, R354). -/
def PClass.init : PClass where
  credits := 256
  spent := 0
  returned := 0
  tx := 0
  rx := 0
  unacked := []
  queue := []
  episodes := 0
  owedAcks := 0
  freed := 0
  owed := 0

/-- A port DOWN (15 R355). -/
def Port.init : Port where
  st := .down
  pSerial := 0
  pNode := 0
  cls := Vector.replicate 4 PClass.init
  viol := []
  posted := []

/-- Unpaired (15 R370). -/
def Pair.init : Pair where
  st := .unpaired
  role := 0
  partner := 0
  pending := none
  req := none
  ackSeen := false
  beat := none
  beats := 0
  mismatch := false
  singleRoute := false
  step := 0
  issuer := false
  now := false
  region := none
  takeover := false
  handovers := 0
  takeovers := 0

/-- No client mirrored (15 R367). -/
def Mirror.init : Mirror where
  client := none
  epoch := 0
  pairEpoch := none
  recs := []
  upTo := 0

/-- The fabric at reset (15). -/
def Fabric.init : Fabric where
  ports := Vector.replicate 8 Port.init
  node := 0
  routes := []
  msgId := 0
  floodId := 0
  floods := []
  answered := []
  found := []
  hostSent := []
  mirror := Mirror.init
  pair := Pair.init
  halves := []

/-- The value an LFSR starts from, never zero (17 R399). -/
def lfsrStart (i : Nat) : BitVec 32 :=
  if Sys2Proof.Config.lfsrSeed Sys2Proof.Config.serial i = 0 then 1
  else Sys2Proof.Config.lfsrSeed Sys2Proof.Config.serial i

/-- Pseudo-channel `i` at reset (17 R399). -/
def PseudoCh.init (i : Nat) : PseudoCh where
  lfsr := lfsrStart i
  slice := false
  trained := 0
  tempAt := 0
  eye := 0
  due := false

/-- The HBM controller at reset (17). -/
def Hbm.init : Hbm where
  pcs := Vector.ofFn (fun i => PseudoCh.init i.val)
  temp := Vector.replicate 2 0
  doubled := Vector.replicate 2 false
  hotRaised := Vector.replicate 2 false
  frozen := false
  frozenRec := none
  log := []
  kindCnt := Vector.replicate 6 0

/-- The keeper as manufactured (20; DC 2). -/
def Keeper.init : Keeper where
  slots := Vector.replicate 64 { key := 0, keyId := 0, imports := 0, occupied := false }
  imports := 0
  erases := 0
  trips := 0
  regions := []
  scrub := []
  zeroing := []
  latched := false
  fails := 0
  loopOpen := false
  latchedFails := 0
  log := []
  debug := false
  dbgHeld := false
  vbat := 0
  vbatLow := false
  battery := false
  stopped := false
  ticks := 0
  later := []

/-- Update state as manufactured (21; DC 2). -/
def Update.init : Update where
  st := 0
  imgId := 0
  imgLen := 0
  pieces := 0
  imgCrc := 0
  digest := 0
  held := []
  boot := 0
  runId := 0
  cfgVer := 0
  cfgMin := 0
  installs := 0
  refusals := 0
  items := []

/-- The calibration limits image of the stated defaults (18 R412), its CRC included. -/
def Cal.limitsInit : BitVec 512 :=
  BitVec.ofNat 512 0x9762c9f5000000000000000000000000000000000000000000000000000000000064000a0028000400c800024e20001e4e2000c84e200014000000014c4c4143

/-- Calibration as manufactured (18; DC 2). -/
def Cal.init : Cal where
  st := 0
  targets := 0
  item := none
  iRef := 0
  values := []
  swing := []
  last := []
  limits := Cal.limitsInit
  count := 0
  failures := 0
  pt := 0
  ft := 0
  accepted := 0
  failedMask := 0
  adc := Vector.replicate 8 (0, false, 0)

/-- NOR as manufactured: no store written (13 R304; DC 2). -/
def NorStore.init : NorStore where
  valid := false
  ver := 0
  items := CfgItems.init
  ilk := Vector.replicate 8 0x0A03
  profile := none
  banks := Vector.replicate 2 none
  activeBank := none
  witness := .none
  epoch := 0
  node := 0
  routes := []
  timeSrc := Vector.replicate 4 0
  ptpDomain := 0
  ftPort := 0
  limits := Cal.limitsInit
  commits := 0

/-- The machine right after reset: see the head of this part. -/
def State.reset : State where
  pending := []
  out := []
  pm := Power.init
  time := Times.init
  win := Win.init
  mb := { running := [], kept := [] }
  cfg := Config.init
  led := Ledger.init
  lay := Layout.init
  rnd := Render.init
  store := Store.init
  seq := Seq.init
  link := Link.init
  trk := Track.init
  scan := Scan.init
  ilk := Vector.replicate 8 Ilk.init
  dma := Dma.init
  fab := Fabric.init
  hbm := Hbm.init
  cal := Cal.init
  keep := Keeper.init
  upd := Update.init
  nor := { store := NorStore.init, log := [], marks := [], frozen := [] }
  svc := { attached := false, discarded := 0, edges := [], flashing := false, stuck := false }
  smb := { status := 1, alertEn := 0, temp := 0, addr := 0 }
  diag := { inject := [], withhold := false, loop := none, result := (0, 0, 0) }
  aper := { object := 0, bytes := [], gen := 0 }
  evt := { count := [], ext := [], limit := [] }
  stats := []
  hbmMem := []
  hostMem := []
  free := 0

end Sys2Proof.Machine
end

