-- ==== Sys2Proof/Machine/Ops.lean ====
section
/-! DEFINITION. The operations that every part shares: tables, memory, byte order, packing of words, the clock
readings, powered domains, statistics, events, rings, MSI-X and completions. -/

namespace Sys2Proof.Machine

/-! ### Sparse tables -/

/-- The value a table lists for key `n`. -/
def tget {α : Type} : Tbl α → Nat → Option α
  | [], _ => none
  | (k, v) :: t, n => if k = n then some v else tget t n

/-- The table with key `n` set to `v`, keys rising. -/
def tput {α : Type} : Tbl α → Nat → α → Tbl α
  | [], n, v => [(n, v)]
  | (k, w) :: t, n, v =>
    if n < k then (n, v) :: (k, w) :: t
    else if n = k then (n, v) :: t
    else (k, w) :: tput t n v

/-- The table without key `n`. -/
def tdel {α : Type} : Tbl α → Nat → Tbl α
  | [], _ => []
  | (k, w) :: t, n => if k = n then tdel t n else (k, w) :: tdel t n

/-! ### Byte order (00 R2) -/

/-- The `n` bytes of a number, least significant first (00 R2). -/
def leBytes : Nat → Nat → List Byte
  | 0, _ => []
  | n + 1, v => BitVec.ofNat 8 v :: leBytes n (v / 256)

/-- The number that bytes spell, least significant first (00 R2). -/
def leNat : List Byte → Nat
  | [] => 0
  | b :: t => b.toNat + 256 * leNat t

/-- The 16 bytes of a native word (00 R2). -/
def wordBytes (w : W128) : List Byte := leBytes 16 w.toNat

/-- The bytes of a list of native words (00 R2). -/
def wordsBytes : List W128 → List Byte
  | [] => []
  | w :: t => wordBytes w ++ wordsBytes t

/-- `n` bytes of `l` from offset `off`, padded with zeros. -/
def slice (l : List Byte) (off n : Nat) : List Byte :=
  let t := (l.drop off).take n
  t ++ List.replicate (n - t.length) 0

/-- The number in `n` bytes of `l` at offset `off`. -/
def leAt (l : List Byte) (off n : Nat) : Nat := leNat (slice l off n)

/-- Word `k` of a structure held as bytes (00 R2). -/
def wordAt (l : List Byte) (k : Nat) : W128 := BitVec.ofNat 128 (leAt l (16 * k) 16)

/-- A native word from its fields: low bit, width, value (00 R3). -/
def packFields : List (Nat × Nat × Nat) → Nat
  | [] => 0
  | (lo, w, v) :: t => v % 2 ^ w * 2 ^ lo + packFields t

/-- A native word from its fields: low bit, width, value (00 R3). -/
def word (l : List (Nat × Nat × Nat)) : W128 := BitVec.ofNat 128 (packFields l)

/-- The raw n-bit pattern of a signed number (00 R4). -/
def raw (n : Nat) (i : Int) : Nat := (wrapInt n i).toNat

/-- 1 for true, 0 for false. -/
def b2n (b : Bool) : Nat := if b then 1 else 0

/-- Arithmetic shift right, the floor of `a / 2 ^ n` (00 R8). -/
def asr (a : Int) (n : Nat) : Int := a / (2 ^ n : Nat)

/-- Clamp of `a` to [lo, hi]. -/
def clampInt (lo hi a : Int) : Int := if a < lo then lo else if hi < a then hi else a

/-! ### Memory: bytes by address, in one canonical form (unlisted bytes read 0; DESIGN CHOICE, unsafe, log 3) -/

/-- The byte at an address. -/
def Memory.read (m : Memory) (a : Nat) : Byte := (tget m a).getD 0

/-- Memory with one byte written; writing 0 removes the cell. -/
def Memory.write (m : Memory) (a : Nat) (b : Byte) : Memory := if b = 0 then tdel m a else tput m a b

/-- Memory with bytes written from an address upward. -/
def Memory.writes (m : Memory) (a : Nat) : List Byte → Memory
  | [] => m
  | b :: t => Memory.writes (Memory.write m a b) (a + 1) t

/-- `n` bytes from an address upward. -/
def Memory.reads (m : Memory) (a : Nat) : Nat → List Byte
  | 0 => []
  | n + 1 => Memory.read m a :: Memory.reads m (a + 1) n

/-- Addresses strictly rising above `lo`, no cell equal to what an unlisted address reads as. -/
def Memory.wfFrom : Nat → Memory → Bool
  | _, [] => true
  | lo, (a, b) :: t => decide (lo ≤ a) && (b != 0) && Memory.wfFrom (a + 1) t

/-- The canonical form of memory. -/
def Memory.wf (m : Memory) : Bool := Memory.wfFrom 0 m

/-- HBM size, 48 GiB (17 R391). -/
def hbmSize : Nat := 51539607552

/-- Start of the spill area (06 R146): offset 0xB_FB00_0000. -/
def spillBase : Nat := 0xBFB000000

/-- Bytes of HBM. -/
def hbmRead (s : State) (a n : Nat) : List Byte := Memory.reads s.hbmMem a n

/-- HBM written; bytes at or beyond its end do not exist. -/
def hbmWrite (a : Nat) (b : List Byte) (s : State) : State :=
  { s with hbmMem := Memory.writes s.hbmMem a (b.take (hbmSize - a)) }

/-- Bytes of host memory. -/
def hostRead (s : State) (a n : Nat) : List Byte := Memory.reads s.hostMem a n

/-- Host memory written by the device. -/
def hostWrite (a : Nat) (b : List Byte) (s : State) : State :=
  { s with hostMem := Memory.writes s.hostMem a b }

/-! ### Outputs, free values, statistics -/

/-- The device gives an output. -/
def emit (o : Output) (s : State) : State := { s with out := o :: s.out }

/-- Count `n` more under a 64-bit statistic (13 R326). -/
def statAdd (key n : Nat) (s : State) : State :=
  { s with stats := tput s.stats key ((tget s.stats key).getD 0 + BitVec.ofNat 64 n) }

/-- Add one to a 64-bit statistic (13 R326). -/
def stat (key : Nat) (s : State) : State := statAdd key 1 s

/-- The 64-bit statistic of a key. -/
def statOf (s : State) (key : Nat) : BitVec 64 := (tget s.stats key).getD 0

/-! ### Clock readings (16 R378) -/

/-- 48-bit reading of a base: 32 bits of ns, then 16 of fraction (13 R314, 16 R379). -/
def base48 (s : State) (b : Fin 4) : BitVec 48 := BitVec.ofNat 48 ((s.time.base[b]).acc / 2 ^ 24)

/-- FT in ns (16 R378). -/
def ftNow (s : State) : BitVec 32 := BitVec.ofNat 32 ((s.time.base[(0 : Fin 4)]).acc / 2 ^ 40)

/-- ST in ns (16 R378). -/
def stNow (s : State) : BitVec 32 := BitVec.ofNat 32 ((s.time.base[(1 : Fin 4)]).acc / 2 ^ 40)

/-- LT in ns (16 R378). -/
def ltNow (s : State) : BitVec 32 := BitVec.ofNat 32 ((s.time.base[(2 : Fin 4)]).acc / 2 ^ 40)

/-- PT in ns (16 R378). -/
def ptNow (s : State) : BitVec 32 := BitVec.ofNat 32 ((s.time.base[(3 : Fin 4)]).acc / 2 ^ 40)

/-! ### Modes and power domains -/

/-- Mode codes (00, table of modes). -/
def Mode.code : Mode → Nat
  | .recovery => 0
  | .standby => 1
  | .ready => 2
  | .expose => 3
  | .render => 4
  | .shadow => 5
  | .calibrate => 6
  | .hold => 7

/-- The mode of a code (00, table of modes). -/
def Mode.ofCode (n : Nat) : Option Mode :=
  match n with
  | 0 => some .recovery
  | 1 => some .standby
  | 2 => some .ready
  | 3 => some .expose
  | 4 => some .render
  | 5 => some .shadow
  | 6 => some .calibrate
  | 7 => some .hold
  | _ => none

/-- Domain numbers (13 R298). -/
def Domain.num : Domain → Nat
  | .aon => 0
  | .keep => 1
  | .ctrl => 2
  | .host => 3
  | .fab => 4
  | .ing => 5
  | .rnd0 => 6
  | .rnd1 => 7
  | .store => 8
  | .seq => 9
  | .mem => 10
  | .trk => 11

/-- All domains, by number. -/
def Domain.all : List Domain :=
  [.aon, .keep, .ctrl, .host, .fab, .ing, .rnd0, .rnd1, .store, .seq, .mem, .trk]

/-- What a domain does in a mode (19 R420). -/
inductive DomSt where
  | on | ret | held | sr | off
  deriving DecidableEq, Repr

/-- The state of each domain in each mode (19 R420). -/
def domainState (m : Mode) (d : Domain) : DomSt :=
  match d with
  | .aon | .keep | .ctrl | .host => .on
  | _ =>
    match m with
    | .recovery => .off
    | .standby =>
      match d with
      | .seq => .ret
      | .mem => .sr
      | _ => .off
    | .ready | .expose | .shadow => .on
    | .render =>
      match d with
      | .store | .trk => .off
      | .seq => .ret
      | _ => .on
    | .calibrate =>
      match d with
      | .ing | .rnd0 | .rnd1 | .store => .off
      | _ => .on
    | .hold => .held

/-- The device runs: RESET_N is released and no supply or thermal reset is held (19 R428, R429, R434). -/
def running (s : State) : Bool := s.pm.held == .no

/-- A domain is on: powered and able to work (19 R420). -/
def domOn (s : State) (d : Domain) : Bool := running s && (domainState s.pm.mode d == .on)

/-- A domain is powered: any state of R420 but off (13 R298). -/
def domPowered (s : State) (d : Domain) : Bool :=
  (running s && !(domainState s.pm.mode d == .off)) || (d == .keep) || (d == .aon && s.pm.held != .resetLow)

/-- The firmware or the boot ROM serves commands. -/
def mailboxAlive (s : State) : Bool := running s

/-! ### Events (12 R281-R286, 13 R324-R325, R488) -/

/-- An unsigned field of a detail word: width and value, saturated (13 R488). -/
def du (w v : Nat) : Nat × Nat := (w, min v (2 ^ w - 1))

/-- A signed field of a detail word: width and value, saturated (13 R488). -/
def ds (w : Nat) (v : Int) : Nat × Nat :=
  (w, raw w (clampInt (-((2 ^ (w - 1) : Nat) : Int)) ((2 ^ (w - 1) : Nat) - 1) v))

/-- A flag field (13 R488). -/
def dflag (b : Bool) : Nat × Nat := (1, b2n b)

/-- The detail word of fields placed from bit 0 upward in order (13 R488). -/
def packDetail : List (Nat × Nat) → Nat
  | [] => 0
  | (w, v) :: t => v % 2 ^ w + 2 ^ w * packDetail t

/-- The detail word of fields placed from bit 0 upward in order (13 R488). -/
def detail (l : List (Nat × Nat)) : W128 := BitVec.ofNat 128 (packDetail l)

/-- The 32 bytes of an event record (13 R324). -/
def EventRec.bytes (r : EventRec) : List Byte :=
  wordBytes (word [(0, 16, r.code.toNat), (16, 12, r.node.toNat), (28, 4, r.domain.toNat), (32, 32, r.ft.toNat),
    (64, 32, r.lt.toNat)]) ++ wordBytes r.detail

/-- Count an occurrence of an event: its 32-bit counter and the 64-bit extension (12 R285, 13 R323). Codes at or
above 0x0D00 have no counter. -/
def countEvent (code : Nat) (s : State) : State :=
  if code < 0x0D00 then
    { s with evt := { s.evt with
        count := tput s.evt.count code ((tget s.evt.count code).getD 0 + 1)
        ext := tput s.evt.ext code ((tget s.evt.ext code).getD 0 + 1) } }
  else s

/-- The 32-bit counter of an event code (12 R285). -/
def eventCount (s : State) (code : Nat) : BitVec 32 := (tget s.evt.count code).getD 0

/-! #### MSI-X (12 R282, R283) -/

/-- Send the message of a vector: at once, or into its pending bit while the vector is masked (12 R283). -/
def sendMsix (v : Nat) (s : State) : State :=
  if h : v < 64 then
    if bitAt (s.win.msix[v]) 96 then
      { s with win := { s.win with pba := s.win.pba ||| BitVec.ofNat 64 (2 ^ v) } }
    else stat (0x01010001 * 2 ^ 16 + 0x100 + v) (emit (.msix v) s)
  else s

/-- Set a WIN_STATUS flag: the flag, its set counter, and vector 0 where enabled (12 R268, R269, R283). -/
def setFlag (b : Fin 11) (s : State) : State :=
  let s1 := { s with win := { s.win with
    status := s.win.status ||| BitVec.ofNat 11 (2 ^ b.val)
    setCnt := s.win.setCnt.set b.val (s.win.setCnt[b] + 1) } }
  if bitAt s.win.statusIrq b.val then sendMsix 0 s1 else s1

/-! #### Rings (12 R271-R276) -/

/-- Ring i of the table, and the table with ring i replaced. -/
def ring (s : State) (i : Fin 64) : Ring := s.win.rings[i]

/-- The table with ring `i` replaced. -/
def setRing (i : Fin 64) (r : Ring) (s : State) : State :=
  { s with win := { s.win with rings := s.win.rings.set i.val r } }

/-- LOG2N of a ring (12 R273). -/
def Ring.log2n (r : Ring) : Nat := bitsNat r.cfg 1 5

/-- VEC of a ring (12 R273). -/
def Ring.vec (r : Ring) : Nat := bitsNat r.cfg 6 6

/-- Entries in a ring, 2 ^ LOG2N (12 R273). -/
def Ring.entries (r : Ring) : Nat := 2 ^ r.log2n

/-- Bytes of an entry of ring `i` (12 R271). -/
def entrySize (i : Nat) : Nat := if i < 16 then 128 else if 48 ≤ i ∧ i < 56 then 32 else 64

/-- The host produces the entries of ring `i` (12 R271). -/
def hostProduced (i : Nat) : Bool :=
  if i < 16 then i % 2 == 0 else if i < 32 then true else if i < 48 then i % 2 == 0 else false

/-- Address of entry `x` of ring `i` (12 R275). -/
def entryAddr (i : Nat) (r : Ring) (x : BitVec 32) : Nat :=
  r.base.toNat + entrySize i * (x.toNat % r.entries)

/-- Entries between the host's and the device's index, modulo 2^32: waiting entries of a host-produced ring, and
unread entries of a device-produced ring (12 R275). -/
def Ring.fill (i : Nat) (r : Ring) : Nat :=
  if hostProduced i then (r.hostIdx - r.devIdx).toNat else (r.devIdx - r.hostIdx).toNat

/-- A device-produced ring has a free entry (12 R280, R281). -/
def Ring.space (r : Ring) : Bool := decide ((r.devIdx - r.hostIdx).toNat < r.entries)

/-- Write the device index to the ring's shadow (12 R272, R284). -/
def writeShadow (i : Fin 64) (s : State) : State :=
  let r := ring s i
  emit (.shadow i.val r.devIdx) (hostWrite r.shadow.toNat (leBytes 4 r.devIdx.toNat) s)

/-- The message of a ring whose index advanced, under its coalescing fields (12 R283). -/
def coalesce (i : Fin 64) (s : State) : State :=
  let r := ring s i
  if bitAt r.cfg 12 then
    let n := r.coal + 1
    if bitsNat r.cfg 16 8 < n ∨ bitsNat r.cfg 24 8 = 0 then sendMsix r.vec (setRing i { r with coal := 0 } s)
    else setRing i { r with coal := n } s
  else s

/-- The device index of a ring advances by one: index, shadow, message, in that order (12 R284). -/
def advance (i : Fin 64) (s : State) : State :=
  let r := ring s i
  coalesce i (writeShadow i (stat (0x01010001 * 2 ^ 16 + i.val) (setRing i { r with devIdx := r.devIdx + 1 } s)))

/-- Write an entry to a device-produced ring and advance (12 R284). -/
def pushEntry (i : Fin 64) (b : List Byte) (s : State) : State :=
  let r := ring s i
  advance i (emit (.ringEntry i.val r.devIdx b) (hostWrite (entryAddr i.val r r.devIdx) b s))

/-! #### Event records -/

/-- Give a record to one event ring: written where the ring is ACTIVE, admits the class and has space; dropped for
that ring, counted and flagged where it has no space (12 R281). -/
def eventToRing (i : Fin 64) (r : EventRec) (s : State) : State :=
  let q := ring s i
  if q.st = 1 ∧ bitsNat q.cfg 32 13 / 2 ^ (r.code.toNat / 256) % 2 = 1 then
    if q.space then pushEntry i r.bytes s
    else setFlag 7 (countEvent 0x0135 s)
  else s

/-- Give a record to the rings from 48 + k on. -/
def eventToRings (r : EventRec) : List (Fin 64) → State → State
  | [], s => s
  | i :: t, s => eventToRings r t (eventToRing i r s)

/-- The event rings (12 R271). -/
def eventRings : List (Fin 64) := [48, 49, 50, 51, 52, 53, 54, 55]

/-- The record of an event raised now (13 R324). -/
def eventRec (code : Nat) (d : Domain) (det : W128) (s : State) : EventRec where
  code := BitVec.ofNat 16 code
  node := s.fab.node
  domain := BitVec.ofNat 4 d.num
  ft := ftNow s
  lt := ltNow s
  detail := det

/-- Write an event record: the persistent log keeps every record, and each event ring takes it (12 R281). -/
def recordEvent (code : Nat) (d : Domain) (det : W128) (s : State) : State :=
  let r := eventRec code d det s
  eventToRings r eventRings { s with nor := { s.nor with log := r :: s.nor.log } }

/-- Raise an event: count it and write its record (12 R281, R285). -/
def raise (code : Nat) (d : Domain) (det : W128) (s : State) : State :=
  recordEvent code d det (countEvent code s)

/-- Milliseconds of LT, plus one: the time stamp of a rate limit. -/
def ltMs (s : State) : Nat := (ltNow s).toNat / 1000000 + 1

/-- Raise an event whose records are limited to one a millisecond under `key` (12 R286, 13 R289, 15 R377). -/
def raiseLimited (key code : Nat) (d : Domain) (det : W128) (s : State) : State :=
  let s1 := countEvent code s
  if (tget s.evt.limit key).getD 0 = ltMs s then s1
  else recordEvent code d det { s1 with evt := { s1.evt with limit := tput s1.evt.limit key (ltMs s) } }

/-- A field of a register or its state refused a write: WIN_WRITE_REFUSED (12 R286). -/
def writeRefused (det : W128) (s : State) : State := raise 0x0131 .host det s

/-! ### Completions (12 R278, R280) -/

/-- The 128 bytes of a completion entry (12 R278). -/
def Completion.bytes (c : Completion) : List Byte :=
  let ws := c.results.take 6
  wordsBytes ([word [(0, 16, c.opcode.toNat), (16, 16, c.tag.toNat), (32, 16, c.status.toNat),
      (48, 16, c.reason.toNat), (64, 4, c.mode.toNat), (68, 3, ws.length), (96, 32, c.subIdx.toNat)],
    word [(0, 64, c.ctx.toNat), (64, 32, c.ft.toNat), (96, 32, c.lt.toNat)]] ++ ws ++
    List.replicate (6 - ws.length) 0)

/-- Submission ring of a mailbox (12 R271). -/
def subRing (i : Fin 8) : Fin 64 := ⟨2 * i.val, by omega⟩

/-- Completion ring of a mailbox (12 R271). -/
def cplRing (i : Fin 8) : Fin 64 := ⟨2 * i.val + 1, by omega⟩

/-- Deliver a completion: to the mailbox's completion ring, kept where that ring is not ACTIVE (12 R280); over the
service port while attached, else discarded and counted (20 R450); the port counts commands per outcome (20 R453). -/
def complete (src : Src) (c : Completion) (s : State) : State :=
  match src with
  | .mailbox i =>
    let s1 := emit (.completion src c) s
    if (ring s1 (cplRing i)).st = 1 then pushEntry (cplRing i) c.bytes s1
    else { s1 with mb := { s1.mb with kept := s1.mb.kept ++ [(i.val, c)] } }
  | .service =>
    let s := stat (0x0A020000 * 0x10000 + c.status.toNat) s
    if s.svc.attached then emit (.completion src c) s
    else { s with svc := { s.svc with discarded := s.svc.discarded + 1 } }

/-- The completion of a started command, stamped now (12 R278). -/
def completion (w : Waiting) (status reason : Nat) (results : List W128) (s : State) : Completion where
  opcode := w.opcode
  tag := w.tag
  status := BitVec.ofNat 16 status
  reason := BitVec.ofNat 16 reason
  mode := BitVec.ofNat 4 w.mode.code
  subIdx := w.subIdx
  ctx := w.ctx
  ft := ftNow s
  lt := ltNow s
  results := results

/-- A mailbox whose submission ring is STOPPING disables once its command is done: the final index goes to the
shadow (12 R276, R280). -/
def stopRing (i : Fin 64) (s : State) : State :=
  if (ring s i).st = 2 then writeShadow i (setRing i { ring s i with st := 0 } s) else s

/-- Complete a started command; a submission ring that was STOPPING then disables (12 R276, R280). -/
def finish (w : Waiting) (status reason : Nat) (results : List W128) (s : State) : State :=
  let s1 := complete w.src (completion w status reason results s) s
  match w.src with
  | .mailbox i => stopRing (subRing i) s1
  | .service => s1

/-- Complete and remove the waiting commands that `p` picks, in order. -/
def finishAll (p : Waiting → Option (Nat × Nat × List W128)) : List Waiting → State → State
  | [], s => s
  | w :: t, s =>
    match p w with
    | some (status, reason, results) => finishAll p t (finish w status reason results s)
    | none => finishAll p t s

/-- Settle every waiting command that `p` picks: it leaves the running list and completes (12 R280). -/
def settle (p : Waiting → Option (Nat × Nat × List W128)) (s : State) : State :=
  let l := s.mb.running
  finishAll p l { s with mb := { s.mb with running := l.filter (fun w => (p w).isNone) } }

/-! ### Status codes (13 R294) -/

/-- OK. -/
def stOk : Nat := 0x0000
/-- ACCEPTED. -/
def stAccepted : Nat := 0x0001
/-- BAD_LENGTH. -/
def stBadLength : Nat := 0x0011
/-- BAD_ARG. -/
def stBadArg : Nat := 0x0012
/-- BAD_STATE. -/
def stBadState : Nat := 0x0020
/-- BAD_MODE. -/
def stBadMode : Nat := 0x0021
/-- NO_RESOURCE. -/
def stNoResource : Nat := 0x0030
/-- QUEUE_FULL. -/
def stQueueFull : Nat := 0x0031
/-- DENIED. -/
def stDenied : Nat := 0x0040
/-- FAULT. -/
def stFault : Nat := 0x0050
/-- TRANSLATION_FAULT. -/
def stTransFault : Nat := 0x0051
/-- ABORTED. -/
def stAborted : Nat := 0x0060
/-- DUPLICATE. -/
def stDuplicate : Nat := 0x0070

end Sys2Proof.Machine
end

