-- ==== Sys2Proof/Machine/Crc.lean ====
section
/-! DEFINITION. The check values of the manual: CRC-32C (06 R134) and the CRC-8 of position and setpoint frames
(09 R201). -/

namespace Sys2Proof.Machine

/-- One bit of the reflected CRC-32C register: polynomial 0x1EDC6F41 reflected (06 R134). -/
def crc32cBit (c : BitVec 32) : BitVec 32 :=
  if c.getLsbD 0 then (c >>> 1) ^^^ 0x82F63B78#32 else c >>> 1

/-- One byte into the CRC-32C register (06 R134). -/
def crc32cByte (c : BitVec 32) (b : Byte) : BitVec 32 :=
  let c0 := c ^^^ b.setWidth 32
  crc32cBit (crc32cBit (crc32cBit (crc32cBit (crc32cBit (crc32cBit (crc32cBit (crc32cBit c0)))))))

/-- Bytes into the CRC-32C register. -/
def crc32cFrom (c : BitVec 32) : List Byte → BitVec 32
  | [] => c
  | b :: t => crc32cFrom (crc32cByte c b) t

/-- CRC-32C (06 R134). -/
def crc32c (l : List Byte) : BitVec 32 := crc32cFrom 0xFFFFFFFF#32 l ^^^ 0xFFFFFFFF#32

/-- One bit of the CRC-8 register: polynomial 0x07, not reflected (09 R201). -/
def crc8Bit (c : BitVec 8) : BitVec 8 :=
  if c.getLsbD 7 then (c <<< 1) ^^^ 0x07#8 else c <<< 1

/-- CRC-8 of bytes from a register value. -/
def crc8From (c : BitVec 8) : List Byte → BitVec 8
  | [] => c
  | b :: t => crc8From (crc8Bit (crc8Bit (crc8Bit (crc8Bit (crc8Bit (crc8Bit (crc8Bit (crc8Bit (c ^^^ b))))))))) t

/-- CRC-8: polynomial 0x07, initial value 0, no reflection, no final XOR (09 R201). -/
def crc8 (l : List Byte) : BitVec 8 := crc8From 0 l

end Sys2Proof.Machine
end

