-- ==== Sys2Proof/Machine/Dtu.lean ====
section
/-! DEFINITION. The translation unit (14 R343-R346): the walk of a flow's tables in host memory, the translation
cache, accesses to flow-virtual memory, and the injected faults that touch them. -/

namespace Sys2Proof.Machine

/-- Key of a 64-bit statistic: readback object and index (13 R326; the index is the model's own numbering). -/
def sk (object idx : Nat) : Nat := object * 65536 + idx

/-- Use the next free value (DESIGN CHOICE, safe, log 7). -/
def takeFree (s : State) : BitVec 128 × State := (Config.freeValue s.free, { s with free := s.free + 1 })

/-- The first armed injection of a fault, with any parameter `p` picks, used once (13 R322). -/
def useInjected (fault : Nat) (p : BitVec 32 → Bool) :
    List (Nat × Nat × BitVec 32) → Option (BitVec 32 × List (Nat × Nat × BitVec 32))
  | [] => none
  | (f, n, q) :: t =>
    if f = fault ∧ p q then some (q, if n ≤ 1 then t else (f, n - 1, q) :: t)
    else (useInjected fault p t).map (fun r => (r.1, (f, n, q) :: r.2))

/-- Whether an injected fault occurs now; it is used up where it does (13 R322). -/
def injected (fault : Nat) (p : BitVec 32 → Bool) (s : State) : Bool × State :=
  match useInjected fault p s.diag.inject with
  | some (_, l) => (true, { s with diag := { s.diag with inject := l } })
  | none => (false, s)

/-- A flow is expose-critical while it holds a stripe ACCEPTED or RUNNING (14 R345). -/
def exposeCritical (s : State) (flow : Nat) : Bool :=
  s.led.items.any (fun i => i.flow.toNat == flow && i.kind == 4 && (i.st == .accepted || i.st == .running))

/-- A table entry at level 0 (root), 1 (level 2) or 2 (level 3): the reason of R346 it faults with, or none
(14 R344, R346). -/
def entryFault (level : Nat) (e : BitVec 64) : Option Nat :=
  let l := bitAt e 2
  if !bitAt e 0 then some 1
  else if bitsNat e 3 9 ≠ 0 ∨ bitsNat e 48 16 ≠ 0 then some 3
  else if (level = 0 ∧ l) ∨ (level = 2 ∧ !l) then some 3
  else if !l ∧ bitAt e 1 then some 3
  else if level = 1 ∧ l ∧ bitsNat e 12 9 ≠ 0 then some 3
  else none

/-- The address field of a table entry (14 R344). -/
def entryTarget (e : BitVec 64) : Nat := bitsNat e 12 36 * 4096

/-- A table entry read from host memory (14 R344). -/
def readEntry (s : State) (a : Nat) : BitVec 64 := BitVec.ofNat 64 (leNat (hostRead s a 8))

/-- The walk for a flow-virtual address: the page it finds, or the reason of R346, and the table reads made
(14 R343-R346). -/
def walk (s : State) (root : Nat) (va : Nat) : (Except Nat (Bool × Nat × Bool)) × Nat :=
  let e0 := readEntry s (root + 8 * (va / 2 ^ 30))
  match entryFault 0 e0 with
  | some r => (.error r, 1)
  | none =>
    let e1 := readEntry s (entryTarget e0 + 8 * (va / 2 ^ 21 % 512))
    match entryFault 1 e1 with
    | some r => (.error r, 2)
    | none =>
      if bitAt e1 2 then (.ok (true, entryTarget e1, bitAt e1 1), 2)
      else
        let e2 := readEntry s (entryTarget e1 + 8 * (va / 2 ^ 12 % 512))
        match entryFault 2 e2 with
        | some r => (.error r, 3)
        | none => (.ok (false, entryTarget e2, bitAt e2 1), 3)

/-- The cache entry that maps an address of a flow (14 R345). -/
def TEntry.hits (t : TEntry) (flow va : Nat) : Bool :=
  t.flow.toNat == flow && t.page == (if t.big then va / 2 ^ 21 else va / 2 ^ 12)

/-- Put a page into the cache: the round-robin pointer over the entries the flow may use (14 R345). Entries 0-255
are the reserved ones (DEDUCED, unsafe, log 14). -/
def cacheFill (flow va : Nat) (pg : Bool × Nat × Bool) (s : State) : State :=
  let crit := exposeCritical s flow
  let slot := if crit then s.dma.ptr else 256 + s.dma.ptrShared
  let e : TEntry :=
    { slot := slot
      flow := BitVec.ofNat 8 flow
      page := if pg.1 then va / 2 ^ 21 else va / 2 ^ 12
      big := pg.1
      host := pg.2.1
      w := pg.2.2 }
  { s with dma := { s.dma with
      cache := e :: s.dma.cache.filter (fun t => t.slot != slot)
      ptr := if crit then (s.dma.ptr + 1) % 2048 else s.dma.ptr
      ptrShared := if crit then s.dma.ptrShared else (s.dma.ptrShared + 1) % 1792 } }

/-- The host bus address of a page hit, with the write check of R346 reason 2. -/
def pageAddr (big : Bool) (host : Nat) (w : Bool) (write : Bool) (va : Nat) : Except Nat Nat :=
  if write && !w then .error 2 else .ok (host + va % (if big then 2 ^ 21 else 2 ^ 12))

/-- Translate one flow-virtual address: the host bus address or the reason of R346 (14 R343-R346). An injected
fault 8 of the flow faults here, with a free reason (13 R322, DESIGN CHOICE, safe, log 7). -/
def translate (flow : Nat) (write : Bool) (va : Nat) (s : State) : (Except Nat Nat) × State :=
  let (inj, s1) := injected 8 (fun p => p.toNat == flow) s
  if inj then
    let (v, s2) := takeFree s1
    (.error (1 + v.toNat % 5), s2)
  else if 2 ^ 48 ≤ va then (.error 5, s1)
  else
    match tget s1.dma.roots flow with
    | none => (.ok va, s1)
    | some root =>
      match s1.dma.cache.find? (fun t => t.hits flow va) with
      | some t => (pageAddr t.big t.host t.w write va, stat (sk 0x05020000 (flow * 4)) s1)
      | none =>
        let (r, n) := walk s1 root.toNat va
        let s2 := statAdd (sk 0x05020000 (flow * 4 + 2)) n (stat (sk 0x05020000 (flow * 4 + 1)) s1)
        match r with
        | .error e => (.error e, s2)
        | .ok pg => (pageAddr pg.1 pg.2.1 pg.2.2 write va, cacheFill flow va pg s2)

/-- Bytes from here to the end of the 4 KiB page, at most `n`. -/
def pageChunk (va n : Nat) : Nat := min n (4096 - va % 4096)

/-- Read flow-virtual memory page by page; on a fault, its reason, the address and the bytes read before it
(14 R346). `fuel` bounds the pages. -/
def vreadFuel : Nat → Nat → Nat → Nat → List Byte → State → (Except (Nat × Nat × List Byte) (List Byte)) × State
  | 0, _, _, _, acc, s => (.ok acc, s)
  | fuel + 1, flow, va, n, acc, s =>
    if n = 0 then (.ok acc, s)
    else
      let c := pageChunk va n
      match translate flow false va s with
      | (.error e, s1) => (.error (e, va, acc), s1)
      | (.ok a, s1) => vreadFuel fuel flow (va + c) (n - c) (acc ++ hostRead s1 a c) s1

/-- Read `n` bytes of a flow's address space (14 R343-R346). -/
def vread (flow va n : Nat) (s : State) : (Except (Nat × Nat × List Byte) (List Byte)) × State :=
  vreadFuel (n / 4096 + 2) flow va n [] s

/-- Write flow-virtual memory page by page: every byte before a faulting page is written, none at or after it
(14 R346). The result is the fault's reason and address, and the bytes written. -/
def vwriteFuel : Nat → Nat → Nat → List Byte → Nat → State → (Option (Nat × Nat) × Nat) × State
  | 0, _, _, _, done, s => ((none, done), s)
  | fuel + 1, flow, va, b, done, s =>
    if b.isEmpty then ((none, done), s)
    else
      let c := pageChunk va b.length
      match translate flow true va s with
      | (.error e, s1) => ((some (e, va), done), s1)
      | (.ok a, s1) => vwriteFuel fuel flow (va + c) (b.drop c) (done + c) (hostWrite a (b.take c) s1)

/-- Write bytes to a flow's address space (14 R343-R346). -/
def vwrite (flow va : Nat) (b : List Byte) (s : State) : (Option (Nat × Nat) × Nat) × State :=
  vwriteFuel (b.length / 4096 + 2) flow va b 0 s

/-! ### Translation faults (14 R346) -/

/-- The detail of a fault (14 R346). -/
def DFault.det (f : DFault) : W128 :=
  detail [du 16 f.id.toNat, du 8 f.flow.toNat, du 8 f.reason, dflag f.write, du 8 f.ctx, du 48 f.va.toNat,
    du 32 f.progress]

/-- The first id from `i` on that no outstanding fault holds; at most 64 are held, so 65 tries suffice. -/
def freeId (used : List (BitVec 16)) : Nat → BitVec 16 → BitVec 16
  | 0, i => i
  | n + 1, i => if used.contains i then freeId used n (i + 1) else i

/-- Record a fault: an id and DTU_FAULT while fewer than 64 are outstanding; else it waits without an id and raises
DTU_FAULT_TABLE_FULL once per episode (14 R346). -/
def recordFault (f : DFault) (s : State) : State :=
  if s.dma.faults.length < 64 then
    let i := freeId (s.dma.faults.map (·.id)) 65 s.dma.nextId
    let g := { f with id := i }
    raise 0x0520 .host g.det { s with dma := { s.dma with faults := s.dma.faults ++ [g], nextId := i + 1 } }
  else
    let s1 := { s with dma := { s.dma with waiting := s.dma.waiting ++ [f], fullRaised := true } }
    if s.dma.fullRaised then s1 else raise 0x0523 .host 0 s1

/-- A fault slot has freed: the oldest waiting fault gets it (14 R346). -/
def promoteFault (s : State) : State :=
  match s.dma.waiting with
  | [] => s
  | f :: t =>
    if s.dma.faults.length < 64 then
      let s1 := recordFault f { s with dma := { s.dma with waiting := t } }
      { s1 with dma := { s1.dma with fullRaised := !t.isEmpty } }
    else s

/-! ### Protected HBM regions (03 R49, 06 R146, 20 R443) -/

/-- Two byte ranges share a byte. -/
def overlaps (a n b m : Nat) : Bool := decide (0 < n ∧ 0 < m ∧ a < b + m ∧ b < a + n)

/-- A range touches a stream derived from a sealed container (03 R49, 20 R443). -/
def touchesSealed (s : State) (a n : Nat) : Bool := s.keep.regions.any (fun r => overlaps a n r.start r.len)

/-- A range touches the spill area, or lies beyond HBM (06 R146). -/
def touchesSpill (a n : Nat) : Bool := decide (0 < n ∧ spillBase < a + n)

/-- Spaces of a parameter block's address: HBM, or the flow's address space (03 R48). -/
def readSpace (space flow a n : Nat) (s : State) : (Except (Nat × Nat × List Byte) (List Byte)) × State :=
  if space = 1 then (.ok (hbmRead s a n), s) else vread flow a n s

/-- The same without changing the cache or the statistics: a reading for checks that only look. -/
def peekSpace (space flow a n : Nat) (s : State) : Option (List Byte) :=
  match (readSpace space flow a n s).1 with
  | .ok b => some b
  | .error _ => none

end Sys2Proof.Machine
end

