-- ==== Sys2Proof/Machine/Operands.lean ====
section
/-! DEFINITION. Operand forms: the entry of a mailbox command and how every command is judged (12 R279, R280,
13 R289-R295), and buffer references (13 R291). -/

namespace Sys2Proof.Machine

/-! ### What R295 says of each command -/

/-- The work modes RDY, EXP, RND, SHD, CAL (13, Commands at a glance). -/
def workModes : List Mode := [.ready, .expose, .render, .shadow, .calibrate]

/-- STB and the work modes. -/
def stbWork : List Mode := .standby :: workModes

/-- All but RECOVERY. -/
def allButRec : List Mode := [.standby, .ready, .expose, .render, .shadow, .calibrate, .hold]

/-- All modes. -/
def allModes : List Mode := .recovery :: allButRec

/-- A command as R295 and its layout table give it: opcode, argument words with their defined bits, modes, domains
its action needs (01 R13), and whether the service port serves it in its modes (20 R449). -/
structure Cmd where
  op : Nat
  masks : List Nat
  modes : List Mode
  needs : List Domain
  service : Bool
  deriving DecidableEq, Repr

/-- A mask of bits [lo + n - 1 : lo]. -/
def bits (lo n : Nat) : Nat := (2 ^ n - 1) * 2 ^ lo

/-- The defined bits of a buffer reference (13 R291). -/
def refMask : Nat := bits 0 98 + bits 104 8

/-- Every bit of a word is defined. -/
def fullMask : Nat := bits 0 128

/-- Every bit of `w` outside `mask` is zero. -/
def maskOk (mask : Nat) (w : W128) : Bool := w &&& ~~~(BitVec.ofNat 128 mask) == 0

/-- Argument word k of an entry, k = 1 to 7 (12 R277). -/
def Entry.arg (e : Entry) (k : Fin 7) : W128 := e.args[k]

/-- Words from argument `k` on obey the masks, and the words beyond them are zero (12 R279 item 3). -/
def argsOk : List Nat → List W128 → Bool
  | [], l => l.all (fun w => w == 0)
  | _ :: _, [] => true
  | m :: ms, w :: ws => maskOk m w && argsOk ms ws

/-! ### Taking up an entry (12 R280, 13 R293) -/

/-- Some running command came from this source. -/
def busy (s : State) (src : Src) : Bool := s.mb.running.any (fun w => w.src == src)

/-- Objects that commands use (13 R293): a number for the kind (0 flow, 1 work item, 2 table, 3 configuration item,
4 bank, 5 port, 6 key slot, 7 witness, 8 pair, 9 stage) and numbers that name it. -/
abbrev Obj := Nat × Nat × Nat

/-- Objects in use by a started command that waits (13 R293). -/
def WaitOn.objs : WaitOn → List Obj
  | .accept f q => [(1, f.toNat, q.toNat)]
  | .flowOpen f _ _ => [(0, f.toNat, 0)]
  | .flowClose f _ => [(0, f.toNat, 0)]
  | .cancel f q => [(1, f.toNat, q.toNat)]
  | .setWitness _ _ => [(7, 0, 0)]
  | .checkpoint f _ _ => [(0, f.toNat, 0)]
  | .discover => [(5, 0, 0)]
  | .assignNode _ _ => [(5, 0, 0)]
  | .pair => [(8, 0, 0)]
  | .handover => [(8, 0, 0)]
  | .swap b => [(4, b, 0)]
  | .home => [(9, 0, 0)]
  | .loopback => [(5, 0, 0)]
  | .calRun => []
  | .modeChange _ => []

/-- A command's object is in use by a running command (13 R293). -/
def objBusy (s : State) (objs : List Obj) : Bool :=
  s.mb.running.any (fun w => w.on.objs.any (fun o => objs.contains o))

/-- While CHANGING is 1 a command starts only if both the old mode and the target allow it (13 R293). -/
def modeHolds (s : State) (c : Cmd) : Bool :=
  s.pm.changing && !(c.modes.contains s.pm.mode && c.modes.contains s.pm.target)

/-- The source can start a command now: its rings are ACTIVE, an entry covered by the doorbell waits, and no command
of the source runs; in RECOVERY only mailbox 0 is served; over the service port only while attached (12 R280,
20 R449). -/
def sourceReady (s : State) (src : Src) : Bool :=
  running s && !busy s src &&
  match src with
  | .mailbox i =>
    decide ((ring s (subRing i)).st = 1) && decide ((ring s (cplRing i)).st = 1) &&
      (ring s (subRing i)).devIdx != (ring s (subRing i)).hostIdx && (s.pm.mode != .recovery || i == 0)
  | .service => s.svc.attached

/-- The completion ring of the source has a free entry (12 R280). -/
def sourceSpace (s : State) (src : Src) : Bool :=
  match src with
  | .mailbox i => (ring s (cplRing i)).space
  | .service => true

/-- A mailbox waits for completion space: RING_FULL_STALL, once per episode (12 R280, R286). -/
def stallCheck (i : Fin 8) (s : State) : State :=
  let r := ring s (cplRing i)
  if sourceReady s (.mailbox i) && !r.space && !r.stalled then
    raise 0x0134 .host (detail [du 8 (cplRing i).val])
      (stat (sk 0x01010001 0x200) (setRing (cplRing i) { r with stalled := true } s))
  else s

/-- The device has consumed the entry: index, shadow, message; a stall episode ends (12 R275, R280). -/
def consume (src : Src) (s : State) : State :=
  match src with
  | .mailbox i =>
    setRing (cplRing i) { ring (advance (subRing i) s) (cplRing i) with stalled := false } (advance (subRing i) s)
  | .service => s

/-- The index of the entry at the front of the source (12 R278; 0 over the service port, DEDUCED, unsafe, log 15). -/
def entryIndex (s : State) (src : Src) : BitVec 32 :=
  match src with
  | .mailbox i => (ring s (subRing i)).devIdx
  | .service => 0

/-- The started command as it is completed later. -/
def started (c : Cmd) (e : Entry) (on : WaitOn) (s : State) : Waiting where
  src := e.src
  opcode := BitVec.ofNat 16 c.op
  tag := e.tag
  ctx := e.ctx
  subIdx := entryIndex s e.src
  mode := s.pm.mode
  on := on

/-- The service port serves the command: in its modes for the commands of R449, and for UPD_BEGIN, UPD_PUT_PIECE and
UPD_ARM in RECOVERY (20 R449). -/
def serviceServes (c : Cmd) (s : State) : Bool :=
  c.service || (s.pm.mode == .recovery && (c.op == 0x0B00 || c.op == 0x0B01 || c.op == 0x0B03))

/-- How an entry is judged before its command acts: status and reason of the first failure (12 R279, 13 R289, R290,
01 R13). -/
def Cmd.judge (c : Cmd) (e : Entry) (s : State) : Option (Nat × Nat) :=
  if e.src == .service && !serviceServes c s then some (stDenied, 0x8009)
  else if e.argWords ≠ c.masks.length then some (stBadLength, 0)
  else if e.rsv ≠ 0 ∨ argsOk c.masks e.args.toList = false then some (stBadArg, 0x8008)
  else if c.modes.contains s.pm.mode = false then some (stBadState, 0x8000)
  else if c.needs.all (domOn s) = false then some (stBadState, 0x8001)
  else none

/-- A refusal in the present mode raises CMD_REFUSED_IN_MODE, one record a millisecond (13 R289). -/
def refuseInMode (c : Cmd) (r : Nat × Nat) (s : State) : State :=
  if r.2 = 0x8000 then raiseLimited 0x0110 0x0110 .ctrl (detail [du 16 c.op, du 8 s.pm.mode.code]) s else s

/-- The entry of command `c` comes to the front and the device takes it up (12 R279, R280, 13 R289, R293). Where it
cannot start now, nothing changes but a stall notice; where it is judged bad it completes so, with no effect; else
`act` is its effect. `hold` says that the command must wait for another (13 R293). -/
def takeUp (c : Cmd) (e : Entry) (hold : Bool) (act : Waiting → State → State) (s : State) : State :=
  if !sourceReady s e.src then s
  else if !sourceSpace s e.src then
    match e.src with
    | .mailbox i => stallCheck i s
    | .service => s
  else if hold || modeHolds s c then s
  else
    let w := started c e .loopback s
    let s1 := consume e.src s
    match c.judge e s with
    | some r => finish w r.1 r.2 [] (refuseInMode c r s1)
    | none => act w s1

/-- The started command waits for `on`; it holds its own mailbox (12 R280, 13 R292). -/
def wait (w : Waiting) (on : WaitOn) (s : State) : State :=
  { s with mb := { s.mb with running := s.mb.running ++ [{ w with on := on }] } }

/-! ### Buffer references (13 R291) -/

/-- A buffer reference. -/
structure BufRef where
  addr : Nat
  len : Nat
  space : Nat
  rflow : Nat
  deriving DecidableEq, Repr

/-- The fields of a buffer reference (13 R291). -/
def bufRef (w : W128) : BufRef where
  addr := bitsNat w 0 64
  len := bitsNat w 64 32
  space := bitsNat w 96 2
  rflow := bitsNat w 104 8

/-- A flow is open (11 R242). -/
def flowOpen (s : State) (f : Nat) : Bool := ((tget s.led.flows f).map (·.isOpen)).getD false

/-- The reference itself is valid: alignment, space, flow, and what the service port and RECOVERY admit (13 R291,
20 R449, 21 R456). -/
def refValid (s : State) (src : Src) (b : BufRef) : Bool :=
  b.addr % 16 == 0 && b.space != 3 && (if b.space = 2 then flowOpen s b.rflow else b.rflow == 0) &&
    (if src == .service then b.space == 0 && b.addr == 0 else true) &&
    (if s.pm.mode == .recovery then b.space == 0 else true) &&
    (if b.space = 1 then decide (b.addr + b.len ≤ hbmSize) else true)

/-- Read the object a command names by reference, once: the bytes, or the status and reason of R290 (13 R290,
R291). `lenOk` is the command's own size rule. -/
def readBuffer (e : Entry) (w : W128) (lenOk : Nat → Bool) (s : State) : (Except (Nat × Nat) (List Byte)) × State :=
  let b := bufRef w
  if refValid s e.src b = false then (.error (stBadArg, 0x8002), s)
  else if lenOk b.len = false then (.error (stBadLength, 0x8003), s)
  else if b.space = 1 ∧ domOn s .mem = false then (.error (stBadState, 0x8001), s)
  else if b.space = 1 ∧ (touchesSealed s b.addr b.len ∨ touchesSpill b.addr b.len) then (.error (stDenied, 0x8006), s)
  else if e.busErr then (.error (stFault, 0x8004), s)
  else if e.src == .service then
    if e.follow.length = b.len then (.ok e.follow, s) else (.error (stBadLength, 0x8003), s)
  else if b.space = 2 then
    match vread b.rflow b.addr b.len s with
    | (.ok l, s1) => (.ok l, s1)
    | (.error _, s1) => (.error (stTransFault, 0x8005), s1)
  else (.ok (if b.space = 1 then hbmRead s b.addr b.len else hostRead s b.addr b.len), s)

/-! ### Fields of a work item's parameter block -/

/-- Bits [lo + n - 1 : lo] of word `k` of a block held as bytes (00 R2, R3). -/
def blk (l : List Byte) (k lo n : Nat) : Nat := leAt l (16 * k) 16 / 2 ^ lo % 2 ^ n

/-- The same, signed (00 R4). -/
def blkInt (l : List Byte) (k lo n : Nat) : Int := signedNat n (blk l k lo n)

end Sys2Proof.Machine
end

