-- ==== Sys2Proof/Machine/Flags.lean ====
section
/-! DEFINITION. Flag computations: the W1C rules (00 R9, 12 R269, 22 R483) and the status words that are put
together from state (12 R267, R274, 13 R298). -/

namespace Sys2Proof.Machine

/-- Write of `v` to a W1C field holding `f`: the bits written 1 clear (00 R9). -/
def w1c {w : Nat} (f v : BitVec w) : BitVec w := f &&& ~~~v

/-- SMB_STATUS bits are set (22 R483). -/
def setSmb (m : BitVec 4) (s : State) : State := { s with smb := { s.smb with status := s.smb.status ||| m } }

/-- BUSY of a ring: an entry is in progress (12 R274). For a mailbox submission ring that is a running command, for
a DMA ring an unreleased descriptor. -/
def ringBusy (s : State) (i : Nat) : Bool :=
  if i < 16 then
    i % 2 == 0 && s.mb.running.any (fun w => match w.src with | .mailbox m => m.val == i / 2 | .service => false)
  else if h : i < 32 then !(s.dma.ch[i - 16]).descs.isEmpty
  else false

/-- WIN_RING_STATUS (12 R274). -/
def ringStatus (s : State) (i : Fin 64) : BitVec 32 :=
  let r := ring s i
  BitVec.ofNat 32 (packFields [(0, 2, r.st), (2, 1, b2n (ringBusy s i.val)), (3, 1, b2n r.full), (4, 1, b2n r.dbBad),
    (5, 1, b2n r.busErr)])

/-- WIN_MODE (12 R267). -/
def winMode (s : State) : BitVec 32 :=
  BitVec.ofNat 32 (packFields [(0, 4, s.pm.mode.code), (4, 4, s.pm.target.code), (8, 1, b2n s.pm.changing),
    (16, 4, s.pm.fwState)])

/-- The domains field: bit d = 1 when domain d is powered (13 R298). -/
def domainsMask (s : State) : Nat :=
  packFields (Domain.all.map (fun d => (d.num, 1, b2n (domPowered s d))))

/-- A loopback holds the blanker link DOWN (13 R321). -/
def loopOnLink (s : State) : Bool :=
  match s.diag.loop with
  | some (path, _) => path == 0 || path == 2
  | none => false

/-- A loopback holds fabric port `p` DOWN (13 R321). -/
def loopOnPort (s : State) (p : Nat) : Bool :=
  match s.diag.loop with
  | some (path, unit) => path == 1 && unit == p
  | none => false

/-- Some interlock input is latched (10 R235). -/
def anyLatched (s : State) : Bool := s.ilk.toList.any (·.latched)

end Sys2Proof.Machine
end

