-- ==== Sys2Proof/Machine/FabricOps.lean ====
section
/-! DEFINITION. The link layer, routing and sending of spores (15 R351-R365, R373, R374), shared by every command
that sends or takes a spore. -/

namespace Sys2Proof.Machine

/-! ### Ports -/

/-- A port of the fabric. -/
def port (s : State) (p : Fin 8) : Port := s.fab.ports[p]

/-- The fabric with one port replaced. -/
def setPort (p : Fin 8) (q : Port) (s : State) : State :=
  { s with fab := { s.fab with ports := s.fab.ports.set p.val q } }

/-- One class of a port. -/
def pclass (s : State) (p : Fin 8) (c : Fin 4) : PClass := (port s p).cls[c]

/-- The port with one class replaced. -/
def setPClass (p : Fin 8) (c : Fin 4) (k : PClass) (s : State) : State :=
  setPort p { port s p with cls := (port s p).cls.set c.val k } s

/-- The link layer is up in this mode: FAB on, or held as in HOLD (19 R420). -/
def fabAlive (s : State) : Bool :=
  running s && (domainState s.pm.mode .fab == .on || domainState s.pm.mode .fab == .held)

/-- The port is UP. -/
def portUp (s : State) (p : Fin 8) : Bool := (port s p).st == .up

/-- All ports. -/
def allPorts : List (Fin 8) := [0, 1, 2, 3, 4, 5, 6, 7]

/-- Ports that `f` picks, one bit each. -/
def portMask (f : Fin 8 → Bool) : Nat := packFields (allPorts.map (fun p => (p.val, 1, b2n (f p))))

/-! ### Blocks (15 R352) -/

/-- A control block: type byte and seven bytes. -/
def ctlBlock (t : Nat) (l : List (Nat × Nat × Nat)) : BitVec 64 :=
  BitVec.ofNat 64 (t + 256 * packFields l)

/-- Send a LINK_ACK for a class: cumulative sequence of the last spore taken, code and violation code (15 R352). -/
def sendLinkAck (p : Fin 8) (c : Fin 4) (code viol : Nat) (s : State) : State :=
  let k := pclass s p c
  emit (.block p.val (ctlBlock 0x33 [(0, 8, c.val), (8, 24, 16777215 + k.rx), (32, 8, code), (40, 8, viol)])) s

/-- Send the CREDIT block of a port: cumulative counts modulo 256 of X, L, R, B (15 R352). -/
def sendCredit (p : Fin 8) (s : State) : State :=
  let q := port s p
  emit (.block p.val (ctlBlock 0x4B [(0, 8, q.cls[0].freed), (8, 8, q.cls[1].freed), (16, 8, q.cls[2].freed),
    (24, 8, q.cls[3].freed)]))
    (setPort p { q with cls := q.cls.map (fun k => { k with owed := 0 }) } s)

/-! ### Sending on a port (15 R353, R354) -/

/-- Native words of a spore with `len` payload bytes (15 R356). -/
def sporeWords (len : Nat) : Nat := 1 + (len + 15) / 16

/-- Credits that a spore takes: one for each four native words, rounded up (15 R353). -/
def sporeCredits (len : Nat) : Nat := (sporeWords len + 3) / 4

/-- Send a spore now: its sequence, its credits, kept until acknowledged. An injected fault 10 of the port drops it
on the wire; the link layer retransmits it (13 R322, 15 R354). -/
def transmit (p : Fin 8) (c : Fin 4) (t : TxSpore) (s : State) : State :=
  let (inj, s1) := injected 10 (fun q => q.toNat == p.val) s
  let k := pclass s1 p c
  let t1 := { t with hopSeq := k.tx }
  let n := sporeCredits t.payload.length
  let k1 := { k with
    tx := (k.tx + 1) % 2 ^ 24
    credits := k.credits - n
    spent := k.spent + n
    unacked := k.unacked ++ [t1] }
  let s2 := stat (sk 0x06010001 (p.val * 4 + c.val)) (setPClass p c k1 s1)
  if inj then s2 else emit (.spore p.val t1.hopSeq c.val t1.ttl t1.header t1.payload) s2

/-- Send the spores that wait for credits, in order, as far as the credits go (15 R353). -/
def drainQueue (p : Fin 8) (c : Fin 4) : Nat → State → State
  | 0, s => s
  | n + 1, s =>
    let k := pclass s p c
    match k.queue with
    | [] => s
    | t :: rest =>
      if portUp s p && decide (sporeCredits t.payload.length ≤ k.credits) then
        drainQueue p c n (transmit p c t (setPClass p c { k with queue := rest } s))
      else s

/-- Give a spore to a port: it starts at once when it holds the credits and none waits before it, else it waits
(15 R353). -/
def sendOn (p : Fin 8) (c : Fin 4) (t : TxSpore) (s : State) : State :=
  let k := pclass s p c
  if k.queue.isEmpty && decide (sporeCredits t.payload.length ≤ k.credits) then transmit p c t s
  else setPClass p c { k with queue := k.queue ++ [t] } s

/-- A retransmission: every unacknowledged spore of the class is sent again, oldest first (15 R354). -/
def resendAll (p : Fin 8) (c : Fin 4) : List TxSpore → State → State
  | [], s => s
  | t :: l, s => resendAll p c l (emit (.spore p.val t.hopSeq c.val t.ttl t.header t.payload) s)

/-! ### Routing (15 R362, R363) -/

/-- The routing entry of a destination; unlisted reads 0 (15 R362). -/
def routeOf (s : State) (dst : Nat) : BitVec 32 := (tget s.fab.routes dst).getD 0

/-- Primary port of an entry. -/
def routePrimary (r : BitVec 32) : Fin 8 := ⟨bitsNat r 0 3, Nat.mod_lt _ (by decide)⟩

/-- Alternate port of an entry. -/
def routeAlternate (r : BitVec 32) : Fin 8 := ⟨bitsNat r 4 3, Nat.mod_lt _ (by decide)⟩

/-- The alternate of an entry can be used (15 R363). -/
def altUsable (s : State) (r : BitVec 32) : Bool := bitAt r 7 && portUp s (routeAlternate r)

/-- The port a spore for `dst` leaves on: primary while UP, else the alternate (15 R363). -/
def routePort (s : State) (dst : Nat) : Option (Fin 8) :=
  let r := routeOf s dst
  if !bitAt r 8 then none
  else if portUp s (routePrimary r) then some (routePrimary r)
  else if altUsable s r then some (routeAlternate r)
  else none

/-- USING_ALT as the ports now stand (15 R362, R363). -/
def usingAlt (s : State) (r : BitVec 32) : Bool :=
  bitAt r 8 && !portUp s (routePrimary r) && altUsable s r

/-- The entry with USING_ALT (bit 9) set to `b`. -/
def setUsingAlt (r : BitVec 32) (b : Bool) : BitVec 32 :=
  BitVec.ofNat 32 (bitsNat r 0 9 + b2n b * 2 ^ 9)

/-- Bring USING_ALT of every entry up to date; each change raises FAB_ROUTE_FAILOVER (15 R363). -/
def updateRoutes : List (Nat × BitVec 32) → State → State
  | [], s => s
  | (d, _) :: t, s =>
    let r := routeOf s d
    if usingAlt s r = bitAt r 9 then updateRoutes t s
    else
      updateRoutes t (raise 0x0608 .fab 0
        { s with fab := { s.fab with routes := tput s.fab.routes d (setUsingAlt r (usingAlt s r)) } })

/-- Routes after a port changed its state. -/
def refreshRoutes (s : State) : State := updateRoutes s.fab.routes s

/-! ### Spores (15 R356-R358) -/

/-- Class of a spore type (15 R357): 0 X, 1 L, 2 R, 3 B; two for the types with a choice; NACK any. -/
def typeClasses (t : Nat) : List Nat :=
  if t = 0x01 then [1] else if t = 0x02 ∨ t = 0x03 ∨ t = 0x04 then [3]
  else if t = 0x08 then [0, 1, 2, 3]
  else if 0x10 ≤ t ∧ t ≤ 0x16 then [1]
  else if t = 0x20 ∨ t = 0x21 then [1]
  else if t = 0x30 then [0] else if t = 0x31 ∨ t = 0x32 then [0, 2]
  else if t = 0x40 then [1] else if t = 0x50 ∨ t = 0x51 then [3] else []

/-- The stated range of `len` of a type (15 R357, 16 R382, 21 R459). -/
def typeLenOk (t len : Nat) : Bool :=
  if t = 0x01 ∨ t = 0x04 ∨ t = 0x08 ∨ t = 0x13 ∨ t = 0x14 ∨ t = 0x15 ∨ t = 0x16 ∨ t = 0x21 ∨ t = 0x31 then
    decide (len = 16)
  else if t = 0x02 then decide (len = 96) else if t = 0x03 ∨ t = 0x10 ∨ t = 0x11 then decide (len = 32)
  else if t = 0x12 then decide (len = 48)
  else if t = 0x20 then decide (64 ≤ len ∧ len ≤ 4032 ∧ len % 64 = 0)
  else if t = 0x30 then decide (len = 64)
  else if t = 0x32 then decide (32 ≤ len ∧ len ≤ 4096 ∧ len % 16 = 0)
  else if t = 0x40 then decide (len = 32)
  else if t = 0x50 then decide (1 ≤ len ∧ len ≤ 4096)
  else if t = 0x51 then decide (len = 80 ∨ len = 2064 ∨ len = 1040) else false

/-- `dst` of a header (15 R356). -/
def hdrDst (w : W128) : Nat := bitsNat w 0 12
/-- `src` of a header. -/
def hdrSrc (w : W128) : Nat := bitsNat w 12 12
/-- `type` of a header. -/
def hdrType (w : W128) : Nat := bitsNat w 24 8
/-- `len` of a header. -/
def hdrLen (w : W128) : Nat := bitsNat w 32 13
/-- `class` of a header. -/
def hdrClass (w : W128) : Nat := bitsNat w 45 2
/-- `msg_id` of a header. -/
def hdrMsgId (w : W128) : BitVec 32 := bitsOf w 64 32
/-- `scheck` of a header. -/
def hdrCheck (w : W128) : BitVec 32 := bitsOf w 96 32

/-- `scheck`: CRC-32C over header bytes 0-11 and the payload (15 R356). -/
def scheck (w : W128) (payload : List Byte) : BitVec 32 := crc32c ((wordBytes w).take 12 ++ payload)

/-- The header of a spore that this device originates (15 R356). -/
def header (dst src typ len cls : Nat) (msgId : BitVec 32) (payload : List Byte) : W128 :=
  let w := word [(0, 12, dst), (12, 12, src), (24, 8, typ), (32, 13, len), (45, 2, cls), (64, 32, msgId.toNat)]
  w + BitVec.ofNat 128 ((scheck w payload).toNat * 2 ^ 96)

/-- Put a spore of this device on a port: the next msg_id, TTL 15 (15 R356). -/
def originateOn (p : Fin 8) (dst typ : Nat) (c : Fin 4) (payload : List Byte) (s : State) : State :=
  let h := header dst s.fab.node.toNat typ payload.length c.val s.fab.msgId payload
  sendOn p c { hopSeq := 0, ttl := 15, header := h, payload := payload }
    { s with fab := { s.fab with msgId := s.fab.msgId + 1 } }

/-- A spore that cannot be delivered is counted (15 R359). -/
def undeliverable (reason : Nat) (s : State) : State :=
  raise 0x0605 .fab 0 (stat (sk 0x06010001 (0x100 + reason)) s)

/-- In HOLD the device originates no spore of its own (19 R420). -/
def mayOriginate (s : State) : Bool := fabAlive s && s.pm.mode != .hold

/-- Send a spore of this device to a node, on the route of R363; with no usable route it is dropped and counted
(15 R359, R363). -/
def send (dst typ : Nat) (c : Fin 4) (payload : List Byte) (s : State) : State :=
  if mayOriginate s || (fabAlive s && typ == 0x08) then
    match routePort s dst with
    | some p => originateOn p dst typ c payload s
    | none => undeliverable 1 s
  else s

/-- Send over the alternate route where it is enabled and UP (15 R367, R369). -/
def sendAlternate (dst typ : Nat) (c : Fin 4) (payload : List Byte) (s : State) : State :=
  let r := routeOf s dst
  if mayOriginate s && bitAt r 8 && altUsable s r then originateOn (routeAlternate r) dst typ c payload s else s

/-- Send on both routes: primary (or what serves for it) and the alternate when it is enabled (15 R369). -/
def sendBoth (dst typ : Nat) (c : Fin 4) (payload : List Byte) (s : State) : State :=
  sendAlternate dst typ c payload (send dst typ c payload s)

/-- Flood a spore of this device on every UP port but one (15 R360). -/
def floodFrom (except : Option (Fin 8)) (typ : Nat) (payload : List Byte) : List (Fin 8) → State → State
  | [], s => s
  | p :: t, s =>
    floodFrom except typ payload t
      (if portUp s p && (some p != except) then originateOn p 0xFFF typ 3 payload s else s)

/-! ### Violations (15 R373, R374) -/

/-- Log a violation of the partner on port p: event, count, quarantine at the 16th within 1 s (15 R373, R374). -/
def violation (p : Fin 8) (code src typ : Nat) (s : State) : State :=
  let s1 := raiseLimited (0x060300 + p.val) 0x0603 .fab (detail [du 8 p.val, du 8 code, du 16 src, du 8 typ])
    (stat (sk 0x06010001 (0x200 + p.val * 16 + code)) s)
  let now := (ltNow s1).toNat
  let q := port s1 p
  let l := (now :: q.viol).take 16
  let old := l.getLastD now
  if l.length = 16 ∧ (2 ^ 32 + now - old) % 2 ^ 32 ≤ 1000000000 ∧ q.st = .up then
    refreshRoutes (raise 0x0604 .fab 0 (setPort p { q with viol := l, st := .quarantined } s1))
  else setPort p { q with viol := l } s1

/-- A violation that is answered with LINK_ACK code 3 (15 R373). -/
def violationAck (p : Fin 8) (c : Fin 4) (code src typ : Nat) (s : State) : State :=
  sendLinkAck p c 3 code (violation p code src typ s)

/-! ### NACK (15 R359) -/

/-- A NACK may answer this spore: not a NACK, a flood, a PAIR_BEAT, nor one whose src is 0x000 (15 R359). -/
def nackable (w : W128) : Bool :=
  hdrType w != 0x08 && hdrDst w != 0xFFF && hdrType w != 0x12 && hdrSrc w != 0

/-- Payload of a NACK (15 R358). -/
def nackPayload (w : W128) (reason sub : Nat) : List Byte :=
  wordBytes (word [(0, 32, (hdrMsgId w).toNat), (32, 8, hdrType w), (40, 8, reason), (48, 8, sub)])

/-- Answer a spore with a NACK of its own class, where R359 admits one. Reasons 1, 2 and 7 are spores that could not
be delivered, and count (15 R359). -/
def nackSpore (w : W128) (reason sub : Nat) (s : State) : State :=
  let s1 := if reason = 1 ∨ reason = 2 ∨ reason = 7 then undeliverable reason s else s
  if nackable w then
    send (hdrSrc w) 0x08 ⟨hdrClass w, Nat.mod_lt _ (by decide)⟩ (nackPayload w reason sub) s1
  else s1

/-! ### Taking a spore at a port (15 R354, R356, R363, R373) -/

/-- The class object after a spore is taken: next sequence, an acknowledgement owed, its credits freed and owed
(15 R353, R354). -/
def PClass.take (k : PClass) (n : Nat) : PClass :=
  { k with rx := (k.rx + 1) % 2 ^ 24, owedAcks := k.owedAcks + 1, freed := (k.freed + n) % 256, owed := k.owed + n }

/-- Credits of a discarded spore are returned (15 R353). -/
def PClass.discard (k : PClass) (n : Nat) : PClass := { k with freed := (k.freed + n) % 256, owed := k.owed + n }

/-- Acknowledge after eight spores of the class (15 R354). -/
def ackIfEight (p : Fin 8) (c : Fin 4) (s : State) : State :=
  let k := pclass s p c
  if 8 ≤ k.owedAcks then sendLinkAck p c 0 0 (setPClass p c { k with owedAcks := 0 } s) else s

/-- The link layer's judgement of an arriving spore: whether it is taken, and the state after its answer
(15 R353, R354, R373 codes 1 and 2). -/
def linkTake (p : Fin 8) (sp : Spore) (s : State) : Bool × State :=
  let c := sp.cls
  let n := (sp.words + 3) / 4
  if !fabAlive s || !portUp s p then (false, s)
  else if !sp.startOk then
    (false, violationAck p c 1 (hdrSrc sp.header) (hdrType sp.header) s)
  else if !sp.credOk then
    (false, violationAck p c 2 (hdrSrc sp.header) (hdrType sp.header) s)
  else
    let k := pclass s p c
    let d := (2 ^ 24 + sp.hopSeq.toNat - k.rx) % 2 ^ 24
    let s1 := setPClass p c (k.discard n) s
    if d = 0 then
      if scheck sp.header sp.payload = hdrCheck sp.header then
        (true, ackIfEight p c (setPClass p c (k.take n) s))
      else (false, sendLinkAck p c 1 0 (stat (sk 0x06010001 (0x40 + p.val * 4 + c.val)) s1))
    else if d < 2 ^ 23 then
      (false, sendLinkAck p c 2 0 (stat (sk 0x06010001 (0x60 + p.val * 4 + c.val)) s1))
    else (false, sendLinkAck p c 0 0 s1)

/-- Violations 4, 5 and 6 of a spore that the link layer took (15 R373). -/
def sporeViolation (sp : Spore) (own : Nat) : Option Nat :=
  let w := sp.header
  if bitsNat w 47 17 ≠ 0 ∨ 4096 < hdrLen w ∨ sp.words ≠ sporeWords (hdrLen w) ∨ hdrClass w ≠ sp.cls.val then some 4
  else if (typeClasses (hdrType w)).isEmpty then some 5
  else if (typeClasses (hdrType w)).contains (hdrClass w) = false then some 4
  else if typeLenOk (hdrType w) (hdrLen w) = false then some 5
  else if hdrSrc w = 0xFFF ∨ (own ≠ 0 ∧ hdrSrc w = own) then some 6
  else if hdrDst w = 0 ∧ hdrType w ≠ 0x01 ∧ hdrType w ≠ 0x40 then some 6
  else none

/-- Send a spore of another source on: TTL, route (15 R356, R363). -/
def forward (sp : Spore) (s : State) : State :=
  if sp.ttl = 0 then nackSpore sp.header 2 0 s
  else
    match routePort s (hdrDst sp.header) with
    | none => nackSpore sp.header 1 0 s
    | some q => sendOn q sp.cls { hopSeq := 0, ttl := sp.ttl.toNat - 1, header := sp.header, payload := sp.payload } s

/-- Forward a flood on every UP port but the one it came by (15 R360). -/
def forwardFlood (p : Fin 8) (sp : Spore) : List (Fin 8) → State → State
  | [], s => s
  | q :: t, s =>
    forwardFlood p sp t
      (if portUp s q && (q != p) then
        sendOn q sp.cls { hopSeq := 0, ttl := sp.ttl.toNat - 1, header := sp.header, payload := sp.payload } s
      else s)

/-- A spore of type `typ` arrives on port p: link layer, violations, addressing; `deliver` acts on one that this
device takes for itself. In HOLD such a spore is answered with a NACK of reason 3 instead (15 R354, R363, R373,
19 R420). A spore of another type is not this command's and changes nothing. -/
def rxSpore (typ : Nat) (p : Fin 8) (sp : Spore) (deliver : State → State) (s : State) : State :=
  if hdrType sp.header ≠ typ then s
  else
    let (ok, s1) := linkTake p sp s
    if !ok then s1
    else
      let w := sp.header
      match sporeViolation sp s.fab.node.toNat with
      | some 6 => violationAck p sp.cls 6 (hdrSrc w) typ s1
      | some v => nackSpore w 4 0 (violation p v (hdrSrc w) typ s1)
      | none =>
        if hdrDst w = 0 ∨ hdrDst w = 0xFFF ∨ hdrDst w = s.fab.node.toNat then
          if s.pm.mode = .hold then nackSpore w 3 0 s1 else deliver s1
        else forward sp s1

/-! ### Ports coming and going (15 R355) -/

/-- Send again, by R363, the spores that a port going DOWN holds; those for this hop only or flooded are dropped. -/
def rerouteAll : List (Fin 4 × TxSpore) → State → State
  | [], s => s
  | (c, t) :: l, s =>
    let d := hdrDst t.header
    rerouteAll l
      (if d = 0 ∨ d = 0xFFF then s
       else
        match routePort s d with
        | some q => sendOn q c { t with hopSeq := 0 } s
        | none => nackSpore t.header 1 0 s)

/-- Spores of a port not yet acknowledged or not yet sent, by class. -/
def heldSpores (q : Port) : List (Fin 4 × TxSpore) :=
  [0, 1, 2, 3].flatMap (fun c : Fin 4 => (q.cls[c].unacked ++ q.cls[c].queue).map (fun t => (c, t)))

/-- The port leaves UP: FAB_PORT_DOWN, routes fail over, its spores are routed again (15 R355, R363). -/
def portDown (p : Fin 8) (s : State) : State :=
  let q := port s p
  let q1 := { q with st := .down, cls := Vector.replicate 4 PClass.init }
  rerouteAll (heldSpores q) (refreshRoutes (raise 0x0601 .fab 0 (setPort p q1 s)))

/-- A retransmission episode; eight in a row without progress take the port DOWN (15 R354). -/
def retransmit (p : Fin 8) (c : Fin 4) (s : State) : State :=
  let k := pclass s p c
  let s1 := raiseLimited (0x060200 + p.val) 0x0602 .fab 0 (stat (sk 0x06010001 (0x80 + p.val * 4 + c.val))
    (setPClass p c { k with episodes := k.episodes + 1 } s))
  if 8 ≤ k.episodes + 1 then portDown p s1 else resendAll p c k.unacked s1

/-- The device leaves a mode that powers FAB: every port is DOWN with nothing held (19 R425). -/
def dropPorts (s : State) : State :=
  { s with fab := { s.fab with
      ports := s.fab.ports.map (fun q => { q with st := .down, cls := Vector.replicate 4 PClass.init }) } }

end Sys2Proof.Machine
end

