-- ==== Sys2Proof/Machine/LedgerOps.lean ====
section
/-! DEFINITION. The ledger's own operations (11): flows and items, witness records and their sending, what an
acknowledgement settles, and the publication of results. -/

namespace Sys2Proof.Machine

/-! ### Flows and items -/

/-- A closed flow (11 R242). -/
def Flow.closed : Flow where
  isOpen := false
  owner := 0
  nextSeq := 0
  floor := 0
  doneCnt := 0
  failCnt := 0

/-- The context of a flow (11 R242). -/
def flow (s : State) (f : BitVec 8) : Flow := (tget s.led.flows f.toNat).getD Flow.closed

/-- The ledger with one flow context replaced. -/
def setFlow (f : BitVec 8) (x : Flow) (s : State) : State :=
  { s with led := { s.led with flows := tput s.led.flows f.toNat x } }

/-- The unretired item of a flow and sequence number (11 R245). -/
def findItem (s : State) (f : BitVec 8) (q : BitVec 64) : Option Item :=
  s.led.items.find? (fun i => i.flow == f && i.seq == q)

/-- Replace the item of the same flow and sequence number. -/
def putItem (x : Item) (s : State) : State :=
  { s with led := { s.led with items := s.led.items.map (fun i => if i.flow = x.flow ∧ i.seq = x.seq then x else i) } }

/-- Add a new item at the end. -/
def addItem (x : Item) (s : State) : State := { s with led := { s.led with items := s.led.items ++ [x] } }

/-- Remove an item. -/
def dropItem (f : BitVec 8) (q : BitVec 64) (s : State) : State :=
  { s with led := { s.led with items := s.led.items.filter (fun i => !(i.flow == f && i.seq == q)) } }

/-- SUBMITTED, ACCEPTED or RUNNING (11 R246). -/
def Item.live (i : Item) : Bool := i.st == .submitted || i.st == .accepted || i.st == .running

/-- State codes of witness and result records (11 R253). -/
def ItemSt.code : ItemSt → Nat
  | .submitted => 0
  | .accepted => 1
  | .running => 2
  | .done => 3
  | .failed => 4

/-- The witness is configured (11 R252). -/
def hasWitness (s : State) : Bool := s.led.witness != .none

/-- Highest wseq acknowledged: by the witness, and by the second mirror where one is in use (11 R254, 15 R368). -/
def effAcked (s : State) : Nat := if s.led.second then min s.led.acked s.led.acked2 else s.led.acked

/-! ### Witness records (11 R253) -/

/-- The first 60 bytes of a witness record, as words (11 R253). -/
def WRec.words (r : WRec) : List W128 :=
  [word [(0, 8, r.rtype), (8, 8, r.flow.toNat), (16, 8, r.kind.toNat), (24, 4, r.st), (32, 16, r.status.toNat),
      (48, 16, r.stripe.toNat), (64, 64, r.seq.toNat)],
   word [(0, 64, r.wseq), (64, 32, r.paramCrc.toNat), (96, 32, raw 32 r.h)],
   word [(0, 32, r.ft.toNat), (32, 32, r.lt.toNat), (64, 12, r.owner.toNat)],
   word [(0, 64, r.result.toNat), (64, 32, r.epoch.toNat)]]

/-- The 64 bytes of a witness record, `rec_crc` included (11 R253). -/
def WRec.bytes (r : WRec) : List Byte :=
  let b := (wordsBytes r.words).take 60
  b ++ leBytes 4 (crc32c b).toNat

/-- Reading a witness record from 64 bytes (11 R253). -/
def WRec.ofBytes (l : List Byte) : WRec where
  rtype := blk l 0 0 8
  flow := BitVec.ofNat 8 (blk l 0 8 8)
  kind := BitVec.ofNat 8 (blk l 0 16 8)
  st := blk l 0 24 4
  status := BitVec.ofNat 16 (blk l 0 32 16)
  stripe := BitVec.ofNat 16 (blk l 0 48 16)
  seq := BitVec.ofNat 64 (blk l 0 64 64)
  wseq := blk l 1 0 64
  paramCrc := BitVec.ofNat 32 (blk l 1 64 32)
  h := blkInt l 1 96 32
  ft := BitVec.ofNat 32 (blk l 2 0 32)
  lt := BitVec.ofNat 32 (blk l 2 32 32)
  owner := BitVec.ofNat 12 (blk l 2 64 12)
  result := BitVec.ofNat 64 (blk l 3 0 64)
  epoch := BitVec.ofNat 32 (blk l 3 64 32)

/-- `rec_crc` of 64 bytes is correct (11 R255). -/
def recCrcOk (l : List Byte) : Bool := crc32c (slice l 0 60) == BitVec.ofNat 32 (leAt l 60 4)

/-- A record of an item, stamped now (11 R253). -/
def itemRec (rtype : Nat) (i : Item) (s : State) : WRec where
  rtype := rtype
  flow := i.flow
  kind := i.kind
  st := i.st.code
  status := i.status
  stripe := i.stripe
  seq := i.seq
  wseq := s.led.wseq
  paramCrc := i.paramCrc
  h := i.h
  ft := ftNow s
  lt := ltNow s
  owner := s.fab.node
  result := i.result
  epoch := s.led.epoch

/-- A record of a flow, stamped now: OWNER 8, CHECKPOINT 6, CLOSE 7 (11 R253). -/
def flowRec (rtype : Nat) (f : BitVec 8) (x : Flow) (s : State) : WRec where
  rtype := rtype
  flow := f
  kind := 0
  st := 0
  status := 0
  stripe := 0
  seq := if rtype = 8 then x.nextSeq else x.floor
  wseq := s.led.wseq
  paramCrc := 0
  h := 0
  ft := ftNow s
  lt := ltNow s
  owner := if rtype = 8 then x.owner else s.fab.node
  result := if rtype = 6 then BitVec.ofNat 64 (packFields [(0, 32, x.doneCnt.toNat), (32, 32, x.failCnt.toNat)]) else 0
  epoch := s.led.epoch

/-- Send a record to a peer in a LEDGER_REC spore (15 R367). -/
def sendRecs (node : BitVec 12) (rs : List WRec) (s : State) : State :=
  send node.toNat 0x20 1 (rs.flatMap WRec.bytes) s

/-- Write a record into a host region: byte 64·(w mod N), on internal context L; a translation fault is recorded
(11 R254, 14 R328, R346). -/
def writeRegion (f : BitVec 8) (a n : Nat) (r : WRec) (s : State) : State :=
  let va := a + 64 * (r.wseq % n)
  match vwrite f.toNat va r.bytes s with
  | ((none, _), s1) => s1
  | ((some (reason, v), done), s1) =>
    recordFault { id := 0, flow := f, reason := reason, write := true, ctx := 17, idx := BitVec.ofNat 32 r.wseq,
                  va := BitVec.ofNat 64 v, progress := done } s1

/-- Send one record to a witness (11 R254). -/
def sendTo (w : WitnessKind) (r : WRec) (s : State) : State :=
  match w with
  | .none => s
  | .peer node => sendRecs node [r] s
  | .region f a n => writeRegion f a n r s

/-- Send one record where it belongs now: nowhere while the witness is lost (it waits); else to the witness, and to
the shadow where it is the second mirror (11 R254, 15 R368). -/
def sendRec (r : WRec) (s : State) : State :=
  if s.led.lost then s
  else
    let s1 := sendTo s.led.witness r s
    if s.led.second then sendRecs s.fab.pair.partner [r] s1 else s1

/-- A record of an item: ACCEPT, STATE, PROGRESS, FINAL or WITHDRAW (11 R253). -/
def WRec.ofItem (r : WRec) : Bool := decide (1 ≤ r.rtype ∧ r.rtype ≤ 5)

/-- The latest record of each item, with a new one taken in (11 R263). -/
def latestWith (r : WRec) (l : List WRec) : List WRec :=
  if r.ofItem then l.filter (fun x => !(x.flow == r.flow && x.seq == r.seq)) ++ [r] else l

/-- Number, keep and send a record (11 R253, R254). -/
def appendRec (mk : State → WRec) (s : State) : State :=
  let r := mk s
  let s1 := stat (sk 0x04000001 (0x20 + r.rtype))
    { s with led := { s.led with
        wseq := s.led.wseq + 1
        unacked := s.led.unacked ++ [r]
        recs := latestWith r s.led.recs } }
  sendRec r s1

/-- The records of the open flows that a crossing of N/2 writes first (11 R255). -/
def checkpointFlows : List (Nat × Flow) → State → State
  | [], s => s
  | (f, x) :: t, s =>
    checkpointFlows t
      (if x.isOpen then
        appendRec (flowRec 6 (BitVec.ofNat 8 f) x) (appendRec (flowRec 8 (BitVec.ofNat 8 f) x) s)
       else s)

/-- STATE records of the unretired items (11 R255). -/
def checkpointItems : List Item → State → State
  | [], s => s
  | i :: t, s => checkpointItems t (appendRec (itemRec 2 i) s)

/-- When wseq reaches a multiple of N/2 of a host region, every open flow and every unretired item is written
first (11 R255). -/
def regionCheckpoint (s : State) : State :=
  match s.led.witness with
  | .region _ _ n =>
    if 0 < n / 2 ∧ s.led.wseq % (n / 2) = 0 then checkpointItems s.led.items (checkpointFlows s.led.flows s) else s
  | _ => s

/-- Write a witness record (11 R253-R255). A device with no witness writes none. -/
def writeRec (mk : State → WRec) (s : State) : State :=
  if hasWitness s then appendRec mk (regionCheckpoint s) else s

/-! ### Publication (11 R249, 12 R281) -/

/-- Words 0-3 of an item's result record (11 R249); `st` is the state reported. -/
def resultWords (i : Item) (st status reason : Nat) : List W128 :=
  [word [(0, 64, i.seq.toNat), (64, 8, i.flow.toNat), (72, 8, i.kind.toNat), (80, 4, st), (96, 16, status),
      (112, 16, reason)],
   word [(0, 64, i.result.toNat), (64, 32, i.resumes.toNat), (96, 32, raw 32 i.h)],
   word [(0, 32, i.finalFt.toNat), (32, 32, i.finalLt.toNat), (64, 64, (i.finalWseq.getD 0))],
   i.detail]

/-- Words 0-3 as a query or a duplicate reports them: RUNNING until the FINAL record is acknowledged (11 R249,
13 R307, R308). -/
def queryWords (s : State) (i : Item) : List W128 :=
  if i.st = .done ∨ i.st = .failed then
    if i.published then resultWords i i.st.code i.status.toNat i.reason.toNat else resultWords i 2 0 0
  else
    let h := if i.kind = 4 ∧ i.st = .running ∧ s.seq.item = some (i.flow, i.seq) then s.seq.h else i.h
    resultWords { i with h := h } i.st.code 0 0

/-- The ledger ring of a flow (11 R242). -/
def ledgerRing (f : BitVec 8) : Fin 64 := ⟨56 + f.toNat % 8, by omega⟩

/-- Give waiting result records to their ledger ring while it is ACTIVE and has space; FULL while some wait
(12 R274, R281). -/
def drainResults (j : Fin 8) : Nat → State → State
  | 0, s => s
  | n + 1, s =>
    let i : Fin 64 := ⟨56 + j.val, by omega⟩
    match s.win.resultWait[j] with
    | [] => setRing i { ring s i with full := false } s
    | r :: t =>
      if (ring s i).st = 1 ∧ (ring s i).space then
        drainResults j n (pushEntry i (leBytes 64 r.toNat)
          { s with win := { s.win with resultWait := s.win.resultWait.set j.val t } })
      else setRing i { ring s i with full := decide ((ring s i).st = 1) } s

/-- A ledger ring may have space now. -/
def serveResults (j : Fin 8) (s : State) : State := drainResults j (s.win.resultWait[j].length + 1) s

/-- Publish the result record of an item: exactly one, never dropped (11 R249, 12 R281). -/
def publish (i : Item) (s : State) : State :=
  let j : Fin 8 := ⟨i.flow.toNat % 8, Nat.mod_lt _ (by decide)⟩
  let b := wordsBytes (resultWords i i.st.code i.status.toNat i.reason.toNat)
  let l := s.win.resultWait[j] ++ [BitVec.ofNat 512 (leNat b)]
  serveResults j (putItem { i with published := true } { s with win := { s.win with resultWait := s.win.resultWait.set j.val l } })

/-! ### Ends of items (11 R247) -/

/-- An item ends DONE or FAILED: FINAL record; the result is published once it is acknowledged (11 R247, R249).
A failure raises WORK_FAILED. -/
def endItem (i : Item) (st : ItemSt) (status reason : Nat) (s : State) : State :=
  let i1 := { i with
    st := st
    status := BitVec.ofNat 16 status
    reason := BitVec.ofNat 16 reason
    finalWseq := none
    finalFt := ftNow s
    finalLt := ltNow s
    waitResume := false }
  let s1 := writeRec (itemRec 4 i1) s
  let i2 := { i1 with finalWseq := if hasWitness s then some (s1.led.wseq - 1) else none }
  let s2 := putItem i2 s1
  if st = .failed then raise 0x0302 .ctrl 0 s2 else s2

/-- The item of a flow and sequence number fails (11 R247). -/
def failItem (f : BitVec 8) (q : BitVec 64) (status reason : Nat) (s : State) : State :=
  match findItem s f q with
  | some i => if i.live then endItem i .failed status reason s else s
  | none => s

/-- The item of a flow and sequence number is DONE with a result (11 R247, R249). -/
def doneItem (f : BitVec 8) (q : BitVec 64) (result : Nat) (s : State) : State :=
  match findItem s f q with
  | some i => if i.live then endItem { i with result := BitVec.ofNat 64 result } .done 0 0 s else s
  | none => s

/-! ### Acknowledgements (11 R247, R249, R254) -/

/-- A SUBMITTED item whose ACCEPT record is acknowledged is ACCEPTED; `next_seq` moves on (11 R247). -/
def acceptItem (i : Item) (s : State) : State :=
  let x := flow s i.flow
  setFlow i.flow { x with nextSeq := x.nextSeq + 1 } (putItem { i with st := .accepted } s)

/-- What an acknowledgement up to `a` does to one item. -/
def settleItem (a : Nat) (i : Item) (s : State) : State :=
  if i.st = .submitted ∧ i.acceptWseq ≤ a then acceptItem i s
  else
    match i.finalWseq with
    | some w => if w ≤ a ∧ i.published = false then publish i s else s
    | none => s

/-- The same for each item, in submission order. -/
def settleItems (a : Nat) : List Item → State → State
  | [], s => s
  | i :: t, s => settleItems a t (settleItem a i s)

/-- C2-C5 of WORK_SUBMIT for every outcome but DUPLICATE: next_seq and wseq (13 R307). -/
def submitWords (next wseq : Nat) : List W128 := [word [(0, 64, next), (64, 64, wseq)], 0, 0, 0]

/-- Retire every record of a flow (11 R244). -/
def retireFlow (f : BitVec 8) (s : State) : State :=
  { s with led := { s.led with
      items := s.led.items.filter (fun i => i.flow != f)
      recs := s.led.recs.filter (fun r => r.flow != f) } }

/-- Records retired by a floor: DONE and FAILED items of the flow below it (11 R256). -/
def retired (s : State) (f : BitVec 8) (floor : BitVec 64) : List Item :=
  s.led.items.filter (fun i => i.flow == f && !i.live && decide (i.seq < floor))

/-- Apply a retire floor (11 R256): counts folded, records dropped. -/
def applyFloor (f : BitVec 8) (floor : BitVec 64) (s : State) : State :=
  let l := retired s f floor
  let x := flow s f
  let s1 := { s with led := { s.led with
    items := s.led.items.filter (fun i => !(i.flow == f && !i.live && decide (i.seq < floor)))
    recs := s.led.recs.filter (fun r => !l.any (fun i => i.flow == r.flow && i.seq == r.seq)) } }
  setFlow f { x with
    floor := if x.floor < floor then floor else x.floor
    doneCnt := x.doneCnt + BitVec.ofNat 32 ((l.filter (fun i => i.st == .done)).length)
    failCnt := x.failCnt + BitVec.ofNat 32 ((l.filter (fun i => i.st == .failed)).length) } s1

/-- The context of a flow right after FLOW_OPEN: owned by this device, no floor (11 R242, 13 R306). -/
def openedFlow (first : BitVec 64) (s : State) : Flow where
  isOpen := true
  owner := s.fab.node
  nextSeq := first
  floor := 0
  doneCnt := 0
  failCnt := 0

/-- Effects on the ledger of commands whose record is acknowledged: a flow opens (13 R306) or closes (11 R244), a
floor applies (11 R256). -/
def ackEffect (a : Nat) (w : Waiting) (s : State) : State :=
  match w.on with
  | .flowOpen f q first => if q ≤ a then setFlow f (openedFlow first s) s else s
  | .flowClose f q => if q ≤ a then retireFlow f (setFlow f { flow s f with isOpen := false } s) else s
  | .checkpoint f q floor => if q ≤ a then applyFloor f floor s else s
  | _ => s

/-- The same for each waiting command. -/
def ackEffects (a : Nat) : List Waiting → State → State
  | [], s => s
  | w :: t, s => ackEffects a t (ackEffect a w s)

/-- Completions that an acknowledgement up to `a` allows (13 R306, R307, R308, R310); `n` counts the records a
checkpoint retired. -/
def ackCompletion (a : Nat) (s : State) (n : BitVec 8 → BitVec 64 → Nat) (w : Waiting) :
    Option (Nat × Nat × List W128) :=
  match w.on with
  | .accept f q =>
    match findItem s f q with
    | some i =>
      if i.st = .submitted then none
      else some (stAccepted, 0, submitWords (flow s f).nextSeq.toNat i.acceptWseq)
    | none => none
  | .flowOpen f q first =>
    if q ≤ a then some (stOk, 0, [word [(0, 64, first.toNat), (64, 3, f.toNat % 8)]]) else none
  | .flowClose f q =>
    if q ≤ a then some (stOk, 0, [word [(0, 64, (flow s f).floor.toNat), (64, 3, f.toNat % 8)]]) else none
  | .cancel f q =>
    match findItem s f q with
    | some i =>
      if i.published then
        if i.st = .failed ∧ i.status = BitVec.ofNat 16 stAborted then some (stOk, 0, queryWords s i)
        else some (stBadState, 1, queryWords s i)
      else none
    | none => none
  | .checkpoint f q floor =>
    if q ≤ a then some (stOk, 0, [word [(0, 64, floor.toNat), (64, 32, n f floor)]]) else none
  | _ => none

/-- Every effect of the records acknowledged so far (11 R247, R249, R254). -/
def settleAcks (s : State) : State :=
  let a := effAcked s
  let n : BitVec 8 → BitVec 64 → Nat := fun f fl => (retired s f fl).length
  let s1 := settleItems a s.led.items { s with led := { s.led with unacked := s.led.unacked.filter (fun r => decide (a < r.wseq)) } }
  let s2 := ackEffects a s1.mb.running s1
  settle (ackCompletion a s2 n) s2

/-- The witness has acknowledged every record up to `a` (11 R254). -/
def ackUpTo (a : Nat) (s : State) : State :=
  settleAcks { s with led := { s.led with acked := max s.led.acked a } }

/-- The second mirror has acknowledged every record up to `a` (15 R368). -/
def ackMirror (a : Nat) (s : State) : State :=
  settleAcks { s with led := { s.led with acked2 := max s.led.acked2 a } }

/-! ### Witness lost and restored (11 R254) -/

/-- A SUBMITTED item is refused: its WITHDRAW record is queued and it leaves no record (11 R247, R254). -/
def withdraw (i : Item) (s : State) : State :=
  let s1 := dropItem i.flow i.seq (writeRec (itemRec 5 i) s)
  { s1 with led := { s1.led with recs := s1.led.recs.filter (fun r => !(r.flow == i.flow && r.seq == i.seq)) } }

/-- Every SUBMITTED item is refused (11 R254). -/
def withdrawAll : List Item → State → State
  | [], s => s
  | i :: t, s => withdrawAll t (if i.st = .submitted then withdraw i s else s)

/-- The restoring record of a FLOW_OPEN or FLOW_CLOSE whose own record was not acknowledged: CLOSE after a failed
open, OWNER after a failed close (13 R306 reason 6). -/
def restoreFlow (w : Waiting) (s : State) : State :=
  match w.on with
  | .flowOpen f _ _ => writeRec (flowRec 7 f (flow s f)) s
  | .flowClose f _ => writeRec (flowRec 8 f (flow s f)) s
  | _ => s

/-- The same for each waiting command. -/
def restoreFlows : List Waiting → State → State
  | [], s => s
  | w :: t, s => restoreFlows t (restoreFlow w s)

/-- Completions of commands that waited for a witness that is lost (11 R247, 13 R306, R310). -/
def lostCompletion (s : State) (w : Waiting) : Option (Nat × Nat × List W128) :=
  match w.on with
  | .accept f _ => some (stNoResource, 10, submitWords (flow s f).nextSeq.toNat 0)
  | .flowOpen _ _ _ => some (stNoResource, 6, [])
  | .flowClose _ _ => some (stNoResource, 6, [])
  | .checkpoint _ _ _ => some (stBadState, 2, [])
  | _ => none

/-- A WORK_SUBMIT is refused with reason 10: WORK_REFUSED for each item that was SUBMITTED (11 R246). -/
def refuseSubmitted : List Item → State → State
  | [], s => s
  | i :: t, s =>
    refuseSubmitted t
      (if i.st = .submitted then
        raise 0x0300 .ctrl (word [(0, 8, 10), (16, 8, i.flow.toNat), (64, 64, i.seq.toNat)]) s
       else s)

/-- The witness is lost (11 R254): flag and event, SUBMITTED items refused, waiting ledger commands answered.
Running items continue; records queue. -/
def loseWitness (s : State) : State :=
  if s.led.lost ∨ hasWitness s = false then s
  else
    let s1 := setFlag 6 (raise 0x0401 .ctrl 0
      (stat (sk 0x04000001 0x41) { s with led := { s.led with lost := true } }))
    let l := s1.mb.running
    let s2 := restoreFlows l (withdrawAll s.led.items (refuseSubmitted s.led.items s1))
    settle (lostCompletion s2) s2

/-- Records in batches of at most 63 (15 R358). -/
def sendBatches (node : BitVec 12) : Nat → List WRec → State → State
  | 0, _, s => s
  | n + 1, l, s => if l.isEmpty then s else sendBatches node n (l.drop 63) (sendRecs node (l.take 63) s)

/-- Send a list of records to a region. -/
def sendRegion (f : BitVec 8) (a n : Nat) : List WRec → State → State
  | [], s => s
  | r :: t, s => sendRegion f a n t (writeRegion f a n r s)

/-- Send records to the present witness, in wseq order (11 R254). -/
def resendTo (w : WitnessKind) (l : List WRec) (s : State) : State :=
  match w with
  | .none => s
  | .peer node => sendBatches node (l.length + 1) l s
  | .region f a n => sendRegion f a n l s

/-- A retry reached the witness: the queued records go in wseq order; WITNESS_RESTORED (11 R254). -/
def restoreWitness (s : State) : State :=
  if s.led.lost ∧ hasWitness s then
    raise 0x0402 .ctrl 0 (resendTo s.led.witness s.led.unacked { s with led := { s.led with lost := false } })
  else s

/-- PROGRESS record of the stripe in the sequencer, with the latest high-water (11 R260). -/
def progressRec (s : State) : State :=
  match s.seq.item with
  | some (f, q) =>
    match findItem s f q with
    | some i =>
      if i.st = .running then
        let i1 := { i with h := s.seq.h }
        writeRec (itemRec 3 i1) (putItem i1 s)
      else s
    | none => s
  | none => s

/-- Store the witness and its epoch in the configuration store, beside everything the store holds (11 R252). -/
def storeWitness (w : WitnessKind) (epoch : BitVec 32) (s : State) : State :=
  { s with nor := { s.nor with store := { s.nor.store with valid := true, witness := w, epoch := epoch } } }

end Sys2Proof.Machine
end

