-- ==== Sys2Proof/Machine/Dose.lean ====
section
/-! DEFINITION. The beam calibration table and the dose arithmetic of a flash (02 R28-R38), as the sequencer and the
link use them. -/

namespace Sys2Proof.Machine

/-! ### Entries of the beam calibration table (02 R38) -/

/-- Number of beams. -/
def beams : Nat := 262144

/-- Entry of beam `b` of a table image (02 R38). -/
def btEntry (t : List Byte) (b : Nat) : Nat := leAt t (4 * b) 4

/-- DEFECT class (02 R30, R38). -/
def btDefect (e : Nat) : Nat := e % 4
/-- TTRIM, raw six bits. -/
def btTtrim (e : Nat) : Nat := e / 2 ^ 4 % 64
/-- GAIN. -/
def btGain (e : Nat) : Nat := e / 2 ^ 10 % 1024
/-- COND. -/
def btCond (e : Nat) : Nat := e / 2 ^ 20 % 2
/-- LTRIM, signed. -/
def btLtrim (e : Nat) : Int := signedNat 4 (e / 2 ^ 21)

/-- A live slot: class 0 or 1 (02 R30, R31). -/
def btLive (e : Nat) : Bool := btDefect e < 2

/-- d_r, the row line trim (07 R154). -/
def rowTrim (t : List Byte) (r : Nat) : Int := btLtrim (btEntry t (512 * r))

/-- The active beam table image; with none loaded every entry is 0 (02 R38). -/
def btab (s : State) : List Byte := (s.cfg.btab.map (·.bytes)).getD []

/-! ### The split (02 R28-R31) -/

/-- bitrev5: the five bits in reverse order (02 R29). -/
def bitrev5 (n : Nat) : Nat :=
  n % 2 * 16 + n / 2 % 2 * 8 + n / 4 % 2 * 4 + n / 8 % 2 * 2 + n / 16 % 2

/-- σ_k(j) (02 R29). -/
def sigma (k j : Nat) : Nat := bitrev5 (j ^^^ k)

/-- A slot of a column class: its number, live flag and gain (02 R24). -/
structure CSlot where
  j : Nat
  live : Bool
  gain : Nat
  deriving DecidableEq, Repr

/-- The 32 slots of column class (c, k) (02 R24). -/
def classSlots (t : List Byte) (c k : Nat) : List CSlot :=
  (List.range 32).map (fun j =>
    let e := btEntry t (512 * (k + 16 * j) + c)
    { j := j, live := btLive e, gain := btGain e })

/-- The rank ρ(j): live slots whose σ is smaller (02 R31). -/
def rank (l : List CSlot) (k j : Nat) : Nat :=
  (l.filter (fun x => x.live && decide (sigma k x.j < sigma k j))).length

/-- The split level of slot j for dose D (02 R31). -/
def splitLevel (l : List CSlot) (k d : Nat) (x : CSlot) : Nat :=
  let n := (l.filter (·.live)).length
  if x.live then (d + rank l k x.j) / n else 0

/-! ### Gain by error diffusion (02 R33-R36) -/

/-- Nearest, ties toward zero (02 R34). -/
def roundTz (a : Int) (b : Nat) : Int :=
  if 0 ≤ a then (2 * a + b - 1) / (2 * b : Nat) else -((-2 * a + b - 1) / (2 * b : Nat))

/-- Insert a slot by gain ascending, ties by slot ascending (02 R34). -/
def insertSlot (x : CSlot) : List CSlot → List CSlot
  | [] => [x]
  | y :: t => if x.gain < y.gain ∨ (x.gain = y.gain ∧ x.j < y.j) then x :: y :: t else y :: insertSlot x t

/-- The live slots in the order of R34. -/
def gainOrder (l : List CSlot) : List CSlot := (l.filter (·.live)).foldr insertSlot []

/-- The diffusion of R34 over the ordered slots: (slot, delivered level). -/
def diffuse (l : List CSlot) (k d : Nat) : Int → List CSlot → List (Nat × Int)
  | _, [] => []
  | e, x :: t =>
    let want := 512 * (splitLevel l k d x : Int) + e
    let lp := roundTz want x.gain
    (x.j, lp) :: diffuse l k d (want - lp * x.gain) t

/-- The delivered level of slot j for dose D in a class (02 R34); disabled slots get 0. -/
def delivered (l : List CSlot) (k d j : Nat) : Nat :=
  (((diffuse l k d 0 (gainOrder l)).find? (fun p => p.1 == j)).map (fun p => p.2.toNat)).getD 0

/-- The 512 levels of row r for decoded dose values v (07 R156). -/
def rowLevels (t : List Byte) (r : Nat) (v : List Nat) : List Nat :=
  let k := r % 16
  let j := r / 16
  (List.range 512).map (fun c => delivered (classSlots t c k) k (v.getD c 0) j)

/-! ### Bounds and counts (02 R32, R47) -/

/-- Disabled beams of a column class (02 R32). -/
def disabledIn (t : List Byte) (c k : Nat) : Nat := ((classSlots t c k).filter (fun x => !x.live)).length

/-- n_max: the largest number of disabled beams in any column class (02 R32). -/
def nMax (t : List Byte) : Nat :=
  (List.range 8192).foldl (fun a x => max a (disabledIn t (x / 16) (x % 16))) 0

/-- D_cap = 15 × (32 − n_max) (02 R32). -/
def dCap (t : List Byte) : Nat := 15 * (32 - nMax t)

/-- Indices of the class 3 beams, ascending (08 R184). -/
def stuckBeams (t : List Byte) : List Nat := (List.range beams).filter (fun b => btDefect (btEntry t b) == 3)

/-- `blocked_crc` and `blocked_count` as the device computes them (08 R184). -/
def stuckCrc (t : List Byte) : BitVec 32 := crc32c ((stuckBeams t).flatMap (leBytes 4))

/-- The number of class 3 beams. -/
def stuckCount (t : List Byte) : Nat := (stuckBeams t).length

/-- The 16-bit beam entry sent to the BSA (08 R180 BEAM_CONFIG). -/
def beamEntry16 (e : Nat) : Nat := packFields [(0, 6, btTtrim e), (6, 1, btCond e), (8, 2, btDefect e)]

/-- The beam entries of beams from `a` on, `n` of them, as bytes (08 R180). -/
def beamBytes (t : List Byte) (a n : Nat) : List Byte :=
  (List.range n).flatMap (fun i => leBytes 2 (beamEntry16 (btEntry t (a + i))))

/-- CRC-32C of the 524,288 bytes of beam entries (08 R180 CONFIG_COMMIT). -/
def beamCrc (t : List Byte) : BitVec 32 := crc32c (beamBytes t 0 beams)

/-! ### Verification (02 R39) -/

/-- The first index of a list that a test picks. -/
def firstBad (p : Nat → Bool) : List Nat → Option Nat
  | [] => none
  | i :: t => if p i then some i else firstBad p t

/-- Reserved bits of an entry are zero (02 R38). -/
def btReservedOk (e : Nat) : Bool := e / 4 % 4 == 0 && e / 2 ^ 25 == 0

/-- The first failure of checks 1-4 of R39: reason and beam index. -/
def btCheck (t : List Byte) (crc : BitVec 32) : Option (Nat × Nat) :=
  if crc32c t ≠ crc then some (1, 0x3FFFF)
  else
    match firstBad (fun b => !btReservedOk (btEntry t b)) (List.range beams) with
    | some b => some (2, b)
    | none =>
      match firstBad (fun b => b % 512 != 0 && btLtrim (btEntry t b) != 0) (List.range beams) with
      | some b => some (3, b)
      | none =>
        match firstBad (fun b => btLive (btEntry t b) && decide (btGain (btEntry t b) < 512)) (List.range beams) with
        | some b => some (4, b)
        | none => none

/-! ### Times derived from t_q (07 R160, 02 R26) -/

/-- T_s in 0.25 ns: (15 + 63/64)·t_q rounded up (07 R160). -/
def tS (tq : Nat) : Nat := (1023 * tq + 63) / 64

/-- t_min in 0.25 ns: max(476 ns, T_s + 40 ns) (07 R160). -/
def tMin (tq : Nat) : Nat := max 1904 (tS tq + 160)

/-- The condition of R26: T_s + 40 ns ≤ 1/f_max, in 0.25 ns and Hz. -/
def tqOk (tq fMax : Nat) : Bool := decide ((tS tq + 160) * fMax ≤ 4000000000)

/-! ### The span of a stripe (07 R154) -/

/-- n_first = d_0 (07 R154). -/
def nFirstOf (t : List Byte) : Int := rowTrim t 0

/-- n_last = lines_m1 + 8,176 + d_511 (07 R154). -/
def nLastOf (t : List Byte) (linesM1 : Nat) : Int := (linesM1 : Int) + 8176 + rowTrim t 511

end Sys2Proof.Machine
end

