-- ==== Sys2Proof/Machine/ScanOps.lean ====
section
/-! DEFINITION. Operations of the profile generator that other parts call: coordinates, ramped stops, becoming and
ceasing to be the scan holder (10 R220-R232). -/

namespace Sys2Proof.Machine

/-! ### The scan channel (09 R202, 10 R220) -/

/-- `mode` of `pos_cfg`: 0 off, 1 quadrature, 2 serial (09 R202). -/
def posMode (w : W128) : Nat := bitsNat w 0 2
/-- `role`: 0 scan, 1 cross, 2 scan auxiliary, 3 cross auxiliary (09 R202). -/
def posRole (w : W128) : Nat := bitsNat w 2 2
/-- `invert` of a channel. -/
def posInvert (w : W128) : Bool := bitAt w 4
/-- `qfilt` of a channel. -/
def posQfilt (w : W128) : Nat := bitsNat w 5 3
/-- `lat` of a channel in ns. -/
def posLat (w : W128) : Nat := bitsNat w 8 16
/-- `scale` of a channel, u0.40. -/
def posScale (w : W128) : Nat := bitsNat w 32 40

/-- Number rounded to nearest with ties toward zero: n / d for d > 0 (00 R8). -/
def divTz (n : Int) (d : Nat) : Int :=
  if 0 ≤ n then (2 * n + d - 1) / (2 * d : Nat) else -((-2 * n + d - 1) / (2 * d : Nat))

/-- The enabled channel with the scan role, the lowest such number (09 R202). -/
def scanChannel (s : State) : Option (Fin 4) :=
  ([0, 1, 2, 3] : List (Fin 4)).find? (fun c =>
    posMode s.cfg.act.posCfg[c] != 0 && posRole s.cfg.act.posCfg[c] == 0)

/-- Raw scale of the scan channel. -/
def scanScale (s : State) : Nat := ((scanChannel s).map (fun c => posScale s.cfg.act.posCfg[c])).getD 0

/-- Position of the scan channel in counts, `invert` applied. -/
def scanCount (s : State) : Int :=
  match scanChannel s with
  | some c => (s.trk.ch[c]).pos
  | none => 0

/-- The count of a coordinate: p_home + round(s · 2^36 / scale) (10 R220). -/
def countOf (s : State) (x : Int) : Int := s.scan.pHome + divTz (x * (2 ^ 36 : Nat)) (scanScale s)

/-- The coordinate of the measured scan position: the coordinate whose count it is, to the nearest sixteenth
(10 R220, R227; DEDUCED, unsafe, log 16). -/
def measuredCoord (s : State) : Int :=
  divTz ((scanCount s - s.scan.pHome) * (scanScale s : Int)) (2 ^ 36)

/-- The device is the scan holder: in EXPOSE, and in READY while SCAN_HOME or a move runs (10 R227). -/
def scanHolder (s : State) : Bool :=
  running s && (s.pm.mode == .expose || (s.pm.mode == .ready && s.scan.st != .released))

/-! ### The profile image (10 R221) -/

/-- The active profile image as bytes. -/
def profileBytes (s : State) : List Byte := (s.scan.profile.map (fun w => leBytes 64 w.toNat)).getD []
/-- `shape`. -/
def profShape (p : List Byte) : Nat := blk p 0 32 1
/-- `adaptive`. -/
def profAdaptive (p : List Byte) : Nat := blk p 0 33 1
/-- `v_max`. -/
def profV (p : List Byte) : Nat := blk p 0 64 32
/-- `a_max`. -/
def profA (p : List Byte) : Nat := blk p 0 96 32
/-- `j_max`. -/
def profJ (p : List Byte) : Nat := blk p 1 0 32
/-- `settle`. -/
def profSettle (p : List Byte) : Nat := blk p 1 32 16
/-- `s_min`. -/
def profMin (p : List Byte) : Int := blkInt p 2 0 48
/-- `s_max`. -/
def profMax (p : List Byte) : Int := blkInt p 2 48 48

/-! ### Ramped stops (10 R231, R232) -/

/-- The generator is in a state from which a stop cause leads to STOPPING (10 R231). -/
def GenSt.moves : GenSt → Bool
  | .moving | .atApproach | .stripe | .homing => true
  | _ => false

/-- Begin a ramped stop: origin 1 sequencer, 2 tracking trip, 3 interlock, 4 SCAN_STOP; the stop cause for origin 1
and the input for origin 3 (10 R232). In the other states nothing changes. -/
def rampStop (origin cause input : Nat) (s : State) : State :=
  if s.scan.st.moves then
    let p := profileBytes s
    let mv : Move := { params := [1, s.scan.pos, s.scan.vel, s.scan.acc, profA p, profJ p], target := 0 }
    raise 0x0921 .trk (word [(0, 8, origin), (8, 8, cause), (16, 8, input)])
      (stat (sk 0x09020001 (0x10 + origin * 32 + cause))
        { s with scan := { s.scan with st := .stopping, stop := true, move := some mv, k := 0 } })
  else s

/-- The device becomes the scan holder: its first setpoint is the measured scan position; above 1 mm/s the generator
stops from the measured velocity. The manual gives no pitch by which counts become millimetres, so whether a moving
stage exceeds 1 mm/s is a free value (10 R227, R231; DESIGN CHOICE, safe, log 17). -/
def becomeHolder (s : State) : State :=
  if s.scan.st = .released then
    let x := measuredCoord s
    let s1 := { s with scan := { s.scan with st := .idle, pos := x, vel := 0, acc := 0, hist := [(x, 0)], move := none, k := 0, stop := false } }
    if s.trk.om = 0 then s1
    else
      let (v, s2) := takeFree s1
      if bitAt v 0 then
        let p := profileBytes s
        { s2 with scan := { s2.scan with
            st := .stopping
            stop := true
            vel := divTz (s.trk.dir * s.trk.om * 100) 256
            move := some { params := [1, x, s.trk.om, 0, profA p, profJ p], target := 0 } } }
      else s2
  else s

/-- SPO is released at once (10 R227, R231; 19 R432). -/
def releaseSpo (s : State) : State :=
  { s with scan := { s.scan with st := .released, move := none, k := 0, target := none, homing := none, stop := false, vel := 0, acc := 0, hist := [] } }

/-- An index search ends without success: reason 2 interlock, 3 SCAN_STOP, 4 tracking trip; p_home is kept only for
SCAN_STOP. The generator ramps to rest; the command completes once it is at rest (10 R239). -/
def abortHoming (reason input : Nat) (s : State) : State :=
  match s.scan.homing with
  | none => s
  | some h =>
    if h.phase = 3 then s
    else
      let (ft, lt) := match s.ilk[input]? with
        | some i => if reason = 2 then (i.ft.toNat, i.lt.toNat) else (0, 0)
        | none => (0, 0)
      let keep := reason == 3
      raise 0x0925 .trk (detail [du 8 reason, du 8 (if reason = 2 then input else 0xFF), du 32 ft, du 32 lt])
        (stat (sk 0x09020001 (0x200 + reason))
          { s with scan := { s.scan with
              homing := some { h with phase := 3, abort := reason }
              pHome := if keep then s.scan.pHome else 0
              homed := if keep then s.scan.homed else false } })

/-- Homing is lost (10 R226). -/
def loseHome (s : State) : State := { s with scan := { s.scan with homed := false } }

/-- A latched input forbids a move from `a` to `b`: role 0 or 1 every move, role 2 a move along which s increases,
role 3 one along which s decreases (10 R236). -/
def moveForbidden (s : State) (a b : Int) : Bool :=
  s.ilk.toList.any (fun i =>
    i.latched &&
      match bitsNat i.cfg 3 3 with
      | 2 => decide (a < b)
      | 3 => decide (b < a)
      | _ => true)

end Sys2Proof.Machine
end

