-- ==== Sys2Proof/Machine/CtrlOps.lean ====
section
/-! DEFINITION. Control frames to the BSA (08 R179, R180) and the driven levels of GBLANK and GSTROBE. -/

namespace Sys2Proof.Machine

/-! ### Control frames -/

/-- First word of a control frame without `ccheck` (08 R179). -/
def ctrlHead (op arg words cseq : Nat) : W128 :=
  word [(0, 8, op), (8, 8, arg), (16, 9, words), (60, 4, 0xC), (64, 32, cseq)]

/-- The native words of a control frame, `ccheck` over bytes 0-11 and the words after (08 R179). -/
def ctrlWords (op arg cseq : Nat) (body : List W128) : List W128 :=
  let h := ctrlHead op arg (1 + body.length) cseq
  let c := crc32c ((wordBytes h).take 12 ++ wordsBytes body)
  (h + BitVec.ofNat 128 (c.toNat * 2 ^ 96)) :: body

/-- Logical lane of an operation: chunk i of BEAM_CONFIG on lane i mod 76, every other on lane 0 (08 R180). -/
def ctrlLane (op arg : Nat) : Nat := if op = 2 then arg % 76 else 0

/-- Send a new control frame: the next cseq, kept until its CTRL_ACK (08 R179). -/
def sendCtrl (op arg : Nat) (body : List W128) (s : State) : State :=
  let ws := ctrlWords op arg s.link.cseq.toNat body
  emit (.control (ctrlLane op arg) ws) (stat (sk 0x03070001 0x100)
    { s with link := { s.link with
        cseq := s.link.cseq + 1
        out := s.link.out ++ [{ op := op, arg := arg, cseq := s.link.cseq, words := ws, sends := 1 }] } })

/-- Words of a byte string (00 R2). -/
def bytesWords (l : List Byte) (n : Nat) : List W128 := (List.range n).map (fun k => wordAt l k)

/-- LANE_MAP (08 R180). -/
def sendLaneMap (s : State) : State := sendCtrl 1 0 (bytesWords s.link.map.toList 5) s

/-- BEAM_CONFIG chunk i (08 R180). -/
def sendChunk (i : Nat) (s : State) : State := sendCtrl 2 i (bytesWords (beamBytes (btab s) (2048 * i) 2048) 256) s

/-- The 128 chunks of BEAM_CONFIG (08 R186). -/
def sendChunks : List Nat → State → State
  | [], s => s
  | i :: t, s => sendChunks t (sendChunk i s)

/-- CONFIG_COMMIT (08 R180): the CRC of the beam entries and the conditioning and timing parameters. -/
def sendCommit (s : State) : State :=
  let a := s.cfg.act
  let c := beamCrc (btab s)
  sendCtrl 3 0 [word [(0, 32, c.toNat), (32, 1, a.condEnable), (33, 12, a.condIdle), (45, 6, a.condWidth),
    (51, 12, a.tq), (64, 16, tS a.tq)]] { s with link := { s.link with committed := some c } }

/-- Send the beam configuration: chunks now, CONFIG_COMMIT once all are acknowledged (08 R186). -/
def sendBeamConfig (s : State) : State :=
  sendChunks (List.range 128)
    { s with link := { s.link with st := .configuring, chunks := 0, commitAcked := false, committed := none } }

/-- A beam table or a boundary item has become active: a TRAINED link goes to CONFIGURING, and a link that waits
there starts; in the other states the next training sends it (08 R186, 13 R302). -/
def reconfigure (s : State) : State :=
  if s.link.st = .trained ∨ (s.link.st = .configuring ∧ s.link.out.isEmpty) then
    if s.cfg.btab.isSome then sendBeamConfig s else s
  else s

/-- STRIPE_OPEN (08 R180). -/
def sendStripeOpen (f : BitVec 8) (q : BitVec 64) (s : State) : State :=
  let new := !s.seq.opened && decide (s.seq.n0 = s.seq.nFirst)
  sendCtrl 4 0 [word [(0, 64, q.toNat), (64, 8, f.toNat), (72, 16, s.seq.stripe), (88, 32, raw 32 s.seq.n0)],
    word [(0, 32, raw 32 s.seq.nLast), (32, 1, b2n new)]] s

/-- STRIPE_CLOSE (08 R180). -/
def sendStripeClose (s : State) : State := sendCtrl 5 0 [word [(0, 16, s.seq.stripe)]] s

/-- PORT_CLAIM (08 R180, R193). -/
def sendClaim (force : Bool) (s : State) : State :=
  sendCtrl 6 (b2n force) [] { s with link := { s.link with claim := some force } }

/-- PORT_RELEASE (08 R180, R193). -/
def sendRelease (s : State) : State := sendCtrl 7 0 [] s

/-! ### Driven levels -/

/-- GBLANK driven high (01 R20). -/
def blankHigh (s : State) : State := { s with seq := { s.seq with gblank := true } }

/-- GSTROBE driven low. -/
def strobeLow (s : State) : State := { s with seq := { s.seq with gstrobe := false } }

end Sys2Proof.Machine
end

