-- ==== Sys2Proof/Machine/SlotOps.lean ====
section
/-! DEFINITION. Slots, slot rows and the pool of the delay store (06 R127-R133, R145), and the end of a render fill. -/

namespace Sys2Proof.Machine

/-- Slot rows of the ring (06 R127). -/
def slotRows : Nat := 8704

/-- The slot of line L and sub-raster k (06 R128). -/
def slotOf (line k : Nat) : Nat := 16 * (line % slotRows) + k

/-- Slot n, none when FREE (06 R132). -/
def slot (s : State) (n : Nat) : Option Slot := tget s.store.slots n

/-- The store with a slot set. -/
def setSlot (n : Nat) (x : Slot) (s : State) : State :=
  { s with store := { s.store with slots := tput s.store.slots n x } }

/-- All 16 slots of a line's row are FREE (06 R129). -/
def rowFree (s : State) (line : Nat) : Bool := (List.range 16).all (fun k => (slot s (slotOf line k)).isNone)

/-- Every segment of a line is VALID (06 R133). -/
def lineValid (s : State) (line : Nat) : Bool :=
  (List.range 16).all (fun k => match slot s (slotOf line k) with | some x => x.st == 2 | none => false)

/-- The line lacks a segment: some slot of its row is FREE (05 R123). -/
def lineLacks (s : State) (line : Nat) : Bool := (List.range 16).any (fun k => (slot s (slotOf line k)).isNone)

/-! ### The pool (06 R145) -/

/-- Free pool blocks. -/
def freeBlocks (s : State) : Nat := 65536 - s.store.fresh + s.store.returned.length

/-- The first `n` blocks of the free list and the list without them: blocks never taken first, in order, then the
returned ones (06 R145). -/
def takeBlocks : Nat → State → List Nat × State
  | 0, s => ([], s)
  | n + 1, s =>
    if s.store.fresh < 65536 then
      let r := takeBlocks n { s with store := { s.store with fresh := s.store.fresh + 1 } }
      (s.store.fresh :: r.1, r.2)
    else
      match s.store.returned with
      | [] => ([], s)
      | b :: t =>
        let r := takeBlocks n { s with store := { s.store with returned := t } }
        (b :: r.1, r.2)

/-- Coded byte 64·m + t at byte t of block m (06 R131). -/
def putBlocks : List Nat → List Byte → State → State
  | [], _, s => s
  | b :: t, l, s =>
    putBlocks t (l.drop 64) { s with store := { s.store with pool := tput s.store.pool b (slice l 0 64) } }

/-! ### Release (06 R130) -/

/-- A slot returns to FREE; its blocks go to the tail of the free list (06 R130, R145). -/
def releaseSlot (n : Nat) (s : State) : State :=
  match slot s n with
  | none => s
  | some x =>
    { s with store := { s.store with
        slots := tdel s.store.slots n
        returned := s.store.returned ++ x.blocks
        pool := x.blocks.foldl tdel s.store.pool
        spillReady := s.store.spillReady.filter (· != n) } }

/-- Release slots in order. -/
def releaseSlots : List Nat → State → State
  | [], s => s
  | n :: t, s => releaseSlots t (releaseSlot n s)

/-- The slot row of line L is released (06 R130). -/
def releaseRow (line : Nat) (s : State) : State := releaseSlots ((List.range 16).map (slotOf line)) s

/-- Every slot row is released at once (06 R130). -/
def releaseAll (s : State) : State := releaseSlots (s.store.slots.map (·.1)) s

/-- An X line whose fill has ended: its result will be discarded (06 R130). -/
def RLine.orphan (r : RLine) : RLine := if r.cls = 0 then { r with cls := 4 } else r

/-- A stripe ends or stops: slot rows are released, its lines no longer wait, and no offload holds a line (06 R130). -/
def endFill (s : State) : State :=
  let s1 := releaseAll s
  { s1 with
    rnd := { s1.rnd with
      cores := s1.rnd.cores.map (fun o => o.map RLine.orphan)
      waiting := s1.rnd.waiting.filter (fun r => r.cls != 0)
      offloads := s1.rnd.offloads.map (fun q => { q with expired := true })
      ready := false
      badLine := none }
    store := { s1.store with spillRaised := false, ctab := none } }

end Sys2Proof.Machine
end

