-- ==== Sys2Proof/Machine/SeqOps.lean ====
section
/-! DEFINITION. Stopping the sequencer (07 R165-R172): what every cause of a stop does, shared by all that raise one. -/

namespace Sys2Proof.Machine

/-- A stripe is between FILLING and ENDING (07 R165). -/
def SeqSt.active : SeqSt → Bool
  | .filling | .armed | .running | .ending => true
  | _ => false

/-- A stripe is ARMED, RUNNING or ENDING. -/
def SeqSt.live : SeqSt → Bool
  | .armed | .running | .ending => true
  | _ => false

/-- Sequencer state codes (13 R298). -/
def SeqSt.code : SeqSt → Nat
  | .idle => 0
  | .filling => 1
  | .armed => 2
  | .running => 3
  | .ending => 4
  | .stopping => 5
  | .stopped => 6

/-- m of a stop: n0 − 1 before the first fire event; at a boundary stop the last flash accepted, n_last in ENDING; at
an immediate stop the last flash whose strobe rose (07 R165-R167). -/
def stopM (imm : Bool) (q : Seq) : Int :=
  match q.st with
  | .filling | .armed => q.n0 - 1
  | .ending => if imm then q.strobed else q.nLast
  | _ => if imm then q.strobed else q.f

/-- Count a stop cause (07 R169). -/
def countCause (c : Nat) (s : State) : State := stat (sk 0x03060001 (0x20 + c)) s

/-- A further cause while the stripe is STOPPING or STOPPED: counted, and its resume condition is awaited too
(07 R169, R172). -/
def addCause (c : Nat) (s : State) : State :=
  if s.seq.causes.contains c then s
  else countCause c { s with seq := { s.seq with causes := s.seq.causes ++ [c] } }

/-- An immediate stop blanks through AON, stops the strobe and lets no fired flash strobe any more; a flash whose
strobe is high is cut and FLASH_TRUNCATED raised, with the time cut short a free value (07 R167; DESIGN CHOICE, safe, log 18). -/
def cutNow (s : State) : State :=
  let s1 :=
    if s.seq.gstrobe ∧ s.seq.gblank = false then
      let (v, s0) := takeFree s
      raise 0x0366 .seq (detail [du 16 s.seq.stripe, ds 32 s.seq.strobed, du 32 (v.toNat % 2 ^ 32)])
        (stat (sk 0x03060001 0x40) s0)
    else s
  { s1 with seq := { s1.seq with gblank := true, gstrobe := false, fired := [], framed := none } }

/-- GBLANK after a boundary stop: it rises once the strobe of m has fallen; at once where no fired flash is left to
strobe (07 R166). -/
def blankAtBoundary (q : Seq) : Bool := q.gblank || (q.fired.isEmpty && !q.gstrobe)

/-- Stop the stripe with a cause: boundary or immediate. `m` is the last flash of the stop. The tracking engine
issues no further fire event, and the slot rows are released (06 R130, 07 R165-R169). -/
def stopAt (c : Nat) (imm : Bool) (m : Int) (s : State) : State :=
  let s0 := endFill (if imm then cutNow s else s)
  countCause c
    { s0 with
      seq := { s0.seq with
        st := .stopping
        m := m
        causes := [c]
        met := []
        lastCause := c
        immediate := imm
        framed := none
        fired := if imm then [] else s0.seq.fired.filter (fun n => decide (n ≤ m))
        gblank := if imm then true else blankAtBoundary { s0.seq with fired := s0.seq.fired.filter (fun n => decide (n ≤ m)) } }
      trk := { s0.trk with fire := none } }

/-- A stop cause arises: it stops an active stripe, joins a stop in progress or a stripe STOPPED, and does nothing
with no stripe (07 R165-R169). The generator begins its ramped stop with origin `org` (10 R232). -/
def stopStripe (c : Nat) (imm : Bool) (org input : Nat) (s : State) : State :=
  if s.seq.st.active then
    rampStop org (if org = 1 then c else 0) input (stopAt c imm (stopM imm s.seq) s)
  else if s.seq.st = .stopping then addCause c (if imm then cutNow s else s)
  else if s.seq.st = .stopped then addCause c s
  else s

/-- A flash-boundary stop of the sequencer (07 R166). -/
def boundaryStop (c : Nat) (s : State) : State := stopStripe c false 1 0 s

/-- The two halves of a state-change of the sequencer that ends the stripe: back to IDLE with nothing of it left
(07 R165). -/
def Seq.toIdle (q : Seq) : Seq :=
  { q with
    st := .idle
    item := none
    causes := []
    met := []
    immediate := false
    violated := false
    secondFail := false
    late := false
    failed := []
    openFails := 0
    opened := false
    framed := none
    fired := []
    resumes := 0
    gblank := true }

/-- T_s of the active configuration, in 0.25 ns (07 R160). -/
def curTs (s : State) : Nat := tS s.cfg.act.tq

/-- t_min of the active configuration, in 0.25 ns (07 R160). -/
def curTmin (s : State) : Nat := tMin s.cfg.act.tq

/-! ### Resume conditions (07 R169) -/

/-- The class 3 beams of the active table are reported blocked (02 R37, 08 R184). -/
def stuckReported (s : State) : Bool :=
  s.link.sBlockedCrc == stuckCrc (btab s) && s.link.sBlockedCount.toNat == stuckCount (btab s)

/-- The cool-down condition (07 R171). -/
def cooled (s : State) : Bool := s.seq.cool && !s.seq.bsaLimit && !s.seq.bsaWarn

/-- The link is TRAINED and the device holds its port (07 R169 cause 9, 08 R189). -/
def linkReady (s : State) : Bool := s.link.st == .trained && s.link.held

/-- The resume condition of one cause holds (07 R169). -/
def causeMet (s : State) (c : Nat) : Bool :=
  match c with
  | 1 => stuckReported s
  | 2 => cooled s
  | 3 => cooled s
  | 4 => !anyLatched s
  | 5 => !anyLatched s
  | 6 => s.trk.st == .acquiring || s.trk.st == .locked
  | 7 => !s.seq.wdLatch
  | 9 => linkReady s
  | 10 => s.pm.railsLow == 0
  | 11 => s.seq.met.contains 11
  | _ => true

/-- The resume condition of every cause present holds (07 R169). -/
def resumeReady (s : State) : Bool := s.seq.causes.all (causeMet s)

end Sys2Proof.Machine
end

