-- ==== Sys2Proof/Machine/Tables.lean ====
section
/-! DEFINITION. Configuration items as words (13 R302), and the activation of staged tables and items (02 R39,
03 R62, 05 R111, 06 R141). -/

namespace Sys2Proof.Machine

/-! ### Items as native words -/

/-- offload_peers of its word: [3:0] count; node i in [12i + 15 : 12i + 4] (13 R302). -/
def peersOf (v : W128) : List (BitVec 12) := (List.range (bitsNat v 0 4)).map (fun i => bitsOf v (12 * i + 4) 12)

/-- The word of offload_peers. -/
def peersWord (l : List (BitVec 12)) : Nat :=
  l.length + packFields ((List.range l.length).map (fun i => (12 * i + 4, 12, (l.getD i 0).toNat)))

/-- Replace element i of a vector where i is in range. -/
def vset {α : Type} {n : Nat} (v : Vector α n) (i : Nat) (x : α) : Vector α n :=
  if h : i < n then v.set i x else v

/-- An item of R302 set to the value in a word (13 R302). -/
def CfgItems.put (a : CfgItems) (item idx : Nat) (v : W128) : CfgItems :=
  match item with
  | 0x0001 => { a with tq := bitsNat v 0 12, fMax := bitsNat v 32 32 }
  | 0x0002 => { a with condEnable := bitsNat v 0 1 }
  | 0x0003 => { a with condIdle := bitsNat v 0 12 }
  | 0x0004 => { a with condWidth := bitsNat v 0 6 }
  | 0x0005 => { a with tMark := bitsNat v 0 7 }
  | 0x0011 => { a with renderOffload := bitsNat v 0 1 }
  | 0x0012 => { a with offloadPeers := peersOf v }
  | 0x0013 => { a with offloadLead := bitsNat v 0 9 }
  | 0x0014 => { a with offloadDeadline := bitsNat v 0 9 }
  | 0x0015 => { a with xReserve := bitsNat v 0 6 }
  | 0x0020 => { a with segCode := bitsNat v 0 1 }
  | 0x0021 => { a with ctabAddr := bitsNat v 0 64 }
  | 0x0030 => { a with laneDisable := bitsOf v 0 80 }
  | 0x0040 => { a with posCfg := vset a.posCfg idx v }
  | 0x0041 => { a with dacCfg := vset a.dacCfg idx (bitsOf v 0 32) }
  | 0x0042 => { a with dacHost := vset a.dacHost idx (bitsOf v 0 20) }
  | 0x0043 => { a with modelEnable := bitsNat v 0 1 }
  | 0x0044 => { a with modelDelay := bitsNat v 0 10 }
  | 0x0045 => { a with modelLimit := bitsNat v 0 16 }
  | 0x0046 => { a with feLimit := bitsNat v 0 16 }
  | 0x0047 => { a with feTime := bitsNat v 0 16 }
  | 0x0050 => { a with diagEnable := bitsNat v 0 1 }
  | 0x0060 => { a with nrrK := bitsNat v 0 4 }
  | 0x0061 => { a with retrainMs := bitsNat v 0 16 }
  | _ => a

/-- The word of an item's value (13 R302, R303). -/
def CfgItems.word (a : CfgItems) (item idx : Nat) : W128 :=
  match item with
  | 0x0001 => BitVec.ofNat 128 (packFields [(0, 12, a.tq), (32, 32, a.fMax)])
  | 0x0002 => BitVec.ofNat 128 a.condEnable
  | 0x0003 => BitVec.ofNat 128 a.condIdle
  | 0x0004 => BitVec.ofNat 128 a.condWidth
  | 0x0005 => BitVec.ofNat 128 a.tMark
  | 0x0011 => BitVec.ofNat 128 a.renderOffload
  | 0x0012 => BitVec.ofNat 128 (peersWord a.offloadPeers)
  | 0x0013 => BitVec.ofNat 128 a.offloadLead
  | 0x0014 => BitVec.ofNat 128 a.offloadDeadline
  | 0x0015 => BitVec.ofNat 128 a.xReserve
  | 0x0020 => BitVec.ofNat 128 a.segCode
  | 0x0021 => BitVec.ofNat 128 a.ctabAddr
  | 0x0030 => a.laneDisable.setWidth 128
  | 0x0040 => (a.posCfg[idx]?).getD 0
  | 0x0041 => ((a.dacCfg[idx]?).getD 0).setWidth 128
  | 0x0042 => ((a.dacHost[idx]?).getD 0).setWidth 128
  | 0x0043 => BitVec.ofNat 128 a.modelEnable
  | 0x0044 => BitVec.ofNat 128 a.modelDelay
  | 0x0045 => BitVec.ofNat 128 a.modelLimit
  | 0x0046 => BitVec.ofNat 128 a.feLimit
  | 0x0047 => BitVec.ofNat 128 a.feTime
  | 0x0050 => BitVec.ofNat 128 a.diagEnable
  | 0x0060 => BitVec.ofNat 128 a.nrrK
  | 0x0061 => BitVec.ofNat 128 a.retrainMs
  | _ => 0

/-- The item with its new active value (13 R302). -/
def setItem (item idx : Nat) (v : W128) (s : State) : State :=
  { s with cfg := { s.cfg with act := s.cfg.act.put item idx v } }

/-- The staged value of an item (13 R301). -/
def stagedValue (s : State) (item idx : Nat) : Option W128 :=
  (s.cfg.staged.find? (fun p => p.1 == item && p.2.1 == idx)).map (fun p => p.2.2)

/-- Stage a value, in place of one staged before (13 R301). -/
def stageItem (item idx : Nat) (v : W128) (s : State) : State :=
  { s with cfg := { s.cfg with
      staged := s.cfg.staged.filter (fun p => !(p.1 == item && p.2.1 == idx)) ++ [(item, idx, v)] } }

/-- Items that take effect at a boundary (13 R302). -/
def boundaryItem (item : Nat) : Bool := 1 ≤ item && item ≤ 5

/-- Items of the code configuration, which take effect under R111 (06 R141). -/
def codeItem (item : Nat) : Bool := item == 0x20 || item == 0x21

/-- Make the staged items that `p` picks active, in order. -/
def applyStaged (p : Nat → Bool) : List (Nat × Nat × W128) → State → State
  | [], s => s
  | (i, x, v) :: t, s => applyStaged p t (if p i then setItem i x v s else s)

/-- Activate the staged items that `p` picks. -/
def activateItems (p : Nat → Bool) (s : State) : State :=
  let s1 := applyStaged p s.cfg.staged s
  { s1 with cfg := { s1.cfg with staged := s1.cfg.staged.filter (fun x => !p x.1) } }

/-! ### Conditions of activation -/

/-- A work item of one of the kinds runs; one that waits for its parameter block after a rebuild does not hold a
table back (03 R62, 05 R111, 11 R258). -/
def runs (s : State) (kinds : List Nat) : Bool :=
  s.led.items.any (fun i => i.st == .running && kinds.contains i.kind.toNat && i.params.isSome)

/-- A stripe boundary, or no stripe at all: the sequencer is IDLE and no stripe of the device waits to resume
(02 R39). -/
def atBoundary (s : State) : Bool := s.seq.st == .idle && !runs s [4]

/-- The staged beam table becomes active (02 R39). -/
def activateBtab (s : State) : State :=
  match s.cfg.btabStaged with
  | none => s
  | some t =>
    raise 0x0222 .seq 0 { s with cfg := { s.cfg with btab := some t, btabStaged := none, btabActs := s.cfg.btabActs + 1 } }

/-- Boundary activations: beam table and boundary items; the link sends its configuration again (02 R39, 08 R186,
13 R302). -/
def activateBoundary (s : State) : State :=
  if atBoundary s ∧ (s.cfg.btabStaged.isSome ∨ s.cfg.staged.any (fun p => boundaryItem p.1)) then
    reconfigure (activateBtab (activateItems boundaryItem s))
  else s

/-- The staged layer map becomes active once no INGEST, CENSUS, RENDER_BIN or EXPOSE_STRIPE runs (03 R62). -/
def activateLmap (s : State) : State :=
  match s.cfg.lmapStaged with
  | none => s
  | some t =>
    if runs s [1, 2, 3, 4] ∨ s.seq.st ≠ .idle then s
    else raise 0x0232 .ing 0 { s with cfg := { s.cfg with lmap := some t, lmapStaged := none, lmapActs := s.cfg.lmapActs + 1 } }

/-- The staged render image and code configuration become active once no CENSUS, RENDER_BIN or EXPOSE_STRIPE runs and
no stripe waits to resume (05 R111, 06 R141). -/
def activateRender (s : State) : State :=
  if runs s [2, 3, 4] ∨ s.seq.st ≠ .idle then s
  else
    let s1 :=
      match s.cfg.rpStaged with
      | none => s
      | some t => raise 0x0242 .rnd0 0 { s with cfg := { s.cfg with rp := some t, rpStaged := none, rpActs := s.cfg.rpActs + 1 } }
    if s1.cfg.staged.any (fun p => codeItem p.1) then
      let s2 := activateItems codeItem s1
      raise 0x0251 .store 0 { s2 with cfg := { s2.cfg with codeActs := s2.cfg.codeActs + 1 } }
    else s1

/-- Everything staged whose condition holds becomes active. -/
def activateTables (s : State) : State := activateRender (activateLmap (activateBoundary s))

/-! ### CRCs of the active tables -/

/-- The active beam table's CRC-32C, 0 with none (13 R296). -/
def btabCrc (s : State) : BitVec 32 := (s.cfg.btab.map (·.crc)).getD 0
/-- The active layer map's CRC-32C. -/
def lmapCrc (s : State) : BitVec 32 := (s.cfg.lmap.map (·.crc)).getD 0
/-- The active render image's `rp_crc`. -/
def rpCrc (s : State) : BitVec 32 := (s.cfg.rp.map (·.crc)).getD 0

/-- The three CRCs of a pair in a 96-bit field (15 R358). -/
def pairCrcs (s : State) : Nat :=
  packFields [(0, 32, (btabCrc s).toNat), (32, 32, (rpCrc s).toNat), (64, 32, (lmapCrc s).toNat)]

/-! ### The layer map (03 R60, R61) -/

/-- The active layer map image. -/
def lmap (s : State) : List Byte := (s.cfg.lmap.map (·.bytes)).getD []
/-- Entry word e of a layer map. -/
def lmEntry (l : List Byte) (e : Nat) : Nat := leAt l (16 * e) 16
/-- `layer` of an entry. -/
def lmLayer (e : Nat) : Nat := e % 2 ^ 32
/-- `datatype` of an entry. -/
def lmDatatype (e : Nat) : Nat := e / 2 ^ 32 % 2 ^ 32
/-- `class` of an entry. -/
def lmClass (e : Nat) : Nat := e / 2 ^ 64 % 16
/-- `valid` of an entry. -/
def lmValid (e : Nat) : Bool := e.testBit 68
/-- `any_dt` of an entry. -/
def lmAny (e : Nat) : Bool := e.testBit 69
/-- `drop` of an entry. -/
def lmDrop (e : Nat) : Bool := e.testBit 70
/-- Class entry c. -/
def lmClassEntry (l : List Byte) (c : Nat) : Nat := leAt l (4096 + 4 * c) 4
/-- Class gain, u9.3 (03 R60). -/
def classGain (l : List Byte) (c : Nat) : Nat := lmClassEntry l c % 4096
/-- Density weight, u1.7 (03 R60). -/
def classWeight (l : List Byte) (c : Nat) : Nat := lmClassEntry l c / 2 ^ 16 % 256

/-- The entry geometry on (layer, datatype) takes: an exact one first, then one for any datatype (03 R61). -/
def lmMatch (l : List Byte) (layer dt : Nat) : Option Nat :=
  let es := (List.range 256).map (lmEntry l)
  match es.find? (fun e => lmValid e && !lmAny e && lmLayer e == layer && lmDatatype e == dt) with
  | some e => some e
  | none => es.find? (fun e => lmValid e && lmAny e && lmLayer e == layer)

/-- Entry i repeats the pair of an earlier exact entry (03 R61). -/
def lmDupExact (l : List Byte) (i : Nat) : Bool :=
  let e := lmEntry l i
  lmValid e && !lmAny e && (List.range i).any (fun j =>
    let d := lmEntry l j
    lmValid d && !lmAny d && lmLayer d == lmLayer e && lmDatatype d == lmDatatype e)

/-- Entry i repeats the layer of an earlier any_dt entry (03 R61). -/
def lmDupAny (l : List Byte) (i : Nat) : Bool :=
  let e := lmEntry l i
  lmValid e && lmAny e && (List.range i).any (fun j =>
    let d := lmEntry l j
    lmValid d && lmAny d && lmLayer d == lmLayer e)

/-- Reserved bits of entry i, 0-255 map entries and 256-271 class entries (03 R60). -/
def lmReservedBad (l : List Byte) (i : Nat) : Bool :=
  if i < 256 then decide (lmEntry l i / 2 ^ 71 ≠ 0)
  else
    let c := lmClassEntry l (i - 256)
    decide (c / 2 ^ 12 % 16 ≠ 0 ∨ c / 2 ^ 24 ≠ 0)

/-- The first failure of a layer map: reason and entry (03 R61, 13 R305). -/
def lmCheck (l : List Byte) (crc : BitVec 32) : Option (Nat × Nat) :=
  if crc32c l ≠ crc then some (1, 0x3FFFF)
  else
    match firstBad (lmReservedBad l) (List.range 272) with
    | some i => some (2, i)
    | none =>
      match firstBad (lmDupExact l) (List.range 256) with
      | some i => some (3, i)
      | none => (firstBad (lmDupAny l) (List.range 256)).map (fun i => (4, i))

/-! ### The render parameter image (05 R109, R110) -/

/-- The active render image. -/
def rpImage (s : State) : List Byte := (s.cfg.rp.map (·.bytes)).getD []
/-- `n_terms`. -/
def rpTerms (l : List Byte) : Nat := blk l 0 0 2
/-- `d_max`. -/
def rpDmax (l : List Byte) : Nat := blk l 0 8 9
/-- `eta` of term i. -/
def rpEta (l : List Byte) (i : Nat) : Nat := blk l (1 + 8 * i) 0 16
/-- `halfw` of term i. -/
def rpHalfw (l : List Byte) (i : Nat) : Nat := blk l (1 + 8 * i) 16 5
/-- Tap t of term i, 32 bits from bit 32 of word 1 + 8i on (05 R109). -/
def rpTap (l : List Byte) (i t : Nat) : Nat := leAt l (16 * (1 + 8 * i) + 4 + 4 * t) 4

/-- Every field of term i is zero. -/
def rpTermZero (l : List Byte) (i : Nat) : Bool := (slice l (16 * (1 + 8 * i)) 128).all (fun b => b == 0)

/-- Reserved fields of the image that lie in word 0 or in term i (05 R109). -/
def rpReservedOk (l : List Byte) : Bool :=
  decide (blk l 0 2 6 = 0 ∧ blk l 0 17 47 = 0 ∧ blk l 0 96 32 = 0) &&
    [0, 1, 2].all (fun i =>
      decide (blk l (1 + 8 * i) 21 11 = 0 ∧ blk l (7 + 8 * i) 64 64 = 0 ∧ blk l (8 + 8 * i) 0 128 = 0))

/-- w[0] + 2·(w[1] + … + w[W]) (05 R110). -/
def rpTapSum (l : List Byte) (i : Nat) : Nat :=
  (List.range (rpHalfw l i)).foldl (fun a t => a + 2 * rpTap l i (t + 1)) (rpTap l i 0)

/-- The first failure of a render image: reason and term (05 R110). -/
def rpCheck (l : List Byte) : Option (Nat × Nat) :=
  let n := rpTerms l
  let terms := List.range n
  if crc32c (slice l 0 8 ++ slice l 16 384) ≠ BitVec.ofNat 32 (leAt l 8 4) then some (1, 0)
  else if rpReservedOk l = false then some (2, 0)
  else
    match firstBad (fun i => decide (n ≤ i) && !rpTermZero l i) [0, 1, 2] with
    | some i => some (3, i)
    | none =>
      match firstBad (fun i => decide (23 < rpHalfw l i) ||
          (List.range 25).any (fun t => decide (rpHalfw l i < t ∧ rpTap l i t ≠ 0))) terms with
      | some i => some (4, i)
      | none =>
        match firstBad (fun i => (List.range 25).any (fun t => decide (65536 < rpTap l i t)) ||
            decide (rpTapSum l i ≠ 65536)) terms with
        | some i => some (5, i)
        | none =>
          if 16384 < (terms.map (rpEta l)).sum then some (6, 0)
          else if rpDmax l < 1 ∨ 480 < rpDmax l then some (7, 0)
          else none

/-- W_max + 1: the kernel reach of the active image in cells (05 R112). -/
def kernelReach (l : List Byte) : Nat := (List.range (rpTerms l)).foldl (fun a i => max a (rpHalfw l i)) 0 + 1

end Sys2Proof.Machine
end

