-- ==== Sys2Proof/Machine/Deflate.lean ====
section
/-! DEFINITION. DEFLATE (RFC 1951) as the manual uses it: inflation under the rules of 03 R57 and 04 R89, the fixed
encoder of 04 R89, and canonical prefix codes, which the segment code shares (06 R136). -/

namespace Sys2Proof.Machine

/-! ### Bits (06 R136: each byte fills from bit 0) -/

/-- The bits of a byte string, each byte from bit 0. -/
def bytesBits : List Byte → List Bool
  | [] => []
  | b :: t => ((List.range 8).map (fun i => b.toNat.testBit i)) ++ bytesBits t

/-- The number that bits spell, least significant first. -/
def bitsVal : List Bool → Nat
  | [] => 0
  | b :: t => b2n b + 2 * bitsVal t

/-- Bits packed into bytes from bit 0, the last byte padded with zeros; `n` is the number of bytes. -/
def packBits : Nat → List Bool → List Byte
  | 0, _ => []
  | n + 1, l => BitVec.ofNat 8 (bitsVal (l.take 8)) :: packBits n (l.drop 8)

/-- Bits packed into as many bytes as they need (06 R136). -/
def bitsBytes (l : List Bool) : List Byte := packBits ((l.length + 7) / 8) l

/-- The low `n` bits of `v`, least significant first. -/
def lsbBits (n v : Nat) : List Bool := (List.range n).map (fun i => v.testBit i)

/-- The low `n` bits of `v`, most significant first. -/
def msbBits (n v : Nat) : List Bool := (lsbBits n v).reverse

/-- Take `n` bits, least significant first. -/
def takeBits (n : Nat) (l : List Bool) : Option (Nat × List Bool) :=
  if l.length < n then none else some (bitsVal (l.take n), l.drop n)

/-! ### Canonical prefix codes (RFC 1951, 3.2.2) -/

/-- The first code of length `l` among codes of these lengths (RFC 1951, 3.2.2). -/
def firstCode (lens : List Nat) : Nat → Nat
  | 0 => 0
  | l + 1 => 2 * (firstCode lens l + if l = 0 then 0 else (lens.filter (· == l)).length)

/-- The code of symbol `i`, of its length (RFC 1951, 3.2.2). -/
def codeOf (lens : List Nat) (i : Nat) : Nat :=
  let l := lens.getD i 0
  firstCode lens l + ((lens.take i).filter (· == l)).length

/-- The code words: length, code and symbol of every symbol in use. -/
def codeWords (lens : List Nat) : List (Nat × Nat × Nat) :=
  ((List.range lens.length).filter (fun i => lens.getD i 0 != 0)).map (fun i => (lens.getD i 0, codeOf lens i, i))

/-- K = Σ 2^(15 − ℓ) of the symbols in use (06 R143); at most 32,768 for a prefix code. -/
def kraft (lens : List Nat) : Nat := ((lens.filter (· != 0)).map (fun l => 2 ^ (15 - l))).sum

/-- Read one symbol: bits most significant first, at most `fuel` of them. -/
def readSym (ws : List (Nat × Nat × Nat)) : Nat → Nat → Nat → List Bool → Option (Nat × List Bool)
  | 0, _, _, _ => none
  | _ + 1, _, _, [] => none
  | fuel + 1, len, code, b :: t =>
    let c := 2 * code + b2n b
    match ws.find? (fun w => w.1 == len + 1 && w.2.1 == c) with
    | some w => some (w.2.2, t)
    | none => readSym ws fuel (len + 1) c t

/-! ### Inflation (RFC 1951) -/

/-- Base length and extra bits of length symbol 257 + i (RFC 1951, 3.2.5). -/
def lenBase (i : Nat) : Nat × Nat :=
  ([(3, 0), (4, 0), (5, 0), (6, 0), (7, 0), (8, 0), (9, 0), (10, 0), (11, 1), (13, 1), (15, 1), (17, 1), (19, 2), (23, 2),
    (27, 2), (31, 2), (35, 3), (43, 3), (51, 3), (59, 3), (67, 4), (83, 4), (99, 4), (115, 4), (131, 5), (163, 5), (195, 5),
    (227, 5), (258, 0)] : List (Nat × Nat)).getD i (0, 0)

/-- Base distance and extra bits of distance symbol i (RFC 1951, 3.2.5). -/
def distBase (i : Nat) : Nat × Nat :=
  if i < 4 then (i + 1, 0) else (2 ^ (i / 2 - 1) * (2 + i % 2) + 1, i / 2 - 1)

/-- The fixed code lengths of literals and lengths (RFC 1951, 3.2.6). -/
def fixedLit : List Nat :=
  List.replicate 144 8 ++ List.replicate 112 9 ++ List.replicate 24 7 ++ List.replicate 8 8

/-- The fixed code lengths of distances (RFC 1951, 3.2.6). -/
def fixedDist : List Nat := List.replicate 32 5

/-- Copy `n` bytes from `d` back; `out` is the output so far, newest first. -/
def copyBack (d : Nat) : Nat → List Byte → List Byte
  | 0, out => out
  | n + 1, out => copyBack d n (out.getD (d - 1) 0 :: out)

/-- One symbol of a block's compressed data: whether it ended the block, the bits left, and the output so far. -/
def inflateSym (lit dist : List (Nat × Nat × Nat)) (l : List Bool) (out : List Byte) :
    Option (Bool × List Bool × List Byte) :=
  match readSym lit 15 0 0 l with
  | none => none
  | some (y, l1) =>
    if y < 256 then some (false, l1, BitVec.ofNat 8 y :: out)
    else if y = 256 then some (true, l1, out)
    else if 285 < y then none
    else
      match takeBits (lenBase (y - 257)).2 l1 with
      | none => none
      | some (x, l2) =>
        match readSym dist 15 0 0 l2 with
        | none => none
        | some (z, l3) =>
          if 29 < z then none
          else
            match takeBits (distBase z).2 l3 with
            | none => none
            | some (w, l4) =>
              let d := (distBase z).1 + w
              if out.length < d then none
              else some (false, l4, copyBack d ((lenBase (y - 257)).1 + x) out)

/-- The compressed data of one block, up to its end-of-block symbol. -/
def inflateSyms (lit dist : List (Nat × Nat × Nat)) : Nat → List Bool → List Byte → Option (List Bool × List Byte)
  | 0, _, _ => none
  | fuel + 1, l, out =>
    match inflateSym lit dist l out with
    | none => none
    | some (true, l1, o1) => some (l1, o1)
    | some (false, l1, o1) => inflateSyms lit dist fuel l1 o1

/-- Code lengths of a dynamic block, run lengths expanded (RFC 1951, 3.2.7); newest first. -/
def readLens (ws : List (Nat × Nat × Nat)) (n : Nat) : Nat → List Bool → List Nat → Option (List Bool × List Nat)
  | 0, _, _ => none
  | fuel + 1, l, acc =>
    if acc.length = n then some (l, acc)
    else if n < acc.length then none
    else
      match readSym ws 7 0 0 l with
      | none => none
      | some (y, l1) =>
        if y < 16 then readLens ws n fuel l1 (y :: acc)
        else
          match takeBits (if y = 16 then 2 else if y = 17 then 3 else 7) l1 with
          | none => none
          | some (x, l2) =>
            if y = 16 then
              match acc with
              | [] => none
              | p :: _ => readLens ws n fuel l2 (List.replicate (3 + x) p ++ acc)
            else readLens ws n fuel l2 (List.replicate ((if y = 17 then 3 else 11) + x) 0 ++ acc)

/-- The order of the code length codes (RFC 1951, 3.2.7). -/
def clOrder : List Nat := [16, 17, 18, 0, 8, 7, 9, 6, 10, 5, 11, 4, 12, 3, 13, 2, 14, 1, 15]

/-- The code length code lengths, placed by symbol. -/
def clLens (n : Nat) (l : List Bool) : List Nat :=
  (List.range 19).map (fun y =>
    match clOrder.idxOf? y with
    | some i => if i < n then bitsVal ((l.drop (3 * i)).take 3) else 0
    | none => 0)

/-- The two codes of a dynamic block; an over-subscribed set of lengths is no prefix code (RFC 1951, 3.2.7). -/
def dynamicCodes (l : List Bool) : Option (List Bool × List Nat × List Nat) :=
  match takeBits 14 l with
  | none => none
  | some (v, l1) =>
    let hlit := v % 32 + 257
    let hdist := v / 32 % 32 + 1
    let hclen := v / 1024 + 4
    if l1.length < 3 * hclen then none
    else
      let cl := clLens hclen l1
      match readLens (codeWords cl) (hlit + hdist) 400 (l1.drop (3 * hclen)) [] with
      | none => none
      | some (l2, rev) =>
        let lens := rev.reverse
        if 286 < hlit ∨ 30 < hdist ∨ 32768 < kraft cl ∨ 32768 < kraft (lens.take hlit) ∨
            32768 < kraft (lens.drop hlit) then none
        else some (l2, lens.take hlit, lens.drop hlit)

/-- A stored block (RFC 1951, 3.2.4). The bits left are a multiple of eight at each byte boundary. -/
def storedBlock (l : List Bool) (out : List Byte) : Option (List Bool × List Byte) :=
  let l0 := l.drop (l.length % 8)
  match takeBits 32 l0 with
  | none => none
  | some (v, l1) =>
    let n := v % 65536
    if v / 65536 + n ≠ 65535 ∨ l1.length < 8 * n then none
    else some (l1.drop (8 * n), (packBits n l1).reverse ++ out)

/-- Blocks up to the final one. -/
def inflateBlocks : Nat → List Bool → List Byte → Option (List Bool × List Byte)
  | 0, _, _ => none
  | fuel + 1, l, out =>
    match takeBits 3 l with
    | none => none
    | some (v, l1) =>
      let r :=
        match v / 2 with
        | 0 => storedBlock l1 out
        | 1 => inflateSyms (codeWords fixedLit) (codeWords fixedDist) (l1.length + 1) l1 out
        | 2 =>
          match dynamicCodes l1 with
          | none => none
          | some (l2, a, b) => inflateSyms (codeWords a) (codeWords b) (l2.length + 1) l2 out
        | _ => none
      match r with
      | none => none
      | some (l3, out1) => if v % 2 = 1 then some (l3, out1) else inflateBlocks fuel l3 out1

/-- Inflate `comp` to exactly `n` bytes: the final block ends in the last byte, and the bits after it are zero
(03 R57). -/
def inflate (comp : List Byte) (n : Nat) : Option (List Byte) :=
  let bs := bytesBits comp
  match inflateBlocks (bs.length + 1) bs [] with
  | none => none
  | some (l, out) => if l.length < 8 ∧ l.all (fun b => !b) ∧ out.length = n then some out.reverse else none

/-! ### The fixed encoder (04 R89) -/

/-- The number of equal bytes at the fronts of two lists. -/
def matchLen : List Byte → List Byte → Nat
  | a :: s, b :: t => if a = b then matchLen s t + 1 else 0
  | _, _ => 0

/-- The longest match over distances up to `d`, the smallest distance among equals: length and distance (04 R89). -/
def bestMatch (b : List Byte) (i : Nat) : Nat → Nat × Nat
  | 0 => (0, 0)
  | d + 1 =>
    let p := bestMatch b i d
    if i < d + 1 then p
    else
      let l := min 258 (matchLen (b.drop i) (b.drop (i - (d + 1))))
      if p.1 < l then (l, d + 1) else p

/-- The symbol of a base table that holds a value: the highest whose base does not exceed it. -/
def baseSym (base : Nat → Nat × Nat) (v : Nat) : Nat → Nat
  | 0 => 0
  | n + 1 => if (base (n + 1)).1 ≤ v then n + 1 else baseSym base v n

/-- A literal or length symbol in the fixed code. -/
def putLit (y : Nat) : List Bool := msbBits (fixedLit.getD y 0) (codeOf fixedLit y)

/-- A length and a distance in the fixed codes, extra bits least significant first (RFC 1951, 3.2.5). -/
def putMatch (l d : Nat) : List Bool :=
  let y := baseSym lenBase l 28
  let z := baseSym distBase d 29
  putLit (257 + y) ++ lsbBits (lenBase y).2 (l - (lenBase y).1) ++ msbBits 5 z ++ lsbBits (distBase z).2 (d - (distBase z).1)

/-- The symbols of the fixed encoder from byte `i` on (04 R89). -/
def deflateFrom (b : List Byte) : Nat → Nat → List Bool
  | 0, _ => putLit 256
  | fuel + 1, i =>
    if b.length ≤ i then putLit 256
    else
      let m := bestMatch b i i
      if 3 ≤ m.1 then putMatch m.1 m.2 ++ deflateFrom b fuel (i + m.1)
      else putLit (b.getD i 0).toNat ++ deflateFrom b fuel (i + 1)

/-- The fixed DEFLATE encoder: one final block with the fixed codes (04 R89). -/
def deflate (b : List Byte) : List Byte := bitsBytes ([true, true, false] ++ deflateFrom b (b.length + 1) 0)

end Sys2Proof.Machine
end

