-- ==== Sys2Proof/Machine/Stream.lean ====
section
/-! DEFINITION. The bin stream as its readers check it and as ingest and census write it (04), and the density map's
layout (04 R96-R98). -/

namespace Sys2Proof.Machine

/-! ### What a look at a structure gives -/

/-- Why a structure cannot be used: its bytes cannot be read now (a translation fault), or a check of R94 failed with
the detail of R95. -/
inductive Bad where
  | stall
  | check (kind stripe bin block offset : Nat) (record : Bool)
  deriving DecidableEq, Repr

/-- A value read from a checked structure. -/
abbrev Look (α : Type) := Except Bad α

/-- The check passes, or the structure fails. -/
def need (b : Bool) (e : Bad) : Look Unit := if b then .ok () else .error e

/-- A failure of a header, a field or a check value. -/
def badAt (kind stripe bin block offset : Nat) : Bad := .check kind stripe bin block offset false

/-- Where a stream lies: space, flow and address (03 R48). -/
structure JobRef where
  space : Nat
  flow : Nat
  addr : Nat
  deriving DecidableEq, Repr

/-- Bytes of a stream. -/
def jread (s : State) (j : JobRef) (off n : Nat) : Look (List Byte) :=
  match peekSpace j.space j.flow (j.addr + off) n s with
  | some b => .ok b
  | none => .error .stall

/-- Raise the event of a failed structure (04 R95). -/
def raiseBad (b : Bad) (s : State) : State :=
  match b with
  | .stall => s
  | .check k st bn bl off r =>
    raise (if r then 0x0331 else 0x0330) .ing (word [(0, 8, k), (8, 16, st), (24, 16, bn), (40, 32, bl), (72, 56, off)]) s

/-- The detail of a failed structure (04 R95, R100). -/
def badDetail (b : Bad) : W128 :=
  match b with
  | .stall => 0
  | .check k st bn bl off _ => word [(0, 8, k), (8, 16, st), (24, 16, bn), (40, 32, bl), (72, 56, off)]

/-! ### The stream header (04 R82) -/

/-- A stream's header, with the fields its readers use. -/
structure SHdr where
  pitch : Nat
  sealed_ : Bool
  first : Nat
  count : Nat
  linesM1 : Nat
  len : Nat
  lmapCrc : Nat
  crc : Nat
  deriving DecidableEq, Repr

/-- The fields of a header's 128 bytes (04 R82). -/
def SHdr.of (b : List Byte) : SHdr where
  pitch := blk b 0 56 2
  sealed_ := blk b 0 61 1 == 1
  first := blk b 0 64 16
  count := blk b 0 80 16
  linesM1 := blk b 0 96 24
  len := blk b 1 0 64
  lmapCrc := blk b 1 64 32
  crc := blk b 7 96 32

/-- Reserved fields of a stream header are zero (04 R82). -/
def hdrReservedOk (b : List Byte) : Bool :=
  decide (blk b 0 62 2 = 0 ∧ blk b 0 120 8 = 0 ∧ blk b 1 113 15 = 0 ∧ blk b 7 0 96 = 0) &&
    [4, 5, 6].all (fun k => decide (blk b k 0 128 = 0))

/-- Field values of a stream header (04 R82, R94). -/
def hdrFieldsOk (b : List Byte) : Bool :=
  decide (blk b 0 0 32 = 0x4E5A4C46 ∧ blk b 0 32 16 = 1 ∧ blk b 0 48 8 = 8 ∧ 1 ≤ blk b 1 96 17 ∧ blk b 1 96 17 ≤ 65536 ∧
    1 ≤ blk b 0 80 16 ∧ blk b 0 64 16 + blk b 0 80 16 ≤ 65536)

/-- The checked stream header (04 R82, R94). -/
def streamHdr (s : State) (j : JobRef) : Look SHdr := do
  let b ← jread s j 0 128
  need (hdrFieldsOk b && hdrReservedOk b) (badAt 1 0 0 0 0)
  let d ← jread s j 128 (16 * blk b 0 80 16)
  need (crc32c (b.take 124 ++ d) == BitVec.ofNat 32 (blk b 7 96 32)) (badAt 1 0 0 0 0)
  .ok (SHdr.of b)

/-! ### Stripe headers (04 R83, R84) -/

/-- n_bins of a stripe of `linesM1` + 1 lines (04 R81). -/
def nBins (linesM1 : Nat) : Nat := (linesM1 + 1024) / 1024

/-- A checked stripe: its index in the job, number, section offset, bins. -/
structure Strp where
  idx : Nat
  num : Nat
  off : Nat
  bins : Nat
  linesM1 : Nat
  deriving DecidableEq, Repr

/-- Stripe header and `stripe_crc` of stripe i of the job (04 R84, R94). -/
def stripeHdr (s : State) (j : JobRef) (h : SHdr) (i : Nat) : Look Strp := do
  let e ← jread s j (128 + 16 * i) 16
  let off := leAt e 0 8
  let bad := badAt 2 (h.first + i) 0 0 off
  let n := nBins h.linesM1
  let b ← jread s j off 64
  need (decide (blk b 0 0 32 = 0x535A4C46 ∧ blk b 0 32 16 = h.first + i ∧ blk b 0 48 24 = h.linesM1 ∧ blk b 0 72 16 = n ∧
    blk b 0 88 40 = 0 ∧ blk b 1 0 64 = 64 ∧ blk b 1 64 64 = 128 + 32 * n ∧ blk b 2 64 64 = 0 ∧ blk b 3 0 96 = 0)) bad
  let d ← jread s j (off + 128 + 32 * n) (16 * n)
  need (crc32c (b.take 60 ++ d) == BitVec.ofNat 32 (blk b 3 96 32)) bad
  .ok { idx := i, num := h.first + i, off := off, bins := n, linesM1 := h.linesM1 }

/-! ### The census record (04 R85, R86) -/

/-- The census block of a stripe: record and forecasts. -/
def censusBytes (s : State) (j : JobRef) (t : Strp) : Look (List Byte) := jread s j (t.off + 64) (64 + 32 * t.bins)

/-- The record exists: `valid` and a correct `census_crc` (04 R86). -/
def censusPresent (b : List Byte) : Bool :=
  blk b 0 0 1 == 1 && crc32c (b.take 60 ++ b.drop 64) == BitVec.ofNat 32 (blk b 3 96 32)

/-- `refused` of a census record. -/
def censusRefused (b : List Byte) : Bool := blk b 0 1 1 == 1

/-- f_s of a census record in Hz. -/
def censusFs (b : List Byte) : Nat := blk b 0 32 32

/-- The record with its check value, followed by the forecasts (04 R85). -/
def sealCensus (rec60 forecasts : List Byte) : List Byte :=
  rec60 ++ leBytes 4 (crc32c (rec60 ++ forecasts)).toNat ++ forecasts

/-- The block with a new f_s and `lowered` = 1 (03 R76, 04 R86). -/
def lowerCensus (b : List Byte) (fs : Nat) : List Byte :=
  let w0 := leAt b 0 4
  let w0' := if w0.testBit 4 then w0 else w0 + 16
  sealCensus (leBytes 4 w0' ++ leBytes 4 fs ++ slice b 8 52) (b.drop 64)

/-- Write bytes of a stream; a translation fault leaves the rest unwritten (14 R346). -/
def jwrite (j : JobRef) (off : Nat) (b : List Byte) (s : State) : State :=
  if j.space = 1 then hbmWrite (j.addr + off) b s else (vwrite j.flow (j.addr + off) b s).2

/-! ### Trapezoid records (04 R91-R93) -/

/-- A trapezoid, stripe-relative, in sixteenths (04 R91). -/
structure Trap where
  cls : Nat
  y0 : Int
  y1 : Int
  xl0 : Int
  xr0 : Int
  xl1 : Int
  xr1 : Int
  deriving DecidableEq, Repr

/-- The four x fields and the class of a record word. -/
def trapX (w : Nat) (y0 y1 : Int) : Trap where
  cls := w / 4 % 16
  y0 := y0
  y1 := y1
  xl0 := signedNat 20 (w / 2 ^ 6)
  xr0 := signedNat 20 (w / 2 ^ 26)
  xl1 := signedNat 20 (w / 2 ^ 46)
  xr1 := signedNat 20 (w / 2 ^ 66)

/-- The records of a block's words, each with its byte offset; none where a kind is reserved, a reserved field is set
or a long record lacks its second word (04 R91, R92). `first` is a long record's first word, already read. -/
def parseRecords (b : Nat) : Nat → Option Nat → List Nat → List (Nat × Option Trap)
  | _, none, [] => []
  | off, some _, [] => [(off, none)]
  | off, some w, v :: t =>
    (off, if w / 2 ^ 86 = 0 ∧ v / 2 ^ 30 % 4 = 0 ∧ v / 2 ^ 62 = 0 then
        some (trapX w (signedNat 30 v) (signedNat 30 (v / 2 ^ 32)))
      else none) :: parseRecords b (off + 32) none t
  | off, none, w :: t =>
    if w % 4 = 0 then
      let y0 := signedNat 21 (w / 2 ^ 86) + 16384 * b
      (off, some (trapX w y0 (y0 + (w / 2 ^ 107 % 2 ^ 21 : Nat)))) :: parseRecords b (off + 16) none t
    else if w % 4 = 1 then parseRecords b off (some w) t
    else [(off, none)]

/-- The range rules of R93 for a record of bin `b` (04 R93). -/
def Trap.valid (t : Trap) (linesM1 b : Nat) : Bool :=
  let hi : Int := 16 * ((linesM1 : Int) + 1) + 1024
  [t.xl0, t.xr0, t.xl1, t.xr1].all (fun x => decide (-1024 ≤ x ∧ x ≤ 132096)) &&
  decide (t.xl0 ≤ t.xr0 ∧ t.xl1 ≤ t.xr1 ∧ (t.xl0 < t.xr0 ∨ t.xl1 < t.xr1) ∧ t.y0 < t.y1 ∧ -1024 ≤ t.y0 ∧ t.y1 ≤ hi ∧
    t.y0 < 16384 * ((b : Int) + 1) ∧ 16384 * (b : Int) < t.y1)

/-- Check the records of a block in order: y0 does not decrease (04 R93). `bad` gives the failure at an offset. -/
def checkRecords (linesM1 b : Nat) (bad : Nat → Bad) : Option Int → List (Nat × Option Trap) → Look (List Trap)
  | _, [] => .ok []
  | p, (off, r) :: t =>
    match r with
    | none => .error (bad off)
    | some x =>
      if x.valid linesM1 b && (match p with | none => true | some q => decide (q ≤ x.y0)) then do
        let l ← checkRecords linesM1 b bad (some x.y0) t
        .ok (x :: l)
      else .error (bad off)

/-! ### Blocks (04 R88-R90) -/

/-- Decode OD1310 tokens to exactly `n` bytes (04 R90). `out` is newest first. -/
def od1310 : Nat → Nat → List Byte → List Byte → Option (List Byte)
  | 0, _, _, _ => none
  | fuel + 1, n, l, out =>
    match l with
    | [] => if out.length = n then some out.reverse else none
    | [_] => none
    | a :: b :: t =>
      let c := a.toNat + 256 * b.toNat
      let k := c % 4096 + 1
      if c / 4096 % 4 ≠ 0 then none
      else if c / 16384 < 2 then
        if t.length < k ∨ n < out.length + k then none
        else od1310 fuel n (t.drop k) ((t.take k).reverse ++ out)
      else if c / 16384 = 2 then
        match t with
        | [] => none
        | x :: t' => if n < out.length + k then none else od1310 fuel n t' (List.replicate k x ++ out)
      else if out.length < 16 ∨ n < out.length + 16 * k then none
      else od1310 fuel n t ((List.replicate k (out.take 16)).flatten ++ out)

/-- Header fields of a block (04 R88-R90, R94). -/
def blockHdrOk (h : List Byte) : Bool :=
  let raw := blk h 0 0 13
  let cod := blk h 0 16 2
  let len := blk h 0 32 13
  decide (16 ≤ raw ∧ raw ≤ 4096 ∧ raw % 16 = 0 ∧ blk h 0 13 3 = 0 ∧ cod < 3 ∧ blk h 0 18 14 = 0 ∧ 1 ≤ len ∧ len ≤ 4100 ∧
    blk h 0 45 19 = 0 ∧ (cod = 0 → len = raw) ∧ (cod = 2 → len ≤ raw + 4))

/-- The decoded bytes of a payload (04 R89, R90). -/
def decodeBlock (coding raw : Nat) (p : List Byte) : Option (List Byte) :=
  match coding with
  | 0 => some p
  | 1 => inflate p raw
  | _ => od1310 (p.length + 1) raw p []

/-- Blocks of a bin from `off` on: the decoded bytes of each and the offset after the last (04 R88, R94). -/
def readBlocks (s : State) (j : JobRef) (st bin : Nat) : Nat → Nat → Nat → Look (List (List Byte))
  | 0, _, _ => .ok []
  | n + 1, k, off => do
    let bad := badAt 5 st bin k off
    let h ← jread s j off 16
    need (blockHdrOk h) bad
    let len := blk h 0 32 13
    let p ← jread s j (off + 16) len
    need (crc32c (h.take 12 ++ p) == BitVec.ofNat 32 (blk h 0 96 32)) bad
    match decodeBlock (blk h 0 16 2) (blk h 0 0 13) p with
    | none => .error bad
    | some d =>
      need (crc32c d == BitVec.ofNat 32 (blk h 0 64 32)) bad
      let t ← readBlocks s j st bin n (k + 1) (off + 16 + (len + 15) / 16 * 16)
      .ok (d :: t)

/-- The records of decoded blocks, in order (04 R93). -/
def blockRecords (linesM1 st bin : Nat) : Nat → Option Int → List (List Byte) → Look (List Trap)
  | _, _, [] => .ok []
  | k, p, d :: t => do
    let ws := (List.range (d.length / 16)).map (fun i => leAt d (16 * i) 16)
    let l ← checkRecords linesM1 bin (fun o => .check 6 st bin k o true) p (parseRecords bin 0 none ws)
    let q := (l.getLast?.map (·.y0)).or p
    let r ← blockRecords linesM1 st bin (k + 1) q t
    .ok (l ++ r)

/-- The records of bin `b` of a checked stripe (04 R87-R94). -/
def binRecords (s : State) (j : JobRef) (t : Strp) (b : Nat) : Look (List Trap) := do
  let e ← jread s j (t.off + 128 + 32 * t.bins + 16 * b) 16
  let off := t.off + leAt e 0 8
  let bad := badAt 4 t.num b 0 off
  let h ← jread s j off 32
  let n := blk h 1 0 32
  need (decide (blk h 0 0 32 = 0x425A4C46 ∧ blk h 0 32 16 = b ∧ blk h 1 32 64 = 0 ∧ (n = 0 ↔ blk h 0 80 48 = 0)) &&
    crc32c (h.take 28) == BitVec.ofNat 32 (blk h 1 96 32)) bad
  let ds ← readBlocks s j t.num b n 0 (off + 32)
  need (decide ((ds.map List.length).sum = 16 * blk h 0 80 48)) bad
  let rs ← blockRecords t.linesM1 t.num b 0 none ds
  need (decide (rs.length = blk h 0 48 32)) bad
  .ok rs

/-! ### Encoding records and blocks, as ingest writes them (04 R88-R92) -/

/-- The four x fields and the class of a record, above the kind (04 R91). -/
def Trap.xWord (t : Trap) : List (Nat × Nat × Nat) :=
  [(2, 4, t.cls), (6, 20, raw 20 t.xl0), (26, 20, raw 20 t.xr0), (46, 20, raw 20 t.xl1), (66, 20, raw 20 t.xr1)]

/-- The bytes of a record in bin `b`: short where it fits, else long (04 R92). -/
def Trap.bytes (t : Trap) (b : Nat) : List Byte :=
  let dy := t.y0 - 16384 * b
  let h := t.y1 - t.y0
  if -65536 ≤ dy ∧ dy ≤ 65535 ∧ h ≤ 2097151 then
    wordBytes (word ([(0, 2, 0)] ++ t.xWord ++ [(86, 21, raw 21 dy), (107, 21, h.toNat)]))
  else
    wordBytes (word ([(0, 2, 1)] ++ t.xWord)) ++
      wordBytes (word [(0, 30, raw 30 t.y0), (32, 30, raw 30 t.y1)])

/-- Records packed into blocks of at most 4,096 bytes (04 R88); `cur` is the block being filled. -/
def packBlocks : List Byte → List (List Byte) → List (List Byte)
  | cur, [] => if cur.isEmpty then [] else [cur]
  | cur, r :: t =>
    if cur.length + r.length ≤ 4096 then packBlocks (cur ++ r) t
    else cur :: packBlocks r t

/-- One block: header, payload, padding (04 R88, R89). -/
def blockBytes (d : List Byte) : List Byte :=
  let z := deflate d
  let c := if z.length < d.length then 1 else 0
  let p := if c = 1 then z else d
  let w := packFields [(0, 13, d.length), (16, 2, c), (32, 13, p.length), (64, 32, (crc32c d).toNat)]
  let h := leBytes 12 w
  h ++ leBytes 4 (crc32c (h ++ p)).toNat ++ p ++ List.replicate ((16 - p.length % 16) % 16) 0

/-- A bin section (04 R87). -/
def binBytes (b : Nat) (ts : List Trap) : List Byte :=
  let rs := ts.map (fun t => t.bytes b)
  let ds := packBlocks [] rs
  let n := (ds.map List.length).sum / 16
  let h := leBytes 16 (packFields [(0, 32, 0x425A4C46), (32, 16, b), (48, 32, ts.length), (80, 48, n)]) ++
    leBytes 12 (ds.length % 2 ^ 32)
  h ++ leBytes 4 (crc32c h).toNat ++ (ds.map blockBytes).flatten

/-- A directory over sections: each entry's offset and length, sections padded to `align` (04 R83). -/
def directory (align : Nat) : Nat → List (List Byte) → List Byte
  | _, [] => []
  | off, x :: t => leBytes 8 off ++ leBytes 8 x.length ++ directory align (off + (x.length + align - 1) / align * align) t

/-- Zero padding to a multiple of `n` (04 R81). -/
def padTo (n : Nat) (l : List Byte) : List Byte := l ++ List.replicate ((n - l.length % n) % n) 0

/-- A stripe section with a census block of zeros (04 R84, R86). -/
def stripeBytes (num linesM1 : Nat) (bins : List (List Trap)) : List Byte :=
  let n := bins.length
  let bs := (List.range n).map (fun b => binBytes b (bins.getD b []))
  let dir := directory 16 (128 + 48 * n) bs
  let traps := (bins.map List.length).sum
  let h := leBytes 16 (packFields [(0, 32, 0x535A4C46), (32, 16, num), (48, 24, linesM1), (72, 16, n)]) ++
    leBytes 8 64 ++ leBytes 8 (128 + 32 * n) ++ leBytes 16 traps ++ List.replicate 12 0
  h ++ leBytes 4 (crc32c (h ++ dir)).toNat ++ List.replicate (64 + 32 * n) 0 ++ dir ++ (bs.map (padTo 16)).flatten

/-- Sections in order with zero padding between them (04 R81). -/
def joinPadded (n : Nat) : List (List Byte) → List Byte
  | [] => []
  | [x] => x
  | x :: y :: t => padTo n x ++ joinPadded n (y :: t)

/-- Everything of a stream after its header: the stripe directory, and the padding and sections after it
(04 R81, R83). -/
def streamBody (stripes : List (List Byte)) : List Byte × List Byte :=
  let n := stripes.length
  let start := (128 + 16 * n + 63) / 64 * 64
  (directory 64 start stripes, List.replicate (start - 128 - 16 * n) 0 ++ joinPadded 64 stripes)

/-! ### The density map (03 R70, 04 R96, R97) -/

/-- Cell pitch G in pixels (03 R70). -/
def cellPitch (pitch : Nat) : Nat :=
  match pitch with
  | 0 => 320
  | 1 => 256
  | 2 => 213
  | _ => 160

/-- Geometry of a map: margin, nu, nv, ntu, ntv, tile_off (04 R96). -/
structure MapGeo where
  pitch : Nat
  g : Nat
  margin : Nat
  nu : Nat
  nv : Nat
  ntu : Nat
  ntv : Nat
  tileOff : Nat
  deriving DecidableEq, Repr

/-- The map of a job (04 R96). -/
def mapGeo (h : SHdr) (margin : Nat) : MapGeo :=
  let g := cellPitch h.pitch
  let nu := (8192 * h.count + g - 1) / g + 2 * margin
  let nv := (h.linesM1 + g) / g + 2 * margin
  let ntu := (nu + 63) / 64
  let ntv := (nv + 63) / 64
  { pitch := h.pitch, g := g, margin := margin, nu := nu, nv := nv, ntu := ntu, ntv := ntv
    tileOff := 64 + 64 * ((4 * ntu * ntv + 63) / 64) }

/-- Bytes the region occupies (04 R98). -/
def MapGeo.size (m : MapGeo) : Nat := m.tileOff + 8192 * m.ntu * m.ntv

/-- The first 60 bytes of the map header (04 R96). -/
def MapGeo.header (m : MapGeo) (h : SHdr) : List Byte :=
  leBytes 16 (packFields [(0, 32, 0x445A4C46), (32, 16, 1), (48, 2, m.pitch), (56, 8, m.margin),
    (64, 32, raw 32 (-(m.margin : Int))), (96, 32, raw 32 (-(m.margin : Int)))]) ++
  leBytes 16 (packFields [(0, 32, m.nu), (32, 32, m.nv), (64, 16, m.g), (80, 16, m.ntu), (96, 16, m.ntv)]) ++
  leBytes 8 m.tileOff ++ leBytes 4 h.lmapCrc ++ leBytes 4 h.crc ++ List.replicate 12 0

/-- The checked map header of a job: its geometry, every field as R96 computes it, and `map_crc` (04 R94, R97). -/
def mapHdr (s : State) (dmap : Nat) (h : SHdr) : Look MapGeo := do
  let bad := badAt 7 0 0 0 0
  let b := hbmRead s dmap 64
  let m := mapGeo h (blk b 0 56 8)
  need (decide (m.margin ≤ 64) && b.take 60 == m.header h) bad
  need (crc32c (b.take 60 ++ hbmRead s (dmap + 64) (m.tileOff - 64)) == BitVec.ofNat 32 (blk b 3 96 32)) bad
  .ok m

/-- The density of cell (u, v), 0 outside the map; its tile is checked (04 R97, 05 R113). -/
def density (s : State) (dmap : Nat) (m : MapGeo) (u v : Int) : Look Nat :=
  let a := u + m.margin
  let c := v + m.margin
  if a < 0 ∨ c < 0 ∨ (m.nu : Int) ≤ a ∨ (m.nv : Int) ≤ c then .ok 0
  else
    let tu := a.toNat / 64
    let tv := c.toNat / 64
    let k := m.ntu * tv + tu
    let t := hbmRead s (dmap + m.tileOff + 8192 * k) 8192
    if crc32c t == BitVec.ofNat 32 (leNat (hbmRead s (dmap + 64 + 4 * k) 4)) then
      .ok (leAt t (2 * (64 * (c.toNat % 64) + a.toNat % 64)) 2)
    else .error (badAt 8 tu tv k (m.tileOff + 8192 * k))

end Sys2Proof.Machine
end

