-- ==== Sys2Proof/Machine/Raster.lean ====
section
/-! DEFINITION. The render arithmetic: coverage, proximity correction and dose of a pixel line (05 R106-R116), and the
line and edge measures of the density sweep (03 R71). -/

namespace Sys2Proof.Machine

/-! ### Coverage (05 R106-R108) -/

/-- A record covers the sample at doubled coordinates (X', Y') (05 R106). -/
def Trap.covers (t : Trap) (x y : Int) : Bool :=
  let h := t.y1 - t.y0
  decide (2 * t.y0 < y ∧ y < 2 * t.y1 ∧ 0 ≤ (x - 2 * t.xl0) * h - (t.xl1 - t.xl0) * (y - 2 * t.y0) ∧
    (x - 2 * t.xr0) * h - (t.xr1 - t.xr0) * (y - 2 * t.y0) < 0)

/-- The class of a sample: the highest among the records covering it (05 R108). -/
def sampleClass (ts : List Trap) (x y : Int) : Option Nat :=
  ts.foldl (fun c t => if t.covers x y then some (match c with | none => t.cls | some d => max d t.cls) else c) none

/-- S of pixel (x, L): the class gains of its 256 samples summed (05 R108). -/
def pixelS (lm : List Byte) (ts : List Trap) (x line : Nat) : Nat :=
  ((List.range 256).map (fun k =>
    let i := k % 16
    let j := k / 16
    match sampleClass ts ((32 * x + 2 * i + 1 : Nat) : Int) ((32 * line + 2 * j + 1 : Nat) : Int) with
    | none => 0
    | some c => classGain lm c)).sum

/-! ### Correction nodes (05 R113, R114) -/

/-- The tap list of a term from −W to W. -/
def tapAt (rp : List Byte) (i : Nat) (t : Int) : Nat := rpTap rp i t.natAbs

/-- Offsets −W to W. -/
def reach (w : Nat) : List Int := (List.range (2 * w + 1)).map (fun k => (k : Int) - (w : Int))

/-- The weighted sum of looks over offsets, rounded: (Σ w·x + 32768) >> 16 (05 R113). -/
def tapSum (rp : List Byte) (i : Nat) (f : Int → Look Nat) : List Int → Nat → Look Nat
  | [], acc => .ok ((acc + 32768) / 65536)
  | t :: l, acc => do
    let x ← f t
    tapSum rp i f l (acc + tapAt rp i t * x)

/-- c_i at node (u, v) (05 R113). -/
def convolved (s : State) (dmap : Nat) (m : MapGeo) (rp : List Byte) (i : Nat) (u v : Int) : Look Nat :=
  let w := reach (rpHalfw rp i)
  tapSum rp i (fun b => tapSum rp i (fun a => density s dmap m (u + a) (v + b)) w 0) w 0

/-- rcp[y − 4096] (05 R114). -/
def rcp (y : Nat) : Nat := (2 ^ 30 + y) / (2 * y)

/-- m of a node from its terms' (eta, c) (05 R114). -/
def nodeFactor (terms : List (Nat × Nat)) : Nat :=
  let num := terms.foldl (fun a t => a + 2 * t.1 * 65536) (2 ^ 28)
  let den := terms.foldl (fun a t => a + 2 * t.1 * t.2) (2 ^ 28)
  let z := den.log2 - 28
  let y := den / 2 ^ (z + 16)
  (num * rcp y + 2 ^ (31 + z)) / 2 ^ (32 + z)

/-- The terms of a node. -/
def nodeTerms (s : State) (dmap : Nat) (m : MapGeo) (rp : List Byte) (u v : Int) : List Nat → Look (List (Nat × Nat))
  | [] => .ok []
  | i :: t => do
    let c ← convolved s dmap m rp i u v
    let l ← nodeTerms s dmap m rp u v t
    .ok ((rpEta rp i, c) :: l)

/-- M(u, v) (05 R114). -/
def node (s : State) (dmap : Nat) (m : MapGeo) (rp : List Byte) (u v : Int) : Look Nat := do
  let l ← nodeTerms s dmap m rp u v (List.range (rpTerms rp))
  .ok (nodeFactor l)

/-! ### From nodes to pixels (05 R115, R116) -/

/-- The cell before a pixel centre and the weight of the next, u0.16 (05 R115): `x2` in half pixels. -/
def interp (g : Nat) (x2 : Int) : Int × Nat :=
  let u := x2 / (2 * g : Nat)
  let a := (x2 - (2 * g : Nat) * u).toNat
  (u, (a * 65536 + g) / (2 * g))

/-- m_p from the four nodes (05 R115). -/
def blend (al be m00 m10 m01 m11 : Nat) : Nat :=
  ((65536 - al) * (65536 - be) * m00 + al * (65536 - be) * m10 + (65536 - al) * be * m01 + al * be * m11 + 2 ^ 31) / 2 ^ 32

/-- D from S and m_p (05 R116). -/
def finalDose (dmax sv mp : Nat) : Nat := min dmax ((sv * mp + 2 ^ 23) / 2 ^ 24)

/-- What a line's rendering needs besides the bin's records. -/
structure RenderCtx where
  lm : List Byte
  rp : List Byte
  dmap : Nat
  geo : MapGeo
  stripe : Nat
  deriving DecidableEq, Repr

/-- m_p of pixel column x of a line; with no term it is 1.0 (05 R114, R115). -/
def pixelFactor (s : State) (c : RenderCtx) (x line : Nat) : Look Nat :=
  if rpTerms c.rp = 0 then .ok 8192
  else do
    let g := c.geo.g
    let (u, al) := interp g (2 * ((8192 * c.stripe + x : Nat) : Int) + 1 - g)
    let (v, be) := interp g (2 * (line : Int) + 1 - g)
    let a ← node s c.dmap c.geo c.rp u v
    let b ← node s c.dmap c.geo c.rp (u + 1) v
    let d ← node s c.dmap c.geo c.rp u (v + 1)
    let e ← node s c.dmap c.geo c.rp (u + 1) (v + 1)
    .ok (blend al be a b d e)

/-- D of one pixel (05 R116). -/
def pixelDose (s : State) (c : RenderCtx) (ts : List Trap) (line x : Nat) : Look Nat := do
  let mp ← pixelFactor s c x line
  .ok (finalDose (rpDmax c.rp) (pixelS c.lm ts x line) mp)

/-- The doses of columns, in order. -/
def doses (s : State) (c : RenderCtx) (ts : List Trap) (line : Nat) : List Nat → Look (List Nat)
  | [] => .ok []
  | x :: t => do
    let d ← pixelDose s c ts line x
    let l ← doses s c ts line t
    .ok (d :: l)

/-- Segment k of a line: D(16·c + k, L) for c = 0 to 511 (05 R101). -/
def segmentDoses (s : State) (c : RenderCtx) (ts : List Trap) (line k : Nat) : Look (List Nat) :=
  doses s c ts line ((List.range 512).map (fun i => 16 * i + k))

/-- The 16 segments of a line (05 R101). -/
def lineSegments (s : State) (c : RenderCtx) (ts : List Trap) (line : Nat) : List Nat → Look (List (List Nat))
  | [] => .ok []
  | k :: t => do
    let d ← segmentDoses s c ts line k
    let l ← lineSegments s c ts line t
    .ok (d :: l)

/-- Everything a line needs, checked, and its 16 segments (05 R94, R101, R106-R116). -/
def renderLine (s : State) (j : JobRef) (dmap stripe line : Nat) : Look (List (List Nat)) := do
  let h ← streamHdr s j
  let t ← stripeHdr s j h (stripe - h.first)
  let ts ← binRecords s j t (line / 1024)
  let m ← mapHdr s dmap h
  lineSegments s { lm := lmap s, rp := rpImage s, dmap := dmap, geo := m, stripe := stripe - h.first } ts line (List.range 16)

/-! ### The density sweep (03 R71) -/

/-- Nearest integer to n / d, ties toward minus infinity, for d > 0 (03 R52, R58). -/
def divTn (n : Int) (d : Int) : Int := (2 * n + d - 1) / (2 * d)

/-- An edge's x at height y (03 R58, R71). -/
def edgeAt (x0 x1 y0 y1 y : Int) : Int := x0 + divTn ((x1 - x0) * (y - y0)) (y1 - y0)

/-- The interval of a trapezoid at the centre line of pixel line L, where that lies in [y0, y1), shifted to the job
frame by `dx` (03 R71; DEDUCED, unsafe, log 20). -/
def Trap.spanAt (t : Trap) (dx line : Int) : Option (Int × Int) :=
  let y := 16 * line + 8
  if t.y0 ≤ y ∧ y < t.y1 then
    some (dx + edgeAt t.xl0 t.xl1 t.y0 t.y1 y, dx + edgeAt t.xr0 t.xr1 t.y0 t.y1 y)
  else none

/-- Insert an interval by its start. -/
def insertSpan (p : Int × Int) : List (Int × Int) → List (Int × Int)
  | [] => [p]
  | q :: t => if p.1 ≤ q.1 then p :: q :: t else q :: insertSpan p t

/-- Length inside [lo, hi] of the union of intervals sorted by start; `from_` is the end of what is counted. -/
def unionLen (hi : Int) : Int → List (Int × Int) → Int
  | _, [] => 0
  | done, (a, b) :: t =>
    let a1 := max a done
    let b1 := min b hi
    if a1 < b1 then (b1 - a1) + unionLen hi b1 t else unionLen hi done t

/-- acc of a cell: over its lines and the classes with a weight, w_c × len_c(L) (03 R71). `ts` pairs each record with
the job-frame offset of its stripe. -/
def cellAcc (lm : List Byte) (g : Nat) (ts : List (Int × Trap)) (u v : Int) : Nat :=
  ((List.range g).map (fun k =>
    let line := (g : Int) * v + k
    ((List.range 16).map (fun c =>
      let w := classWeight lm c
      if w = 0 then 0
      else
        let spans := (ts.filter (fun p => p.2.cls == c)).filterMap (fun p => p.2.spanAt p.1 line)
        w * (unionLen (16 * g * (u + 1)) (16 * g * u) (spans.foldr insertSpan [])).toNat)).sum)).sum

/-- ρ of a cell (03 R71). -/
def cellDensity (lm : List Byte) (g : Nat) (ts : List (Int × Trap)) (u v : Int) : Nat :=
  min 65535 (cellAcc lm g ts u v * 65536 / (2048 * g * g))

/-- E_b: pairs of a line of the bin and an edge whose trapezoid crosses its centre (03 R71). -/
def edgeCrossings (b linesM1 : Nat) (ts : List Trap) : Nat :=
  ((List.range 1024).map (fun k =>
    let line := 1024 * b + k
    if linesM1 < line then 0 else 2 * (ts.filter (fun t => (t.spanAt 0 line).isSome)).length)).sum

/-- One tile of the map: 8,192 bytes (04 R97). -/
def tileBytes (lm : List Byte) (m : MapGeo) (ts : List (Int × Trap)) (tu tv : Nat) : List Byte :=
  (List.range 4096).flatMap (fun k =>
    let a := 64 * tu + k % 64
    let c := 64 * tv + k / 64
    leBytes 2 (if a < m.nu ∧ c < m.nv then cellDensity lm m.g ts ((a : Int) - m.margin) ((c : Int) - m.margin) else 0))

/-- The whole map region (04 R96, R97). -/
def mapBytes (lm : List Byte) (m : MapGeo) (h : SHdr) (ts : List (Int × Trap)) : List Byte :=
  let tiles := (List.range (m.ntu * m.ntv)).map (fun k => tileBytes lm m ts (k % m.ntu) (k / m.ntu))
  let checks := padTo 64 (tiles.flatMap (fun t => leBytes 4 (crc32c t).toNat))
  let h60 := m.header h
  h60 ++ leBytes 4 (crc32c (h60 ++ checks)).toNat ++ checks ++ tiles.flatten

end Sys2Proof.Machine
end

