-- ==== Sys2Proof/Machine/SegCode.lean ====
section
/-! DEFINITION. The segment code (06 R135-R144): code tables, encoder, decoder, folded check values, and the dynamic
table of a stripe. -/

namespace Sys2Proof.Machine

/-! ### Code tables (06 R137, R138) -/

/-- A code table entry: kind 0 RUN, 1 DELTA, 2 SET, 3 unused (06 R137). -/
structure CEntry where
  kind : Nat
  base : Int
  xbits : Nat
  len : Nat
  deriving DecidableEq, Repr

/-- An unused entry. -/
def CEntry.unused : CEntry where
  kind := 3
  base := 0
  xbits := 0
  len := 0

/-- An entry from its numbers. -/
def centry (k : Nat) (b : Int) (x l : Nat) : CEntry where
  kind := k
  base := b
  xbits := x
  len := l

/-- Entries 0-25 of the static table (06 R138). -/
def staticHead : List CEntry :=
  [centry 2 0 0 2, centry 2 0 9 6, centry 0 1 0 3, centry 0 2 0 4, centry 0 3 1 4, centry 0 5 2 5, centry 0 9 3 5,
    centry 0 17 4 6, centry 0 33 5 7, centry 0 65 6 8, centry 0 129 7 8, centry 0 257 8 6, centry 1 1 0 3] ++
  [centry 1 (-1) 0 3, centry 1 2 0 5, centry 1 (-2) 0 5, centry 1 3 1 6, centry 1 (-4) 1 6, centry 1 5 2 7,
    centry 1 (-8) 2 7, centry 1 9 3 8, centry 1 (-16) 3 8, centry 1 17 4 9, centry 1 (-32) 4 9, centry 1 33 5 9,
    centry 1 (-64) 5 9]

/-- The static table: 64 entries (06 R138). -/
def staticTable : List CEntry := staticHead ++ List.replicate 38 CEntry.unused

/-- An entry of its 32 bits (06 R137). -/
def CEntry.ofNat (v : Nat) : CEntry := centry (v % 4) (signedNat 10 (v / 2 ^ 6)) (v / 4 % 16) (v / 2 ^ 16 % 16)

/-- The 32 bits of an entry (06 R137). -/
def CEntry.toNat (e : CEntry) : Nat := packFields [(0, 2, e.kind), (2, 4, e.xbits), (6, 10, raw 10 e.base), (16, 4, e.len)]

/-- Code lengths of a table, 0 for an unused entry (06 R137). -/
def tableLens (t : List CEntry) : List Nat := t.map (fun e => if e.kind = 3 then 0 else e.len)

/-- Entry e of a table. -/
def tableAt (t : List CEntry) (e : Nat) : CEntry := t.getD e CEntry.unused

/-! ### The encoder (06 R139) -/

/-- The RUN entry in use with the largest base not above `run`. -/
def bestRun (t : List CEntry) (run : Nat) : Option Nat :=
  (List.range t.length).foldl (fun b e =>
    let x := tableAt t e
    if x.kind = 0 ∧ x.base ≤ run then
      match b with
      | none => some e
      | some a => if (tableAt t a).base < x.base then some e else some a
    else b) none

/-- Entry e yields value v from previous value p, with extra value x. -/
def yields (e : CEntry) (p v : Int) : Option Nat :=
  let d := v - e.base - (if e.kind = 1 then p else 0)
  if (e.kind = 1 ∨ e.kind = 2) ∧ 0 ≤ d ∧ d < (2 ^ e.xbits : Nat) then some d.toNat else none

/-- The SET or DELTA entry that yields v from p with the smallest LEN + XBITS, ties to the lowest index. -/
def bestValue (t : List CEntry) (p v : Int) : Option (Nat × Nat) :=
  (List.range t.length).foldl (fun b e =>
    match yields (tableAt t e) p v with
    | none => b
    | some x =>
      match b with
      | none => some (e, x)
      | some (a, y) =>
        if (tableAt t e).len + (tableAt t e).xbits < (tableAt t a).len + (tableAt t a).xbits then some (e, x)
        else some (a, y)) none

/-- Tokens of a run of `run` equal values: entry, extra value. -/
def runTokens (t : List CEntry) : Nat → Nat → List (Nat × Nat)
  | 0, _ => []
  | fuel + 1, run =>
    if run = 0 then []
    else
      match bestRun t run with
      | none => []
      | some e =>
        let b := (tableAt t e).base.toNat
        let n := min run (b + 2 ^ (tableAt t e).xbits - 1)
        (e, n - b) :: runTokens t fuel (run - n)

/-- Length of the run of `p` at the front. -/
def runLength (p : Nat) : List Nat → Nat
  | [] => 0
  | v :: t => if v = p then runLength p t + 1 else 0

/-- The tokens of a segment (06 R139). -/
def segTokens (t : List CEntry) : Nat → Nat → List Nat → List (Nat × Nat)
  | 0, _, _ => []
  | _ + 1, _, [] => []
  | fuel + 1, p, v :: l =>
    if v = p then
      let n := runLength p (v :: l)
      runTokens t 600 n ++ segTokens t fuel p ((v :: l).drop n)
    else
      match bestValue t p v with
      | none => segTokens t fuel v l
      | some k => k :: segTokens t fuel v l

/-- The bits of tokens: prefix code most significant bit first, extra bits least significant first (06 R136). -/
def tokenBits (t : List CEntry) (lens : List Nat) : List (Nat × Nat) → List Bool
  | [] => []
  | (e, x) :: l => msbBits (lens.getD e 0) (codeOf lens e) ++ lsbBits (tableAt t e).xbits x ++ tokenBits t lens l

/-- A coded segment: kind and bytes (06 R139). `kind` is the table's. -/
def encodeSeg (t : List CEntry) (kind : Nat) (v : List Nat) : Nat × List Byte :=
  let b := bitsBytes (tokenBits t (tableLens t) (segTokens t 600 0 v))
  if b.length ≤ 576 then (kind, b) else (3, bitsBytes (v.flatMap (lsbBits 9)))

/-! ### The decoder (06 R140) -/

/-- Decode tokens until 512 values are out (06 R140). `acc` is newest first. -/
def decodeTokens (t : List CEntry) (ws : List (Nat × Nat × Nat)) : Nat → Int → List Bool → List Nat →
    Option (List Bool × List Nat)
  | 0, _, _, _ => none
  | fuel + 1, p, l, acc =>
    if acc.length = 512 then some (l, acc)
    else
      match readSym ws 15 0 0 l with
      | none => none
      | some (e, l1) =>
        let c := tableAt t e
        match takeBits c.xbits l1 with
        | none => none
        | some (x, l2) =>
          if c.kind = 0 then
            let n := (c.base + x).toNat
            if 512 < acc.length + n then none
            else decodeTokens t ws fuel p l2 (List.replicate n p.toNat ++ acc)
          else
            let v := c.base + x + (if c.kind = 1 then p else 0)
            if v < 0 ∨ 511 < v then none else decodeTokens t ws fuel v l2 (v.toNat :: acc)

/-- The values of a coded segment, or none where the decoder rejects it (06 R140). -/
def decodeSeg (t : List CEntry) (kind : Nat) (b : List Byte) : Option (List Nat) :=
  let bs := bytesBits b
  if kind = 3 then
    if b.length = 576 then some ((List.range 512).map (fun c => bitsVal ((bs.drop (9 * c)).take 9))) else none
  else
    match decodeTokens t (codeWords (tableLens t)) 600 0 bs [] with
    | none => none
    | some (l, acc) => if l.length < 8 ∧ l.all (fun x => !x) then some acc.reverse else none

/-! ### Identity tags and check values (06 R135) -/

/-- The 8-byte identity tag of a segment (06 R135). -/
def segTag (stripe line subr kind flow ctab : Nat) : List Byte :=
  leBytes 8 (packFields [(0, 16, stripe), (16, 24, line), (40, 4, subr), (44, 4, kind), (48, 8, flow),
    (56, 8, if kind = 2 then ctab else 0)])

/-- The folded check value of a segment (06 R135). -/
def segCheck (tag coded : List Byte) : BitVec 32 := crc32c (tag ++ coded)

/-- A segment in the form for transfer outside the store, padded to 16 bytes (06 R150). -/
def transferForm (tag : List Byte) (kind : Nat) (coded : List Byte) : List Byte :=
  padTo 16 (tag ++ leBytes 8 (packFields [(0, 10, coded.length), (12, 4, kind), (16, 32, (segCheck tag coded).toNat)]) ++ coded)

/-! ### Dynamic tables (06 R142-R144) -/

/-- Uses of the static entries and the escaped values of a segment's tokens (06 R143 step 1). -/
def countTokens (l : List (Nat × Nat)) (c : List Nat × Tbl Nat) : List Nat × Tbl Nat :=
  l.foldl (fun c k =>
    (c.1.set k.1 (c.1.getD k.1 0 + 1), if k.1 = 1 then tput c.2 k.2 ((tget c.2 k.2).getD 0 + 1) else c.2)) c

/-- Insert a (value, count) pair: count highest first, ties to the lower value (06 R143 step 2). -/
def insertCount (p : Nat × Nat) : List (Nat × Nat) → List (Nat × Nat)
  | [] => [p]
  | q :: t => if q.2 < p.2 ∨ (q.2 = p.2 ∧ p.1 < q.1) then p :: q :: t else q :: insertCount p t

/-- The smallest ℓ of 1-15 with count·2^ℓ ≥ T, or 15 (06 R143 step 4). -/
def startLen (count t : Nat) : Nat :=
  (((List.range 15).map (· + 1)).find? (fun l => decide (t ≤ count * 2 ^ l))).getD 15

/-- The entry to lengthen: smallest count among ℓ < 15, ties to the highest index (06 R143 step 5). -/
def lengthenAt (counts lens : List Nat) : Option Nat :=
  (List.range lens.length).foldl (fun b i =>
    if lens.getD i 0 = 0 ∨ 15 ≤ lens.getD i 0 then b
    else
      match b with
      | none => some i
      | some a => if counts.getD i 0 ≤ counts.getD a 0 then some i else some a) none

/-- Lengthen until K ≤ 32,768 (06 R143 step 5). -/
def lengthen (counts : List Nat) : Nat → List Nat → List Nat
  | 0, lens => lens
  | fuel + 1, lens =>
    if kraft lens ≤ 32768 then lens
    else
      match lengthenAt counts lens with
      | none => lens
      | some i => lengthen counts fuel (lens.set i (lens.getD i 0 + 1))

/-- The indices in order of count, highest first, ties to the lowest index (06 R143 step 6). -/
def countOrder (counts : List Nat) : List Nat :=
  (((List.range counts.length).map (fun i => (i, counts.getD i 0))).foldr insertCount []).map (·.1)

/-- The one shortening pass (06 R143 step 6). -/
def shorten : List Nat → List Nat → List Nat
  | [], lens => lens
  | i :: t, lens =>
    let l := lens.getD i 0
    shorten t (if 1 < l ∧ kraft lens + 2 ^ (15 - l) ≤ 32768 then lens.set i (l - 1) else lens)

/-- The dynamic table of a stripe from its trial segments (06 R143). -/
def buildTable (segs : List (List Nat)) : List CEntry :=
  let c0 := segs.foldl (fun c v => countTokens (segTokens staticTable 600 0 v) c) (List.replicate 26 0, [])
  let top := ((c0.2.filter (fun p => decide (2 ≤ p.2))).foldr insertCount []).take 38
  let rest := ((c0.2.filter (fun p => !top.contains p)).map (·.2)).sum
  let counts := ((List.range 26).map (fun e => max 1 (if e = 1 then rest else c0.1.getD e 0))) ++ top.map (·.2)
  let total := counts.sum
  let lens := shorten (countOrder counts) (lengthen counts 1000 (counts.map (fun n => startLen n total)))
  let ents := staticHead ++ top.map (fun p => centry 2 p.1 0 0)
  (List.range 64).map (fun e => if e < ents.length then { ents.getD e CEntry.unused with len := lens.getD e 0 } else CEntry.unused)

/-- The 272 bytes of a stripe's table (06 R142). -/
def tableBytes (stripe : Nat) (t : List CEntry) : List Byte :=
  let b := t.flatMap (fun e => leBytes 4 e.toNat) ++ leBytes 12 (packFields [(0, 16, stripe), (16, 1, 1)])
  b ++ leBytes 4 (crc32c b).toNat

/-- The header of a code table region (06 R142). -/
def tableRegionHdr (h : SHdr) (rp : BitVec 32) : List Byte :=
  let b := leBytes 16 (packFields [(0, 32, 0x435A4C46), (32, 16, 1), (48, 16, h.first), (64, 16, h.count)]) ++
    leBytes 16 (packFields [(0, 32, h.crc), (32, 32, h.lmapCrc), (64, 32, rp.toNat)]) ++ List.replicate 28 0
  b ++ leBytes 4 (crc32c b).toNat

/-- The region header is right for a stream and the active images (06 R144). -/
def tableRegionOk (s : State) (h : SHdr) (b : List Byte) : Bool := b == tableRegionHdr h (rpCrc s) && h.lmapCrc == (lmapCrc s).toNat

/-- The entries of a table's bytes. -/
def tableEntries (b : List Byte) : List CEntry := (List.range 64).map (fun e => CEntry.ofNat (leAt b (4 * e) 4))

/-- A table may be used (06 R144). -/
def tableOk (b : List Byte) : Bool :=
  let es := tableEntries b
  let raws := (List.range 64).map (fun e => leAt b (4 * e) 4)
  let sets := (es.filter (fun e => e.kind == 2 && e.xbits == 0)).map (·.base)
  blk b 16 16 1 == 1 && crc32c (b.take 268) == BitVec.ofNat 32 (blk b 16 96 32) &&
  raws.all (fun v => v / 2 ^ 20 == 0) &&
  (List.range 26).all (fun i =>
    let e := tableAt es i
    let f := tableAt staticTable i
    e.kind == f.kind && e.base == f.base && e.xbits == f.xbits && decide (1 ≤ e.len)) &&
  (List.range 38).all (fun i =>
    let e := tableAt es (26 + i)
    (e.kind == 2 && e.xbits == 0 && decide (0 ≤ e.base ∧ e.base ≤ 480 ∧ 1 ≤ e.len)) || raws.getD (26 + i) 0 == 3) &&
  decide sets.Nodup && decide (kraft (tableLens es) ≤ 32768)

/-- The code table of stripe index i: the bytes where region and table pass R144 (06 R142, R144). -/
def readTable (s : State) (h : SHdr) (i : Nat) : Option (List Byte) :=
  let a := s.cfg.act.ctabAddr
  let b := hbmRead s (a + 64 + 272 * i) 272
  if tableRegionOk s h (hbmRead s a 64) ∧ tableOk b ∧ blk b 16 0 16 = h.first + i then some b else none

end Sys2Proof.Machine
end

