-- ==== Sys2Proof/Machine/ScanPlan.lean ====
section
/-! DEFINITION. The exposing stripe's job, and the approach of the profile generator to it (10 R220-R226, 11 R250). -/

namespace Sys2Proof.Machine

/-! ### The EXPOSE_STRIPE parameter block (11 R250) -/

/-- The parameter block of a stripe. -/
structure StripeJob where
  j : JobRef
  neg : Bool
  resume : Bool
  stripe : Nat
  fMax : Nat
  ys : Int
  dmap : Nat
  ctabChk : Nat
  rpCrc : Nat
  lmapCrc : Nat
  btabCrc : Nat
  deriving DecidableEq, Repr

/-- The fields of a stripe's parameter block (11 R250). -/
def StripeJob.of (f : BitVec 8) (p : List Byte) : StripeJob where
  j := { space := blk p 0 64 2, flow := f.toNat, addr := blk p 0 0 64 }
  neg := blk p 0 66 1 == 1
  resume := blk p 0 67 1 == 1
  stripe := blk p 0 80 16
  fMax := blk p 0 96 32
  ys := blkInt p 1 0 48
  dmap := blk p 1 64 64
  ctabChk := blk p 2 0 64
  rpCrc := blk p 3 0 32
  lmapCrc := blk p 3 32 32
  btabCrc := blk p 3 64 32

/-- The job of an item whose block is present. -/
def Item.job (i : Item) : Option StripeJob := i.params.map (StripeJob.of i.flow)

/-- The item of the stripe in the sequencer. -/
def curItem (s : State) : Option Item :=
  match s.seq.item with
  | some (f, q) => findItem s f q
  | none => none

/-- The job of the stripe in the sequencer. -/
def curJob (s : State) : Option StripeJob := (curItem s).bind Item.job

/-- The checked stream header and stripe of a job (04 R94). -/
def jobStripe (s : State) (j : StripeJob) : Look (SHdr × Strp) := do
  let h ← streamHdr s j.j
  need (decide (h.first ≤ j.stripe ∧ j.stripe < h.first + h.count)) (badAt 1 0 0 0 0)
  let t ← stripeHdr s j.j h (j.stripe - h.first)
  .ok (h, t)

/-- Offset of the census record of a stripe in the stream (04 R84). -/
def Strp.censusOff (t : Strp) : Nat := t.off + 64

/-- The census block of a job's stripe, which must exist (04 R86); its absence is kind 3 of R95. -/
def jobCensus (s : State) (j : StripeJob) : Look (SHdr × Strp × List Byte) := do
  let (h, t) ← jobStripe s j
  let b ← censusBytes s j.j t
  need (censusPresent b) (badAt 3 j.stripe 0 0 t.censusOff)
  .ok (h, t, b)

/-- P in nm of a pitch code (03 R48). -/
def pitchNm (p : Nat) : Nat :=
  match p with
  | 0 => 8
  | 1 => 10
  | 2 => 12
  | _ => 16

/-! ### Speeds and distances (10 R223-R225) -/

/-- f_w in Hz (10 R224). -/
def writeRate (fs vmax p : Nat) : Nat := 1000 * (min fs (min (vmax * 1000 / p) 2000000) / 1000)

/-- n / d rounded up, for d > 0. -/
def ceilDiv (n d : Nat) : Nat := (n + d - 1) / d

/-- The least number whose square is at least `n`. -/
def ceilSqrt (n : Nat) : Nat := if Nat.sqrt n * Nat.sqrt n = n then Nat.sqrt n else Nat.sqrt n + 1

/-- d_acc: the distance in lines to reach v_w = P·f_w from rest, rounded up (10 R223, R225). `a` in mm/s², `jk` in m/s³. -/
def accLines (shape a jk p fw : Nat) : Nat :=
  if shape = 0 then ceilDiv (p * fw * fw) (2 * a * 1000000)
  else if 1000 * a * a ≤ p * fw * jk then ceilDiv (fw * (p * fw * jk + 1000 * a * a)) (2000000 * a * jk)
  else ceilSqrt (ceilDiv (fw * fw * fw * p) (1000000000 * jk))

/-- d_set: the larger of `settle` and the lines covered in 200 µs (10 R225). -/
def setLines (settle fw : Nat) : Nat := max settle (ceilDiv fw 5000)

/-- dir as ±1. -/
def StripeJob.dir (j : StripeJob) : Int := if j.neg then -1 else 1

/-- Coordinate of line λ (10 R220). -/
def StripeJob.at (j : StripeJob) (line : Int) : Int := j.ys + 16 * j.dir * line

/-- The plan of an approach: f_w, λ_a and the line at which the stage is at rest again (10 R224-R226). -/
structure Approach where
  fw : Nat
  lamA : Int
  stop : Int
  deriving DecidableEq, Repr

/-- The plan for first flash n0 and last flash n_last (10 R224, R225). -/
def approachOf (prof : List Byte) (p fs : Nat) (n0 nLast : Int) : Approach :=
  let fw := writeRate fs (profV prof) p
  let d := accLines (profShape prof) (profA prof) (profJ prof) p fw
  { fw := fw, lamA := n0 - d - setLines (profSettle prof) fw, stop := nLast + 1 + d }

/-- A coordinate lies within the travel limits (10 R226). -/
def inLimits (prof : List Byte) (x : Int) : Bool := decide (profMin prof ≤ x ∧ x ≤ profMax prof)

/-- The whole path of a stripe or resume stays within the limits (10 R226). -/
def pathOk (prof : List Byte) (j : StripeJob) (a : Approach) : Bool :=
  inLimits prof (j.at a.lamA) && inLimits prof (j.at a.stop)

/-- A move from rest at the setpoint to a target along the profile (10 R223). -/
def moveTo (prof : List Byte) (from_ target : Int) : Move where
  params := [0, from_, target, profV prof, profA prof, profJ prof, profShape prof]
  target := target

/-- Raise an event of an approach once per stripe, by its flag (10 R226, R491). -/
def raiseOnce (done : Bool) (code : Nat) (mark : Scan → Scan) (s : State) : State :=
  if done then s else raise code .trk 0 { s with scan := mark s.scan }

/-- The stripe's stream or map structure failed at its approach: the event, the detail kept in the item, and a stop with
cause 13 before the first flash (04 R95, R100, 10 R224). -/
def stopBad (b : Bad) (s : State) : State :=
  match b with
  | .stall => s
  | _ =>
    let s1 := raiseBad b s
    let s2 :=
      match curItem s1 with
      | some i => if i.detail = 0 then putItem { i with detail := badDetail b } s1 else s1
      | none => s1
    boundaryStop 13 s2

/-- Try to start the approach of the stripe in FILLING: profile, homing, census record, path, interlocks (10 R224-R226,
R231, R491). -/
def tryApproach (s : State) : State :=
  if s.seq.st = .filling ∧ s.scan.st = .idle then
    match curJob s with
    | none => s
    | some j =>
      if s.scan.profile.isNone then
        raiseOnce s.scan.raisedNoProfile 0x0926 (fun c => { c with raisedNoProfile := true }) s
      else if !s.scan.homed then
        raiseOnce s.scan.raisedNotHomed 0x0923 (fun c => { c with raisedNotHomed := true }) s
      else
        match jobCensus s j with
        | .error b => stopBad b s
        | .ok (h, _, c) =>
          let prof := profileBytes s
          let a := approachOf prof (pitchNm h.pitch) (censusFs c) s.seq.n0 s.seq.nLast
          let x := j.at a.lamA
          if pathOk prof j a = false then
            raiseOnce s.scan.raisedSoft 0x0922 (fun c => { c with raisedSoft := true })
              (if s.scan.raisedSoft then s else stat (sk 0x09020001 0x300) s)
          else if moveForbidden s s.scan.pos x then s
          else
            stat (sk 0x09020001 1)
              { s with
                scan := { s.scan with
                  st := .moving
                  move := some (moveTo prof s.scan.pos x)
                  k := 0
                  fw := a.fw
                  lamA := a.lamA
                  ys := j.ys }
                trk := { s.trk with newFrame := some (countOf s j.ys, j.dir) } }
  else s

end Sys2Proof.Machine
end

