-- ==== Sys2Proof/Machine/StoreOps.lean ====
section
/-! DEFINITION. Writing and reading segments (06 R133-R151), the fill of a stripe and the dispatch of lines
(05 R102-R105, R123). -/

namespace Sys2Proof.Machine

/-! ### The code in force -/

/-- `ctab` of a stripe's identity tags: the low byte of `tab_crc` (06 R135). -/
def ctabByte (s : State) : Nat := ((s.store.ctab.map (fun b => blk b 16 96 32)).getD 0) % 256

/-- Table and kind that code the exposing stripe (06 R141). -/
def codeTable (s : State) : List CEntry × Nat :=
  match s.store.ctab with
  | some b => (tableEntries b, 2)
  | none => (staticTable, 1)

/-! ### Writing a segment (06 R133, R145-R147) -/

/-- A slot record. -/
def mkSlot (len where_ kind : Nat) (check : BitVec 32) (body : List Byte) (blocks : List Nat) (st : Nat) : Slot where
  len := len
  where_ := where_
  kind := kind
  check := check
  body := body
  blocks := blocks
  st := st
  reads := 0
  ecc := false

/-- Spill a segment: its slot is PENDING, its bytes go to HBM; the first spill raises SPILL_STARTED (06 R146, R147). -/
def spillSeg (n line kind : Nat) (check : BitVec 32) (coded : List Byte) (s : State) : State :=
  let s1 := hbmWrite (spillBase + 576 * n) coded
    (statAdd (sk 0x03050000 10) coded.length (setSlot n (mkSlot coded.length 2 kind check [] [] 1) s))
  if s1.store.spillRaised then s1
  else
    raise 0x0354 .store (detail [du 16 s.seq.stripe, du 32 line])
      { s1 with store := { s1.store with spillRaised := true } }

/-- Write a segment to the slot of (line, k): a second copy is discarded and counted; else slot, pool or spill area
(06 R133, R145, 01 R16). -/
def writeSeg (line k kind : Nat) (check : BitVec 32) (coded : List Byte) (peer : Bool) (s : State) : State :=
  let n := slotOf line k
  match slot s n with
  | some _ => stat (sk 0x03050000 2) s
  | none =>
    let s1 := stat (sk 0x03050000 (if peer then 1 else 0)) (stat (sk 0x03050000 (0x40 + (coded.length - 1) / 16)) s)
    if coded.length ≤ 138 then setSlot n (mkSlot coded.length 0 kind check coded [] 2) s1
    else
      let m := (coded.length + 63) / 64
      if m ≤ freeBlocks s1 then
        let r := takeBlocks m s1
        putBlocks r.1 coded (setSlot n (mkSlot coded.length 1 kind check [] r.1 2) r.2)
      else spillSeg n line kind check coded s1

/-- The tag of a segment of the exposing stripe (06 R135). -/
def stripeTag (s : State) (line k kind : Nat) : List Byte :=
  segTag s.seq.stripe line k kind ((s.seq.item.map (fun p => p.1.toNat)).getD 0) (ctabByte s)

/-- Write the segments of a line that a local core rendered, from sub-raster `k` on (05 R101, 06 R139). -/
def writeLine (line : Nat) : Nat → List (List Nat) → State → State
  | _, [], s => s
  | k, v :: t, s =>
    let c := codeTable s
    let e := encodeSeg c.1 c.2 v
    writeLine line (k + 1) t (writeSeg line k e.1 (segCheck (stripeTag s line k e.1) e.2) e.2 false s)

/-! ### Render-ready (05 R104) -/

/-- The lines of the fill before n0 (05 R104). -/
def fillLines (n0 : Int) (linesM1 : Nat) : List Nat :=
  let lo := (n0 - 8183).toNat
  let hi := min (n0 + 8) (linesM1 : Int)
  (List.range (hi + 1 - lo).toNat).map (lo + ·)

/-- Report the stripe render-ready once every segment of its fill is VALID (05 R104). -/
def checkReady (s : State) : State :=
  if s.seq.st = .filling ∧ s.rnd.ready = false ∧ (fillLines s.seq.n0 s.seq.linesM1).all (lineValid s) then
    { s with rnd := { s.rnd with ready := true } }
  else s

/-- The class X lines that wait when FILLING begins: from the first of the fill up to the last that R129 admits. -/
def xLines (s : State) (f : BitVec 8) (q : BitVec 64) : List RLine :=
  let lo := (s.seq.n0 - 8183).toNat
  let hi := min (s.seq.n0 - 1 + 504) (s.seq.linesM1 : Int)
  (List.range (hi + 1 - lo).toNat).map (fun i =>
    { cls := 0, flow := f, seq := q, req := none, stripe := s.seq.stripe, line := lo + i })

/-- Begin the fill of the stripe in the sequencer (05 R104, 06 R129). -/
def beginFill (f : BitVec 8) (q : BitVec 64) (s : State) : State :=
  checkReady { s with rnd := { s.rnd with waiting := s.rnd.waiting ++ xLines s f q, ready := false, badLine := none } }

/-- Flash n has fired: the row of line n − 8,183 is released, and line n + 504 is admitted (06 R129, R130). -/
def fillStep (n : Int) (s : State) : State :=
  let s1 := if 8183 ≤ n then releaseRow (n - 8183).toNat s else s
  match s.seq.item with
  | none => s1
  | some (f, q) =>
    if 0 ≤ n + 504 ∧ n + 504 ≤ (s.seq.linesM1 : Int) then
      { s1 with rnd := { s1.rnd with waiting := s1.rnd.waiting ++
          [{ cls := 0, flow := f, seq := q, req := none, stripe := s.seq.stripe, line := (n + 504).toNat }] } }
    else s1

/-! ### Reading for a flash (06 R148, R149) -/

/-- Bytes of a segment as they lie where the slot says (06 R131). -/
def segBytes (s : State) (n : Nat) (x : Slot) : List Byte :=
  match x.where_ with
  | 0 => x.body
  | 1 => (x.blocks.flatMap (fun b => (tget s.store.pool b).getD (List.replicate 64 0))).take x.len
  | _ => hbmRead s (spillBase + 576 * n) x.len

/-- Why a read failed: the event, whether the rate is to be lowered (late), and whether a second failure of the same
segment ends the stripe (06 R149). -/
structure ReadBad where
  event : Nat
  late : Bool
  counts : Bool
  deriving DecidableEq, Repr

/-- A failed read. -/
def readBad (event : Nat) (late counts : Bool) : ReadBad where
  event := event
  late := late
  counts := counts

/-- Check and decode the segment in slot n (06 R149). -/
def readSlot (s : State) (bad : Bool) (line k n : Nat) : Except ReadBad (List Nat) :=
  match slot s n with
  | none => .error (readBad 0x0340 true false)
  | some x =>
    if x.st ≠ 2 ∨ (x.where_ = 2 ∧ s.store.spillReady.contains n = false) then .error (readBad 0x0352 true false)
    else if x.ecc then .error (readBad 0x0355 false true)
    else
      let b := segBytes s n x
      if bad ∨ segCheck (stripeTag s line k x.kind) b ≠ x.check then .error (readBad 0x0350 false true)
      else
        match decodeSeg (codeTable s).1 x.kind b with
        | none => .error (readBad 0x0351 false true)
        | some v => if v.any (fun d => decide (rpDmax (rpImage s) < d)) then .error (readBad 0x0224 false true) else .ok v

/-- The line that row r reads at flash n (07 R155). -/
def rowLine (s : State) (n : Int) (r : Nat) : Int := n - 16 * r - rowTrim (btab s) r

/-- A row with no segment at flash n (07 R155). -/
def rowEmpty (s : State) (n : Int) (r : Nat) : Bool :=
  let l := rowLine s n r
  decide (l < 0 ∨ (s.seq.linesM1 : Int) < l)

/-- The read of a slot is counted, and a spilled segment must be fetched again (06 R132, R147). -/
def countRead (n : Nat) (s : State) : State :=
  match slot s n with
  | none => s
  | some x =>
    let s1 := setSlot n { x with reads := x.reads + 1 } s
    if x.where_ = 2 then
      { s1 with store := { s1.store with spillReady := s1.store.spillReady.filter (· != n) } }
    else s1

/-- The frame of a row with given levels (07 R158, R159). `badCheck` inverts `fcheck` (13 R322 fault 4). -/
def mkFrame (s : State) (n : Int) (r : Nat) (levels : List Nat) (badCheck : Bool) : Frame :=
  let tag := packFields [(0, 16, s.seq.stripe), (16, 32, raw 32 n), (48, 9, r), (57, 1, b2n (decide (n = s.seq.n0))),
    (58, 1, b2n (decide (n = s.seq.nLast))), (59, 1, s.cfg.act.condEnable), (60, 4, 0xA)]
  let ws := (List.range 16).map (fun i =>
    BitVec.ofNat 128 (packFields ((List.range 32).map (fun c => (4 * c, 4, levels.getD (32 * i + c) 0)))))
  let c := crc32c (leBytes 8 tag ++ wordsBytes ws)
  let c' := if badCheck then ~~~c else c
  { flash := n, row := r, words := BitVec.ofNat 128 (tag + c'.toNat * 2 ^ 96) :: ws }

/-- A failed segment joins the list of those that have failed once; a second failure ends the stripe (06 R149). -/
def noteFailure (line k : Nat) (b : ReadBad) (s : State) : State :=
  let again := s.seq.failed.contains (line, k)
  { s with seq := { s.seq with
      secondFail := s.seq.secondFail || (b.counts && again)
      failed := if b.counts && !again then (line, k) :: s.seq.failed else s.seq.failed
      late := s.seq.late || b.late } }

/-- The detail of a failed read: stripe, line, sub-raster, flash, slot and `where` (06 R149). -/
def readDetail (s : State) (line k : Nat) (n : Int) : W128 :=
  let m := slotOf line k
  detail [du 16 s.seq.stripe, du 32 line, du 8 k, ds 32 n, du 32 m, du 8 (((slot s m).map (·.where_)).getD 0)]

/-- Read rows in order: their frames, newest first, or the state after the first failure (06 R148, R149). -/
def readRows (n : Int) : List Nat → List Frame → State → Option (List Frame) × State
  | [], acc, s => (some acc, s)
  | r :: t, acc, s =>
    let k := r % 16
    let (inv, s0) := if r < 76 then injected 4 (fun p => p.toNat == r) s else (false, s)
    if rowEmpty s0 n r then readRows n t (mkFrame s0 n r (List.replicate 512 0) inv :: acc) (stat (sk 0x03060001 2) s0)
    else
      let line := (rowLine s0 n r).toNat
      let m := slotOf line k
      let (bad, s1) := injected 1 (fun _ => true) s0
      match readSlot s1 bad line k m with
      | .error e =>
        let s2 := noteFailure line k e (raise e.event .store (readDetail s1 line k n) (stat (sk 0x03050000 (0x80 + e.event % 16)) s1))
        (none, s2)
      | .ok v => readRows n t (mkFrame s1 n r (rowLevels (btab s1) r v) inv :: acc) (countRead m s1)

/-- The first line that flash n reads of the lines from row 0 down: a flash needs line L first at L + d_0 (05 R105). -/
def needsBad (s : State) (n : Int) : Bool :=
  match s.rnd.badLine with
  | none => false
  | some l => decide ((l : Int) + rowTrim (btab s) 0 ≤ n)

/-- The reads for flash n: its frames leave the device, or the stripe stops before it with cause 1 or 13 (06 R148,
R149, 07 R156-R158, 04 R95). -/
def flashReads (n : Int) (s : State) : State :=
  if needsBad s n then boundaryStop 13 s
  else
    match readRows n (List.range 512) [] s with
    | (none, s1) => boundaryStop 1 s1
    | (some fs, s1) =>
      emit (.flashFrames n fs.reverse)
        (statAdd (sk 0x03060001 1) 512 { s1 with seq := { s1.seq with framed := some n } })

/-! ### Dispatch (05 R102, R103, R123) -/

/-- Core i accepts class X lines only (05 R102). -/
def reserved (s : State) (i : Nat) : Bool :=
  let n := s.cfg.act.xReserve
  decide (i < (n + 1) / 2) || decide (16 ≤ i ∧ i < 16 + n / 2)

/-- The lowest free core among those that `p` picks. -/
def freeCore (s : State) (p : Nat → Bool) : Option (Fin 32) :=
  ((List.finRange 32).find? (fun i => (s.rnd.cores[i]).isNone && p i.val))

/-- A line that a peer has been asked for and whose deadline has not come (05 R123; DEDUCED, unsafe, log 21). -/
def offloaded (s : State) (line : Nat) : Bool :=
  s.rnd.offloads.any (fun q => !q.expired && decide (q.lineFirst ≤ line ∧ line ≤ q.lineLast))

/-- A waiting class X line can be dispatched: its row is FREE, or a peer has filled part of it and its deadline has
come (05 R103, R123, 06 R129). -/
def xDispatchable (s : State) (r : RLine) : Bool :=
  decide ((r.line : Int) ≤ s.seq.f + 504) && !offloaded s r.line &&
    (rowFree s r.line || s.rnd.offloads.any (fun q => decide (q.lineFirst ≤ r.line ∧ r.line ≤ q.lineLast)))

/-- The lowest-numbered line of class X that can be dispatched (05 R102). -/
def nextX (s : State) : Option RLine :=
  (s.rnd.waiting.filter (fun r => r.cls == 0 && xDispatchable s r)).foldl (fun b r =>
    match b with
    | none => some r
    | some a => if r.line < a.line then some r else some a) none

/-- The first waiting line of a class (05 R102). -/
def nextOf (s : State) (cls : Nat) : Option RLine := s.rnd.waiting.find? (fun r => r.cls == cls)

/-- The next line of the highest class and the core that takes it: X on any core, else R, else B on an unreserved one
(05 R102). -/
def nextDispatch (s : State) : Option (RLine × Fin 32) :=
  match nextX s with
  | some r => (freeCore s (fun _ => true)).map (fun c => (r, c))
  | none =>
    match (nextOf s 2).or (nextOf s 3) with
    | none => none
    | some r => (freeCore s (fun i => !reserved s i)).map (fun c => (r, c))

/-- A line leaves the waiting list for a core. -/
def assign (r : RLine) (c : Fin 32) (s : State) : State :=
  { s with rnd := { s.rnd with
      waiting := s.rnd.waiting.erase r
      cores := s.rnd.cores.set c.val (some r) } }

/-- A waiting line is dropped. -/
def dropLine (r : RLine) (s : State) : State := { s with rnd := { s.rnd with waiting := s.rnd.waiting.erase r } }

/-! ### Offload (05 R123, R124) -/

/-- First read of a line: flash L + d_0 (05 R123, 07 R155). -/
def leadOf (s : State) (line : Nat) : Int := (line : Int) + rowTrim (btab s) 0 - s.seq.f

/-- Rendered lines that lie ahead of the first read (05 R123). -/
def linesAhead (s : State) : Nat :=
  ((List.range 504).filter (fun i =>
    let l := s.seq.f + 1 + (i : Int) - rowTrim (btab s) 0
    decide (0 ≤ l ∧ l ≤ (s.seq.linesM1 : Int)) && lineValid s l.toNat)).length

/-- The unrendered, unoffered lines to offer next: at most 64, in one bin (05 R123). -/
def offerLines (s : State) : List Nat :=
  let ls := (s.rnd.waiting.filter (fun r => r.cls == 0 &&
    !(s.rnd.offloads.any (fun q => decide (q.lineFirst ≤ r.line ∧ r.line ≤ q.lineLast))) &&
    decide ((s.cfg.act.offloadDeadline : Int) < leadOf s r.line))).map (·.line)
  match ls with
  | [] => []
  | a :: _ => ((List.range 64).map (a + ·)).takeWhile (fun l => ls.contains l && l / 1024 == a / 1024)

/-- The RENDER_BIN parameter block of an offload request (05 R121). -/
def offloadParams (s : State) (j : StripeJob) (first last : Nat) : List Byte :=
  wordBytes (word [(0, 64, j.j.addr), (64, 2, j.j.space), (66, 1, 1), (68, 12, s.fab.node.toNat), (80, 16, j.stripe),
    (96, 14, first / 1024)]) ++
  wordBytes (word [(0, 10, first % 1024), (10, 10, last % 1024), (20, 8, j.j.flow), (64, 32, (rpCrc s).toNat),
    (96, 32, (lmapCrc s).toNat)]) ++
  wordBytes (word [(0, 64, j.dmap)]) ++ List.replicate 16 0

/-- Offer lines to the next peer while the lead is short (05 R123, 15 R366). -/
def offloadIssue (s : State) : State :=
  let a := s.cfg.act
  match curJob s, a.offloadPeers with
  | some j, p :: ps =>
    if a.renderOffload = 1 ∧ linesAhead s < a.offloadLead ∧ s.seq.st.active then
      match offerLines s with
      | [] => s
      | l :: ls =>
        let last := ls.getLastD l
        let node := (p :: ps).getD (s.rnd.nextPeer % (ps.length + 1)) p
        let id := s.fab.msgId
        send node.toNat 0x30 0 (offloadParams s j l last)
          (statAdd (sk 0x03040000 0x20) (last + 1 - l)
            { s with rnd := { s.rnd with
                nextPeer := (s.rnd.nextPeer + 1) % (ps.length + 1)
                offloads := s.rnd.offloads ++
                  [{ node := node, msgId := id, lineFirst := l, lineLast := last, expired := false }] } })
    else s
  | _, _ => s

/-- Offload requests whose lines have come to the deadline without their segments expire, once each (05 R123, R124). -/
def expireOffloads : List OffloadReq → State → State
  | [], s => s
  | q :: t, s =>
    let due := (List.range (q.lineLast + 1 - q.lineFirst)).any (fun i =>
      decide (leadOf s (q.lineFirst + i) ≤ (s.cfg.act.offloadDeadline : Int)) && lineLacks s (q.lineFirst + i))
    if !q.expired && due then
      expireOffloads t (raise 0x0342 .rnd0 0 (stat (sk 0x03040000 0x23)
        { s with rnd := { s.rnd with
            offloads := s.rnd.offloads.map (fun x => if x = q then { q with expired := true } else x) } }))
    else expireOffloads t s

/-- What the device does about offloads after a flash (05 R123, R124). -/
def offloadStep (s : State) : State :=
  if s.cfg.act.renderOffload = 1 then offloadIssue (expireOffloads s.rnd.offloads s) else s

end Sys2Proof.Machine
end

