-- ==== Sys2Proof/Machine/SeqEnd.lean ====
section
/-! DEFINITION. The end of a stop (07 R168, R490), the end of a stripe (07 R165), starts and resumes (07 R165, R170), and
the link going down (08 R186). -/

namespace Sys2Proof.Machine

/-! ### Lowering f_s (03 R76) -/

/-- The lowered rate (03 R76). -/
def loweredFs (fs : Nat) : Nat := max 100000 (1000 * (3 * fs / 4 / 1000))

/-- The f_s of the stripe in the sequencer, where its census record can be read. -/
def curFs (s : State) : Option Nat :=
  match curJob s with
  | none => none
  | some j =>
    match jobCensus s j with
    | .ok (_, _, c) => some (censusFs c)
    | .error _ => none

/-- Lower f_s of the stripe before its resume: the census record is rewritten and CENSUS_RATE_LOWERED raised (03 R76,
04 R86). -/
def lowerRate (s : State) : State :=
  match curJob s with
  | none => s
  | some j =>
    match jobCensus s j with
    | .error _ => s
    | .ok (_, t, c) =>
      raise 0x0322 .seq 0 (jwrite j.j t.censusOff (lowerCensus c (loweredFs (censusFs c))) s)

/-! ### Ends (07 R165, R490, 11 R247-R249) -/

/-- Detail of STRIPE_STOPPED: cause, stripe, m and h (07 R169). -/
def stoppedDetail (s : State) : W128 :=
  detail [du 8 s.seq.lastCause, du 16 s.seq.stripe, ds 32 s.seq.m, ds 32 s.seq.h]

/-- The sequencer is IDLE again, its fill released; staged tables may become active (07 R165, 02 R39). -/
def seqIdle (s : State) : State :=
  let s1 := endFill s
  activateTables { s1 with seq := s1.seq.toIdle }

/-- End the stripe's item DONE or FAILED with its h and resumes, close it at the BSA, and return to IDLE (07 R165,
11 R247). -/
def endStripe (st : ItemSt) (status : Nat) (s : State) : State :=
  let s1 := if linkReady s then sendStripeClose s else s
  match curItem s1 with
  | none => seqIdle s1
  | some i =>
    let h := s1.seq.h
    let r := if st = .done then s1.seq.nLast else h
    seqIdle (endItem { i with h := h, resumes := s1.seq.resumes, result := wrapInt 64 r } st status 0 s1)

/-- Every flash of the stripe has executed (07 R165, R490 case 2). -/
def stripeDone (s : State) : State :=
  endStripe .done 0 (raise 0x0361 .seq 0 { s with seq := { s.seq with h := s.seq.nLast } })

/-- Raise STRIPE_STOPPED (07 R169, R490). -/
def raiseStopped (s : State) : State := raise 0x0362 .seq (stoppedDetail s) s

/-- The outcome of a stop whose h has settled, in the order of R490 (07 R490). -/
def decideStop (s : State) : State :=
  let q := s.seq
  if q.violated then endStripe .failed stFault (raiseStopped s)
  else if q.h = q.nLast then stripeDone s
  else if q.causes.contains 13 ∨ q.secondFail then endStripe .failed stFault (raiseStopped s)
  else if q.late ∧ curFs s = some 100000 then endStripe .failed stNoResource (raiseStopped s)
  else if q.causes.contains 14 then
    raiseStopped { s with seq := { q with st := .stopped } }
  else if q.causes.contains 12 then endStripe .failed stAborted (raiseStopped s)
  else
    let s1 := raiseStopped { s with seq := { q with st := .stopped } }
    let s2 := if q.late then lowerRate s1 else s1
    { s2 with seq := { s2.seq with late := false } }

/-- h has settled: it is recorded with a PROGRESS record and decides the outcome; h above m is violation 5 of R196
(07 R168, R490, 08 R196, 11 R260). -/
def settleH (h : Int) (s : State) : State :=
  let above := decide (s.seq.m < h)
  let s1 := { s with seq := { s.seq with h := h, hKnown := true, violated := s.seq.violated || above } }
  let s2 :=
    if above then
      raise 0x0376 .seq (detail [du 8 5, du 16 s.seq.stripe, ds 32 h]) (stat (sk 0x03070001 0x205) s1)
    else s1
  decideStop (progressRec s2)

/-! ### Starts and resumes (07 R165, R170) -/

/-- The code table of the stripe is taken in dynamic mode; one that fails R144 raises CODE_TABLE_FAILED and stops the
stripe before its first flash with cause 13 (06 R144, R152). -/
def loadCtab (s : State) : State :=
  if s.cfg.act.segCode = 0 then s
  else
    match curJob s with
    | none => s
    | some j =>
      match jobStripe s j with
      | .error b => stopBad b s
      | .ok (h, t) =>
        match readTable s h t.idx with
        | some b => { s with store := { s.store with ctab := some b } }
        | none => boundaryStop 13 (raise 0x0353 .store 0 s)

/-- A stripe enters FILLING with first flash n0: fill and approach begin (07 R165). -/
def enterFilling (f : BitVec 8) (q : BitVec 64) (n0 : Int) (s : State) : State :=
  let s1 := loadCtab { s with
    seq := { s.seq with
      st := .filling
      item := some (f, q)
      n0 := n0
      f := n0 - 1
      m := n0 - 1
      strobed := n0 - 1
      causes := []
      met := []
      immediate := false
      late := false
      framed := none
      fired := [] }
    scan :=
      if s.seq.resumes = 0 then { s.scan with raisedNoProfile := false, raisedNotHomed := false, raisedSoft := false }
      else s.scan }
  if s1.seq.st = .filling then tryApproach (beginFill f q s1) else s1

/-- The first flash of a resume (07 R170). -/
def resumeN0 (s : State) : Int := max s.seq.nFirst (s.seq.h + 1)

/-- The stripe STOPPED resumes where every condition holds: the resume goes to the head of its flow and starts, the
sequencer passing IDLE (07 R165, R170). -/
def resumeStripe (s : State) : State :=
  match s.seq.item with
  | none => s
  | some (f, q) =>
    if s.seq.st = .stopped ∧ resumeReady s ∧ s.seq.causes.contains 14 = false ∧ s.pm.mode = .expose then
      enterFilling f q (resumeN0 s) { s with seq := { s.seq with resumes := s.seq.resumes + 1 } }
    else s

/-! ### The link goes down (08 R186) -/

/-- The link fails: LINK_DOWN, nothing outstanding; a stripe in FILLING, ARMED, RUNNING or ENDING stops with cause 9
(08 R186). `lane` fills the detail's first field. -/
def linkDown (lane : Nat) (s : State) : State :=
  if s.link.st = .down then s
  else
    let s1 := raise 0x0371 .seq (detail [du 8 lane, du 16 s.seq.stripe, ds 32 s.seq.f])
      { s with link := { s.link with st := .down, out := [], chunks := 0, commitAcked := false, claim := none } }
    boundaryStop 9 s1

/-- A physical lane is marked failed: LANE_FAILED, once per lane (08 R187). -/
def failLane (p : Nat) (s : State) : State :=
  if bitAt s.link.failed p then s
  else
    raise 0x0372 .seq (detail [du 8 p, du 16 s.seq.stripe, ds 32 s.seq.f])
      { s with link := { s.link with failed := s.link.failed ||| BitVec.ofNat 80 (2 ^ p) } }

end Sys2Proof.Machine
end

