-- ==== Sys2Proof/Machine/Sequencer.lean ====
section
/-! DEFINITION. The steps of the flash sequencer (07) and the die temperature (07 R171, 12 R267). -/

namespace Sys2Proof.Machine

/-! ### STRIPE_ARM (07 R165) -/

/-- The sequencer may leave FILLING: render-ready, link TRAINED on the port held, stage at the approach point, no input
latched, the watchdog clear, and no calibration run in progress (07 R165, R172, 10 R236, 18 R414). -/
def armReady (s : State) : Bool :=
  s.seq.st == .filling && s.rnd.ready && linkReady s && s.scan.st == .atApproach && !anyLatched s && !s.seq.wdLatch &&
    s.cal.st != 2

/-- φ is at or beyond the position of flash n (09 R211). -/
def atOrPast (s : State) (n : Int) : Bool := decide (n * (2 ^ 24 : Nat) ≤ s.trk.phi)

/-- The stage is past n0: no flash fires, and the stripe stops with cause 8 (09 R211). -/
def approachPast (s : State) : State := boundaryStop 8 (raise 0x0917 .trk 0 s)

/-- The run of a stripe as the generator makes it: from λ_a to rest after n_last + 1 (10 R225). -/
def stripeRun (s : State) : Move where
  params := [2, s.scan.pos, s.seq.n0, s.seq.nLast, s.scan.fw, s.scan.ys, s.trk.dir, profA (profileBytes s),
    profJ (profileBytes s), profSettle (profileBytes s)]
  target := 0

/-- Enter ARMED: the link is told the stripe, the reads for n0 are made, the stage accelerates, and the engine may
fire n0 unless it is past it (06 R148, 07 R165, 09 R203, R211, 10 R231). -/
def armStripe (s : State) : State :=
  match s.seq.item with
  | none => s
  | some (f, q) =>
    let s1 := sendStripeOpen f q { s with
      seq := { s.seq with st := .armed }
      trk := { s.trk with f := s.seq.n0 - 1, fire := none, dacClamped := if s.seq.resumes = 0 then Vector.replicate 4 false else s.trk.dacClamped }
      scan := { s.scan with st := .stripe, move := some (stripeRun s), k := 0 } }
    if atOrPast s1 s1.seq.n0 then approachPast s1 else flashReads s1.seq.n0 s1

/-- STRIPE_ARM (07 R165). -/
def execStripeArm (s : State) : Host.Outcome State Fault Refusal :=
  .next (if armReady s then armStripe s else s)

/-! ### FIRE_EVENT (07 R162) -/

/-- A fire event is refused: FLASH_OVERRUN and a boundary stop with cause 8 (07 R162). -/
def overrun (n : Int) (interval : Nat) (s : State) : State :=
  boundaryStop 8 (raise 0x0364 .seq (detail [ds 32 (s.seq.f + 1), ds 32 n, du 32 interval]) (stat (sk 0x03060001 0x41) s))

/-- ST and FT stamped into place `i` of the sequencer status (16 R387). -/
def stamp (i : Fin 3) (s : State) : State :=
  { s with time := { s.time with stamps := s.time.stamps.set i.val (base48 s 1, base48 s 0) } }

/-- The first flash of a stripe or resume fires: RUNNING, GBLANK falls, where the watchdog is clear, STRIPE_STARTED or
STRIPE_RESUMED (07 R163, R164, R165). -/
def startRun (s : State) : State :=
  let s1 := stamp 0 { s with seq := { s.seq with st := .running, gblank := s.seq.wdLatch } }
  raise (if s.seq.resumes = 0 then 0x0360 else 0x0363) .seq 0 s1

/-- Flash n is accepted: it is the last flash fired, rows are released and admitted, and the reads for n + 1 are made,
but after n_last (06 R130, R148, 07 R162, R165). -/
def acceptFire (n : Int) (s : State) : State :=
  let s1 := stamp 1 (fillStep n (stat (sk 0x03060001 0)
    { s with
      seq := { s.seq with f := n, fired := s.seq.fired ++ [n], framed := none }
      trk := { s.trk with f := n, fire := none } }))
  let s2 := if n = s.seq.n0 then startRun s1 else s1
  if n = s.seq.nLast then { s2 with seq := { s2.seq with st := .ending } }
  else flashReads (n + 1) (offloadStep s2)

/-- FIRE_EVENT: accepted when n = f + 1 and t_min has passed, while ARMED or RUNNING; else refused (07 R162, R165). The
first flash of a run has no fire event before it. -/
def execFireEvent (n : Int) (interval : Nat) (s : State) : Host.Outcome State Fault Refusal :=
  .next
    (if s.seq.st = .armed ∨ s.seq.st = .running then
      if n = s.seq.f + 1 ∧ (n = s.seq.n0 ∨ curTmin s ≤ interval) then acceptFire n s else overrun n interval s
     else s)

/-! ### Frames and strobe (07 R161, R164) -/

/-- FRAME_DEADLINE_MISSED: the oldest fired flash that has not strobed is late; it is not strobed, and the stripe stops at
the flash before it with cause 8 (07 R161, R166). -/
def execFrameDeadlineMissed (s : State) : Host.Outcome State Fault Refusal :=
  .next
    (match s.seq.fired with
     | [] => s
     | n :: _ =>
       if s.seq.st = .running ∨ s.seq.st = .ending then
         rampStop 1 8 0 (stopAt 8 false (n - 1) (stat (sk 0x03060001 0x42) s))
       else s)

/-- GSTROBE_RISE: the strobe of the oldest fired flash begins, while the watchdog is clear (07 R161, R164). -/
def execGstrobeRise (s : State) : Host.Outcome State Fault Refusal :=
  .next
    (match s.seq.fired with
     | [] => s
     | n :: t =>
       if s.seq.wdLatch ∨ s.seq.gstrobe then s
       else { s with seq := { s.seq with gstrobe := true, strobed := n, fired := t } })

/-- GBLANK after the strobe of flash n falls: it rises after n_last, and after the last flash of a stop (07 R163, R166). -/
def blankAfter (q : Seq) : Bool :=
  q.gblank || decide (q.strobed = q.nLast) || (!q.st.live && q.fired.isEmpty)

/-- GSTROBE_FALL (07 R161, R163, R166). -/
def execGstrobeFall (s : State) : Host.Outcome State Fault Refusal :=
  .next
    (if s.seq.gstrobe then { s with seq := { s.seq with gstrobe := false, gblank := blankAfter s.seq } } else s)

/-- STROBE_CUT: the watchdog forces GSTROBE low and GBLANK high, latches, and the stripe stops immediately with cause 7
(07 R164). -/
def execStrobeCut (s : State) : Host.Outcome State Fault Refusal :=
  .next
    (if s.seq.wdLatch then s
     else
      let s1 := { s with seq := { s.seq with wdLatch := true, gstrobe := false, gblank := true } }
      stopStripe 7 true 1 0 (setFlag 5 (raise 0x0365 .seq 0 (stat (sk 0x03060001 0x44) s1))))

/-! ### Waits (07 R165, R168, R169) -/

/-- ENDING_TIMEOUT: the high-water is not at n_last 100 µs after the strobe of n_last (07 R165). -/
def execEndingTimeout (s : State) : Host.Outcome State Fault Refusal :=
  .next (if s.seq.st = .ending then boundaryStop 9 s else s)

/-- HIGH_WATER_TIMEOUT: no report came; the last reported value is h (07 R168). -/
def execHighWaterTimeout (s : State) : Host.Outcome State Fault Refusal :=
  .next
    (if s.seq.st = .stopping then settleH s.seq.h (raise 0x0367 .seq 0 (stat (sk 0x03060001 0x43) s)) else s)

/-- RESUME_CONDITION_MET: a STOPPED stripe whose every condition holds resumes (07 R165, R169, R170). -/
def execResumeConditionMet (s : State) : Host.Outcome State Fault Refusal := .next (resumeStripe s)

/-! ### TEMP_SAMPLE (07 R171, 12 R267, 18 R410) -/

/-- The correction of a calibrated quantity: the accepted value, or the manufacturing one (18 R410, R416). -/
def calValue (s : State) (target unit quantity : Nat) : Int :=
  match s.cal.values.find? (fun v => v.1 == target && v.2.1 == unit && v.2.2.1 == quantity) with
  | some v => v.2.2.2
  | none => Config.manufacturingCal target unit quantity

/-- A die sensor's corrected reading in 0.125 degrees (18 R410). -/
def dieTemp (s : State) (raw : Vector (BitVec 16) 16) (i : Fin 16) : Int := signedNat 16 raw[i].toNat + calValue s 2 i.val 0

/-- The hottest sensor and its temperature: the first of the highest (07 R171). -/
def hottest (s : State) (raw : Vector (BitVec 16) 16) : Nat × Int :=
  (List.finRange 16).foldl (fun b i => if b.2 < dieTemp s raw i then (i.val, dieTemp s raw i) else b)
    (0, dieTemp s raw 0)

/-- The detail of a temperature event (07 R171). -/
def tempDetail (source sensor : Nat) (t : Int) : W128 := word [(0, 8, source), (8, 8, sensor), (16, 16, raw 16 t)]

/-- The warning threshold of the die: 95 degrees, re-armed below 93 (07 R171). -/
def dieWarning (sensor : Nat) (t : Int) (s : State) : State :=
  if 760 ≤ t ∧ s.seq.dieWarned = false then
    setSmb 2 (setFlag 3 (raise 0x0368 .aon (tempDetail 0 sensor t) { s with seq := { s.seq with dieWarned := true } }))
  else if t < 744 then { s with seq := { s.seq with dieWarned := false } }
  else s

/-- The limit of the die: 105 degrees; the stripe stops with cause 2 (07 R171). The event is raised once until the die
is below the limit again (DEDUCED, unsafe, log 22). -/
def dieLimit (sensor : Nat) (t : Int) (s : State) : State :=
  if 840 ≤ t then
    if s.seq.dieHot then s
    else
      boundaryStop 2 (setFlag 3 (raise 0x0369 .aon (tempDetail 0 sensor t) { s with seq := { s.seq with dieHot := true } }))
  else { s with seq := { s.seq with dieHot := false } }

/-- TEMP_SAMPLE: the die sensors, the temperature registers, the thresholds and the cool-down (07 R171, 12 R267). -/
def execTempSample (raw : Vector (BitVec 16) 16) (cool : Bool) (s : State) : Host.Outcome State Fault Refusal :=
  let h := hottest s raw
  .next
    (dieLimit h.1 h.2 (dieWarning h.1 h.2
      { s with
        win := { s.win with temp := wrapInt 16 h.2 }
        smb := { s.smb with temp := wrapInt 16 h.2 }
        seq := { s.seq with cool := cool && decide (h.2 ≤ 720) } }))

end Sys2Proof.Machine
end

