-- ==== Sys2Proof/Machine/Ingest.lean ====
section
/-! DEFINITION. Ingest (03 R48-R68): records, flattening, trapezoids, and the stream it writes. -/

namespace Sys2Proof.Machine

/-! ### The parameter block (03 R48) -/

/-- An INGEST parameter block. -/
structure IngestJob where
  src : JobRef
  srcLen : Nat
  out : JobRef
  outCap : Nat
  sealed_ : Bool
  keySlot : Nat
  pitch : Nat
  rot : Nat
  mirror : Bool
  first : Nat
  count : Nat
  linesM1 : Nat
  orgX : Int
  orgY : Int
  topName : List Byte
  deriving DecidableEq, Repr

/-- The fields of an INGEST parameter block (03 R48). -/
def IngestJob.of (f : BitVec 8) (p : List Byte) : IngestJob where
  src := { space := blk p 2 0 2, flow := f.toNat, addr := blk p 0 0 64 }
  srcLen := blk p 0 64 64
  out := { space := blk p 2 2 2, flow := f.toNat, addr := blk p 1 0 64 }
  outCap := blk p 1 64 64
  sealed_ := blk p 2 4 1 == 1
  keySlot := blk p 2 5 6
  pitch := blk p 2 11 2
  rot := blk p 2 13 2
  mirror := blk p 2 15 1 == 1
  first := blk p 2 16 16
  count := blk p 2 32 16
  linesM1 := blk p 2 48 24
  orgX := blkInt p 3 0 32
  orgY := blkInt p 3 32 32
  topName := (p.drop 64).take (blk p 3 64 8)

/-- The ingest that runs on a flow. -/
def ingestOf (s : State) (f : BitVec 8) : Option IngestRun := s.lay.ingests.find? (fun r => r.flow == f)

/-- The job of a running ingest. -/
def ingestJob (s : State) (r : IngestRun) : Option IngestJob :=
  (findItem s r.flow r.seq).bind (fun i => i.params.map (IngestJob.of i.flow))

/-- Replace the run of a flow. -/
def putIngest (r : IngestRun) (s : State) : State :=
  { s with lay := { s.lay with ingests := s.lay.ingests.map (fun x => if x.flow = r.flow then r else x) } }

/-- The run of a flow ends; a sealed one leaves the decryptor empty (03 R65, 20 R444). -/
def dropIngest (f : BitVec 8) (sealed_ : Bool) (s : State) : State :=
  { s with lay := { s.lay with
      ingests := s.lay.ingests.filter (fun x => x.flow != f)
      decryptor := if sealed_ then none else s.lay.decryptor } }

/-! ### Errors and skips (03 R66, R67) -/

/-- Status of a fatal reason (03 R66). -/
def ingestStatus (reason : Nat) : Nat :=
  if reason = 0x13 then stNoResource
  else if reason = 0x21 ∨ reason = 0x22 ∨ reason = 0x23 ∨ reason = 0x25 then stDenied
  else stBadArg

/-- A fatal ingest error: event, and the item fails with the status of its reason (03 R66). -/
def failIngest (r : IngestRun) (reason off recNo : Nat) (s : State) : State :=
  let sealed_ := ((ingestJob s r).map (·.sealed_)).getD false
  let s1 := raise 0x0310 .ing (detail [du 8 reason, du 64 off, du 32 recNo])
    (stat (sk 0x03010000 (0x40 + reason)) (dropIngest r.flow sealed_ s))
  activateTables (failItem r.flow r.seq (ingestStatus reason) reason s1)

/-- Count a condition that does not end the ingest; its first occurrence in the item raises INGEST_SKIPPED (03 R67). -/
def skip (kind off layer dt n : Nat) (p : IngestRun × State) : IngestRun × State :=
  if n = 0 then p
  else
    let s1 := statAdd (sk 0x03010000 (0x10 + kind)) n p.2
    if p.1.skipped.contains kind then (p.1, s1)
    else
      ({ p.1 with skipped := kind :: p.1.skipped },
        raise 0x0311 .ing (word [(0, 8, kind), (8, 56, off), (64, 32, layer), (96, 32, dt)]) s1)

/-! ### One record (03 R51-R57) -/

/-- s of 03 R51: steps per sixteenth of a pixel, from `unit` = num / den per micrometre. -/
def unitSteps (num den pitch : Nat) : Option Nat :=
  let a := num * pitchNm pitch
  let b := den * 16000
  if b = 0 ∨ a % b ≠ 0 ∨ a / b < 1 ∨ 65536 < a / b then none else some (a / b)

/-- A coordinate within 03 R55. -/
def coordOk (x : Int) : Bool := decide (-(2 ^ 31 : Nat) ≤ x ∧ x < (2 ^ 31 : Nat))

/-- A point within 03 R55. -/
def pointOk (p : Int × Int) : Bool := coordOk p.1 && coordOk p.2

/-- Append an element to the cell being defined. -/
def addElem (off : Nat) (e : Placing ⊕ Shape) (r : IngestRun) : IngestRun :=
  match r.current with
  | none => r
  | some n =>
    { r with cells := r.cells.map (fun c => if c.name = n then { c with elems := c.elems ++ [(off, e)] } else c) }

/-- A shape enters its cell, or the reason it is fatal (03 R55). -/
def addShape (off layer dt nPts : Nat) (pts : List (Int × Int)) (rep : Displacements) (r : IngestRun) : Except Nat IngestRun :=
  if 8192 < nPts then .error 0x09
  else if !(pts ++ rep).all pointOk then .error 0x0A
  else .ok (addElem off (.inr { layer := layer, datatype := dt, pts := pts, rep := rep }) r)

/-- The checks of a CBLOCK (03 R55-R57). -/
def cblockCheck (comp uncomp : Nat) (b : List Byte) (inside : Bool) : Option Nat :=
  if inside then some 0x05
  else if comp ≠ 0 then some 0x0B
  else if 16777216 < uncomp then some 0x0D
  else if (inflate b uncomp).isNone then some 0x0C
  else none

/-- A record's effect on the index, or the reason it is fatal (03 R53-R57). -/
def indexRecord (pitch : Nat) (x : OasisRec) (r : IngestRun) : Except Nat IngestRun :=
  match x.body with
  | .passive _ => .ok r
  | .start ok num den =>
    if !ok then .error 0x02
    else
      match unitSteps num den pitch with
      | none => .error 0x03
      | some n => .ok { r with s := some n }
  | .end_ ok => if ok then .ok { r with ended := true } else .error 0x10
  | .topCellProperty n =>
    if 64 < n.length then .error 0x0F
    else
      match r.topProp with
      | none => .ok { r with topProp := some n }
      | some m => if m = n then .ok r else .error 0x0F
  | .cell n =>
    .ok { r with
      current := some n
      cells := if r.cells.any (fun c => c.name == n) then r.cells else r.cells ++ [{ name := n, elems := [] }] }
  | .placement exact n px py q fl rep =>
    if !exact then .error 0x06
    else if !((px, py) :: rep).all pointOk then .error 0x0A
    else .ok (addElem x.off (.inl { name := n, x := px, y := py, quarter := q.val, flip := fl, rep := rep }) r)
  | .text => .ok r
  | .shape layer dt pts rep => addShape x.off layer dt pts.length pts rep r
  | .path flush layer dt nPts outline rep => if flush then addShape x.off layer dt nPts outline rep r else .error 0x07
  | .property => .ok r
  | .xelement => .ok r
  | .rejected => .error 0x05
  | .cblock comp uncomp b inside =>
    match cblockCheck comp uncomp b inside with
    | some e => .error e
    | none => .ok r
  | .modalUndefined => .error 0x12
  | .unknown _ => .error 0x04
  | .truncated => .error 0x11
  | .badMagic => .error 0x01

/-- The skip kind of an ignored record (03 R67). -/
def skipKind (b : OasisBody) : Nat :=
  match b with
  | .text => 1
  | .property => 2
  | .xelement => 3
  | _ => 0

/-- The record may be parsed now: a sealed source has authenticated the plaintext it lies in (03 R65). -/
def recordReady (s : State) (r : IngestRun) (off : Nat) : Bool :=
  !r.ended && !r.stalled &&
    (((ingestJob s r).map (fun j => !j.sealed_ || decide (off < r.plain.length))).getD false)

/-- Take one parsed record into the index (03 R53). -/
def ingestStep (r : IngestRun) (j : IngestJob) (x : OasisRec) (s : State) : State :=
  let s1 := stat (sk 0x03010000 1) s
  match indexRecord j.pitch x r with
  | .error e => failIngest r e x.off 0 s1
  | .ok r1 =>
    let k := skipKind x.body
    let (r2, s2) := skip k x.off 0 0 (if k = 0 then 0 else 1) (r1, s1)
    putIngest r2 s2

/-- INGEST_RECORD (03 R53). -/
def execIngestRecord (f : BitVec 8) (x : OasisRec) (s : State) : Host.Outcome State Fault Refusal :=
  .next
    (match ingestOf s f with
     | none => s
     | some r =>
       match ingestJob s r with
       | none => s
       | some j => if domOn s .ing ∧ recordReady s r x.off then ingestStep r j x s else s)

/-! ### Sealed containers (03 R63-R65) -/

/-- A container header. -/
structure Container where
  cid : Nat
  keyId : Nat
  plainLen : Nat
  recCount : Nat
  deriving DecidableEq, Repr

/-- The header of a container (03 R63). -/
def Container.of (b : List Byte) : Container where
  cid := blk b 0 64 64
  keyId := blk b 1 0 64
  plainLen := blk b 1 64 64
  recCount := blk b 2 0 32

/-- The header checks of R65: 0x20 for its fields, 0x24 for the source length (03 R64, R65). -/
def containerCheck (b : List Byte) (srcLen : Nat) : Option Nat :=
  let c := Container.of b
  if blk b 0 0 32 ≠ 0x4353444F ∨ blk b 0 32 16 ≠ 1 ∨ blk b 0 48 8 ≠ 4 ∨ blk b 0 56 8 ≠ 0 ∨ blk b 2 32 8 ≠ 20 ∨
      blk b 2 40 88 ≠ 0 ∨ blk b 3 0 96 ≠ 0 ∨ crc32c (b.take 60) ≠ BitVec.ofNat 32 (blk b 3 96 32) ∨ c.plainLen = 0 ∨
      c.recCount ≠ (c.plainLen + 1048575) / 1048576 then some 0x20
  else if srcLen ≠ 64 + c.plainLen + 16 * c.recCount then some 0x24
  else none

/-- IV of record n (03 R64). -/
def recordIv (c : Container) (n : Nat) : BitVec 96 := BitVec.ofNat 96 (c.cid + n % 2 ^ 32 * 2 ^ 64)

/-- Additional data of record n (03 R64). -/
def recordAad (c : Container) (n : Nat) : List Byte :=
  leBytes 8 c.cid ++ leBytes 4 n ++ [if n + 1 = c.recCount then 1 else 0, 0, 0, 0]

/-- Authenticate record n of a container with the key in the decryptor (03 R64, R65). -/
def openRecord (key : BitVec 256) (c : Container) (n : Nat) (b : List Byte) : Option (List Byte) :=
  Config.gcmOpen key (recordIv c n) (recordAad c n) (b.take (b.length - 16)) (b.drop (b.length - 16))

/-- Bytes of record n, its tag included (03 R64). -/
def recordLen (c : Container) (n : Nat) : Nat := min 1048576 (c.plainLen - n * 1048576) + 16

/-- The next record of a sealed source is decrypted and its tag verified (03 R65). -/
def authStep (r : IngestRun) (j : IngestJob) (key : BitVec 256) (s : State) : State :=
  match jread s j.src 0 64 with
  | .error _ => s
  | .ok hb =>
    let c := Container.of hb
    if c.recCount ≤ r.recNo then s
    else
      match jread s j.src (64 + r.recNo * 1048592) (recordLen c r.recNo) with
      | .error _ => s
      | .ok b =>
        match openRecord key c r.recNo b with
        | none => failIngest { r with plain := [] } 0x23 0 r.recNo s
        | some p => putIngest { r with recNo := r.recNo + 1, plain := r.plain ++ p } (stat (sk 0x03010000 11) s)

/-- CONTAINER_RECORD_AUTH (03 R65). -/
def execContainerRecordAuth (f : BitVec 8) (s : State) : Host.Outcome State Fault Refusal :=
  .next
    (match ingestOf s f, s.lay.decryptor with
     | some r, some (_, key) =>
       match ingestJob s r with
       | none => s
       | some j => if domOn s .ing ∧ j.sealed_ ∧ r.stalled = false then authStep r j key s else s
     | _, _ => s)

/-! ### Flattening (03 R52, R54, R55) -/

/-- A placement as a map of points: mirror of y where `flip`, quarter turns counterclockwise, then a shift. -/
structure Xform where
  x : Int
  y : Int
  quarter : Nat
  flip : Bool
  deriving DecidableEq, Repr

/-- A point turned by quarters counterclockwise. -/
def turn (q : Nat) (p : Int × Int) : Int × Int :=
  match q % 4 with
  | 0 => p
  | 1 => (-p.2, p.1)
  | 2 => (-p.1, -p.2)
  | _ => (p.2, -p.1)

/-- A point under a placement. -/
def Xform.apply (t : Xform) (p : Int × Int) : Int × Int :=
  let r := turn t.quarter (if t.flip then (p.1, -p.2) else p)
  (t.x + r.1, t.y + r.2)

/-- A placement inside a placed cell. -/
def Xform.comp (t u : Xform) : Xform :=
  let o := t.apply (u.x, u.y)
  { x := o.1, y := o.2, quarter := (t.quarter + (if t.flip then 4 - u.quarter % 4 else u.quarter)) % 4, flip := t.flip != u.flip }

/-- A flattened shape: the offset of its record, layer, datatype and closed point list in mask units. -/
structure FShape where
  off : Nat
  layer : Nat
  datatype : Nat
  pts : List (Int × Int)
  deriving DecidableEq, Repr

/-- One instance of a shape under a placement; every flattened coordinate is within 03 R55. -/
def placeShape (off : Nat) (sh : Shape) (t : Xform) (d : Int × Int) : Except (Nat × Nat) FShape :=
  let pts := sh.pts.map (fun p => t.apply (p.1 + d.1, p.2 + d.2))
  if pts.all pointOk then .ok { off := off, layer := sh.layer, datatype := sh.datatype, pts := pts } else .error (0x0A, off)

/-- Flatten a cell depth first, in file order; `fuel` counts the levels left (03 R54, R55). -/
def flattenCell : Nat → List Cell → Nat → List Byte → Xform → Except (Nat × Nat) (List FShape)
  | 0, _, off, _, _ => .error (0x08, off)
  | n + 1, cells, off, name, t =>
    match cells.find? (fun c => c.name == name) with
    | none => .error (0x0E, off)
    | some c => do
      let ls ← c.elems.mapM (fun e =>
        match e.2 with
        | .inr sh => ((0, 0) :: sh.rep).mapM (placeShape e.1 sh t)
        | .inl p => do
          let ks ← ((0, 0) :: p.rep).mapM (fun d =>
            flattenCell n cells e.1 p.name
              (t.comp { x := p.x + d.1, y := p.y + d.2, quarter := p.quarter, flip := p.flip }))
          .ok ks.flatten)
      .ok ls.flatten

/-- The cells a cell places, with the offsets of the placements. -/
def Cell.places (c : Cell) : List (Nat × List Byte) :=
  c.elems.filterMap (fun e => match e.2 with | .inl p => some (e.1, p.name) | .inr _ => none)

/-- The first placement of an undefined cell (03 R54). -/
def undefinedCell (cells : List Cell) : Option Nat :=
  ((cells.flatMap Cell.places).find? (fun p => !cells.any (fun c => c.name == p.2))).map (·.1)

/-- The top cell, where one qualifies (03 R54). -/
def topCell (j : IngestJob) (r : IngestRun) : Option (List Byte) :=
  let named : Option (List Byte) := if j.topName.isEmpty then r.topProp else some j.topName
  match named with
  | some n => if r.cells.any (fun c => c.name == n) then some n else none
  | none =>
    match r.cells.filter (fun c => r.cells.all (fun d => d.name == c.name || !d.places.any (fun p => p.2 == c.name))) with
    | [c] => some c.name
    | _ => none

/-- The whole job flattened, or the fatal reason and offset (03 R54, R55). -/
def flattenJob (j : IngestJob) (r : IngestRun) : Except (Nat × Nat) (List FShape) :=
  match undefinedCell r.cells with
  | some off => .error (0x0E, off)
  | none =>
    match topCell j r with
    | none => .error (0x0F, 0)
    | some n => flattenCell 33 r.cells 0 n { x := 0, y := 0, quarter := 0, flip := false }

/-! ### The job frame (03 R52) -/

/-- a / s to nearest, ties toward −∞ (03 R52). -/
def toSixteenths (s : Nat) (a : Int) : Int := (2 * a + s - 1) / (2 * (s : Int))

/-- A mask point in steps, shifted, mirrored and turned (03 R52 steps 1-3). -/
def jobPoint (j : IngestJob) (p : Int × Int) : Int × Int :=
  let x := p.1 - j.orgX
  turn j.rot (if j.mirror then -x else x, p.2 - j.orgY)

/-- A polygon in the job frame and its number of snapped vertices (03 R52). -/
def jobPolygon (j : IngestJob) (s : Nat) (pts : List (Int × Int)) : List (Int × Int) × Nat :=
  let ps := pts.map (jobPoint j)
  (ps.map (fun p => (toSixteenths s p.1, toSixteenths s p.2)),
    (ps.filter (fun p => decide (p.1 % (s : Int) ≠ 0 ∨ p.2 % (s : Int) ≠ 0))).length)

/-! ### Trapezoids (03 R58) -/

/-- An edge of a polygon from (xa, ya) up to (xb, yb), with its direction along the outline. -/
structure Edge where
  xa : Int
  ya : Int
  xb : Int
  yb : Int
  dir : Int
  deriving DecidableEq, Repr

/-- The edge between two neighbours of an outline; none where it is horizontal. -/
def edgeOf (p q : Int × Int) : Option Edge :=
  if p.2 < q.2 then some { xa := p.1, ya := p.2, xb := q.1, yb := q.2, dir := 1 }
  else if q.2 < p.2 then some { xa := q.1, ya := q.2, xb := p.1, yb := p.2, dir := -1 }
  else none

/-- The edges of a closed outline. -/
def edgesOf (pts : List (Int × Int)) : List Edge :=
  match pts with
  | [] => []
  | p :: t => ((p :: t).zip (t ++ [p])).filterMap (fun q => edgeOf q.1 q.2)

/-- x of an edge at y, to nearest with ties toward −∞ (03 R58 step 4). -/
def Edge.at (e : Edge) (y : Int) : Int := edgeAt e.xa e.xb e.ya e.yb y

/-- The y at which two edges cross inside both, rounded to the nearest sixteenth, ties toward −∞ (DEDUCED, unsafe, log 24). -/
def crossing (e f : Edge) : Option Int :=
  let d1 := e.yb - e.ya
  let d2 := f.yb - f.ya
  let den := (e.xb - e.xa) * d2 - (f.xb - f.xa) * d1
  let num := (f.xa - e.xa) * d1 * d2 + (e.xb - e.xa) * d2 * e.ya - (f.xb - f.xa) * d1 * f.ya
  let n := if den < 0 then -num else num
  let d := if den < 0 then -den else den
  let lo := max e.ya f.ya
  let hi := min e.yb f.yb
  if d = 0 ∨ n ≤ lo * d ∨ hi * d ≤ n then none else some (divTn n d)

/-- Insert into a rising list without repeats. -/
def insertCut (y : Int) : List Int → List Int
  | [] => [y]
  | z :: t => if y < z then y :: z :: t else if y = z then z :: t else z :: insertCut y t

/-- The cuts of a polygon: every vertex's y, and every crossing's (03 R58 step 2; DEDUCED, unsafe, log 24). -/
def polygonCuts (pts : List (Int × Int)) (es : List Edge) : List Int :=
  (pts.map (·.2) ++ es.flatMap (fun e => es.filterMap (crossing e))).foldr insertCut []

/-- Insert an edge of a slab by where it runs in it. -/
def insertEdge (x : Int × Int × Int) : List (Int × Int × Int) → List (Int × Int × Int)
  | [] => [x]
  | y :: t =>
    if x.1 + x.2.1 < y.1 + y.2.1 ∨ (x.1 + x.2.1 = y.1 + y.2.1 ∧ x.1 ≤ y.1) then x :: y :: t else y :: insertEdge x t

/-- The nonzero-winding pieces of a slab from its edges in order (03 R58 step 3). -/
def slabPieces (cls : Nat) (y0 y1 : Int) : Int → Int × Int → List (Int × Int × Int) → List Trap
  | _, _, [] => []
  | w, left, (a, b, d) :: t =>
    let w1 := w + d
    if w = 0 then slabPieces cls y0 y1 w1 (a, b) t
    else if w1 = 0 then
      { cls := cls, y0 := y0, y1 := y1, xl0 := left.1, xr0 := max left.1 a, xl1 := left.2, xr1 := max left.2 b } ::
        slabPieces cls y0 y1 0 left t
    else slabPieces cls y0 y1 w1 left t

/-- The pieces of the slabs between consecutive cuts. -/
def slabs (cls : Nat) (es : List Edge) : List Int → List Trap
  | a :: b :: t =>
    slabPieces cls a b 0 (0, 0)
      (((es.filter (fun e => decide (e.ya ≤ a ∧ b ≤ e.yb))).map (fun e => (e.at a, e.at b, e.dir))).foldr insertEdge []) ++
      slabs cls es (b :: t)
  | _ => []

/-- A trapezoid of zero width (03 R58 step 5). -/
def Trap.flat (t : Trap) : Bool := decide (t.xl0 = t.xr0 ∧ t.xl1 = t.xr1)

/-- The trapezoids of a polygon, and how many were dropped for zero height or width (03 R58). -/
def trapsOf (cls : Nat) (pts : List (Int × Int)) : List Trap × Nat :=
  let es := edgesOf pts
  if es.isEmpty then ([], 1)
  else
    let ts := slabs cls es (polygonCuts pts es)
    (ts.filter (fun t => !t.flat), (ts.filter Trap.flat).length)

/-! ### Stripes and bins (03 R59) -/

/-- The y at which a slanted edge crosses x = c strictly between its ends, ties toward −∞ (03 R59). -/
def crossX (x0 x1 y0 y1 c : Int) : Option Int :=
  if (x0 < c ∧ c < x1) ∨ (x1 < c ∧ c < x0) then
    let d := if x1 < x0 then x0 - x1 else x1 - x0
    let n := (if x1 < x0 then x0 - c else c - x0) * (y1 - y0)
    some (y0 + divTn n d)
  else none

/-- The part of a trapezoid between two of its heights, its x clamped to [lo, hi]. -/
def Trap.part (t : Trap) (lo hi a b : Int) : Trap where
  cls := t.cls
  y0 := a
  y1 := b
  xl0 := clampInt lo hi (edgeAt t.xl0 t.xl1 t.y0 t.y1 a)
  xr0 := clampInt lo hi (edgeAt t.xr0 t.xr1 t.y0 t.y1 a)
  xl1 := clampInt lo hi (edgeAt t.xl0 t.xl1 t.y0 t.y1 b)
  xr1 := clampInt lo hi (edgeAt t.xr0 t.xr1 t.y0 t.y1 b)

/-- The parts of a trapezoid between consecutive cuts. -/
def Trap.parts (t : Trap) (lo hi : Int) : List Int → List Trap
  | a :: b :: r => t.part lo hi a b :: t.parts lo hi (b :: r)
  | _ => []

/-- A trapezoid shifted along x. -/
def Trap.shift (t : Trap) (d : Int) : Trap :=
  { t with xl0 := t.xl0 + d, xr0 := t.xr0 + d, xl1 := t.xl1 + d, xr1 := t.xr1 + d }

/-- A trapezoid of the job frame clipped to the window of stripe i, and to the heights a record can hold
(03 R59, 04 R93; DEDUCED, unsafe, log 24). -/
def clipTo (i linesM1 : Nat) (t0 : Trap) : List Trap :=
  let t := t0.shift (-(131072 * (i : Int)))
  let lo := max t.y0 (-1024)
  let hi := min t.y1 (16 * ((linesM1 : Int) + 1) + 1024)
  if hi ≤ lo then []
  else
    let xs := [crossX t.xl0 t.xl1 t.y0 t.y1 (-1024), crossX t.xl0 t.xl1 t.y0 t.y1 132096,
      crossX t.xr0 t.xr1 t.y0 t.y1 (-1024), crossX t.xr0 t.xr1 t.y0 t.y1 132096].filterMap id
    let cuts := ((lo :: hi :: xs.filter (fun y => decide (lo < y ∧ y < hi)))).foldr insertCut []
    (t.parts (-1024) 132096 cuts).filter (fun u => !u.flat)

/-- A trapezoid lies in bin b (03 R59). -/
def Trap.inBin (t : Trap) (b : Nat) : Bool := decide (t.y0 < 16384 * ((b : Int) + 1) ∧ 16384 * (b : Int) < t.y1)

/-- Insert by y0, then lower-left x, after equals (03 R59). -/
def insertTrap (x : Trap) : List Trap → List Trap
  | [] => [x]
  | y :: t => if x.y0 < y.y0 ∨ (x.y0 = y.y0 ∧ x.xl0 < y.xl0) then x :: y :: t else y :: insertTrap x t

/-- The records of bin b in order (03 R59). -/
def binTraps (ts : List Trap) (b : Nat) : List Trap := (ts.filter (fun t => t.inBin b)).foldl (fun l t => insertTrap t l) []

/-- The bins of stripe i of a job. -/
def stripeBins (j : IngestJob) (i : Nat) (ts : List Trap) : List (List Trap) :=
  let l := ts.flatMap (clipTo i j.linesM1)
  (List.range (nBins j.linesM1)).map (binTraps l)

/-- Some record of the job holds part of the trapezoid. -/
def inJob (j : IngestJob) (t : Trap) : Bool :=
  (List.range j.count).any (fun i =>
    (clipTo i j.linesM1 t).any (fun u => (List.range (nBins j.linesM1)).any (fun b => u.inBin b)))

/-! ### Writing the stream (03 R66, 04 R81-R86) -/

/-- Take each flattened shape to trapezoids, counting what is skipped (03 R58, R61, R67). -/
def decompose (lm : List Byte) (j : IngestJob) (s : Nat) : List FShape → List Trap → IngestRun × State → List Trap × (IngestRun × State)
  | [], acc, p => (acc, p)
  | sh :: t, acc, p =>
    match lmMatch lm sh.layer sh.datatype with
    | none => decompose lm j s t acc (skip 4 sh.off sh.layer sh.datatype 1 p)
    | some e =>
      if lmDrop e then decompose lm j s t acc p
      else
        let (pts, snapped) := jobPolygon j s sh.pts
        let (ts, dropped) := trapsOf (lmClass e) pts
        let p1 := skip 7 sh.off 0 0 dropped (skip 6 sh.off 0 0 snapped p)
        let p2 := skip 5 sh.off 0 0 (if ts.all (inJob j) then 0 else 1) p1
        decompose lm j s t (acc ++ ts) p2

/-- The container's `cid` and `key_id`, zero for a plain source (04 R82). -/
def sourceIds (s : State) (j : IngestJob) : Nat × Nat :=
  if j.sealed_ then
    match jread s j.src 0 64 with
    | .ok b => ((Container.of b).cid, (Container.of b).keyId)
    | .error _ => (0, 0)
  else (0, 0)

/-- The stream header (04 R82). -/
def streamHeader (s : State) (j : IngestJob) (steps len traps : Nat) (dir : List Byte) : List Byte :=
  let ids := sourceIds s j
  let b := leBytes 16 (packFields [(0, 32, 0x4E5A4C46), (32, 16, 1), (48, 8, 8), (56, 2, j.pitch), (58, 2, j.rot),
      (60, 1, b2n j.mirror), (61, 1, b2n j.sealed_), (64, 16, j.first), (80, 16, j.count), (96, 24, j.linesM1)]) ++
    leBytes 16 (packFields [(0, 64, len), (64, 32, (lmapCrc s).toNat), (96, 17, steps)]) ++
    leBytes 16 (packFields [(0, 32, raw 32 j.orgX), (32, 32, raw 32 j.orgY), (64, 64, traps)]) ++
    leBytes 16 (packFields [(0, 64, ids.1), (64, 64, ids.2)]) ++ List.replicate 60 0
  b ++ leBytes 4 (crc32c (b ++ dir)).toNat

/-- The stream of a job (04 R81-R86): its bytes and the number of trapezoid records. -/
def streamOf (s : State) (j : IngestJob) (steps : Nat) (ts : List Trap) : List Byte × Nat :=
  let stripes := (List.range j.count).map (fun i => stripeBins j i ts)
  let n := (stripes.map (fun bs => (bs.map List.length).sum)).sum
  let secs := (stripes.zip (List.range j.count)).map (fun p => stripeBytes (j.first + p.2) j.linesM1 p.1)
  let (dir, rest) := streamBody secs
  (streamHeader s j steps (128 + dir.length + rest.length) n dir ++ dir ++ rest, n)

/-- Bytes written to a stream, or none where a translation fault stalls the writer (03 R68). -/
def jput (j : JobRef) (off : Nat) (b : List Byte) (s : State) : Option State :=
  if j.space = 1 then some (hbmWrite (j.addr + off) b s)
  else
    match vwrite j.flow (j.addr + off) b s with
    | ((none, _), s1) => some s1
    | ((some _, _), _) => none

/-- Every record of the source has been read, and authenticated where it is sealed (03 R54, R65). -/
def sourceRead (s : State) (r : IngestRun) (j : IngestJob) : Bool :=
  r.ended && !r.stalled && (!j.sealed_ ||
    match jread s j.src 0 64 with
    | .ok b => r.recNo == (Container.of b).recCount
    | .error _ => false)

/-- Write the stream and end the item DONE with the bytes written; a stalled write leaves the state `s0` from before
the completion (03 R66, R68, 11 R249). -/
def writeStream (r : IngestRun) (j : IngestJob) (steps : Nat) (ts : List Trap) (s0 s : State) : State :=
  let (b, n) := streamOf s j steps ts
  if j.outCap < b.length then failIngest r 0x13 0 0 s
  else
    match jput j.out 0 b s with
    | none => s0
    | some s1 =>
      activateTables (doneItem r.flow r.seq b.length (dropIngest r.flow j.sealed_ (statAdd (sk 0x03010000 3) n s1)))

/-- Flatten, decompose and write, or fail (03 R54-R59, R66). -/
def completeIngest (r : IngestRun) (j : IngestJob) (steps : Nat) (s : State) : State :=
  match flattenJob j r with
  | .error (reason, off) => failIngest r reason off 0 s
  | .ok shapes =>
    let (ts, (r1, s1)) := decompose (lmap s) j steps shapes [] (r, s)
    writeStream r1 j steps ts s s1

/-- INGEST_COMPLETE (03 R66). -/
def execIngestComplete (f : BitVec 8) (s : State) : Host.Outcome State Fault Refusal :=
  .next
    (match ingestOf s f with
     | none => s
     | some r =>
       match ingestJob s r, r.s with
       | some j, some steps => if domOn s .ing ∧ sourceRead s r j then completeIngest r j steps s else s
       | _, _ => s)

end Sys2Proof.Machine
end

