-- ==== Sys2Proof/Machine/Census.lean ====
section
/-! DEFINITION. The census (03 R69-R78): density sweep, forecast sweep and census records. -/

namespace Sys2Proof.Machine

/-! ### The parameter block (03 R69) -/

/-- A CENSUS parameter block. -/
structure CensusJob where
  j : JobRef
  fMax : Nat
  util : Nat
  margin : Nat
  budget : Nat
  dmargin : Nat
  dmap : Nat
  dmapCap : Nat
  deriving DecidableEq, Repr

/-- The fields of a CENSUS parameter block (03 R69). -/
def CensusJob.of (f : BitVec 8) (p : List Byte) : CensusJob where
  j := { space := blk p 0 64 2, flow := f.toNat, addr := blk p 0 0 64 }
  fMax := blk p 1 0 32
  util := blk p 1 32 8
  margin := blk p 1 40 9
  budget := blk p 1 64 32
  dmargin := blk p 1 96 8
  dmap := blk p 2 0 64
  dmapCap := blk p 2 64 64

/-- The ranges of R69 (03 R69). -/
def CensusJob.ok (c : CensusJob) : Bool :=
  decide (100000 ≤ c.fMax ∧ c.fMax ≤ 2000000 ∧ 50 ≤ c.util ∧ c.util ≤ 100 ∧ 100 ≤ c.margin ∧ c.margin ≤ 400 ∧
    1000 ≤ c.budget ∧ c.budget ≤ 409600 ∧ c.dmargin ≤ 64 ∧ c.j.space < 2)

/-- The census that runs on a flow. -/
def censusOf (s : State) (f : BitVec 8) : Option CensusRun := s.lay.censuses.find? (fun r => r.flow == f)

/-- The job of a running census. -/
def censusJob (s : State) (r : CensusRun) : Option CensusJob :=
  (findItem s r.flow r.seq).bind (fun i => i.params.map (CensusJob.of i.flow))

/-- Replace the census of a flow. -/
def putCensus (r : CensusRun) (s : State) : State :=
  { s with lay := { s.lay with censuses := s.lay.censuses.map (fun x => if x.flow = r.flow then r else x) } }

/-- The census of a flow ends: its trial lines no longer wait. -/
def dropCensus (f : BitVec 8) (s : State) : State :=
  { s with
    lay := { s.lay with censuses := s.lay.censuses.filter (fun x => x.flow != f) }
    rnd := { s.rnd with waiting := s.rnd.waiting.filter (fun l => !(l.cls == 3 && l.flow == f && l.req.isNone)) } }

/-- Status of a census failure (03 R78). -/
def censusStatus (reason : Nat) : Nat :=
  match reason with
  | 1 => stBadArg
  | 2 => stBadState
  | 3 => stNoResource
  | 4 => stFault
  | 5 => stAborted
  | _ => stBadState

/-- The detail of a failed structure is kept in the item, its first only (04 R100). -/
def keepDetail (f : BitVec 8) (q : BitVec 64) (b : Bad) (s : State) : State :=
  match findItem s f q with
  | some i => if i.detail = 0 then putItem { i with detail := badDetail b } s else s
  | none => s

/-- A census that cannot finish ends with its reason (03 R78). -/
def failCensus (f : BitVec 8) (q : BitVec 64) (reason : Nat) (s : State) : State :=
  activateTables (failItem f q (censusStatus reason) reason (raise 0x0323 .ing (detail [du 8 reason]) (dropCensus f s)))

/-- The census reason of a failed structure: 1 the stream header, 4 any other (04 R95). -/
def badReason (b : Bad) : Nat :=
  match b with
  | .check 1 _ _ _ _ _ => 1
  | _ => 4

/-- A structure failed under a census: the stream event, and the census ends (04 R95). A stalled read changes
nothing. -/
def censusBad (f : BitVec 8) (q : BitVec 64) (b : Bad) (s : State) : State :=
  if b = .stall then s else failCensus f q (badReason b) (keepDetail f q b (raiseBad b s))

/-! ### The density sweep (03 R71, 04 R96-R98) -/

/-- The records of every bin of a stripe. -/
def allBins (s : State) (j : JobRef) (t : Strp) : List Nat → Look (List (List Trap))
  | [] => .ok []
  | b :: r => do
    let x ← binRecords s j t b
    let y ← allBins s j t r
    .ok (x :: y)

/-- The records of every stripe of a job with the job-frame offset of their stripe. -/
def jobTraps (s : State) (j : JobRef) (h : SHdr) : List Nat → Look (List (Int × Trap))
  | [] => .ok []
  | i :: r => do
    let t ← stripeHdr s j h i
    let bs ← allBins s j t (List.range t.bins)
    let y ← jobTraps s j h r
    .ok (bs.flatten.map (fun x => (131072 * (i : Int), x)) ++ y)

/-- A region of HBM lies within the device and outside the spill area (06 R142, R146). -/
def hbmFree (a n : Nat) : Bool := decide (a + n ≤ hbmSize) && !touchesSpill a n

/-- The trial lines of a stripe (03 R72). -/
def trialLines (linesM1 : Nat) : List Nat :=
  ((List.range (nBins linesM1)).flatMap (fun b => (List.range 64).map (fun i => 1024 * b + 16 * i + 8))).filter
    (fun l => decide (l ≤ linesM1))

/-- The trial lines of the next stripe wait for cores as class B (03 R72, 05 R102). -/
def queueTrials (r : CensusRun) (h : SHdr) (s : State) : State :=
  { s with rnd := { s.rnd with waiting := s.rnd.waiting ++ (trialLines h.linesM1).map (fun l =>
      { cls := 3, flow := r.flow, seq := r.seq, req := none, stripe := h.first + r.next, line := l }) } }

/-- The header of the code table region, in dynamic mode (06 R142). -/
def startCtab (h : SHdr) (s : State) : State :=
  if s.cfg.act.segCode = 0 then s else hbmWrite s.cfg.act.ctabAddr (tableRegionHdr h (rpCrc s)) s

/-- The sweep over the whole job: the map is written and the forecast begins (03 R71, R78). -/
def sweepDone (r : CensusRun) (c : CensusJob) (s : State) : State :=
  match streamHdr s c.j with
  | .error b => censusBad r.flow r.seq b s
  | .ok h =>
    let m := mapGeo h c.dmargin
    if c.dmapCap < m.size ∨ hbmFree c.dmap m.size = false ∨
        (s.cfg.act.segCode = 1 ∧ hbmFree s.cfg.act.ctabAddr (64 + 272 * h.count) = false) then failCensus r.flow r.seq 3 s
    else
      match jobTraps s c.j h (List.range h.count) with
      | .error b => censusBad r.flow r.seq b s
      | .ok ts =>
        let r1 := { r with forecast := true, next := 0, values := [] }
        queueTrials r1 h (startCtab h (hbmWrite c.dmap (mapBytes (lmap s) m h ts)
          (putCensus r1 { s with lay := { s.lay with
            lastJob := some (c.j.space, c.j.flow, c.j.addr)
            lastMap := some c.dmap } })))

/-- DENSITY_SWEEP_DONE (03 R71). -/
def execDensitySweepDone (f : BitVec 8) (s : State) : Host.Outcome State Fault Refusal :=
  .next
    (match censusOf s f with
     | none => s
     | some r =>
       match censusJob s r with
       | none => s
       | some c => if domOn s .ing ∧ r.forecast = false then sweepDone r c s else s)

/-! ### The forecast of a stripe (03 R72-R75) -/

/-- T_b and E_b of each bin (03 R71). -/
def binCounts (linesM1 : Nat) (bs : List (List Trap)) : List (Nat × Nat) :=
  (bs.zip (List.range bs.length)).map (fun p => (p.1.length, edgeCrossings p.2 linesM1 p.1))

/-- σ_b: coded sizes beyond a slot's payload, of the trial segments of bin b (03 R72). -/
def sigma138 (t : List CEntry) (kind : Nat) (values : List (Nat × List (List Nat))) (b : Nat) : Nat :=
  ((values.filter (fun p => p.1 / 1024 == b)).map (fun p =>
    (p.2.map (fun v => let n := (encodeSeg t kind v).2.length; if 138 < n then n else 0)).sum)).sum

/-- O_b (03 R72). -/
def overflowOf (margin sig : Nat) : Nat := ceilDiv (16 * sig * margin) 100

/-- K_b (03 R73). -/
def renderCost (t e : Nat) : Nat := 8388608 + 16 * t + e

/-- f_rnd(b) (03 R74). -/
def fRnd (util k : Nat) : Nat := 1024 * 48000000000 * util / (100 * k)

/-- B(b) from the overflows of bins b − 7 to b (03 R74). -/
def spillPerFlash (os : List Nat) (b : Nat) : Nat :=
  let w := ((List.range 8).map (fun i => if i ≤ b then os.getD (b - i) 0 else 0)).sum
  ceilDiv (528 * (w - 4194304)) 131072

/-- f_ovf(b) (03 R74). -/
def fOvf (fMax budget b : Nat) : Nat := if b = 0 then fMax else budget * 1000000 / b

/-- The forecast of a bin. -/
structure BinCast where
  t : Nat
  e : Nat
  k : Nat
  o : Nat
  b : Nat
  frnd : Nat
  fovf : Nat
  deriving DecidableEq, Repr

/-- The forecasts of a stripe's bins (03 R72-R74). -/
def binCasts (c : CensusJob) (counts : List (Nat × Nat)) (os : List Nat) : List BinCast :=
  (List.range counts.length).map (fun i =>
    let te := counts.getD i (0, 0)
    let k := renderCost te.1 te.2
    let b := spillPerFlash os i
    { t := te.1, e := te.2, k := k, o := os.getD i 0, b := b, frnd := fRnd c.util k, fovf := fOvf c.fMax c.budget b })

/-- The first index with the lowest value. -/
def argMin (l : List Nat) : Nat := l.findIdx (fun x => l.all (fun y => decide (x ≤ y)))

/-- The lowest of a list and a bound. -/
def lowest (a : Nat) (l : List Nat) : Nat := l.foldl min a

/-- The limiting quantity and bin: 0 f_max, 1 render, 2 overflow (03 R74). -/
def limitOf (fMax : Nat) (l : List BinCast) : Nat × Nat :=
  let r := l.map (·.frnd)
  let o := l.map (·.fovf)
  let mu := lowest (lowest fMax r) o
  let q := if mu = fMax then 0 else if r.contains mu then 1 else 2
  (q, if q = 2 then argMin o else argMin r)

/-- f_s (03 R74). -/
def censusRate (fMax : Nat) (l : List BinCast) : Nat :=
  1000 * (lowest (lowest fMax (l.map (·.frnd))) (l.map (·.fovf)) / 1000)

/-- A bin whose f_rnd or f_ovf is below 100,000 Hz (03 R75). -/
def BinCast.refused (x : BinCast) : Bool := decide (x.frnd < 100000 ∨ x.fovf < 100000)

/-- The forecast of a bin in the census block (04 R85). -/
def BinCast.bytes (x : BinCast) : List Byte :=
  wordBytes (word [(0, 32, x.t), (32, 48, x.e)]) ++
  wordBytes (word [(0, 64, x.k), (64, 40, x.o), (104, 1, b2n (decide (x.frnd < 100000))), (105, 1, b2n (decide (x.fovf < 100000)))])

/-- The census block of a stripe: record and forecasts (04 R85). -/
def censusBlock (c : CensusJob) (stripe : Nat) (l : List BinCast) : List Byte :=
  let fs := censusRate c.fMax l
  let (q, i) := limitOf c.fMax l
  let x := l.getD i { t := 0, e := 0, k := 0, o := 0, b := 0, frnd := 0, fovf := 0 }
  let r := leBytes 16 (packFields [(0, 1, 1), (1, 1, b2n (decide (fs < 100000))), (2, 2, q), (16, 16, stripe), (32, 32, fs),
      (64, 32, i), (96, 32, (l.filter BinCast.refused).length)]) ++
    leBytes 16 (packFields [(0, 64, x.k), (64, 64, x.o)]) ++
    leBytes 16 (packFields [(0, 64, x.b), (64, 32, x.frnd), (96, 32, min x.fovf (2 ^ 32 - 1))]) ++ List.replicate 12 0
  sealCensus r (l.flatMap BinCast.bytes)

/-- The code of the forecast: the static table, or the one built from the trial segments (03 R72, 06 R143). -/
def forecastCode (s : State) (r : CensusRun) : List CEntry × Nat :=
  if s.cfg.act.segCode = 0 then (staticTable, 1) else (buildTable (r.values.flatMap (·.2)), 2)

/-- In dynamic mode the stripe's code table is written before its census record (06 R142). -/
def writeCtab (i stripe : Nat) (t : List CEntry) (s : State) : State :=
  if s.cfg.act.segCode = 0 then s else hbmWrite (s.cfg.act.ctabAddr + 64 + 272 * i) (tableBytes stripe t) s

/-- The trial lines of the stripe have all been rendered. -/
def trialsDone (r : CensusRun) (linesM1 : Nat) : Bool := (trialLines linesM1).all (fun l => r.values.any (fun p => p.1 == l))

/-- The record is written: the event, and the next stripe or the end of the item (03 R75, R78, 11 R249). -/
def stripeCensused (r : CensusRun) (h : SHdr) (stripe fs : Nat) (s : State) : State :=
  let s1 := raise 0x0320 .ing (detail [du 16 stripe, du 32 fs]) s
  let s2 := if fs < 100000 then raise 0x0321 .ing 0 s1 else s1
  let r1 := { r with next := r.next + 1, values := [] }
  if r1.next < h.count then queueTrials r1 h (putCensus r1 s2)
  else activateTables (doneItem r.flow r.seq h.count (dropCensus r.flow s2))

/-- The forecast of the next stripe from its trial lines (03 R72-R78). -/
def forecastStripe (r : CensusRun) (c : CensusJob) (h : SHdr) (t : Strp) (bs : List (List Trap)) (s : State) : State :=
  let (tab, kind) := forecastCode s r
  let os := (List.range t.bins).map (fun b => overflowOf c.margin (sigma138 tab kind r.values b))
  let l := binCasts c (binCounts t.linesM1 bs) os
  match jput c.j t.censusOff (censusBlock c t.num l) (writeCtab r.next t.num tab s) with
  | none => s
  | some s1 => stripeCensused r h t.num (censusRate c.fMax l) s1

/-- The stripe a running census forecasts, once its trial lines are rendered. -/
def censusStep (r : CensusRun) (c : CensusJob) (s : State) : State :=
  match streamHdr s c.j with
  | .error b => censusBad r.flow r.seq b s
  | .ok h =>
    if trialsDone r h.linesM1 = false then s
    else
      match stripeHdr s c.j h r.next with
      | .error b => censusBad r.flow r.seq b s
      | .ok t =>
        match allBins s c.j t (List.range t.bins) with
        | .error b => censusBad r.flow r.seq b s
        | .ok bs => forecastStripe r c h t bs s

/-- CENSUS_STRIPE_READY (03 R78). -/
def execCensusStripeReady (f : BitVec 8) (s : State) : Host.Outcome State Fault Refusal :=
  .next
    (match censusOf s f with
     | none => s
     | some r =>
       match censusJob s r with
       | none => s
       | some c => if domOn s .ing ∧ r.forecast then censusStep r c s else s)

/-- A census starts: its start-time checks, then the density sweep (03 R78). -/
def startCensus (f : BitVec 8) (q : BitVec 64) (c : CensusJob) (s : State) : State :=
  let s1 := { s with lay := { s.lay with
    censuses := s.lay.censuses ++ [{ flow := f, seq := q, forecast := false, next := 0, values := [] }] } }
  match streamHdr s c.j with
  | .error .stall => s1
  | .error b => censusBad f q b s1
  | .ok h =>
    if s.cfg.lmap.isNone ∨ h.lmapCrc ≠ (lmapCrc s).toNat then failCensus f q 2 s1
    else if s.cfg.rp.isNone then failCensus f q 6 s1
    else s1

end Sys2Proof.Machine
end

