-- ==== Sys2Proof/Machine/Render.lean ====
section
/-! DEFINITION. Render work (05 R101-R105, R121-R124), the spill path (06 R133, R147) and returned segments
(06 R150, R151, 15 R366). -/

namespace Sys2Proof.Machine

/-! ### RENDER_BIN (05 R121, R122) -/

/-- A RENDER_BIN parameter block. `last` and `first` are lines of the stripe. -/
structure BinJob where
  j : JobRef
  outMode : Nat
  out : JobRef
  retNode : Nat
  stripe : Nat
  bin : Nat
  first : Nat
  last : Nat
  tagFlow : Nat
  rpCrc : Nat
  lmapCrc : Nat
  dmap : Nat
  outCap : Nat
  reservedOk : Bool
  deriving DecidableEq, Repr

/-- The fields of a RENDER_BIN parameter block (05 R121). -/
def BinJob.of (f : BitVec 8) (p : List Byte) : BinJob where
  j := { space := blk p 0 64 2, flow := f.toNat, addr := blk p 0 0 64 }
  outMode := blk p 0 66 1
  out := { space := blk p 0 67 1, flow := f.toNat, addr := blk p 2 64 64 }
  retNode := blk p 0 68 12
  stripe := blk p 0 80 16
  bin := blk p 0 96 14
  first := 1024 * blk p 0 96 14 + blk p 1 0 10
  last := 1024 * blk p 0 96 14 + blk p 1 10 10
  tagFlow := blk p 1 20 8
  rpCrc := blk p 1 64 32
  lmapCrc := blk p 1 96 32
  dmap := blk p 2 0 64
  outCap := blk p 3 0 64
  reservedOk := blk p 0 110 18 == 0 && blk p 1 28 36 == 0 && blk p 3 64 64 == 0

/-- Field values in range (05 R121, 06 R146). -/
def BinJob.ok (b : BinJob) : Bool :=
  b.reservedOk && decide (b.j.space < 2 ∧ b.first ≤ b.last ∧ b.dmap < hbmSize) && !touchesSpill b.dmap 64 &&
    (if b.outMode = 0 then
      b.retNode == 0 && (b.out.space == 0 || (decide (b.out.addr + b.outCap ≤ hbmSize) && !touchesSpill b.out.addr b.outCap))
     else decide (1 ≤ b.retNode ∧ b.retNode ≤ 0xFFE))

/-- Status of a reason (05 R122). -/
def binStatus (reason : Nat) : Nat :=
  match reason with
  | 2 => stBadState
  | 3 => stBadState
  | 5 => stFault
  | 6 => stNoResource
  | 7 => stAborted
  | _ => stBadArg

/-- What a look failed with, as a check of R122: reason 5; a stalled read gives no verdict yet. -/
def binLook {α : Type} (x : Look α) : Except (Option (Nat × Option Bad)) α :=
  match x with
  | .ok a => .ok a
  | .error .stall => .error none
  | .error b => .error (some (5, some b))

/-- The check `c` of R122 with its reason. -/
def binNeed (c : Bool) (reason : Nat) : Except (Option (Nat × Option Bad)) Unit :=
  if c then .ok () else .error (some (reason, none))

/-- The checks of R122, in order: none of them fails, or the reason and the failed structure of the first; a read that
a translation fault stalls decides nothing (05 R122). -/
def binCheck (s : State) (b : BinJob) : Except (Option (Nat × Option Bad)) SHdr := do
  binNeed b.ok 1
  let h ← binLook (streamHdr s b.j)
  binNeed (decide (h.first ≤ b.stripe ∧ b.stripe < h.first + h.count ∧ b.bin < nBins h.linesM1)) 1
  binNeed (s.cfg.rp.isSome && b.rpCrc == (rpCrc s).toNat) 2
  binNeed (s.cfg.lmap.isSome && b.lmapCrc == (lmapCrc s).toNat && b.lmapCrc == h.lmapCrc) 3
  let m := hbmRead s b.dmap 64
  binNeed (leAt m 44 4 == h.crc && decide (kernelReach (rpImage s) ≤ blk m 0 56 8)) 4
  let _ ← binLook (stripeHdr s b.j h (b.stripe - h.first))
  let _ ← binLook (mapHdr s b.dmap h)
  .ok h

/-- The code of a RENDER_BIN: the static table, or the stripe's dynamic one where it passes R144 (06 R141, R144):
entries, kind and `ctab`. -/
def binCode (s : State) (h : SHdr) (b : BinJob) : Option (List CEntry × Nat × Nat) :=
  if s.cfg.act.segCode = 0 then some (staticTable, 1, 0)
  else (readTable s h (b.stripe - h.first)).map (fun t => (tableEntries t, 2, blk t 16 96 32 % 256))

/-- The segments of a line in transfer form, in sub-raster order (06 R150). -/
def lineForms (t : List CEntry) (kind ctab : Nat) (b : BinJob) (line : Nat) : Nat → List (List Nat) → List (List Byte)
  | _, [] => []
  | k, v :: l =>
    let e := encodeSeg t kind v
    transferForm (segTag b.stripe line k e.1 b.tagFlow ctab) e.1 e.2 :: lineForms t kind ctab b line (k + 1) l

/-! ### Work in progress -/

/-- The run a class R line belongs to. -/
def binOf (s : State) (r : RLine) : Option BinRun :=
  s.rnd.bins.find? (fun b => b.req == r.req && b.flow == r.flow && b.seq == r.seq)

/-- The job of a run. -/
def BinRun.job (b : BinRun) : BinJob := BinJob.of b.flow b.params

/-- Replace a run. -/
def putBin (b : BinRun) (s : State) : State :=
  { s with rnd := { s.rnd with
      bins := s.rnd.bins.map (fun x => if x.req = b.req ∧ x.flow = b.flow ∧ x.seq = b.seq then b else x) } }

/-- The waiting lines of a run are dropped. -/
def dropBinLines (b : BinRun) (s : State) : State :=
  { s with rnd := { s.rnd with waiting := s.rnd.waiting.filter (fun r =>
      !(r.cls == 2 && r.req == b.req && r.flow == b.flow && r.seq == b.seq)) } }

/-- A run has failed with a reason of R122: no further line of it starts (05 R122). -/
def stopBin (b : BinRun) (reason : Nat) (s : State) : State :=
  if b.failed = 0 then dropBinLines b (putBin { b with failed := reason, held := [] } s) else s

/-- A structure failed under a run: the event, the detail kept in a work item, and reason 5 (04 R95, R100). -/
def binBad (b : BinRun) (x : Bad) (s : State) : State :=
  match x with
  | .stall => s
  | _ => stopBin b 5 ((fun t => if b.req.isNone then keepDetail b.flow b.seq x t else t) (raiseBad x s))

/-! ### Delivery (05 R121, 15 R366) -/

/-- Group transfer forms into payloads of at most 4,096 bytes, whole segments each (15 R357, R358). -/
def packSegs : List Byte → List (List Byte) → List (List Byte)
  | acc, [] => if acc.isEmpty then [] else [acc]
  | acc, x :: t =>
    if acc.isEmpty then packSegs x t
    else if acc.length + x.length ≤ 4096 then packSegs (acc ++ x) t
    else acc :: packSegs x t

/-- Send SEGMENTS spores (15 R358, R366). -/
def sendSegs (node : Nat) (cls : Fin 4) : List (List Byte) → State → State
  | [], s => s
  | p :: t, s => sendSegs node cls t (send node 0x32 cls p s)

/-- Deliver one line of a run: written in order, or returned in spores; over `out_cap` the run fails with reason 6; none
where a translation fault stalls the write (05 R121, R122). -/
def deliverLine (b : BinRun) (fs : List (List Byte)) (s : State) : Option State :=
  let j := b.job
  let bytes := fs.flatten
  let b1 := { b with next := b.next + 1, written := b.written + bytes.length, held := b.held.filter (fun p => p.1 != b.next) }
  if j.outMode = 0 then
    if j.outCap < b.written + bytes.length then some (stopBin b 6 s)
    else (jput j.out b.written bytes s).map (putBin b1)
  else some (sendSegs j.retNode (if b.req.isSome then 0 else 2) (packSegs [] fs) (putBin b1 s))

/-- Deliver the lines of a run that are ready, in line order (05 R121). -/
def deliver : Nat → BinRun → State → State
  | 0, _, s => s
  | n + 1, b, s =>
    match b.held.find? (fun p => p.1 == b.next) with
    | none => s
    | some p =>
      match deliverLine b p.2 s with
      | none => s
      | some s1 =>
        match s1.rnd.bins.find? (fun x => x.req == b.req && x.flow == b.flow && x.seq == b.seq) with
        | none => s1
        | some b1 => deliver n b1 s1

/-! ### Start and end of a run (05 R122, 11 R247, 15 R366) -/

/-- Lines of a run: those of its range that the stripe has (05 R103). -/
def binLines (b : BinJob) (linesM1 : Nat) : List Nat :=
  ((List.range (b.last + 1 - b.first)).map (b.first + ·)).filter (fun l => decide (l ≤ linesM1))

/-- Detail of RENDER_BIN_FAILED: reason, stripe, bin and line (05 R122). -/
def binDetail (reason : Nat) (j : BinJob) (line : Nat) : W128 := detail [du 8 reason, du 16 j.stripe, du 16 j.bin, du 32 line]

/-- RENDER_BIN_FAILED, counted by outcome (05 R122, R126). -/
def raiseBinFailed (reason : Nat) (j : BinJob) (line : Nat) (s : State) : State :=
  raise 0x0341 .rnd0 (binDetail reason j line) (stat (sk 0x03040000 (0x30 + reason)) s)

/-- The lines of a run begin to wait as class R (05 R102). -/
def queueBin (b : BinRun) (linesM1 : Nat) (s : State) : State :=
  { s with rnd := { s.rnd with
      bins := s.rnd.bins ++ [b]
      waiting := s.rnd.waiting ++ (binLines b.job linesM1).map (fun l =>
        { cls := 2, flow := b.flow, seq := b.seq, req := b.req, stripe := b.job.stripe, line := l }) } }

/-- A run as it starts. -/
def newBin (f : BitVec 8) (q : BitVec 64) (req : Option (BitVec 12 × BitVec 32)) (p : List Byte) : BinRun where
  flow := f
  seq := q
  req := req
  params := p
  next := (BinJob.of f p).first
  written := 0
  held := []
  failed := 0

/-- Lines for a run whose stream header cannot be read yet: all of its range; LINE_DISPATCH checks each. -/
def headerLines (s : State) (j : BinJob) : Nat :=
  match streamHdr s j.j with
  | .ok h => h.linesM1
  | .error _ => j.last

/-- A RENDER_BIN item starts: the checks of R122, then its lines wait (05 R122, 11 R247). -/
def startBin (f : BitVec 8) (q : BitVec 64) (p : List Byte) (s : State) : State :=
  let j := BinJob.of f p
  match binCheck s j with
  | .error (some (reason, x)) =>
    let s1 := match x with
      | some b => keepDetail f q b (raiseBad b s)
      | none => s
    activateTables (failItem f q (binStatus reason) reason (raiseBinFailed reason j j.first s1))
  | _ => queueBin (newBin f q none p) (headerLines s j) s

/-- A run with nothing left to deliver: every line of its range that the stripe has is delivered, or it has failed. -/
def BinRun.over (b : BinRun) (s : State) : Bool :=
  b.failed != 0 || decide (min b.job.last (headerLines s b.job) < b.next)

/-- Lines that a run has delivered (15 R358). -/
def BinRun.lines (b : BinRun) : Nat := b.next - b.job.first

/-- A header word that names the request of a run, for its NACK (15 R358, R359). -/
def requestHdr (node : BitVec 12) (msgId : BitVec 32) : W128 :=
  word [(12, 12, node.toNat), (24, 8, 0x30), (64, 32, msgId.toNat)]

/-- The answer to a peer's request: OFFLOAD_DONE, or a NACK of reason 5 where a check failed before any segment
(15 R366). -/
def answerOffload (b : BinRun) (node : BitVec 12) (msgId : BitVec 32) (s : State) : State :=
  if b.failed ≠ 0 ∧ b.failed ≠ 7 ∧ b.lines = 0 then nackSpore (requestHdr node msgId) 5 b.failed s
  else
    send node.toNat 0x31 0 (wordBytes (word [(0, 32, msgId.toNat), (32, 16, if b.failed = 0 then 0 else binStatus b.failed),
      (48, 16, b.failed), (64, 11, b.lines)])) s

/-- A run ends: its item is DONE or FAILED with the bytes delivered, or its requester is answered (05 R122, 15 R366). -/
def endBin (b : BinRun) (s : State) : State :=
  let s1 := dropBinLines b { s with rnd := { s.rnd with
    bins := s.rnd.bins.filter (fun x => !(x.req == b.req && x.flow == b.flow && x.seq == b.seq)) } }
  let s2 := if b.failed = 0 then stat (sk 0x03040000 0x30) s1 else raiseBinFailed b.failed b.job b.next s1
  match b.req with
  | some (node, id) => answerOffload b node id s2
  | none =>
    if b.failed = 0 then activateTables (doneItem b.flow b.seq b.written s2)
    else
      match findItem s2 b.flow b.seq with
      | some i =>
        activateTables (failItem b.flow b.seq (binStatus b.failed) b.failed
          (putItem { i with result := BitVec.ofNat 64 b.written } s2))
      | none => s2

/-- The run on a flow that RENDER_BIN_COMPLETE speaks of: the device's own, else a peer's. -/
def binOnFlow (s : State) (f : BitVec 8) : Option BinRun :=
  (s.rnd.bins.find? (fun b => b.flow == f && b.req.isNone)).or (s.rnd.bins.find? (fun b => b.flow == f))

/-- RENDER_BIN_COMPLETE (05 R122). Lines already rendered are delivered first. -/
def execRenderBinComplete (f : BitVec 8) (s : State) : Host.Outcome State Fault Refusal :=
  .next
    (match binOnFlow s f with
     | none => s
     | some b =>
       let s1 := deliver (b.held.length + 1) b s
       match binOnFlow s1 f with
       | none => s1
       | some b1 => if domOn s .rnd0 && b1.over s1 then endBin b1 s1 else s1)

/-! ### LINE_DISPATCH (05 R102, R103) -/

/-- What a line needs before it is dispatched: its sections, nodes and job checks (05 R103, R122). -/
inductive LineLook where
  /-- no run, stripe or census has this line any more -/
  | gone
  | stall
  | bad (b : Bad)
  | refuse (reason : Nat) (b : Option Bad)
  | ready (segs : List (List Nat))
  deriving DecidableEq, Repr

/-- The outcome of a rendering as a look at the line. -/
def LineLook.of (x : Look (List (List Nat))) : LineLook :=
  match x with
  | .ok v => .ready v
  | .error .stall => .stall
  | .error b => .bad b

/-- The render of a line (05 R101, R103, R122, 03 R72). -/
def lineLook (s : State) (r : RLine) : LineLook :=
  if r.cls = 0 then
    match curJob s with
    | some j => LineLook.of (renderLine s j.j j.dmap r.stripe r.line)
    | none => .gone
  else if r.cls = 2 then
    match binOf s r with
    | none => .gone
    | some b =>
      match binCheck s b.job with
      | .error none => .stall
      | .error (some (n, x)) => .refuse n x
      | .ok _ => LineLook.of (renderLine s b.job.j b.job.dmap r.stripe r.line)
  else
    match censusOf s r.flow with
    | none => .gone
    | some c =>
      match censusJob s c with
      | none => .gone
      | some j => LineLook.of (renderLine s j.j j.dmap r.stripe r.line)

/-- A structure of the exposing stripe fails: the event; the item keeps the detail; the lines from it on are not
rendered; a fill that needs the line ends at once with cause 13, else the stripe stops before the first flash that
needs it (04 R95, R100). -/
def xBad (line : Nat) (b : Bad) (s : State) : State :=
  let s1 := raiseBad b s
  let s2 := match s1.seq.item with
    | some (f, q) => keepDetail f q b s1
    | none => s1
  let low := match s2.rnd.badLine with
    | some l => min l line
    | none => line
  let s3 := { s2 with rnd := { s2.rnd with
    badLine := some low
    waiting := s2.rnd.waiting.filter (fun r => !(r.cls == 0 && decide (line ≤ r.line))) } }
  if s3.seq.st = .filling ∧ (fillLines s3.seq.n0 s3.seq.linesM1).contains line then boundaryStop 13 s3 else s3

/-- A line that cannot be rendered. -/
def lineBad (r : RLine) (x : LineLook) (s : State) : State :=
  match x with
  | .bad b =>
    if r.cls = 0 then xBad r.line b s
    else if r.cls = 2 then
      match binOf s r with
      | some run => binBad run b s
      | none => s
    else censusBad r.flow r.seq b s
  | .refuse n ob =>
    match binOf s r with
    | none => s
    | some run =>
      match ob with
      | some b => binBad run b s
      | none => stopBin run n s
  | .gone => dropLine r s
  | _ => s

/-- LINE_DISPATCH: the next line goes to the core of R102, once what it needs has passed its checks (05 R102, R103). -/
def execLineDispatch (s : State) : Host.Outcome State Fault Refusal :=
  .next
    (if domOn s .rnd0 then
      match nextDispatch s with
      | none => s
      | some (r, c) =>
        match lineLook s r with
        | .ready _ => assign r c s
        | x => lineBad r x s
     else s)

/-! ### LINE_RENDERED (05 R101) -/

/-- A rendered line of a run joins those held and is delivered in order (05 R121). A dynamic table that fails R144 ends
the run with reason 5 (06 R144). -/
def binRendered (b : BinRun) (line : Nat) (segs : List (List Nat)) (s : State) : State :=
  if b.failed ≠ 0 then s
  else
    match streamHdr s b.job.j with
    | .error x => binBad b x s
    | .ok h =>
      match binCode s h b.job with
      | none => stopBin b 5 (raise 0x0353 .store 0 s)
      | some (t, kind, ctab) =>
        let b1 := { b with held := b.held ++ [(line, lineForms t kind ctab b.job line 0 segs)] }
        deliver (b1.held.length + 1) b1 (putBin b1 s)

/-- What becomes of a line's segments, by class (05 R101, 03 R72). -/
def lineDone (r : RLine) (segs : List (List Nat)) (s : State) : State :=
  if r.cls = 0 then checkReady (writeLine r.line 0 segs s)
  else if r.cls = 2 then
    match binOf s r with
    | some b => binRendered b r.line segs s
    | none => s
  else
    match censusOf s r.flow with
    | some c => putCensus { c with values := c.values ++ [(r.line, segs)] } s
    | none => s

/-- LINE_RENDERED: the core is free, and its coder writes the segments; the lines of a fill that has ended are
discarded (05 R101, 06 R130). -/
def execLineRendered (core : Fin 32) (s : State) : Host.Outcome State Fault Refusal :=
  .next
    (match s.rnd.cores[core] with
     | none => s
     | some r =>
       if domOn s .rnd0 then
         let s1 := { s with rnd := { s.rnd with cores := s.rnd.cores.set core.val none } }
         if r.cls = 4 then s1
         else
           match lineLook s1 r with
           | .ready segs => lineDone r segs (stat (sk 0x03040000 r.cls) s1)
           | .stall => s
           | x => lineBad r x s1
       else s)

/-! ### Spill (06 R133, R147) -/

/-- SPILL_WRITE_ACK: the slot of a spilled segment becomes VALID, which may complete the fill (06 R133, 05 R104). -/
def execSpillWriteAck (n : Nat) (s : State) : Host.Outcome State Fault Refusal :=
  .next
    (match slot s n with
     | none => s
     | some x =>
       if x.where_ = 2 ∧ x.st = 1 ∧ domOn s .store then checkReady (setSlot n { x with st := 2 } s) else s)

/-- SPILL_READ_RETURN: the next read of a spilled segment has its bytes (06 R147). -/
def execSpillReadReturn (n : Nat) (s : State) : Host.Outcome State Fault Refusal :=
  .next
    (match slot s n with
     | none => s
     | some x =>
       if x.where_ = 2 ∧ x.st = 2 ∧ domOn s .store ∧ s.store.spillReady.contains n = false then
         statAdd (sk 0x03050000 11) x.len { s with store := { s.store with spillReady := s.store.spillReady ++ [n] } }
       else s)

/-! ### Returned segments (06 R151, 05 R124) -/

/-- The segments of a SEGMENTS payload: tag, kind, check and coded bytes of each; an impossible length ends the list
(06 R150). -/
def splitSegs : Nat → List Byte → List (Nat × Nat × BitVec 32 × List Byte)
  | 0, _ => []
  | n + 1, l =>
    if l.length < 16 then []
    else
      let len := leAt l 8 2 % 1024
      let whole := 16 + (len + 15) / 16 * 16
      (leAt l 0 8, leAt l 8 2 / 4096, BitVec.ofNat 32 (leAt l 10 4), slice l 16 len) :: splitSegs n (l.drop whole)

/-- The entry check of R151: the tag is the one expected of its slot, the kind matches the active code or is raw, the
check value is right, and the line is admitted and live (06 R129, R151, 05 R124). -/
def segAdmitted (s : State) (tag kind : Nat) (check : BitVec 32) (coded : List Byte) : Bool :=
  let line := tag / 2 ^ 16 % 2 ^ 24
  let k := tag / 2 ^ 40 % 16
  s.seq.st.active && s.seq.item.isSome && (kind == (codeTable s).2 || kind == 3) &&
    leNat (stripeTag s line k kind) == tag && segCheck (leBytes 8 tag) coded == check &&
    decide (line ≤ s.seq.linesM1 ∧ (line : Int) ≤ s.seq.f + 504 ∧ s.seq.f - 8183 < (line : Int) ∧
      1 ≤ coded.length ∧ coded.length ≤ 576)

/-- A segment that fails is discarded and counted; one that passes is written as a local write (06 R151, 05 R124). -/
def admitSeg (x : Nat × Nat × BitVec 32 × List Byte) (s : State) : State :=
  if segAdmitted s x.1 x.2.1 x.2.2.1 x.2.2.2 then
    stat (sk 0x03040000 0x21)
      (checkReady (writeSeg (x.1 / 2 ^ 16 % 2 ^ 24) (x.1 / 2 ^ 40 % 16) x.2.1 x.2.2.1 x.2.2.2 true s))
  else stat (sk 0x03040000 0x22) s

/-- The same for each segment of a spore. -/
def admitSegs : List (Nat × Nat × BitVec 32 × List Byte) → State → State
  | [], s => s
  | x :: t, s => admitSegs t (admitSeg x s)

/-- Offload runs of peers (15 R366). -/
def peerRuns (s : State) (node : BitVec 12) : List BinRun :=
  s.rnd.bins.filter (fun b => match b.req with | some (n, _) => n == node | none => false)

/-- A peer's OFFLOAD_REQ in RENDER: at most 16 from each requester; the checks of R122; then its lines wait as class R
(15 R366). -/
def takeOffload (w : W128) (p : List Byte) (s : State) : State :=
  let node := BitVec.ofNat 12 (hdrSrc w)
  let j := BinJob.of (BitVec.ofNat 8 (blk p 1 20 8)) p
  if s.pm.mode ≠ .render then nackSpore w 3 0 s
  else if 16 ≤ (peerRuns s node).length then nackSpore w 6 0 s
  else
    match if j.outMode = 1 then binCheck s j else .error (some (1, none)) with
    | .error (some (reason, x)) =>
      let s1 := match x with
        | some b => raiseBad b s
        | none => s
      nackSpore w 5 reason (raiseBinFailed reason j j.first s1)
    | _ => queueBin (newBin (BitVec.ofNat 8 j.tagFlow) 0 (some (node, hdrMsgId w)) p) (headerLines s j) s

/-- An OFFLOAD_DONE, or a NACK of an OFFLOAD_REQ: the request is over; its lines stay in the device's own queue
(05 R123, 15 R366). A refusal counts under OFFLOAD_REFUSED. -/
def offloadOver (node : BitVec 12) (id : BitVec 32) (refused : Bool) (s : State) : State :=
  if s.rnd.offloads.any (fun q => q.node == node && q.msgId == id) then
    let s1 := { s with rnd := { s.rnd with offloads := s.rnd.offloads.filter (fun q => !(q.node == node && q.msgId == id)) } }
    if refused then raise 0x0617 .fab 0 s1 else s1
  else s

end Sys2Proof.Machine
end

