-- ==== Sys2Proof/Machine/KeeperOps.lean ====
section
/-! DEFINITION. Erasure of layout keys and of sealed regions (20 R443-R445), shared by the commands and events that
erase, and the scrub as memory comes up. -/

namespace Sys2Proof.Machine

/-- The slots a mask names. -/
def slotNamed (mask : BitVec 64) (n : Nat) : Bool := bitAt mask n

/-- An empty slot; the import count of a slot is part of what is overwritten with zeros (20 R440, R444). -/
def KeySlot.empty : KeySlot where
  key := 0
  keyId := 0
  imports := 0
  occupied := false

/-- Occupied slots as a mask (20 R440). -/
def occupiedMask (s : State) : BitVec 64 :=
  BitVec.ofNat 64 (packFields ((List.finRange 64).map (fun i => (i.val, 1, b2n (s.keep.slots[i]).occupied))))

/-- Registered regions that an erasure names (20 R443, R444). -/
def namedRegions (e : Erasure) (s : State) : List Region :=
  s.keep.regions.filter (fun r => e.all || slotNamed e.mask r.slot)

/-- MEM admits traffic: on, and not frozen (20 R444, 17 R403). -/
def memWorks (s : State) : Bool := domOn s .mem && !s.hbm.frozen

/-- A range of memory reads as zero (20 R444). -/
def zeroRange (a n : Nat) (m : Memory) : Memory := m.filter (fun c => !(decide (a ≤ c.1) && decide (c.1 < a + n)))

/-- Regions zeroed in HBM (20 R444 step 3). -/
def zeroRegions : List Region → State → State
  | [], s => s
  | r :: t, s => zeroRegions t { s with hbmMem := zeroRange r.start r.len s.hbmMem }

/-- Step 4 of an erasure: count, flag and event (20 R444). -/
def recordErasure (e : Erasure) (bytes : Nat) (s : State) : State :=
  setSmb 8 (setFlag 10 (raise 0x0A12 .keep (detail [du 64 e.mask.toNat, du 8 e.cause, du 56 bytes])
    { s with keep := { s.keep with erases := s.keep.erases + 1 } }))

/-- Steps 3 and 4 of an erasure whose regions can be zeroed now (20 R444). -/
def finishErasure (e : Erasure) (s : State) : State :=
  let l := namedRegions e s
  recordErasure e ((l.map (·.len)).sum)
    (zeroRegions l { s with keep := { s.keep with regions := s.keep.regions.filter (fun r => !l.contains r) } })

/-- Finish erasures in order. -/
def finishErasures : List Erasure → State → State
  | [], s => s
  | e :: t, s => finishErasures t (finishErasure e s)

/-- Sealed ingests on named slots fail with KEY_ERASED (20 R444 step 2, 03 R79). -/
def eraseIngests (mask : BitVec 64) : List IngestRun → State → State
  | [], s => s
  | r :: t, s =>
    let s1 :=
      match ingestJob s r with
      | some j => if j.sealed_ && slotNamed mask j.keySlot then failIngest r 0x25 0 r.recNo s else s
      | none => s
    eraseIngests mask t s1

/-- Step 1 of an erasure: the named slots are empty, and the tamper log has an entry (20 R444, R445). -/
def eraseSlots (e : Erasure) (s : State) : State :=
  { s with keep := { s.keep with
      slots := Vector.ofFn (fun i => if slotNamed e.mask i.val then KeySlot.empty else s.keep.slots[i])
      log := ({ cause := e.cause, mask := e.mask, ticks := s.keep.ticks,
                lt := if s.keep.battery then 0 else ltNow s } :: s.keep.log).take 32 } }

/-- Step 2: the decryptor key register is cleared where it holds a named slot's key (20 R444). -/
def eraseDecryptor (mask : BitVec 64) (s : State) : State :=
  match s.lay.decryptor with
  | some (n, _) => if slotNamed mask n then { s with lay := { s.lay with decryptor := none } } else s
  | none => s

/-- An erasure: slots and decryptor now; its regions are zeroed while MEM works (ERASURE_ZEROING_DONE ends that), wait
under the scrub mark while it does not, and with no region the erasure is complete at once (20 R444). -/
def erase (e : Erasure) (s : State) : State :=
  let s1 := eraseIngests e.mask s.lay.ingests (eraseDecryptor e.mask (eraseSlots e s))
  if (namedRegions e s1).isEmpty then
    if s1.keep.battery ∨ running s1 = false then { s1 with keep := { s1.keep with scrub := s1.keep.scrub ++ [e] } } else recordErasure e 0 s1
  else if memWorks s1 then { s1 with keep := { s1.keep with zeroing := s1.keep.zeroing ++ [e] } }
  else { s1 with keep := { s1.keep with scrub := s1.keep.scrub ++ [e] } }

/-- An erasure of every slot and region (20 R444). -/
def eraseAll (cause : Nat) (s : State) : State := erase { mask := BitVec.allOnes 64, cause := cause, all := true } s

/-- MEM powers up or leaves self-refresh: every region under the scrub mark, and every one whose zeroing was cut off, is
zeroed before traffic is admitted (20 R444). -/
def scrubRegions (s : State) : State :=
  let l := s.keep.scrub ++ s.keep.zeroing
  finishErasures l { s with keep := { s.keep with scrub := [], zeroing := [] } }

/-- MEM stops: a zeroing in progress waits under the scrub mark (20 R444). -/
def memStops (s : State) : State :=
  { s with keep := { s.keep with scrub := s.keep.scrub ++ s.keep.zeroing, zeroing := [] } }

/-- The keeper raises an event: now, or once main power is present and the device starts (20 R439, R446, R453). -/
def keeperTell (code : Nat) (det : W128) (s : State) : State :=
  if s.keep.battery ∨ running s = false then { s with keep := { s.keep with later := s.keep.later ++ [(code, det)] } }
  else raise code .keep det s

/-- An event whose detail is the tick count at which it arose (20 R453). -/
def keeperRaise (code : Nat) (s : State) : State := keeperTell code (detail [du 48 s.keep.ticks.toNat]) s

/-- Events that arose on battery are written when main power is present (20 R453). -/
def raiseLater : List (Nat × W128) → State → State
  | [], s => s
  | (c, d) :: t, s => raiseLater t (raise c .keep d s)

/-- The events that wait are written: main power is present and the device runs (20 R453). -/
def flushKeeper (s : State) : State :=
  if s.keep.battery ∨ running s = false then s
  else raiseLater s.keep.later { s with keep := { s.keep with later := [] } }

/-- Main power returns to the keeper (20 R438, R453). -/
def keeperPowered (s : State) : State :=
  flushKeeper { s with keep := { s.keep with battery := false, stopped := false } }

/-- Debug access opens once every slot is erased with cause 3 (20 R448). -/
def openDebug (s : State) : State :=
  let s1 := eraseAll 3 s
  raise 0x0A15 .keep 0 { s1 with keep := { s1.keep with debug := true, dbgHeld := false } }

/-- A JTAG request is held until the device is in READY or HOLD (20 R448). -/
def heldDebug (m : Mode) (s : State) : State :=
  if s.keep.dbgHeld ∧ (m = .ready ∨ m = .hold) then openDebug s else s

end Sys2Proof.Machine
end

