-- ==== Sys2Proof/Machine/PowerBase.lean ====
section
/-! DEFINITION. What modes, resets and supplies do to the other parts: time sources, tracking off, calibration aborted,
pairing ended, a stripe halted, memory and link down or up (09 R210, R217, 15 R368, R369, 16 R380, 18 R417, 19 R425, R432). -/

namespace Sys2Proof.Machine

/-! ### Time bases (16 R378, R380, R386) -/

/-- One base replaced. -/
def setBase (b : Fin 4) (x : TimeBase) (s : State) : State := { s with time := { s.time with base := s.time.base.set b.val x } }

/-- A stripe is ARMED, RUNNING or ENDING: FT and ST are not stepped (16 R385). -/
def stripeFires (s : State) : Bool := s.seq.st == .armed || s.seq.st == .running || s.seq.st == .ending

/-- ST with source 5 equals FT (16 R386). -/
def deriveSt (s : State) : State :=
  let st := s.time.base[(1 : Fin 4)]
  let ft := s.time.base[(0 : Fin 4)]
  if st.src = 5 ∧ domPowered s .trk then setBase 1 { st with acc := ft.acc, rate := ft.rate, state := ft.state } s else s

/-- A source applies to a base (16 R378, R380, R382, R386): free run at the nominal rate; an FT master is locked; an
outside source begins to acquire, from the last rate where the base had a value. -/
def applySource (b : Fin 4) (src : Nat) (s : State) : State :=
  let x := s.time.base[b]
  let y := { x with src := src, acquired := false, lockRun := 0, exchanges := 0 }
  deriveSt (setBase b
    (if src = 0 then { y with rate := 0, state := 3 }
     else if src = 2 then { y with rate := 0, state := 1 }
     else { y with state := if x.state = 0 then 0 else 2 }) s)

/-- A base loses its value: zero and unset (16 R380). Its source stays configured. -/
def loseBase (b : Fin 4) (s : State) : State :=
  setBase b { TimeBase.init with src := (s.time.base[b]).src, steps := (s.time.base[b]).steps } s

/-- FT and ST power up again and take their sources (16 R380). -/
def resumeBases (s : State) : State :=
  applySource 1 (s.time.base[(1 : Fin 4)]).src (applySource 0 (s.time.base[(0 : Fin 4)]).src s)

/-! ### DAC outputs (09 R217, 18 R410) -/

/-- Nearest integer to n / d for d > 0, ties up (18 R410). -/
def divTu (n d : Int) : Int := (2 * n + d) / (2 * d)

/-- The code at the core of DAC d: gain and offset corrected (18 R410). -/
def dacRaw (s : State) (d : Nat) (code : Int) : Int :=
  let k := divTu (2 ^ 24 * 10 ^ 6) (10 ^ 6 + calValue s 0 d 0)
  let o := divTu (calValue s 0 d 1 * 2 ^ 19) (10 ^ 7)
  (code * k + 2 ^ 23) / 2 ^ 24 - o

/-- That code, clamped (18 R410). -/
def dacCore (s : State) (d : Nat) (code : Int) : Int := clampInt (-524288) 524287 (dacRaw s d code)

/-- A calibration run measures the DACs: their outputs carry 0 mA (18 R415). -/
def calDacs (s : State) : Bool := s.cal.st == 2 && bitAt s.cal.targets 0

/-- DAC d takes a code (09 R217, 18 R410); it shows on the output once a calibration of the DACs is over (18 R415). -/
def setDac (d : Fin 4) (code : Int) (s : State) : State :=
  if s.trk.dac[d] = code then s
  else
    let s1 := { s with trk := { s.trk with dac := s.trk.dac.set d.val code } }
    if calDacs s then s1 else emit (.dac d.val (dacCore s d.val code)) s1

/-- Every DAC shows its code again (18 R415). -/
def showDacs (s : State) : State :=
  ([0, 1, 2, 3] : List (Fin 4)).foldl (fun t d => emit (.dac d.val (dacCore s d.val s.trk.dac[d])) t) s

/-- PARK of a DAC (09 R217). -/
def parkCode (s : State) (d : Fin 4) : Int := signedNat 20 (bitsNat s.cfg.act.dacCfg[d] 4 20)

/-- Every DAC outputs PARK (09 R210, R217). -/
def parkDacs (s : State) : State := [0, 1, 2, 3].foldl (fun t d => setDac d (parkCode s d) t) s

/-- Tracking goes OFF and the DACs park (09 R210). -/
def trackOff (s : State) : State :=
  parkDacs { s with trk := { s.trk with st := .off, fire := none, arming := false, lockRun := 0, feRun := 0 } }

/-! ### Calibration aborted (18 R417) -/

/-- C2 of a CAL_RUN (13 R315). -/
def calWords (s : State) : List W128 :=
  [word [(0, 32, s.cal.count.toNat), (32, 4, s.cal.accepted.toNat), (36, 4, s.cal.failedMask.toNat)]]

/-- A run in progress is aborted: nothing applied or counted; its command or item ends ABORTED (18 R417). -/
def abortCal (s : State) : State :=
  if s.cal.st = 2 then
    let s0 := { s with cal := { s.cal with st := 0, item := none } }
    let s1 := raise 0x0813 .trk 0 (if calDacs s then showDacs s0 else s0)
    match s.cal.item with
    | some (f, q) => activateTables (failItem f q stAborted 0 s1)
    | none => settle (fun w => if w.on = .calRun then some (stAborted, 0, []) else none) s1
  else s

/-! ### Pairing ended (15 R368-R370) -/

/-- PAIR_FAIL on both routes (15 R369). -/
def sendPairFail (cause : Nat) (s : State) : State :=
  if s.fab.pair.st = .unpaired then s
  else sendBoth s.fab.pair.partner.toNat 0x13 1 (wordBytes (word [(0, 8, cause)])) s

/-- The device is UNPAIRED: a peer witness that was the partner is lost, a second mirror is dropped (15 R368, R370). -/
def unpair (s : State) : State :=
  let p := s.fab.pair.partner
  let s1 := { s with
    fab := { s.fab with pair := { Pair.init with handovers := s.fab.pair.handovers, takeovers := s.fab.pair.takeovers } }
    led := { s.led with second := false } }
  if s.led.witness = .peer p ∧ s.fab.pair.st ≠ .unpaired then loseWitness s1
  else if s.led.second then settleAcks s1 else s1

/-! ### A stripe halted (19 R424, R432) -/

/-- GBLANK is driven high and the strobe ends: a flash whose strobe has risen counts as executed. The stripe raises no
STRIPE_STOPPED; it stays RUNNING in the ledger and waits as a stopped stripe (19 R424, R432). -/
def haltStripe (s : State) : State :=
  let s1 := endFill s
  let q := s1.seq
  { s1 with
    seq := { q with
      st := if q.item.isSome ∧ q.st ≠ .idle then .stopped else q.st
      causes := if q.st = .stopped then q.causes else []
      met := []
      gblank := true
      gstrobe := false
      framed := none
      fired := []
      m := if q.st = .stopped then q.m else q.strobed }
    trk := { s1.trk with fire := none } }

/-! ### Link, memory and store with their domains (08 R186, 17 R399, R401, 19 R425) -/

/-- The blanker link is DOWN with nothing outstanding; failed lanes stay failed (08 R186, R187, 19 R420, R425). -/
def linkReset (s : State) : State := { s with link := { Link.init with failed := s.link.failed } }

/-- The store holds nothing (19 R425). -/
def storeLost (s : State) : State := { s with store := Store.init }

/-- Every pseudo-channel is trained now (17 R401, 19 R425). -/
def trainHbm (s : State) : State :=
  { s with hbm := { s.hbm with
      frozen := false
      pcs := Vector.ofFn (fun i =>
        { s.hbm.pcs[i] with
          slice := false
          trained := ftNow s
          tempAt := s.hbm.temp[(if i.val < 32 then 0 else 1 : Fin 2)]
          due := false }) } }

/-- The LFSRs are seeded at MEM power-up (17 R399). -/
def seedHbm (s : State) : State :=
  { s with hbm := { s.hbm with pcs := Vector.ofFn (fun i =>
      { s.hbm.pcs[i] with lfsr := lfsrStart i.val }) } }

/-- MEM comes up: trained, and the scrub done before traffic (17 R401, 20 R444). The caller has set the mode. -/
def memUp (s : State) : State := scrubRegions (trainHbm s)

/-- Homing is lost where the scan channel counts quadrature (19 R425). -/
def loseQuadratureHome (s : State) : State :=
  match scanChannel s with
  | some c => if posMode s.cfg.act.posCfg[c] = 1 then loseHome s else s
  | none => s

end Sys2Proof.Machine
end

