-- ==== Sys2Proof/Machine/PowerOps.lean ====
section
/-! DEFINITION. Mode changes, HOLD, resets and start-up (19 R420-R437, 21 R461, R463). -/

namespace Sys2Proof.Machine

/-! ### Entering a mode (19 R422, R436, R437) -/

/-- MODE takes a new value: flag, event, history (12 R268, 19 R436, R437). -/
def enterMode (m : Mode) (trigger : Nat) (s : State) : State :=
  let s1 := { s with pm := { s.pm with
    mode := m
    target := m
    changing := false
    claimWait := false
    modeHistory := ({ old := s.pm.mode, new := m, trigger := trigger, ft := ftNow s, lt := ltNow s } :: s.pm.modeHistory).take 64 } }
  heldDebug m (setFlag 0 (raise 0x0120 .ctrl (detail [du 8 s.pm.mode.code, du 8 m.code, du 8 trigger]) s1))

/-- C2 of DEV_SET_MODE (13 R297). -/
def modeWords (old new : Mode) (tUs : Nat) : List W128 := [word [(0, 4, old.code), (4, 4, new.code), (32, 32, tUs)]]

/-- The DEV_SET_MODE that waits for the change completes (13 R297). -/
def settleMode (status reason : Nat) (results : Mode → List W128) (s : State) : State :=
  settle (fun w => match w.on with
    | .modeChange old => some (status, reason, results old)
    | _ => none) s

/-- A change fails and the old mode stands; a port granted for it is released (19 R423, R435). -/
def failMode (status reason : Nat) (s : State) : State :=
  let s1 := if s.pm.changing ∧ s.pm.target = .expose ∧ s.link.held ∧ linkUp s then sendRelease s else s
  settleMode status reason (fun _ => []) (raise 0x0121 .ctrl 0
    { s1 with pm := { s1.pm with changing := false, claimWait := false, target := s1.pm.mode } })
where
  /-- the link can carry a control frame -/
  linkUp (s : State) : Bool := s.link.st == .configuring || s.link.st == .trained

/-! ### Preconditions (19 R422, R423) -/

/-- The reasons a transition can fail with before it begins, in order; none where the table has no such transition
(19 R422). -/
def modePre (old new : Mode) : Option (List Nat) :=
  match old, new with
  | .standby, .ready => some []
  | .ready, .standby => some [3, 8, 9]
  | .ready, .expose => some [5, 6, 8, 10]
  | .expose, .ready => some [4]
  | .ready, .render => some [8, 9]
  | .render, .ready => some []
  | .ready, .shadow => some [5, 6, 8, 10]
  | .shadow, .ready => some [8]
  | .ready, .calibrate => some [3, 8, 10]
  | .calibrate, .ready => some []
  | _, _ => none

/-- An item is ACCEPTED or RUNNING (11 R247). -/
def Item.busy (i : Item) : Bool := i.st == .accepted || i.st == .running

/-- A precondition holds (19 R423). -/
def preHolds (s : State) (target : Mode) (reason : Nat) : Bool :=
  match reason with
  | 3 => !s.led.items.any Item.busy && s.dma.ch.toList.all (fun c => c.descs.isEmpty)
  | 4 => !s.led.items.any (fun i => i.kind == 4 && i.busy)
  | 5 => s.cfg.btab.isSome
  | 6 => s.link.st == .trained
  | 8 =>
    match target with
    | .expose => s.fab.pair.role != 2
    | .shadow => s.fab.pair.role == 2
    | _ => s.fab.pair.st == .unpaired
  | 9 => s.trk.st == .off && !(scanHolder s && (s.scan.st == .moving || s.scan.st == .stopping || s.scan.st == .homing))
  | 10 => s.pm.railsLow == 0
  | _ => true

/-- A change to `m` begins, or fails its first precondition (19 R422, R423). -/
def beginChange (m : Mode) (trigger : Nat) (s : State) : State :=
  match (modePre s.pm.mode m).bind (fun l => l.find? (fun r => !preHolds s m r)) with
  | some r => failMode stBadState r s
  | none =>
    let claims := m == .expose || s.pm.mode == .expose
    let s1 := { s with pm := { s.pm with changing := true, target := m, trigger := trigger, claimWait := claims } }
    if m = .expose then sendClaim false s1
    else if s.pm.mode = .expose then sendRelease s1
    else s1

/-- A reset's mode is re-entered: at once, or, where the target needs it, once the link has trained (19 R430). -/
def reenterMode (s : State) : State :=
  match s.pm.reenter with
  | none => s
  | some m =>
    if s.pm.mode ≠ .ready ∨ s.pm.changing then { s with pm := { s.pm with reenter := none } }
    else if (m = .expose ∨ m = .shadow) ∧ s.link.st ≠ .trained ∧ s.link.st ≠ .degraded then s
    else beginChange m 5 { s with pm := { s.pm with reenter := none } }

/-! ### Side effects of transitions (19 R422, R425) -/

/-- TRK loses its contents; banks are kept in CTRL (19 R425). -/
def trackDown (s : State) : State :=
  loseQuadratureHome (releaseSpo { s with trk := { Track.init with banks := s.trk.banks, active := s.trk.active } })

/-- A peer's request stops as RENDER is left: OFFLOAD_DONE with ABORTED (19 R422). -/
def abortOffloads : List BinRun → State → State
  | [], s => s
  | b :: t, s => abortOffloads t (if b.req.isSome then endBin { b with failed := 7 } s else s)

/-- What leaving a mode for another does, before the new mode is entered (19 R422, R425). -/
def leaveMode (old new : Mode) (s : State) : State :=
  match old, new with
  | .ready, .standby =>
    memStops (storeLost (linkReset (dropPorts (loseBase 1 (loseBase 0
      (trackDown (trackOff { s with rnd := Render.init })))))))
  | .ready, .render => storeLost (linkReset (loseBase 1 (trackDown s)))
  | .ready, .calibrate => storeLost (trackOff s)
  | .render, .ready => abortOffloads s.rnd.bins s
  | _, _ => s

/-- RETENTION_FAILED naming a table: its code is not given (19 R425; DESIGN CHOICE, safe, log 25). -/
def retentionFailed (n : Nat) (s : State) : State :=
  raise 0x0129 .ctrl (detail [du 8 (Config.openCode 2 n).toNat]) s

/-- A coefficient bank is empty, and no longer active (19 R425). -/
def dropBank (b : Fin 2) (s : State) : State :=
  { s with trk := { s.trk with
      banks := s.trk.banks.set b.val none
      active := if s.trk.active = some b.val then none else s.trk.active } }

/-- A table discarded as if never loaded: beam table, layer map, render parameters, coefficient banks 0 and 1, scan
profile (19 R425). -/
def clearTable (n : Nat) (s : State) : State :=
  if n = 0 then { s with cfg := { s.cfg with btab := none, btabStaged := none } }
  else if n = 1 then { s with cfg := { s.cfg with lmap := none, lmapStaged := none } }
  else if n = 2 then { s with cfg := { s.cfg with rp := none, rpStaged := none } }
  else if n = 3 then dropBank 0 s
  else if n = 4 then dropBank 1 s
  else { s with scan := { s.scan with profile := none } }

/-- A restored table whose CRC fails is discarded as if never loaded (19 R425). -/
def dropTable (n : Nat) (s : State) : State := retentionFailed n (clearTable n s)

/-- The tables a mask names. -/
def dropTables (bad : BitVec 6) : List Nat → State → State
  | [], s => s
  | n :: t, s => dropTables bad t (if bitAt bad n then dropTable n s else s)

/-- What entering a mode from another does, once it is entered (19 R422, R425, 10 R227, 19 R432). -/
def arrive (old new : Mode) (bad : BitVec 6) (s : State) : State :=
  match old, new with
  | .standby, .ready => dropTables bad [0, 1, 2, 3, 4, 5] (memUp (resumeBases s))
  | .render, .ready => resumeBases s
  | .ready, .expose => resumeStripe (becomeHolder { s with link := { s.link with lost := false } })
  | _, _ => s

/-- A change completes (19 R422, 13 R297). -/
def completeChange (bad : BitVec 6) (tUs : Nat) (s : State) : State :=
  let old := s.pm.mode
  let new := s.pm.target
  let s1 := enterMode new s.pm.trigger (leaveMode old new s)
  settleMode stOk 0 (fun from_ => modeWords from_ new tUs) (arrive old new bad s1)

/-! ### HOLD (19 R424) -/

/-- The device enters HOLD with a cause; `rec` is word 0 bits [63:0] of the frozen record for cause 1 (19 R424, R435). -/
def enterHold (cause : Nat) (rec : Nat) (s : State) : State :=
  if s.pm.mode = .hold ∨ s.pm.mode = .recovery ∨ running s = false then s
  else
    let s0 := if s.pm.changing then failMode stFault 11 s else s
    let drives := scanHolder s0
    let s1 := abortCal (trackOff (haltStripe (memStops (sendPairFail 1 s0))))
    let s2 := { s1 with scan := { s1.scan with faultFrames := if drives then 100 else 0 } }
    let s3 := enterMode .hold 4 { s2 with pm := { s2.pm with reenter := none } }
    setFlag 1 (raise 0x0122 .ctrl (word [(0, 8, cause), (64, 64, if cause = 1 then rec else 0)]) s3)

/-! ### Resets (19 R430-R434) -/

/-- Numbers of the resets that R430 gives none: 5 power-on reset, 6 Function Level Reset, 7 PERST. -/
def kindCode (kind : Nat) : Nat := if 1 ≤ kind ∧ kind ≤ 4 then kind else (Config.openCode 0 kind).toNat

/-- The rail that a supply reset names (19 R435); VDD_AON where it was a power-on reset. -/
def resetRail (kind trigger : Nat) (s : State) : Nat :=
  if trigger ≠ 3 then 0 else if kind = 5 then 8 else ((s.pm.resetHistory.head?).map (·.rail)).getD 0

/-- RESET_OCCURRED with kind, trigger and the LT at which the reset began, and the rail of a supply reset (19 R432, R435,
R437; DESIGN CHOICE, safe, log 25). Triggers: 1 command, 2 watchdog, 3 supply, 4 temperature, 5 RESET_N or power, 6 PCI Express. -/
def resetOccurred (kind trigger : Nat) (lt : BitVec 32) (s : State) : State :=
  raise 0x0125 .aon (detail [du 8 (kindCode kind), du 8 (Config.openCode 1 trigger).toNat, du 32 lt.toNat,
    du 8 (resetRail kind trigger s)]) s

/-- A reset is recorded in the history (19 R436). -/
def recordReset (kind trigger rail : Nat) (s : State) : State :=
  { s with pm := { s.pm with
      resetLt := ltNow s
      heldKind := kind + 16 * trigger
      resetHistory := ({ kind := kind, trigger := trigger, lt := ltNow s, rail := rail, mode := s.pm.mode } ::
        s.pm.resetHistory).take 32 } }

/-- A calibration run is aborted by a reset; its item runs again afterward (18 R417). -/
def resetCal (s : State) : State :=
  let s1 := { s with cal := { s.cal with st := 0, item := none } }
  let s2 := if calDacs s then showDacs s1 else s1
  if s.cal.st = 2 then raise 0x0813 .trk 0 s2 else s2

/-- How every reset of kind 1-4 begins: the history, PAIR_FAIL of kinds 2 and above, GBLANK high, the stripe halted, SPO
released, a calibration run aborted (19 R430, R432, 15 R369, 18 R417). -/
def beginReset (kind trigger rail : Nat) (s : State) : State :=
  let s1 := setSmb 4 (recordReset kind trigger rail s)
  let s2 := if 2 ≤ kind ∧ kind ≤ 4 then sendPairFail 2 s1 else s1
  resetCal (releaseSpo (haltStripe s2))

/-- The firmware is running: FW_STATE 3 and its flag (12 R267, R268, 19 R434). -/
def fwReady (s : State) : State := setFlag 9 { s with pm := { s.pm with fwState := 3 } }

/-- The firmware restarts with everything kept but the commands in progress, and re-enters the mode it was in
(19 R430, 13 R327). -/
def restart (kind trigger : Nat) (s : State) : State :=
  let prev := s.pm.mode
  let lt := s.pm.resetLt
  let s1 := { s with
    mb := { s.mb with running := [] }
    diag := { s.diag with loop := none }
    pm := { s.pm with changing := false, claimWait := false, target := prev, commandedReset := none } }
  if prev = .recovery then resetOccurred kind trigger lt s1
  else
    let stays := prev == .ready || (prev == .hold && kind == 1)
    let s2 := if stays then s1 else enterMode .ready 5 s1
    let s3 := { s2 with pm := { s2.pm with reenter := if stays || prev == .hold then none else some prev } }
    reenterMode (resetOccurred kind trigger lt
      (if s3.led.rebuilt then fwReady s3 else { s3 with pm := { s3.pm with fwState := 2 } }))

/-- A firmware restart, kind 1 (19 R430, R431). -/
def resetFirmware (trigger : Nat) (s : State) : State := restart 1 trigger (beginReset 1 trigger 0 s)

/-- What a datapath reset loses in ING, RND, STORE, SEQ, MEM and TRK (19 R430, R431): work in progress, staged tables, the
link, ST; HBM contents and active tables are kept. -/
def loseDatapath (s : State) : State :=
  let s1 := unpair (linkReset (storeLost (trackDown { s with
    lay := { Layout.init with lastJob := s.lay.lastJob, lastMap := s.lay.lastMap }
    rnd := Render.init
    dma := { s.dma with copies := [] }
    cfg := { s.cfg with btabStaged := none, lmapStaged := none, rpStaged := none } })))
  applySource 1 (s1.time.base[(1 : Fin 4)]).src (loseBase 1 s1)

/-- A datapath reset, kind 2 (19 R430, R431): the stacks wait in self-refresh, and MEM comes up again. -/
def resetDatapath (s : State) : State :=
  let s1 := loseDatapath (beginReset 2 1 0 s)
  let s2 := restart 2 1 s1
  scrubRegions (trainHbm (seedHbm s2))

/-! ### Resets of kinds 3 and 4 and power-on resets (19 R430, R431, R434) -/

/-- An interlock keeps its latch and takes its reset configuration (10 R234, 19 R431). -/
def Ilk.afterReset (i : Ilk) : Ilk := { i with cfg := Ilk.init.cfg }

/-- The state that such a reset leaves before the boot ROM runs: power-on values everywhere, but for what R431 keeps
(19 R430, R431). -/
def resetState (por keepHbm : Bool) (s : State) : State :=
  let z := State.reset
  { z with
    pending := s.pending
    out := s.out
    hostMem := s.hostMem
    hbmMem := if keepHbm then s.hbmMem else []
    nor := s.nor
    upd := { s.upd with items := [] }
    keep := { s.keep with debug := false, dbgHeld := s.keep.dbgHeld && !por }
    cal := { s.cal with st := 0, targets := 0, item := none, iRef := 0, last := [], adc := Cal.init.adc,
                        limits := Cal.limitsInit, accepted := 0, failedMask := 0 }
    svc := s.svc
    smb := if por then { z.smb with addr := s.smb.addr } else s.smb
    ilk := if por then z.ilk else s.ilk.map Ilk.afterReset
    seq := { z.seq with wdLatch := s.seq.wdLatch && !por }
    link := { z.link with failed := if por then 0 else s.link.failed }
    hbm := if por then z.hbm else { z.hbm with log := s.hbm.log, frozenRec := s.hbm.frozenRec, kindCnt := s.hbm.kindCnt }
    time := if por then z.time else { z.time with base := z.time.base.set 2 (s.time.base[(2 : Fin 4)]) }
    pm := { z.pm with
      held := .no
      railMv := s.pm.railMv
      railsLow := s.pm.railsLow
      railMin := if por then z.pm.railMin else s.pm.railMin
      warnings := if por then 0 else s.pm.warnings
      recoveries := if por then 0 else s.pm.recoveries
      resetHistory := if por then [] else s.pm.resetHistory
      watchdogResets := if por then 0 else s.pm.watchdogResets
      thermalTrips := if por then 0 else s.pm.thermalTrips
      resetLt := s.pm.resetLt
      heldKind := s.pm.heldKind }
    free := s.free }

/-- The update state is erased (21 R461). -/
def eraseUpdate (s : State) : State :=
  { s with upd := { s.upd with st := 0, imgId := 0, imgLen := 0, pieces := 0, imgCrc := 0, digest := 0, held := [] } }

/-- The fiddlehead's outcome where an image is armed or a copy was cut off: boot code 2, 3, 4, 5 or 7 (21 R461). -/
def fiddlehead (b : BootIn) (s : State) : Option Nat :=
  if s.upd.st = 3 ∨ s.upd.st = 4 then
    some (if !b.stagedDigestOk then 3 else if !b.stagedHeaderOk then 5 else if !b.stagedSigOk then 4
      else if s.upd.st = 4 then 7 else 2)
  else none

/-- The boot ROM: an armed image is installed or refused, and the slot is checked (21 R461). -/
def bootRom (b : BootIn) (s : State) : State :=
  let s1 :=
    match fiddlehead b s with
    | none => { s with upd := { s.upd with boot := 1 } }
    | some c =>
      let ok := c == 2 || c == 7
      let s0 := eraseUpdate s
      { s0 with upd := { s0.upd with
          boot := c
          installs := if ok then s0.upd.installs + 1 else s0.upd.installs
          refusals := if ok then s0.upd.refusals else s0.upd.refusals + 1 } }
  if b.slotOk then
    { s1 with
      upd := { s1.upd with runId := b.slotId, cfgVer := b.slotCfgVer, cfgMin := b.slotCfgMin }
      win := { s1.win with fwVer := b.slotFwVer } }
  else { s1 with upd := { s1.upd with boot := 6 } }

/-- What the firmware reports of the boot (21 R461). -/
def reportBoot (code : Option Nat) (s : State) : State :=
  match code with
  | none => s
  | some c => raise (if c = 2 ∨ c = 7 then 0x0B14 else 0x0B15) .ctrl (detail [du 8 c]) s

/-- The values of the configuration store are applied (13 R304, 19 R434 step 6). -/
def applyStore (s : State) : State :=
  let c := s.nor.store
  { s with
    cfg := { s.cfg with act := c.items }
    ilk := Vector.ofFn (fun i => { s.ilk[i] with cfg := c.ilk[i] })
    scan := { s.scan with profile := c.profile }
    trk := { s.trk with banks := c.banks, active := c.activeBank }
    led := { s.led with witness := c.witness, epoch := c.epoch }
    fab := { s.fab with node := c.node, routes := c.routes }
    cal := { s.cal with limits := c.limits }
    time := { s.time with ptpDomain := c.ptpDomain, ftPort := c.ftPort } }

/-- The store's version is compared with the image's, and the store applied, migrated, or left untouched (21 R463). -/
def loadStore (s : State) : State :=
  let v := s.nor.store.ver
  if s.nor.store.valid = false then s
  else if v = s.upd.cfgVer then applyStore s
  else if s.upd.cfgMin ≤ v ∧ v < s.upd.cfgVer then
    raise 0x0B16 .ctrl (detail [du 32 v.toNat, du 32 s.upd.cfgVer.toNat])
      (applyStore { s with nor := { s.nor with store := { s.nor.store with ver := s.upd.cfgVer } } })
  else raise 0x0B17 .ctrl 0 s

/-- The sources of the store apply to the bases (16 R380, 19 R434 step 8). -/
def applySources (s : State) : State :=
  let src := if s.nor.store.valid then s.nor.store.timeSrc else Vector.replicate 4 0
  applySource 3 src[3] (applySource 2 0 (applySource 1 src[1] (applySource 0 src[0] s)))

/-- RECOVERY is entered by the boot ROM, from the mode at the reset (21 R462, 19 R422). -/
def enterRecovery (prev : Mode) (s : State) : State :=
  if prev = .recovery then s
  else enterMode .recovery 5 { s with pm := { s.pm with mode := prev } }

/-- Step 9: the rebuild of the ledger begins; with no witness configured step 10 follows at once (19 R434). -/
def beginRebuild (s : State) : State :=
  let s1 := { s with pm := { s.pm with fwState := 2 } }
  if hasWitness s1 then s1 else fwReady { s1 with led := { s1.led with rebuilt := true } }

/-- Steps 7 and 8: MEM and every other domain powered, the time sources applied (19 R434). -/
def powerDomains (s : State) : State :=
  applySources (parkDacs (scrubRegions (trainHbm (seedHbm (enterMode .ready 5 s)))))

/-- Steps 5-10 of start-up once the boot ROM has started the firmware (19 R434). -/
def firmwareStart (kind trigger : Nat) (code : Option Nat) (s : State) : State :=
  beginRebuild (reportBoot code (resetOccurred kind trigger s.pm.resetLt (powerDomains
    (loadStore { s with pm := { s.pm with fwState := 1 } }))))

/-- The start that follows a reset of kind 3 or 4 or a power-on reset, from the boot ROM on (19 R434, 21 R461, R462).
`prev` is the mode at the reset. -/
def startUp (kind trigger : Nat) (prev : Mode) (b : BootIn) (s : State) : State :=
  if kind = 4 then flushKeeper (resetOccurred 4 trigger s.pm.resetLt (enterRecovery prev s))
  else
    let code := fiddlehead b s
    let s1 := bootRom b s
    if b.slotOk then flushKeeper (firmwareStart kind trigger code s1)
    else flushKeeper (raise 0x0B18 .ctrl 0 (resetOccurred kind trigger s1.pm.resetLt (enterRecovery prev s1)))

/-- A reset of kind 3 or 4 that starts at once (19 R430, R434). -/
def resetDevice (kind : Nat) (b : BootIn) (s : State) : State :=
  let s1 := beginReset kind 1 0 s
  startUp kind 1 s.pm.mode b (resetState false (kind == 3) s1)

/-- A reset with the effects of kind 3, or a power-on reset, that a supply or the die temperature holds
(19 R428, R429). -/
def holdReset (kind trigger rail : Nat) (h : Held) (s : State) : State :=
  let s1 := resetState (kind == 5) (kind == 3) (beginReset kind trigger rail s)
  { s1 with pm := { s1.pm with held := h } }

end Sys2Proof.Machine
end

