-- ==== Sys2Proof/Machine/PairOps.lean ====
section
/-! DEFINITION. The ledger adopted from witness records (11 R255, R257-R259), pairs, takeover and handover
(15 R367-R372). -/

namespace Sys2Proof.Machine

/-! ### Records read back (11 R255, R257) -/

/-- The record with the highest wseq among those that `p` picks (11 R255). -/
def latestRec (p : WRec → Bool) (l : List WRec) : Option WRec :=
  l.foldl (fun b r =>
    if p r then
      match b with
      | none => some r
      | some a => if a.wseq < r.wseq then some r else b
    else b) none

/-- The items that records name, in order of first mention. -/
def itemKeys : List WRec → List (BitVec 8 × BitVec 64) → List (BitVec 8 × BitVec 64)
  | [], acc => acc.reverse
  | r :: t, acc => itemKeys t (if r.ofItem && !acc.contains (r.flow, r.seq) then (r.flow, r.seq) :: acc else acc)

/-- State of an item by its latest record (11 R255). -/
def recState (r : WRec) : ItemSt :=
  match r.rtype with
  | 2 => if r.st = 2 then .running else if r.st = 3 then .done else if r.st = 4 then .failed else .accepted
  | 3 => .running
  | 4 => if r.st = 4 then .failed else .done
  | _ => .accepted

/-- An item as its latest record gives it, without its parameter block; none where it was withdrawn (11 R255, R257). -/
def recItem (r : WRec) : Option Item :=
  if r.rtype = 5 then none
  else
    let st := recState r
    let ended := st == .done || st == .failed
    some {
      flow := r.flow
      seq := r.seq
      kind := r.kind
      st := st
      params := none
      paramCrc := r.paramCrc
      status := r.status
      reason := 0
      result := r.result
      resumes := 0
      h := r.h
      stripe := r.stripe
      detail := 0
      acceptWseq := r.wseq
      finalWseq := if ended then some r.wseq else none
      finalFt := r.ft
      finalLt := r.lt
      published := ended
      cancel := false
      waitResume := r.kind == 4 && st == .running }

/-- The latest record of each item (11 R255). -/
def latestRecs (l : List WRec) : List WRec :=
  (itemKeys l []).filterMap (fun k => latestRec (fun r => r.ofItem && r.flow == k.1 && r.seq == k.2) l)

/-- The items that records give (11 R255). -/
def recItems (l : List WRec) : List Item := (latestRecs l).filterMap recItem

/-- A flow as records give it (11 R255). -/
def recFlow (l : List WRec) (f : BitVec 8) : Option Flow :=
  match latestRec (fun r => decide (6 ≤ r.rtype ∧ r.rtype ≤ 8) && r.flow == f) l with
  | none => none
  | some last =>
    let own := latestRec (fun r => r.rtype == 8 && r.flow == f) l
    let chk := latestRec (fun r => r.rtype == 6 && r.flow == f) l
    let top := (l.filter (fun r => r.ofItem && r.flow == f && r.rtype != 5)).foldl (fun a r => max a (r.seq.toNat + 1)) 0
    some {
      isOpen := last.rtype != 7
      owner := (own.map (·.owner)).getD 0
      nextSeq := BitVec.ofNat 64 (max top ((own.map (·.seq.toNat)).getD 0))
      floor := (chk.map (·.seq)).getD 0
      doneCnt := (chk.map (fun r => bitsOf r.result 0 32)).getD 0
      failCnt := (chk.map (fun r => bitsOf r.result 32 32)).getD 0 }

/-- The flows that records give, with contexts. -/
def recFlows (l : List WRec) : List (Nat × Flow) :=
  (List.range 256).filterMap (fun n => (recFlow l (BitVec.ofNat 8 n)).map (fun x => (n, x)))

/-- The ledger is rebuilt from records of its epoch whose `rec_crc` is right (11 R255, R257). -/
def rebuildLedger (l : List WRec) (s : State) : State :=
  let good := l.filter (fun r => r.epoch == s.led.epoch)
  let items := recItems good
  let top := good.foldl (fun a r => max a r.wseq) 0
  fwReady (raise 0x0403 .ctrl (detail [du 32 good.length])
    { s with led := { s.led with
        flows := recFlows good
        items := items
        wseq := top + 1
        acked := top
        unacked := []
        rebuilt := true
        recs := latestRecs good
        rebuilds := s.led.rebuilds + 1 } })

/-! ### The stripe in the sequencer (07 R154, R165) -/

/-- The sequencer takes a stripe, with nothing of it executed (07 R154, R165). -/
def setStripe (f : BitVec 8) (q : BitVec 64) (stripe linesM1 : Nat) (s : State) : State :=
  let first := nFirstOf (btab s)
  { s with seq := { s.seq.toIdle with
      item := some (f, q)
      stripe := stripe
      linesM1 := linesM1
      nFirst := first
      nLast := nLastOf (btab s) linesM1
      n0 := first
      f := first - 1
      m := first - 1
      h := first - 1
      strobed := first - 1
      hKnown := false } }

/-- A stripe found RUNNING in an adopted ledger waits STOPPED, with the high-water of the grant where the BSA speaks of
it; with tracking lost it waits as for cause 6 (11 R259, 15 R372). -/
def adoptStripe (sb : Nat) (hb : Int) (i : Item) (s : State) : State :=
  match i.job with
  | none => s
  | some j =>
    match streamHdr s j.j with
    | .error _ => s
    | .ok h =>
      let s1 := setStripe i.flow i.seq j.stripe h.linesM1 s
      let same := sb == j.stripe
      { s1 with seq := { s1.seq with
          st := .stopped
          h := if same then hb else s1.seq.h
          hKnown := same
          opened := same
          resumes := i.resumes
          causes := if s.trk.st = .locked ∨ s.trk.st = .acquiring then [] else [6] } }

/-! ### Forming a pair (15 R367, R368) -/

/-- Payload of PAIR_REQ and PAIR_ACK (15 R358). -/
def pairPayload (role : Nat) (s : State) : List Byte :=
  wordBytes (word [(0, 64, Config.serial.toNat), (64, 2, role), (96, 32, s.led.epoch.toNat)]) ++
    wordBytes (BitVec.ofNat 128 (pairCrcs s))

/-- Every open flow and unretired item is written to a witness that has just been taken (11 R252, 15 R368). -/
def copyLedger (s : State) : State := checkpointItems s.led.items (checkpointFlows s.led.flows s)

/-- The partner becomes the witness: records not acknowledged and every unretired record go to it, it is stored, and
LEDGER_WITNESS_SET is raised (15 R368, 11 R252). -/
def takeWitness (p : BitVec 12) (s : State) : State :=
  let s1 := { s with led := { s.led with witness := .peer p, lost := false } }
  raise 0x0400 .ctrl 0 (storeWitness (.peer p) s1.led.epoch (copyLedger (resendTo (.peer p) s1.led.unacked s1)))

/-- What role 1 does about its witness as a pair forms (15 R368). -/
def pairWitness (p : BitVec 12) (s : State) : State :=
  match s.led.witness with
  | .region _ _ _ =>
    if s.led.lost then takeWitness p s
    else copyLedger { s with led := { s.led with second := true, acked2 := s.led.wseq - 1 } }
  | .peer n => if n = p ∧ s.led.lost = false then s else takeWitness p s
  | .none => takeWitness p s

/-- The routing entry of the partner gives no second route (15 R368). -/
def noSecondRoute (s : State) (p : BitVec 12) : Bool :=
  let r := routeOf s p.toNat
  !bitAt r 7 || routePrimary r == routeAlternate r

/-- The pair forms (15 R368, R370). A mirror kept for another client is dropped (15 R367). -/
def formPair (s : State) : State :=
  match s.fab.pair.pending with
  | none => s
  | some (p, role) =>
    let single := noSecondRoute s p
    let m := s.fab.mirror
    let s1 := { s with fab := { s.fab with
      pair := { s.fab.pair with st := .paired, role := role, partner := p, pending := none, req := none,
                                ackSeen := false, beat := none, mismatch := false, singleRoute := single, step := 0 }
      mirror := if m.client = some p then m else { Mirror.init with client := some p, pairEpoch := m.pairEpoch } } }
    let s2 := raise 0x0610 .fab 0 s1
    let s3 := if single then raise 0x0613 .fab 0 s2 else s2
    settle (fun w => if w.on = .pair then some (stOk, 0, [BitVec.ofNat 128 (pairCrcs s)]) else none) (if role = 1 then pairWitness p s3 else s3)

/-- FAB_PAIR fails (15 R368). -/
def failPair (status reason : Nat) (s : State) : State :=
  settle (fun w => if w.on = .pair then some (status, reason, []) else none)
    { s with fab := { s.fab with pair := { s.fab.pair with pending := none, ackSeen := false } } }

/-! ### Flows of the partner (11 R257, R259, 15 R371, R372) -/

/-- Every flow of this device is owned by its partner (15 R372). -/
def disownFlows (s : State) : State :=
  { s with led := { s.led with flows := s.led.flows.map (fun p =>
      if p.2.owner = s.fab.node then (p.1, { p.2 with owner := s.fab.pair.partner }) else p) } }

/-- OWNER records naming this device (11 R259). -/
def writeOwners : List (Nat × Flow) → State → State
  | [], s => s
  | (n, x) :: t, s => writeOwners t (writeRec (flowRec 8 (BitVec.ofNat 8 n) x) s)

/-- The flows and items that the mirror holds of the partner join this ledger, owned by this device; the block of an item
taken over is a value the manual does not give (11 R259, 15 R371, R372; DESIGN CHOICE, safe, log 26). -/
def adoptFlows (s : State) : State :=
  let l := s.fab.mirror.recs
  let fs := ((recFlows l).filter (fun p => p.2.owner == s.fab.pair.partner)).map (fun p => (p.1, { p.2 with owner := s.fab.node }))
  let is := (recItems l).filter (fun i => fs.any (fun p => p.1 == i.flow.toNat) && (findItem s i.flow i.seq).isNone)
  let s1 := { s with led := { s.led with
    flows := fs.foldl (fun t p => tput t p.1 p.2) s.led.flows
    items := s.led.items ++ is.map (fun i =>
      { i with params := some (Config.takenBlock i.flow i.seq i.paramCrc), waitResume := false }) } }
  writeOwners fs s1

/-- The running stripe of the flows adopted. -/
def adoptedStripe (s : State) : Option Item :=
  s.led.items.find? (fun i => i.kind == 4 && i.st == .running && (flow s i.flow).owner == s.fab.node)

/-- This device continues the column from the grant's S_b and H_b: the scan holder, EXPOSE, the flows adopted, the stripe
resumed under its conditions (11 R259, 15 R371, R372). -/
def continueColumn (sb : Nat) (hb : Int) (trigger : Nat) (s : State) : State :=
  let s1 := adoptFlows s
  let s2 := match adoptedStripe s1 with
    | some i => progressRec (adoptStripe sb hb i s1)
    | none => s1
  resumeStripe (becomeHolder (enterMode .expose trigger s2))

/-! ### Takeover (15 R370, R372) -/

/-- Every record of the partner up to the highest seen is held (15 R370). -/
def mirrorWhole (s : State) : Bool :=
  s.fab.mirror.client == some s.fab.pair.partner && s.fab.mirror.recs.all (fun r => decide (r.wseq ≤ s.fab.mirror.upTo))

/-- The last beat's CRCs equal this device's (15 R369, R370). -/
def crcsEqual (s : State) : Bool :=
  match s.fab.pair.beat with
  | some b => b.crcs.toNat == pairCrcs s
  | none => !s.fab.pair.mismatch

/-- The shadow may take over (15 R370). -/
def takeoverReady (s : State) : Bool :=
  s.fab.pair.role == 2 && s.pm.mode == .shadow && s.link.st == .trained && crcsEqual s && mirrorWhole s

/-- A takeover begins: PORT_CLAIM with force (15 R372). -/
def beginTakeover (s : State) : State :=
  sendClaim true { s with fab := { s.fab with pair := { s.fab.pair with st := .paired, takeover := true, step := 0 } } }

/-- The holder keeps the column as a handover ends without success: a port already released is claimed again, and a stripe
that cause 14 stopped resumes, or ends where it was cancelled (15 R371, 11 R248). -/
def keepColumn (s : State) : State :=
  if s.fab.pair.role ≠ 1 then s
  else
    let s1 := if s.fab.pair.step = 6 ∧ s.link.held = false then sendClaim false s else s
    let s2 := { s1 with seq := { s1.seq with causes := s1.seq.causes.filter (fun c => c != 14) } }
    if s2.seq.st = .stopped ∧ s.seq.causes.contains 14 then
      if s2.seq.causes.contains 12 then endStripe .failed stAborted s2 else resumeStripe s2
    else s2

/-- A handover in progress is over without success (15 R371). -/
def failHandover (s : State) : State :=
  let s1 := keepColumn s
  settle (fun w => if w.on = .handover then some (stNoResource, 3, []) else none)
    { s1 with fab := { s1.fab with pair := { s1.fab.pair with step := 0, issuer := false } } }

/-- The partner is lost: a takeover where every condition holds, else PARTNER_LOST (15 R369, R370). -/
def partnerLost (s : State) : State :=
  if s.fab.pair.st = .paired ∨ s.fab.pair.st = .handingOver then
    if s.fab.pair.takeover then s
    else
      let s0 := if s.fab.pair.st = .handingOver then failHandover s else s
      let s1 := raise 0x0612 .fab 0 s0
      if takeoverReady s1 then beginTakeover s1
      else
        let s2 := { s1 with fab := { s1.fab with pair := { s1.fab.pair with st := .partnerLost } } }
        if s1.fab.pair.role = 2 then raise 0x0616 .fab 0 s2 else s2
  else s

/-- The claim of a takeover is refused: the condition is re-examined (15 R370). -/
def takeoverRefused (s : State) : State :=
  { s with fab := { s.fab with pair := { s.fab.pair with st := .partnerLost, takeover := false } } }

/-- The port is granted to a takeover (15 R372). The witness is lost until a new shadow pairs. -/
def takeoverGranted (sb : Nat) (hb : Int) (s : State) : State :=
  let s1 := { s with
    fab := { s.fab with pair := { s.fab.pair with role := 1, takeover := false, takeovers := s.fab.pair.takeovers + 1 } }
    led := { s.led with witness := .peer s.fab.pair.partner, second := false } }
  raise 0x0615 .fab 0 (continueColumn sb hb 3 (loseWitness s1))

/-! ### Handover (15 R371) -/

/-- Payload of HANDOVER_GO and HANDOVER_DONE (15 R358). -/
def handoverPayload (s : State) : List Byte :=
  wordBytes (word [(0, 16, s.seq.stripe), (16, 32, raw 32 s.link.hb), (48, 1, 1)])

/-- The sequencer is at a boundary: IDLE, or STOPPED with h settled (15 R371 step 1). -/
def atHandoverBoundary (s : State) : Bool := s.seq.st == .idle || s.seq.st == .stopped

/-- The shadow is known to be in SHADOW by its last beat (15 R371). -/
def shadowReady (s : State) : Bool :=
  match s.fab.pair.beat with
  | some b => b.mode == 5
  | none => false

/-- Set the step of a handover. -/
def setStep (n : Nat) (s : State) : State := { s with fab := { s.fab with pair := { s.fab.pair with step := n } } }

/-- Step 3, the release: the generator ramps to rest, SPO is released at rest, PORT_RELEASE is sent (15 R371, 10 R227). -/
def releaseColumn (s : State) : State :=
  if s.scan.st = .released then setStep 3 (sendRelease s)
  else if s.scan.st = .idle then setStep 3 (sendRelease (releaseSpo s))
  else rampStop 1 14 0 s

/-- Advance a handover as far as the state allows: boundary and witness on the holder, the claim on the shadow
(15 R371). -/
def handoverStep (s : State) : State :=
  let p := s.fab.pair
  if p.st ≠ .handingOver then s
  else if p.role = 1 then
    match p.step with
    | 1 => if atHandoverBoundary s && shadowReady s then (if s.led.unacked.isEmpty then releaseColumn s else setStep 2 s) else s
    | 2 => if s.led.unacked.isEmpty then releaseColumn s else s
    | _ => s
  else
    match p.step with
    | 4 => s
    | 5 => if s.pm.mode = .shadow ∧ s.link.st = .trained ∧ s.link.claim.isNone then sendClaim false s else s
    | _ => s

/-- A handover begins on this device: the holder goes to its boundary, at once with `now`; the shadow waits for GO
(15 R371). -/
def beginHandover (now issuer : Bool) (region : Option (BitVec 8 × Nat × Nat)) (s : State) : State :=
  let holder := s.fab.pair.role == 1
  let s1 := { s with fab := { s.fab with pair := { s.fab.pair with
    st := .handingOver, step := if holder then 1 else 4, issuer := issuer, now := now, region := region } } }
  handoverStep (if holder && now then boundaryStop 14 s1 else s1)

/-- C2 of FAB_HANDOVER: `h` and `stripe` (13 R313). -/
def handoverWords (stripe : Nat) (h : Int) : List W128 := [word [(0, 32, raw 32 h), (32, 16, stripe)]]

/-- The handover is complete on this device, in its new role (15 R370, R371). -/
def handoverDone (role stripe : Nat) (h : Int) (s : State) : State :=
  let s1 := { s with fab := { s.fab with pair := { s.fab.pair with
    st := .paired, role := role, step := 0, issuer := false, handovers := s.fab.pair.handovers + 1 } } }
  settle (fun w => if w.on = .handover then some (stOk, 0, handoverWords stripe h) else none) (raise 0x0614 .fab 0 s1)

/-- Steps 5 and 6 on the shadow, once granted: the flows adopted with the old holder, or the region named, as witness;
EXPOSE; the stripe resumed; HANDOVER_DONE sent (15 R371, 11 R259). -/
def handoverGranted (sb : Nat) (hb : Int) (s : State) : State :=
  let p := s.fab.pair.partner
  let s1 :=
    match s.fab.pair.region with
    | some (f, a, n) =>
      raise 0x0400 .ctrl 0 (storeWitness (.region f a n) s.led.epoch
        { s with led := { s.led with witness := .region f a n, lost := false, second := true } })
    | none => { s with led := { s.led with witness := .peer p, lost := false } }
  let s2 := { s1 with
    fab := { s1.fab with pair := { s1.fab.pair with role := 1 } }
    led := { s1.led with wseq := max s1.led.wseq (s1.fab.mirror.upTo + 1), acked := s1.fab.mirror.upTo,
                         acked2 := s1.fab.mirror.upTo, epoch := s1.fab.mirror.epoch } }
  let s3 := continueColumn sb hb 2 s2
  handoverDone 1 sb hb (send p.toNat 0x16 1 (handoverPayload s3) s3)

/-- Step 5 on the old holder: SHADOW, its flows owned by the partner, its stripe no longer its own (15 R371). -/
def handoverGiven (stripe : Nat) (h : Int) (s : State) : State :=
  let s1 := disownFlows s
  let s2 := activateTables { s1 with seq := s1.seq.toIdle, led := { s1.led with second := false } }
  handoverDone 2 stripe h (enterMode .shadow 2 s2)

end Sys2Proof.Machine
end

