-- ==== Sys2Proof/Machine/LinkMsgs.lean ====
section
/-! DEFINITION. The blanker link: training, control answers and return messages of the BSA (08 R179-R197). -/

namespace Sys2Proof.Machine

/-! ### Return messages (08 R181-R183) -/

/-- Return lane `i` holds block lock (08 R181). -/
def laneLock (s : State) (i : Nat) : Bool := s.link.rlock.toList.getD i false

/-- The link carries return messages: SEQ on, not DOWN, block lock on the lane in use (08 R181). -/
def linkHears (s : State) : Bool := domOn s .seq && s.link.st != .down && laneLock s s.link.rlane

/-- BSA_PARTNER_VIOLATION with its code, counted by code (08 R196). -/
def bsaViolation (code : Nat) (flash : Int) (s : State) : State :=
  raise 0x0376 .seq (detail [du 8 code, du 16 s.seq.stripe, ds 32 flash]) (stat (sk 0x03070001 (0x200 + code)) s)

/-- Word 1 of a message (08 R183). -/
def msgW1 (m : RetMsg) : W128 := m.body.headD 0

/-- `rcheck` of a message is right (08 R182). -/
def msgCheckOk (m : RetMsg) : Bool :=
  crc32c ((wordBytes m.word0).take 12 ++ wordsBytes m.body) == bitsOf m.word0 96 32

/-- `stripe` of a message, S_b (08 R182). -/
def msgStripe (m : RetMsg) : Nat := bitsNat m.word0 32 16

/-- `value` as a signed number (08 R182). -/
def msgValue (m : RetMsg) : Int := signedNat 32 (bitsNat m.word0 64 32)

/-- Defined bits of word 1 by type (08 R183). -/
def w1Mask (typ : Nat) : Nat :=
  match typ with
  | 0x01 => bits 0 43
  | 0x02 => bits 0 22 + bits 32 82
  | 0x03 => bits 0 25
  | 0x04 => bits 0 64
  | 0x05 => bits 0 2 + bits 16 16
  | _ => bits 0 48

/-- Reserved bits of a message are zero (08 R182, R183, R196 code 1). -/
def msgReservedOk (m : RetMsg) (typ : Nat) : Bool := bitsNat m.word0 49 15 == 0 && maskOk (w1Mask typ) (msgW1 m)

/-- Take a message of type `typ` and `words` words: breaches 1 and 2 discard it; a message already received, or older, is
discarded; an accepted one moves the window, its gap counted (08 R181, R182, R196). -/
def takeMsg (typ words : Nat) (m : RetMsg) (act : State → State) (s : State) : State :=
  if linkHears s = false then s
  else if (msgCheckOk m) = false ∨ msgReservedOk m typ = false then bsaViolation 1 0 s
  else if bitsNat m.word0 0 8 ≠ typ ∨ bitsNat m.word0 8 8 ≠ words ∨ m.body.length + 1 ≠ words then bsaViolation 2 0 s
  else
    let q : BitVec 16 := bitsOf m.word0 16 16
    match s.link.mseq with
    | none => act { s with link := { s.link with mseq := some q } }
    | some old =>
      let d := (q - old).toNat
      if d = 0 ∨ 32768 ≤ d then s
      else act (statAdd (sk 0x03070001 0x120) (d - 1) { s with link := { s.link with mseq := some q } })

/-! ### The link fails (08 R186) -/

/-- The link goes DOWN; a PORT_RELEASE that EXPOSE was left with is not waited for any longer. -/
def linkFails (lane : Nat) (s : State) : State :=
  let s1 := linkDown lane s
  if s1.pm.changing ∧ s1.pm.mode = .expose then { s1 with pm := { s1.pm with claimWait := false } } else s1

/-! ### Training (08 R186, R187) -/

/-- Accepted swing trims take effect as the link trains (18 R415). -/
def applySwing (s : State) : State :=
  { s with cal := { s.cal with
      values := s.cal.swing ++ s.cal.values.filter (fun v => !s.cal.swing.any (fun w => w.1 == v.1 && w.2.1 == v.2.1 && w.2.2.1 == v.2.2.1))
      swing := [] } }

/-- LOCKING is entered: TRAIN blocks, cseq from 0, an open receive window (08 R181, R186). -/
def enterLocking (s : State) : State :=
  emit .trainBlocks (applySwing { s with link := { s.link with
    st := .locking
    locks := 0
    trainSeen := false
    rlock := Vector.replicate 2 true
    rlane := 0
    cseq := 0
    out := []
    chunks := 0
    committed := none
    commitAcked := false
    mseq := none
    statusSeen := false } })

/-- LINK_DOWN_RETRY: DOWN to LOCKING (08 R186). -/
def execLinkDownRetry (s : State) : Host.Outcome State Fault Refusal :=
  .next (if domOn s .seq ∧ s.link.st = .down ∧ loopOnLink s = false then enterLocking s else s)

/-- A lane may not be used: failed, or disabled by `link_lane_disable` (08 R187). -/
def laneBad (s : State) (p : Nat) : Bool := bitAt s.link.failed p || bitAt s.cfg.act.laneDisable p

/-- The physical lane of a logical one (08 R174). -/
def physOf (s : State) (l : Nat) : Option Nat :=
  (List.range 80).find? (fun p => ((s.link.map.toList.getD p 0xFF)).toNat == l)

/-- The lowest-numbered good spare: mapped to no logical lane (08 R187). -/
def goodSpare (s : State) : Option Nat :=
  (List.range 80).find? (fun p => ((s.link.map.toList.getD p 0xFF)).toNat == 0xFF && !laneBad s p)

/-- A logical lane moves from a failed physical lane to a spare: LANE_SPARED (08 R187). -/
def moveLane (l p q : Nat) (s : State) : State :=
  raise 0x0373 .seq (detail [du 8 q, du 16 s.seq.stripe, ds 32 s.seq.f])
    { s with link := { s.link with map := vset (vset s.link.map p 0xFF) q (BitVec.ofNat 8 l) } }

/-- Every logical lane whose physical lane has failed takes a spare; none where the good spares run out (08 R187). -/
def spareLanes : List Nat → State → Option State
  | [], s => some s
  | l :: t, s =>
    match physOf s l with
    | none => spareLanes t s
    | some p =>
      if laneBad s p then
        match goodSpare s with
        | none => none
        | some q => spareLanes t (moveLane l p q s)
      else spareLanes t s

/-- Lanes that the latest TRAIN_STATUS shows unlocked are marked failed (08 R186, R187). -/
def failUnlocked : List Nat → State → State
  | [], s => s
  | p :: t, s => failUnlocked t (if bitAt s.link.locks p then s else failLane p s)

/-- MAPPING: LANE_MAP with the spares taken, or DEGRADED (08 R186, R187). -/
def enterMapping (s : State) : State :=
  match spareLanes (List.range 76) s with
  | some s1 => sendLaneMap { s1 with link := { s1.link with st := .mapping } }
  | none =>
    raise 0x0374 .seq (detail [du 8 0xFF, du 16 s.seq.stripe, ds 32 s.seq.f]) { s with link := { s.link with st := .degraded } }

/-- LOCKING_TIMEOUT: 300 µs after LOCKING was entered (08 R186). -/
def execLockingTimeout (s : State) : Host.Outcome State Fault Refusal :=
  .next
    (if domOn s .seq ∧ s.link.st = .locking then
      if s.link.trainSeen && (laneLock s 0 || laneLock s 1) then enterMapping (failUnlocked (List.range 80) s)
      else linkFails 0xFF s
     else s)

/-- DEGRADED_RETRY: 100 ms in DEGRADED (08 R186). -/
def execDegradedRetry (s : State) : Host.Outcome State Fault Refusal :=
  .next (if s.link.st = .degraded then { s with link := { s.link with st := .down, out := [] } } else s)

/-- TRAIN_STATUS: block lock of the 80 physical lanes (08 R183, R186). -/
def execTrainStatus (m : RetMsg) (s : State) : Host.Outcome State Fault Refusal :=
  .next (takeMsg 0x06 2 m (fun t =>
    if t.link.st = .locking then
      { t with link := { t.link with
          trainSeen := true
          locks := BitVec.ofNat 80 (bitsNat m.word0 64 32 + bitsNat (msgW1 m) 0 48 * 2 ^ 32) } }
    else t) s)

/-- The configuration is complete: TRAINED (08 R186). A mode that a reset waits to re-enter is tried (19 R430). -/
def linkTrained (s : State) : State :=
  reenterMode (raise 0x0370 .seq (detail [du 8 0xFF, du 16 s.seq.stripe, ds 32 s.seq.f])
    { s with link := { s.link with st := .trained } })

/-- CONFIG_COMMIT is acknowledged and STATUS shows its CRC (08 R186). -/
def checkTrained (s : State) : State :=
  if s.link.st = .configuring ∧ s.link.commitAcked ∧ s.link.statusSeen ∧ s.link.committed = some s.link.sCrc then linkTrained s
  else s

/-! ### The high-water (08 R188, R196, 07 R165, R168) -/

/-- The stripe in the sequencer is the BSA's, on the port held (08 R189). -/
def stripeMatches (s : State) (sb : Nat) : Bool :=
  s.link.held && s.seq.item.isSome && s.seq.opened && sb == s.seq.stripe

/-- A breach that makes the stripe fail: stopped with cause 9 (08 R196 codes 4 and 6). -/
def violateStripe (code : Nat) (flash : Int) (s : State) : State :=
  let s1 := bsaViolation code flash s
  boundaryStop 9 { s1 with seq := { s1.seq with violated := true } }

/-- A report of S_b and H_b: it is the value followed; on the stripe's own port it is h, which never falls
(08 R183, R192, R196 code 4). -/
def heedHigh (sb : Nat) (hb : Int) (s : State) : State :=
  let s1 := { s with link := { s.link with hb := hb, sStripe := BitVec.ofNat 16 sb } }
  if stripeMatches s1 sb then
    if s1.seq.hKnown ∧ hb < s1.seq.h then violateStripe 4 hb s1
    else { s1 with seq := { s1.seq with h := hb, hKnown := true } }
  else s1

/-- ENDING ends once n_last has executed (07 R165). -/
def checkDone (s : State) : State :=
  if s.seq.st = .ending ∧ s.seq.h = s.seq.nLast then stripeDone (progressRec s) else s

/-! ### FLASH_ACK (08 R183, R191, R196) -/

/-- The FLASH_ACK of a flash of the device's own port. -/
def ownAck (n hb : Int) (executed : Bool) (rows : Nat) (s : State) : State :=
  let s1 := heedHigh s.seq.stripe hb s
  let s2 := if executed ∧ rows < 512 then violateStripe 6 n s1 else s1
  let s3 :=
    if executed then s2
    else boundaryStop 9 (raise 0x0375 .seq (detail [du 8 0, du 16 s2.seq.stripe, ds 32 n]) (stat (sk 0x03070001 0x130) s2))
  if s3.seq.st = .stopping ∧ (s3.seq.m ≤ n ∨ executed = false) then settleH s3.seq.h s3 else checkDone s3

/-- The device strobed flash n of this stripe (08 R196 code 3). -/
def strobedFlash (s : State) (sb : Nat) (n : Int) : Bool :=
  s.seq.item.isSome && sb == s.seq.stripe && decide (s.seq.nFirst ≤ n ∧ n ≤ s.seq.strobed)

/-- FLASH_ACK (08 R183, R191): on an inactive port only the value followed (08 R196 code 3). -/
def execFlashAck (m : RetMsg) (s : State) : Host.Outcome State Fault Refusal :=
  .next (takeMsg 0x01 6 m (fun t =>
    let hb := signedNat 32 (bitsNat (msgW1 m) 0 32)
    if t.link.held = false then heedHigh (msgStripe m) hb t
    else if strobedFlash t (msgStripe m) (msgValue m) = false then bsaViolation 3 (msgValue m) t
    else ownAck (msgValue m) hb (bitAt (msgW1 m) 32) (bitsNat (msgW1 m) 33 10) t) s)

/-! ### STATUS (08 R183, R184, R196, 07 R171) -/

/-- The temperature lies outside −55 to 200 degrees (08 R196 code 11). -/
def badTemp (t : BitVec 16) : Bool := decide (signedNat 16 t.toNat < -440 ∨ 1600 < signedNat 16 t.toNat)

/-- The BSA's warning flag: TEMP_WARNING once per rise (07 R171). -/
def bsaWarning (on : Bool) (temp : Int) (s : State) : State :=
  let s1 := { s with seq := { s.seq with bsaWarn := on, bsaWarned := on } }
  if on ∧ s.seq.bsaWarned = false then setFlag 3 (raise 0x0368 .seq (tempDetail 1 0 temp) s1) else s1

/-- The BSA's limit flag: TEMP_LIMIT and a stop with cause 3, once per rise (07 R171). -/
def bsaLimitFlag (on : Bool) (temp : Int) (s : State) : State :=
  let s1 := { s with seq := { s.seq with bsaLimit := on } }
  if on ∧ s.seq.bsaLimit = false then boundaryStop 3 (setFlag 3 (raise 0x0369 .seq (tempDetail 1 0 temp) s1)) else s1

/-- The CRC of STATUS against the one committed: training completes, or the configuration is sent again (08 R186, R196
code 10). -/
def statusCrc (s : State) : State :=
  if s.link.st = .trained ∧ s.link.committed ≠ some s.link.sCrc then
    let s1 := boundaryStop 9 (raise 0x037B .seq (detail [du 8 0, du 16 s.seq.stripe, ds 32 s.seq.f]) (bsaViolation 10 0 s))
    if s1.cfg.btab.isSome then sendBeamConfig s1 else { s1 with link := { s1.link with st := .configuring } }
  else checkTrained s

/-- The report of blocked beams is withdrawn while the port is held: breach 12, handled as R37 states
(08 R184, R196, 02 R37). -/
def statusBlocked (was : Bool) (s : State) : State :=
  if s.link.held ∧ s.link.st = .trained ∧ was ∧ stuckReported s = false then
    boundaryStop 1 (raise 0x0223 .seq 0 (bsaViolation 12 0 s))
  else s

/-- The stop in progress whose last flash can no longer be strobed settles with a STATUS (07 R168). -/
def statusSettles (s : State) (sb : Nat) : Bool :=
  s.seq.st == .stopping &&
    (!(stripeMatches s sb) || decide (s.seq.m ≤ s.seq.h) || (s.seq.gblank && !s.seq.gstrobe && s.seq.fired.isEmpty))

/-- What a STATUS message reports is kept (08 R184). -/
def statusFields (w : W128) (s : State) : State :=
  { s with link := { s.link with
      sActive := bitsOf w 18 2
      sStripeSt := bitsOf w 20 2
      sTemp := bitsOf w 0 16
      sCrc := bitsOf w 32 32
      sBlockedCrc := bitsOf w 64 32
      sBlockedCount := bitsOf w 96 18
      statusSeen := true } }

/-- The temperature and the limits that a STATUS message reports (07 R171, 08 R184, R193). -/
def statusTemp (w : W128) (s : State) : State :=
  let temp : BitVec 16 := bitsOf w 0 16
  let s1 := if badTemp temp then bsaViolation 11 0 s else s
  let v := signedNat 16 temp.toNat
  bsaLimitFlag (bitAt w 17 || badTemp temp) v (bsaWarning (bitAt w 16) v s1)

/-- What follows for the stripe from a STATUS message: beams, high-water, and the end of a stop. -/
def statusStripe (m : RetMsg) (was : Bool) (s : State) : State :=
  let s1 := checkDone (heedHigh (msgStripe m) (msgValue m) (statusBlocked was (statusCrc s)))
  if statusSettles s1 (msgStripe m) then settleH s1.seq.h s1 else s1

/-- STATUS (08 R183). -/
def execStatus (m : RetMsg) (s : State) : Host.Outcome State Fault Refusal :=
  .next (takeMsg 0x02 2 m (fun t =>
    statusStripe m (stuckReported t || !t.link.statusSeen) (statusTemp (msgW1 m) (statusFields (msgW1 m) t))) s)

/-! ### ERROR (08 R185, R187) -/

/-- Times of the last reports of error 0x01 on a physical lane, newest first. -/
def errTimes (s : State) (p : Nat) : List Nat := ((List.range 4).filterMap (fun i => tget s.link.errs (4 * p + i)))

/-- Keep the times of reports on a lane. -/
def putErrs (p : Nat) : Nat → List Nat → Tbl Nat → Tbl Nat
  | _, [], t => t
  | i, x :: l, t => putErrs p (i + 1) l (tput t (4 * p + i) x)

/-- A report of error 0x01: the fourth within 1 ms fails the lane (08 R187). -/
def frameError (p : Nat) (s : State) : State :=
  let now := (ltNow s).toNat
  let l := (now :: errTimes s p).take 4
  let s1 := { s with link := { s.link with errs := putErrs p 0 l s.link.errs } }
  if l.length = 4 ∧ (2 ^ 32 + now - l.getLastD now) % 2 ^ 32 ≤ 1000000 then linkFails p (failLane p s1) else s1

/-- ERROR (08 R185, R187). -/
def execError (m : RetMsg) (s : State) : Host.Outcome State Fault Refusal :=
  .next (takeMsg 0x03 2 m (fun t =>
    let code := bitsNat (msgW1 m) 0 8
    let t1 := stat (sk 0x03070001 (0x140 + code % 16)) t
    match physOf t1 (bitsNat (msgW1 m) 8 8) with
    | none => t1
    | some p =>
      if code = 1 then frameError p t1
      else if code = 4 ∨ code = 5 then linkFails p (failLane p t1)
      else t1) s)

/-! ### CTRL_ACK (08 R179, R180, R186, R189, R193) -/

/-- A claim is refused: the mode change that waits on it fails with reason 7; a takeover is re-examined (08 R193,
19 R423, 15 R370). -/
def claimRefused (s : State) : State :=
  let s1 := { s with link := { s.link with claim := none } }
  if s1.pm.changing ∧ s1.pm.claimWait ∧ s1.pm.target = .expose then failMode stBadState 7 s1
  else if s1.fab.pair.takeover then takeoverRefused s1
  else s1

/-- The port is given up: PORT_RELEASED; what waited on the answer goes on (08 R193, 15 R371, 19 R422). -/
def releaseAnswered (s : State) : State :=
  let s1 :=
    if s.link.held then
      raise 0x0378 .seq (detail [du 8 0, du 16 s.seq.stripe, ds 32 s.link.hb]) { s with link := { s.link with held := false } }
    else s
  let s2 := if s1.pm.changing ∧ s1.pm.mode = .expose then { s1 with pm := { s1.pm with claimWait := false } } else s1
  let p := s2.fab.pair
  if p.st = .handingOver ∧ p.role = 1 ∧ p.step = 3 then
    setStep 6 (send p.partner.toNat 0x15 1 (handoverPayload s2) s2)
  else s2

/-- STRIPE_OPEN without hope: breach 13; the stripe stops before its first flash, and a second such answer fails it
(08 R189, R196). -/
def openHopeless (s : State) : State :=
  let s1 := bsaViolation 13 (s.seq.n0) s
  boundaryStop 9 { s1 with seq := { s1.seq with openFails := s1.seq.openFails + 1, secondFail := s1.seq.secondFail || decide (1 ≤ s1.seq.openFails) } }

/-- BAD_STATE with another H_b: it is h, and the stripe continues from h + 1; the stage approaches again from rest
(08 R189; DEDUCED, unsafe, log 23). -/
def openBehind (hb : Int) (s : State) : State :=
  let s1 := { s with seq := { s.seq with h := hb, hKnown := true, opened := true } }
  if s1.seq.nLast ≤ hb then stripeDone (progressRec s1)
  else
    match s1.seq.item with
    | none => s1
    | some (f, q) => enterFilling f q (max s1.seq.nFirst (hb + 1)) (endFill (rampStop 1 9 0 s1))

/-- The answer to STRIPE_OPEN (08 R189). -/
def openAnswered (status : Nat) (hb : Int) (s : State) : State :=
  if s.seq.st.active = false then s
  else if status = stOk then
    { s with
      seq := { s.seq with opened := true, openFails := 0, h := hb, hKnown := true }
      link := { s.link with hb := hb, sStripe := BitVec.ofNat 16 s.seq.stripe } }
  else if status = stDenied then
    if s.link.lost ∨ s.link.held = false then s else openHopeless s
  else if hb + 1 = s.seq.n0 then openHopeless s
  else openBehind hb s

/-- The answer to a control frame, by its operation (08 R180, R186). -/
def ctrlAnswered (op status : Nat) (hb : Int) (s : State) : State :=
  match op with
  | 1 =>
    if status ≠ stOk then linkFails 0xFF s
    else if s.link.st = .mapping then
      let s1 := { s with link := { s.link with st := .configuring } }
      if s1.cfg.btab.isSome then sendBeamConfig s1 else s1
    else s
  | 2 =>
    if status ≠ stOk then linkFails 0xFF s
    else
      let s1 := { s with link := { s.link with chunks := s.link.chunks + 1 } }
      if s1.link.chunks = 128 then sendCommit s1 else s1
  | 3 => if status ≠ stOk then linkFails 0xFF s else checkTrained { s with link := { s.link with commitAcked := true } }
  | 4 => openAnswered status hb s
  | 6 => if status ≠ stOk then claimRefused s else s
  | 7 => releaseAnswered s
  | _ => s

/-- CTRL_ACK (08 R179, R183, R196 code 9). -/
def execCtrlAck (m : RetMsg) (s : State) : Host.Outcome State Fault Refusal :=
  .next (takeMsg 0x04 2 m (fun t =>
    let c : BitVec 32 := bitsOf m.word0 64 32
    if t.link.cseq.toNat ≤ c.toNat then bsaViolation 9 0 t
    else
      match t.link.out.find? (fun x => x.cseq == c) with
      | none => t
      | some x =>
        ctrlAnswered x.op (bitsNat (msgW1 m) 0 16) (signedNat 32 (bitsNat (msgW1 m) 32 32))
          { t with link := { t.link with out := t.link.out.erase x } }) s)

/-- CTRL_FRAME_RESEND: the oldest unanswered frame is sent again, at most 8 times in all; then the link has failed
(08 R179, R186). -/
def execCtrlFrameResend (s : State) : Host.Outcome State Fault Refusal :=
  .next
    (match s.link.out with
     | [] => s
     | x :: t =>
       if domOn s .seq = false then s
       else if 8 ≤ x.sends then linkFails 0xFF s
       else
         emit (.control (ctrlLane x.op x.arg) x.words) (stat (sk 0x03070001 0x101)
           { s with link := { s.link with out := { x with sends := x.sends + 1 } :: t } }))

/-! ### PORT_EVENT (08 R183, R193, R194) -/

/-- The port is granted (08 R193, R194, R196 code 8). -/
def portGranted (sb : Nat) (hb : Int) (s : State) : State :=
  if s.link.claim.isNone then sendRelease (bsaViolation 8 0 s)
  else
    let s1 := raise 0x0377 .seq (detail [du 8 0, du 16 sb, ds 32 hb])
      { s with link := { s.link with claim := none, held := true, lost := false, hb := hb, sStripe := BitVec.ofNat 16 sb } }
    if s1.fab.pair.takeover then takeoverGranted sb hb s1
    else if s1.fab.pair.st = .handingOver ∧ s1.fab.pair.step = 5 then handoverGranted sb hb s1
    else { s1 with pm := { s1.pm with claimWait := false } }

/-- The port is lost: the stripe stops with cause 14 and the final H_b settles it; a paired device's flows are its
partner's, and it goes to SHADOW (08 R194, 15 R370, R372, 19 R422). -/
def portLost (sb : Nat) (hb : Int) (s : State) : State :=
  let s0 := heedHigh sb hb s
  let s1 := boundaryStop 14 (raise 0x0379 .seq (detail [du 8 0, du 16 sb, ds 32 hb])
    { s0 with link := { s0.link with held := false, lost := true } })
  let s2 := if s1.seq.st = .stopping then settleH s1.seq.h s1 else s1
  if s2.fab.pair.st = .unpaired then s2
  else
    let s3 := disownFlows { s2 with
      seq := s2.seq.toIdle
      fab := { s2.fab with pair := { s2.fab.pair with st := .partnerLost, role := 2, step := 0 } } }
    if s3.pm.mode = .expose then enterMode .shadow 3 (endFill s3) else s3

/-- PORT_EVENT (08 R183). -/
def execPortEvent (m : RetMsg) (s : State) : Host.Outcome State Fault Refusal :=
  .next (takeMsg 0x05 2 m (fun t =>
    let sb := bitsNat (msgW1 m) 16 16
    match bitsNat (msgW1 m) 0 2 with
    | 1 => portGranted sb (msgValue m) t
    | 2 => portLost sb (msgValue m) t
    | _ => t) s)

/-- PORT_CLAIM_TIMEOUT: no grant within 100 µs; PORT_RELEASE withdraws a late one (08 R193). -/
def execPortClaimTimeout (s : State) : Host.Outcome State Fault Refusal :=
  .next
    (if s.link.claim.isSome ∨ (s.pm.changing ∧ s.pm.claimWait ∧ s.pm.target = .expose) ∨ s.fab.pair.takeover then
      claimRefused (if s.link.st = .down then s else sendRelease s)
     else s)

/-! ### Lanes and timers (08 R181, R186, R196) -/

/-- The lane in use loses block lock; the device goes to lane 1, or with neither locked the link
has failed (08 R181, R186). -/
def laneLost (s : State) : State :=
  if domOn s .seq = false ∨ s.link.st = .down then s
  else
    let s1 := { s with link := { s.link with rlock := vset s.link.rlock s.link.rlane false } }
    if s.link.rlane = 0 ∧ laneLock s1 1 then
      raise 0x037A .seq (detail [du 8 1, du 16 s.seq.stripe, ds 32 s.seq.f]) { s1 with link := { s1.link with rlane := 1 } }
    else linkFails 0xFF s1

/-- RETURN_LANE_SWITCHED (08 R181, R186). -/
def execReturnLaneSwitched (s : State) : Host.Outcome State Fault Refusal := .next (laneLost s)

/-- BSA_STATUS_TIMEOUT: no STATUS for 100 µs; breach 7 (08 R186, R196). -/
def execBsaStatusTimeout (s : State) : Host.Outcome State Fault Refusal :=
  .next
    (if domOn s .seq ∧ (s.link.st = .mapping ∨ s.link.st = .configuring ∨ s.link.st = .trained) then
      linkFails 0xFF (raise 0x037C .seq (detail [du 8 0xFF, du 16 s.seq.stripe, ds 32 s.seq.f]) (bsaViolation 7 0 s))
     else s)

end Sys2Proof.Machine
end

