-- ==== Sys2Proof/Machine/DmaOps.lean ====
section
/-! DEFINITION. DMA descriptors and their checks (14 R331-R335), the movement of their bytes (14 R334, R337), release
(14 R339), pacing (14 R342), and COPY items (14 R348). -/

namespace Sys2Proof.Machine

/-! ### Descriptor words (14 R331) -/

/-- The fields of words 0-2 of a descriptor. -/
structure DescF where
  kind : Nat
  srcSp : Nat
  dstSp : Nat
  auxSp : Nat
  wait : Bool
  dtag : Nat
  len : Nat
  src : Nat
  dst : Nat
  aux : Nat
  count : Nat
  esize : Nat
  /-- reserved fields of words 0 and 2 -/
  rsv : Nat
  deriving DecidableEq, Repr

/-- The fields of a descriptor held as bytes (14 R331). -/
def DescF.of (b : List Byte) : DescF where
  kind := blk b 0 0 4
  srcSp := blk b 0 4 2
  dstSp := blk b 0 6 2
  auxSp := blk b 0 8 2
  wait := blk b 0 10 1 == 1
  dtag := blk b 0 16 16
  len := blk b 0 32 32
  src := blk b 0 64 64
  dst := blk b 1 0 64
  aux := blk b 1 64 64
  count := blk b 2 0 24
  esize := blk b 2 32 16
  rsv := blk b 0 11 5 + blk b 2 24 8 + blk b 2 48 80

/-- The fields of a channel's descriptor. -/
def Desc.f (d : Desc) : DescF := DescF.of (leBytes 64 d.words.toNat)

/-! ### Checks (14 R333) -/

/-- Check 1: kind defined, reserved fields and fields unused by the kind zero (14 R331, R333). -/
def DescF.formOk (d : DescF) : Bool :=
  d.rsv == 0 && decide (d.dstSp < 2 ∧ d.srcSp < 2 ∧ d.auxSp < 2) &&
  match d.kind with
  | 1 => d.auxSp == 0 && d.aux == 0 && d.count == 0 && d.esize == 0
  | 2 => d.srcSp == 0 && d.auxSp == 0 && d.src == 0 && d.count == 0 && d.esize == 0
  | 3 => true
  | 4 => d.srcSp == 0 && d.auxSp == 0 && d.src == 0 && d.count == 0 && d.esize == 0
  | _ => false

/-- Check 2: `len` in range (14 R333). -/
def DescF.lenOk (d : DescF) : Bool := if d.kind = 4 then d.len == 8 else d.len != 0

/-- Check 3: the alignments of R332, and the sizes of a GATHER (14 R332, R333). -/
def DescF.alignOk (d : DescF) : Bool :=
  match d.kind with
  | 3 => d.src % 16 == 0 && d.dst % 16 == 0 && d.aux % 4 == 0 && d.len == 16 * d.esize * d.count &&
      decide (1 ≤ d.count ∧ 1 ≤ d.esize ∧ d.esize ≤ 4096)
  | 4 => d.dst % 8 == 0
  | _ => true

/-- The largest index of a GATHER (14 R335): the first pass over the table, none where it cannot be read. -/
def DescF.maxIndex (d : DescF) (s : State) (flow : Nat) : Option Nat :=
  (peekSpace d.auxSp flow d.aux (4 * d.count) s).map (fun b =>
    (List.range d.count).foldl (fun m i => max m (leAt b (4 * i) 4)) 0)

/-- The ranges a descriptor uses, each with its space: destination, source or element span, table. -/
def DescF.ranges (d : DescF) (k : Option Nat) : List (Nat × Nat × Nat) :=
  (d.dstSp, d.dst, d.len) ::
  match d.kind with
  | 1 => [(d.srcSp, d.src, d.len)]
  | 3 => (d.auxSp, d.aux, 4 * d.count) :: (match k with | some m => [(d.srcSp, d.src, 16 * d.esize * (m + 1))] | none => [])
  | _ => []

/-- A range lies within what check 4 admits (14 R333). -/
def rangeOk (r : Nat × Nat × Nat) : Bool :=
  if r.1 = 1 then decide (r.2.1 + r.2.2 ≤ spillBase) else decide (r.2.1 + r.2.2 ≤ 2 ^ 48)

/-- The destination of a GATHER overlaps its table or its elements in the same space (14 R335). -/
def DescF.gatherOverlap (d : DescF) (k : Option Nat) : Bool :=
  d.kind == 3 && ((d.ranges k).drop 1).any (fun r => r.1 == d.dstSp && overlaps d.dst d.len r.2.1 r.2.2)

/-- The checks of a descriptor in the order of R333: number of the first that fails, its status and its reason. -/
def DescF.check (d : DescF) (s : State) (flow : Nat) : Option (Nat × Nat × Nat) :=
  if d.formOk = false then some (1, stBadArg, 1)
  else if d.lenOk = false then some (2, stBadArg, 2)
  else if d.alignOk = false then some (3, stBadArg, 4)
  else
    let r := d.ranges (d.maxIndex s flow)
    if r.all rangeOk = false then some (4, stBadArg, 3)
    else if r.any (fun x => x.1 == 1 && touchesSealed s x.2.1 x.2.2) then some (5, stDenied, 7)
    else if d.gatherOverlap (d.maxIndex s flow) then some (6, stBadArg, 5)
    else none

/-! ### Moving bytes (14 R332, R334, R337) -/

/-- A COPY within one space whose destination starts inside its source goes down from the top (14 R334). -/
def DescF.descending (d : DescF) : Bool :=
  d.kind == 1 && d.srcSp == d.dstSp && decide (d.src < d.dst ∧ d.dst < d.src + d.len)

/-- The elements of a GATHER, in order, or none where one cannot be read now. -/
def gatherRead (d : DescF) (flow : Nat) (s : State) : List Nat → Option (List Byte)
  | [] => some []
  | i :: t =>
    match peekSpace d.srcSp flow (d.src + 16 * d.esize * i) (16 * d.esize) s, gatherRead d flow s t with
    | some a, some b => some (a ++ b)
    | _, _ => none

/-- The bytes that offsets [lo, lo + n) of the destination receive, or none where they cannot be read now (14 R332). -/
def DescF.data (d : DescF) (flow lo n : Nat) (s : State) : Option (List Byte) :=
  match d.kind with
  | 1 => peekSpace d.srcSp flow (d.src + lo) n s
  | 3 =>
    match peekSpace d.auxSp flow d.aux (4 * d.count) s with
    | some b =>
      (gatherRead d flow s ((List.range d.count).map (fun i => leAt b (4 * i) 4))).map (fun l => slice l lo n)
    | none => none
  | _ => some ((List.range n).map (fun i => BitVec.ofNat 8 (d.aux / 2 ^ (8 * ((lo + i) % 8)))))

/-- Write destination bytes, or none where a page does not translate. -/
def putSpace (space flow a : Nat) (b : List Byte) (s : State) : Option State :=
  if space = 1 then some (hbmWrite a b s)
  else
    match vwrite flow a b s with
    | ((none, _), s1) => some s1
    | _ => none

/-- Move the bytes from progress `p` to progress `q` in the descriptor's order of copying (14 R334, R337); none where
an access does not translate now. -/
def DescF.move (d : DescF) (flow p q : Nat) (s : State) : Option State :=
  let lo := if d.descending then d.len - q else p
  match d.data flow lo (q - p) s with
  | some b => putSpace d.dstSp flow (d.dst + lo) b s
  | none => none

/-- The transfer reads the host side at all, so that a host read can fail (14 R336). -/
def DescF.readsHost (d : DescF) : Bool :=
  (d.kind == 1 && d.srcSp == 0) || (d.kind == 3 && (d.srcSp == 0 || d.auxSp == 0))

/-- An access of the transfer at a flow-virtual address (14 R346): a read of its source or table, or a write. -/
def DescF.touches (d : DescF) (k : Option Nat) (write : Bool) (va : Nat) : Bool :=
  if write then d.dstSp == 0 && decide (d.dst ≤ va ∧ va < d.dst + d.len)
  else ((d.ranges k).drop 1).any (fun r => r.1 == 0 && decide (r.2.1 ≤ va ∧ va < r.2.1 + r.2.2))

/-! ### Channels (14 R338-R342) -/

/-- Descriptor ring of a channel (12 R271). -/
def dmaRing (c : Fin 16) : Fin 64 := ⟨16 + c.val, by omega⟩

/-- A channel replaced. -/
def setCh (c : Fin 16) (x : Channel16) (s : State) : State := { s with dma := { s.dma with ch := s.dma.ch.set c.val x } }

/-- A descriptor of a channel replaced, by its index. -/
def putDesc (c : Fin 16) (d : Desc) (s : State) : State :=
  let x := s.dma.ch[c]
  setCh c { x with descs := x.descs.map (fun y => if y.idx = d.idx then d else y) } s

/-- An unreleased descriptor of a channel by its index. -/
def findDesc (s : State) (c : Fin 16) (idx : BitVec 32) : Option Desc := s.dma.ch[c].descs.find? (fun d => d.idx == idx)

/-- Word 3 of a released descriptor (14 R331). -/
def Desc.word3 (d : Desc) : W128 :=
  word [(0, 16, d.status.toNat), (16, 16, d.reason.toNat), (32, 32, d.done), (64, 5, d.attempts), (80, 16, d.f.dtag),
    (96, 16, d.faultId.toNat)]

/-- Release one descriptor: word 3, then index, shadow and message; DMA_DESC_FAILED where its status is not OK
(14 R338, R339). -/
def releaseDesc (c : Fin 16) (d : Desc) (t : List Desc) (s : State) : State :=
  let r := ring s (dmaRing c)
  let x := s.dma.ch[c]
  let bad := d.status != 0
  let s1 := setCh c { x with descs := t, notOk := x.notOk || bad }
    (hostWrite (entryAddr (dmaRing c).val r d.idx + 48) (wordBytes d.word3) s)
  let s2 := advance (dmaRing c) (stat (sk 0x05010001 (c.val * 256 + d.status.toNat)) s1)
  if bad then raise 0x0510 .host (detail [du 8 c.val]) s2 else s2

/-- Release every final descriptor at the head of a channel, in ring order; a STOPPING ring left with none disables
(14 R339, 12 R276). -/
def releaseFinal (c : Fin 16) : List Desc → State → State
  | [], s => stopRing (dmaRing c) s
  | d :: t, s => if d.st = .final then releaseFinal c t (releaseDesc c d t s) else s

/-- The same for the channel as it stands. -/
def releaseDescs (c : Fin 16) (s : State) : State := releaseFinal c s.dma.ch[c].descs s

/-- A descriptor becomes final with a status and a reason; what may be released is (14 R341). -/
def finalDesc (c : Fin 16) (d : Desc) (status reason : Nat) (s : State) : State :=
  releaseDescs c (putDesc c { d with
    st := .final
    status := BitVec.ofNat 16 status
    reason := BitVec.ofNat 16 reason } s)

/-- Fill of the ring that paces a channel; one that is not ACTIVE counts 0 (14 R342). -/
def paceFill (s : State) (x : Channel16) : Nat :=
  let i : Fin 64 := ⟨x.paceRing % 64, Nat.mod_lt _ (by decide)⟩
  if (ring s i).st = 1 then (ring s i).fill i.val else 0

/-- Whether pacing holds the channel now (14 R342). -/
def pacedNow (s : State) (x : Channel16) : Bool :=
  let i : Fin 64 := ⟨x.paceRing % 64, Nat.mod_lt _ (by decide)⟩
  x.paceEn && (if x.paced then decide (x.lo < paceFill s x) else decide (min x.hi (ring s i).entries ≤ paceFill s x))

/-- Pacing of a channel is brought up to date; episodes are counted (14 R342). -/
def pace (c : Fin 16) (s : State) : State :=
  let x := s.dma.ch[c]
  let p := pacedNow s x
  let s1 := setCh c { x with paced := p } s
  if p && !x.paced then stat (sk 0x05010001 (c.val * 256 + 0xFF)) s1 else s1

/-- The engine can work on a descriptor: HOST is on, and MEM where it names HBM (19 R420). -/
def DescF.alive (d : DescF) (s : State) : Bool :=
  domOn s .host && (domOn s .mem || !(d.dstSp == 1 || d.srcSp == 1 || d.auxSp == 1))

/-! ### COPY items (14 R348) -/

/-- The COPY that runs on a flow. -/
def copyOf (s : State) (f : BitVec 8) : Option CopyRun := s.dma.copies.find? (fun r => r.flow == f)

/-- The descriptor fields of a COPY that runs. -/
def CopyRun.f (r : CopyRun) (s : State) : Option DescF := (findItem s r.flow r.seq).bind (fun i => i.params.map DescF.of)

/-- Replace the COPY of a flow. -/
def putCopy (r : CopyRun) (s : State) : State :=
  { s with dma := { s.dma with copies := s.dma.copies.map (fun x => if x.flow = r.flow then r else x) } }

/-- The COPY of a flow is over. -/
def dropCopy (f : BitVec 8) (s : State) : State :=
  { s with dma := { s.dma with copies := s.dma.copies.filter (fun x => x.flow != f) } }

/-- A COPY item starts (14 R348). -/
def startCopy (f : BitVec 8) (q : BitVec 64) (s : State) : State :=
  { s with dma := { s.dma with copies := s.dma.copies ++ [{ flow := f, seq := q, done := 0, attempts := 1, st := 0 }] } }

/-- A COPY item fails, keeping in its result the bytes written (11 R249, 14 R348). -/
def failCopy (r : CopyRun) (status reason : Nat) (s : State) : State :=
  let s1 := dropCopy r.flow s
  match findItem s1 r.flow r.seq with
  | some i => activateTables (failItem r.flow r.seq status reason (putItem { i with result := BitVec.ofNat 64 r.done } s1))
  | none => s1

/-- Statistics of internal context B (14 R350). -/
def copyStat (k : Nat) (s : State) : State := stat (sk 0x05010001 (19 * 256 + k)) s

/-- COPY_COMPLETE (14 R348): the last byte is written and the item is DONE. -/
def execCopyComplete (f : BitVec 8) (s : State) : Host.Outcome State Fault Refusal :=
  .next
    (match copyOf s f with
     | none => s
     | some r =>
       match r.f s with
       | none => s
       | some d =>
         if d.alive s = false ∨ r.st ≠ 0 then s
         else
           match d.move f.toNat r.done d.len s with
           | some s1 => activateTables (doneItem f r.seq d.len (copyStat 0 (dropCopy f s1)))
           | none => s)

end Sys2Proof.Machine
end

