-- ==== Sys2Proof/Machine/DmaCmd.lean ====
section
/-! DEFINITION. DMA and translation: the channels' own steps (14 R336-R346) and the commands of 13 R311, R312. -/

namespace Sys2Proof.Machine

/-! ### Descriptors start and end (14 R333-R341) -/

/-- A descriptor as it starts, its first attempt made (14 R331, R341). -/
def newDesc (idx : BitVec 32) (w : BitVec 512) : Desc where
  idx := idx
  words := w
  st := .active
  done := 0
  attempts := 1
  status := 0
  reason := 0
  faultId := 0

/-- The descriptor may start now: the ring is ACTIVE with an entry, the window has room, `wait` and WRITEBACK find no
earlier one unreleased, pacing does not hold the channel (14 R332, R338, R341, R342). -/
def mayStart (s : State) (c : Fin 16) (d : DescF) : Bool :=
  let r := ring s (dmaRing c)
  let x := s.dma.ch[c]
  decide (r.st = 1) && r.devIdx + BitVec.ofNat 32 x.descs.length != r.hostIdx && decide (x.descs.length < 16) &&
    (!(d.wait || d.kind == 4) || x.descs.isEmpty) && !x.paced && d.alive s

/-- The verdict with which a starting descriptor is final at once: a failed check of R333, or an earlier one not OK
under `wait` (14 R333, R338). -/
def startVerdict (s : State) (c : Fin 16) (d : DescF) : Option (Nat × Nat) :=
  if d.wait && s.dma.ch[c].notOk then some (stAborted, 10)
  else (d.check s s.dma.ch[c].flow.toNat).map (·.2)

/-- DMA_DESCRIPTOR_START (14 R341). -/
def execDmaDescriptorStart (c : Fin 16) (w : BitVec 512) (s : State) : Host.Outcome State Fault Refusal :=
  .next
    (let s0 := pace c s
     let x := s0.dma.ch[c]
     let d := newDesc ((ring s0 (dmaRing c)).devIdx + BitVec.ofNat 32 x.descs.length) w
     if mayStart s0 c d.f = false then s0
     else
       let s1 := setCh c { x with descs := x.descs ++ [d] } s0
       match startVerdict s0 c d.f with
       | some (status, reason) => finalDesc c d status reason s1
       | none => s1)

/-- A bus error stops an active descriptor at its progress: DMA_BUS_ERROR; a retry waits, or the descriptor fails
(14 R337, R338). -/
def descError (c : Fin 16) (d : Desc) (s : State) : State :=
  let s1 := raise 0x0511 .host (detail [du 8 c.val]) (stat (sk 0x05010001 (c.val * 256 + 0xFE)) s)
  if d.attempts ≤ s.dma.ch[c].retries then putDesc c { d with st := .retryWait } s1
  else finalDesc c d stFault 8 s1

/-- DMA_DESCRIPTOR_DONE (14 R341): the rest of its bytes is written and it is final with OK. An injected fault 7 of
the channel turns it into a bus error (13 R322). -/
def execDmaDescriptorDone (c : Fin 16) (idx : BitVec 32) (s : State) : Host.Outcome State Fault Refusal :=
  .next
    (match findDesc s c idx with
     | none => s
     | some d =>
       if d.st ≠ .active ∨ d.f.alive s = false then s
       else
         match injected 7 (fun p => p.toNat == c.val) s with
         | (true, s1) => descError c d s1
         | (false, _) =>
           match d.f.move s.dma.ch[c].flow.toNat d.done d.f.len s with
           | some s1 =>
             finalDesc c { d with done := d.f.len } stOk 0 (statAdd (sk 0x05010001 (c.val * 256 + 0xFD)) (d.f.len - d.done) s1)
           | none => s)

/-- A COPY item meets a bus error: up to 3 retries, then FAILED (14 R338, R348). -/
def copyError (r : CopyRun) (s : State) : State :=
  let s1 := raise 0x0511 .host (detail [du 8 19]) (copyStat 0xFE s)
  if r.attempts ≤ 3 then putCopy { r with st := 2 } s1 else failCopy r stFault 8 s1

/-- A host read of a transfer fails after `arrived` bytes: those bytes are written and counted, then the error is
handled (14 R336, R337). -/
def readFails (ctx : Fin 20) (idx : BitVec 32) (arrived : Nat) (s : State) : State :=
  if h : ctx.val < 16 then
    let c : Fin 16 := ⟨ctx.val, h⟩
    match findDesc s c idx with
    | none => s
    | some d =>
      if d.st ≠ .active ∨ d.f.alive s = false ∨ d.f.readsHost = false ∨ arrived < d.done ∨ d.f.len ≤ arrived then s
      else
        match d.f.move s.dma.ch[c].flow.toNat d.done arrived s with
        | some s1 => descError c { d with done := arrived } s1
        | none => s
  else
    match copyOf s (BitVec.ofNat 8 idx.toNat) with
    | none => s
    | some r =>
      match r.f s with
      | none => s
      | some d =>
        if ctx ≠ 19 ∨ r.st ≠ 0 ∨ d.alive s = false ∨ d.readsHost = false ∨ arrived < r.done ∨ d.len ≤ arrived then s
        else
          match d.move r.flow.toNat r.done arrived s with
          | some s1 => copyError { r with done := arrived } (putCopy { r with done := arrived } s1)
          | none => s

/-- DMA_BUS_ERROR (14 R336, R337). -/
def execDmaBusError (ctx : Fin 20) (idx : BitVec 32) (arrived : Nat) (s : State) : Host.Outcome State Fault Refusal :=
  .next (readFails ctx idx arrived s)

/-- DMA_READ_TIMEOUT (14 R336): no completion for 50 ms is a bus error. -/
def execDmaReadTimeout (ctx : Fin 20) (idx : BitVec 32) (arrived : Nat) (s : State) : Host.Outcome State Fault Refusal :=
  .next (readFails ctx idx arrived s)

/-- DMA_RETRY (14 R338): the retry time of a bad descriptor, or of a COPY, is reached. -/
def execDmaRetry (ctx : Fin 20) (idx : BitVec 32) (s : State) : Host.Outcome State Fault Refusal :=
  .next
    (if h : ctx.val < 16 then
       let c : Fin 16 := ⟨ctx.val, h⟩
       match findDesc s c idx with
       | some d =>
         if d.st = .retryWait then
           putDesc c { d with st := .active, attempts := d.attempts + 1 } (stat (sk 0x05010001 (c.val * 256 + 0xFC)) s)
         else s
       | none => s
     else
       match copyOf s (BitVec.ofNat 8 idx.toNat) with
       | some r => if ctx = 19 ∧ r.st = 2 then putCopy { r with st := 0, attempts := r.attempts + 1 } (copyStat 0xFC s) else s
       | none => s)

/-! ### Translation faults (14 R346, R347) -/

/-- The reason an access faults with now: a bus error on a table read, or what the walk finds (14 R346). -/
def faultReason (flow : Nat) (write : Bool) (va : Nat) (busErr : Bool) (s : State) : Option Nat × State :=
  if busErr then
    if (tget s.dma.roots flow).isSome ∧ va < 2 ^ 48 ∧ (s.dma.cache.any (fun t => t.hits flow va)) = false then (some 4, s)
    else (none, s)
  else
    match translate flow write va s with
    | (.error r, s1) => (some r, s1)
    | (.ok _, _) => (none, s)

/-- A fault record before its id (14 R346). -/
def mkFault (flow : BitVec 8) (reason : Nat) (write : Bool) (ctx : Nat) (idx : BitVec 32) (va : BitVec 64) (progress : Nat) :
    DFault where
  id := 0
  flow := flow
  reason := reason
  write := write
  ctx := ctx
  idx := idx
  va := va
  progress := progress

/-- A channel's descriptor stalls at its progress (14 R341, R346). -/
def stallDesc (c : Fin 16) (d : Desc) (write : Bool) (va : BitVec 64) (progress : Nat) (busErr : Bool) (s : State) : State :=
  let x := s.dma.ch[c]
  let f := d.f
  if d.st ≠ .active ∨ f.alive s = false ∨ f.touches (f.maxIndex s x.flow.toNat) write va.toNat = false ∨
      progress < d.done ∨ f.len ≤ progress then s
  else
    match faultReason x.flow.toNat write va.toNat busErr s with
    | (none, _) => s
    | (some r, s1) =>
      match f.move x.flow.toNat d.done progress s1 with
      | none => s
      | some s2 =>
        let s3 := recordFault (mkFault x.flow r write c.val d.idx va progress)
          (putDesc c { d with st := .stalled, done := progress } s2)
        match s3.dma.faults.find? (fun g => decide (g.ctx = c.val) && g.idx == d.idx) with
        | some g => putDesc c { d with st := .stalled, done := progress, faultId := g.id } s3
        | none => s3

/-- A COPY item stalls at its progress. -/
def stallCopy (r : CopyRun) (d : DescF) (progress : Nat) (s : State) : Option State :=
  if r.st ≠ 0 ∨ progress < r.done ∨ d.len ≤ progress then none
  else (d.move r.flow.toNat r.done progress s).map (putCopy { r with st := 1, done := progress })

/-- The user of an internal context on a flow stalls: exposing stripe 16, host-region witness 17, RENDER_BIN 18,
INGEST, CENSUS or COPY 19; none where nothing of the flow uses the context (14 R328, R346). -/
def stallUser (ctx : Nat) (flow : BitVec 8) (progress : Nat) (s : State) : Option State :=
  match ctx with
  | 16 => if s.seq.item.any (fun p => p.1 == flow) ∧ s.seq.st ≠ .stopped then some s else none
  | 17 =>
    match s.led.witness with
    | .region f _ _ => if f = flow then some s else none
    | _ => none
  | 18 => if s.rnd.bins.any (fun b => b.flow == flow) then some s else none
  | _ =>
    match ingestOf s flow, copyOf s flow with
    | some r, _ => if r.stalled then none else some (putIngest { r with stalled := true } s)
    | none, some r => (r.f s).bind (fun d => stallCopy r d progress s)
    | none, none => if (censusOf s flow).isSome then some s else none

/-- DTU_FAULT (14 R346). -/
def execDtuFault (ctx : Fin 20) (idx : BitVec 32) (write : Bool) (va : BitVec 64) (progress : Nat) (busErr : Bool)
    (s : State) : Host.Outcome State Fault Refusal :=
  .next
    (if h : ctx.val < 16 then
       match findDesc s ⟨ctx.val, h⟩ idx with
       | some d => stallDesc ⟨ctx.val, h⟩ d write va progress busErr s
       | none => s
     else
       let flow := BitVec.ofNat 8 idx.toNat
       if domOn s .host = false ∨ (s.dma.faults ++ s.dma.waiting).any (fun g => decide (g.ctx = ctx.val) && g.flow == flow) then s
       else
         match faultReason flow.toNat write va.toNat busErr s with
         | (none, _) => s
         | (some r, s1) =>
           match stallUser ctx.val flow progress s1 with
           | some s2 => recordFault (mkFault flow r write ctx.val idx va progress) s2
           | none => s)

/-- A fault leaves the table; the oldest that waits gets an id (14 R346). -/
def dropFault (f : DFault) (s : State) : State :=
  promoteFault { s with dma := { s.dma with faults := s.dma.faults.filter (fun g => g.id != f.id) } }

/-- The stalled transfer translates again (14 R347). -/
def resumeTransfer (f : DFault) (s : State) : State :=
  if h : f.ctx < 16 then
    match findDesc s ⟨f.ctx, h⟩ f.idx with
    | some d => putDesc ⟨f.ctx, h⟩ { d with st := .active } s
    | none => s
  else if f.ctx = 19 then
    match ingestOf s f.flow, copyOf s f.flow with
    | some r, _ => putIngest { r with stalled := false } s
    | none, some r => putCopy { r with st := 0 } s
    | none, none => s
  else s

/-- The stripe in the sequencer fails: at once where no flash of it is on its way, else at its boundary (14 R347,
07 R166). -/
def abortStripe (s : State) : State :=
  if s.seq.st = .filling ∨ s.seq.st = .stopped then endStripe .failed stTransFault s else boundaryStop 13 s

/-- A work item whose transfer is aborted fails with TRANSLATION_FAULT and the fault's reason (14 R347). -/
def abortUser (f : DFault) (s : State) : State :=
  match f.ctx with
  | 16 => abortStripe s
  | 17 => s
  | 18 =>
    match s.rnd.bins.find? (fun b => b.flow == f.flow) with
    | some b =>
      let s1 := dropBinLines b { s with rnd := { s.rnd with
        bins := s.rnd.bins.filter (fun x => !(x.req == b.req && x.flow == b.flow && x.seq == b.seq)) } }
      match b.req with
      | none => activateTables (failItem b.flow b.seq stTransFault f.reason s1)
      | some (node, id) => answerOffload { b with failed := 5 } node id s1
    | none => s
  | _ =>
    match ingestOf s f.flow, copyOf s f.flow, censusOf s f.flow with
    | some r, _, _ =>
      let sealed_ := ((ingestJob s r).map (·.sealed_)).getD false
      activateTables (failItem r.flow r.seq stTransFault f.reason (dropIngest r.flow sealed_ s))
    | none, some r, _ => failCopy r stTransFault f.reason s
    | none, none, some r => activateTables (failItem r.flow r.seq stTransFault f.reason (dropCensus f.flow s))
    | none, none, none => s

/-- The stalled transfer ends (14 R347). -/
def abortTransfer (f : DFault) (s : State) : State :=
  if h : f.ctx < 16 then
    match findDesc s ⟨f.ctx, h⟩ f.idx with
    | some d => finalDesc ⟨f.ctx, h⟩ d stTransFault (0x20 + f.reason) s
    | none => s
  else abortUser f s

/-! ### The commands (13 R311, R312) -/

/-- DMA_CHANNEL_SETUP as R295 and R311 give it. -/
def cmdDmaChannelSetup : Cmd where
  op := 0x0500
  masks := [bits 0 4 + bits 8 8 + bits 16 2 + bits 20 4 + bits 24 7 + bits 32 32]
  modes := workModes
  needs := [.host]
  service := false

/-- The channel a DMA_CHANNEL_SETUP leaves, its interrupted descriptors forgotten (13 R311, 14 R345). -/
def setupChannel (a : W128) (x : Channel16) : Channel16 :=
  { x with
    flow := bitsOf a 8 8
    cls := bitsNat a 16 2
    retries := bitsNat a 20 4
    paceRing := bitsNat a 24 6
    paceEn := bitAt a 30
    hi := bitsNat a 32 16
    lo := bitsNat a 48 16
    paced := false
    notOk := false
    stoppedDescs := [] }

/-- DMA_CHANNEL_SETUP (13 R311). -/
def execDmaChannelSetup (e : Entry) (s : State) : Host.Outcome State Fault Refusal :=
  .next
    (takeUp cmdDmaChannelSetup e false (fun w t =>
      let a := Entry.arg e 0
      let c : Fin 16 := ⟨bitsNat a 0 4 % 16, Nat.mod_lt _ (by decide)⟩
      if (ring t (dmaRing c)).st ≠ 0 then finish w stBadState 1 [] t
      else if bitsNat a 32 16 < bitsNat a 48 16 ∨ bitsNat a 16 2 < 2 then finish w stBadArg 2 [] t
      else finish w stOk 0 [] (setCh c (setupChannel a t.dma.ch[c]) t)) s)

/-- DTU_SET_ROOT as R295 and R312 give it. -/
def cmdDtuSetRoot : Cmd where
  op := 0x0501
  masks := [bits 0 9 + bits 64 64]
  modes := workModes
  needs := [.host]
  service := false

/-- A flow's space is in use: an item ACCEPTED or RUNNING, or an ACTIVE channel bound to it (13 R312). -/
def spaceBusy (s : State) (f : BitVec 8) : Bool :=
  s.led.items.any (fun i => i.flow == f && (i.st == .accepted || i.st == .running)) ||
    (List.range 16).any (fun c => (s.dma.ch.toList.getD c Channel16.init).flow == f && decide
      (((s.win.rings.toList.getD (16 + c) (Ring.init 0)).st) = 1))

/-- DTU_SET_ROOT (13 R312): every cached entry of the flow is dropped. -/
def execDtuSetRoot (e : Entry) (s : State) : Host.Outcome State Fault Refusal :=
  .next
    (takeUp cmdDtuSetRoot e (objBusy s [(0, bitsNat (Entry.arg e 0) 0 8, 0)]) (fun w t =>
      let a := Entry.arg e 0
      let f : BitVec 8 := bitsOf a 0 8
      if bitsNat a 64 12 ≠ 0 ∨ bitsNat a 112 16 ≠ 0 then finish w stBadArg 0x8008 [] t
      else if spaceBusy t f then finish w stBadState 1 [] t
      else
        finish w stOk 0 [] { t with dma := { t.dma with
          roots := if bitAt a 8 then tput t.dma.roots f.toNat (bitsOf a 64 64) else tdel t.dma.roots f.toNat
          cache := t.dma.cache.filter (fun c => c.flow != f) } }) s)

/-- DTU_INVALIDATE as R295 and R312 give it. -/
def cmdDtuInvalidate : Cmd where
  op := 0x0502
  masks := [bits 0 10 + bits 64 64]
  modes := workModes
  needs := [.host]
  service := false

/-- Whether an invalidation drops a cache entry (13 R312): scope 0 flow, 1 and 2 the page of `va` of that size, 3 all. -/
def invalidates (scope : Nat) (f : BitVec 8) (va : Nat) (c : TEntry) : Bool :=
  match scope with
  | 0 => c.flow == f
  | 1 => c.flow == f && !c.big && c.page == va / 2 ^ 12
  | 2 => c.flow == f && (if c.big then c.page == va / 2 ^ 21 else c.page / 512 == va / 2 ^ 21)
  | _ => true

/-- DTU_INVALIDATE (13 R312). -/
def execDtuInvalidate (e : Entry) (s : State) : Host.Outcome State Fault Refusal :=
  .next
    (takeUp cmdDtuInvalidate e (objBusy s [(0, bitsNat (Entry.arg e 0) 0 8, 0)]) (fun w t =>
      let a := Entry.arg e 0
      let p := invalidates (bitsNat a 8 2) (bitsOf a 0 8) (bitsNat a 64 64)
      let keep := t.dma.cache.filter (fun c => !p c)
      finish w stOk 0 [word [(0, 32, t.dma.cache.length - keep.length)]] { t with dma := { t.dma with cache := keep } }) s)

/-- DTU_RESUME_FAULT as R295 and R312 give it. -/
def cmdDtuResumeFault : Cmd where
  op := 0x0503
  masks := [bits 0 8 + bits 16 17]
  modes := workModes
  needs := [.host]
  service := false

/-- DTU_RESUME_FAULT (13 R312, 14 R347). -/
def execDtuResumeFault (e : Entry) (s : State) : Host.Outcome State Fault Refusal :=
  .next
    (takeUp cmdDtuResumeFault e (objBusy s [(0, bitsNat (Entry.arg e 0) 0 8, 0)]) (fun w t =>
      let a := Entry.arg e 0
      match t.dma.faults.find? (fun g => g.id == bitsOf a 16 16 && g.flow == bitsOf a 0 8) with
      | none => finish w stBadArg 1 [] t
      | some g =>
        let t1 := dropFault g t
        if bitAt a 32 then finish w stOk 0 [] (abortTransfer g (raise 0x0522 .host g.det t1))
        else finish w stOk 0 [] (resumeTransfer g (raise 0x0521 .host g.det t1))) s)

end Sys2Proof.Machine
end

