-- ==== Sys2Proof/Machine/UpdOps.lean ====
section
/-! DEFINITION. Firmware update: the update state in NOR (21 R454-R457), and UPDATE items (21 R458, R459). -/

namespace Sys2Proof.Machine

/-! ### The update state (21 R456) -/

/-- An update as UPD_BEGIN or a relayed BEGIN describes it (13 R320, 21 R459). -/
structure UpdDesc where
  imgId : BitVec 32
  imgLen : Nat
  pieces : Nat
  imgCrc : BitVec 32
  digest : BitVec 384
  deriving DecidableEq, Repr

/-- The descriptor matches the update in progress: `img_id` and `digest` (13 R320). -/
def sameUpdate (d : UpdDesc) (s : State) : Bool := d.imgId == s.upd.imgId && d.digest == s.upd.digest

/-- A fresh update: nothing held, state 1 (21 R456). -/
def freshUpdate (d : UpdDesc) (s : State) : State :=
  { s with upd := { s.upd with
      st := 1
      imgId := d.imgId
      imgLen := d.imgLen
      pieces := d.pieces
      imgCrc := d.imgCrc
      digest := d.digest
      held := [] } }

/-- Begin, resume or refuse an update: the refusal's status and reason, or the new state (13 R320, 21 R456). -/
def beginUpdate (d : UpdDesc) (s : State) : Except (Nat × Nat) State :=
  if d.imgLen < 4096 ∨ 33554432 < d.imgLen then .error (stBadArg, 4)
  else if d.pieces ≠ (d.imgLen + 4095) / 4096 then .error (stBadArg, 5)
  else if 3 ≤ s.upd.st ∧ sameUpdate d s = false then .error (stBadState, 6)
  else if s.upd.st ≠ 0 ∧ sameUpdate d s then .ok (raise 0x0B10 .ctrl (detail [dflag true]) s)
  else .ok (raise 0x0B10 .ctrl (detail [dflag false]) (freshUpdate d s))

/-- A piece is held (21 R456). -/
def pieceHeld (s : State) (i : Nat) : Bool := s.upd.held.any (fun p => p.1 == i)

/-- Every piece is held (21 R456). -/
def updComplete (s : State) : Bool := s.upd.st != 0 && s.upd.held.length == s.upd.pieces

/-- A piece has been programmed and read back: it is held; the last one completes the update (21 R456). -/
def holdPiece (i : Nat) (pcrc : BitVec 32) (b : List Byte) (s : State) : State :=
  let s1 := { s with upd := { s.upd with held := s.upd.held ++ [(i, pcrc, b)] } }
  if s1.upd.st = 1 ∧ s1.upd.held.length = s1.upd.pieces then
    raise 0x0B12 .ctrl 0 { s1 with upd := { s1.upd with st := 2 } }
  else s1

/-- Write a piece, or the status and reason of its refusal, which raises UPD_PIECE_REJECTED (13 R320, 21 R456). -/
def putPiece (id : BitVec 32) (i : Nat) (pcrc : BitVec 32) (b : List Byte) (readBackOk : Bool) (s : State) :
    Option (Nat × Nat) × State :=
  let bad (st r : Nat) : Option (Nat × Nat) × State := (some (st, r), raise 0x0B11 .ctrl 0 s)
  if s.upd.st = 0 ∨ id ≠ s.upd.imgId then bad stBadArg 1
  else if s.upd.pieces ≤ i then bad stBadArg 2
  else if pieceHeld s i then (none, s)
  else if crc32c b ≠ pcrc ∨ readBackOk = false then bad stFault 3
  else (none, holdPiece i pcrc b s)

/-! ### UPDATE items (21 R458) -/

/-- An UPDATE parameter block. -/
structure UpdJob where
  space : Nat
  addr : Nat
  target : Nat
  rate : Nat
  imgLen : Nat
  deriving DecidableEq, Repr

/-- The fields of an UPDATE parameter block (21 R458). -/
def UpdJob.of (p : List Byte) : UpdJob where
  space := blk p 0 64 2
  addr := blk p 0 0 64
  target := blk p 0 68 12
  rate := blk p 0 96 32
  imgLen := blk p 1 0 32

/-- Reserved fields of the block are zero (21 R458). -/
def updReservedOk (p : List Byte) : Bool :=
  decide (blk p 0 64 2 < 2) && blk p 0 66 2 == 0 && blk p 0 80 16 == 0 && blk p 1 32 96 == 0 && blk p 2 0 128 == 0 &&
    blk p 3 0 128 == 0

/-- The UPDATE that runs on a flow, and the item's job. -/
def updOf (s : State) (f : BitVec 8) : Option UpdRun := s.upd.items.find? (fun r => r.flow == f)

/-- The job of an UPDATE that runs. -/
def UpdRun.job (r : UpdRun) (s : State) : Option UpdJob := (findItem s r.flow r.seq).bind (fun i => i.params.map UpdJob.of)

/-- Replace the UPDATE of a flow. -/
def putUpd (r : UpdRun) (s : State) : State :=
  { s with upd := { s.upd with items := s.upd.items.map (fun x => if x.flow = r.flow then r else x) } }

/-- The UPDATE of a flow is over. -/
def dropUpd (f : BitVec 8) (s : State) : State :=
  { s with upd := { s.upd with items := s.upd.items.filter (fun x => x.flow != f) } }

/-- The descriptor of an image (21 R455, R458). -/
def imageDesc (b : List Byte) : UpdDesc where
  imgId := BitVec.ofNat 32 (blk b 0 64 32)
  imgLen := b.length
  pieces := (b.length + 4095) / 4096
  imgCrc := crc32c b
  digest := Config.sha384 b

/-- Piece i of an image, the last padded with zeros (21 R455). -/
def imagePiece (b : List Byte) (i : Nat) : List Byte := slice b (4096 * i) 4096

/-- An UPDATE item fails (21 R458). -/
def failUpd (r : UpdRun) (status reason : Nat) (s : State) : State :=
  let s1 := dropUpd r.flow s
  match findItem s1 r.flow r.seq with
  | some i => activateTables (failItem r.flow r.seq status reason (putItem { i with result := BitVec.ofNat 64 r.sent } s1))
  | none => s1

/-- An UPDATE item is DONE with the number of pieces sent (21 R458, 11 R249). -/
def doneUpd (r : UpdRun) (s : State) : State := activateTables (doneItem r.flow r.seq r.sent (dropUpd r.flow s))

/-- The header word of a relay payload (21 R459). -/
def relayHead (op half id index pcrc : Nat) (complete : Bool) : W128 :=
  word [(0, 8, op), (8, 1, half), (9, 1, b2n complete), (32, 32, id), (64, 32, index), (96, 32, pcrc)]

/-- Index that stands for BEGIN in the list of relayed spores. -/
def beginMark : Nat := 2 ^ 32

/-- Send BEGIN to the target (21 R459). -/
def sendBegin (r : UpdRun) (target : Nat) (s : State) : State :=
  let d := imageDesc r.image
  let id := s.fab.msgId
  send target 0x51 3 (wordBytes (relayHead 1 0 d.imgId.toNat 0 0 false) ++
      wordBytes (word [(0, 32, d.imgLen), (32, 32, d.pieces), (64, 32, d.imgCrc.toNat)]) ++ leBytes 48 d.digest.toNat)
    (putUpd { r with msgs := (id, beginMark) :: r.msgs } s)

/-- Send both halves of a piece (21 R459). -/
def sendPiece (r : UpdRun) (target i : Nat) (s : State) : State :=
  let p := imagePiece r.image i
  let id := (imageDesc r.image).imgId.toNat
  let c := (crc32c p).toNat
  let m0 := s.fab.msgId
  let s1 := send target 0x51 3 (wordBytes (relayHead 2 0 id i c false) ++ p.take 2048) s
  let m1 := s1.fab.msgId
  let s2 := send target 0x51 3 (wordBytes (relayHead 2 1 id i c false) ++ p.drop 2048) s1
  putUpd { r with sent := r.sent + 1, have_ := i :: r.have_, msgs := (m1, i) :: (m0, i) :: r.msgs } s2

/-- A started run. -/
def newUpd (f : BitVec 8) (q : BitVec 64) (image : List Byte) : UpdRun where
  flow := f
  seq := q
  image := image
  sent := 0
  nacks := []
  begun := false
  have_ := []
  msgs := []

/-- An UPDATE item begins on its target (21 R458): this device, or a peer. -/
def beginRun (r : UpdRun) (target : Nat) (s : State) : State :=
  let s1 := { s with upd := { s.upd with items := s.upd.items ++ [r] } }
  if target = 0 then
    match beginUpdate (imageDesc r.image) s1 with
    | .error (st, reason) => failUpd r st reason s1
    | .ok s2 => if updComplete s2 then doneUpd r s2 else putUpd { r with begun := true } s2
  else sendBegin r target s1

/-- An UPDATE item starts: the source is read once and its header held against the block; a read that a translation
fault stalls changes nothing (21 R458). -/
def startUpdate (f : BitVec 8) (q : BitVec 64) (p : List Byte) (s : State) : Option State :=
  let j := UpdJob.of p
  match peekSpace j.space f.toNat j.addr j.imgLen s with
  | none => none
  | some b =>
    let r := newUpd f q b
    if leAt b 0 4 = 0x4D494E45 ∧ leAt b 12 4 = j.imgLen then some (beginRun r j.target s)
    else some (failUpd r stBadArg 0 s)

/-- The first piece of the image that the target is not known to hold. -/
def nextPiece (r : UpdRun) (held : Nat → Bool) : Option Nat :=
  (List.range ((r.image.length + 4095) / 4096)).find? (fun i => !held i)

/-- UPDATE_RATE_TICK (21 R458): the next missing piece goes to the target. -/
def execUpdateRateTick (f : BitVec 8) (s : State) : Host.Outcome State Fault Refusal :=
  .next
    (match updOf s f with
     | none => s
     | some r =>
       match r.job s with
       | none => s
       | some j =>
         if j.target = 0 then
           match nextPiece r (pieceHeld s) with
           | none => doneUpd r s
           | some i =>
             let b := imagePiece r.image i
             match putPiece (imageDesc r.image).imgId i (crc32c b) b true s with
             | (some (st, reason), s1) => failUpd r st reason s1
             | (none, s1) =>
               let r1 := { r with sent := r.sent + 1 }
               if updComplete s1 then doneUpd r1 s1 else putUpd r1 s1
         else if mayOriginate s = false then s
         else if r.begun = false then (if r.msgs.any (fun m => m.2 == beginMark) then s else sendBegin r j.target s)
         else
           match nextPiece r r.have_.contains with
           | some i => sendPiece r j.target i s
           | none => s)

/-- UPDATE_TARGET_TIMEOUT (21 R458): a target that answers nothing for 10 s. -/
def execUpdateTargetTimeout (f : BitVec 8) (s : State) : Host.Outcome State Fault Refusal :=
  .next
    (match updOf s f with
     | none => s
     | some r =>
       match r.job s with
       | some j => if j.target ≠ 0 then failUpd r stNoResource 0 s else s
       | none => s)

/-- A NACK answers a relayed spore: reason 5 for a piece sends it again, the third for one piece fails the item with
FAULT; for BEGIN it fails the item; any other reason has it tried again (21 R458, R465). -/
def relayNacked (r : UpdRun) (i reason sub : Nat) (s : State) : State :=
  if i = beginMark then
    if reason = 5 then failUpd r stFault sub s else putUpd { r with msgs := r.msgs.filter (fun m => m.2 != beginMark) } s
  else
    let n := (tget r.nacks i).getD 0 + (if reason = 5 then 1 else 0)
    if 3 ≤ n then failUpd r stFault sub s
    else putUpd { r with
      nacks := tput r.nacks i n
      have_ := r.have_.filter (fun x => x != i)
      msgs := r.msgs.filter (fun m => m.2 != i) } s

/-- The bitmap of the pieces held, 1,024 bytes (21 R459, R466). -/
def pieceBitmap (s : State) : List Byte :=
  (List.range 1024).map (fun k => BitVec.ofNat 8 (packFields ((List.range 8).map (fun b => (b, 1, b2n (pieceHeld s (8 * k + b)))))))

/-- Pieces a REPORT names as held (21 R459). -/
def reportedPieces (b : List Byte) (n : Nat) : List Nat := (List.range n).filter (fun i => (b.getD (i / 8) 0).getLsbD (i % 8))

/-- A REPORT of the target (21 R458, R459). -/
def relayReport (r : UpdRun) (complete : Bool) (bitmap : List Byte) (s : State) : State :=
  if complete then doneUpd r s
  else putUpd { r with
    begun := true
    have_ := reportedPieces bitmap ((r.image.length + 4095) / 4096)
    msgs := r.msgs.filter (fun m => m.2 != beginMark) } s

end Sys2Proof.Machine
end

