-- ==== Sys2Proof/Machine/WorkOps.lean ====
section
/-! DEFINITION. Work items: parameter blocks and acceptance checks (11 R245-R250), and the start of an item of each kind
(11 R243, R247). -/

namespace Sys2Proof.Machine

/-! ### Parameter blocks (13 R307, 11 R245, R246) -/

/-- Size of the parameter block of a kind (13 R307, 14 R348, 18 R413, 21 R458). -/
def blockSize (kind : Nat) : Nat := if kind = 1 then 128 else if kind = 6 then 16 else 64

/-- `param_crc` of a block; for a stripe without its `resume` bit, which is taken as 0 (11 R245). -/
def paramCrc (kind : Nat) (p : List Byte) : BitVec 32 :=
  if kind = 4 then crc32c (p.take 8 ++ ((p.drop 8).take 1).map (fun b => b &&& 0xF7) ++ p.drop 9) else crc32c p

/-- The bytes of `top_name` beyond `top_len` are zero, and `top_len` is at most 64 (03 R48). -/
def topNameOk (p : List Byte) : Bool :=
  decide (blk p 3 64 8 ≤ 64) && ((p.drop (64 + blk p 3 64 8)).all (fun b => b == 0))

/-- Reserved fields and reserved values of a block are absent (11 R246 reason 2). -/
def reservedOk (kind : Nat) (p : List Byte) : Bool :=
  match kind with
  | 1 => decide (blk p 2 0 2 < 2 ∧ blk p 2 2 2 < 2) && blk p 2 72 56 == 0 && blk p 3 72 56 == 0 && topNameOk p
  | 2 => decide (blk p 0 64 2 < 2) && blk p 0 66 62 == 0 && blk p 1 49 15 == 0 && blk p 1 104 24 == 0 && blk p 3 0 128 == 0
  | 3 => (BinJob.of 0 p).reservedOk && decide (blk p 0 64 2 < 2)
  | 4 => decide (blk p 0 64 2 < 2) && blk p 0 68 12 == 0 && blk p 1 48 16 == 0 && blk p 2 64 64 == 0 && blk p 3 96 32 == 0
  | 5 => blk p 3 0 128 == 0
  | 6 => blk p 0 5 123 == 0
  | 7 => updReservedOk p
  | _ => false

/-- The kind may be submitted in a mode (03 R50, 05 R122, 18 R413; 11 R250 judges a stripe by its own check 1). -/
def kindMode (kind : Nat) (m : Mode) : Bool :=
  match kind with
  | 1 | 2 | 3 => [Mode.ready, .expose, .render, .shadow].contains m
  | 6 => [Mode.ready, .expose, .calibrate].contains m
  | _ => true

/-! ### Kind-specific acceptance checks (11 R246 reason 7) -/

/-- The code configuration the block names is the one in force (11 R250, R258). -/
def ctabChkOk (s : State) (j : StripeJob) : Bool :=
  if s.cfg.act.segCode = 1 then j.ctabChk == s.cfg.act.ctabAddr else j.ctabChk == 0

/-- Check 2 of R250: the three CRCs equal those of the active, verified tables. -/
def tablesOk (s : State) (j : StripeJob) : Bool :=
  s.cfg.btab.isSome && s.cfg.rp.isSome && s.cfg.lmap.isSome && j.btabCrc == (btabCrc s).toNat &&
    j.rpCrc == (rpCrc s).toNat && j.lmapCrc == (lmapCrc s).toNat && ctabChkOk s j

/-- Checks 4 to 8 of R250, once the stream's header and the stripe's are valid: order and status of the first that
fails. -/
def censusChecks (s : State) (j : StripeJob) (h : SHdr) (t : Strp) : Option (Nat × Nat) :=
  match jobCensus s j with
  | .error _ => some (4, stBadState)
  | .ok (_, _, c) =>
    if s.cfg.act.segCode = 1 ∧ (readTable s h t.idx).isNone then some (4, stBadState)
    else if censusRefused c ∨ censusFs c < 100000 then some (5, stNoResource)
    else
      let m := hbmRead s j.dmap 64
      let mapOk := match mapHdr s j.dmap h with | .ok _ => true | .error _ => false
      if mapOk = false ∨ leAt m 44 4 ≠ h.crc ∨ blk m 0 56 8 < kernelReach (rpImage s) then some (6, stBadArg)
      else if dCap (btab s) < rpDmax (rpImage s) then some (7, stBadArg)
      else if s.cfg.act.fMax < j.fMax ∨ j.fMax < censusFs c then some (8, stBadArg)
      else none

/-- The checks of R250 in order: order and status of the first that fails, and the failed structure behind check 3. -/
def stripeChecks (s : State) (j : StripeJob) : Option (Nat × Nat × Option Bad) :=
  if s.pm.mode ≠ .expose then some (1, stBadState, none)
  else if tablesOk s j = false then some (2, stBadState, none)
  else
    match jobStripe s j with
    | .error b => some (3, stBadArg, some b)
    | .ok (h, t) =>
      if h.lmapCrc ≠ j.lmapCrc then some (3, stBadArg, none)
      else (censusChecks s j h t).map (fun r => (r.1, r.2, none))

/-- A stripe's stream structures cannot be read now because a read is stalled by a translation fault (14 R346). -/
def stripeStalls (s : State) (f : BitVec 8) (p : List Byte) : Bool :=
  match jobStripe s (StripeJob.of f p) with
  | .error .stall => true
  | .error _ => false
  | .ok _ => false

/-- An HBM range that a block names lies within the device and outside the spill area (06 R146). -/
def hbmRangeOk (space a n : Nat) : Bool := space != 1 || (decide (a + n ≤ hbmSize) && !touchesSpill a n)

/-- The checks of an INGEST block (03 R48, R49, 20 R443): sub-reason and status. -/
def ingestChecks (s : State) (f : BitVec 8) (p : List Byte) : Option (Nat × Nat) :=
  let j := IngestJob.of f p
  if j.srcLen = 0 ∨ 2 ^ 40 < j.srcLen ∨ j.count = 0 ∨ 65536 < j.first + j.count ∨ (j.sealed_ ∧ j.out.space ≠ 1) ∨
      hbmRangeOk j.src.space j.src.addr j.srcLen = false ∨ hbmRangeOk j.out.space j.out.addr j.outCap = false then
    some (0, stBadArg)
  else if j.sealed_ ∧ 64 ≤ s.keep.regions.length then some (1, stNoResource)
  else none

/-- The checks of a CENSUS block (03 R69, 06 R146). -/
def censusBlockChecks (f : BitVec 8) (p : List Byte) : Option (Nat × Nat) :=
  let c := CensusJob.of f p
  if c.ok = false ∨ hbmRangeOk 1 c.dmap c.dmapCap = false ∨ hbmRangeOk c.j.space c.j.addr 64 = false then some (0, stBadArg)
  else none

/-- The checks of a RENDER_BIN block at its submission: the ranges of 06 R146; those of R122 come at its start. -/
def binBlockChecks (f : BitVec 8) (p : List Byte) : Option (Nat × Nat) :=
  let b := BinJob.of f p
  if hbmRangeOk 1 b.dmap 64 = false ∨ hbmRangeOk b.j.space b.j.addr 64 = false ∨
      (b.outMode = 0 ∧ hbmRangeOk b.out.space b.out.addr b.outCap = false) then some (0, stBadArg)
  else none

/-- The checks of a COPY block: kind 1-3 and `wait` 0, R333 in order, and no overlap of a COPY (14 R348). -/
def copyChecks (s : State) (f : BitVec 8) (p : List Byte) : Option (Nat × Nat) :=
  let d := DescF.of p
  if d.kind = 4 ∨ d.wait then some (1, stBadArg)
  else
    match d.check s f.toNat with
    | some (n, st, _) => some (n, st)
    | none =>
      if d.kind = 1 ∧ d.srcSp = d.dstSp ∧ overlaps d.src d.len d.dst d.len then some (0, stBadArg) else none

/-- The checks of a CAL block (18 R413). -/
def calChecks (s : State) (p : List Byte) : Option (Nat × Nat) :=
  if blk p 0 0 4 = 0 then some (1, stBadArg)
  else if s.pm.mode = .expose ∧ blk p 0 4 1 = 0 then some (2, stBadState)
  else none

/-- The kind-specific check that fails, as the number in bits [15:8] of the reason, its status, and a failed structure
(11 R246 reason 7). -/
def kindChecks (kind : Nat) (s : State) (f : BitVec 8) (p : List Byte) : Option (Nat × Nat × Option Bad) :=
  let plain (r : Option (Nat × Nat)) : Option (Nat × Nat × Option Bad) := r.map (fun x => (x.1, x.2, none))
  match kind with
  | 1 => plain (ingestChecks s f p)
  | 2 => plain (censusBlockChecks f p)
  | 3 => plain (binBlockChecks f p)
  | 4 => stripeChecks s (StripeJob.of f p)
  | 5 => plain (copyChecks s f p)
  | 6 => plain (calChecks s p)
  | _ => plain (if hbmRangeOk (UpdJob.of p).space (UpdJob.of p).addr (UpdJob.of p).imgLen then none else some (0, stBadArg))

/-- The reason code with the number of the failing check (11 R246). -/
def checkReason (sub : Nat) : Nat := 7 + 256 * sub

/-! ### Starting an item (11 R243, R247) -/

/-- The first unretired live item of a flow. -/
def headItem (s : State) (f : BitVec 8) : Option Item := s.led.items.find? (fun i => i.flow == f && i.live)

/-- An engine runs the item now. -/
def engineRuns (s : State) (i : Item) : Bool :=
  match i.kind.toNat with
  | 1 => (ingestOf s i.flow).isSome
  | 2 => (censusOf s i.flow).isSome
  | 3 => s.rnd.bins.any (fun b => b.req.isNone && b.flow == i.flow && b.seq == i.seq)
  | 4 => decide (s.seq.item = some (i.flow, i.seq))
  | 5 => (copyOf s i.flow).isSome
  | 6 => decide (s.cal.item = some (i.flow, i.seq))
  | _ => (updOf s i.flow).isSome

/-- A stripe of any flow is in the sequencer or waits to resume (11 R243). -/
def stripePending (s : State) : Bool :=
  s.seq.st != .idle || s.led.items.any (fun i => i.kind == 4 && i.st == .running && (flow s i.flow).owner == s.fab.node)

/-- The flow's head is a stripe that waits to start. -/
def stripeWaits (s : State) (f : Nat) : Bool :=
  match headItem s (BitVec.ofNat 8 f) with
  | some i => i.kind == 4 && i.st == .accepted && i.params.isSome
  | none => false

/-- The flow whose turn it is among waiting stripes, round robin from `turn` (11 R243, 01 R18). -/
def turnFlow (s : State) : Option Nat :=
  ((List.range 256).map (fun k => (s.led.turn + k) % 256)).find? (stripeWaits s)

/-- The item is RUNNING: its STATE record is written and not awaited (11 R247). -/
def runItem (i : Item) (s : State) : State :=
  let i1 := { i with st := .running }
  writeRec (itemRec 2 i1) (putItem i1 s)

/-- An item fails at its start-time checks (11 R247, R250). -/
def failStart (i : Item) (status reason : Nat) (b : Option Bad) (s : State) : State :=
  let s1 := match b with
    | some x => keepDetail i.flow i.seq x (raiseBad x s)
    | none => s
  activateTables (failItem i.flow i.seq status reason s1)

/-- The stripe of an item, placed in the sequencer from first flash `n0` on; with every flash executed it is done at
once (07 R165, R170). -/
def placeStripe (i : Item) (h : SHdr) (stripe : Nat) (resume : Bool) (s : State) : State :=
  let s1 := setStripe i.flow i.seq stripe h.linesM1 s
  if resume then
    let s2 := { s1 with seq := { s1.seq with h := max (s1.seq.nFirst - 1) i.h, resumes := i.resumes + 1 } }
    if s2.seq.h = s2.seq.nLast then stripeDone s2 else enterFilling i.flow i.seq (resumeN0 s2) s2
  else enterFilling i.flow i.seq s1.seq.nFirst s1

/-- STRIPE_START (07 R165, 11 R243, R250): the checks again, then FILLING. -/
def startStripe (i : Item) (j : StripeJob) (s : State) : State :=
  if stripePending s ∨ turnFlow s ≠ some i.flow.toNat then s
  else
    match stripeChecks s j with
    | some (_, _, some .stall) => s
    | some (n, st, b) => failStart i st (checkReason n) b s
    | none =>
      match jobStripe s j with
      | .error _ => s
      | .ok (h, _) =>
        let i1 := { i with stripe := BitVec.ofNat 16 j.stripe, h := nFirstOf (btab s) - 1 }
        placeStripe i1 h j.stripe false (runItem i1 { s with led := { s.led with turn := (i.flow.toNat + 1) % 256 } })

/-- A stripe that a rebuild found RUNNING, resubmitted, fills and approaches as a resume (11 R258). -/
def resumeRebuilt (i : Item) (j : StripeJob) (s : State) : State :=
  if s.seq.st ≠ .idle ∨ i.waitResume ∨ s.pm.mode ≠ .expose then s
  else
    match jobStripe s j with
    | .error _ => s
    | .ok (h, _) => placeStripe i h j.stripe true s

/-- A run of ingest as it starts (03 R53). -/
def newIngest (f : BitVec 8) (q : BitVec 64) : IngestRun where
  flow := f
  seq := q
  s := none
  topProp := none
  cells := []
  current := none
  ended := false
  recNo := 0
  plain := []
  skipped := []
  stalled := false

/-- The region of a sealed ingest is registered with its key slot, once (20 R443). -/
def registerRegion (j : IngestJob) (s : State) : State :=
  let r : Region := { slot := j.keySlot, start := j.out.addr, len := j.outCap }
  if s.keep.regions.contains r then s else { s with keep := { s.keep with regions := s.keep.regions ++ [r] } }

/-- The key checks of a sealed ingest, once its container header is consistent: the key, or the reason (03 R65). -/
def sealedKey (s : State) (j : IngestJob) (hb : List Byte) : Except Nat (BitVec 256) :=
  match containerCheck hb j.srcLen with
  | some r => .error r
  | none =>
    let k := s.keep.slots.toList.getD j.keySlot { key := 0, keyId := 0, imports := 0, occupied := false }
    if k.occupied = false then .error 0x21
    else if k.keyId.toNat ≠ (Container.of hb).keyId then .error 0x22
    else .ok k.key

/-- A sealed ingest starts: region, header and key checks, decryptor (03 R65, 20 R443). -/
def startSealed (i : Item) (j : IngestJob) (fresh : State → State) (s : State) : State :=
  if s.lay.decryptor.isSome then s
  else
    match jread s j.src 0 64 with
    | .error _ => s
    | .ok hb =>
      if 64 ≤ s.keep.regions.length ∧ s.keep.regions.contains { slot := j.keySlot, start := j.out.addr, len := j.outCap } = false then
        failStart i stNoResource (checkReason 1) none s
      else
        let r := newIngest i.flow i.seq
        let s1 := registerRegion j (fresh { s with lay := { s.lay with ingests := s.lay.ingests ++ [r] } })
        match sealedKey s1 j hb with
        | .error reason => failIngest r reason 0 0 s1
        | .ok key => { s1 with lay := { s1.lay with decryptor := some (j.keySlot, key) } }

/-- An INGEST starts (03 R53, R65). -/
def startIngest (i : Item) (p : List Byte) (fresh : State → State) (s : State) : State :=
  let j := IngestJob.of i.flow p
  if j.sealed_ then startSealed i j fresh s
  else fresh { s with lay := { s.lay with ingests := s.lay.ingests ++ [newIngest i.flow i.seq] } }

/-- A COPY starts once it passes R333 again (14 R333, R348). -/
def startCopyItem (i : Item) (p : List Byte) (fresh : State → State) (s : State) : State :=
  match (DescF.of p).check s i.flow.toNat with
  | some (n, st, _) => failStart i st (checkReason n) none s
  | none => startCopy i.flow i.seq (fresh s)

/-- A CAL item asks for its run (18 R413, R414). -/
def startCal (i : Item) (p : List Byte) (fresh : State → State) (s : State) : State :=
  if s.cal.st ≠ 0 then s
  else
    let s1 := fresh s
    { s1 with cal := { s1.cal with st := 1, targets := BitVec.ofNat 4 (blk p 0 0 4), item := some (i.flow, i.seq) } }

/-- The item begins on its engine; `fresh` marks it RUNNING with its record, and does nothing to one that runs again
(11 R247, R257). -/
def startKind (i : Item) (p : List Byte) (fresh : State → State) (s : State) : State :=
  match i.kind.toNat with
  | 1 => if domOn s .ing then startIngest i p fresh s else s
  | 2 => if domOn s .ing then startCensus i.flow i.seq (CensusJob.of i.flow p) (fresh s) else s
  | 3 => if domOn s .rnd0 then startBin i.flow i.seq p (fresh s) else s
  | 5 => startCopyItem i p fresh s
  | 6 => if kindMode 6 s.pm.mode then startCal i p fresh s else s
  | 7 => (startUpdate i.flow i.seq p (fresh s)).getD s
  | _ => s

/-- Start or rerun the head item of a flow (11 R243, R247, R257, R258). -/
def startHead (i : Item) (p : List Byte) (s : State) : State :=
  if i.kind = 4 then
    if i.st = .accepted then startStripe i (StripeJob.of i.flow p) s
    else if i.st = .running ∧ engineRuns s i = false then resumeRebuilt i (StripeJob.of i.flow p) s
    else s
  else if i.st = .accepted then startKind i p (runItem i) s
  else if i.st = .running ∧ engineRuns s i = false then startKind i p id s
  else s

/-- WORK_ITEM_START (11 R247): the flow's head item starts where its start condition holds. -/
def execWorkItemStart (f : BitVec 8) (s : State) : Host.Outcome State Fault Refusal :=
  .next
    (if running s = false ∨ s.led.rebuilt = false ∨ s.pm.mode = .hold ∨ (flow s f).owner ≠ s.fab.node then s
     else
       match headItem s f with
       | none => s
       | some i =>
         match i.params with
         | none => s
         | some p => startHead i p s)

end Sys2Proof.Machine
end

