-- ==== Sys2Proof/Machine/WorkCmd.lean ====
section
/-! DEFINITION. The commands on flows, work items and the ledger (13 R306-R310), and the ledger's own steps
(11 R247-R260). -/

namespace Sys2Proof.Machine

/-! ### Operands -/

/-- `flow` of the commands on flows and items. -/
def argFlow (e : Entry) : BitVec 8 := bitsOf (Entry.arg e 0) 0 8

/-- `seq` or `first_seq` of those commands. -/
def argSeq (e : Entry) : BitVec 64 := bitsOf (Entry.arg e 0) 64 64

/-- A command of the work classes as R295 gives it. -/
def workCmd (op : Nat) (masks : List Nat) (modes : List Mode) : Cmd where
  op := op
  masks := masks
  modes := modes
  needs := []
  service := false

/-- FLOW_OPEN. -/
def cmdFlowOpen : Cmd := workCmd 0x0300 [bits 0 8 + bits 64 64] workModes
/-- FLOW_CLOSE. -/
def cmdFlowClose : Cmd := workCmd 0x0301 [bits 0 8] workModes
/-- WORK_SUBMIT. -/
def cmdWorkSubmit : Cmd := workCmd 0x0302 [bits 0 16 + bits 64 64, refMask] workModes
/-- WORK_CANCEL. -/
def cmdWorkCancel : Cmd := workCmd 0x0303 [bits 0 8 + bits 64 64] workModes
/-- WORK_QUERY. -/
def cmdWorkQuery : Cmd := { workCmd 0x0304 [bits 0 8 + bits 64 64] (.standby :: .hold :: workModes) with service := true }
/-- LEDGER_SET_WITNESS. -/
def cmdLedgerSetWitness : Cmd := workCmd 0x0400 [bits 0 2 + bits 16 12 + bits 64 32, refMask] workModes
/-- LEDGER_CHECKPOINT. -/
def cmdLedgerCheckpoint : Cmd := workCmd 0x0401 [bits 0 8 + bits 64 64] workModes
/-- LEDGER_READ. -/
def cmdLedgerRead : Cmd := { workCmd 0x0402 [bits 0 8 + bits 64 64, bits 0 15] allButRec with service := true }

/-- Objects of a command on a flow: the flow and the witness (13 R293). -/
def flowObjs (f : BitVec 8) : List Obj := [(0, f.toNat, 0), (7, 0, 0)]

/-- Objects of a command on an item: the item, its flow and the witness (13 R293). -/
def itemObjs (f : BitVec 8) (q : BitVec 64) : List Obj := (1, f.toNat, q.toNat) :: flowObjs f

/-- A submission of the item waits for its witness: a second one of it waits for the outcome (11 R262). -/
def stillSubmitted (s : State) (f : BitVec 8) (q : BitVec 64) : Bool := ((findItem s f q).map (fun i => i.st == .submitted)).getD false

/-! ### Flows (13 R306, 11 R244) -/

/-- The witness can take a record: configured and not lost (11 R252). -/
def witnessOk (s : State) : Bool := hasWitness s && !s.led.lost

/-- What refuses a FLOW_OPEN (13 R306). -/
def flowOpenBad (s : State) (f : BitVec 8) (first : BitVec 64) : Option (Nat × Nat) :=
  if (flow s f).isOpen then some (stBadState, if (flow s f).owner = s.fab.node then 1 else 2)
  else if witnessOk s = false then some (stBadState, 3)
  else if first = 0xFFFFFFFFFFFFFFFF then some (stBadArg, 4)
  else none

/-- FLOW_OPEN (13 R306): the OWNER record goes to the witness; the command waits for its acknowledgement. -/
def execFlowOpen (e : Entry) (s : State) : Host.Outcome State Fault Refusal :=
  .next
    (takeUp cmdFlowOpen e (objBusy s (flowObjs (argFlow e))) (fun w t =>
      let f := argFlow e
      match flowOpenBad t f (argSeq e) with
      | some r => finish w r.1 r.2 [] t
      | none =>
        let t1 := writeRec (flowRec 8 f (openedFlow (argSeq e) t)) t
        wait w (.flowOpen f (t1.led.wseq - 1) (argSeq e)) t1) s)

/-- What refuses a FLOW_CLOSE (13 R306, 11 R244). -/
def flowCloseBad (s : State) (f : BitVec 8) : Option Nat :=
  if (flow s f).isOpen = false then some 1
  else if (flow s f).owner ≠ s.fab.node then some 2
  else if witnessOk s = false then some 3
  else if s.led.items.any (fun i => i.flow == f && i.live) then some 5
  else none

/-- FLOW_CLOSE (13 R306, 11 R244). -/
def execFlowClose (e : Entry) (s : State) : Host.Outcome State Fault Refusal :=
  .next
    (takeUp cmdFlowClose e (objBusy s (flowObjs (argFlow e))) (fun w t =>
      let f := argFlow e
      match flowCloseBad t f with
      | some r => finish w stBadState r [] t
      | none =>
        let t1 := writeRec (flowRec 7 f (flow t f)) t
        wait w (.flowClose f (t1.led.wseq - 1)) t1) s)

/-! ### WORK_SUBMIT (11 R245, R246, R251, R258, 13 R307) -/

/-- What a submission names. -/
structure Submit where
  f : BitVec 8
  q : BitVec 64
  kind : Nat
  block : List Byte
  deriving DecidableEq, Repr

/-- `param_crc` of a submission. -/
def Submit.crc (x : Submit) : BitVec 32 := paramCrc x.kind x.block

/-- `resume` = 1 of a stripe's block (11 R250). -/
def Submit.resume (x : Submit) : Bool := x.kind == 4 && blk x.block 0 67 1 == 1

/-- Complete with a reason of R246 and raise WORK_REFUSED; nothing else changes (11 R246). -/
def refuse (w : Waiting) (x : Submit) (status code : Nat) (s : State) : State :=
  let s1 := raise 0x0300 .ctrl (word [(0, 16, code), (16, 8, x.f.toNat), (64, 64, x.q.toNat)])
    (stat (sk 0x04000001 (0x80 + code % 256)) s)
  finish w status code (submitWords (flow s x.f).nextSeq.toNat 0) s1

/-- Reasons 12, 2, 3, 4, 5 and 6 of R246: status and reason of the first that applies. -/
def plainChecks (s : State) (x : Submit) : Option (Nat × Nat) :=
  if (flow s x.f).nextSeq = 0xFFFFFFFFFFFFFFFF then some (stNoResource, 12)
  else if x.kind < 1 ∨ 7 < x.kind ∨ x.block.length ≠ blockSize x.kind ∨ reservedOk x.kind x.block = false then some (stBadArg, 2)
  else if kindMode x.kind s.pm.mode = false then some (stBadState, 3)
  else if 64 ≤ (s.led.items.filter (fun i => i.flow == x.f && i.live)).length then some (stQueueFull, 4)
  else if 16384 ≤ s.led.items.length then some (stNoResource, 5)
  else if witnessOk s = false then some (stBadState, 6)
  else none

/-- A new item's record (11 R246, R247). -/
def newItem (x : Submit) (wseq : Nat) : Item where
  flow := x.f
  seq := x.q
  kind := BitVec.ofNat 8 x.kind
  st := .submitted
  params := some x.block
  paramCrc := x.crc
  status := 0
  reason := 0
  result := 0
  resumes := 0
  h := 0
  stripe := if x.kind = 4 then BitVec.ofNat 16 (blk x.block 0 80 16) else 0
  detail := 0
  acceptWseq := wseq
  finalWseq := none
  finalFt := 0
  finalLt := 0
  published := false
  cancel := false
  waitResume := false

/-- A new item has passed its checks: SUBMITTED, its ACCEPT record sent; the command waits (11 R247). -/
def submitNew (w : Waiting) (x : Submit) (s : State) : State :=
  let s1 := writeRec (itemRec 1 (newItem x 0)) s
  wait w (.accept x.f x.q) (addItem (newItem x (s1.led.wseq - 1)) (stat (sk 0x04000001 0x80) s1))

/-- q = `next_seq`: a new item (11 R245, R246). -/
def judgeNew (w : Waiting) (x : Submit) (s : State) : State :=
  match plainChecks s x with
  | some r => refuse w x r.1 r.2 s
  | none =>
    match kindChecks x.kind s x.f x.block with
    | some (n, st, b) =>
      refuse w x st (checkReason n) (match b with | some y => raiseBad y s | none => s)
    | none => submitNew w x s

/-- The duplicate's answer: the record, WORK_DUPLICATE (11 R245). -/
def duplicate (w : Waiting) (words : List W128) (s : State) : State :=
  finish w stDuplicate 0 words (raise 0x0301 .ctrl 0 (stat (sk 0x04000001 0x42) s))

/-- The retired form of an item's record (13 R307). -/
def retiredWords (s : State) (f : BitVec 8) (q : BitVec 64) : List W128 :=
  let x := flow s f
  [word [(0, 64, q.toNat), (64, 8, f.toNat), (80, 4, if x.failCnt = 0 then 3 else 0), (84, 1, 1)],
   word [(0, 64, x.floor.toNat), (64, 32, x.doneCnt.toNat), (96, 32, x.failCnt.toNat)], 0, 0]

/-- A duplicate supplies the block of an item that waits for it after a rebuild, but not of a stripe that waits to
resume (11 R245, R257, R258). -/
def supplyBlock (i : Item) (x : Submit) (s : State) : State :=
  if i.params.isNone ∧ i.waitResume = false ∧ i.live then putItem { i with params := some x.block } s else s

/-- A stripe that stopped with cause 11 is resubmitted: PROGRESS, and cause 11's condition is met (11 R251, 07 R169). -/
def resumeStopped (w : Waiting) (x : Submit) (i : Item) (s : State) : State :=
  let s1 := progressRec s
  finish w stAccepted 0 (submitWords (flow s x.f).nextSeq.toNat i.acceptWseq)
    { s1 with seq := { s1.seq with met := 11 :: s1.seq.met } }

/-- A stripe that a rebuild found RUNNING is resubmitted: checks 1-8 of R250, then it waits no longer (11 R258). -/
def resumeWaiting (w : Waiting) (x : Submit) (i : Item) (s : State) : State :=
  match stripeChecks s (StripeJob.of x.f x.block) with
  | some (n, st, b) => refuse w x st (checkReason n) (match b with | some y => raiseBad y s | none => s)
  | none =>
    finish w stAccepted 0 (submitWords (flow s x.f).nextSeq.toNat i.acceptWseq)
      (putItem { i with params := some x.block, waitResume := false } s)

/-- A stripe STOPPED with cause 11 whose resume has not been asked for (11 R251). -/
def waitsForHost (s : State) (i : Item) : Bool :=
  decide (s.seq.item = some (i.flow, i.seq)) && s.seq.st == .stopped && s.seq.causes.contains 11 && !s.seq.met.contains 11

/-- q < `next_seq` with a record of q (11 R245, R251, R258). -/
def judgeOld (w : Waiting) (x : Submit) (i : Item) (s : State) : State :=
  if x.crc ≠ i.paramCrc then
    finish w stBadArg 9 (submitWords (flow s x.f).nextSeq.toNat 0) (raise 0x0303 .ctrl 0 (stat (sk 0x04000001 0x43) s))
  else if x.resume ∧ i.waitResume then resumeWaiting w x i s
  else if x.resume ∧ waitsForHost s i then resumeStopped w x i s
  else duplicate w (queryWords s i) (supplyBlock i x s)

/-- q lies below `next_seq` with no record and not below the floor: the manual gives no outcome; the status and the
reason are free values (DESIGN CHOICE, safe, log 7). -/
def judgeUnknown (w : Waiting) (x : Submit) (s : State) : State :=
  let (v, s1) := takeFree s
  finish w (bitsNat v 0 16) (bitsNat v 16 16) (submitWords (flow s x.f).nextSeq.toNat 0) s1

/-- The submission is judged by its sequence number (11 R245, R257). -/
def judgeSubmit (w : Waiting) (x : Submit) (s : State) : State :=
  let fl := flow s x.f
  if s.led.rebuilt = false then refuse w x stBadState 11 s
  else if fl.isOpen = false ∨ fl.owner ≠ s.fab.node then refuse w x stBadState 1 s
  else if x.q = fl.nextSeq then judgeNew w x s
  else if fl.nextSeq < x.q then
    finish w stBadArg 8 (submitWords fl.nextSeq.toNat 0) (stat (sk 0x04000001 0x88) s)
  else
    match findItem s x.f x.q with
    | some i => judgeOld w x i s
    | none => if x.q < fl.floor then duplicate w (retiredWords s x.f x.q) s else judgeUnknown w x s

/-- A stripe's structures behind a submission cannot be read now: the command waits with its reads (14 R346). -/
def submitStalls (s : State) (e : Entry) : Bool :=
  bitsNat (Entry.arg e 0) 8 8 == 4 && s.pm.mode == .expose &&
  match (readBuffer e (Entry.arg e 1) (fun _ => true) s).1 with
  | .ok b => stripeStalls s (argFlow e) b
  | .error _ => false

/-- WORK_SUBMIT (13 R307). -/
def execWorkSubmit (e : Entry) (s : State) : Host.Outcome State Fault Refusal :=
  .next
    (takeUp cmdWorkSubmit e
      (objBusy s (itemObjs (argFlow e) (argSeq e)) || stillSubmitted s (argFlow e) (argSeq e) || submitStalls s e)
      (fun w t =>
        match readBuffer e (Entry.arg e 1) (fun _ => true) t with
        | (.error r, t1) => finish w r.1 r.2 [] t1
        | (.ok b, t1) =>
          judgeSubmit w { f := argFlow e, q := argSeq e, kind := bitsNat (Entry.arg e 0) 8 8, block := b } t1) s)

/-! ### WORK_CANCEL and WORK_QUERY (13 R308, 11 R247) -/

/-- `seq` at or above `next_seq`, or of a flow that is not open (13 R308). -/
def seqUnknown (s : State) (f : BitVec 8) (q : BitVec 64) : Bool := !(flow s f).isOpen || decide ((flow s f).nextSeq ≤ q)

/-- A RUNNING stripe is cancelled at its boundary; one that is STOPPED ends at once, unless a handover holds it
(11 R247, 07 R169 cause 12, 11 R262). -/
def cancelStripe (s : State) : State :=
  if s.seq.st = .stopped then
    if s.seq.causes.contains 14 then addCause 12 s else endStripe .failed stAborted (addCause 12 s)
  else boundaryStop 12 s

/-- What a cancel does to a RUNNING item with its block (11 R247, 03 R68, R78, 05 R122). -/
def cancelRunning (i : Item) (s : State) : State :=
  match i.kind.toNat with
  | 1 =>
    match ingestOf s i.flow with
    | some r =>
      activateTables (failItem i.flow i.seq stAborted 0 (dropIngest i.flow (((ingestJob s r).map (·.sealed_)).getD false) s))
    | none => activateTables (failItem i.flow i.seq stAborted 0 s)
  | 2 => failCensus i.flow i.seq 5 s
  | 3 =>
    match s.rnd.bins.find? (fun b => b.req.isNone && b.flow == i.flow && b.seq == i.seq) with
    | some b => stopBin b 7 s
    | none => activateTables (failItem i.flow i.seq stAborted 7 s)
  | 4 => if engineRuns s i then cancelStripe s else activateTables (failItem i.flow i.seq stAborted 0 s)
  | 5 =>
    match copyOf s i.flow with
    | some r => failCopy r stAborted 0 s
    | none => activateTables (failItem i.flow i.seq stAborted 0 s)
  | 6 =>
    if engineRuns s i then
      if s.cal.st = 1 then
        activateTables (failItem i.flow i.seq stAborted 0 { s with cal := { s.cal with st := 0, item := none } })
      else putItem { i with cancel := true } s
    else activateTables (failItem i.flow i.seq stAborted 0 s)
  | _ =>
    match updOf s i.flow with
    | some r => failUpd r stAborted 0 s
    | none => activateTables (failItem i.flow i.seq stAborted 0 s)

/-- A cancel takes effect (11 R247). -/
def cancelItem (i : Item) (s : State) : State :=
  if i.st = .accepted ∨ i.params.isNone then activateTables (failItem i.flow i.seq stAborted 0 s) else cancelRunning i s

/-- WORK_CANCEL (13 R308). -/
def execWorkCancel (e : Entry) (s : State) : Host.Outcome State Fault Refusal :=
  .next
    (takeUp cmdWorkCancel e (objBusy s (itemObjs (argFlow e) (argSeq e)) || stillSubmitted s (argFlow e) (argSeq e)) (fun w t =>
      let f := argFlow e
      let q := argSeq e
      if seqUnknown t f q then finish w stBadArg 2 [] t
      else
        match findItem t f q with
        | some i =>
          if i.live = false ∨ (flow t f).owner ≠ t.fab.node then finish w stBadState 1 (queryWords t i) t
          else wait w (.cancel f q) (cancelItem i t)
        | none =>
          if q < (flow t f).floor then finish w stBadState 3 (retiredWords t f q) t
          else judgeUnknown w { f := f, q := q, kind := 0, block := [] } t) s)

/-- WORK_QUERY (13 R308). -/
def execWorkQuery (e : Entry) (s : State) : Host.Outcome State Fault Refusal :=
  .next
    (takeUp cmdWorkQuery e (objBusy s [(1, (argFlow e).toNat, (argSeq e).toNat)]) (fun w t =>
      let f := argFlow e
      let q := argSeq e
      if seqUnknown t f q then finish w stBadArg 2 [] t
      else
        match findItem t f q with
        | some i => finish w stOk 0 (queryWords t i) t
        | none =>
          if q < (flow t f).floor then finish w stOk 0 (retiredWords t f q) t
          else judgeUnknown w { f := f, q := q, kind := 0, block := [] } t) s)

/-! ### LEDGER_SET_WITNESS (13 R309, 11 R252) -/

/-- A host region's buffer reference, as the witness it names (11 R252, 13 R309). -/
def regionOf (s : State) (w : W128) : Option WitnessKind :=
  let b := bufRef w
  let n := b.len / 64
  if b.space = 2 ∧ flowOpen s b.rflow ∧ b.addr % 4096 = 0 ∧ b.len = 64 * n ∧ [65536, 131072, 262144, 524288, 1048576].contains n then
    some (.region (BitVec.ofNat 8 b.rflow) b.addr n)
  else none

/-- The witness the command names, or the reason it is refused with (13 R309). -/
def newWitness (s : State) (a b : W128) : Except Nat WitnessKind :=
  match bitsNat a 0 2 with
  | 1 => if b ≠ 0 then .error 0x8008 else .ok (.peer (bitsOf a 16 12))
  | 2 =>
    if bitsNat a 16 12 ≠ 0 then .error 0x8008
    else match regionOf s b with
      | some k => .ok k
      | none => .error 2
  | _ => .error 2

/-- Every open flow and unretired item as records of a new witness, numbered from 1 (11 R252, R253). -/
def copyRecs (s : State) (epoch : BitVec 32) : List WRec :=
  let fs := (s.led.flows.filter (fun p => p.2.isOpen)).flatMap (fun p =>
    [flowRec 8 (BitVec.ofNat 8 p.1) p.2 s, flowRec 6 (BitVec.ofNat 8 p.1) p.2 s])
  let l := fs ++ s.led.items.map (fun i => itemRec 2 i s)
  (l.zip (List.range l.length)).map (fun p => { p.1 with wseq := p.2 + 1, epoch := epoch })

/-- FINAL records not yet acknowledged by the old witness are written to the new one (11 R249). -/
def refinal : List Item → State → State
  | [], s => s
  | i :: t, s =>
    refinal t
      (if i.live = false ∧ i.published = false then
        let s1 := writeRec (itemRec 4 i) s
        putItem { i with finalWseq := some (s1.led.wseq - 1) } s1
       else s)

/-- The new witness holds every copied record: it is stored and in force, or a store write that fails leaves the old
one (11 R252, 13 R309). -/
def witnessCopied (s : State) : State :=
  match s.led.pendingWitness with
  | none => s
  | some (k, epoch, n) =>
    let ok := s.mb.running.any (fun w => match w.on with | .setWitness _ b => b | _ => false)
    let s1 := { s with led := { s.led with pendingWitness := none } }
    let done (st reason : Nat) (words : List W128) (t : State) : State :=
      settle (fun w => match w.on with | .setWitness _ _ => some (st, reason, words) | _ => none) t
    if ok then
      let s2 := storeWitness k epoch { s1 with led := { s1.led with
        witness := k
        epoch := epoch
        wseq := n + 1
        unacked := []
        acked := n
        acked2 := n
        second := false
        lost := false } }
      done stOk 0 [word [(0, 32, n)]] (raise 0x0400 .ctrl 0 (refinal s2.led.items s2))
    else done stFault 4 [] s1

/-- The new witness has not acknowledged every record within 1 s, or refuses: the old witness stays (13 R309). -/
def witnessRefused (s : State) : State :=
  if s.led.pendingWitness.isNone then s
  else
    settle (fun w => match w.on with | .setWitness _ _ => some (stNoResource, 3, []) | _ => none)
      { s with led := { s.led with pendingWitness := none } }

/-- The condition of R252: no item SUBMITTED and no stripe RUNNING. -/
def witnessMayChange (s : State) : Bool :=
  !s.led.items.any (fun i => i.st == .submitted || (i.kind == 4 && i.st == .running))

/-- Some command waits for a record of the present witness. -/
def ledgerWaits (s : State) : Bool :=
  s.mb.running.any (fun w => match w.on with
    | .flowOpen _ _ _ | .flowClose _ _ | .checkpoint _ _ _ | .setWitness _ _ => true
    | _ => false)

/-- LEDGER_SET_WITNESS (13 R309, 11 R252): every record is copied to the new witness, whose acknowledgement ends the
command. -/
def execLedgerSetWitness (e : Entry) (stored : Bool) (s : State) : Host.Outcome State Fault Refusal :=
  .next
    (takeUp cmdLedgerSetWitness e (ledgerWaits s) (fun w t =>
      if witnessMayChange t = false then finish w stBadState 1 [] t
      else
        match newWitness t (Entry.arg e 0) (Entry.arg e 1) with
        | .error r => finish w stBadArg r [] t
        | .ok k =>
          let l := copyRecs t (bitsOf (Entry.arg e 0) 64 32)
          let t1 := resendTo k l { t with led := { t.led with pendingWitness := some (k, bitsOf (Entry.arg e 0) 64 32, l.length) } }
          let t2 := wait w (.setWitness l.length stored) t1
          if l.isEmpty then witnessCopied t2 else t2) s)

/-! ### LEDGER_CHECKPOINT and LEDGER_READ (13 R310, 11 R256) -/

/-- The floor a checkpoint applies: F, limited to the lowest live item, never below the present one (11 R256). -/
def checkpointFloor (s : State) (f : BitVec 8) (fl : BitVec 64) : BitVec 64 :=
  let m := (s.led.items.filter (fun i => i.flow == f && i.live)).foldl (fun a i => min a i.seq.toNat) fl.toNat
  BitVec.ofNat 64 (max m (flow s f).floor.toNat)

/-- LEDGER_CHECKPOINT (13 R310, 11 R256). -/
def execLedgerCheckpoint (e : Entry) (s : State) : Host.Outcome State Fault Refusal :=
  .next
    (takeUp cmdLedgerCheckpoint e (objBusy s (flowObjs (argFlow e))) (fun w t =>
      let f := argFlow e
      if (flow t f).isOpen = false then finish w stBadState 1 [] t
      else if witnessOk t = false then finish w stBadState 2 [] t
      else
        let fl := checkpointFloor t f (argSeq e)
        let t1 := writeRec (flowRec 6 f (flow (applyFloor f fl t) f)) t
        wait w (.checkpoint f (t1.led.wseq - 1) fl) t1) s)

/-- The latest records of a flow's unretired items, in `seq` order (11 R263). -/
def flowRecs (s : State) (f : BitVec 8) : List WRec :=
  let l := s.led.recs.filter (fun r => r.flow == f && (findItem s r.flow r.seq).isSome)
  (s.led.items.filter (fun i => i.flow == f)).filterMap (fun i => l.find? (fun r => r.seq == i.seq))

/-- Map bytes into the aperture as an object; the generation goes up (13 R299). -/
def mapAperture (object : Nat) (b : List Byte) (s : State) : State :=
  emit (.mappedBytes b) { s with aper := { object := BitVec.ofNat 32 object, bytes := b, gen := s.aper.gen + 1 } }

/-- LEDGER_READ (13 R310). -/
def execLedgerRead (e : Entry) (s : State) : Host.Outcome State Fault Refusal :=
  .next
    (takeUp cmdLedgerRead e false (fun w t =>
      let f := argFlow e
      let n := bitsNat (Entry.arg e 1) 0 15
      if n = 0 ∨ 16384 < n then finish w stBadArg 0x8008 [] t
      else
        let l := ((flowRecs t f).filter (fun r => decide (argSeq e ≤ r.seq))).take n
        let t1 := mapAperture (0x04010000 + f.toNat) (l.flatMap WRec.bytes) t
        finish w stOk 0 [word [(64, 32, l.length), (96, 32, t1.aper.gen.toNat)]] t1) s)

/-! ### The witness's own steps (11 R247, R254, R257, R260) -/

/-- ACCEPT_TIMEOUT (11 R246, R247): 10 ms without the acknowledgement of a flow's ACCEPT record. -/
def execAcceptTimeout (f : BitVec 8) (s : State) : Host.Outcome State Fault Refusal :=
  .next
    (match s.led.items.find? (fun i => i.flow == f && i.st == .submitted) with
     | none => s
     | some i =>
       let s1 := withdraw i (refuseSubmitted [i] (stat (sk 0x04000001 0x8A) s))
       settle (fun w => if w.on = .accept i.flow i.seq then
         some (stNoResource, 10, submitWords (flow s1 i.flow).nextSeq.toNat 0) else none) s1)

/-- WITNESS_READBACK_DONE (11 R254): the read-back of the oldest record of a host region not yet acknowledged, or of
the records copied to a new one. -/
def execWitnessReadbackDone (unchanged : Bool) (s : State) : Host.Outcome State Fault Refusal :=
  .next
    (if unchanged = false ∨ s.diag.withhold then s
     else
       match s.led.witness, s.led.unacked with
       | .region _ _ _, r :: _ => if s.led.lost then s else activateTables (handoverStep (ackUpTo r.wseq s))
       | _, _ =>
         match s.led.pendingWitness with
         | some (.region _ _ _, _, _) => witnessCopied s
         | _ => s)

/-- WITNESS_RESEND_TIMEOUT (11 R254): a record that a peer has not acknowledged for 1 ms goes over the alternate
route. -/
def execWitnessResendTimeout (s : State) : Host.Outcome State Fault Refusal :=
  .next
    (match s.led.witness, s.led.unacked with
     | .peer node, r :: _ =>
       if s.led.lost then s else sendAlternate node.toNat 0x20 1 r.bytes (stat (sk 0x04000001 0x40) s)
     | _, _ => s)

/-- WITNESS_LOST (11 R254): no acknowledgement of an outstanding record for 10 ms; with none outstanding, a new witness
that has not acknowledged its copies in time (13 R309). -/
def execWitnessLost (s : State) : Host.Outcome State Fault Refusal :=
  .next (if s.led.unacked.isEmpty then witnessRefused s else loseWitness s)

/-- WITNESS_RETRY (11 R254): the retry reached the witness, or not. -/
def execWitnessRetry (answered : Bool) (s : State) : Host.Outcome State Fault Refusal :=
  .next (if answered && !s.diag.withhold then restoreWitness s else s)

/-- PROGRESS_TIMER (11 R260). -/
def execProgressTimer (s : State) : Host.Outcome State Fault Refusal := .next (if running s then progressRec s else s)

/-- LEDGER_REBUILD (11 R255, R257): from the records the witness returns, those whose `rec_crc` is correct. -/
def execLedgerRebuild (recs : List (BitVec 512)) (s : State) : Host.Outcome State Fault Refusal :=
  .next
    (if running s = false ∨ s.led.rebuilt ∨ hasWitness s = false then s
     else
       let l := (recs.map (fun r => leBytes 64 r.toNat)).filter recCrcOk
       rebuildLedger (l.map WRec.ofBytes) s)

end Sys2Proof.Machine
end

