-- ==== Sys2Proof/Machine/CfgCmd.lean ====
section
/-! DEFINITION. The configuration commands (13 R301-R305, with 02 R39, 03 R60-R62, 05 R110, R111, 09 R202, R217). -/

namespace Sys2Proof.Machine

/-! ### Items (13 R302) -/

/-- The item exists, at that index (13 R301, R302). -/
def itemKnown (item idx : Nat) : Bool :=
  match item with
  | 0x0001 | 0x0002 | 0x0003 | 0x0004 | 0x0005 | 0x0010 | 0x0011 | 0x0012 | 0x0013 | 0x0014 | 0x0015 | 0x0020 | 0x0021
  | 0x0030 | 0x0043 | 0x0044 | 0x0045 | 0x0046 | 0x0047 | 0x0050 | 0x0060 | 0x0061 => idx == 0
  | 0x0040 | 0x0041 | 0x0042 => decide (idx < 4)
  | _ => false

/-- The defined bits of an item's value (13 R302, 09 R202, R217). -/
def itemMask (item : Nat) (v : W128) : Nat :=
  match item with
  | 0x0001 => bits 0 12 + bits 32 32
  | 0x0002 | 0x0011 | 0x0020 | 0x0043 | 0x0050 => bits 0 1
  | 0x0003 => bits 0 12
  | 0x0004 | 0x0015 => bits 0 6
  | 0x0005 => bits 0 7
  | 0x0012 => bits 0 (4 + 12 * bitsNat v 0 4)
  | 0x0013 | 0x0014 => bits 0 9
  | 0x0021 => bits 0 64
  | 0x0030 => bits 0 80
  | 0x0040 => bits 0 24 + bits 32 40
  | 0x0041 => bits 0 24
  | 0x0042 => bits 0 20
  | 0x0044 => bits 0 10
  | 0x0045 | 0x0046 | 0x0047 | 0x0061 => bits 0 16
  | 0x0060 => bits 0 4
  | _ => 0

/-- The value an item will have at the next boundary: the staged one, else the active one. -/
def latestValue (s : State) (item : Nat) : Nat := ((stagedValue s item 0).getD (s.cfg.act.word item 0)).toNat

/-- n lies in [lo, hi]. -/
def within (lo hi n : Nat) : Bool := decide (lo ≤ n ∧ n ≤ hi)

/-- A `pos_cfg` word is in range; a 0 outside a range is refused too (09 R202). -/
def posCfgOk (v : W128) : Bool :=
  posMode v != 3 && posQfilt v != 0 && decide (posLat v ≤ 10000) && within (2 ^ 20) (2 ^ 36) (posScale v)

/-- The value of an item is in range (13 R302, 02 R26, R41, 05 R123, 06 R141, 09 R202, R217). -/
def itemRangeOk (s : State) (item : Nat) (v : W128) : Bool :=
  let n := v.toNat
  match item with
  | 0x0001 => within 16 2560 (bitsNat v 0 12) && within 100000 2000000 (bitsNat v 32 32) && tqOk (bitsNat v 0 12) (bitsNat v 32 32)
  | 0x0003 => within 16 4095 n
  | 0x0004 => within 1 63 n && decide (n < latestValue s 5)
  | 0x0005 => within 4 64 n && decide (latestValue s 4 < n)
  | 0x0012 => within 1 8 (bitsNat v 0 4)
  | 0x0011 => n == 0 || decide (s.cfg.act.offloadPeers.length ≠ 0)
  | 0x0013 => within 32 496 n && decide (s.cfg.act.offloadDeadline < n)
  | 0x0014 => within 16 256 n && decide (n < s.cfg.act.offloadLead)
  | 0x0015 => within 0 32 n
  | 0x0021 => n % 64 == 0 && decide (n < hbmSize)
  | 0x0040 => posCfgOk v
  | 0x0041 => decide (bitsNat v 0 3 ≤ 4)
  | 0x0044 => within 0 1000 n
  | 0x0045 | 0x0046 | 0x0047 => within 1 65535 n
  | 0x0060 => within 6 14 n
  | 0x0061 => within 100 60000 n
  | _ => true

/-- A DAC source uses a role: 1 the scan channel, 2 the cross channel, 3 the scan auxiliary and the scan channel
(09 R217). -/
def dacUses (role : Nat) (c : BitVec 32) : Bool :=
  match bitsNat c 0 3 with
  | 1 => role == 0
  | 2 => role == 1
  | 3 => role == 2 || role == 0
  | _ => false

/-- The channel's role is in use by the armed loop or by a DAC source (09 R202). -/
def channelUsed (s : State) (idx : Nat) : Bool :=
  let w := (s.cfg.act.posCfg[idx]?).getD 0
  posMode w != 0 && ((s.trk.st != .off && posRole w == 0) || s.cfg.act.dacCfg.toList.any (dacUses (posRole w)))

/-- What refuses an inline CFG_SET: status and reason (13 R301). -/
def cfgSetBad (s : State) (item idx : Nat) (byRef : Bool) (v : W128) : Option (Nat × Nat) :=
  if itemKnown item idx = false then some (stBadArg, 0x0101)
  else if byRef != (item == 0x10) then some (stBadArg, 0x0102)
  else if item = 0x10 then none
  else if maskOk (itemMask item v) v = false then some (stBadArg, 0x8008)
  else if itemRangeOk s item v = false then some (stBadArg, 0x0102)
  else if item = 0x40 ∧ channelUsed s idx ∧ (s.cfg.act.posCfg[idx]?).getD 0 ≠ v then some (stBadState, 0x0103)
  else none

/-- Result word of CFG_SET (13 R301). -/
def cfgSetWords (item : Nat) (staged : Bool) (vcrc : BitVec 32) : List W128 :=
  [word [(0, 16, item), (16, 1, b2n staged), (32, 32, vcrc.toNat)]]

/-- Homing is lost with a change of the scan channel (10 R226). -/
def posCfgChanged (idx : Nat) (v : W128) (old s : State) : State :=
  let isScan (t : State) : Bool := ((scanChannel t).map (fun c => c.val == idx)).getD false
  if (isScan old || isScan s) && (old.cfg.act.posCfg[idx]?).getD 0 != v then loseHome s else s

/-- An inline value takes its place: staged where it waits for a boundary or for R111, else active (13 R302). -/
def applyItem (item idx : Nat) (v : W128) (s : State) : State :=
  if boundaryItem item then activateTables (stageItem item idx v s)
  else if codeItem item then activateTables (raise 0x0250 .store 0 (stageItem item idx v s))
  else if item = 0x40 then posCfgChanged idx v s (setItem item idx v s)
  else if 0x11 ≤ item ∧ item ≤ 0x15 then offloadStep (setItem item idx v s)
  else setItem item idx v s

/-! ### CFG_SET and CFG_GET -/

/-- CFG_SET. -/
def cmdCfgSet : Cmd := workCmd 0x0200 [bits 0 25, fullMask] stbWork

/-- render_params: the image is verified, staged and activated under R111; a failing one is rejected (05 R110, R111;
the term index stands where R305 has `where`, DEDUCED, unsafe, log 27). -/
def setRenderParams (w : Waiting) (l : List Byte) (s : State) : State :=
  match rpCheck l with
  | some (reason, term) =>
    finish w stBadArg reason [word [(0, 16, 0x10), (32, 32, (crc32c l).toNat), (64, 18, term)]]
      (raise 0x0240 .rnd0 0 s)
  | none =>
    let t : Image := { bytes := l, crc := BitVec.ofNat 32 (leAt l 8 4) }
    let s1 := activateTables (raise 0x0241 .rnd0 0 { s with cfg := { s.cfg with rpStaged := some t } })
    finish w stOk 0 (cfgSetWords 0x10 s1.cfg.rpStaged.isSome (crc32c l)) s1

/-- CFG_SET of a value inline (13 R301). -/
def setInline (w : Waiting) (item idx : Nat) (v : W128) (s : State) : State :=
  let s1 := applyItem item idx v s
  finish w stOk 0 (cfgSetWords item (stagedValue s1 item idx).isSome (crc32c (wordBytes v))) s1

/-- CFG_SET (13 R301). -/
def execCfgSet (e : Entry) (s : State) : Host.Outcome State Fault Refusal :=
  .next
    (takeUp cmdCfgSet e false (fun w t =>
      let a := Entry.arg e 0
      let item := bitsNat a 0 16
      let idx := bitsNat a 16 8
      match cfgSetBad t item idx (bitAt a 24) (Entry.arg e 1) with
      | some r => finish w r.1 r.2 (cfgSetWords item false 0) t
      | none =>
        if item = 0x10 then
          if maskOk refMask (Entry.arg e 1) = false then finish w stBadArg 0x8008 (cfgSetWords item false 0) t
          else
            match readBuffer e (Entry.arg e 1) (fun n => n == 400) t with
            | (.error r, t1) => finish w r.1 r.2 (cfgSetWords item false 0) t1
            | (.ok l, t1) => setRenderParams w l t1
        else setInline w item idx (Entry.arg e 1) t) s)

/-- CFG_GET. -/
def cmdCfgGet : Cmd := { workCmd 0x0201 [bits 0 25] allButRec with service := true }

/-- CRC and length of a reference item's image (13 R303). -/
def imageWord (i : Option Image) : W128 :=
  match i with
  | some t => word [(0, 32, t.crc.toNat), (32, 32, t.bytes.length)]
  | none => 0

/-- The staged value of an item, as CFG_GET gives it. -/
def stagedWord (s : State) (item idx : Nat) : Option W128 :=
  if item = 0x10 then s.cfg.rpStaged.map (fun t => imageWord (some t)) else stagedValue s item idx

/-- CFG_GET (13 R303). -/
def execCfgGet (e : Entry) (s : State) : Host.Outcome State Fault Refusal :=
  .next
    (takeUp cmdCfgGet e false (fun w t =>
      let a := Entry.arg e 0
      let item := bitsNat a 0 16
      let idx := bitsNat a 16 8
      let st := stagedWord t item idx
      let has : W128 := BitVec.ofNat 128 (b2n st.isSome)
      if itemKnown item idx = false then finish w stBadArg 0x0101 [] t
      else if bitAt a 24 then
        match st with
        | some v => finish w stOk 0 [v, has] t
        | none => finish w stBadState 0x0104 [] t
      else finish w stOk 0 [if item = 0x10 then imageWord t.cfg.rp else t.cfg.act.word item idx, has] t) s)

/-! ### CFG_COMMIT (13 R304) -/

/-- CFG_COMMIT. -/
def cmdCfgCommit : Cmd := workCmd 0x0202 [] stbWork

/-- The store that a commit writes (13 R304). -/
def storeOf (s : State) : NorStore where
  valid := true
  ver := s.upd.cfgVer
  items := s.cfg.act
  ilk := Vector.ofFn (fun i => (s.ilk[i]).cfg)
  profile := s.scan.profile
  banks := s.trk.banks
  activeBank := s.trk.active
  witness := s.led.witness
  epoch := s.led.epoch
  node := s.fab.node
  routes := s.fab.routes
  timeSrc := Vector.ofFn (fun i => (s.time.base[i]).src)
  ptpDomain := s.time.ptpDomain
  ftPort := s.time.ftPort
  limits := s.cal.limits
  commits := s.nor.store.commits + 1

/-- CFG_COMMIT; `verified` is the outcome of the write to NOR (13 R304). -/
def execCfgCommit (e : Entry) (verified : Bool) (s : State) : Host.Outcome State Fault Refusal :=
  .next
    (takeUp cmdCfgCommit e false (fun w t =>
      if verified then
        let n := storeOf t
        finish w stOk 0
          [word [(0, 32, n.ver.toNat), (32, 32, (Config.storeCrc n.ver n.commits).toNat), (64, 32, n.commits.toNat)]]
          (raise 0x0200 .ctrl 0 { t with nor := { t.nor with store := n } })
      else finish w stFault 1 [] t) s)

/-! ### The tables (13 R305) -/

/-- Result word of the two loads. -/
def loadWords (crc : BitVec 32) (active : Bool) (at_ : Nat) : List W128 :=
  [word [(0, 32, crc.toNat), (32, 1, b2n active), (64, 18, at_)]]

/-- CFG_LOAD_BEAM_TABLE. -/
def cmdLoadBeamTable : Cmd := { workCmd 0x0203 [refMask, bits 0 32] workModes with needs := [.mem] }

/-- A beam table read whole: rejected, or staged and active once R39 lets it (02 R39). -/
def loadBeamTable (w : Waiting) (l : List Byte) (crc : BitVec 32) (s : State) : State :=
  match btCheck l crc with
  | some (reason, beam) =>
    finish w stBadArg reason (loadWords (crc32c l) false beam) (raise 0x0220 .ctrl (detail [du 8 reason, du 32 beam]) s)
  | none =>
    let t : Image := { bytes := l, crc := crc }
    let s1 := activateTables (raise 0x0221 .ctrl 0 { s with cfg := { s.cfg with btabStaged := some t } })
    finish w stOk 0 (loadWords crc s1.cfg.btabStaged.isNone 0) s1

/-- CFG_LOAD_BEAM_TABLE (13 R305, 02 R39). -/
def execCfgLoadBeamTable (e : Entry) (s : State) : Host.Outcome State Fault Refusal :=
  .next
    (takeUp cmdLoadBeamTable e false (fun w t =>
      match readBuffer e (Entry.arg e 0) (fun n => n == 1048576) t with
      | (.error r, t1) => finish w r.1 r.2 [] t1
      | (.ok l, t1) => loadBeamTable w l (bitsOf (Entry.arg e 1) 0 32) t1) s)

/-- CFG_LOAD_LAYER_MAP. -/
def cmdLoadLayerMap : Cmd := workCmd 0x0204 [refMask, bits 0 32] workModes

/-- A layer map read whole (03 R61, R62). -/
def loadLayerMap (w : Waiting) (l : List Byte) (crc : BitVec 32) (s : State) : State :=
  match lmCheck l crc with
  | some (reason, entry) =>
    finish w stBadArg reason (loadWords (crc32c l) false entry) (raise 0x0230 .ctrl 0 s)
  | none =>
    let t : Image := { bytes := l, crc := crc }
    let s1 := activateTables (raise 0x0231 .ing 0 { s with cfg := { s.cfg with lmapStaged := some t } })
    finish w stOk 0 (loadWords crc s1.cfg.lmapStaged.isNone 0) s1

/-- CFG_LOAD_LAYER_MAP (13 R305, 03 R61, R62). -/
def execCfgLoadLayerMap (e : Entry) (s : State) : Host.Outcome State Fault Refusal :=
  .next
    (takeUp cmdLoadLayerMap e false (fun w t =>
      match readBuffer e (Entry.arg e 0) (fun n => n == 4160) t with
      | (.error r, t1) => finish w r.1 r.2 [] t1
      | (.ok l, t1) => loadLayerMap w l (bitsOf (Entry.arg e 1) 0 32) t1) s)

end Sys2Proof.Machine
end

