-- ==== Sys2Proof/Machine/DevCmd.lean ====
section
/-! DEFINITION. The device commands and the readback objects (13 R296-R300, R326). -/

namespace Sys2Proof.Machine

/-! ### DEV_IDENTIFY (13 R296) -/

/-- WIN_ID (12 R266). -/
def winId : Nat := 0x01012620

/-- WIN_ROM_VER (12 R266). -/
def romVer : Nat := 0x01000000

/-- C2 to C4 of DEV_IDENTIFY (13 R296). -/
def identityWords (s : State) : List W128 :=
  [word [(0, 32, winId), (32, 32, s.win.fwVer.toNat), (64, 32, romVer), (96, 32, s.nor.store.ver.toNat)],
   word [(0, 64, Config.serial.toNat), (64, 12, s.fab.node.toNat), (76, 2, s.fab.pair.role)],
   word [(0, 32, (btabCrc s).toNat), (32, 32, (rpCrc s).toNat), (64, 32, (lmapCrc s).toNat), (96, 32, s.cal.count.toNat)]]

/-- DEV_IDENTIFY. -/
def cmdDevIdentify : Cmd := { workCmd 0x0100 [] allModes with service := true }

/-- DEV_IDENTIFY (13 R296). -/
def execDevIdentify (e : Entry) (s : State) : Host.Outcome State Fault Refusal :=
  .next (takeUp cmdDevIdentify e false (fun w t => finish w stOk 0 (identityWords t) t) s)

/-! ### DEV_SET_MODE (13 R297, 19 R422) -/

/-- DEV_SET_MODE. -/
def cmdDevSetMode : Cmd := workCmd 0x0101 [bits 0 4] allButRec

/-- What answers a DEV_SET_MODE at once: a change in progress, a code of no mode, the present mode, a transition the
table lacks (13 R297, 19 R422). -/
def setModeAnswer (s : State) (target : Nat) : Option (Nat × Nat × List W128) :=
  if s.pm.changing then some (stBadState, 2, [])
  else
    match Mode.ofCode target with
    | none => some (stBadArg, 1, [])
    | some m =>
      if m = s.pm.mode then some (stOk, 0, modeWords m m 0)
      else if (modePre s.pm.mode m).isNone then some (stBadMode, 1, [])
      else none

/-- DEV_SET_MODE (13 R297): the change begins only when no other command runs, and the command waits for its end
(13 R293). -/
def execDevSetMode (e : Entry) (s : State) : Host.Outcome State Fault Refusal :=
  .next
    (takeUp cmdDevSetMode e (!s.pm.changing && !s.mb.running.isEmpty) (fun w t =>
      let target := bitsNat (Entry.arg e 0) 0 4
      match setModeAnswer t target with
      | some (status, reason, l) => finish w status reason l t
      | none => beginChange ((Mode.ofCode target).getD t.pm.mode) 1 (wait w (.modeChange t.pm.mode) t)) s)

/-! ### DEV_GET_STATUS (13 R298) -/

/-- Codes of the tracking states (09 R210). -/
def TrkSt.code : TrkSt → Nat
  | .off => 0
  | .acquiring => 1
  | .locked => 2
  | .lost => 3

/-- Codes of the link states (08 R186). -/
def LinkSt.code : LinkSt → Nat
  | .down => 0
  | .locking => 1
  | .mapping => 2
  | .configuring => 3
  | .trained => 4
  | .degraded => 5

/-- C2 and C3 of DEV_GET_STATUS (13 R298). -/
def statusWords (s : State) : List W128 :=
  [word [(0, 4, s.pm.mode.code), (4, 4, s.pm.target.code), (8, 1, b2n s.pm.changing), (12, 4, s.pm.fwState),
    (16, 11, s.win.status.toNat), (32, 32, s.win.heartbeat.toNat), (64, 16, s.win.temp.toNat),
    (80, 16, s.led.items.length), (96, 12, domainsMask s)],
   word [(0, 8, s.seq.st.code), (8, 16, if s.seq.st = .idle then 0 else s.seq.stripe), (24, 32, raw 32 s.seq.f),
    (56, 32, raw 32 s.seq.h), (88, 2, s.trk.st.code), (90, 3, s.link.st.code), (96, 32, s.pm.railsLow.toNat)]]

/-- DEV_GET_STATUS. -/
def cmdDevGetStatus : Cmd := { workCmd 0x0102 [] allModes with service := true }

/-- DEV_GET_STATUS (13 R298). -/
def execDevGetStatus (e : Entry) (s : State) : Host.Outcome State Fault Refusal :=
  .next (takeUp cmdDevGetStatus e false (fun w t => finish w stOk 0 (statusWords t) t) s)

/-! ### Readback objects (13 R326) -/

/-- Objects with a number of their own whose byte layout the manual does not give (DESIGN CHOICE, safe, log 8). -/
def openObjects : List Nat :=
  [0x01000000, 0x01010000, 0x01010001, 0x01020000, 0x01020001, 0x01040000, 0x02010000, 0x02010001, 0x02020000, 0x02030000,
   0x02040000, 0x02050000, 0x02050001, 0x03010000, 0x03040000, 0x03040001, 0x03050000, 0x03060000, 0x03060001, 0x03070000,
   0x03070001, 0x04000000, 0x04000001, 0x05010000, 0x05010001, 0x05020000, 0x05020002, 0x06010000, 0x06010001, 0x06010002,
   0x06030000, 0x07010000, 0x07010001, 0x08010000, 0x08010001, 0x09010000, 0x09010001, 0x09020000, 0x09020001, 0x09030000,
   0x09040000, 0x0A010000, 0x0A010002, 0x0A020000, 0x0B010000, 0x0C010000]

/-- The state byte of a slot (06 R132). -/
def slotByte (s : State) (n : Nat) : Byte :=
  match slot s n with
  | some x => BitVec.ofNat 8 (packFields [(0, 2, x.st), (2, 6, x.reads)])
  | none => 0

/-- Row plan of the active beam table: d_r of each row, n_first and 8,176 + d_511; the two flash numbers take 32 bits
each (07 R173; DESIGN CHOICE, safe, log 8). -/
def rowPlan (s : State) : List Byte :=
  (List.range 512).map (fun r => wrapInt 8 (rowTrim (btab s) r)) ++ leBytes 4 (raw 32 (nFirstOf (btab s))) ++
    leBytes 4 (raw 32 (8176 + rowTrim (btab s) 511))

/-- Big-endian bytes of a number. -/
def beBytes (n v : Nat) : List Byte := (leBytes n v).reverse

/-- The keeper public key object (20 R453). -/
def publicKeyBytes : List Byte :=
  let b := (Config.keeperPublicKey Config.serial).toList ++ leBytes 8 Config.serial.toNat
  b ++ leBytes 4 (crc32c b).toNat ++ List.replicate 12 0

/-- The counters' 64-bit extensions for codes from 256·c, of n classes (13 R323). -/
def counterBytes (s : State) (c n : Nat) : List Byte :=
  (List.range (256 * n)).flatMap (fun i => leBytes 8 ((tget s.evt.ext (256 * c + i)).getD 0).toNat)

/-- An image object: its bytes, zeros with none loaded. -/
def imageBytes (i : Option Image) (n : Nat) : List Byte := slice ((i.map (·.bytes)).getD []) 0 n

/-- Objects whose bytes the manual gives (13 R326 and the rules it names). -/
def exactObject (s : State) (obj : Nat) : Option (List Byte) :=
  match obj with
  | 0x01000001 => some ((s.nor.log.take 32768).reverse.flatMap EventRec.bytes)
  | 0x01040001 => some ((s.hbm.frozenRec.toList ++ s.hbm.log).flatMap (fun r => leBytes 32 r.toNat))
  | 0x02010002 => some (imageBytes s.cfg.btab 1048576)
  | 0x02020001 => some (imageBytes s.cfg.lmap 4160)
  | 0x02030001 => some (imageBytes s.cfg.rp 400)
  | 0x03050001 => some ((List.range 139264).map (slotByte s))
  | 0x03050002 => some (slice (s.store.ctab.getD []) 0 272)
  | 0x03060002 => some (rowPlan s)
  | 0x05020001 => some (s.dma.faults.flatMap (fun f => wordBytes f.det))
  | 0x06020000 => some ((List.range 4096).flatMap (fun n => leBytes 4 (routeOf s n).toNat))
  | 0x08010002 => some (leBytes 64 s.cal.limits.toNat)
  | 0x09010002 => some (slice ((s.trk.banks[(0 : Fin 2)]).getD []) 0 1040)
  | 0x09010003 => some (slice ((s.trk.banks[(1 : Fin 2)]).getD []) 0 1040)
  | 0x09030001 => some (s.ilk.toList.flatMap (fun i => leBytes 2 i.cfg.toNat))
  | 0x0A010001 => some publicKeyBytes
  | 0x0B010001 => some (pieceBitmap s)
  | 0x0C020000 => some (counterBytes s 1 12)
  | _ => if obj / 65536 = 0x0401 ∧ obj % 65536 < 256 then some ((flowRecs s (BitVec.ofNat 8 obj)).flatMap WRec.bytes) else none

/-- An object with a known number and no given layout. -/
def openObject (obj : Nat) : Bool :=
  openObjects.contains obj || (obj / 65536 == 0x0300 && decide (obj % 65536 < 256)) || obj / 65536 == 0x0302

/-- What a readback finds: the object's size and its bytes from `off` on, or why it has none (13 R299, R326, 03 R80). -/
def objectBytes (s : State) (obj : Nat) : Except (Nat × Nat) (Nat × (Nat → Nat → List Byte)) :=
  let whole (l : List Byte) : Nat × (Nat → Nat → List Byte) := (l.length, fun off n => (l.drop off).take n)
  if obj = 0x03030000 then
    if s.pm.mode = .hold then .error (stFault, 0x8004)
    else if domOn s .mem = false then .error (stBadState, 0x8001)
    else
      match s.lay.lastJob, s.lay.lastMap with
      | some (space, flow, addr), some dmap =>
        match streamHdr s { space := space, flow := flow, addr := addr } with
        | .ok h =>
          let n := (mapGeo h (blk (hbmRead s dmap 64) 0 56 8)).size
          if h.sealed_ ∨ touchesSealed s dmap n then .error (stDenied, 3)
          else .ok (n, fun off k => hbmRead s (dmap + off) (min k (n - off)))
        | .error _ => .ok (0, fun _ _ => [])
      | _, _ => .ok (0, fun _ _ => [])
  else if obj = 0x03050001 ∧ domPowered s .store = false then .error (stBadState, 0x8001)
  else
    match exactObject s obj with
    | some l => .ok (whole l)
    | none =>
      if openObject obj then
        let size := Config.readbackSize obj s.free
        .ok (size, fun off n => (List.range (min n (size - off))).map (fun i => Config.readbackByte obj s.free (off + i)))
      else .error (stBadArg, 1)

/-! ### DEV_READBACK (13 R299) -/

/-- DEV_READBACK. -/
def cmdDevReadback : Cmd := { workCmd 0x0103 [fullMask] allButRec with service := true }

/-- Bytes a readback of `length` from `off` maps: up to 1 MiB, and no further than the object (13 R299). -/
def mapLength (size off length : Nat) : Nat := min (if length = 0 then 1048576 else min length 1048576) (size - off)

/-- The mapped bytes go into the aperture; over the service port they follow the completion instead (13 R299, 20
R449). -/
def giveReadback (w : Waiting) (obj size : Nat) (b : List Byte) (s : State) : State :=
  let words (t : State) : List W128 :=
    [word [(0, 32, obj), (32, 32, b.length), (64, 64, size)], word [(0, 32, t.aper.gen.toNat), (32, 32, (crc32c b).toNat)]]
  let s0 := if openObject obj then { s with free := s.free + 1 } else s
  if w.src = .service then emit (.mappedBytes b) (finish w stOk 0 (words s0) s0)
  else
    let s1 := mapAperture obj b s0
    finish w stOk 0 (words s1) s1

/-- DEV_READBACK (13 R299). -/
def execDevReadback (e : Entry) (s : State) : Host.Outcome State Fault Refusal :=
  .next
    (takeUp cmdDevReadback e false (fun w t =>
      let a := Entry.arg e 0
      let obj := bitsNat a 0 32
      let len := bitsNat a 32 32
      let off := bitsNat a 64 64
      match objectBytes t obj with
      | .error r => finish w r.1 r.2 [] t
      | .ok (size, f) =>
        if off % 16 ≠ 0 ∨ len % 16 ≠ 0 ∨ size ≤ off then finish w stBadArg 2 [] t
        else giveReadback w obj size (f off (mapLength size off len)) t) s)

/-! ### DEV_RESET (13 R300) -/

/-- DEV_RESET. -/
def cmdDevReset : Cmd := workCmd 0x0104 [bits 0 4 + bits 8 9] allModes

/-- A stripe is in FILLING to ENDING (13 R300). -/
def stripeActive (s : State) : Bool :=
  s.seq.st == .filling || s.seq.st == .armed || s.seq.st == .running || s.seq.st == .ending

/-- What refuses a DEV_RESET (13 R300). -/
def resetBad (s : State) (kind confirm : Nat) (force : Bool) : Option (Nat × Nat) :=
  if kind < 1 ∨ 4 < kind ∨ confirm ≠ 0xA5 then some (stBadArg, 1)
  else if stripeActive s && !force then some (stBadState, 2)
  else if kind ≤ 2 ∧ s.pm.mode = .recovery then some (stBadState, 3)
  else none

/-- DEV_RESET (13 R300): the completion first; the reset begins 10 µs later, with COMMANDED_RESET_START. -/
def execDevReset (e : Entry) (s : State) : Host.Outcome State Fault Refusal :=
  .next
    (takeUp cmdDevReset e false (fun w t =>
      let a := Entry.arg e 0
      match resetBad t (bitsNat a 0 4) (bitsNat a 8 8) (bitAt a 16) with
      | some r => finish w r.1 r.2 [] t
      | none =>
        let t1 := raise 0x0111 .ctrl 0 (finish w stOk 0 [] t)
        { t1 with pm := { t1.pm with commandedReset := some (bitsNat a 0 4) } }) s)

end Sys2Proof.Machine
end

