-- ==== Sys2Proof/Machine/FabPorts.lean ====
section
/-! DEFINITION. Ports and their link control (15 R352-R355, R373): training, HELLO, LINK_ACK, CREDIT, timers. -/

namespace Sys2Proof.Machine

/-! ### A follower's source (16 R384) -/

/-- A base that follows an outside source loses it: it counts on at the last rate, and TIME_SOURCE_LOST names it
(16 R384). One that has not acquired yet has nothing to lose. -/
def sourceLost (b : Fin 4) (s : State) : State :=
  let x := s.time.base[b]
  if x.acquired ∨ (x.state = 1 ∧ x.src ≠ 2) then
    deriveSt (raise 0x0711 .aon (detail [du 8 b.val])
      (setBase b { x with state := 2, acquired := false, lockRun := 0 } s))
  else s

/-- A port goes DOWN, and FT with it where it is the source port (15 R355, 16 R384). -/
def portGone (p : Fin 8) (s : State) : State :=
  let s1 := portDown p s
  if (s1.time.base[(0 : Fin 4)]).src = 1 ∧ s1.time.ftPort = p.val then sourceLost 0 s1 else s1

/-- The port has left UP in what was done: FT loses a source on it (16 R384). -/
def afterPort (p : Fin 8) (was : State) (s : State) : State :=
  if portUp was p && !portUp s p && decide ((s.time.base[(0 : Fin 4)]).src = 1 ∧ s.time.ftPort = p.val) then sourceLost 0 s
  else s

/-! ### Training (15 R355) -/

/-- Payload of a HELLO on port p (15 R358). -/
def helloPayload (p : Fin 8) (s : State) : List Byte :=
  wordBytes (word [(0, 64, Config.serial.toNat), (64, 12, s.fab.node.toNat), (76, 4, s.pm.mode.code), (80, 3, p.val),
    (96, 32, 0x00010000)])

/-- Send a HELLO on a port in TRAINING: it comes before the sequences of UP and takes no credit (15 R355). -/
def sendHello (p : Fin 8) (s : State) : State :=
  let b := helloPayload p s
  emit (.spore p.val 0 1 15 (header 0 s.fab.node.toNat 0x01 16 1 s.fab.msgId b) b)
    { s with fab := { s.fab with msgId := s.fab.msgId + 1 } }

/-- TRAIN blocks on the four lanes of a port (15 R352). -/
def sendTrain (p : Fin 8) : List Nat → State → State
  | [], s => s
  | l :: t, s => sendTrain p t (emit (.block p.val (ctlBlock 0x66 [(0, 8, l), (8, 8, 0xFE)])) s)

/-- A port in DOWN, or one QUARANTINED that a discovery names, enters TRAINING; the violation window of a quarantined
port restarts (15 R355). -/
def startTraining (p : Fin 8) (s : State) : State :=
  let q := port s p
  if domOn s .fab = false ∨ q.st = .up ∨ q.st = .training ∨ loopOnPort s p.val then s
  else
    sendHello p (sendTrain p [0, 1, 2, 3]
      (setPort p { q with st := .training, viol := if q.st = .quarantined then [] else q.viol } s))

/-- PORT_TRAIN_START: a port in DOWN (15 R355). -/
def execPortTrainStart (p : Fin 8) (s : State) : Host.Outcome State Fault Refusal :=
  .next (if (port s p).st = .down then startTraining p s else s)

/-- PORT_TRAINING_TIMEOUT: 500 µs without UP (15 R355). -/
def execPortTrainingTimeout (p : Fin 8) (s : State) : Host.Outcome State Fault Refusal :=
  .next (if (port s p).st = .training then setPort p { port s p with st := .down } s else s)

/-- PORT_RETRY: 100 ms after a failed training the port trains again (15 R355). -/
def execPortRetry (p : Fin 8) (s : State) : Host.Outcome State Fault Refusal :=
  .next (if (port s p).st = .down then startTraining p s else s)

/-- FAB_PORT_DOWN: block lock lost, or LANE_MARK disagreeing (15 R355). -/
def execFabPortDown (p : Fin 8) (s : State) : Host.Outcome State Fault Refusal :=
  .next (if fabAlive s && portUp s p then portGone p s else s)

/-! ### HELLO (15 R355, R358) -/

/-- Serial, node and interface version of a HELLO. -/
def helloSerial (b : List Byte) : BitVec 64 := BitVec.ofNat 64 (leAt b 0 8)
/-- `node` of a HELLO. -/
def helloNode (b : List Byte) : BitVec 12 := BitVec.ofNat 12 (leAt b 8 2)

/-- A HELLO is valid: its check, its form and the interface version (15 R356, R358). -/
def helloValid (sp : Spore) : Bool :=
  scheck sp.header sp.payload == hdrCheck sp.header && decide (hdrLen sp.header = 16 ∧ hdrDst sp.header = 0 ∧
    hdrClass sp.header = 1 ∧ bitsNat sp.header 47 17 = 0 ∧ leAt sp.payload 12 4 = 0x00010000)

/-- The partner of a port as its HELLO names it. -/
def setPartner (p : Fin 8) (b : List Byte) (s : State) : State :=
  setPort p { port s p with pSerial := helloSerial b, pNode := helloNode b } s

/-- The port comes UP: sequences and credits reset, FAB_PORT_UP, traffic returns to it (15 R355, R363). -/
def portComesUp (p : Fin 8) (b : List Byte) (s : State) : State :=
  refreshRoutes (raise 0x0600 .fab 0
    (setPort p { port s p with
      st := .up
      cls := Vector.replicate 4 PClass.init
      pSerial := helloSerial b
      pNode := helloNode b } s))

/-- HELLO: in TRAINING it brings the port UP; one with this device's own serial is violation 7 (15 R355, R373). -/
def execHello (p : Fin 8) (sp : Spore) (s : State) : Host.Outcome State Fault Refusal :=
  .next
    (if hdrType sp.header ≠ 0x01 then s
     else if (port s p).st = .training then
       if domOn s .fab = false ∨ helloValid sp = false then s
       else if helloSerial sp.payload = Config.serial then violation p 7 (hdrSrc sp.header) 0x01 s
       else portComesUp p sp.payload s
     else
       rxSpore 0x01 p sp (fun t =>
         if helloSerial sp.payload = Config.serial then violation p 7 (hdrSrc sp.header) 0x01 t
         else setPartner p sp.payload t) s)

/-! ### LINK_ACK and CREDIT (15 R352-R354, R373) -/

/-- The port takes link control blocks: UP or QUARANTINED (15 R355). -/
def takesControl (s : State) (p : Fin 8) : Bool :=
  fabAlive s && (portUp s p || (port s p).st == .quarantined)

/-- Spores of a class still unacknowledged after a cumulative sequence; none where that was never sent (15 R354). -/
def unackedAfter (k : PClass) (seq : Nat) : Option (List TxSpore) :=
  let d := (16777215 + k.tx - seq) % 2 ^ 24
  if d ≤ k.unacked.length then some (k.unacked.drop (k.unacked.length - d))
  else if d < 2 ^ 23 then some k.unacked
  else none

/-- The class a LINK_ACK block names (15 R352). -/
def ackClass (block : BitVec 64) : Fin 4 := ⟨bitsNat block 8 2, Nat.mod_lt _ (by decide)⟩

/-- A LINK_ACK block of a class: the spores it acknowledges are done; a NAK or a violation sends the rest again
(15 R354, R373). -/
def takeLinkAck (p : Fin 8) (c : Fin 4) (seq code : Nat) (s : State) : State :=
  let k := pclass s p c
  match unackedAfter k seq with
  | none => afterPort p s (violationAck p c 3 0 0 s)
  | some l =>
    let s1 := setPClass p c { k with unacked := l, episodes := if l.length < k.unacked.length then 0 else k.episodes } s
    if code = 0 ∨ l.isEmpty ∨ portUp s p = false then s1 else afterPort p s (retransmit p c s1)

/-- LINK_ACK (15 R352, R354): a cumulative acknowledgement, and with a NAK code a retransmission. -/
def execLinkAck (p : Fin 8) (block : BitVec 64) (s : State) : Host.Outcome State Fault Refusal :=
  .next
    (if bitsNat block 0 8 ≠ 0x33 ∨ takesControl s p = false then s
     else if 4 ≤ bitsNat block 8 8 ∨ 4 ≤ bitsNat block 40 8 ∨ bitsNat block 56 8 ≠ 0 then
       afterPort p s (violationAck p (ackClass block) 1 0 0 s)
     else takeLinkAck p (ackClass block) (bitsNat block 16 24) (bitsNat block 40 8) s)

/-- The classes with what a CREDIT block returns to each; none where it returns a credit never spent (15 R353). -/
def takeCredits (q : Port) (block : BitVec 64) : Option Port :=
  let back (c : Fin 4) : Nat := (256 + bitsNat block (8 + 8 * c.val) 8 - (q.cls[c]).returned % 256) % 256
  if ([0, 1, 2, 3] : List (Fin 4)).all (fun c => decide ((q.cls[c]).credits + back c ≤ 256)) then
    some { q with cls := Vector.ofFn (fun c =>
      { q.cls[c] with credits := (q.cls[c]).credits + back c, returned := bitsNat block (8 + 8 * c.val) 8 }) }
  else none

/-- CREDIT (15 R352, R353): spores that waited for credits leave. -/
def execCredit (p : Fin 8) (block : BitVec 64) (s : State) : Host.Outcome State Fault Refusal :=
  .next
    (if bitsNat block 0 8 ≠ 0x4B ∨ takesControl s p = false then s
     else if bitsNat block 40 24 ≠ 0 then afterPort p s (violationAck p 0 1 0 0 s)
     else
       match takeCredits (port s p) block with
       | none => afterPort p s (violationAck p 0 3 0 0 s)
       | some q =>
         let drain (t : State) (c : Fin 4) : State := drainQueue p c (pclass t p c).queue.length t
         drain (drain (drain (drain (setPort p q s) 0) 1) 2) 3)

/-- SPORE_ACK_TIMEOUT: 10 µs without an ACK (15 R354). -/
def execSporeAckTimeout (p : Fin 8) (cls : Fin 4) (s : State) : Host.Outcome State Fault Refusal :=
  .next (if fabAlive s && portUp s p && !(pclass s p cls).unacked.isEmpty then afterPort p s (retransmit p cls s) else s)

/-- CREDIT_RETURN_TIMER: while credits are owed, a CREDIT at least every 1 µs (15 R353). -/
def execCreditReturnTimer (p : Fin 8) (s : State) : Host.Outcome State Fault Refusal :=
  .next (if takesControl s p && (port s p).cls.toList.any (fun k => decide (0 < k.owed)) then sendCredit p s else s)

/-- LINK_ACK_TIMER: a taken spore is acknowledged within 1 µs (15 R354). -/
def execLinkAckTimer (p : Fin 8) (cls : Fin 4) (s : State) : Host.Outcome State Fault Refusal :=
  .next
    (let k := pclass s p cls
     if takesControl s p && decide (0 < k.owedAcks) then sendLinkAck p cls 0 0 (setPClass p cls { k with owedAcks := 0 } s)
     else s)

/-- SPORE_FORWARD: a spore for another node (15 R356, R363). -/
def execSporeForward (p : Fin 8) (sp : Spore) (s : State) : Host.Outcome State Fault Refusal :=
  .next
    (let d := hdrDst sp.header
     if d = 0 ∨ d = 0xFFF ∨ d = s.fab.node.toNat then s else rxSpore (hdrType sp.header) p sp id s)

end Sys2Proof.Machine
end

