-- ==== Sys2Proof/Machine/FabCmd.lean ====
section
/-! DEFINITION. Discovery, node IDs and routes (13 R313, 15 R360-R363). -/

namespace Sys2Proof.Machine

/-! ### Floods (15 R360) -/

/-- LT in ns, as a number. -/
def nowNs (s : State) : Nat := (ltNow s).toNat

/-- An entry of the flood cache is younger than 100 ms (15 R360). -/
def floodYoung (s : State) (t : Nat) : Bool := decide ((2 ^ 32 + nowNs s - t) % 2 ^ 32 ≤ 100000000)

/-- The flood is remembered (15 R360). -/
def floodKnown (s : State) (o : BitVec 64) (id : BitVec 32) : Bool :=
  s.fab.floods.any (fun f => f.1 == o && f.2.1 == id && floodYoung s f.2.2)

/-- Remember a flood for 100 ms, among at most 1,024 (15 R360). -/
def rememberFlood (o : BitVec 64) (id : BitVec 32) (s : State) : State :=
  { s with fab := { s.fab with
      floods := ((o, id, nowNs s) :: s.fab.floods.filter (fun f => floodYoung s f.2.2)).take 1024 } }

/-- Flood header of this device: its serial and a flood number (15 R358). -/
def floodHeader (id : BitVec 32) : List Byte := wordBytes (word [(0, 64, Config.serial.toNat), (64, 32, id.toNat)])

/-- Flood a spore of this device under a flood number. -/
def floodOwn (typ : Nat) (id : BitVec 32) (b : List Byte) (s : State) : State :=
  if mayOriginate s then floodFrom none typ (floodHeader id ++ b) allPorts (rememberFlood Config.serial id s) else s

/-- The next flood number of this device. -/
def newFlood (s : State) : State := { s with fab := { s.fab with floodId := s.fab.floodId + 1 } }

/-- Words 1-5 of this device's TOPO (15 R358). -/
def topoBody (s : State) : List Byte :=
  let nbr (p : Fin 8) : Nat := if portUp s p then (port s p).pSerial.toNat else 0
  wordBytes (word [(0, 12, s.fab.node.toNat), (12, 8, portMask (portUp s))]) ++
    allPorts.flatMap (fun p => leBytes 8 (nbr p))

/-- An arriving flood goes on once, on every UP port but the one it came by, in HOLD too; then `act` takes what it says
(15 R360, 19 R420). -/
def rxFlood (typ : Nat) (p : Fin 8) (sp : Spore) (act : State → State) (s : State) : State :=
  if hdrType sp.header ≠ typ then s
  else if hdrDst sp.header ≠ 0xFFF then rxSpore typ p sp act s
  else
    let (ok, s1) := linkTake p sp s
    if !ok then s1
    else
      match sporeViolation sp s.fab.node.toNat with
      | some 6 => violationAck p sp.cls 6 (hdrSrc sp.header) typ s1
      | some v => violation p v (hdrSrc sp.header) typ s1
      | none =>
        let o := BitVec.ofNat 64 (leAt sp.payload 0 8)
        let id := BitVec.ofNat 32 (leAt sp.payload 8 4)
        let s2 :=
          if floodKnown s1 o id then s1
          else if sp.ttl = 0 then rememberFlood o id s1
          else forwardFlood p sp allPorts (rememberFlood o id s1)
        if s.pm.mode = .hold then s2 else act s2

/-! ### Discovery (15 R360) -/

/-- FAB_DISCOVER. -/
def cmdFabDiscover : Cmd := { workCmd 0x0600 [bits 0 8] workModes with needs := [.fab] }

/-- Every named port that is DOWN or QUARANTINED trains (15 R360). -/
def trainPorts (mask : Nat) : List (Fin 8) → State → State
  | [], s => s
  | p :: t, s => trainPorts mask t (if mask.testBit p.val then startTraining p s else s)

/-- FAB_DISCOVER (15 R360): the named ports train, a TOPO is flooded, and the answers are collected for 50 ms. -/
def execFabDiscover (e : Entry) (s : State) : Host.Outcome State Fault Refusal :=
  .next
    (takeUp cmdFabDiscover e (objBusy s [(5, 0, 0)]) (fun w t =>
      let t1 := newFlood (trainPorts (bitsNat (Entry.arg e 0) 0 8) allPorts t)
      let t2 := { t1 with fab := { t1.fab with found := [] } }
      wait w .discover (floodOwn 0x02 t2.fab.floodId (topoBody t2) t2)) s)

/-- A device as its TOPO describes it (15 R358). -/
def foundOf (b : List Byte) : Found where
  serial := BitVec.ofNat 64 (leAt b 0 8)
  node := BitVec.ofNat 12 (leAt b 16 2)
  up := BitVec.ofNat 8 (blk b 1 12 8)
  nbr := (List.range 8).map (fun i => BitVec.ofNat 64 (leAt b (32 + 8 * i) 8))

/-- A discovery is collecting. -/
def discovering (s : State) : Bool := s.mb.running.any (fun w => w.on == .discover)

/-- Collect a TOPO while a discovery runs, one entry a serial (15 R360). -/
def collect (f : Found) (s : State) : State :=
  if discovering s then
    { s with fab := { s.fab with found := s.fab.found.filter (fun x => x.serial != f.serial) ++ [f] } }
  else s

/-- A flood of an origin that has not been answered yet is answered once with this device's own TOPO, under its present
flood number (15 R360; DEDUCED, unsafe, log 28). -/
def answerTopo (o : BitVec 64) (id : BitVec 32) (s : State) : State :=
  if s.fab.answered.contains (o, id) then s
  else
    let s1 := { s with fab := { s.fab with answered := (o, id) :: s.fab.answered.filter (fun x => x.1 != o) } }
    floodOwn 0x02 s1.fab.floodId (topoBody s1) s1

/-- TOPO (15 R360). -/
def execTopo (p : Fin 8) (sp : Spore) (s : State) : Host.Outcome State Fault Refusal :=
  .next (rxFlood 0x02 p sp (fun t =>
    let f := foundOf sp.payload
    if f.serial = Config.serial then t
    else answerTopo f.serial (BitVec.ofNat 32 (leAt sp.payload 8 4)) (collect f t)) s)

/-- This device as a discovery finds it. -/
def selfFound (s : State) : Found where
  serial := Config.serial
  node := s.fab.node
  up := BitVec.ofNat 8 (portMask (portUp s))
  nbr := allPorts.map (fun p => if portUp s p then (port s p).pSerial else 0)

/-- The census coordinator: the device with the lowest serial (15 R360). -/
def coordinator (s : State) : Found :=
  s.fab.found.foldl (fun a f => if f.serial < a.serial then f else a) (selfFound s)

/-- C2 and C3 of FAB_DISCOVER (13 R313). -/
def discoverWords (s : State) : List W128 :=
  let c := coordinator s
  [word [(0, 8, portMask (portUp s)), (8, 8, portMask (fun p => portUp s p && (port s p).pSerial != 0)),
    (16, 12, s.fab.found.length + 1), (64, 64, c.serial.toNat)], word [(0, 12, c.node.toNat)]]

/-- DISCOVERY_COLLECT_TIMEOUT: 50 ms of collecting are over (15 R360). -/
def execDiscoveryCollectTimeout (s : State) : Host.Outcome State Fault Refusal :=
  .next
    (if discovering s then
       settle (fun w => if w.on = .discover then some (stOk, 0, discoverWords s) else none) (raise 0x0606 .fab 0 s)
     else s)

/-! ### Node IDs (15 R361) -/

/-- FAB_ASSIGN_NODE. -/
def cmdFabAssignNode : Cmd := { workCmd 0x0601 [bits 0 76] workModes with needs := [.fab] }

/-- A node ID that a device can have (15 R375). -/
def nodeOk (n : Nat) : Bool := decide (1 ≤ n ∧ n ≤ 0xFFE)

/-- The node ID stands in the collected topology, this device included (15 R361). -/
def nodeTaken (s : State) (n : BitVec 12) : Bool := s.fab.node == n || s.fab.found.any (fun f => f.node == n)

/-- This device takes a node ID; a paired one ignores the ASSIGN (15 R361). -/
def takeNode (n : BitVec 12) (s : State) : State := raise 0x0607 .fab 0 { s with fab := { s.fab with node := n } }

/-- A FAB_ASSIGN_NODE that waits for this serial and node is answered. -/
def nodeAnswered (serial : BitVec 64) (node : BitVec 12) (s : State) : State :=
  settle (fun w => match w.on with
    | .assignNode x n => if x = serial ∧ n = node then some (stOk, 0, []) else none
    | _ => none) s

/-- FAB_ASSIGN_NODE (13 R313, 15 R361): an ASSIGN is flooded; a device may assign itself. -/
def execFabAssignNode (e : Entry) (s : State) : Host.Outcome State Fault Refusal :=
  .next
    (takeUp cmdFabAssignNode e (objBusy s [(5, 0, 0)]) (fun w t =>
      let serial := bitsOf (Entry.arg e 0) 0 64
      let node := bitsOf (Entry.arg e 0) 64 12
      if nodeOk node.toNat = false then finish w stBadArg 1 [] t
      else if nodeTaken t node then finish w stBadArg 2 [] t
      else
        let t1 := newFlood t
        let t2 := wait w (.assignNode serial node)
          (floodOwn 0x03 t1.fab.floodId (wordBytes (word [(0, 64, serial.toNat), (64, 12, node.toNat)])) t1)
        if serial = Config.serial ∧ t2.fab.pair.st = .unpaired then nodeAnswered serial node (takeNode node t2) else t2) s)

/-- ASSIGN (15 R361). -/
def execAssign (p : Fin 8) (sp : Spore) (s : State) : Host.Outcome State Fault Refusal :=
  .next (rxFlood 0x03 p sp (fun t =>
    let serial := BitVec.ofNat 64 (leAt sp.payload 16 8)
    let node := BitVec.ofNat 12 (leAt sp.payload 24 2)
    if serial ≠ Config.serial ∨ t.fab.pair.st ≠ .unpaired ∨ nodeOk node.toNat = false ∨ t.fab.node = node then t
    else
      send (hdrSrc sp.header) 0x04 3 (wordBytes (word [(0, 64, serial.toNat), (64, 12, node.toNat)])) (takeNode node t)) s)

/-- ASSIGN_ACK (15 R361). -/
def execAssignAck (p : Fin 8) (sp : Spore) (s : State) : Host.Outcome State Fault Refusal :=
  .next (rxSpore 0x04 p sp
    (nodeAnswered (BitVec.ofNat 64 (leAt sp.payload 0 8)) (BitVec.ofNat 12 (leAt sp.payload 8 2))) s)

/-- ASSIGN_TIMEOUT: no ASSIGN_ACK within 10 ms (15 R361). -/
def execAssignTimeout (s : State) : Host.Outcome State Fault Refusal :=
  .next (settle (fun w => match w.on with
    | .assignNode _ _ => some (stNoResource, 3, [])
    | _ => none) s)

/-! ### Routes (15 R362, R363) -/

/-- FAB_SET_ROUTE. -/
def cmdFabSetRoute : Cmd := { workCmd 0x0602 [bits 0 15 + bits 16 5] workModes with needs := [.fab] }

/-- The entry that a FAB_SET_ROUTE writes; USING_ALT stays as it is until the ports are judged (15 R362). -/
def routeEntry (a : W128) (old : BitVec 32) : BitVec 32 :=
  BitVec.ofNat 32 (packFields [(0, 3, bitsNat a 12 3), (4, 3, bitsNat a 16 3), (7, 1, bitsNat a 19 1), (8, 1, 1),
    (9, 1, b2n (bitAt old 9))])

/-- FAB_SET_ROUTE (13 R313, 15 R362). -/
def execFabSetRoute (e : Entry) (s : State) : Host.Outcome State Fault Refusal :=
  .next
    (takeUp cmdFabSetRoute e false (fun w t =>
      let a := Entry.arg e 0
      let d := bitsNat a 0 12
      if nodeOk d = false then finish w stBadArg 1 [] t
      else
        let r := if bitAt a 20 then tput t.fab.routes d (routeEntry a (routeOf t d)) else tdel t.fab.routes d
        finish w stOk 0 [] (refreshRoutes { t with fab := { t.fab with routes := r } })) s)

end Sys2Proof.Machine
end

