-- ==== Sys2Proof/Machine/PairCmd.lean ====
section
/-! DEFINITION. Pairs and handover as commands, spores and timers (13 R313, 15 R367-R372). -/

namespace Sys2Proof.Machine

/-! ### Forming a pair (15 R368) -/

/-- FAB_PAIR. -/
def cmdFabPair : Cmd := { workCmd 0x0603 [bits 0 14] [.ready, .expose, .shadow] with needs := [.fab] }

/-- C2 of FAB_PAIR (13 R313). -/
def pairWords (s : State) : List W128 := [BitVec.ofNat 128 (pairCrcs s)]

/-- The latest PAIR_REQ is the pending partner's, with the complementary role (15 R368). -/
def reqFits (s : State) : Bool :=
  match s.fab.pair.pending, s.fab.pair.req with
  | some (p, role), some (n, r, _) => n == p && role + r == 3
  | _, _ => false

/-- Its CRCs equal this device's (15 R368). -/
def reqCrcsEqual (s : State) : Bool :=
  match s.fab.pair.req with
  | some (_, _, c) => c.toNat == pairCrcs s
  | none => false

/-- The pair forms once the partner's PAIR_REQ agrees and its PAIR_ACK has come (15 R368). -/
def formIfReady (s : State) : State := if reqFits s && reqCrcsEqual s && s.fab.pair.ackSeen then formPair s else s

/-- The partner's PAIR_REQ is answered with PAIR_ACK, or the CRCs differ (15 R368). -/
def pairTry (s : State) : State :=
  match s.fab.pair.pending with
  | none => s
  | some (p, role) =>
    if reqFits s = false then s
    else if reqCrcsEqual s then formIfReady (send p.toNat 0x11 1 (pairPayload role s) s)
    else failPair stBadState 4 (raise 0x0611 .fab 0 s)

/-- Role 0: PAIR_FAIL with cause 3, and UNPAIRED (15 R368, R370). -/
def endPair (s : State) : State :=
  if s.fab.pair.st = .unpaired then s
  else
    let s1 := if s.fab.pair.st = .handingOver then failHandover s else s
    unpair (sendPairFail 3 s1)

/-- FAB_PAIR (13 R313, 15 R368). -/
def execFabPair (e : Entry) (s : State) : Host.Outcome State Fault Refusal :=
  .next
    (takeUp cmdFabPair e (objBusy s [(8, 0, 0), (7, 0, 0)]) (fun w t =>
      let p := bitsOf (Entry.arg e 0) 0 12
      let role := bitsNat (Entry.arg e 0) 12 2
      if role = 0 then finish w stOk 0 (pairWords t) (endPair t)
      else if role = 3 ∨ nodeOk p.toNat = false ∨ p = t.fab.node then finish w stBadArg 1 [] t
      else
        let t1 := wait w .pair { t with fab := { t.fab with pair := { t.fab.pair with pending := some (p, role), ackSeen := false } } }
        pairTry (send p.toNat 0x10 1 (pairPayload role t1) t1)) s)

/-- PAIR_TIMEOUT: no answer within 100 ms (15 R368). -/
def execPairTimeout (s : State) : Host.Outcome State Fault Refusal :=
  .next (if s.fab.pair.pending.isSome then failPair stNoResource 3 s else s)

/-! ### Pair spores (15 R358, R368-R371, R373 code 8) -/

/-- Violation 8: discarded, NACK reason 3 (15 R373). -/
def outOfPair (p : Fin 8) (sp : Spore) (s : State) : State :=
  nackSpore sp.header 3 0 (violation p 8 (hdrSrc sp.header) (hdrType sp.header) s)

/-- Source node of a spore. -/
def srcNode (sp : Spore) : BitVec 12 := BitVec.ofNat 12 (hdrSrc sp.header)

/-- The spore comes from the pair partner, in some pair state (15 R373). -/
def fromPartner (sp : Spore) (s : State) : Bool := s.fab.pair.st != .unpaired && s.fab.pair.partner == srcNode sp

/-- PAIR_REQ: remembered with its epoch, and answered where it fits the pending FAB_PAIR (15 R367, R368). -/
def execPairReq (p : Fin 8) (sp : Spore) (s : State) : Host.Outcome State Fault Refusal :=
  .next (rxSpore 0x10 p sp (fun t =>
    if (t.fab.pair.st = .paired ∨ t.fab.pair.st = .handingOver) ∧ fromPartner sp t = false then outOfPair p sp t
    else
      let b := sp.payload
      pairTry { t with fab := { t.fab with
        pair := { t.fab.pair with req := some (srcNode sp, blk b 0 64 2, BitVec.ofNat 96 (blk b 1 0 96)) }
        mirror := { t.fab.mirror with pairEpoch := some (BitVec.ofNat 32 (blk b 0 96 32)) } } }) s)

/-- PAIR_ACK (15 R368). -/
def execPairAck (p : Fin 8) (sp : Spore) (s : State) : Host.Outcome State Fault Refusal :=
  .next (rxSpore 0x11 p sp (fun t =>
    if t.fab.pair.pending.any (fun x => x.1 == srcNode sp) then
      formIfReady { t with fab := { t.fab with pair := { t.fab.pair with ackSeen := true } } }
    else if fromPartner sp t then t
    else outOfPair p sp t) s)

/-- The fields of a PAIR_BEAT (15 R358). -/
def beatOf (b : List Byte) : Beat where
  wack := blk b 0 0 64
  mode := blk b 0 64 4
  seqSt := blk b 0 68 4
  stripe := BitVec.ofNat 16 (blk b 0 72 16)
  flow := BitVec.ofNat 8 (blk b 0 88 8)
  f := BitVec.ofNat 32 (blk b 0 96 32)
  h := BitVec.ofNat 32 (blk b 1 0 32)
  seq := BitVec.ofNat 64 (blk b 1 64 64)
  crcs := BitVec.ofNat 96 (blk b 2 0 96)

/-- A shadow compares the CRCs of each beat: PAIR_MISMATCH once per change (15 R369). -/
def compareBeat (x : Beat) (s : State) : State :=
  if s.fab.pair.role ≠ 2 then s
  else
    let differs := x.crcs.toNat != pairCrcs s
    let fresh := !s.fab.pair.mismatch || (s.fab.pair.beat.map (fun y => y.crcs != x.crcs)).getD false
    let s1 := if differs && fresh then raise 0x0611 .fab 0 s else s
    { s1 with fab := { s1.fab with pair := { s1.fab.pair with mismatch := differs } } }

/-- PAIR_BEAT (15 R369, R370): in PARTNER_LOST, beats of a partner in SHADOW restore the pair. -/
def execPairBeat (p : Fin 8) (sp : Spore) (s : State) : Host.Outcome State Fault Refusal :=
  .next (rxSpore 0x12 p sp (fun t =>
    if fromPartner sp t = false then outOfPair p sp t
    else
      let x := beatOf sp.payload
      let t1 := compareBeat x t
      let back := t1.fab.pair.st == .partnerLost && x.mode == 5
      handoverStep { t1 with fab := { t1.fab with pair := { t1.fab.pair with
        beat := some x
        st := if back then .paired else t1.fab.pair.st } } }) s)

/-- PAIR_FAIL: cause 3 unpairs, causes 1 and 2 lose the partner (15 R358, R369, R370). -/
def execPairFail (p : Fin 8) (sp : Spore) (s : State) : Host.Outcome State Fault Refusal :=
  .next (rxSpore 0x13 p sp (fun t =>
    if fromPartner sp t = false then outOfPair p sp t
    else if leAt sp.payload 0 1 = 3 then unpair (if t.fab.pair.st = .handingOver then failHandover t else t)
    else partnerLost t) s)

/-- Payload of a PAIR_BEAT (15 R358). -/
def beatPayload (s : State) : List Byte :=
  let f := (s.seq.item.map (·.1.toNat)).getD 0
  let q := (s.seq.item.map (·.2.toNat)).getD 0
  wordsBytes [word [(0, 64, s.fab.mirror.upTo), (64, 4, s.pm.mode.code), (68, 4, s.seq.st.code),
      (72, 16, if s.seq.st = .idle then 0 else s.seq.stripe), (88, 8, f), (96, 32, raw 32 s.seq.f)],
    word [(0, 32, raw 32 s.link.hb), (32, 32, s.fab.pair.beats.toNat), (64, 64, q)],
    BitVec.ofNat 128 (pairCrcs s)]

/-- PAIR_BEAT_TIMER: every 100 µs, on both routes; beats stop with the pair (15 R369, R370). A handover in progress goes on
as far as it can. -/
def execPairBeatTimer (s : State) : Host.Outcome State Fault Refusal :=
  .next
    (if s.fab.pair.st = .unpaired ∨ mayOriginate s = false then s
     else
       let s1 := handoverStep s
       let s2 := { s1 with fab := { s1.fab with pair := { s1.fab.pair with beats := s1.fab.pair.beats + 1 } } }
       sendBoth s2.fab.pair.partner.toNat 0x12 1 (beatPayload s2) s2)

/-- PARTNER_BEAT_TIMEOUT: 1 ms without a beat on any route (15 R369). -/
def execPartnerBeatTimeout (s : State) : Host.Outcome State Fault Refusal :=
  .next (if mayOriginate s then partnerLost s else s)

/-- TAKEOVER_RECHECK: in PARTNER_LOST a shadow's conditions are examined again every 1 ms (15 R370). -/
def execTakeoverRecheck (s : State) : Host.Outcome State Fault Refusal :=
  .next (if s.fab.pair.st = .partnerLost ∧ takeoverReady s then beginTakeover s else s)

/-! ### Handover (13 R313, 15 R371) -/

/-- FAB_HANDOVER. -/
def cmdFabHandover : Cmd := { workCmd 0x0604 [bits 0 13, refMask] [.expose, .shadow] with needs := [.fab] }

/-- The host witness region that A2 names: none for zero, else a flow-virtual one of R252's form (11 R252, R259). -/
def handoverRegion (s : State) (a : W128) : Option (Option (BitVec 8 × Nat × Nat)) :=
  if a = 0 then some none
  else
    let b := bufRef a
    let n := b.len / 64
    if b.space = 2 ∧ flowOpen s b.rflow ∧ b.addr % 4096 = 0 ∧ b.len % 64 = 0 ∧
        (n = 65536 ∨ n = 131072 ∨ n = 262144 ∨ n = 524288 ∨ n = 1048576) then
      some (some (BitVec.ofNat 8 b.rflow, b.addr, n))
    else none

/-- What refuses a FAB_HANDOVER (13 R313, 15 R371). -/
def handoverBad (s : State) (p : BitVec 12) : Option (Nat × Nat) :=
  if nodeOk p.toNat = false then some (stBadArg, 1)
  else if s.fab.pair.st ≠ .paired ∧ s.fab.pair.st ≠ .handingOver then some (stBadState, 5)
  else if s.fab.pair.partner ≠ p then some (stNoResource, 3)
  else if crcsEqual s = false then some (stBadState, 4)
  else none

/-- HANDOVER_REQ is sent and the handover begins (15 R370, R371). -/
def startHandover (now : Bool) (region : Option (BitVec 8 × Nat × Nat)) (s : State) : State :=
  beginHandover now true region (send s.fab.pair.partner.toNat 0x14 1 (wordBytes (word [(0, 1, b2n now)])) s)

/-- FAB_HANDOVER (13 R313, 15 R371): issued on both devices at once it is one handover (15 R376). -/
def execFabHandover (e : Entry) (s : State) : Host.Outcome State Fault Refusal :=
  .next
    (takeUp cmdFabHandover e (objBusy s [(8, 0, 0)]) (fun w t =>
      match handoverBad t (bitsOf (Entry.arg e 0) 0 12), handoverRegion t (Entry.arg e 1) with
      | some r, _ => finish w r.1 r.2 [] t
      | none, none => finish w stBadArg 0x8002 [] t
      | none, some region =>
        let t1 := wait w .handover t
        if t1.fab.pair.st = .handingOver then
          { t1 with fab := { t1.fab with pair := { t1.fab.pair with issuer := true, region := region } } }
        else startHandover (bitAt (Entry.arg e 0) 12) region t1) s)

/-- HANDOVER_REQ (15 R370). -/
def execHandoverReq (p : Fin 8) (sp : Spore) (s : State) : Host.Outcome State Fault Refusal :=
  .next (rxSpore 0x14 p sp (fun t =>
    if fromPartner sp t = false then outOfPair p sp t
    else
      match t.fab.pair.st with
      | .paired => beginHandover (leAt sp.payload 0 1 % 2 == 1) false none t
      | .handingOver => t
      | _ => outOfPair p sp t) s)

/-- HANDOVER_GO: the shadow claims the port (15 R371 step 4). -/
def execHandoverGo (p : Fin 8) (sp : Spore) (s : State) : Host.Outcome State Fault Refusal :=
  .next (rxSpore 0x15 p sp (fun t =>
    if fromPartner sp t && t.fab.pair.st == .handingOver && t.fab.pair.role == 2 && t.fab.pair.step == 4 then
      handoverStep (setStep 5 t)
    else outOfPair p sp t) s)

/-- HANDOVER_DONE: the old holder enters SHADOW (15 R371 steps 5 and 6). -/
def execHandoverDone (p : Fin 8) (sp : Spore) (s : State) : Host.Outcome State Fault Refusal :=
  .next (rxSpore 0x16 p sp (fun t =>
    if fromPartner sp t && t.fab.pair.st == .handingOver && t.fab.pair.role == 1 && t.fab.pair.step == 6 then
      handoverGiven (blk sp.payload 0 0 16) (blkInt sp.payload 0 16 32) t
    else outOfPair p sp t) s)

/-- HANDOVER_SHADOW_TIMEOUT: the shadow is not ready within 10 s, and the holder keeps the column (15 R371). -/
def execHandoverShadowTimeout (s : State) : Host.Outcome State Fault Refusal :=
  .next
    (if s.fab.pair.st = .handingOver then
       let s1 := failHandover s
       { s1 with fab := { s1.fab with pair := { s1.fab.pair with st := .paired } } }
     else s)

end Sys2Proof.Machine
end

