-- ==== Sys2Proof/Machine/FabMsgs.lean ====
section
/-! DEFINITION. The mirror, offload, NACK and HOST spores and the host rings of the fabric (15 R359, R364-R367, R373). -/

namespace Sys2Proof.Machine

/-! ### The mirror (15 R367) -/

/-- The device's client: its pair partner, else the one it is bound to (15 R367). -/
def mirrorClient (s : State) : Option (BitVec 12) :=
  if s.fab.pair.st = .unpaired then s.fab.mirror.client else some s.fab.pair.partner

/-- Witness records of a LEDGER_REC whose `rec_crc` is right. -/
def sporeRecs : Nat → List Byte → List WRec
  | 0, _ => []
  | n + 1, b =>
    if b.length < 64 then []
    else
      let r := b.take 64
      (if recCrcOk r then [WRec.ofBytes r] else []) ++ sporeRecs n (b.drop 64)

/-- The mirror takes records of this epoch: the one last acknowledged, one a record with wseq 1 opens, or that of the
latest PAIR_REQ (15 R367). -/
def epochTaken (m : Mirror) (r : WRec) : Bool := r.epoch == m.epoch || r.wseq == 1 || m.pairEpoch == some r.epoch

/-- The highest wseq without a gap, from `u` on, among at most `n` records. -/
def advanceUpTo (l : List WRec) : Nat → Nat → Nat
  | 0, u => u
  | n + 1, u => if l.any (fun r => r.wseq == u + 1) then advanceUpTo l n (u + 1) else u

/-- The mirror begins an epoch with this record: nothing of it is held before (15 R367). -/
def openEpoch (m : Mirror) (r : WRec) : Mirror :=
  if r.epoch ≠ m.epoch ∨ (m.recs.isEmpty ∧ m.upTo = 0) then { m with epoch := r.epoch, recs := [], upTo := r.wseq - 1 } else m

/-- A record joins the mirror; one whose wseq is held already is dropped; a CHECKPOINT lets the records of items below
its floor go (15 R367, 11 R253). -/
def Mirror.add (m : Mirror) (r : WRec) : Mirror :=
  if epochTaken m r = false then m
  else
    let m1 := openEpoch m r
    if r.wseq ≤ m1.upTo ∨ m1.recs.any (fun x => x.wseq == r.wseq) then m1
    else
      let l := m1.recs.filter (fun x => !(r.rtype == 6 && x.ofItem && x.flow == r.flow && decide (x.seq < r.seq))) ++ [r]
      { m1 with recs := l, upTo := advanceUpTo l l.length m1.upTo }

/-- LEDGER_ACK to the client (15 R358, R367). -/
def ackClient (n : BitVec 12) (s : State) : State :=
  send n.toNat 0x21 1 (wordBytes (word [(0, 64, s.fab.mirror.upTo), (64, 32, s.fab.mirror.epoch.toNat)])) s

/-- Records of a client are taken and acknowledged. -/
def takeRecs (n : BitVec 12) (l : List WRec) (s : State) : State :=
  let m := l.foldl Mirror.add { s.fab.mirror with client := some n }
  ackClient n { s with fab := { s.fab with mirror := m } }

/-- LEDGER_REC: from the client; an unpaired device with none is bound by a record with wseq 1 (15 R367, R373 code 8). -/
def execLedgerRec (p : Fin 8) (sp : Spore) (s : State) : Host.Outcome State Fault Refusal :=
  .next (rxSpore 0x20 p sp (fun t =>
    let n := srcNode sp
    let l := sporeRecs 63 sp.payload
    match mirrorClient t with
    | some c => if c = n then takeRecs n l t else outOfPair p sp t
    | none => if l.any (fun r => r.wseq == 1) then takeRecs n l t else outOfPair p sp t) s)

/-- Violation 9: ignored, NACK reason 3 (15 R373). -/
def badLedgerAck (p : Fin 8) (sp : Spore) (s : State) : State :=
  nackSpore sp.header 3 0 (violation p 9 (hdrSrc sp.header) 0x21 s)

/-- The acknowledgement of the present witness, or of the second mirror (11 R254, 15 R368). -/
def witnessAck (p : Fin 8) (sp : Spore) (s : State) : State :=
  let wack := leAt sp.payload 0 8
  let epoch := BitVec.ofNat 32 (leAt sp.payload 8 4)
  let n := srcNode sp
  let first := s.led.witness == .peer n
  if !first && !(s.led.second && s.fab.pair.partner == n) then outOfPair p sp s
  else if epoch ≠ s.led.epoch ∨ s.led.wseq ≤ wack then badLedgerAck p sp s
  else if s.led.lost then s
  else activateTables (handoverStep (if first then ackUpTo wack s else ackMirror wack s))

/-- LEDGER_ACK (15 R367, R373 codes 8 and 9); while acknowledgements are withheld it has no effect (13 R322). -/
def execLedgerAck (p : Fin 8) (sp : Spore) (s : State) : Host.Outcome State Fault Refusal :=
  .next (rxSpore 0x21 p sp (fun t =>
    if t.diag.withhold then t
    else
      match t.led.pendingWitness with
      | some (k, epoch, cnt) =>
        if k = .peer (srcNode sp) ∧ BitVec.ofNat 32 (leAt sp.payload 8 4) = epoch then
          if cnt < leAt sp.payload 0 8 then badLedgerAck p sp t
          else if leAt sp.payload 0 8 = cnt then activateTables (witnessCopied t)
          else t
        else witnessAck p sp t
      | none => witnessAck p sp t) s)

/-! ### Render offload (15 R366) -/

/-- OFFLOAD_REQ. -/
def execOffloadReq (p : Fin 8) (sp : Spore) (s : State) : Host.Outcome State Fault Refusal :=
  .next (rxSpore 0x30 p sp (takeOffload sp.header sp.payload) s)

/-- OFFLOAD_DONE; for no outstanding request it is violation 10 (15 R366, R373). -/
def execOffloadDone (p : Fin 8) (sp : Spore) (s : State) : Host.Outcome State Fault Refusal :=
  .next (rxSpore 0x31 p sp (fun t =>
    let id := BitVec.ofNat 32 (leAt sp.payload 0 4)
    if t.rnd.offloads.any (fun q => q.node == srcNode sp && q.msgId == id) then offloadOver (srcNode sp) id false t
    else nackSpore sp.header 3 0 (violation p 10 (hdrSrc sp.header) 0x31 t)) s)

/-- SEGMENTS: every segment passes the entry check (06 R151, 15 R366). -/
def execSegments (p : Fin 8) (sp : Spore) (s : State) : Host.Outcome State Fault Refusal :=
  .next (rxSpore 0x32 p sp (admitSegs (splitSegs 256 sp.payload)) s)

/-! ### Host spores (15 R364, R365) -/

/-- Transmit ring of port p. -/
def txRing (p : Fin 8) : Fin 64 := ⟨32 + 2 * p.val, by omega⟩
/-- Receive ring of port p. -/
def rxRing (p : Fin 8) : Fin 64 := ⟨33 + 2 * p.val, by omega⟩

/-- Write to the buffer of a reference: the bytes written, fewer where the translation faults (13 R291, 14 R343). -/
def writeBuffer (b : BufRef) (l : List Byte) (s : State) : Nat × State :=
  if b.space = 1 then (l.length, hbmWrite b.addr l s)
  else if b.space = 2 then
    match vwrite b.rflow b.addr l s with
    | ((none, _), s1) => (l.length, s1)
    | ((some _, n), s1) => (n, s1)
  else (l.length, hostWrite b.addr l s)

/-- The host can take a spore on port p: a posted buffer and an ACTIVE receive ring with space (15 R365; DEDUCED, unsafe, log 28). -/
def hostReady (s : State) (p : Fin 8) : Bool :=
  !(port s p).posted.isEmpty && decide ((ring s (rxRing p)).st = 1) && (ring s (rxRing p)).space

/-- A HOST spore or a NACK of one goes to the oldest posted buffer of its port, with an entry on the receive ring; with
none it is dropped and counted (15 R365). -/
def giveHost (p : Fin 8) (sp : Spore) (s : State) : State :=
  match (port s p).posted with
  | [] => nackSpore sp.header 7 0 (raise 0x0609 .fab 0 s)
  | (etag, ref) :: rest =>
    if hostReady s p = false then nackSpore sp.header 7 0 (raise 0x0609 .fab 0 s)
    else
      let (n, s1) := writeBuffer (bufRef ref) (sp.payload.take (hdrLen sp.header)) (setPort p { port s p with posted := rest } s)
      pushEntry (rxRing p) (wordsBytes [sp.header, word [(0, 32, etag.toNat), (32, 32, n)], 0, 0]) s1

/-- HOST (15 R365). -/
def execHost (p : Fin 8) (sp : Spore) (s : State) : Host.Outcome State Fault Refusal :=
  .next (rxSpore 0x50 p sp (giveHost p sp) s)

/-- Word k of a ring entry of 64 bytes. -/
def entryWord (e : BitVec 512) (k : Nat) : W128 := bitsOf e (128 * k) 128

/-- The transmit ring of port p can give an entry: FAB on, the ring ACTIVE and an entry waiting (12 R275, 15 R364). -/
def txReady (s : State) (p : Fin 8) : Bool :=
  domOn s .fab && decide ((ring s (txRing p)).st = 1) && (ring s (txRing p)).devIdx != (ring s (txRing p)).hostIdx

/-- The device releases a transmit entry: word 3, then index, shadow and message (15 R364, 14 R339). -/
def releaseTx (p : Fin 8) (status reason : Nat) (e : BitVec 512) (s : State) : State :=
  let r := ring s (txRing p)
  stopRing (txRing p) (advance (txRing p) (hostWrite (entryAddr (txRing p).val r r.devIdx + 48)
    (wordBytes (word [(0, 16, status), (16, 16, reason), (32, 32, bitsNat (entryWord e 0) 64 32)])) s))

/-- Reserved bits of words 0 and 1 of a transmit entry are zero (15 R364, 13 R291). -/
def txReservedOk (e : BitVec 512) : Bool :=
  maskOk (bits 0 4 + bits 16 12 + bits 32 64) (entryWord e 0) && maskOk refMask (entryWord e 1)

/-- A buffer reference of a fabric ring entry is good: status and reason of R290 where it is not (13 R290, R291). -/
def txRefBad (s : State) (b : BufRef) (len : Nat) : Option (Nat × Nat) :=
  if refValid s (.mailbox 0) b = false ∨ b.len ≠ len then some (stBadArg, 0x8002)
  else if b.space = 1 ∧ (touchesSealed s b.addr b.len ∨ touchesSpill b.addr b.len) then some (stDenied, 0x8006)
  else none

/-- The bytes of a good reference, or a translation fault (13 R290). -/
def txBytes (s : State) (b : BufRef) : (Except (Nat × Nat) (List Byte)) × State :=
  if b.space = 2 then
    match vread b.rflow b.addr b.len s with
    | (.ok l, s1) => (.ok l, s1)
    | (.error _, s1) => (.error (stTransFault, 0x8005), s1)
  else (.ok (if b.space = 1 then hbmRead s b.addr b.len else hostRead s b.addr b.len), s)

/-- A SEND whose bytes are read: the spore leaves by R363. With no usable route it is dropped and counted; the status of
its entry is then a value the manual does not give (15 R359, R363, R364; DEDUCED, unsafe, log 28). -/
def sendHost (p : Fin 8) (e : BitVec 512) (dst : Nat) (l : List Byte) (s : State) : State :=
  match routePort s dst with
  | some _ =>
    let s1 := { s with fab := { s.fab with hostSent := s.fab.msgId :: s.fab.hostSent } }
    releaseTx p stOk 0 e (send dst 0x50 3 l s1)
  | none =>
    let (v, s1) := takeFree (undeliverable 1 s)
    releaseTx p (bitsNat v 0 16) (bitsNat v 16 16) e s1

/-- HOST_SPORE_SEND: the entry at the front of the transmit ring of port p, `op` 1; an `op` that is neither 1 nor 2 is
refused here too (15 R364). -/
def execHostSporeSend (p : Fin 8) (entry : BitVec 512) (s : State) : Host.Outcome State Fault Refusal :=
  .next
    (let a := entryWord entry 0
     let dst := bitsNat a 16 12
     let len := bitsNat a 32 32
     if txReady s p = false ∨ bitsNat a 0 4 = 2 then s
     else if bitsNat a 0 4 ≠ 1 ∨ txReservedOk entry = false ∨ nodeOk dst = false ∨ len = 0 ∨ 4096 < len then releaseTx p stBadArg 0 entry s
     else
       match txRefBad s (bufRef (entryWord entry 1)) len with
       | some r => releaseTx p r.1 r.2 entry s
       | none =>
         match txBytes s (bufRef (entryWord entry 1)) with
         | (.error r, s1) => releaseTx p r.1 r.2 entry s1
         | (.ok l, s1) => sendHost p entry dst l s1)

/-- RX_BUFFER_POST: `op` 2; up to 64 buffers are held (15 R364). -/
def execRxBufferPost (p : Fin 8) (entry : BitVec 512) (s : State) : Host.Outcome State Fault Refusal :=
  .next
    (let a := entryWord entry 0
     if txReady s p = false ∨ bitsNat a 0 4 ≠ 2 then s
     else if txReservedOk entry = false ∨ bitsNat a 16 12 ≠ 0 ∨ bitsNat a 32 32 ≠ 4096 then releaseTx p stBadArg 0 entry s
     else
       match txRefBad s (bufRef (entryWord entry 1)) 4096 with
       | some r => releaseTx p r.1 r.2 entry s
       | none =>
         let q := port s p
         if 64 ≤ q.posted.length then releaseTx p stNoResource 0 entry s
         else
           releaseTx p stOk 0 entry
             (setPort p { q with posted := q.posted ++ [(bitsOf a 64 32, entryWord entry 1)] } s))

/-! ### NACK (15 R358, R359, R365-R367, 21 R458) -/

/-- The UPDATE item whose relayed spore a NACK names. -/
def nackedUpd (s : State) (id : BitVec 32) : Option (UpdRun × Nat) :=
  s.upd.items.findSome? (fun r => (r.msgs.find? (fun m => m.1 == id)).map (fun m => (r, m.2)))

/-- NACK: what it refuses decides its effect. -/
def execNack (p : Fin 8) (sp : Spore) (s : State) : Host.Outcome State Fault Refusal :=
  .next (rxSpore 0x08 p sp (fun t =>
    let b := sp.payload
    let id := BitVec.ofNat 32 (leAt b 0 4)
    let reason := leAt b 5 1
    match leAt b 4 1 with
    | 0x20 =>
      match t.led.pendingWitness with
      | some (.peer n, _, _) => if n = srcNode sp then activateTables (witnessRefused t) else t
      | _ => t
    | 0x30 => offloadOver (srcNode sp) id true t
    | 0x50 =>
      if t.fab.hostSent.contains id then
        giveHost p sp { t with fab := { t.fab with hostSent := t.fab.hostSent.filter (fun x => x != id) } }
      else t
    | 0x51 =>
      match nackedUpd t id with
      | some (r, i) => activateTables (relayNacked r i reason (leAt b 6 1) t)
      | none => t
    | _ => t) s)

end Sys2Proof.Machine
end

