-- ==== Sys2Proof/Machine/TimeCmd.lean ====
section
/-! DEFINITION. Time bases: the commands of 13 R314, fabric time and PTP (16 R378-R388), and the tick of an empty
queue. -/

namespace Sys2Proof.Machine

/-! ### Counting (16 R378, R379) -/

/-- Domain of a base (16 R378). -/
def baseDomain (b : Fin 4) : Domain :=
  match b with
  | 0 => .fab
  | 1 => .trk
  | 2 => .aon
  | 3 => .ctrl

/-- The base counts: its domain is powered (16 R378). -/
def baseCounts (s : State) (b : Fin 4) : Bool := domPowered s (baseDomain b)

/-- A base after `ns` nanoseconds: the tick length times (1 + r · 2^-40), in the 40-bit fraction (16 R379). -/
def TimeBase.count (x : TimeBase) (ns : Nat) : TimeBase :=
  { x with acc := (((x.acc : Int) + ns * ((2 ^ 40 : Nat) + x.rate)) % (2 ^ 72 : Nat)).toNat }

/-- 40 ns pass: one tick of LT, ten of FT and ST, five of PT, each where its domain is powered (16 R378, R379; DESIGN CHOICE, unsafe, log 1). -/
def tick (s : State) : State :=
  { s with time := { s.time with base := Vector.ofFn (fun b =>
      if baseCounts s b then (s.time.base[b]).count 40 else s.time.base[b]) } }

/-! ### TIME_SET_SOURCE, TIME_GET, TIME_ADJUST (13 R314) -/

/-- TIME_SET_SOURCE. -/
def cmdTimeSetSource : Cmd := workCmd 0x0700 [bits 0 2 + bits 4 15] stbWork

/-- The combinations of base and source that are valid (16 R378). -/
def sourceValid (b src : Nat) : Bool :=
  match b with
  | 0 => decide (src ≤ 2)
  | 1 => src == 0 || src == 5
  | 2 => src == 0
  | _ => src == 0 || src == 3 || src == 4

/-- The base that a command names. -/
def argBase (e : Entry) : Fin 4 := ⟨bitsNat (Entry.arg e 0) 0 2, Nat.mod_lt _ (by decide)⟩

/-- Fields that go with a source: the port of FT, the domain of PT with no master yet (13 R314). -/
def setSourceFields (b : Fin 4) (a : W128) (s : State) : State :=
  match b with
  | 0 => { s with time := { s.time with ftPort := bitsNat a 16 3, hops := 0, master := s.fab.node } }
  | 3 => { s with time := { s.time with
      ptpDomain := bitsOf a 8 8
      ptpMasters := []
      ptpMaster := none
      ptpSync := none
      ptpReq := none } }
  | _ => s

/-- TIME_SET_SOURCE (13 R314, 16 R378). -/
def execTimeSetSource (e : Entry) (s : State) : Host.Outcome State Fault Refusal :=
  .next
    (takeUp cmdTimeSetSource e false (fun w t =>
      let b := argBase e
      let src := bitsNat (Entry.arg e 0) 4 4
      if sourceValid b.val src = false then finish w stBadArg 1 [] t
      else if baseCounts t b = false then finish w stBadState 0x8001 [] t
      else finish w stOk 0 [] (applySource b src (setSourceFields b (Entry.arg e 0) t))) s)

/-- TIME_GET. -/
def cmdTimeGet : Cmd := { workCmd 0x0701 [] allButRec with service := true }

/-- C2 to C4 of TIME_GET (13 R314). -/
def timeWords (s : State) : List W128 :=
  let st (b : Fin 4) : Nat := (s.time.base[b]).state
  [word [(0, 48, (base48 s 0).toNat), (48, 48, (base48 s 1).toNat)],
   word [(0, 48, (base48 s 2).toNat), (48, 48, (base48 s 3).toNat)],
   word [(0, 2, st 0), (2, 2, st 1), (4, 2, st 2), (6, 2, st 3)]]

/-- TIME_GET (13 R314): all four bases in one clock. -/
def execTimeGet (e : Entry) (s : State) : Host.Outcome State Fault Refusal :=
  .next (takeUp cmdTimeGet e false (fun w t => finish w stOk 0 (timeWords t) t) s)

/-- TIME_ADJUST. -/
def cmdTimeAdjust : Cmd := workCmd 0x0702 [bits 0 3 + bits 64 64] stbWork

/-- 500 ppm in units of 2^-40 (16 R383, R385). -/
def ppm500 : Int := 549755813
/-- 100 ppm. -/
def ppm100 : Int := 109951162

/-- A base is stepped by `d` in 2^-16 ns: TIME_STEPPED with the base and the step (16 R385); ST derived from FT follows
(16 R386). -/
def stepBase (b : Fin 4) (d : Int) (s : State) : State :=
  let x := s.time.base[b]
  deriveSt (raise 0x0712 .aon (detail [du 8 b.val, ds 64 d])
    (setBase b { x with acc := (((x.acc : Int) + d * (2 ^ 24 : Nat)) % (2 ^ 72 : Nat)).toNat, steps := x.steps + 1 } s))

/-- What refuses a TIME_ADJUST (13 R314, 16 R385). FT, too, is never stepped while a stripe fires (DEDUCED, unsafe, log 29). -/
def adjustBad (s : State) (b : Fin 4) (rate : Bool) : Option (Nat × Nat) :=
  let src := (s.time.base[b]).src
  if baseCounts s b = false then some (stBadState, 0x8001)
  else if src ≠ 0 ∧ src ≠ 2 then some (stBadState, 2)
  else if rate = false ∧ (b = 0 ∨ b = 1) ∧ stripeFires s then some (stBadState, 3)
  else none

/-- Set a rate, clamped to ±500 ppm; a clamp is counted (16 R385). -/
def setRate (b : Fin 4) (r : Int) (s : State) : State :=
  let c := clampInt (-ppm500) ppm500 r
  let s1 := deriveSt (setBase b { s.time.base[b] with rate := c } s)
  if c = r then s1 else stat (sk 0x07010000 b.val) s1

/-- TIME_ADJUST (13 R314, 16 R385). -/
def execTimeAdjust (e : Entry) (s : State) : Host.Outcome State Fault Refusal :=
  .next
    (takeUp cmdTimeAdjust e false (fun w t =>
      let b := argBase e
      let rate := bitAt (Entry.arg e 0) 2
      let v := signedNat 64 (bitsNat (Entry.arg e 0) 64 64)
      match adjustBad t b rate with
      | some r => finish w r.1 r.2 [] t
      | none => finish w stOk 0 [] (if rate then setRate b v t else stepBase b v t)) s)

/-! ### Following a source (16 R383-R385) -/

/-- Difference of two 48-bit times, signed (16 R379, R381). -/
def timeDiff (a b : Int) : Int := signedNat 48 ((a - b) % (2 ^ 48 : Nat)).toNat

/-- A follower takes an offset: a step where the first one on acquiring exceeds 1 µs and no stripe fires, else the servo
sets the rate; the base locks after `n` offsets below `bound` (16 R383, R385, R388). -/
def takeOffset (b : Fin 4) (offset delay : Int) (bound n : Nat) (s : State) : State :=
  let x := s.time.base[b]
  let big := !x.acquired && decide (65536000 < offset.natAbs)
  let lim := if stripeFires s ∧ b ≠ 3 then ppm100 else ppm500
  let run := if offset.natAbs < bound then x.lockRun + 1 else 0
  let steps := big && (b == 3 || !stripeFires s)
  let y := { x with
    offset := offset
    delay := delay
    acquired := true
    lockRun := run
    exchanges := x.exchanges + 1
    rate := if steps then x.rate else clampInt (-lim) lim (Config.servoRate x.rate offset x.exchanges) }
  let s1 := setBase b y s
  let s2 := if steps then stepBase b offset s1 else s1
  let s3 := if n ≤ run ∧ x.state ≠ 1 then raise 0x0710 .aon 0 (setBase b { s2.time.base[b] with state := 1 } s2) else s2
  deriveSt s3

/-! ### Fabric time (16 R382-R384) -/

/-- Payload of a TIME spore (16 R382). -/
def timePayload (p : Fin 8) (s : State) : List Byte :=
  let ft := s.time.base[(0 : Fin 4)]
  let rx := s.time.lastRx[p]
  let master := ft.src == 2
  wordsBytes [word [(0, 48, (base48 s 0).toNat), (48, 48, rx.1.toNat), (96, 32, rx.2.toNat)],
    word [(0, 2, ft.state), (4, 4, if master then 0 else s.time.hops), (8, 12, if master then s.fab.node.toNat else s.time.master.toNat)]]

/-- Send a TIME spore on a port that is UP, and keep its own time of sending (16 R382, R383). -/
def sendTime (p : Fin 8) (s : State) : State :=
  if portUp s p then
    originateOn p 0 0x40 1 (timePayload p s)
      { s with time := { s.time with sent := ((s.fab.msgId, base48 s 0) :: s.time.sent).take 4096 } }
  else s

/-- TIME_SPORE_TIMER: every 10 µs a device with FT from the fabric, or its master, sends TIME (16 R382). -/
def execTimeSporeTimer (s : State) : Host.Outcome State Fault Refusal :=
  .next
    (let src := (s.time.base[(0 : Fin 4)]).src
     if mayOriginate s && (src == 1 || src == 2) then allPorts.foldl (fun t p => sendTime p t) s else s)

/-- A usable TIME on the source port: hops and master are taken, and the offset where the partner answers a TIME of this
device (16 R383). -/
def followTime (b : List Byte) (arrived : BitVec 48) (s : State) : State :=
  let s1 := { s with time := { s.time with hops := blk b 1 4 4 + 1, master := BitVec.ofNat 12 (blk b 1 8 12) } }
  match s.time.sent.find? (fun x => x.1 == BitVec.ofNat 32 (blk b 0 96 32)) with
  | none => s1
  | some (_, t1) =>
    let t2 : Int := blk b 0 48 48
    let t3 : Int := blk b 0 0 48
    let t4 : Int := arrived.toNat
    let t1 : Int := t1.toNat
    takeOffset 0 ((timeDiff t2 t1 + timeDiff t3 t4) / 2) ((timeDiff t4 t1 - timeDiff t3 t2) / 2) 1310720 64 s1

/-- Another master's TIME at a device that masters FT: TIME_MASTER_CONFLICT once per master (16 R384). -/
def masterConflict (m : BitVec 12) (s : State) : State :=
  if m = s.fab.node ∨ s.time.conflicts.contains m then s
  else raise 0x0713 .fab 0 { s with time := { s.time with conflicts := m :: s.time.conflicts } }

/-- TIME (16 R382-R384): one whose fstate is not 1 or whose hops is 15 is ignored. -/
def execTime (p : Fin 8) (sp : Spore) (s : State) : Host.Outcome State Fault Refusal :=
  .next (rxSpore 0x40 p sp (fun t =>
    let b := sp.payload
    let ft := t.time.base[(0 : Fin 4)]
    let t1 := { t with time := { t.time with lastRx := t.time.lastRx.set p.val (sp.arrived, hdrMsgId sp.header) } }
    if ft.src = 2 then masterConflict (BitVec.ofNat 12 (blk b 1 8 12)) t1
    else if ft.src = 1 ∧ t.time.ftPort = p.val ∧ blk b 1 0 2 = 1 ∧ blk b 1 4 4 ≠ 15 then followTime b sp.arrived t1
    else t1) s)

/-- TIME_SOURCE_TIMEOUT: 100 µs without a usable TIME (16 R384). -/
def execTimeSourceTimeout (base : Fin 4) (s : State) : Host.Outcome State Fault Refusal :=
  .next (if base = 0 ∧ (s.time.base[(0 : Fin 4)]).src = 1 ∧ baseCounts s 0 then sourceLost 0 s else s)

/-! ### PTP (16 R388) -/

/-- The message is heard: PT follows PTP, and transport and domain are its own (16 R388). -/
def ptpHears (s : State) (m : PtpMsg) : Bool :=
  let src := (s.time.base[(3 : Fin 4)]).src
  running s && ((src == 3 && !m.layer2) || (src == 4 && m.layer2)) && m.domain == s.time.ptpDomain

/-- The best master heard: the lowest dataset, then the lowest identity (16 R388). -/
def bestMaster : List PtpMaster → Option PtpMaster
  | [] => none
  | m :: t =>
    match bestMaster t with
    | none => some m
    | some x => if m.quality < x.quality ∨ (m.quality = x.quality ∧ m.sender < x.sender) then some m else some x

/-- The master followed becomes the best heard: a change raises PTP_MASTER_CHANGED and PT acquires anew (16 R388). -/
def chooseMaster (s : State) : State :=
  match bestMaster s.time.ptpMasters with
  | none => s
  | some m =>
    if s.time.ptpMaster = some m.sender then s
    else
      let x := s.time.base[(3 : Fin 4)]
      raise 0x0714 .ctrl 0 (setBase 3 { x with acquired := false, lockRun := 0 }
        { s with time := { s.time with ptpMaster := some m.sender, ptpSync := none, ptpReq := none } })

/-- PTP_ANNOUNCE (16 R388). -/
def execPtpAnnounce (m : PtpMsg) (s : State) : Host.Outcome State Fault Refusal :=
  .next
    (if ptpHears s m then
       let l := s.time.ptpMasters.filter (fun x => x.sender != m.sender)
       chooseMaster (stat (sk 0x07010001 1)
         { s with time := { s.time with ptpMasters := { sender := m.sender, quality := m.quality } :: l } })
     else s)

/-- A Sync's time is complete: the offset from the mean path delay last computed; a Delay_Req follows (16 R388; DEDUCED, unsafe, log 29). -/
def syncTime (origin received : Int) (s : State) : State :=
  let fwd := timeDiff received origin
  let x := s.time.base[(3 : Fin 4)]
  let s1 := takeOffset 3 (x.delay - fwd) x.delay 6553600 16 { s with time := { s.time with ptpForward := fwd, ptpSync := none } }
  emit (.delayReq s1.time.ptpSeq) (stat (sk 0x07010001 5)
    { s1 with time := { s1.time with ptpReq := some (s1.time.ptpSeq, ((base48 s1 3).toNat : Int)), ptpSeq := s1.time.ptpSeq + 1 } })

/-- PTP_SYNC: a one-step Sync carries its time; a two-step one awaits its Follow_Up (16 R388). -/
def execPtpSync (m : PtpMsg) (s : State) : Host.Outcome State Fault Refusal :=
  .next
    (if ptpHears s m && s.time.ptpMaster == some m.sender then
       let s1 := stat (sk 0x07010001 2) s
       if m.twoStep then { s1 with time := { s1.time with ptpSync := some (m.seq, m.received) } }
       else syncTime m.origin m.received s1
     else s)

/-- PTP_FOLLOW_UP (16 R388). -/
def execPtpFollowUp (m : PtpMsg) (s : State) : Host.Outcome State Fault Refusal :=
  .next
    (if ptpHears s m && s.time.ptpMaster == some m.sender then
       let s1 := stat (sk 0x07010001 3) s
       match s.time.ptpSync with
       | some (q, rx) => if q = m.seq then syncTime m.origin rx s1 else s1
       | none => s1
     else s)

/-- PTP_DELAY_RESP: `origin` is the master's receive time of the Delay_Req; the mean path delay is half the sum of the two
ways (16 R388). -/
def execPtpDelayResp (m : PtpMsg) (s : State) : Host.Outcome State Fault Refusal :=
  .next
    (if ptpHears s m && s.time.ptpMaster == some m.sender then
       let s1 := stat (sk 0x07010001 4) s
       match s.time.ptpReq with
       | some (q, t3) =>
         if q = m.seq then
           setBase 3 { s1.time.base[(3 : Fin 4)] with delay := (s1.time.ptpForward + timeDiff m.origin t3) / 2 }
             { s1 with time := { s1.time with ptpReq := none } }
         else s1
       | none => s1
     else s)

/-- PTP_MASTER_TIMEOUT: the master is lost (16 R384, R388). -/
def execPtpMasterTimeout (s : State) : Host.Outcome State Fault Refusal :=
  .next
    (match s.time.ptpMaster with
     | none => s
     | some m =>
       if running s then
         sourceLost 3 { s with time := { s.time with
           ptpMasters := s.time.ptpMasters.filter (fun x => x.sender != m)
           ptpMaster := none
           ptpSync := none
           ptpReq := none } }
       else s)

end Sys2Proof.Machine
end

