-- ==== Sys2Proof/Machine/DiagCmd.lean ====
section
/-! DEFINITION. Diagnostics (13 R321-R323): loopback, fault injection, counters. -/

namespace Sys2Proof.Machine

/-- Complete with a status whose reason the manual does not give: a free value (DESIGN CHOICE, safe, log 7). -/
def finishOpen (w : Waiting) (status : Nat) (s : State) : State :=
  let (v, s1) := takeFree s
  finish w status (bitsNat v 0 16) [] s1

/-! ### DIAG_LOOPBACK (13 R321) -/

/-- DIAG_LOOPBACK. -/
def cmdDiagLoopback : Cmd :=
  { op := 0x0C00, masks := [bits 0 4 + bits 8 8 + bits 32 32], modes := [.ready, .calibrate], needs := [], service := false }

/-- Lanes or ports of a path: 80 transmit lanes, 8 ports, 2 return lanes (13 R321, 08 R174, R181, 15 R351). -/
def loopUnits (path : Nat) : Nat :=
  match path with
  | 0 => 80
  | 1 => 8
  | 2 => 2
  | _ => 0

/-- The named link goes DOWN for the loopback (13 R321). -/
def loopDown (path unit : Nat) (s : State) : State :=
  if path = 1 then
    let p : Fin 8 := ⟨unit % 8, by omega⟩
    let s1 := if portUp s p then portGone p s else s
    setPort p { port s1 p with st := .down } s1
  else linkFails 0xFF s

/-- DIAG_LOOPBACK begins (13 R321). -/
def execDiagLoopback (e : Entry) (s : State) : Host.Outcome State Fault Refusal :=
  .next
    (takeUp cmdDiagLoopback e (objBusy s [(5, 0, 0)]) (fun w t =>
      let a := Entry.arg e 0
      let path := bitsNat a 0 4
      let unit := bitsNat a 8 8
      let dur := bitsNat a 32 32
      if 2 < path ∨ dur = 0 ∨ 1000000 < dur then finishOpen w stBadArg t
      else if loopUnits path ≤ unit then finish w stBadArg 1 [] t
      else
        let t1 := loopDown path unit t
        wait w .loopback { t1 with diag := { t1.diag with loop := some (path, unit) } }) s)

/-- LOOPBACK_DURATION_END: the pattern stops, its results are kept and reported, and the link may train again
(13 R321). -/
def execLoopbackDurationEnd (n errors : BitVec 64) (losses : BitVec 32) (s : State) :
    Host.Outcome State Fault Refusal :=
  .next
    (match s.diag.loop with
     | none => s
     | some _ =>
       settle (fun w => if w.on = .loopback then
           some (stOk, 0, [word [(0, 64, n.toNat), (64, 64, errors.toNat)], word [(0, 32, losses.toNat)]]) else none)
         { s with diag := { s.diag with loop := none, result := (n, errors, losses) } })

/-! ### DIAG_INJECT (13 R322) -/

/-- DIAG_INJECT. -/
def cmdDiagInject : Cmd := workCmd 0x0C01 [bits 0 64] workModes

/-- Limit of `param` of a fault, by the object it names; none where the fault has no parameter or any value serves
(13 R322). -/
def paramLimit (fault : Nat) : Option Nat :=
  match fault with
  | 4 => some 76
  | 6 => some 4
  | 7 => some 16
  | 8 => some 256
  | 10 => some 8
  | _ => none

/-- The injection takes its place: fault 5 at once, fault 9 until ACK_WITHHOLD_END, the others where they occur next
(13 R322; DEDUCED, unsafe, log 30). -/
def place (fault count : Nat) (param : BitVec 32) (s : State) : State :=
  match fault with
  | 5 =>
    if s.link.rlane = 0 then laneLost s
    else { s with link := { s.link with rlock := vset s.link.rlock 0 false } }
  | 9 => { s with diag := { s.diag with withhold := true } }
  | _ => { s with diag := { s.diag with inject := s.diag.inject ++ [(fault, count, param)] } }

/-- DIAG_INJECT (13 R322). -/
def execDiagInject (e : Entry) (s : State) : Host.Outcome State Fault Refusal :=
  .next
    (takeUp cmdDiagInject e false (fun w t =>
      let a := Entry.arg e 0
      let fault := bitsNat a 0 16
      let count := bitsNat a 16 16
      let param : BitVec 32 := bitsOf a 32 32
      if t.cfg.act.diagEnable = 0 then finish w stDenied 1 [] t
      else if fault = 0 ∨ 10 < fault ∨ count = 0 ∨ (paramLimit fault).any (fun n => decide (n ≤ param.toNat)) then
        finishOpen w stBadArg t
      else
        place fault count param
          (finish w stOk 0 [] (raise 0x0C10 .ctrl (detail [du 16 fault, du 32 param.toNat]) t))) s)

/-- ACK_WITHHOLD_END: witness acknowledgements count again (13 R322). -/
def execAckWithholdEnd (s : State) : Host.Outcome State Fault Refusal :=
  .next { s with diag := { s.diag with withhold := false } }

/-! ### DIAG_COUNTERS (13 R323) -/

/-- DIAG_COUNTERS. -/
def cmdDiagCounters : Cmd :=
  { op := 0x0C02, masks := [bits 0 8], modes := allButRec, needs := [], service := true }

/-- DIAG_COUNTERS (13 R323). -/
def execDiagCounters (e : Entry) (s : State) : Host.Outcome State Fault Refusal :=
  .next
    (takeUp cmdDiagCounters e false (fun w t =>
      let c := bitsNat (Entry.arg e 0) 0 8
      if c ≠ 0xFF ∧ (c = 0 ∨ 0x0C < c) then finishOpen w stBadArg t
      else
        let b := if c = 0xFF then counterBytes t 1 12 else counterBytes t c 1
        let t1 := mapAperture 0x0C020000 b t
        finish w stOk 0 [word [(0, 32, b.length), (32, 32, t1.aper.gen.toNat)]] t1) s)

end Sys2Proof.Machine
end

