-- ==== Sys2Proof/Machine/HostWin.lean ====
section
/-! DEFINITION. The host window: doorbells, ring states, registers, BAR4, MSI-X, Function Level Reset and PERST
(12 R264-R287, 19 R430, R431). -/

namespace Sys2Proof.Machine

/-! ### Doorbells (12 R275) -/

/-- A doorbell value is valid: for a host-produced ring at or after the host index and at most a ring ahead of the device
index, for a device-produced ring at or after the host index and at or before the device index (12 R275). -/
def doorbellOk (i : Nat) (r : Ring) (new : BitVec 32) : Bool :=
  if hostProduced i then decide ((new - r.hostIdx).toNat ≤ (r.devIdx + BitVec.ofNat 32 r.entries - r.hostIdx).toNat)
  else decide ((new - r.hostIdx).toNat ≤ (r.devIdx - r.hostIdx).toNat)

/-- A ledger ring may have space for results that wait (12 R281). -/
def ringSpace (i : Fin 64) (s : State) : State :=
  if 56 ≤ i.val then serveResults ⟨i.val % 8, by omega⟩ s else s

/-- A doorbell of ring `i` (12 R275). -/
def doorbell (i : Fin 64) (new : BitVec 32) (s : State) : State :=
  let r := ring s i
  if r.st ≠ 1 then writeRefused (detail [du 8 i.val]) s
  else if doorbellOk i.val r new then ringSpace i (setRing i { r with hostIdx := new } s)
  else
    raise 0x0132 .host (detail [du 8 i.val, du 32 r.hostIdx.toNat, du 32 new.toNat]) (setRing i { r with dbBad := true } s)

/-- DOORBELL_WRITE (12 R275); bits [63:32] are ignored. -/
def execDoorbellWrite (i : Fin 64) (v : BitVec 64) (s : State) : Host.Outcome State Fault Refusal :=
  .next (if running s then doorbell i (bitsOf v 0 32) s else s)

/-! ### Ring configuration and states (12 R273, R276) -/

/-- The fields of WIN_RING_CFG that a write stores: reserved bits read zero, CLASS_MASK only on event rings (12 R273). -/
def cfgFields (i : Nat) (v : BitVec 64) : BitVec 64 :=
  v &&& BitVec.ofNat 64 (bits 0 13 + bits 16 16 + if 48 ≤ i ∧ i < 56 then bits 32 13 else 0)

/-- EN and LOG2N of a configuration replaced. -/
def withEn (en : Bool) (log2n : Nat) (v : BitVec 64) : BitVec 64 :=
  (v &&& ~~~(BitVec.ofNat 64 (bits 0 6))) ||| BitVec.ofNat 64 (b2n en + log2n * 2)

/-- A ring in DISABLED may become ACTIVE with LOG2N `n` (12 R276). -/
def enableOk (s : State) (i : Fin 64) (n : Nat) : Bool :=
  let r := ring s i
  r.base.toNat % 4096 == 0 && r.shadow.toNat % 8 == 0 && decide (4 ≤ n ∧ n ≤ 16) &&
    (s.pm.mode != .recovery || decide (i.val < 2))

/-- Completions kept for a mailbox are written (12 R280). -/
def flushKept (m : Nat) (i : Fin 64) : List (Nat × Completion) → State → State
  | [], s => s
  | (k, c) :: t, s => flushKept m i t (if k = m then pushEntry i c.bytes s else s)

/-- What an enabled ring takes up: kept completions, waiting results, a fresh record of descriptors not OK
(12 R280, R281, 14 R338). -/
def ringUp (i : Fin 64) (s : State) : State :=
  if i.val < 16 then
    if i.val % 2 = 1 then
      flushKept (i.val / 2) i s.mb.kept { s with mb := { s.mb with kept := s.mb.kept.filter (fun x => x.1 != i.val / 2) } }
    else s
  else if i.val < 32 then
    let c : Fin 16 := ⟨i.val % 16, by omega⟩
    setCh c { s.dma.ch[c] with notOk := false } s
  else ringSpace i s

/-- DISABLED to ACTIVE (12 R276). -/
def activate (i : Fin 64) (cfg : BitVec 64) (s : State) : State :=
  ringUp i (writeShadow i (setRing i { ring s i with
    cfg := cfg
    devIdx := 0
    hostIdx := 0
    st := 1
    full := false
    coal := 0
    stalled := false } s))

/-- ACTIVE to STOPPING; with no entry in progress the ring is DISABLED at once (12 R276). -/
def stopping (i : Fin 64) (cfg : BitVec 64) (s : State) : State :=
  let s1 := setRing i { ring s i with cfg := cfg, st := 2 } s
  if ringBusy s1 i.val then s1 else stopRing i s1

/-- A write of WIN_RING_CFG with EN = `en` (12 R273, R276): LOG2N changes only in DISABLED. -/
def writeRingCfg (i : Fin 64) (en : Bool) (v : BitVec 64) (s : State) : State :=
  let r := ring s i
  let n := bitsNat v 1 5
  let f := cfgFields i.val v
  if r.st = 0 then
    if en && enableOk s i n then activate i (withEn true n f) s
    else
      let s1 := setRing i { r with cfg := withEn false n f } s
      if en then writeRefused (detail [du 8 i.val]) s1 else s1
  else
    let s1 := if n ≠ r.log2n then writeRefused (detail [du 8 i.val]) s else s
    let cfg := withEn (en && bitAt r.cfg 0) r.log2n f
    if r.st = 1 ∧ en = false then stopping i cfg s1
    else
      let r1 := ring s1 i
      setRing i { r1 with cfg := cfg, st := if r1.st = 3 ∧ en = false then 0 else r1.st } s1

/-- RING_ENABLE (12 R276). -/
def execRingEnable (i : Fin 64) (v : BitVec 64) (s : State) : Host.Outcome State Fault Refusal :=
  .next (if running s then writeRingCfg i true v s else s)

/-- RING_DISABLE (12 R276). -/
def execRingDisable (i : Fin 64) (v : BitVec 64) (s : State) : Host.Outcome State Fault Refusal :=
  .next (if running s then writeRingCfg i false v s else s)

/-- A write of WIN_RING_BASE, or of WIN_RING_SHADOW: only in DISABLED (12 R273). -/
def writeRingAddr (i : Fin 64) (shadow : Bool) (v : BitVec 64) (s : State) : State :=
  let r := ring s i
  if r.st = 0 then setRing i (if shadow then { r with shadow := v } else { r with base := v }) s
  else if (if shadow then r.shadow else r.base) = v then s
  else writeRefused (detail [du 8 i.val]) s

/-- A write of WIN_RING_STATUS (12 R274). -/
def writeRingStatus (i : Fin 64) (v : BitVec 32) (s : State) : State :=
  let r := ring s i
  setRing i { r with dbBad := r.dbBad && !bitAt v 4, busErr := r.busErr && !bitAt v 5 } s

/-- RING_STATUS_CLEAR (12 R274). -/
def execRingStatusClear (i : Fin 64) (v : BitVec 32) (s : State) : Host.Outcome State Fault Refusal :=
  .next (if running s then writeRingStatus i v s else s)

/-- RING_BUS_ERROR: a bus error on an access of a ring moves it to ERROR (12 R276). -/
def execRingBusError (i : Fin 64) (addr : BitVec 64) (s : State) : Host.Outcome State Fault Refusal :=
  .next
    (let r := ring s i
     if running s ∧ (r.st = 1 ∨ r.st = 2) then
       setFlag 8 (raise 0x0133 .host (detail [du 8 i.val])
         (setRing i { r with st := 3, busErr := true, errAddr := addr } s))
     else s)

/-! ### Flags and the staging window (12 R267, R269, R270) -/

/-- A write of WIN_STATUS (12 R267, R269). -/
def writeWinStatus (v : BitVec 32) (s : State) : State :=
  { s with win := { s.win with status := w1c s.win.status (bitsOf v 0 11) } }

/-- WIN_STATUS_CLEAR (12 R269). -/
def execWinStatusClear (v : BitVec 32) (s : State) : Host.Outcome State Fault Refusal :=
  .next (if running s then writeWinStatus v s else s)

/-- A write of WIN_STAGE: one that names a window above 190 is refused (12 R270). -/
def writeWinStage (v : BitVec 32) (s : State) : State :=
  if 190 < bitsNat v 0 8 then writeRefused 0 s
  else { s with win := { s.win with window := bitsOf v 0 8, stageEn := bitAt v 8 } }

/-- WIN_STAGE_WRITE (12 R270). -/
def execWinStageWrite (v : BitVec 32) (s : State) : Host.Outcome State Fault Refusal :=
  .next (if running s then writeWinStage v s else s)

/-- A BAR4 access of `n` bytes at HBM offset `a` is refused (12 R270). -/
def bar4Refused (s : State) (a n : Nat) : Bool :=
  !s.win.stageEn || s.pm.mode == .standby || s.pm.mode == .hold || s.pm.mode == .recovery || touchesSealed s a n

/-- BAR4_ACCESS (12 R270): `len` bytes from `addr` in the open window; a refused read answers zeros, a refused write is
dropped, and both are counted. -/
def execBar4Access (addr : BitVec 28) (write : Bool) (len : Nat) (data : List Byte) (s : State) :
    Host.Outcome State Fault Refusal :=
  .next
    (if running s = false then s
     else
       let a := 268435456 * s.win.window.toNat + addr.toNat
       let n := min (if write then data.length else len) (268435456 - addr.toNat)
       if bar4Refused s a n then
         let s1 := raise 0x0136 .host 0 s
         if write then s1 else emit (.bar4Read (List.replicate n 0)) s1
       else if write then hbmWrite a (data.take n) s
       else emit (.bar4Read (hbmRead s a n)) s)

/-! ### MSI-X (12 R282, R283) -/

/-- A vector that is not masked any longer sends its pending message (12 R283). -/
def sendPending (v : Fin 64) (s : State) : State :=
  if bitAt s.win.pba v.val && !bitAt s.win.msix[v] 96 then
    sendMsix v.val { s with win := { s.win with pba := s.win.pba &&& ~~~(BitVec.ofNat 64 (2 ^ v.val)) } }
  else s

/-- MSIX_VECTOR_UNMASK (12 R283). -/
def execMsixVectorUnmask (v : Fin 64) (s : State) : Host.Outcome State Fault Refusal :=
  .next
    (if running s then
       sendPending v { s with win := { s.win with
         msix := s.win.msix.set v.val (s.win.msix[v] &&& ~~~(BitVec.ofNat 128 (2 ^ 96))) } }
     else s)

/-- MSIX_COALESCE_TIMEOUT: COAL_US after the interval opened (12 R283). -/
def execMsixCoalesceTimeout (i : Fin 64) (s : State) : Host.Outcome State Fault Refusal :=
  .next
    (let r := ring s i
     if running s ∧ bitAt r.cfg 12 ∧ r.coal ≠ 0 then sendMsix r.vec (setRing i { r with coal := 0 } s) else s)

/-- A 32-bit write into the MSI-X table: word `k` of a vector, of which the vector control holds only its mask bit
(12 R282; PRESUMED, the PCI Express Base Specification; DESIGN CHOICE, unsafe, log 2). -/
def writeMsix (v : Fin 64) (k : Nat) (x : BitVec 32) (s : State) : State :=
  let old := s.win.msix[v]
  let y := if k = 3 then bitsNat x 0 1 else x.toNat
  let new := (old &&& ~~~(BitVec.ofNat 128 (bits (32 * k) 32))) ||| BitVec.ofNat 128 (y * 2 ^ (32 * k))
  sendPending v { s with win := { s.win with msix := s.win.msix.set v.val new } }

/-! ### Register writes (12 R265, 00 R6, R9) -/

/-- A write that is ignored and counted: to a reserved address, or of a wrong size or alignment (00 R6, 12 R265, R286). -/
def reservedWrite (off size : Nat) (s : State) : State :=
  raiseLimited 0x0130 0x0130 .host (detail [du 64 off, du 16 size]) s

/-- WIN_RESERVED_WRITE (00 R6). -/
def execWinReservedWrite (off : BitVec 24) (size : Nat) (s : State) : Host.Outcome State Fault Refusal :=
  .next (if running s then reservedWrite off.toNat size s else s)

/-- A write into the ring table: `k` is the offset in the entry (12 R272). The upper half of a 64-bit register ignores a
32-bit write; the lower half takes one as a write of the whole register (12 R265). -/
def writeRingTable (i : Fin 64) (k : Nat) (v : BitVec 64) (s : State) : State :=
  match k with
  | 0x00 => writeRingAddr i false v s
  | 0x08 => writeRingCfg i (bitAt v 0) v s
  | 0x10 => writeRingAddr i true v s
  | 0x20 => writeRingStatus i (bitsOf v 0 32) s
  | _ => s

/-- A write of one 32-bit register, or of the lower half of a 64-bit one, whose value is `v` (12 R265-R275, R282, R285,
R299). Read-only registers ignore it. -/
def writeReg (off : Nat) (v : BitVec 64) (s : State) : State :=
  let x : BitVec 32 := bitsOf v 0 32
  if off = 0x1008 then writeWinStatus x s
  else if off = 0x100C then { s with win := { s.win with statusIrq := bitsOf v 0 11 } }
  else if off = 0x1010 then writeWinStage x s
  else if off < 0x1C ∨ (0x1000 ≤ off ∧ off < 0x1018) then s
  else if 0x10000 ≤ off ∧ off < 0x11000 then
    writeRingTable ⟨(off - 0x10000) / 64 % 64, Nat.mod_lt _ (by decide)⟩ (off % 64) v s
  else if 0x20000 ≤ off ∧ off < 0x20200 then
    if off % 8 = 0 then doorbell ⟨(off - 0x20000) / 8 % 64, Nat.mod_lt _ (by decide)⟩ x s else s
  else if (0x30000 ≤ off ∧ off < 0x33400) ∨ (0x3F000 ≤ off ∧ off < 0x3F02C) then s
  else if 0x40000 ≤ off ∧ off < 0x40400 then
    writeMsix ⟨(off - 0x40000) / 16 % 64, Nat.mod_lt _ (by decide)⟩ (off / 4 % 4) x s
  else if (0x41000 ≤ off ∧ off < 0x41008) ∨ (0x100000 ≤ off ∧ off < 0x200000) then s
  else reservedWrite off 4 s

/-- The registers at an offset are two of 32 bits, so that a 64-bit write reaches both (12 R265-R267, R282; DEDUCED, unsafe, log 31). -/
def pairOf32 (off : Nat) : Bool :=
  decide (0x1000 ≤ off ∧ off < 0x1018) || decide (0x40000 ≤ off ∧ off < 0x40400)

/-- REGISTER_WRITE: a 32-bit write, or a 64-bit one (12 R265). -/
def execRegisterWrite (off : BitVec 24) (wide : Bool) (v : BitVec 64) (s : State) : Host.Outcome State Fault Refusal :=
  .next
    (let a := off.toNat
     if running s = false then s
     else if a % (if wide then 8 else 4) ≠ 0 then reservedWrite a (if wide then 8 else 4) s
     else if !wide then writeReg a (BitVec.ofNat 64 (bitsNat v 0 32)) s
     else if pairOf32 a then
       writeReg (a + 4) (BitVec.ofNat 64 (bitsNat v 32 32)) (writeReg a (BitVec.ofNat 64 (bitsNat v 0 32)) s)
     else writeReg a v s)

/-! ### Function Level Reset and PERST (12 R284, 14 R345, 19 R430, R431) -/

/-- A descriptor interrupted by the reset: ABORTED, reason 11, until the channel is set up again; one that was final
keeps its outcome (14 R340, R345). -/
def interruptDesc (c : Nat) (d : Desc) (s : State) : State :=
  if h : c < 16 then
    let x := s.dma.ch[c]
    let d1 : Desc := if d.st = .final then d
      else { d with st := .final, status := BitVec.ofNat 16 stAborted, reason := 11 }
    let s1 := { s with dma := { s.dma with ch := s.dma.ch.set c { x with stoppedDescs := x.stoppedDescs ++ [d1] } } }
    if d.st = .final then s1 else raise 0x0512 .host (detail [du 8 c]) s1
  else s

/-- Every unreleased descriptor of a channel is interrupted (14 R345). -/
def interruptDescs (c : Nat) : List Desc → State → State
  | [], s => s
  | d :: t, s => interruptDescs c t (interruptDesc c d s)

/-- Channels are stopped at a native-word boundary with their progress (12 R284, 14 R345). -/
def stopChannels : List Nat → State → State
  | [], s => s
  | c :: t, s =>
    if h : c < 16 then
      let l := s.dma.ch[c].descs
      stopChannels t (interruptDescs c l
        { s with dma := { s.dma with ch := s.dma.ch.set c { s.dma.ch[c] with descs := [], paced := false } } })
    else stopChannels t s

/-- DMA channels stop, and the faults outstanding on them are discarded (12 R284, 14 R345, R349). -/
def stopDma (s : State) : State :=
  let s1 := { s with dma := { s.dma with
    faults := s.dma.faults.filter (fun f => decide (16 ≤ f.ctx))
    waiting := s.dma.waiting.filter (fun f => decide (16 ≤ f.ctx)) } }
  stopChannels (List.range 16) s1

/-- A ring as a Function Level Reset leaves it (12 R276, R284). -/
def Ring.disabled (r : Ring) : Ring :=
  { r with cfg := r.cfg &&& ~~~(1#64), st := 0, full := false, coal := 0, stalled := false }

/-- The host functions are reset: rings, MSI-X table and WIN_STAGE (12 R284). -/
def resetFunction (s : State) : State :=
  { s with win := { s.win with
      rings := s.win.rings.map Ring.disabled
      msix := Win.init.msix
      pba := 0
      window := 0
      stageEn := false } }

/-- FUNCTION_LEVEL_RESET (12 R284, 14 R345, 19 R430, R432). -/
def execFunctionLevelReset (s : State) : Host.Outcome State Fault Refusal :=
  .next
    (if running s then
       resetOccurred 6 6 (ltNow s)
         (recordReset 6 6 0 (stat (sk 0x01010001 0x201) (resetFunction (stopDma s))))
     else s)

/-- The host window after PERST: its registers at their reset values, but for what mirrors other state, and the results
that wait (12 R266, R267, 19 R431). -/
def Win.afterPerst (w : Win) : Win :=
  { Win.init with fwVer := w.fwVer, resultWait := w.resultWait }

/-- PERST (19 R430, R431): the HOST domain only. Event and set counters and the WIN registers are lost. -/
def execPerst (s : State) : Host.Outcome State Fault Refusal :=
  .next
    (if running s then
       let s1 := stopDma s
       resetOccurred 7 6 (ltNow s)
         (recordReset 7 6 0 { s1 with
           win := s1.win.afterPerst
           evt := { s1.evt with count := [], limit := [] }
           aper := { object := 0, bytes := [], gen := 0 }
           stats := s1.stats.filter (fun x => x.1 / 65536 != 0x01010001) })
     else s)

end Sys2Proof.Machine
end

