-- ==== Sys2Proof/Machine/HbmCmd.lean ====
section
/-! DEFINITION. The HBM controller (17): locations, error detection and the error log, refresh, retraining. -/

namespace Sys2Proof.Machine

/-! ### Locations (17 R392) -/

/-- Where an offset lies (17 R392). -/
structure HbmLoc where
  bg : Nat
  bank : Nat
  col : Nat
  sid : Nat
  row : Nat
  pc : Nat
  deriving DecidableEq, Repr

/-- The location of an offset (17 R392). -/
def hbmLoc (off : Nat) : HbmLoc where
  bg := off / 2048 % 4
  bank := off / 2048 / 4 % 4
  col := off / 2048 / 16 % 32
  sid := off / 2048 / 512 % 3
  row := off / 2048 / 512 / 3
  pc := Nat.xor (off / 32 % 64) (off / 2048 / 512 / 3 % 64)

/-- The physical pseudo-channel of an offset (17 R392). -/
def pcOf (off : Nat) : Fin 64 := ⟨(hbmLoc off).pc % 64, Nat.mod_lt _ (by decide)⟩

/-- Stack of a pseudo-channel (17 R392). -/
def stackOf (p : Fin 64) : Fin 2 := if p.val < 32 then 0 else 1

/-- Key of a statistic of a pseudo-channel (17 R407): 0 reads, 2 activates, 3 neighbor refreshes, 4 + kind corrected,
9 slices done, 10 failed, 11 forced. -/
def pcKey (p : Fin 64) (k : Nat) : Nat := sk 0x01040000 (p.val * 16 + k)

/-- A pseudo-channel replaced. -/
def setPc (p : Fin 64) (x : PseudoCh) (s : State) : State := { s with hbm := { s.hbm with pcs := s.hbm.pcs.set p.val x } }

/-! ### Neighbor refresh (17 R399) -/

/-- One step of the LFSR x^32 + x^22 + x^2 + x + 1 (17 R399; its form is DESIGN CHOICE, unsafe, log 32). -/
def lfsrStep (x : BitVec 32) : BitVec 32 :=
  (x <<< 1) ||| BitVec.ofNat 32 ((b2n (bitAt x 31) + b2n (bitAt x 21) + b2n (bitAt x 1) + b2n (bitAt x 0)) % 2)

/-- Rows r - 1 and r + 1, as far as they exist (17 R399). -/
def neighbors (r : Nat) : Nat := (if r = 0 then 0 else 1) + (if 16383 ≤ r then 0 else 1)

/-- An activate of a row: the LFSR steps, and with its low k bits zero the neighbors are refreshed (17 R399). -/
def activateRow (p : Fin 64) (r : Nat) (s : State) : State :=
  let x := lfsrStep (s.hbm.pcs[p]).lfsr
  let s1 := stat (pcKey p 2) (setPc p { s.hbm.pcs[p] with lfsr := x } s)
  if x.toNat % 2 ^ s.cfg.act.nrrK = 0 then statAdd (pcKey p 3) (neighbors r) s1 else s1

/-! ### Errors (17 R396, R397, R403, R404) -/

/-- The 32-byte record of an error (17 R404), `n` errors of its kind counted. -/
def errorRec (off kind sev syndrome req : Nat) (rmw : Bool) (n : Nat) (s : State) : BitVec 256 :=
  let l := hbmLoc off
  let w0 := packFields [(0, 36, off), (48, 6, l.pc), (54, 2, l.sid), (56, 4, 4 * l.bg + l.bank), (60, 3, kind),
    (63, 1, b2n rmw), (64, 14, l.row), (78, 5, l.col), (88, 8, req), (96, 32, (ftNow s).toNat)]
  let w1 := packFields [(0, 9, syndrome), (9, 3, sev), (32, 32, (ltNow s).toNat), (64, 64, n)]
  BitVec.ofNat 256 (w0 + w1 * 2 ^ 128)

/-- Errors of a kind are counted (17 R404). -/
def countKind (kind : Fin 6) (s : State) : State :=
  { s with hbm := { s.hbm with kindCnt := s.hbm.kindCnt.set kind.val (s.hbm.kindCnt[kind] + 1) } }

/-- A corrected error: entered in the log, one event record per stack per millisecond (17 R397, R404). -/
def corrected (p : Fin 64) (kind : Fin 6) (rec : BitVec 256) (s : State) : State :=
  raiseLimited (0x014000 + (stackOf p).val) 0x0140 .mem 0
    (stat (pcKey p (4 + kind.val)) { s with hbm := { s.hbm with log := (rec :: s.hbm.log).take 255 } })

/-- An uncorrectable error: the controller freezes, a slice ends, the record is kept, HOLD (17 R403, R404, R406). -/
def uncorrectable (rec : BitVec 256) (s : State) : State :=
  let s1 := { s with
    hbm := { s.hbm with
      frozen := true
      frozenRec := match s.hbm.frozenRec with
        | some r => some r
        | none => some rec
      pcs := s.hbm.pcs.map (fun x => { x with slice := false }) }
    nor := { s.nor with frozen := rec :: s.nor.frozen } }
  enterHold 1 (bitsNat rec 0 64) (raise 0x0141 .mem (bitsOf rec 0 128) s1)

/-- The kind of error a read meets: as found, or as injected by faults 2 and 3 (13 R322, 17 R405). -/
def readKind (kind : Fin 6) (s : State) : Fin 6 × State :=
  match injected 3 (fun _ => true) s with
  | (true, s1) => (3, s1)
  | (false, s1) =>
    match injected 2 (fun _ => true) s1 with
    | (true, s2) => (if kind = 0 then 1 else kind, s2)
    | (false, s2) => (kind, s2)

/-- An error of a kind is entered: 0 none, 1 and 2 corrected, 3 to 5 uncorrectable (17 R396, R404). -/
def enterError (off : Nat) (kind : Fin 6) (sev syndrome req : Nat) (rmw : Bool) (s : State) : State :=
  if kind = 0 then s
  else
    let s1 := countKind kind s
    let e := errorRec off kind.val sev syndrome req rmw (s1.hbm.kindCnt[kind]).toNat s1
    if kind.val ≤ 2 then corrected (pcOf off) kind e s1 else uncorrectable e s1

/-- HBM_READ_COMPLETE (17 R396, R397, R399, R403): an activate and a burst of a native word, checked. -/
def execHbmReadComplete (off : BitVec 36) (kind : Fin 6) (sev : BitVec 3) (syndrome : BitVec 9) (req : BitVec 8)
    (rmw : Bool) (s : State) : Host.Outcome State Fault Refusal :=
  .next
    (let a := off.toNat - off.toNat % 16
     if memWorks s = false ∨ hbmSize ≤ a then s
     else
       let p := pcOf a
       let s1 := activateRow p (hbmLoc a).row (stat (pcKey p 0) s)
       let s2 := if rmw then stat (sk 0x01040000 (0x400 + (stackOf p).val)) s1 else s1
       let r := readKind kind s2
       enterError a r.1 sev.toNat syndrome.toNat req.toNat rmw r.2)

/-! ### Refresh and temperature (17 R398) -/

/-- HBM_REFRESH: per-bank refresh keeps contents, and changes no state of this model; it goes on while the controller is
frozen, and falls due before a slice, not within it (17 R398, R401). -/
def execHbmRefresh (_ : Fin 64) (s : State) : Host.Outcome State Fault Refusal := .next s

/-- A temperature in s13.3 (17 R398). -/
def tempOf (t : BitVec 16) : Int := t.toInt

/-- One stack's reading: refresh doubled above 85 degrees; HBM_TEMP_HIGH, armed again below 80 (17 R398). -/
def stackTemp (k : Fin 2) (t : BitVec 16) (s : State) : State :=
  let high := decide (680 < tempOf t)
  let s1 := { s with hbm := { s.hbm with
    temp := s.hbm.temp.set k.val t
    doubled := s.hbm.doubled.set k.val high
    hotRaised := s.hbm.hotRaised.set k.val ((s.hbm.hotRaised[k] || high) && !decide (tempOf t < 640)) } }
  if high && !s.hbm.hotRaised[k] then raise 0x0144 .mem 0 s1 else s1

/-- A pseudo-channel whose stack's temperature has moved by 5 degrees or more since its training is due sooner
(17 R401). -/
def markDue (s : State) : State :=
  { s with hbm := { s.hbm with pcs := Vector.ofFn (fun p =>
      let x := s.hbm.pcs[p]
      let d := tempOf s.hbm.temp[stackOf p] - tempOf x.tempAt
      { x with due := x.due || decide (40 ≤ d ∨ d ≤ -40) }) } }

/-- HBM_TEMP_READ (17 R398, R401). -/
def execHbmTempRead (t0 t1 : BitVec 16) (s : State) : Host.Outcome State Fault Refusal :=
  .next (if domOn s .mem ∨ (running s ∧ s.pm.mode = .hold) then markDue (stackTemp 1 t1 (stackTemp 0 t0 s)) else s)

/-! ### Retraining (17 R401, R402) -/

/-- Pseudo-channel `p` may enter a slice: no other one of its stack is in one (17 R401). -/
def sliceFree (s : State) (p : Fin 64) : Bool :=
  memWorks s && (List.finRange 64).all (fun q => stackOf q != stackOf p || !(s.hbm.pcs[q]).slice)

/-- HBM_RETRAIN_SLICE_START (17 R401). -/
def execHbmRetrainSliceStart (p : Fin 64) (s : State) : Host.Outcome State Fault Refusal :=
  .next (if sliceFree s p then setPc p { s.hbm.pcs[p] with slice := true } s else s)

/-- HBM_RETRAIN_FORCED: a slice deferred for 10 ms starts regardless (17 R402). -/
def execHbmRetrainForced (p : Fin 64) (s : State) : Host.Outcome State Fault Refusal :=
  .next
    (if sliceFree s p then
       raise 0x0143 .mem 0 (stat (pcKey p 11) (setPc p { s.hbm.pcs[p] with slice := true } s))
     else s)

/-- HBM_RETRAIN_SLICE_END: an eye of at least 0.35 UI takes effect; a narrower one is dropped, and the next slice comes
100 ms later (17 R402). -/
def execHbmRetrainSliceEnd (p : Fin 64) (eye : BitVec 16) (s : State) : Host.Outcome State Fault Refusal :=
  .next
    (let x := s.hbm.pcs[p]
     if memWorks s = false ∨ x.slice = false then s
     else if 350 ≤ eye.toNat then
       stat (pcKey p 9) (setPc p { x with
         slice := false
         trained := ftNow s
         tempAt := s.hbm.temp[stackOf p]
         eye := eye
         due := false } s)
     else
       raise 0x0142 .mem (detail [du 8 p.val, du 16 eye.toNat])
         (stat (pcKey p 10) (setPc p { x with slice := false, eye := eye, due := true } s)))

end Sys2Proof.Machine
end

