-- ==== Sys2Proof/Machine/PowerCmd.lean ====
section
/-! DEFINITION. Events of modes, supplies, temperature and resets (19 R422-R437, 22 R469, R474). -/

namespace Sys2Proof.Machine

/-! ### Mode changes (19 R422, R423) -/

/-- The change powers a domain up. -/
def powersUp (old new : Mode) : Bool :=
  Domain.all.any (fun d => !(domainState old d == .on) && domainState new d == .on)

/-- The change in progress may complete now: it does not wait for the port, and a calibration run it leaves has ended
(19 R422). -/
def changeReady (s : State) : Bool :=
  running s && s.pm.changing && !s.pm.claimWait && !(s.pm.mode == .calibrate && s.cal.st == 2)

/-- MODE_CHANGE_DONE (19 R422, R423): the new mode is entered, or a domain failed to power up. -/
def execModeChangeDone (failed : Bool) (bad : BitVec 6) (tUs : BitVec 32) (s : State) :
    Host.Outcome State Fault Refusal :=
  .next
    (if changeReady s = false then s
     else if failed && powersUp s.pm.mode s.pm.target then failMode stFault 11 s
     else completeChange bad tUs.toNat s)

/-- HEARTBEAT_TICK (12 R267): the firmware counts while FW_STATE is 1 to 3. -/
def execHeartbeatTick (s : State) : Host.Outcome State Fault Refusal :=
  .next
    (if running s ∧ s.pm.fwState ≠ 0 then { s with win := { s.win with heartbeat := s.win.heartbeat + 1 } } else s)

/-! ### Supplies (19 R426-R428) -/

/-- AON works: RESET_N is high and TEST_EN was low (19 R434, 22 R469). -/
def aonAlive (s : State) : Bool := s.pm.held != .resetLow && s.pm.held != .testEn

/-- A rail reads `mv` and is below warning (19 R426, R436). -/
def railDrops (rail : Fin 9) (mv : BitVec 16) (s : State) : State :=
  { s with pm := { s.pm with
      railMv := s.pm.railMv.set rail.val mv
      railMin := s.pm.railMin.set rail.val (if mv < s.pm.railMin[rail] then mv else s.pm.railMin[rail])
      railsLow := s.pm.railsLow ||| BitVec.ofNat 9 (2 ^ rail.val) } }

/-- A change whose precondition is that every rail is above its warning fails (19 R423, R435). -/
def failLowSupply (s : State) : State :=
  if s.pm.changing && ((modePre s.pm.mode s.pm.target).getD []).contains 10 then failMode stBadState 10 s else s

/-- What a falling rail does (19 R427, 22 R483). -/
def railWarns (rail : Fin 9) (mv : BitVec 16) (s : State) : State :=
  let s1 := railDrops rail mv s
  let s2 := setSmb 1 { s1 with pm := { s1.pm with warnings := s1.pm.warnings + 1 } }
  if running s2 = false then s2
  else
    failLowSupply (abortCal (boundaryStop 10
      (setFlag 2 (raise 0x0123 .aon (detail [du 8 rail.val, du 16 mv.toNat]) s2))))

/-- SUPPLY_WARNING (19 R426, R427): once per fall. -/
def execSupplyWarning (rail : Fin 9) (mv : BitVec 16) (s : State) : Host.Outcome State Fault Refusal :=
  .next
    (if aonAlive s = false then s
     else if bitAt s.pm.railsLow rail.val then railDrops rail mv s
     else railWarns rail mv s)

/-- A held reset ends: the start that follows it; THERMAL_TRIP after the restart it caused (19 R428, R429, R434). -/
def endHeldReset (b : BootIn) (s : State) : State :=
  let trigger := s.pm.heldKind / 16
  let s1 := startUp (s.pm.heldKind % 16) trigger .recovery b { s with pm := { s.pm with held := .no } }
  if trigger = 4 then raise 0x0126 .aon 0 s1 else s1

/-- The voltages of rails that have recovered: above warning, and no value given (19 R427; DESIGN CHOICE, safe, log 7). -/
def recoverRails (s : State) : State :=
  { s with
    free := s.free + 9
    pm := { s.pm with
      railMv := Vector.ofFn (fun i =>
        if bitAt s.pm.railsLow i.val then bitsOf (Config.freeValue (s.free + i.val)) 0 16 else s.pm.railMv[i])
      railsLow := 0
      recoveries := s.pm.recoveries + 1 } }

/-- SUPPLY_RECOVERED (19 R427, R428): every rail is above warning; a reset that the supplies hold ends. -/
def execSupplyRecovered (b : BootIn) (s : State) : Host.Outcome State Fault Refusal :=
  .next
    (if aonAlive s = false ∨ s.pm.railsLow = 0 then s
     else
       let s1 := recoverRails s
       match s.pm.held with
       | .no => raise 0x0124 .aon 0 s1
       | .supply => endHeldReset b s1
       | _ => s1)

/-- RAIL_RESET_TRIP (19 R428): a supply reset, held until every rail is above warning; for VDD_AON a power-on reset. A trip
during a reset that is already held prolongs it. -/
def execRailResetTrip (rail : Fin 9) (mv : BitVec 16) (s : State) : Host.Outcome State Fault Refusal :=
  .next
    (if aonAlive s = false then s
     else
       let s1 := railDrops rail mv s
       if rail.val = 8 then holdReset 5 3 8 .supply s1
       else if running s then holdReset 3 3 rail.val .supply s1
       else s1)

/-! ### Temperature (19 R429) -/

/-- THERMAL_TRIP (19 R429): a reset with the effects of kind 3, held until the die has cooled. -/
def execThermalTrip (s : State) : Host.Outcome State Fault Refusal :=
  .next
    (if running s then
       let s1 := holdReset 3 4 0 .thermal s
       { s1 with pm := { s1.pm with thermalTrips := s1.pm.thermalTrips + 1 } }
     else if s.pm.held = .supply then { s with pm := { s.pm with held := .thermal, thermalTrips := s.pm.thermalTrips + 1 } }
     else s)

/-- THERMAL_RESET_RELEASE (19 R429): the die reads 95 degrees or less; a rail below warning holds the reset on. -/
def execThermalResetRelease (b : BootIn) (s : State) : Host.Outcome State Fault Refusal :=
  .next
    (if s.pm.held ≠ .thermal then s
     else if s.pm.railsLow ≠ 0 then { s with pm := { s.pm with held := .supply } }
     else endHeldReset b s)

/-! ### Resets (19 R430-R434) -/

/-- WATCHDOG_RESET (19 R433): a firmware restart. -/
def execWatchdogReset (s : State) : Host.Outcome State Fault Refusal :=
  .next
    (if running s ∧ s.pm.fwState ≠ 0 then
       let s1 := resetFirmware 2 s
       raise 0x0127 .aon 0 { s1 with pm := { s1.pm with watchdogResets := s1.pm.watchdogResets + 1 } }
     else s)

/-- POWER_ON_RESET: RESET_N rises (19 R434); TEST_EN high then holds every domain in reset (22 R469). -/
def execPowerOnReset (testEn : Bool) (b : BootIn) (s : State) : Host.Outcome State Fault Refusal :=
  .next
    (if s.pm.held ≠ .resetLow then s
     else if testEn then { s with pm := { s.pm with held := .testEn } }
     else startUp 5 5 .recovery b (recordReset 5 5 0 { s with pm := { s.pm with held := .no } }))

/-- RESET_N_ASSERTED (22 R474, 19 R430): every domain but KEEP is reset; GBLANK is left to its pull-up, SPO released. -/
def execResetNAsserted (s : State) : Host.Outcome State Fault Refusal :=
  .next (if s.pm.held = .resetLow then s else holdReset 5 5 0 .resetLow s)

/-- COMMANDED_RESET_START (13 R300, 19 R430). -/
def execCommandedResetStart (b : BootIn) (s : State) : Host.Outcome State Fault Refusal :=
  .next
    (match s.pm.commandedReset with
     | none => s
     | some kind =>
       if running s = false then s
       else if kind = 1 then resetFirmware 1 s
       else if kind = 2 then resetDatapath s
       else resetDevice kind b s)

/-! ### Causes of HOLD (19 R424) -/

/-- Domain of a table array: beam table, coefficient bank, translation cache, routing table (19 R424, 01 R10). -/
def arrayDomain (a : Fin 4) : Domain :=
  match a with
  | 0 => .seq
  | 1 => .trk
  | 2 => .host
  | 3 => .fab

/-- TABLE_ARRAY_UNCORRECTABLE (19 R424): HOLD with cause 2. -/
def execTableArrayUncorrectable (a : Fin 4) (s : State) : Host.Outcome State Fault Refusal :=
  .next (if domPowered s (arrayDomain a) then enterHold 2 0 s else s)

/-- DOMAIN_POWER_LOSS (19 R424): a domain its mode needs; HOLD with cause 3. -/
def execDomainPowerLoss (d : Fin 12) (s : State) : Host.Outcome State Fault Refusal :=
  .next
    (match Domain.all[d.val]? with
     | some x => if 2 ≤ d.val ∧ domPowered s x then enterHold 3 0 s else s
     | none => s)

end Sys2Proof.Machine
end

