-- ==== Sys2Proof/Machine/CalCmd.lean ====
section
/-! DEFINITION. Calibration (18; 13 R315; 22 R481). -/

namespace Sys2Proof.Machine

/-! ### Limits (18 R411, R412) -/

/-- Tolerance and limit of a quantity of a target in a limits image (18 R412). -/
def calLimits (img : BitVec 512) (target quantity : Nat) : Nat × Nat :=
  let lo :=
    match target with
    | 0 => 64 + 32 * (quantity % 2)
    | 1 => 128 + 32 * (quantity % 2)
    | 2 => 192
    | _ => 224
  (bitsNat img lo 16, bitsNat img (lo + 16) 16)

/-- Units of a target: DACs, ADC channels, die sensors, lanes (18 R409). -/
def calUnits (target : Nat) : Nat :=
  match target with
  | 0 => 4
  | 1 => 8
  | 2 => 16
  | _ => 80

/-- Quantities of a unit of a target (18 R409). -/
def calQuantities (target : Nat) : Nat := if target ≤ 1 then 2 else 1

/-- Units and quantities of a target, in order. -/
def calItems (target : Nat) : List (Nat × Nat) :=
  (List.range (calUnits target)).flatMap (fun u => (List.range (calQuantities target)).map (fun q => (u, q)))

/-- The first check of R412 that an image fails (18 R412). -/
def limitsBad (b : List Byte) : Option Nat :=
  let img := BitVec.ofNat 512 (leNat b)
  if bitsNat img 0 32 ≠ 0x4C4C4143 ∨ bitsNat img 32 16 ≠ 1 ∨ bitsNat img 480 32 ≠ (crc32c (b.take 60)).toNat then some 1
  else if bitsNat img 48 16 ≠ 0 ∨ bitsNat img 256 224 ≠ 0 then some 2
  else if [(0, 0), (0, 1), (1, 0), (1, 1), (2, 0), (3, 0)].any (fun x =>
      let l := calLimits img x.1 x.2
      decide (l.1 < 1 ∨ l.2 < l.1)) then some 3
  else none

/-- CAL_SET_LIMITS. -/
def cmdCalSetLimits : Cmd :=
  { op := 0x0802, masks := [refMask], modes := [.ready, .calibrate], needs := [], service := false }

/-- CAL_SET_LIMITS (18 R412); it waits for a run (18 R418). -/
def execCalSetLimits (e : Entry) (s : State) : Host.Outcome State Fault Refusal :=
  .next
    (takeUp cmdCalSetLimits e (s.cal.st != 0) (fun w t =>
      match readBuffer e (Entry.arg e 0) (fun n => n == 64) t with
      | (.error r, t1) => finish w r.1 r.2 [] t1
      | (.ok b, t1) =>
        match limitsBad b with
        | some n => finish w stBadArg n [] (raise 0x0815 .trk 0 t1)
        | none =>
          finish w stOk 0 [] (raise 0x0814 .trk 0
            { t1 with cal := { t1.cal with limits := BitVec.ofNat 512 (leNat b) } })) s)

/-! ### CAL_RUN and CAL_STATUS (13 R315) -/

/-- CAL_RUN. -/
def cmdCalRun : Cmd :=
  { op := 0x0800, masks := [bits 0 5], modes := [.ready, .expose, .calibrate], needs := [.trk], service := false }

/-- CAL_RUN (13 R315, 18 R414): it asks for the run, which CAL_RUN_START begins. -/
def execCalRun (e : Entry) (s : State) : Host.Outcome State Fault Refusal :=
  .next
    (takeUp cmdCalRun e (s.cal.st != 0) (fun w t =>
      let a := Entry.arg e 0
      if t.pm.mode = .expose ∧ bitAt a 4 = false then finish w stBadState 1 [] t
      else if bitsNat a 0 4 = 0 then finish w stBadArg 2 [] t
      else wait w .calRun { t with cal := { t.cal with st := 1, targets := bitsOf a 0 4, item := none } }) s)

/-- CAL_STATUS. -/
def cmdCalStatus : Cmd := { op := 0x0801, masks := [], modes := allButRec, needs := [], service := true }

/-- CAL_STATUS (13 R315). -/
def execCalStatus (e : Entry) (s : State) : Host.Outcome State Fault Refusal :=
  .next
    (takeUp cmdCalStatus e false (fun w t =>
      finish w stOk 0
        [word [(0, 32, t.cal.count.toNat), (32, 32, t.cal.pt.toNat), (64, 32, t.cal.ft.toNat),
           (96, 4, t.cal.accepted.toNat), (100, 4, t.cal.failedMask.toNat)],
         word [(0, 32, t.cal.failures.toNat)]] t) s)

/-! ### The run (18 R408-R416) -/

/-- The run's point is reached: at once in READY and CALIBRATE, with the sequencer IDLE or FILLING in EXPOSE (18 R414). -/
def calPoint (s : State) : Bool :=
  match s.pm.mode with
  | .ready | .calibrate => true
  | .expose => s.seq.st == .idle || s.seq.st == .filling
  | _ => false

/-- I_R lies in 600-650 µA (18 R408). -/
def refOk (na : Nat) : Bool := decide (600000 ≤ na ∧ na ≤ 650000)

/-- The four DAC outputs carry 0 mA (18 R415). -/
def zeroDacs (s : State) : State := [0, 1, 2, 3].foldl (fun t d => emit (.dac d 0) t) s

/-- CAL_RUN_START (18 R408, R414, R415). -/
def execCalRunStart (na : Nat) (s : State) : Host.Outcome State Fault Refusal :=
  .next
    (if s.cal.st ≠ 1 ∨ domOn s .trk = false ∨ calPoint s = false then s
     else
       let s1 := { s with cal := { s.cal with
         st := 2
         iRef := na
         adc := if bitAt s.cal.targets 1 then s.cal.adc.map (fun x => (x.1, true, x.2.2)) else s.cal.adc } }
       let s2 := if calDacs s1 then zeroDacs s1 else s1
       if refOk na then s2 else raise 0x0812 .trk 0 s2)

/-- The two measurements of a quantity. -/
def measOf (l : List CalMeas) (target unit quantity : Nat) : Int × Int :=
  match l.find? (fun m => m.target.val == target && m.unit == unit && m.quantity == quantity) with
  | some m => (m.a, m.b)
  | none => (0, 0)

/-- Why a quantity does not pass: 1 disagreement, 2 implausible (18 R411). -/
def measBad (tol lim : Nat) (a b : Int) : Option Nat :=
  if tol < (a - b).natAbs then some 1
  else if lim < a.natAbs ∨ lim < b.natAbs then some 2
  else none

/-- The new value: (a + b) / 2, ties toward zero (18 R411). -/
def calMean (a b : Int) : Int := Int.tdiv (a + b) 2

/-- A quantity of a target that did not pass: unit, quantity, a, b and cause (18 R411). -/
structure CalFail where
  unit : Nat
  quantity : Nat
  a : Int
  b : Int
  cause : Nat
  deriving DecidableEq, Repr

/-- What fails a target: a reference fault, or its first quantity that does not pass (18 R408, R411). -/
def targetFail (s : State) (l : List CalMeas) (target : Nat) : Option CalFail :=
  if refOk s.cal.iRef = false then some { unit := 0, quantity := 0, a := 0, b := 0, cause := 3 }
  else
    (calItems target).findSome? (fun x =>
      let lim := calLimits s.cal.limits target x.2
      let m := measOf l target x.1 x.2
      (measBad lim.1 lim.2 m.1 m.2).map (fun c =>
        ({ unit := x.1, quantity := x.2, a := m.1, b := m.2, cause := c } : CalFail)))

/-- CAL_TARGET_FAILED (18 R411). -/
def raiseTarget (target : Nat) (f : CalFail) (s : State) : State :=
  raise 0x0811 .trk (detail [du 8 target, du 8 f.unit, du 8 f.quantity, ds 32 f.a, ds 32 f.b, du 8 f.cause]) s

/-- Accepted values of a target: those of targets 0-2 replace the old ones, swing trims wait for the link (18 R415). -/
def acceptTarget (l : List CalMeas) (target : Nat) (s : State) : State :=
  let new := (calItems target).map (fun x =>
    let m := measOf l target x.1 x.2
    (target, x.1, x.2, calMean m.1 m.2))
  if target = 3 then { s with cal := { s.cal with swing := new } }
  else { s with cal := { s.cal with values := new ++ s.cal.values.filter (fun v => v.1 != target) } }

/-- Judge the targets of the run in order: the state, the accepted and the failed mask (18 R411). -/
def judgeTargets (l : List CalMeas) : List Nat → State × Nat × Nat → State × Nat × Nat
  | [], x => x
  | t :: ts, (s, acc, bad) =>
    if bitAt s.cal.targets t = false then judgeTargets l ts (s, acc, bad)
    else
      match targetFail s l t with
      | some f => judgeTargets l ts (raiseTarget t f s, acc, bad + 2 ^ t)
      | none => judgeTargets l ts (acceptTarget l t s, acc + 2 ^ t, bad)

/-- Step 6: counts, stamps and masks, the DACs back at their codes, and CAL_DONE (18 R415, R416). -/
def closeRun (l : List CalMeas) (acc bad : Nat) (s : State) : State :=
  let s1 := { s with cal := { s.cal with
    st := 0
    item := none
    last := l
    count := s.cal.count + 1
    failures := if bad = 0 then s.cal.failures else s.cal.failures + 1
    pt := ptNow s
    ft := ftNow s
    accepted := BitVec.ofNat 4 acc
    failedMask := BitVec.ofNat 4 bad } }
  raise 0x0810 .trk (detail [du 32 s1.cal.count.toNat, du 8 acc, du 8 bad]) (if calDacs s then showDacs s1 else s1)

/-- The command or item that asked for the run ends (18 R416). -/
def settleRun (item : Option (BitVec 8 × BitVec 64)) (bad : Nat) (s : State) : State :=
  match item with
  | some (f, q) =>
    activateTables (if bad = 0 then doneItem f q 0 s else failItem f q stFault bad s)
  | none =>
    settle (fun w => if w.on = .calRun then some (if bad = 0 then stOk else stFault, bad, calWords s) else none) s

/-- CAL_DONE (18 R416): step 6 is reached. -/
def execCalDone (l : List CalMeas) (s : State) : Host.Outcome State Fault Refusal :=
  .next
    (if s.cal.st ≠ 2 ∨ domOn s .trk = false then s
     else
       let r := judgeTargets l [0, 1, 2, 3] (s, 0, 0)
       settleRun s.cal.item r.2.2 (closeRun l r.2.1 r.2.2 r.1))

/-! ### The monitor ADC (18 R410, 22 R481) -/

/-- A corrected reading of ADC channel `ch`, saturated to 16 bits (18 R410). -/
def adcValue (s : State) (ch : Nat) (code : Int) : Int :=
  let k := divTu (2 ^ 24 * 10 ^ 6) (10 ^ 6 + calValue s 1 ch 0)
  clampInt (-32768) 32767 (((code - calValue s 1 ch 1) * k + 2 ^ 23) / 2 ^ 24)

/-- MONITOR_ADC_SAMPLE (22 R481): the corrected reading and its LT stamp; readings stop while a run measures the ADC
(18 R415). -/
def execMonitorAdcSample (ch : Fin 8) (rawCode : BitVec 16) (s : State) : Host.Outcome State Fault Refusal :=
  .next
    (if domOn s .trk = false ∨ (s.cal.st = 2 ∧ bitAt s.cal.targets 1) then s
     else { s with cal := { s.cal with adc := s.cal.adc.set ch.val (adcValue s ch.val rawCode.toInt, false, ltNow s) } })

end Sys2Proof.Machine
end

