-- ==== Sys2Proof/Machine/Track.lean ====
section
/-! DEFINITION. The arithmetic of the tracking engine: block-floating stages and coefficient banks (09 R205-R209), the line
position and the motion model (09 R203, R212). -/

namespace Sys2Proof.Machine

/-! ### Exact values (09 R205 rule 1) -/

/-- An exact value n · 2^k. -/
abbrev Dy := Int × Int

/-- The value as a multiple of 2^k, to nearest with ties toward zero (09 R205 rule 2). -/
def dyTo (x : Dy) (k : Int) : Int :=
  if k ≤ x.2 then x.1 * (2 ^ (x.2 - k).toNat : Nat) else divTz x.1 (2 ^ (k - x.2).toNat)

/-- An exact sum (09 R205 rule 1). -/
def dyAdd (a b : Dy) : Dy :=
  if a.1 = 0 then b
  else if b.1 = 0 then a
  else
    let k := min a.2 b.2
    (a.1 * (2 ^ (a.2 - k).toNat : Nat) + b.1 * (2 ^ (b.2 - k).toNat : Nat), k)

/-- An exact product with a coefficient c · 2^k (09 R205 rule 1). -/
def dyMul (c k : Int) (x : Dy) : Dy := (c * x.1, k + x.2)

/-- An exact comparison. -/
def dyLt (a b : Dy) : Bool := decide ((dyAdd a (-b.1, b.2)).1 < 0)

/-! ### Banks (09 R207, R208) -/

/-- The fields of a stage in a bank image (09 R207). -/
structure Coef where
  b0 : Int
  b1 : Int
  b2 : Int
  a1 : Int
  a2 : Int
  ce : Int
  eMin : Int
  eMax : Int
  eInit : Int
  lo : Int
  hi : Int
  deriving DecidableEq, Repr

/-- Stage `i` of a bank image (09 R207). -/
def coefOf (b : List Byte) (i : Nat) : Coef where
  b0 := blkInt b (1 + 4 * i) 0 24
  b1 := blkInt b (1 + 4 * i) 24 24
  b2 := blkInt b (1 + 4 * i) 48 24
  a1 := blkInt b (1 + 4 * i) 72 24
  a2 := blkInt b (1 + 4 * i) 96 24
  ce := blkInt b (1 + 4 * i) 120 8
  eMin := blkInt b (2 + 4 * i) 0 8
  eMax := blkInt b (2 + 4 * i) 8 8
  eInit := blkInt b (2 + 4 * i) 16 8
  lo := blkInt b (3 + 4 * i) 0 64
  hi := blkInt b (3 + 4 * i) 64 64

/-- h of a bank image, in fine steps (09 R207). -/
def bankH (b : List Byte) : Nat := blk b 0 48 7

/-- Every reserved field of stage `i` is zero (09 R208 check 2). -/
def stageReservedOk (b : List Byte) (i : Nat) : Bool := blk b (2 + 4 * i) 24 104 == 0 && blk b (4 + 4 * i) 0 128 == 0

/-- Stage 0 has no second-order terms; the others have no clamps (09 R208 check 4). -/
def stageRoleOk (b : List Byte) (i : Nat) : Bool :=
  let c := coefOf b i
  if i = 0 then c.b2 == 0 && c.a1 == 0 && c.a2 == 0 else c.lo == 0 && c.hi == 0

/-- The reason of the first check a bank image fails (09 R208). -/
def bankBad (b : List Byte) : Option Nat :=
  let c0 := coefOf b 0
  if blk b 0 0 32 ≠ 0x434B5254 ∨ blk b 0 32 16 ≠ 1 ∨ blk b 0 96 32 ≠ (crc32c (b.take 12 ++ b.drop 16)).toNat then some 1
  else if blk b 0 55 41 ≠ 0 ∨ (List.range 16).all (stageReservedOk b) = false then some 2
  else if (List.range 16).all (fun i => decide ((coefOf b i).eMin ≤ (coefOf b i).eInit ∧ (coefOf b i).eInit ≤ (coefOf b i).eMax))
      = false then some 3
  else if (List.range 16).all (stageRoleOk b) = false then some 4
  else if 0 ≤ c0.lo ∧ c0.lo ≤ c0.hi ∧ c0.hi ≤ 2 ^ 23 ∧ 1 ≤ bankH b ∧ bankH b ≤ 127 then none
  else some 5

/-- The active bank's image. -/
def activeBank (s : State) : List Byte :=
  match s.trk.active with
  | some b => ((s.trk.banks.toList[b]?).bind id).getD []
  | none => []

/-! ### Stages (09 R205, R206) -/

/-- A mantissa fits 24 bits (09 R205). -/
def mantFits (m : Int) : Bool := decide (-8388608 ≤ m ∧ m ≤ 8388607)

/-- A mantissa that does not fit at E_max is clamped (09 R206). -/
def mantClamp (m : Int) : Int := if 8388607 < m then 8388607 else if m < -8388608 then -8388607 else m

/-- The exponent at which all values fit, raised from `e` at most `fuel` times (09 R205 rule 3). -/
def fitExp : Nat → Int → List Dy → Int
  | 0, e, _ => e
  | n + 1, e, v => if v.all (fun x => mantFits (dyTo x (e - 23))) then e else fitExp n (e + 1) v

/-- A value of a stage (09 R205). -/
def Stage.val (st : Stage) (i : Fin 4) : Dy := (st.m[i], st.e - 23)

/-- A stage takes four values: the exponent grows as needed, every mantissa is rounded to it once, and a value that does
not fit at E_max saturates (09 R205, R206). -/
def stageSet (c : Coef) (st : Stage) (v0 v1 v2 v3 : Dy) : Stage :=
  let v := [v0, v1, v2, v3]
  let e := fitExp (c.eMax - st.e).toNat st.e v
  let m (x : Dy) : Int := dyTo x (e - 23)
  { m := #v[mantClamp (m v0), mantClamp (m v1), mantClamp (m v2), mantClamp (m v3)]
    e := e
    sat := !v.all (fun x => mantFits (m x)) }

/-- Shrinking after a sample (09 R205 rule 4). -/
def stageShrink (c : Coef) (st : Stage) : Stage :=
  if c.eMin < st.e ∧ st.m.toList.all (fun m => decide (m.natAbs < 2097152)) then { st with m := st.m.map (2 * ·), e := st.e - 1 }
  else st

/-- A second-order section: y = b0·x + b1·x1 + b2·x2 − a1·y1 − a2·y2 (09 R205). -/
def section_ (c : Coef) (st : Stage) (x : Dy) : Stage :=
  let k := c.ce - 23
  let y := dyAdd (dyMul c.b0 k x) (dyAdd (dyAdd (dyMul c.b1 k (st.val 0)) (dyMul c.b2 k (st.val 1)))
    (dyAdd (dyMul (-c.a1) k (st.val 2)) (dyMul (-c.a2) k (st.val 3))))
  stageSet c st x (st.val 0) y (st.val 2)

/-- A stage replaced; its saturated samples are counted, and the first after a sample without raises TRACK_SATURATED
(09 R206). -/
def setStage (i : Fin 16) (st : Stage) (s : State) : State :=
  let was := (s.trk.stages[i]).sat
  let s1 := { s with trk := { s.trk with stages := s.trk.stages.set i.val st } }
  if st.sat then
    let s2 := stat (sk 0x09010001 (0x100 + i.val)) s1
    if was then s2 else raise 0x0913 .trk (detail [du 8 i.val]) s2
  else s1

/-- A sample of a section: its output, and the state (09 R205, R206). -/
def runSection (bank : List Byte) (i : Fin 16) (x : Dy) (s : State) : Dy × State :=
  let c := coefOf bank i.val
  let st := section_ c s.trk.stages[i] x
  (st.val 2, setStage i (stageShrink c st) s)

/-- Three sections in a row, from stage `i` (09 R207). -/
def runChain (bank : List Byte) (i : Nat) (x : Dy) (s : State) : Dy × State :=
  let r1 := runSection bank ⟨i % 16, Nat.mod_lt _ (by decide)⟩ x s
  let r2 := runSection bank ⟨(i + 1) % 16, Nat.mod_lt _ (by decide)⟩ r1.1 r1.2
  runSection bank ⟨(i + 2) % 16, Nat.mod_lt _ (by decide)⟩ r2.1 r2.2

/-- w + Ki·ef, and whether the clamp acts: the value that w takes (09 R203, R206). -/
def clampW (c : Coef) (w : Dy) : Dy × Bool :=
  if dyLt w (c.lo, -24) then ((c.lo, -24), true)
  else if dyLt (c.hi, -24) w then ((c.hi, -24), true)
  else (w, false)

/-- The integrator's sample: stage 0 takes clamp(w + Ki·ef) (09 R203, R206). -/
def integrate (bank : List Byte) (ef : Dy) (s : State) : State :=
  let c := coefOf bank 0
  let st := s.trk.stages[(0 : Fin 16)]
  let w := clampW c (dyAdd (st.val 0) (dyMul c.b0 (c.ce - 23) ef))
  let st1 := stageSet c st w.1 (0, 0) (0, 0) (0, 0)
  setStage 0 { st1 with sat := st1.sat || w.2 } s

/-- om = clamp(w + Kp·ef, 0, 2^23) in s40.24 (09 R203). -/
def frequency (bank : List Byte) (ef : Dy) (s : State) : Int :=
  let c := coefOf bank 0
  clampInt 0 8388608 (dyTo (dyAdd ((s.trk.stages[(0 : Fin 16)]).val 0) (dyMul c.b1 (c.ce - 23) ef)) (-24))

/-! ### Swapping banks (09 R209) -/

/-- A stage carried into new limits: the exponent clamped, the mantissas rounded to it (09 R209). -/
def carryStage (c : Coef) (st : Stage) : Stage :=
  let e := min (max st.e c.eMin) c.eMax
  let m := st.m.map (fun x => dyTo (x, st.e - 23) (e - 23))
  { m := m.map mantClamp, e := e, sat := st.sat || !m.toList.all mantFits }

/-- w stands at a clamp of the bank, as the stage's format rounds it (09 R209). -/
def atClamp (c : Coef) (st : Stage) (v : Int) : Bool := st.m[(0 : Fin 4)] == dyTo (v, -24) (st.e - 23) && decide (c.eMin ≤ st.e)

/-- Stage 0 carried over: a w at a clamp is set to the same clamp of the new bank, any other is clamped (09 R209). -/
def carryW (old new : Coef) (st : Stage) : Stage :=
  let st1 := carryStage new st
  let put (v : Dy) (sat : Bool) : Stage := { stageSet new st1 v (0, 0) (0, 0) (0, 0) with sat := sat }
  if atClamp old st old.lo then put (new.lo, -24) true
  else if atClamp old st old.hi then put (new.hi, -24) true
  else put (clampW new (st1.val 0)).1 st1.sat

/-- The stages under a new bank (09 R209). -/
def carryStages (old new : List Byte) (v : Vector Stage 16) : Vector Stage 16 :=
  Vector.ofFn (fun i => if i = 0 then carryW (coefOf old 0) (coefOf new 0) v[i] else carryStage (coefOf new i.val) v[i])

/-- The engine runs: ACQUIRING or LOCKED (09 R210). -/
def engineOn (s : State) : Bool := s.trk.st == .acquiring || s.trk.st == .locked

/-- C2 of TRACK_SET_COEFFS (13 R316). -/
def activeWord (s : State) : List W128 := [word [(0, 1, s.trk.active.getD 0)]]

/-- A swap takes effect at a sample boundary (09 R209): the event, and the command that waits for it. -/
def swapBank (b : Nat) (s : State) : State :=
  let old := activeBank s
  let s1 := { s with trk := { s.trk with active := some b, swap := none } }
  let stages := if s.trk.active.isSome ∧ engineOn s then carryStages old (activeBank s1) s.trk.stages else s.trk.stages
  let s2 := raise 0x0914 .trk (detail [du 8 b, dflag (stages[(0 : Fin 16)]).sat])
    (stat (sk 0x09010001 6) { s1 with trk := { s1.trk with stages := stages } })
  settle (fun w => if w.on = .swap b then some (stOk, 0, activeWord s2) else none) s2

/-- The swap that waits for this sample boundary (09 R209). -/
def swapNow (s : State) : State :=
  match s.trk.swap with
  | some b => swapBank b s
  | none => s

/-! ### Lines and the model (09 R203, R212) -/

/-- λ of a channel in a frame: floor(dir · (p − p0) · scale / 2^16), differences modulo 2^48 (09 R200, R203). -/
def lamIn (s : State) (c : Fin 4) (p0 dir p : Int) : Int :=
  asr (dir * signedNat 48 (raw 48 (p - p0)) * (posScale s.cfg.act.posCfg[c] : Int)) 16

/-- λ of a channel at its present position, in the present frame. -/
def lamNow (s : State) (c : Fin 4) : Int := lamIn s c s.trk.p0 s.trk.dir (s.trk.ch[c]).pos

/-- The line under the field 1,000 ns after a sample (09 R203). -/
def leadLine (s : State) (lam : Int) : Int := lam + asr (s.trk.om * s.trk.lead) 16

/-- `lead` of a channel (09 R203). -/
def phaseLead (s : State) (c : Fin 4) : Int := ((1000 + posLat s.cfg.act.posCfg[c]) * 65536 + 50) / 100

/-- Setpoint `i` back from the newest; the oldest known before it. -/
def setpoint (s : State) (i : Nat) : Int × Int := (s.scan.hist[i]?).getD (s.scan.hist.getLast?.getD (0, 0))

/-- The setpoint path 100-fold, `u` samples after the start of the present interval: interpolated between setpoints
(09 R212; DESIGN CHOICE, unsafe, log 33). -/
def pathAt (s : State) (f : Int × Int → Int) (u : Int) : Int :=
  let q := u / 100
  let r := u % 100
  f (setpoint s (1 - q).toNat) * (100 - r) + f (setpoint s (-q).toNat) * r

/-- Samples since the start of the present 10 µs interval (09 R203, 10 R228). -/
def phase (s : State) : Int := (s.trk.samples % 100 : Nat)

/-- The motion model holds: enabled, and this device is the scan holder (09 R213). -/
def modelOn (s : State) : Bool := s.cfg.act.modelEnable == 1 && scanHolder s && !s.scan.hist.isEmpty

/-- p_m in counts (09 R212). -/
def modelCount (s : State) : Int :=
  s.scan.pHome + divTz (pathAt s (·.1) (phase s - s.cfg.act.modelDelay) * (2 ^ 36 : Nat)) (scanScale s * 100)

/-- λ − λ of p_m (09 R212, R213); 0 without a model. -/
def deviation (s : State) : Int :=
  match scanChannel s with
  | some c => if modelOn s then lamNow s c - lamIn s c s.trk.p0 s.trk.dir (modelCount s) else 0
  | none => 0

end Sys2Proof.Machine
end

