-- ==== Sys2Proof/Machine/TrackCmd.lean ====
section
/-! DEFINITION. The tracking engine: channels, samples, supervision, DACs, and its commands (09; 13 R316, R317). -/

namespace Sys2Proof.Machine

/-! ### Trips (09 R210, R213-R215) -/

/-- The engine goes to LOST: TRACK_LOST with reason, channel, e and the model deviation in fine steps (09 R215). -/
def lose (reason : Nat) (c : Fin 4) (s : State) : State :=
  raise 0x0911 .trk (detail [du 8 reason, du 8 c.val, ds 32 (asr s.trk.e 16), ds 32 (asr (deviation s) 16)])
    (stat (sk 0x09010001 (0x40 + reason))
      { s with trk := { s.trk with st := .lost, fire := none, arming := false, lockRun := 0, feRun := 0 } })

/-- A trip on the scan channel that breaks count continuity ends the homed state, and one of reason 4 a homing run
(10 R226, R239). -/
def tripHome (reason : Nat) (c : Fin 4) (s : State) : State :=
  if scanChannel s = some c then
    let s1 := if reason = 4 then abortHoming 4 0 s else s
    if reason = 4 ∨ reason = 5 then loseHome s1 else s1
  else s

/-- A trip: LOST; a stripe ARMED, RUNNING or ENDING stops immediately with cause 6, and the generator ramps to rest
(09 R215, 10 R232). -/
def trip (reason : Nat) (c : Fin 4) (s : State) : State :=
  let s1 := tripHome reason c (lose reason c s)
  rampStop 2 0 0 (if s.seq.st = .filling then s1 else stopStripe 6 true 2 0 s1)

/-- The channel's role is in use by the armed loop or by a DAC source (09 R202, R214). -/
def roleInUse (s : State) (c : Fin 4) : Bool := channelUsed s c.val

/-- An input fault of a channel trips the engine while it runs (09 R210, R214). -/
def inputFault (reason : Nat) (c : Fin 4) (s : State) : State :=
  if engineOn s && roleInUse s c then trip reason c s else s

/-! ### Channels (09 R200, R201, R214) -/

/-- Key of a statistic of a channel (09 R219): 0 illegal transitions, 1 to 5 bad frames by cause, 6 sequence gaps, 7
warnings, 8 timeouts. -/
def chKey (c : Fin 4) (k : Nat) : Nat := sk 0x09010001 (0x200 + c.val * 16 + k)

/-- A channel replaced. -/
def setChan (c : Fin 4) (x : Channel) (s : State) : State := { s with trk := { s.trk with ch := s.trk.ch.set c.val x } }

/-- A position in a channel's counts, `invert` applied, as a signed 48-bit number (09 R200, R202). -/
def inCounts (s : State) (c : Fin 4) (p : Int) : Int :=
  signedNat 48 (raw 48 (if posInvert s.cfg.act.posCfg[c] then -p else p))

/-- Why a serial frame is not good: 1 sync, 2 CRC, 3 not valid, 4 err, 5 reserved bits (09 R201). -/
def frameBad (f : BitVec 80) : Option Nat :=
  if bitsNat f 0 8 ≠ 0xB5 then some 1
  else if bitsNat f 72 8 ≠ (crc8 ((leBytes 10 f.toNat).drop 1 |>.take 8)).toNat then some 2
  else if bitAt f 64 = false then some 3
  else if bitAt f 66 then some 4
  else if bitsNat f 67 5 ≠ 0 then some 5
  else none

/-- A good frame gives the position (09 R201). -/
def goodFrame (c : Fin 4) (f : BitVec 80) (s : State) : State :=
  let x := s.trk.ch[c]
  let q : BitVec 8 := bitsOf f 8 8
  let gap := x.seq.any (fun o => decide (q ≠ o + 1))
  let s1 := if gap then stat (chKey c 6) s else s
  let s2 := if bitAt f 65 then stat (chKey c 7) s1 else s1
  setChan c { x with pos := inCounts s c (signedNat 48 (bitsNat f 16 48)), seq := some q, bad := 0 } s2

/-- A frame that is not good holds the last position; the third in a row is an input fault (09 R214). -/
def badFrame (c : Fin 4) (why : Nat) (s : State) : State :=
  let x := s.trk.ch[c]
  let s1 := stat (chKey c why) (setChan c { x with bad := x.bad + 1 } s)
  if 3 ≤ x.bad + 1 then inputFault 5 c s1 else s1

/-- SERIAL_POSITION_FRAME (09 R201, R214); an injected fault 6 of the channel makes its CRC bad (13 R322). -/
def execSerialPositionFrame (c : Fin 4) (f : BitVec 80) (s : State) : Host.Outcome State Fault Refusal :=
  .next
    (if domOn s .trk = false ∨ posMode s.cfg.act.posCfg[c] ≠ 2 then s
     else
       match injected 6 (fun p => p.toNat == c.val) s with
       | (true, s1) => badFrame c 2 s1
       | (false, s1) =>
         match frameBad f with
         | some why => badFrame c why s1
         | none => goodFrame c f s1)

/-- SERIAL_FRAME_TIMEOUT: 2 µs without a good frame (09 R214). -/
def execSerialFrameTimeout (c : Fin 4) (s : State) : Host.Outcome State Fault Refusal :=
  .next
    (if domOn s .trk = false ∨ posMode s.cfg.act.posCfg[c] ≠ 2 then s
     else inputFault 5 c (stat (chKey c 8) s))

/-- QUADRATURE_ILLEGAL_TRANSITION (09 R200, R214). -/
def execQuadratureIllegalTransition (c : Fin 4) (s : State) : Host.Outcome State Fault Refusal :=
  .next
    (if domOn s .trk = false ∨ posMode s.cfg.act.posCfg[c] ≠ 1 then s
     else inputFault 4 c (stat (chKey c 0) s))

/-- QUADRATURE_EDGE: a valid edge adds or subtracts one count (09 R200, R202). -/
def execQuadratureEdge (c : Fin 4) (up : Bool) (s : State) : Host.Outcome State Fault Refusal :=
  .next
    (if domOn s .trk = false ∨ posMode s.cfg.act.posCfg[c] ≠ 1 then s
     else
       let x := s.trk.ch[c]
       let d : Int := if up != posInvert s.cfg.act.posCfg[c] then 1 else -1
       setChan c { x with pos := signedNat 48 (raw 48 (x.pos + d)) } s)

/-- The search's first index edge: the generator ramps to rest, to return to c_z (10 R238). -/
def foundIndex (c : Fin 4) (s : State) : State :=
  match s.scan.homing with
  | some h =>
    if h.phase = 0 ∧ scanChannel s = some c then
      let p := profileBytes s
      { s with scan := { s.scan with
          homing := some { h with phase := 1, index := (s.trk.ch[c]).pos }
          move := some { params := [1, s.scan.pos, s.scan.vel, s.scan.acc, profA p, profJ p], target := 0 }
          k := 0 } }
    else s
  | none => s

/-- INDEX_PULSE: the rising edge of Z latches the count (09 R200, 10 R238). -/
def execIndexPulse (c : Fin 4) (s : State) : Host.Outcome State Fault Refusal :=
  .next
    (if domOn s .trk = false ∨ posMode s.cfg.act.posCfg[c] ≠ 1 then s
     else foundIndex c (setChan c { s.trk.ch[c] with index := some (s.trk.ch[c]).pos } s))

/-! ### A sample (09 R203, R204, R209-R217) -/

/-- The sample is counted and the positions and model positions of the last 21 samples are kept (09 R213, R219). -/
def countSample (s : State) : State :=
  let s1 := stat (sk 0x09010001 0) { s with trk := { s.trk with
    samples := s.trk.samples + 1
    ch := s.trk.ch.map (fun x => { x with hist := (x.pos :: x.hist).take 21 }) } }
  { s1 with trk := { s1.trk with model := if modelOn s1 then (modelCount s1 :: s1.trk.model).take 21 else [] } }

/-- A new frame of reference is taken at a sample, e kept continuous (09 R203). -/
def takeFrame (s : State) : State :=
  match s.trk.newFrame with
  | none => s
  | some (p0, dir) =>
    let s1 := { s with trk := { s.trk with p0 := p0, dir := dir, newFrame := none } }
    match scanChannel s with
    | none => s1
    | some c =>
      if engineOn s then
        let d := lamNow s1 c - lamNow s c
        { s1 with trk := { s1.trk with phi := s.trk.phi + d, lamHw := s.trk.lamHw + d, lams := s.trk.lams.map (· + d) } }
      else { s1 with trk := { s1.trk with lams := [] } }

/-- w of the first sample after TRACK_ARM: the model velocity, or the mean step of λ over 16 samples (09 R210). -/
def armW (s : State) (c : Fin 4) : Int :=
  if modelOn s then divTz (s.trk.dir * pathAt s (·.2) (phase s) * 256) 10000
  else
    let x := s.trk.ch[c]
    let p := (x.hist[16]?).getD (x.hist.getLast?.getD x.pos)
    Int.tdiv (lamNow s c - lamIn s c s.trk.p0 s.trk.dir p) 16

/-- A stage at its arming exponent with its state zero (09 R210). -/
def armStage (bank : List Byte) (i : Fin 16) : Stage :=
  { m := Vector.replicate 4 0, e := (coefOf bank i.val).eInit, sat := false }

/-- The first sample after TRACK_ARM (09 R210). -/
def armSample (c : Fin 4) (s : State) : State :=
  if s.trk.arming = false then s
  else
    let b := activeBank s
    let c0 := coefOf b 0
    let w := clampInt c0.lo c0.hi (armW s c)
    let z : Vector Stage 16 := Vector.ofFn (armStage b)
    let st := { stageSet c0 z[(0 : Fin 16)] (w, -24) (0, 0) (0, 0) (0, 0) with sat := false }
    let s1 := { s with trk := { s.trk with
      arming := false
      stages := z.set 0 st
      om := clampInt 0 8388608 w
      step := 0
      lamHw := lamNow s c
      lams := []
      excursion := false } }
    { s1 with trk := { s1.trk with phi := leadLine s1 (lamNow s c) } }

/-- Backward jitter is counted (09 R216). -/
def jitter (c : Fin 4) (s : State) : State :=
  let lam := lamNow s c
  let s1 := if s.trk.lams.head?.any (fun l => decide (lam < l)) then stat (sk 0x09010001 4) s else s
  let h : Int := bankH (activeBank s) * 65536
  let s2 :=
    if s.trk.lamHw ≤ lam then { s1 with trk := { s1.trk with lamHw := lam, excursion := false } }
    else if s.trk.excursion = false ∧ lam < s.trk.lamHw - h then
      stat (sk 0x09010001 5) { s1 with trk := { s1.trk with excursion := true } }
    else s1
  { s2 with trk := { s2.trk with lams := (lam :: s2.trk.lams).take 17, e := leadLine s2 lam - s2.trk.phi } }

/-- p_m has moved by more than 4 counts over the last 20 samples (09 R213). -/
def modelMoved (s : State) : Bool :=
  match s.trk.model[0]?, s.trk.model[20]? with
  | some a, some b => decide (4 < (a - b).natAbs)
  | _, _ => false

/-- A scan-role channel whose count has not changed for 20 samples while p_m has moved by more than 4 counts (09 R213). -/
def frozenChannel (s : State) : Option (Fin 4) :=
  if modelMoved s then
    ([0, 1, 2, 3] : List (Fin 4)).find? (fun c =>
      let w := s.cfg.act.posCfg[c]
      let h := (s.trk.ch[c]).hist
      posMode w != 0 && (posRole w == 0 || posRole w == 2) && h.length == 21 && h.all (fun p => p == (s.trk.ch[c]).pos))
  else none

/-- The following-error run: consecutive samples in LOCKED with |e| beyond the limit (09 R214). -/
def feStep (s : State) : State :=
  { s with trk := { s.trk with
      feRun := if s.trk.st = .locked ∧ s.cfg.act.feLimit * 65536 < s.trk.e.natAbs then s.trk.feRun + 1 else 0 } }

/-- The supervision trip of a sample: reason and channel (09 R213, R214). -/
def supervise (c : Fin 4) (s : State) : Option (Nat × Fin 4) :=
  match if modelOn s then frozenChannel s else none with
  | some f => some (1, f)
  | none =>
    if modelOn s ∧ s.cfg.act.modelLimit * 65536 < (deviation s).natAbs then some (2, c)
    else if s.trk.st = .locked ∧ s.cfg.act.feTime ≤ s.trk.feRun then some (3, c)
    else none

/-- The hysteretic phase law (09 R203). -/
def phaseStep (h : Nat) (e old : Int) : Int :=
  if h * 65536 < e.natAbs then e.sign else if e.natAbs ≤ h / 2 * 65536 then 0 else old

/-- The fire event of a sample whose phase moves from φ to phn: LOCKED, with the sequencer ARMED or RUNNING (09 R203,
R211). -/
def fireFlash (phn : Int) (s : State) : State :=
  let x := (s.trk.f + 1) * 16777216
  if s.trk.st = .locked ∧ (s.seq.st = .armed ∨ s.seq.st = .running) ∧ x ≤ phn then
    let d := phn - s.trk.phi
    let q := (400 * (x - s.trk.phi) + d - 1) / d
    stat (sk 0x09010001 1) { s with trk := { s.trk with f := s.trk.f + 1, fire := some (s.trk.f + 1, q.toNat) } }
  else s

/-- φ reaches n0 while ARMED and not LOCKED: no flash fires, and the stripe stops (09 R211). -/
def missApproach (phn : Int) (s : State) : State :=
  if s.seq.st = .armed ∧ s.trk.st ≠ .locked ∧ s.seq.n0 * 16777216 ≤ phn then approachPast s else s

/-- The phase law and the fire rule (09 R203, R204). -/
def phaseSample (s : State) : State :=
  let st := phaseStep (bankH (activeBank s)) s.trk.e s.trk.step
  let s1 := if st = 0 then s else stat (sk 0x09010001 (if st = 1 then 2 else 3)) s
  let phn := max s.trk.phi (s.trk.phi + s.trk.om + st * 65536)
  let s2 := missApproach phn (fireFlash phn { s1 with trk := { s1.trk with step := st } })
  { s2 with trk := { s2.trk with phi := phn } }

/-- Lock: |e| within h for 1,000 consecutive samples (09 R210). -/
def lockSample (s : State) : State :=
  if s.trk.st ≠ .acquiring then s
  else if bankH (activeBank s) * 65536 < s.trk.e.natAbs then { s with trk := { s.trk with lockRun := 0 } }
  else if 1000 ≤ s.trk.lockRun + 1 then
    raise 0x0910 .trk 0 { s with trk := { s.trk with st := .locked, lockRun := 0, feRun := 0 } }
  else { s with trk := { s.trk with lockRun := s.trk.lockRun + 1 } }

/-- The loop: pre-filter, integrator, frequency (09 R203). -/
def loopSample (s : State) : State :=
  let b := activeBank s
  let r := runChain b 1 (s.trk.e, -24) s
  let s1 := integrate b r.1 r.2
  let om := frequency b r.1 s1
  let s2 := { s1 with trk := { s1.trk with om := om } }
  { s2 with trk := { s2.trk with stages := s2.trk.stages.set 0 (stageShrink (coefOf b 0) s2.trk.stages[(0 : Fin 16)]) } }

/-! #### Correction DACs (09 R217) -/

/-- The enabled channel with a role. -/
def channelOf (s : State) (role : Nat) : Option (Fin 4) :=
  ([0, 1, 2, 3] : List (Fin 4)).find? (fun c =>
    posMode s.cfg.act.posCfg[c] != 0 && posRole s.cfg.act.posCfg[c] == role)

/-- A source with no channel or no stated reference: a free value in s40.24 (09 R217; DESIGN CHOICE, safe, log 34). -/
def openSource (s : State) : Dy × State :=
  let r := takeFree s
  ((signedNat 64 (bitsNat r.1 0 64), -24), r.2)

/-- The source of DAC d before NEG (09 R217): 1 the residual e, 2 the cross-scan error, whose model position the manual
does not give, 3 yaw, 4 the host value. -/
def dacSource (d : Fin 4) (s : State) : Dy × State :=
  match bitsNat s.cfg.act.dacCfg[d] 0 3 with
  | 1 => ((s.trk.e, -24), s)
  | 2 =>
    let r := openSource s
    match channelOf s 1 with
    | some c => (dyAdd (asr ((s.trk.ch[c]).pos * (posScale s.cfg.act.posCfg[c] : Int)) 16, -24) (-r.1.1, r.1.2), r.2)
    | none => r
  | 3 =>
    match channelOf s 2, channelOf s 0 with
    | some a, some c => ((lamNow s a - lamNow s c, -24), s)
    | _, _ => openSource s
  | _ => ((signedNat 20 s.cfg.act.dacHost[d].toNat, -19), s)

/-- A clamped code is counted; the first of a DAC in a stripe raises DAC_CLAMPED (09 R217, 18 R410). -/
def clampDac (d : Fin 4) (s : State) : State :=
  let s1 := stat (sk 0x09010001 (0x50 + d.val)) s
  if s.trk.dacClamped[d] then s1
  else raise 0x0918 .trk 0 { s1 with trk := { s1.trk with dacClamped := s1.trk.dacClamped.set d.val true } }

/-- The code of a chain's output y, clamped to 20 bits (09 R217). -/
def dacCode (y : Dy) : Int := clampInt (-524288) 524287 (dyTo y (-19))

/-- A code is clamped, before or after its correction (09 R217, 18 R410). -/
def dacClips (d : Fin 4) (y : Dy) (s : State) : Bool :=
  dacCode y != dyTo y (-19) || dacRaw s d.val (dacCode y) != dacCore s d.val (dacCode y)

/-- A sample of DAC d in LOCKED (09 R217). -/
def dacSample (d : Fin 4) (s : State) : State :=
  let w := s.cfg.act.dacCfg[d]
  if bitsNat w 0 3 = 0 then setDac d (parkCode s d) s
  else
    let r := dacSource d s
    let x : Dy := if bitAt w 3 then (-r.1.1, r.1.2) else r.1
    let y := runChain (activeBank s) (4 + 3 * d.val) x r.2
    let s1 := if dacClips d y.1 y.2 then clampDac d y.2 else y.2
    setDac d (dacCode y.1) s1

/-- The DACs' sample (09 R217): outside LOCKED they output PARK. -/
def dacSamples (s : State) : State :=
  if s.trk.st = .locked then dacSample 3 (dacSample 2 (dacSample 1 (dacSample 0 s))) else parkDacs s

/-- A sample while the engine runs (09 R203, R210-R217). -/
def runSample (c : Fin 4) (s : State) : State :=
  let s1 := feStep (jitter c (armSample c s))
  match supervise c s1 with
  | some (reason, ch) => trip reason ch s1
  | none => dacSamples (lockSample (phaseSample (loopSample s1)))

/-- POSITION_SAMPLE (09 R203). -/
def execPositionSample (s : State) : Host.Outcome State Fault Refusal :=
  .next
    (if domOn s .trk = false then s
     else
       let s1 := takeFrame (swapNow (countSample s))
       match scanChannel s1 with
       | some c => if engineOn s1 then runSample c s1 else dacSamples s1
       | none => dacSamples s1)

/-- ACQUIRE_TIMEOUT: 10 ms without lock (09 R210). -/
def execAcquireTimeout (s : State) : Host.Outcome State Fault Refusal :=
  .next
    (if domOn s .trk ∧ s.trk.st = .acquiring then trip 6 ((scanChannel s).getD 0) s else s)

/-! ### Commands (13 R316, R317) -/

/-- TRACK_SET_COEFFS. -/
def cmdTrackSetCoeffs : Cmd :=
  { op := 0x0900, masks := [refMask, bits 0 3], modes := [.ready, .expose, .shadow, .calibrate], needs := [.trk], service := false }

/-- The bank named is loaded and verified: swap to it, or complete (13 R316, 09 R209). -/
def swapOrDone (w : Waiting) (bank : Nat) (swap : Bool) (s : State) : State :=
  if swap ∧ s.trk.active ≠ some bank then wait w (.swap bank) { s with trk := { s.trk with swap := some bank } }
  else finish w stOk 0 (activeWord s) s

/-- A bank image is loaded (09 R208). -/
def loadBank (w : Waiting) (e : Entry) (bank : Fin 2) (swap : Bool) (s : State) : State :=
  match readBuffer e (Entry.arg e 0) (fun n => n == 1040) s with
  | (.error r, s1) => finish w r.1 r.2 [] s1
  | (.ok b, s1) =>
    match bankBad b with
    | some n => finish w stBadArg n [] (raise 0x0915 .trk 0 s1)
    | none => swapOrDone w bank.val swap { s1 with trk := { s1.trk with banks := s1.trk.banks.set bank.val (some b) } }

/-- TRACK_SET_COEFFS (09 R208, R209, 13 R316). -/
def execTrackSetCoeffs (e : Entry) (s : State) : Host.Outcome State Fault Refusal :=
  .next
    (takeUp cmdTrackSetCoeffs e (objBusy s [(4, 0, 0), (4, 1, 0)]) (fun w t =>
      let a := Entry.arg e 1
      let bank : Fin 2 := if bitAt a 0 then 1 else 0
      let swap := bitAt a 1
      if bitAt a 2 then
        if Entry.arg e 0 ≠ 0 then finish w stBadArg 0x8008 [] t
        else if (t.trk.banks[bank]).isNone then finish w stBadState 7 [] t
        else swapOrDone w bank.val swap t
      else if t.trk.active = some bank.val then finish w stBadState 6 [] t
      else loadBank w e bank swap t) s)

/-- TRACK_ARM. -/
def cmdTrackArm : Cmd :=
  { op := 0x0901, masks := [bits 0 1], modes := [.ready, .expose, .shadow], needs := [.trk], service := false }

/-- Number of enabled channels with a role. -/
def roleCount (s : State) (role : Nat) : Nat :=
  (s.cfg.act.posCfg.toList.filter (fun w => posMode w != 0 && posRole w == role)).length

/-- The configuration admits arming: exactly one scan channel, distinct roles in use, an active bank (09 R202, R208). -/
def armOk (s : State) : Bool :=
  roleCount s 0 == 1 && s.trk.active.isSome &&
    [1, 2, 3].all (fun r => decide (roleCount s r ≤ 1) || !s.cfg.act.dacCfg.toList.any (dacUses r))

/-- Tracking is armed: ACQUIRING from the next sample on (09 R203, R210). -/
def armTracking (s : State) : State :=
  let c := (scanChannel s).getD 0
  { s with trk := { s.trk with
      st := .acquiring
      arming := true
      lead := phaseLead s c
      lockRun := 0
      feRun := 0
      fire := none } }

/-- C2 of TRACK_ARM (13 R317). -/
def armWord (s : State) : List W128 := [word [(0, 2, s.trk.st.code)]]

/-- TRACK_ARM (09 R210, 13 R317). -/
def execTrackArm (e : Entry) (s : State) : Host.Outcome State Fault Refusal :=
  .next
    (takeUp cmdTrackArm e false (fun w t =>
      if stripeFires t then finish w stBadState 1 [] t
      else if bitAt (Entry.arg e 0) 0 = false then
        let t1 := trackOff t
        finish w stOk 0 (armWord t1) t1
      else if armOk t = false then finish w stBadState 2 [] t
      else
        let t1 := if t.trk.st = .acquiring then t else armTracking t
        finish w stOk 0 (armWord t1) t1) s)

end Sys2Proof.Machine
end

