-- ==== Sys2Proof/Machine/ScanCmd.lean ====
section
/-! DEFINITION. The profile generator and the interlocks: setpoint frames, moves, homing, and their commands (10; 13 R317,
R318). -/

namespace Sys2Proof.Machine

/-! ### Setpoint frames (10 R228-R230) -/

/-- The frames tell the stage controller to stop with its own limits: a latched hard input, a ramp without a profile, or
HOLD (10 R236, R491, 19 R424). -/
def spoFault (s : State) : Bool :=
  s.ilk.toList.any (fun i => i.latched && bitAt i.cfg 1) || (s.scan.st == .stopping && s.scan.profile.isNone) ||
    decide (0 < s.scan.faultFrames)

/-- The quantum exponent Q of a velocity (10 R229); with no active profile it is adaptive (DEDUCED, unsafe, log 35). -/
def quantum (s : State) (vel : Int) : Nat :=
  if s.scan.profile.isSome ∧ profAdaptive (profileBytes s) = 0 then 0
  else (([0, 1, 2, 3] : List Nat).find? (fun q => decide (vel.natAbs ≤ 81920 * 2 ^ q))).getD 4

/-- `pos` of a frame: the setpoint to the nearest multiple of 2^Q sixteenths, ties toward zero (10 R229). -/
def roundPos (q : Nat) (x : Int) : Int := divTz x (2 ^ q) * (2 ^ q : Nat)

/-- Bits [135:0] of a frame (10 R228). -/
def spoBody (s : State) : Nat :=
  let q := quantum s s.scan.vel
  packFields
    [(0, 8, 0xA7), (8, 8, s.scan.spoSeq.toNat), (16, 48, raw 48 (roundPos q s.scan.pos)), (64, 32, raw 32 s.scan.vel),
     (96, 32, raw 32 s.scan.acc), (128, 1, 1), (129, 1, b2n s.scan.stop), (130, 1, b2n s.seq.gblank),
     (131, 1, b2n (s.scan.st == .homing)), (132, 3, q), (135, 1, b2n (spoFault s))]

/-- A frame of 144 bits, its CRC over the bytes after the sync byte as R201 computes it (09 R201, 10 R228; DEDUCED, unsafe, log 36). -/
def spoBits (s : State) : BitVec 144 :=
  let b := spoBody s
  BitVec.ofNat 144 (b + (crc8 ((leBytes 17 b).drop 1)).toNat * 2 ^ 136)

/-- The setpoint of the next interval: the plan's, or at rest (10 R223, R228; DESIGN CHOICE, safe, log 9). -/
def nextSetpoint (c : Scan) : Scan :=
  match c.move with
  | some m =>
    { c with
      k := c.k + 1
      pos := Config.planPos m.params (c.k + 1)
      vel := Config.planVel m.params (c.k + 1)
      acc := Config.planAcc m.params (c.k + 1) }
  | none => { c with vel := 0, acc := 0 }

/-- The setpoint enters the path of the motion model (09 R212). -/
def pushPath (c : Scan) : Scan := { c with hist := ((c.pos, c.vel) :: c.hist).take 12 }

/-- One frame is sent, with the next sequence number (10 R228). -/
def sendSpo (s : State) : State :=
  let s1 := { s with scan := { pushPath (nextSetpoint s.scan) with spoSeq := s.scan.spoSeq + 1 } }
  emit (.spo (spoBits s1)) (stat (sk 0x09020001 0) s1)

/-- SPO_FRAME: sent while SPO is driven; in HOLD the frames with fault = 1 last 1 ms (10 R227, R228, 19 R424). -/
def execSpoFrame (s : State) : Host.Outcome State Fault Refusal :=
  .next
    (if 0 < s.scan.faultFrames then
      let s1 := sendSpo s
      let s2 := { s1 with scan := { s1.scan with faultFrames := s.scan.faultFrames - 1 } }
      if s.scan.faultFrames = 1 then releaseSpo s2 else s2
    else if s.scan.st = .released ∨ domOn s .trk = false then s
    else sendSpo s)

/-- SPO_RELEASE_TIMEOUT: a device that is no longer the holder and has been at rest for 1 ms releases SPO; in HOLD the
frames end (10 R227, R231, 19 R424). -/
def execSpoReleaseTimeout (s : State) : Host.Outcome State Fault Refusal :=
  .next
    (if 0 < s.scan.faultFrames then releaseSpo { s with scan := { s.scan with faultFrames := 0 } }
    else if s.scan.st = .idle ∧ s.pm.mode ≠ .expose ∧ s.scan.target = none ∧ s.scan.homing = none then releaseSpo s
    else s)

/-! ### Homing (10 R238, R239) -/

/-- p_home is set: s = 0 there, the device is homed, and HOME_DONE tells it (10 R238). -/
def setHome (p : Int) (s : State) : State :=
  raise 0x0924 .trk (detail [ds 64 p])
    (stat (sk 0x09020001 0x200) { s with scan := { s.scan with pHome := p, homed := true } })

/-- C2 of SCAN_HOME (13 R317). -/
def homeWord (p : Int) : List W128 := [word [(0, 48, raw 48 p)]]

/-- The waiting SCAN_HOME completes (10 R238, R239). -/
def settleHome (status reason : Nat) (res : List W128) (s : State) : State :=
  settle (fun w => if w.on = .home then some (status, reason, res) else none) s

/-- The search begins: a move at the search speed in the given direction (10 R238). -/
def startSearch (h : Homing) (s : State) : State :=
  let p := profileBytes s
  stat (sk 0x09020001 1) { s with scan := { s.scan with
    st := .homing
    homing := some { h with phase := 0 }
    k := 0
    move := some { params := [3, s.scan.pos, b2n h.neg, h.speed, h.travel, profA p, profJ p], target := 0 } } }

/-- The return to c_z (10 R238). -/
def startReturn (h : Homing) (s : State) : State :=
  let x := divTz ((h.index - s.scan.pHome) * (scanScale s : Int)) (2 ^ 36)
  { s with scan := { s.scan with homing := some { h with phase := 2 }, k := 0, move := some (moveTo (profileBytes s) s.scan.pos x) } }

/-- The generator is at rest at a coordinate, IDLE (10 R231). -/
def restAt (x : Int) (s : State) : State :=
  { s with scan := { s.scan with st := .idle, pos := x, vel := 0, acc := 0, move := none, k := 0, stop := false } }

/-- The search succeeded: s = 0 at c_z (10 R238). -/
def homeFound (h : Homing) (s : State) : State :=
  let s1 := restAt 0 { s with scan := { s.scan with homing := none } }
  settleHome stOk 0 (homeWord h.index) (setHome h.index s1)

/-- The search ended without an index: FAULT 1 at the travel limit, else ABORTED with the reason of the abort
(10 R238, R239). -/
def homeFailed (h : Homing) (s : State) : State :=
  let s1 := { s with scan := { s.scan with homing := none } }
  if h.abort = 1 then settleHome stFault 1 [] (stat (sk 0x09020001 0x201) s1)
  else settleHome stAborted h.abort [] s1

/-- HOMING_TRAVEL_LIMIT: the generator ramps to rest (10 R238). -/
def execHomingTravelLimit (s : State) : Host.Outcome State Fault Refusal :=
  .next
    (match s.scan.homing with
     | some h =>
       if h.phase = 0 ∧ s.scan.st = .homing then
         let p := profileBytes s
         { s with scan := { s.scan with
             homing := some { h with phase := 3, abort := 1 }
             k := 0
             move := some { params := [1, s.scan.pos, s.scan.vel, s.scan.acc, profA p, profJ p], target := 0 } } }
       else s
     | none => s)

/-! ### Moves (10 R226, R231, R232) -/

/-- The target that SCAN_STOP left is taken once the stage is at rest: a move to it, unless it is not homed, leaves the
limits or an input forbids it (10 R226, R231, R236). -/
def startTarget (s : State) : State :=
  match s.scan.target with
  | none => s
  | some x =>
    if s.scan.st ≠ .idle ∨ s.scan.homing ≠ none then s
    else
      let s1 := { s with scan := { s.scan with target := none } }
      let prof := profileBytes s
      if s.scan.profile.isNone ∨ s.scan.homed = false ∨ moveForbidden s s.scan.pos x then s1
      else if inLimits prof s.scan.pos = false ∨ inLimits prof x = false then stat (sk 0x09020001 0x300) s1
      else
        let m := moveTo prof s.scan.pos x
        stat (sk 0x09020001 1)
          { s1 with scan := { s1.scan with st := .moving, k := 0, move := some { m with params := 4 :: m.params.drop 1 } } }

/-- At rest after a ramped stop: an aborted search completes, a pending one begins, a target starts (10 R231, R239). -/
def afterStop (s : State) : State :=
  match s.scan.homing with
  | some h => if h.phase = 4 then startSearch h s else startTarget (homeFailed h s)
  | none => startTarget s

/-- The motion of a search reached rest (10 R238). -/
def homingRest (s : State) : State :=
  match s.scan.homing with
  | some h =>
    match h.phase with
    | 1 => startReturn h s
    | 2 => homeFound h s
    | 3 => startTarget (homeFailed h (restAt s.scan.pos s))
    | _ => s
  | none => restAt s.scan.pos s

/-- Where the move being made ends. -/
def moveEnd (s : State) : Int := (s.scan.move.map (·.target)).getD s.scan.pos

/-- The move is one to a target of SCAN_STOP. -/
def toTarget (s : State) : Bool := (s.scan.move.map (fun m => m.params.headD 0 == 4)).getD false

/-- MOVE_COMPLETE (10 R231). -/
def execMoveComplete (s : State) : Host.Outcome State Fault Refusal :=
  .next
    (if domOn s .trk = false then s
     else
       match s.scan.st with
       | .moving =>
         let r := restAt (moveEnd s) s
         if toTarget s then tryApproach r else { r with scan := { r.scan with st := .atApproach } }
       | .stripe => tryApproach (restAt s.scan.pos s)
       | .stopping => tryApproach (afterStop (restAt s.scan.pos s))
       | .homing => homingRest s
       | .released | .idle | .atApproach => s)

/-! ### SCAN_HOME (10 R238, 13 R317) -/

/-- SCAN_HOME. -/
def cmdScanHome : Cmd :=
  { op := 0x0902, masks := [bits 0 2 + bits 32 64, bits 0 48], modes := [.ready], needs := [.trk], service := false }

/-- The form is an index search (13 R317). -/
def isSearch (e : Entry) : Bool := bitAt (Entry.arg e 0) 0

/-- The search a command asks for (13 R317). -/
def searchOf (e : Entry) : Homing where
  neg := bitAt (Entry.arg e 0) 1
  speed := bitsNat (Entry.arg e 0) 32 32
  travel := bitsNat (Entry.arg e 0) 64 32
  phase := 4
  index := 0
  abort := 0

/-- The scan channel is a quadrature channel (10 R238). -/
def scanQuadrature (s : State) : Bool :=
  match scanChannel s with
  | some c => posMode s.cfg.act.posCfg[c] == 1
  | none => false

/-- The search moves toward smaller coordinates. The sign of the scale being positive, s and count go together. -/
def searchForbidden (h : Homing) (s : State) : Bool := if h.neg then moveForbidden s 0 (-1) else moveForbidden s 0 1

/-- An index search: refused, or begun once the generator is the holder and at rest (10 R227, R236, R238, R491). -/
def homeSearch (w : Waiting) (h : Homing) (s : State) : State :=
  if s.scan.profile.isNone then finish w stBadState 5 [] s
  else if scanQuadrature s = false then finishOpen w stBadArg s
  else if h.speed < 10 ∨ profV (profileBytes s) < h.speed ∨ h.travel < 1 ∨ 2 ^ 31 < h.travel then finishOpen w stBadArg s
  else if searchForbidden h s then finishOpen w stBadState s
  else
    let s1 := becomeHolder s
    let s2 := { s1 with scan := { s1.scan with homing := some h } }
    wait w .home (if s2.scan.st = .idle then startSearch h s2 else s2)

/-- SCAN_HOME waits while another command homes, and a search while the generator moves (13 R293). -/
def homeHold (e : Entry) (s : State) : Bool :=
  objBusy s [(9, 0, 0)] || (isSearch e && !(s.scan.st == .released || s.scan.st == .idle))

/-- SCAN_HOME (10 R238, 13 R317). -/
def execScanHome (e : Entry) (s : State) : Host.Outcome State Fault Refusal :=
  .next
    (takeUp cmdScanHome e (homeHold e s) (fun w t =>
      if isSearch e then
        if Entry.arg e 1 ≠ 0 then finish w stBadArg 0x8008 [] t else homeSearch w (searchOf e) t
      else
        let p := signedNat 48 (bitsNat (Entry.arg e 1) 0 48)
        tryApproach (finish w stOk 0 (homeWord p) (setHome p t))) s)

/-! ### SCAN_SET_PROFILE (10 R221, R222) -/

/-- SCAN_SET_PROFILE. -/
def cmdScanSetProfile : Cmd :=
  { op := 0x0903, masks := [fullMask, fullMask, fullMask, fullMask], modes := [.ready, .expose, .shadow],
    needs := [.trk], service := false }

/-- The image a command carries (13 R317). -/
def profileOf (e : Entry) : BitVec 512 := Entry.arg e 3 ++ Entry.arg e 2 ++ Entry.arg e 1 ++ Entry.arg e 0

/-- Check 3: every field in range, and j_max agrees with shape (10 R221, R222). -/
def profileRanges (p : List Byte) : Bool :=
  decide (1600 ≤ profV p ∧ profV p ≤ 500000) && decide (10 ≤ profA p ∧ profA p ≤ 100000) &&
    (if profShape p = 0 then profJ p == 0 else decide (1 ≤ profJ p ∧ profJ p ≤ 100000)) && decide (64 ≤ profSettle p)

/-- The first check an image fails (10 R222). -/
def profileBad (p : List Byte) : Option Nat :=
  if blk p 0 0 32 ≠ 0x504E4353 ∨ blk p 3 96 32 ≠ (crc32c (p.take 60)).toNat then some 1
  else if blk p 0 34 30 ≠ 0 ∨ blk p 1 48 80 ≠ 0 ∨ blk p 2 96 32 ≠ 0 ∨ blk p 3 0 96 ≠ 0 then some 2
  else if profileRanges p = false then some 3
  else if profMax p ≤ profMin p then some 4
  else none

/-- SCAN_SET_PROFILE (10 R222, R491, 13 R317). -/
def execScanSetProfile (e : Entry) (s : State) : Host.Outcome State Fault Refusal :=
  .next
    (takeUp cmdScanSetProfile e false (fun w t =>
      match profileBad (leBytes 64 (profileOf e).toNat) with
      | some n => finish w stBadArg n [] (raise 0x0920 .trk 0 t)
      | none =>
        if t.scan.st = .idle ∨ t.scan.st = .released then
          tryApproach (finish w stOk 0 [] { t with scan := { t.scan with profile := some (profileOf e) } })
        else finish w stBadState 5 [] t) s)

/-! ### SCAN_STOP (10 R232, R491) -/

/-- SCAN_STOP. -/
def cmdScanStop : Cmd :=
  { op := 0x0904, masks := [bits 0 1 + bits 64 48], modes := [.ready, .expose], needs := [.trk], service := false }

/-- The stop of SCAN_STOP: a homing run ends, an active stripe stops with cause 11, and the generator ramps to rest
(10 R232, R239). -/
def scanStopNow (s : State) : State := rampStop 4 0 0 (stopStripe 11 false 4 0 (abortHoming 3 0 s))

/-- The target is taken; it starts at once where the stage rests, else once it is at rest (10 R231, R232). -/
def takeTarget (x : Int) (s : State) : State :=
  let s1 := becomeHolder s
  startTarget { s1 with scan := { s1.scan with target := some x } }

/-- SCAN_STOP (10 R232, R491, 13 R317). -/
def execScanStop (e : Entry) (s : State) : Host.Outcome State Fault Refusal :=
  .next
    (takeUp cmdScanStop e false (fun w t =>
      let a := Entry.arg e 0
      let t1 := scanStopNow t
      let t2 := { t1 with scan := { t1.scan with target := none } }
      if bitAt a 0 = false then finish w stOk 0 [] t2
      else if t.scan.profile.isNone then finish w stBadState 1 [] t2
      else finish w stOk 0 [] (takeTarget (signedNat 48 (bitsNat a 64 48)) t2)) s)

/-! ### Interlocks (10 R233-R237) -/

/-- One input replaced. -/
def setIlk (i : Fin 8) (x : Ilk) (s : State) : State := { s with ilk := s.ilk.set i.val x }

/-- A trip acts on the stripe, the generator and homing: a hard input immediately with cause 5 and through AON, a ramped
one at the flash boundary with cause 4 (10 R232, R236, R239). -/
def tripActs (i : Fin 8) (hard : Bool) (s : State) : State :=
  let s1 := if hard then { s with seq := { s.seq with gblank := true } } else s
  rampStop 3 0 i.val (abortHoming 2 i.val (stopStripe (if hard then 5 else 4) hard 3 i.val s1))

/-- An input latches with the FT and LT of its first active edge (10 R235). -/
def latchIlk (i : Fin 8) (ft lt : BitVec 32) (s : State) : State :=
  setIlk i { s.ilk[i] with latched := true, ft := ft, lt := lt, noted := false } s

/-- ILK_TRIP: an enabled input that is not latched trips; firmware tells it where it runs (10 R233, R235, R236). -/
def execIlkTrip (i : Fin 8) (ft lt : BitVec 32) (s : State) : Host.Outcome State Fault Refusal :=
  .next
    (let x := s.ilk[i]
     if aonAlive s = false ∨ bitAt x.cfg 0 = false ∨ x.latched then s
     else
       let s1 := latchIlk i ft lt s
       let s2 := if running s then setFlag 4 (raise 0x0930 .aon 0 s1) else s1
       tripActs i (bitAt x.cfg 1) s2)

/-- ILK_CHATTER: counted; the first of a latched episode is told (10 R235). -/
def execIlkChatter (i : Fin 8) (s : State) : Host.Outcome State Fault Refusal :=
  .next
    (let x := s.ilk[i]
     if aonAlive s = false ∨ bitAt x.cfg 0 = false then s
     else
       let tell := x.latched && !x.noted
       let s1 := setIlk i { x with chatter := x.chatter + 1, noted := x.noted || tell } s
       if tell ∧ running s then raise 0x0932 .aon 0 s1 else s1)

/-- ILK_CONFIGURE. -/
def cmdIlkConfigure : Cmd :=
  workCmd 0x0905 [bits 0 8, (List.range 8).foldl (fun m i => m + bits (16 * i) 6 + bits (16 * i + 8) 8) 0] stbWork

/-- The configuration a command gives input `i` (13 R318). -/
def ilkCfg (e : Entry) (i : Nat) : BitVec 16 := bitsOf (Entry.arg e 1) (16 * i) 16

/-- Input `i` is named (13 R318). -/
def ilkNamed (e : Entry) (i : Nat) : Bool := bitAt (Entry.arg e 0) i

/-- A configuration is out of range: ROLE 4 to 7, DEB 0 (10 R234). -/
def ilkRange (c : BitVec 16) : Bool := decide (3 < bitsNat c 3 3) || bitsNat c 8 8 == 0

/-- The configurations after the command (13 R318). -/
def ilkAfter (e : Entry) (s : State) : Vector Ilk 8 :=
  Vector.ofFn (fun i : Fin 8 => if ilkNamed e i.val then { s.ilk[i] with cfg := ilkCfg e i.val } else s.ilk[i])

/-- Two inputs share role 2 or role 3 (10 R234). -/
def rolesShared (l : Vector Ilk 8) : Bool :=
  [2, 3].any (fun r => decide (1 < (l.toList.filter (fun x => bitsNat x.cfg 3 3 == r)).length))

/-- Why ILK_CONFIGURE is refused: status and reason (10 R234, 13 R318). -/
def ilkRefused (e : Entry) (s : State) : Option (Nat × Nat) :=
  let ns := List.finRange 8
  if ns.any (fun i => !ilkNamed e i.val && ilkCfg e i.val != 0) then some (stBadArg, 1)
  else if ns.any (fun i => ilkNamed e i.val && ilkRange (ilkCfg e i.val)) then some (stBadArg, 1)
  else if rolesShared (ilkAfter e s) then some (stBadArg, 2)
  else if ns.any (fun i => ilkNamed e i.val && (s.ilk[i]).latched) then some (stBadState, 3)
  else if stripeFires s then some (stBadState, 4)
  else none

/-- C2 of ILK_CONFIGURE: the configuration of all inputs (13 R318). -/
def ilkWord (s : State) : List W128 :=
  [word ((List.finRange 8).map (fun i => (16 * i.val, 16, (s.ilk[i]).cfg.toNat)))]

/-- ILK_CONFIGURE (10 R234, 13 R318). -/
def execIlkConfigure (e : Entry) (s : State) : Host.Outcome State Fault Refusal :=
  .next
    (takeUp cmdIlkConfigure e false (fun w t =>
      match ilkRefused e t with
      | some r => finish w r.1 r.2 [] t
      | none =>
        let t1 := { t with ilk := ilkAfter e t }
        finish w stOk 0 (ilkWord t1) t1) s)

/-- ILK_CLEAR. -/
def cmdIlkClear : Cmd := workCmd 0x0906 [bits 0 9] allModes

/-- The named items that cannot be cleared: inputs not steady at their inactive level for 10 ms, and the watchdog while
a stripe is ARMED, RUNNING or ENDING (07 R164, 10 R237). -/
def clearBlocked (items : Nat) (steady : BitVec 8) (s : State) : Nat :=
  (items % 256) &&& (255 - steady.toNat) ||| (if items.testBit 8 ∧ stripeFires s then 256 else 0)

/-- All named items are cleared (10 R237). -/
def clearItems (items : Nat) (s : State) : State :=
  { s with
    ilk := Vector.ofFn (fun i : Fin 8 =>
      if items.testBit i.val then { s.ilk[i] with latched := false, chatter := 0, noted := false } else s.ilk[i])
    seq := { s.seq with wdLatch := s.seq.wdLatch && !items.testBit 8 } }

/-- ILK_CLEAR (10 R237, 13 R318). -/
def execIlkClear (e : Entry) (steady : BitVec 8) (s : State) : Host.Outcome State Fault Refusal :=
  .next
    (takeUp cmdIlkClear e false (fun w t =>
      let items := bitsNat (Entry.arg e 0) 0 9
      let blocked := clearBlocked items steady t
      if blocked ≠ 0 then finish w stBadState 1 [word [(16, 9, blocked)]] t
      else
        let t1 := raise 0x0931 .aon 0 (clearItems items t)
        tryApproach (finish w stOk 0 [word [(0, 9, items)]] t1)) s)

end Sys2Proof.Machine
end

