-- ==== Sys2Proof/Machine/KeeperCmd.lean ====
section
/-! DEFINITION. The keeper's commands and events, the service port, IDENT, the status LEDs and the SMBus slave (20; 13 R319;
22 R483). -/

namespace Sys2Proof.Machine

/-! ### The wrapped key (20 R441, R442) -/

/-- SEC_IMPORT_KEY. -/
def cmdSecImportKey : Cmd :=
  workCmd 0x0A00 [bits 0 6 + bits 64 64, refMask] [.ready, .expose, .render, .shadow]

/-- The blob's fields agree with the command's slot and key_id, and its reserved bits are zero (20 R441, R442). -/
def blobHeadOk (b : List Byte) (slot keyId : Nat) : Bool :=
  blk b 0 0 32 == 0x5052574B && blk b 0 32 16 == 1 && blk b 0 48 6 == slot && blk b 0 54 10 == 0 &&
    blk b 0 64 64 == keyId && blk b 7 96 32 == 0

/-- The key a blob holds, where every check passes (20 R442; DESIGN CHOICE, safe, log 5). -/
def unwrapBlob (b : List Byte) (slot keyId : Nat) : Option (BitVec 256) :=
  if blobHeadOk b slot keyId = false then none
  else
    match Config.unwrapKey Config.serial (slice b 16 48) (slice b 64 48) slot with
    | none => none
    | some k =>
      (Config.gcmOpen k (BitVec.ofNat 96 (blk b 7 0 96)) (b.take 16) (slice b 128 32) (slice b 160 16)).map
        (fun p => BitVec.ofNat 256 (leNat p))

/-- A key enters an empty slot (20 R440, R442). -/
def fillSlot (slot : Fin 64) (keyId : Nat) (key : BitVec 256) (s : State) : State :=
  let x := s.keep.slots[slot]
  raise 0x0A10 .keep (detail [du 8 slot.val, du 64 keyId])
    { s with keep := { s.keep with
        slots := s.keep.slots.set slot.val
          { key := key, keyId := BitVec.ofNat 64 keyId, imports := x.imports + 1, occupied := true }
        imports := s.keep.imports + 1 } }

/-- Why an import is refused with no check of the blob: BAD_STATE and the reason (13 R319, 20 R442). -/
def importRefused (slot : Fin 64) (s : State) : Option Nat :=
  if (s.keep.slots[slot]).occupied then some 1
  else if s.keep.latched then some 3
  else if s.keep.debug then some 4
  else none

/-- The blob is read, checked and unwrapped (20 R441, R442). -/
def importKey (w : Waiting) (e : Entry) (slot : Fin 64) (keyId : Nat) (s : State) : State :=
  match readBuffer e (Entry.arg e 1) (fun n => n == 176) s with
  | (.error r, s1) => finish w r.1 r.2 [] s1
  | (.ok b, s1) =>
    match unwrapBlob b slot.val keyId with
    | none => finish w stDenied 2 [] (raise 0x0A11 .keep 0 s1)
    | some key =>
      let s2 := fillSlot slot keyId key s1
      finish w stOk 0 [word [(0, 32, s2.keep.imports.toNat)]] s2

/-- The slot that SEC_IMPORT_KEY names (13 R319). -/
def importSlot (e : Entry) : Fin 64 := ⟨bitsNat (Entry.arg e 0) 0 6, Nat.mod_lt _ (by decide)⟩

/-- SEC_IMPORT_KEY (20 R440-R442, 13 R319). -/
def execSecImportKey (e : Entry) (s : State) : Host.Outcome State Fault Refusal :=
  .next
    (takeUp cmdSecImportKey e false (fun w t =>
      let slot := importSlot e
      match importRefused slot t with
      | some r => finish w stBadState r [] t
      | none => importKey w e slot (bitsNat (Entry.arg e 0) 64 64) t) s)

/-! ### Erasure by command, status and debug (20 R444, R445, R448) -/

/-- SEC_ERASE_KEY. -/
def cmdSecEraseKey : Cmd := workCmd 0x0A01 [bits 0 65] allModes

/-- The erasure that a command names: its mask, or every slot (13 R319, 20 R444). -/
def erasureOf (e : Entry) : Erasure where
  mask := if bitAt (Entry.arg e 0) 64 then BitVec.allOnes 64 else bitsOf (Entry.arg e 0) 0 64
  cause := 1
  all := bitAt (Entry.arg e 0) 64

/-- SEC_ERASE_KEY: it waits for an erasure in progress, and completes once its slots are verified empty (20 R444, R445,
R452, 13 R319). -/
def execSecEraseKey (e : Entry) (s : State) : Host.Outcome State Fault Refusal :=
  .next
    (takeUp cmdSecEraseKey e (!s.keep.zeroing.isEmpty) (fun w t =>
      let t1 := erase (erasureOf e) t
      finish w stOk 0 [word [(0, 32, t1.keep.erases.toNat), (64, 64, (occupiedMask t1).toNat)]] t1) s)

/-- ERASURE_ZEROING_DONE: the oldest zeroing is finished; memory that stopped leaves it to the scrub mark (20 R444). -/
def execErasureZeroingDone (s : State) : Host.Outcome State Fault Refusal :=
  .next
    (match s.keep.zeroing with
     | [] => s
     | e :: t =>
       if memWorks s then finishErasure e { s with keep := { s.keep with zeroing := t } } else memStops s)

/-- SEC_STATUS. -/
def cmdSecStatus : Cmd := { workCmd 0x0A02 [] allModes with service := true }

/-- The words of SEC_STATUS (13 R319). -/
def secWords (s : State) : List W128 :=
  [word [(0, 64, (occupiedMask s).toNat), (64, 32, s.keep.erases.toNat), (96, 32, s.keep.trips.toNat)],
   word [(0, 1, b2n s.keep.loopOpen), (1, 1, b2n s.keep.latched), (2, 1, b2n s.keep.debug), (3, 1, b2n s.keep.vbatLow),
     (32, 32, s.keep.imports.toNat)],
   word [(0, 64, Config.serial.toNat)]]

/-- SEC_STATUS (13 R319). -/
def execSecStatus (e : Entry) (s : State) : Host.Outcome State Fault Refusal :=
  .next (takeUp cmdSecStatus e false (fun w t => finish w stOk 0 (secWords t) t) s)

/-- SEC_UNLOCK_DEBUG. -/
def cmdSecUnlockDebug : Cmd := workCmd 0x0A03 [bits 0 16] [.ready, .hold]

/-- SEC_UNLOCK_DEBUG (20 R448, 13 R319). -/
def execSecUnlockDebug (e : Entry) (s : State) : Host.Outcome State Fault Refusal :=
  .next
    (takeUp cmdSecUnlockDebug e false (fun w t =>
      if bitsNat (Entry.arg e 0) 0 16 ≠ 0xDEB0 then finish w stBadArg 1 [] t
      else
        let t1 := openDebug t
        finish w stOk 0 [word [(0, 32, t1.keep.erases.toNat)]] t1) s)

/-- DBG_REQUEST: as SEC_UNLOCK_DEBUG in READY and HOLD, else held until one of them (20 R448). -/
def execDbgRequest (s : State) : Host.Outcome State Fault Refusal :=
  .next
    (if running s ∧ (s.pm.mode = .ready ∨ s.pm.mode = .hold) then openDebug s
     else { s with keep := { s.keep with dbgHeld := true } })

/-! ### Tamper loop (20 R446, R447) -/

/-- The tamper trips: latched, counted, told, and every slot is erased with cause 2 (20 R446). -/
def tamperTrip (s : State) : State :=
  eraseAll 2 (keeperRaise 0x0A13
    { s with keep := { s.keep with latched := true, trips := s.keep.trips + 1 } })

/-- A failed check: the second in a row trips; while latched it is only counted (20 R446, R447). -/
def checkFailed (s : State) : State :=
  let s1 := { s with keep := { s.keep with loopOpen := true, fails := s.keep.fails + 1 } }
  if s.keep.latched then { s1 with keep := { s1.keep with latchedFails := s.keep.latchedFails + 1 } }
  else if 1 ≤ s.keep.fails then tamperTrip s1
  else s1

/-- TAMPER_CHECK: every 64 ticks, on either supply (20 R438, R446). -/
def execTamperCheck (pass : Bool) (s : State) : Host.Outcome State Fault Refusal :=
  .next
    (if s.keep.stopped then s
     else
       let s1 := { s with keep := { s.keep with ticks := s.keep.ticks + 64 } }
       if pass then { s1 with keep := { s1.keep with fails := 0, loopOpen := false } } else checkFailed s1)

/-- TAMPER_CLEARED: every check of 10 s passed (20 R447). -/
def execTamperCleared (s : State) : Host.Outcome State Fault Refusal :=
  .next
    (if s.keep.stopped ∨ s.keep.latched = false ∨ s.keep.loopOpen then s
     else keeperTell 0x0A14 0 { s with keep := { s.keep with latched := false } })

/-! ### Supplies of the keeper (20 R438, R439) -/

/-- Keys and register are lost with VBAT absent and main power off (20 R439, R443). -/
def keysLost (s : State) : State :=
  { s with keep := { s.keep with
      slots := Vector.replicate 64 KeySlot.empty
      regions := []
      scrub := []
      zeroing := [] } }

/-- On battery below 2.05 V: every slot is erased with cause 4, unless a tamper erasure came first, and the keeper
stops; with VBAT absent the slots are lost (20 R439, R452). -/
def batteryCheck (s : State) : State :=
  if s.keep.battery = false ∨ s.keep.stopped ∨ 2050 ≤ s.keep.vbat.toNat then s
  else
    let s1 := if s.keep.vbat = 0 then keysLost s else if s.keep.latched then s else eraseAll 4 s
    { s1 with keep := { s1.keep with stopped := true } }

/-- The low flag: set with VBAT_LOW below 2.20 V, clear above 2.30 V (20 R439). -/
def vbatFlag (s : State) : State :=
  let v := s.keep.vbat.toNat
  if v < 2200 then
    if s.keep.vbatLow then s else keeperRaise 0x0A16 { s with keep := { s.keep with vbatLow := true } }
  else if 2300 < v then { s with keep := { s.keep with vbatLow := false } }
  else s

/-- VBAT_THRESHOLD (20 R439): a keeper that has stopped watches nothing. -/
def execVbatThreshold (mv : BitVec 16) (s : State) : Host.Outcome State Fault Refusal :=
  .next
    (let s1 := { s with keep := { s.keep with vbat := mv } }
     if s.keep.stopped then (if mv = 0 then keysLost s1 else s1) else batteryCheck (vbatFlag s1))

/-- KEEPER_SUPPLY_SWITCH (20 R438, R439). -/
def execKeeperSupplySwitch (onBattery : Bool) (s : State) : Host.Outcome State Fault Refusal :=
  .next
    (if onBattery then
       if s.keep.battery then s else batteryCheck { s with keep := { s.keep with battery := true } }
     else if s.keep.battery then keeperPowered s
     else s)

/-! ### Service port and IDENT (20 R450, R451) -/

/-- An edge of the service port or of IDENT enters the log of the last 64 (20 R453). -/
def logEdge (kind : Nat) (s : State) : State :=
  { s with svc := { s.svc with edges := ((kind, ltNow s) :: s.svc.edges).take 64 } }

/-- An event is raised where the device runs. -/
def tellRunning (code : Nat) (d : Domain) (det : W128) (s : State) : State :=
  if running s then raise code d det s else s

/-- SVC_ATTACHED (20 R450). -/
def execSvcAttached (s : State) : Host.Outcome State Fault Refusal :=
  .next
    (if s.svc.attached then s
     else tellRunning 0x0A20 .ctrl 0 (logEdge 0 { s with svc := { s.svc with attached := true } }))

/-- SVC_DETACHED, or a USB bus reset (20 R450). -/
def execSvcDetached (s : State) : Host.Outcome State Fault Refusal :=
  .next
    (if s.svc.attached then tellRunning 0x0A21 .ctrl 0 (logEdge 1 { s with svc := { s.svc with attached := false } })
     else s)

/-- A service mark with LT and FT in the persistent log (20 R451). -/
def serviceMark (s : State) : State := { s with nor := { s.nor with marks := (ftNow s, ltNow s) :: s.nor.marks } }

/-- IDENT_PRESSED, at the release: a press told as stuck is ignored until here (20 R451). -/
def execIdentPressed (ms : BitVec 32) (s : State) : Host.Outcome State Fault Refusal :=
  .next
    (if aonAlive s = false then s
     else if s.svc.stuck then { s with svc := { s.svc with stuck := false } }
     else
       let s1 := tellRunning 0x0A23 .aon (detail [du 32 ms.toNat]) (logEdge 2 s)
       if ms.toNat < 2000 then { s1 with svc := { s1.svc with flashing := true } }
       else if 5000 ≤ ms.toNat then serviceMark s1
       else s1)

/-- IDENT_STUCK: one event at 30 s (20 R451). -/
def execIdentStuck (s : State) : Host.Outcome State Fault Refusal :=
  .next
    (if aonAlive s = false ∨ s.svc.stuck then s
     else tellRunning 0x0A23 .aon (detail [du 32 30000]) (logEdge 2 { s with svc := { s.svc with stuck := true } }))

/-- IDENT_FLASH_END (20 R451). -/
def execIdentFlashEnd (s : State) : Host.Outcome State Fault Refusal :=
  .next { s with svc := { s.svc with flashing := false } }

/-- How an LED shows: off, on, or flashing at a number of half-hertz. -/
inductive LedShow where
  | off
  | on
  | flash (halfHz : Nat)
  deriving DecidableEq, Repr

/-- On for true. -/
def LedShow.ofBool (b : Bool) : LedShow := if b then .on else .off

/-- LED0 shows the mode (20 R451); none in HOLD, for which the rule names no pattern. -/
def ledMode (m : Mode) : Option LedShow :=
  match m with
  | .recovery => some .off
  | .standby => some (.flash 1)
  | .ready | .render | .calibrate => some .on
  | .expose => some (.flash 4)
  | .shadow => some (.flash 2)
  | .hold => none

/-- The four LED outputs, each where the rule names its pattern (20 R451). -/
def leds (s : State) : Vector (Option LedShow) 4 :=
  if s.svc.flashing then Vector.replicate 4 (some (.flash 8))
  else
    #v[ledMode s.pm.mode,
      some (LedShow.ofBool (s.led.items.any (fun i => i.st == .running))),
      some (LedShow.ofBool (s.pm.mode == .hold || anyLatched s || s.seq.wdLatch || s.pm.railsLow != 0)),
      some (if s.keep.latched || s.keep.debug then .flash 8 else LedShow.ofBool s.svc.attached)]

/-! ### The SMBus slave (22 R483) -/

/-- The slave's address (22 R483). -/
def smbAddress (s : State) : BitVec 7 := 0x68#7 + s.smb.addr.setWidth 7

/-- SMB_ALERT_N is asserted (22 R483). -/
def smbAlert (s : State) : Bool := s.smb.status &&& s.smb.alertEn != 0

/-- What a read of a code returns (22 R483). -/
def smbRead (s : State) (code : Nat) : BitVec 16 :=
  match code with
  | 0x00 => 0x2620
  | 0x01 => BitVec.ofNat 16 (packFields [(0, 4, s.pm.mode.code), (4, 4, s.pm.fwState), (8, 1, b2n s.seq.gblank)])
  | 0x02 => s.smb.temp
  | 0x03 => s.pm.railsLow.setWidth 16
  | 0x04 => s.smb.status.setWidth 16
  | 0x05 => s.smb.alertEn.setWidth 16
  | 0x20 => bitsOf Config.serial 0 16
  | 0x21 => bitsOf Config.serial 16 16
  | 0x22 => bitsOf Config.serial 32 16
  | 0x23 => bitsOf Config.serial 48 16
  | 0x24 => s.keep.vbat
  | n =>
    if h : 0x10 ≤ n ∧ n < 0x19 then s.pm.railMv[n - 0x10]'(by omega) else 0

/-- SMB_STATUS_CLEAR: bits written 1 clear (22 R483). -/
def execSmbStatusClear (v : BitVec 16) (s : State) : Host.Outcome State Fault Refusal :=
  .next (if aonAlive s then { s with smb := { s.smb with status := s.smb.status &&& ~~~(v.setWidth 4) } } else s)

/-- SMB_ALERT_EN_WRITE (22 R483). -/
def execSmbAlertEnWrite (v : BitVec 16) (s : State) : Host.Outcome State Fault Refusal :=
  .next (if aonAlive s then { s with smb := { s.smb with alertEn := v.setWidth 4 } } else s)

/-- SMB_ALERT_RESPONSE: the slave answers with its own address (22 R483). -/
def execSmbAlertResponse (s : State) : Host.Outcome State Fault Refusal :=
  .next (if aonAlive s then emit (.smbAlertAddress (smbAddress s)) s else s)

end Sys2Proof.Machine
end

