-- ==== Sys2Proof/Machine/UpdCmd.lean ====
section
/-! DEFINITION. The update commands (13 R320, 21 R456, R460) and the update relay (21 R459). -/

namespace Sys2Proof.Machine

/-! ### UPD_BEGIN, UPD_PUT_PIECE, UPD_STATUS (13 R320, 21 R456) -/

/-- UPD_BEGIN. -/
def cmdUpdBegin : Cmd := workCmd 0x0B00 [fullMask, fullMask, fullMask, fullMask] (.recovery :: stbWork)

/-- The update a command describes (13 R320). -/
def updDescOf (e : Entry) : UpdDesc where
  imgId := bitsOf (Entry.arg e 0) 0 32
  imgLen := bitsNat (Entry.arg e 0) 32 32
  pieces := bitsNat (Entry.arg e 0) 64 32
  imgCrc := bitsOf (Entry.arg e 0) 96 32
  digest := Entry.arg e 3 ++ Entry.arg e 2 ++ Entry.arg e 1

/-- UPD_BEGIN (13 R320, 21 R456). -/
def execUpdBegin (e : Entry) (s : State) : Host.Outcome State Fault Refusal :=
  .next
    (takeUp cmdUpdBegin e false (fun w t =>
      match beginUpdate (updDescOf e) t with
      | .error (st, r) => finish w st r [] t
      | .ok t1 => finish w stOk 0 [word [(0, 32, t1.upd.held.length)]] t1) s)

/-- UPD_PUT_PIECE. -/
def cmdUpdPutPiece : Cmd := workCmd 0x0B01 [bits 0 96, refMask] (.recovery :: stbWork)

/-- C2 of UPD_PUT_PIECE (13 R320). -/
def pieceWord (s : State) : List W128 := [word [(0, 32, s.upd.held.length), (32, 1, b2n (updComplete s))]]

/-- UPD_PUT_PIECE (13 R320, 21 R456). -/
def execUpdPutPiece (e : Entry) (readBackOk : Bool) (s : State) : Host.Outcome State Fault Refusal :=
  .next
    (takeUp cmdUpdPutPiece e false (fun w t =>
      let a := Entry.arg e 0
      match readBuffer e (Entry.arg e 1) (fun n => n == 4096) t with
      | (.error r, t1) => finish w r.1 r.2 [] t1
      | (.ok b, t1) =>
        match putPiece (bitsOf a 0 32) (bitsNat a 32 32) (bitsOf a 64 32) b readBackOk t1 with
        | (some (st, r), t2) => finish w st r [] t2
        | (none, t2) => finish w stOk 0 (pieceWord t2) t2) s)

/-- UPD_STATUS. -/
def cmdUpdStatus : Cmd := { workCmd 0x0B02 [] allModes with service := true }

/-- The words of UPD_STATUS (13 R320). -/
def updWords (s : State) : List W128 :=
  [word [(0, 32, s.upd.imgId.toNat), (32, 32, s.upd.held.length), (64, 32, s.upd.pieces), (96, 4, s.upd.st)],
   word [(0, 32, s.upd.runId.toNat), (32, 4, s.upd.boot)]]

/-- UPD_STATUS (13 R320). -/
def execUpdStatus (e : Entry) (s : State) : Host.Outcome State Fault Refusal :=
  .next (takeUp cmdUpdStatus e false (fun w t => finish w stOk 0 (updWords t) t) s)

/-! ### UPD_ARM (13 R320, 21 R460) -/

/-- UPD_ARM. -/
def cmdUpdArm : Cmd := workCmd 0x0B03 [bits 0 1 + bits 8 8] [.recovery, .standby, .ready, .render]

/-- The pieces whose bytes in the staging area still have their `pcrc` stay held (21 R460). -/
def checkPieces (s : State) : State :=
  { s with upd := { s.upd with held := s.upd.held.filter (fun p => crc32c p.2.2 == p.2.1) } }

/-- The staged image (21 R454, R460). -/
def stagedImage (s : State) : List Byte :=
  ((List.range s.upd.pieces).flatMap (fun i =>
    ((s.upd.held.find? (fun p => p.1 == i)).map (fun p => p.2.2)).getD [])).take s.upd.imgLen

/-- The device is paired and has not handed over: it is not the shadow of its pair (13 R320, 21 R464). -/
def pairHolds (s : State) : Bool := s.fab.pair.st != .unpaired && s.fab.pair.role != 2

/-- The checks passed: armed, and with `now` a reset of kind 3 follows the completion (21 R460, 13 R300). -/
def armUpdate (w : Waiting) (now : Bool) (s : State) : State :=
  let s1 := finish w stOk 0 [] (raise 0x0B13 .ctrl 0 { s with upd := { s.upd with st := 3 } })
  if now then raise 0x0111 .ctrl 0 { s1 with pm := { s1.pm with commandedReset := some 3 } } else s1

/-- UPD_ARM (13 R320, 21 R460). -/
def execUpdArm (e : Entry) (s : State) : Host.Outcome State Fault Refusal :=
  .next
    (takeUp cmdUpdArm e false (fun w t =>
      let a := Entry.arg e 0
      if bitsNat a 8 8 ≠ 0xA5 then finish w stBadArg 3 [] t
      else if pairHolds t then finish w stBadState 2 [] t
      else
        let t1 := checkPieces t
        if updComplete t1 = false then
          finish w stBadState 1 [] (if t.upd.st = 0 then t1 else { t1 with upd := { t1.upd with st := 1 } })
        else if Config.sha384 (stagedImage t1) ≠ t1.upd.digest then finish w stFault 4 [] (eraseUpdate t1)
        else armUpdate w (bitAt a 0) t1) s)

/-! ### UPD_RELAY (21 R459) -/

/-- REPORT to the node that relays (21 R459). -/
def sendReport (dst : Nat) (s : State) : State :=
  send dst 0x51 3
    (wordBytes (relayHead 3 0 s.upd.imgId.toNat s.upd.held.length 0 (updComplete s)) ++ pieceBitmap s) s

/-- The update that a BEGIN describes (21 R459). -/
def relayDesc (b : List Byte) : UpdDesc where
  imgId := BitVec.ofNat 32 (blk b 0 32 32)
  imgLen := blk b 1 0 32
  pieces := blk b 1 32 32
  imgCrc := BitVec.ofNat 32 (blk b 1 64 32)
  digest := BitVec.ofNat 384 (leAt b 32 48)

/-- BEGIN: as UPD_BEGIN, answered with REPORT or a NACK of reason 5 (21 R459). -/
def relayBegin (sp : Spore) (s : State) : State :=
  match beginUpdate (relayDesc sp.payload) s with
  | .error (_, r) => nackSpore sp.header 5 r s
  | .ok s1 => sendReport (hdrSrc sp.header) s1

/-- A half piece: its image, index, which half, CRC and bytes (21 R459). -/
def halfOf (b : List Byte) : BitVec 32 × Nat × Bool × BitVec 32 × List Byte :=
  (BitVec.ofNat 32 (blk b 0 32 32), blk b 0 64 32, blk b 0 8 1 == 1, BitVec.ofNat 32 (blk b 0 96 32), b.drop 16)

/-- The other half of the same piece (21 R459). -/
def otherHalf (h x : BitVec 32 × Nat × Bool × BitVec 32 × List Byte) : Bool :=
  x.1 == h.1 && x.2.1 == h.2.1 && x.2.2.1 != h.2.2.1 && x.2.2.2.1 == h.2.2.2.1

/-- A whole piece has arrived: as UPD_PUT_PIECE; the last piece is answered with REPORT (21 R459). The read back of NOR
is taken to succeed (DESIGN CHOICE, unsafe, log 41). -/
def relayWhole (sp : Spore) (id : BitVec 32) (i : Nat) (c : BitVec 32) (b : List Byte) (s : State) : State :=
  match putPiece id i c b true s with
  | (some (_, r), s1) => nackSpore sp.header 5 r s1
  | (none, s1) => if updComplete s1 ∧ updComplete s = false then sendReport (hdrSrc sp.header) s1 else s1

/-- PIECE: a half waits for the other with the same `pcrc` (21 R459). -/
def relayPiece (sp : Spore) (s : State) : State :=
  let h := halfOf sp.payload
  match s.fab.halves.find? (otherHalf h) with
  | none =>
    let l := s.fab.halves.filter (fun x => !(x.1 == h.1 && x.2.1 == h.2.1 && x.2.2.1 == h.2.2.1))
    { s with fab := { s.fab with halves := l ++ [h] } }
  | some x =>
    let b := if h.2.2.1 then x.2.2.2.2 ++ h.2.2.2.2 else h.2.2.2.2 ++ x.2.2.2.2
    relayWhole sp h.1 h.2.1 h.2.2.2.1 b { s with fab := { s.fab with halves := s.fab.halves.filter (fun y => y != x) } }

/-- The UPDATE item that a target reports on. -/
def reportedUpd (src : Nat) (id : BitVec 32) (s : State) : Option UpdRun :=
  s.upd.items.find? (fun r =>
    (match r.job s with
     | some j => j.target == src
     | none => false) && (imageDesc r.image).imgId == id)

/-- REPORT: what the target holds (21 R458, R459). -/
def relayReported (sp : Spore) (s : State) : State :=
  match reportedUpd (hdrSrc sp.header) (BitVec.ofNat 32 (blk sp.payload 0 32 32)) s with
  | some r => relayReport r (blk sp.payload 0 9 1 == 1) (sp.payload.drop 16) s
  | none => s

/-- Length of each `op` (21 R459). -/
def relayLen (op : Nat) : Option Nat :=
  match op with
  | 1 => some 80
  | 2 => some 2064
  | 3 => some 1040
  | _ => none

/-- UPD_RELAY (21 R459); an `op` that is none of the three, or has another's length, is malformed (15 R359). -/
def execUpdRelay (p : Fin 8) (sp : Spore) (s : State) : Host.Outcome State Fault Refusal :=
  .next (rxSpore 0x51 p sp (fun t =>
    let op := blk sp.payload 0 0 8
    if relayLen op ≠ some (hdrLen sp.header) then nackSpore sp.header 4 0 t
    else
      match op with
      | 1 => relayBegin sp t
      | 2 => relayPiece sp t
      | _ => relayReported sp t) s)

/-- RELAY_HALF_TIMEOUT: the oldest lone half has waited 1 s (21 R459). -/
def execRelayHalfTimeout (s : State) : Host.Outcome State Fault Refusal :=
  .next { s with fab := { s.fab with halves := s.fab.halves.drop 1 } }

end Sys2Proof.Machine
end

