-- ==== Sys2Proof/Machine/Dispatch.lean ====
section
/-! DEFINITION. The meaning of every command, one arm for each constructor of `Instr` (one row of spec/opcode_table.json). -/

namespace Sys2Proof.Machine

/-- The effect of a command on everything but the queue. -/
def exec (i : Instr) (s : State) : Host.Outcome State Fault Refusal :=
  match i with
  | .devIdentify e => Sys2Proof.Machine.execDevIdentify e s
  | .devSetMode e => Sys2Proof.Machine.execDevSetMode e s
  | .devGetStatus e => Sys2Proof.Machine.execDevGetStatus e s
  | .devReadback e => Sys2Proof.Machine.execDevReadback e s
  | .devReset e => Sys2Proof.Machine.execDevReset e s
  | .cfgSet e => Sys2Proof.Machine.execCfgSet e s
  | .cfgGet e => Sys2Proof.Machine.execCfgGet e s
  | .cfgCommit e verified => Sys2Proof.Machine.execCfgCommit e verified s
  | .cfgLoadBeamTable e => Sys2Proof.Machine.execCfgLoadBeamTable e s
  | .cfgLoadLayerMap e => Sys2Proof.Machine.execCfgLoadLayerMap e s
  | .flowOpen e => Sys2Proof.Machine.execFlowOpen e s
  | .flowClose e => Sys2Proof.Machine.execFlowClose e s
  | .workSubmit e => Sys2Proof.Machine.execWorkSubmit e s
  | .workCancel e => Sys2Proof.Machine.execWorkCancel e s
  | .workQuery e => Sys2Proof.Machine.execWorkQuery e s
  | .ledgerSetWitness e stored => Sys2Proof.Machine.execLedgerSetWitness e stored s
  | .ledgerCheckpoint e => Sys2Proof.Machine.execLedgerCheckpoint e s
  | .ledgerRead e => Sys2Proof.Machine.execLedgerRead e s
  | .dmaChannelSetup e => Sys2Proof.Machine.execDmaChannelSetup e s
  | .dtuSetRoot e => Sys2Proof.Machine.execDtuSetRoot e s
  | .dtuInvalidate e => Sys2Proof.Machine.execDtuInvalidate e s
  | .dtuResumeFault e => Sys2Proof.Machine.execDtuResumeFault e s
  | .fabDiscover e => Sys2Proof.Machine.execFabDiscover e s
  | .fabAssignNode e => Sys2Proof.Machine.execFabAssignNode e s
  | .fabSetRoute e => Sys2Proof.Machine.execFabSetRoute e s
  | .fabPair e => Sys2Proof.Machine.execFabPair e s
  | .fabHandover e => Sys2Proof.Machine.execFabHandover e s
  | .timeSetSource e => Sys2Proof.Machine.execTimeSetSource e s
  | .timeGet e => Sys2Proof.Machine.execTimeGet e s
  | .timeAdjust e => Sys2Proof.Machine.execTimeAdjust e s
  | .calRun e => Sys2Proof.Machine.execCalRun e s
  | .calStatus e => Sys2Proof.Machine.execCalStatus e s
  | .calSetLimits e => Sys2Proof.Machine.execCalSetLimits e s
  | .trackSetCoeffs e => Sys2Proof.Machine.execTrackSetCoeffs e s
  | .trackArm e => Sys2Proof.Machine.execTrackArm e s
  | .scanHome e => Sys2Proof.Machine.execScanHome e s
  | .scanSetProfile e => Sys2Proof.Machine.execScanSetProfile e s
  | .scanStop e => Sys2Proof.Machine.execScanStop e s
  | .ilkConfigure e => Sys2Proof.Machine.execIlkConfigure e s
  | .ilkClear e steady => Sys2Proof.Machine.execIlkClear e steady s
  | .secImportKey e => Sys2Proof.Machine.execSecImportKey e s
  | .secEraseKey e => Sys2Proof.Machine.execSecEraseKey e s
  | .secStatus e => Sys2Proof.Machine.execSecStatus e s
  | .secUnlockDebug e => Sys2Proof.Machine.execSecUnlockDebug e s
  | .updBegin e => Sys2Proof.Machine.execUpdBegin e s
  | .updPutPiece e readBackOk => Sys2Proof.Machine.execUpdPutPiece e readBackOk s
  | .updStatus e => Sys2Proof.Machine.execUpdStatus e s
  | .updArm e => Sys2Proof.Machine.execUpdArm e s
  | .diagLoopback e => Sys2Proof.Machine.execDiagLoopback e s
  | .diagInject e => Sys2Proof.Machine.execDiagInject e s
  | .diagCounters e => Sys2Proof.Machine.execDiagCounters e s
  | .doorbellWrite ring value => Sys2Proof.Machine.execDoorbellWrite ring value s
  | .ringEnable ring cfg => Sys2Proof.Machine.execRingEnable ring cfg s
  | .ringDisable ring cfg => Sys2Proof.Machine.execRingDisable ring cfg s
  | .winStatusClear v => Sys2Proof.Machine.execWinStatusClear v s
  | .ringStatusClear ring v => Sys2Proof.Machine.execRingStatusClear ring v s
  | .winStageWrite v => Sys2Proof.Machine.execWinStageWrite v s
  | .registerWrite off wide v => Sys2Proof.Machine.execRegisterWrite off wide v s
  | .winReservedWrite off size => Sys2Proof.Machine.execWinReservedWrite off size s
  | .bar4Access addr write len data => Sys2Proof.Machine.execBar4Access addr write len data s
  | .msixVectorUnmask vec => Sys2Proof.Machine.execMsixVectorUnmask vec s
  | .msixCoalesceTimeout ring => Sys2Proof.Machine.execMsixCoalesceTimeout ring s
  | .ringBusError ring addr => Sys2Proof.Machine.execRingBusError ring addr s
  | .functionLevelReset => Sys2Proof.Machine.execFunctionLevelReset s
  | .perst => Sys2Proof.Machine.execPerst s
  | .workItemStart flow => Sys2Proof.Machine.execWorkItemStart flow s
  | .acceptTimeout flow => Sys2Proof.Machine.execAcceptTimeout flow s
  | .witnessReadbackDone unchanged => Sys2Proof.Machine.execWitnessReadbackDone unchanged s
  | .witnessResendTimeout => Sys2Proof.Machine.execWitnessResendTimeout s
  | .witnessLost => Sys2Proof.Machine.execWitnessLost s
  | .witnessRetry answered => Sys2Proof.Machine.execWitnessRetry answered s
  | .progressTimer => Sys2Proof.Machine.execProgressTimer s
  | .ledgerRebuild recs => Sys2Proof.Machine.execLedgerRebuild recs s
  | .ingestRecord flow r => Sys2Proof.Machine.execIngestRecord flow r s
  | .containerRecordAuth flow => Sys2Proof.Machine.execContainerRecordAuth flow s
  | .ingestComplete flow => Sys2Proof.Machine.execIngestComplete flow s
  | .densitySweepDone flow => Sys2Proof.Machine.execDensitySweepDone flow s
  | .censusStripeReady flow => Sys2Proof.Machine.execCensusStripeReady flow s
  | .lineDispatch => Sys2Proof.Machine.execLineDispatch s
  | .lineRendered core => Sys2Proof.Machine.execLineRendered core s
  | .spillWriteAck slot => Sys2Proof.Machine.execSpillWriteAck slot s
  | .spillReadReturn slot => Sys2Proof.Machine.execSpillReadReturn slot s
  | .renderBinComplete flow => Sys2Proof.Machine.execRenderBinComplete flow s
  | .copyComplete flow => Sys2Proof.Machine.execCopyComplete flow s
  | .stripeArm => Sys2Proof.Machine.execStripeArm s
  | .fireEvent n interval => Sys2Proof.Machine.execFireEvent n interval s
  | .frameDeadlineMissed => Sys2Proof.Machine.execFrameDeadlineMissed s
  | .gstrobeRise => Sys2Proof.Machine.execGstrobeRise s
  | .gstrobeFall => Sys2Proof.Machine.execGstrobeFall s
  | .strobeCut => Sys2Proof.Machine.execStrobeCut s
  | .endingTimeout => Sys2Proof.Machine.execEndingTimeout s
  | .highWaterTimeout => Sys2Proof.Machine.execHighWaterTimeout s
  | .resumeConditionMet => Sys2Proof.Machine.execResumeConditionMet s
  | .tempSample sensors cool => Sys2Proof.Machine.execTempSample sensors cool s
  | .linkDownRetry => Sys2Proof.Machine.execLinkDownRetry s
  | .lockingTimeout => Sys2Proof.Machine.execLockingTimeout s
  | .degradedRetry => Sys2Proof.Machine.execDegradedRetry s
  | .ctrlFrameResend => Sys2Proof.Machine.execCtrlFrameResend s
  | .ctrlAck m => Sys2Proof.Machine.execCtrlAck m s
  | .flashAck m => Sys2Proof.Machine.execFlashAck m s
  | .status m => Sys2Proof.Machine.execStatus m s
  | .error m => Sys2Proof.Machine.execError m s
  | .portEvent m => Sys2Proof.Machine.execPortEvent m s
  | .trainStatus m => Sys2Proof.Machine.execTrainStatus m s
  | .returnLaneSwitched => Sys2Proof.Machine.execReturnLaneSwitched s
  | .bsaStatusTimeout => Sys2Proof.Machine.execBsaStatusTimeout s
  | .portClaimTimeout => Sys2Proof.Machine.execPortClaimTimeout s
  | .positionSample => Sys2Proof.Machine.execPositionSample s
  | .serialPositionFrame ch frame => Sys2Proof.Machine.execSerialPositionFrame ch frame s
  | .serialFrameTimeout ch => Sys2Proof.Machine.execSerialFrameTimeout ch s
  | .quadratureIllegalTransition ch => Sys2Proof.Machine.execQuadratureIllegalTransition ch s
  | .indexPulse ch => Sys2Proof.Machine.execIndexPulse ch s
  | .acquireTimeout => Sys2Proof.Machine.execAcquireTimeout s
  | .spoFrame => Sys2Proof.Machine.execSpoFrame s
  | .moveComplete => Sys2Proof.Machine.execMoveComplete s
  | .spoReleaseTimeout => Sys2Proof.Machine.execSpoReleaseTimeout s
  | .homingTravelLimit => Sys2Proof.Machine.execHomingTravelLimit s
  | .ilkTrip input ft lt => Sys2Proof.Machine.execIlkTrip input ft lt s
  | .ilkChatter input => Sys2Proof.Machine.execIlkChatter input s
  | .portTrainStart p => Sys2Proof.Machine.execPortTrainStart p s
  | .portTrainingTimeout p => Sys2Proof.Machine.execPortTrainingTimeout p s
  | .portRetry p => Sys2Proof.Machine.execPortRetry p s
  | .fabPortDown p => Sys2Proof.Machine.execFabPortDown p s
  | .linkAck p block => Sys2Proof.Machine.execLinkAck p block s
  | .credit p block => Sys2Proof.Machine.execCredit p block s
  | .sporeAckTimeout p cls => Sys2Proof.Machine.execSporeAckTimeout p cls s
  | .creditReturnTimer p => Sys2Proof.Machine.execCreditReturnTimer p s
  | .linkAckTimer p cls => Sys2Proof.Machine.execLinkAckTimer p cls s
  | .sporeForward p sp => Sys2Proof.Machine.execSporeForward p sp s
  | .hello p sp => Sys2Proof.Machine.execHello p sp s
  | .topo p sp => Sys2Proof.Machine.execTopo p sp s
  | .assign p sp => Sys2Proof.Machine.execAssign p sp s
  | .assignAck p sp => Sys2Proof.Machine.execAssignAck p sp s
  | .nack p sp => Sys2Proof.Machine.execNack p sp s
  | .pairReq p sp => Sys2Proof.Machine.execPairReq p sp s
  | .pairAck p sp => Sys2Proof.Machine.execPairAck p sp s
  | .pairBeat p sp => Sys2Proof.Machine.execPairBeat p sp s
  | .pairFail p sp => Sys2Proof.Machine.execPairFail p sp s
  | .handoverReq p sp => Sys2Proof.Machine.execHandoverReq p sp s
  | .handoverGo p sp => Sys2Proof.Machine.execHandoverGo p sp s
  | .handoverDone p sp => Sys2Proof.Machine.execHandoverDone p sp s
  | .ledgerRec p sp => Sys2Proof.Machine.execLedgerRec p sp s
  | .ledgerAck p sp => Sys2Proof.Machine.execLedgerAck p sp s
  | .offloadReq p sp => Sys2Proof.Machine.execOffloadReq p sp s
  | .offloadDone p sp => Sys2Proof.Machine.execOffloadDone p sp s
  | .segments p sp => Sys2Proof.Machine.execSegments p sp s
  | .time p sp => Sys2Proof.Machine.execTime p sp s
  | .host p sp => Sys2Proof.Machine.execHost p sp s
  | .updRelay p sp => Sys2Proof.Machine.execUpdRelay p sp s
  | .hostSporeSend p entry => Sys2Proof.Machine.execHostSporeSend p entry s
  | .rxBufferPost p entry => Sys2Proof.Machine.execRxBufferPost p entry s
  | .discoveryCollectTimeout => Sys2Proof.Machine.execDiscoveryCollectTimeout s
  | .assignTimeout => Sys2Proof.Machine.execAssignTimeout s
  | .pairTimeout => Sys2Proof.Machine.execPairTimeout s
  | .pairBeatTimer => Sys2Proof.Machine.execPairBeatTimer s
  | .partnerBeatTimeout => Sys2Proof.Machine.execPartnerBeatTimeout s
  | .takeoverRecheck => Sys2Proof.Machine.execTakeoverRecheck s
  | .handoverShadowTimeout => Sys2Proof.Machine.execHandoverShadowTimeout s
  | .timeSporeTimer => Sys2Proof.Machine.execTimeSporeTimer s
  | .timeSourceTimeout base => Sys2Proof.Machine.execTimeSourceTimeout base s
  | .relayHalfTimeout => Sys2Proof.Machine.execRelayHalfTimeout s
  | .updateTargetTimeout flow => Sys2Proof.Machine.execUpdateTargetTimeout flow s
  | .ptpAnnounce m => Sys2Proof.Machine.execPtpAnnounce m s
  | .ptpSync m => Sys2Proof.Machine.execPtpSync m s
  | .ptpFollowUp m => Sys2Proof.Machine.execPtpFollowUp m s
  | .ptpDelayResp m => Sys2Proof.Machine.execPtpDelayResp m s
  | .ptpMasterTimeout => Sys2Proof.Machine.execPtpMasterTimeout s
  | .dmaDescriptorStart ch desc => Sys2Proof.Machine.execDmaDescriptorStart ch desc s
  | .dmaDescriptorDone ch idx => Sys2Proof.Machine.execDmaDescriptorDone ch idx s
  | .dmaBusError ctx idx arrived => Sys2Proof.Machine.execDmaBusError ctx idx arrived s
  | .dmaReadTimeout ctx idx arrived => Sys2Proof.Machine.execDmaReadTimeout ctx idx arrived s
  | .dmaRetry ctx idx => Sys2Proof.Machine.execDmaRetry ctx idx s
  | .dtuFault ctx idx write va progress tableBusErr => Sys2Proof.Machine.execDtuFault ctx idx write va progress tableBusErr s
  | .hbmRefresh pc => Sys2Proof.Machine.execHbmRefresh pc s
  | .hbmTempRead t0 t1 => Sys2Proof.Machine.execHbmTempRead t0 t1 s
  | .hbmReadComplete off kind sev syndrome req rmw => Sys2Proof.Machine.execHbmReadComplete off kind sev syndrome req rmw s
  | .hbmRetrainSliceStart pc => Sys2Proof.Machine.execHbmRetrainSliceStart pc s
  | .hbmRetrainSliceEnd pc eyeMilliUI => Sys2Proof.Machine.execHbmRetrainSliceEnd pc eyeMilliUI s
  | .hbmRetrainForced pc => Sys2Proof.Machine.execHbmRetrainForced pc s
  | .calRunStart iRefNa => Sys2Proof.Machine.execCalRunStart iRefNa s
  | .calDone meas => Sys2Proof.Machine.execCalDone meas s
  | .modeChangeDone failed badTables tUs => Sys2Proof.Machine.execModeChangeDone failed badTables tUs s
  | .heartbeatTick => Sys2Proof.Machine.execHeartbeatTick s
  | .supplyWarning rail mv => Sys2Proof.Machine.execSupplyWarning rail mv s
  | .supplyRecovered boot => Sys2Proof.Machine.execSupplyRecovered boot s
  | .railResetTrip rail mv => Sys2Proof.Machine.execRailResetTrip rail mv s
  | .thermalTrip => Sys2Proof.Machine.execThermalTrip s
  | .watchdogReset => Sys2Proof.Machine.execWatchdogReset s
  | .powerOnReset testEn boot => Sys2Proof.Machine.execPowerOnReset testEn boot s
  | .tableArrayUncorrectable array => Sys2Proof.Machine.execTableArrayUncorrectable array s
  | .domainPowerLoss domain => Sys2Proof.Machine.execDomainPowerLoss domain s
  | .tamperCheck pass => Sys2Proof.Machine.execTamperCheck pass s
  | .tamperCleared => Sys2Proof.Machine.execTamperCleared s
  | .vbatThreshold mv => Sys2Proof.Machine.execVbatThreshold mv s
  | .keeperSupplySwitch onBattery => Sys2Proof.Machine.execKeeperSupplySwitch onBattery s
  | .dbgRequest => Sys2Proof.Machine.execDbgRequest s
  | .svcAttached => Sys2Proof.Machine.execSvcAttached s
  | .svcDetached => Sys2Proof.Machine.execSvcDetached s
  | .identPressed ms => Sys2Proof.Machine.execIdentPressed ms s
  | .identStuck => Sys2Proof.Machine.execIdentStuck s
  | .smbStatusClear v => Sys2Proof.Machine.execSmbStatusClear v s
  | .smbAlertEnWrite v => Sys2Proof.Machine.execSmbAlertEnWrite v s
  | .smbAlertResponse => Sys2Proof.Machine.execSmbAlertResponse s
  | .resetNAsserted => Sys2Proof.Machine.execResetNAsserted s
  | .quadratureEdge ch up => Sys2Proof.Machine.execQuadratureEdge ch up s
  | .commandedResetStart boot => Sys2Proof.Machine.execCommandedResetStart boot s
  | .erasureZeroingDone => Sys2Proof.Machine.execErasureZeroingDone s
  | .thermalResetRelease boot => Sys2Proof.Machine.execThermalResetRelease boot s
  | .monitorAdcSample ch raw => Sys2Proof.Machine.execMonitorAdcSample ch raw s
  | .loopbackDurationEnd bits errors losses => Sys2Proof.Machine.execLoopbackDurationEnd bits errors losses s
  | .ackWithholdEnd => Sys2Proof.Machine.execAckWithholdEnd s
  | .updateRateTick flow => Sys2Proof.Machine.execUpdateRateTick flow s
  | .identFlashEnd => Sys2Proof.Machine.execIdentFlashEnd s

end Sys2Proof.Machine
end

