-- ==== Sys2Proof/Safety.lean ====
section
/-! DEFINITION. What holds of every state of a run: the terms in which whole-machine claims are made. -/

namespace Sys2Proof.Machine

/-- Both memories are in canonical form, so equal contents are equal data (17 R391). -/
def MemoryOk (s : State) : Prop := Memory.wf s.hbmMem = true ∧ Memory.wf s.hostMem = true

/-- A key slot that is not occupied holds nothing: no key, no key_id, no import count (20 R440, R444). -/
def KeySlot.blankIfFree (k : KeySlot) : Prop := k.occupied = false → k.key = 0 ∧ k.keyId = 0 ∧ k.imports = 0

/-- No key material is left in an empty slot of the keeper (20 R440, R444). -/
def SlotsClean (s : State) : Prop := ∀ i : Fin 64, (s.keep.slots[i]).blankIfFree

/-- While the strobe watchdog's cut is latched, GSTROBE stays low and GBLANK stays high (07 R164). -/
def Seq.heldDark (q : Seq) : Prop := q.wdLatch = true → q.gstrobe = false ∧ q.gblank = true

/-- What holds at reset and is kept by every step. -/
structure State.Inv (s : State) : Prop where
  memory : MemoryOk s
  slots : SlotsClean s
  strobe : s.seq.heldDark

/-! ### Frames

The parts of the state a command may touch; everything else stays as it was. -/

/-- The parts of the state, one for each field but the queue. -/
inductive Block where
  | out | pm | time | win | mb | cfg | led | lay | rnd | store | seq | link | trk | scan | ilk | dma
  | fab | hbm | cal | keep | upd | nor | svc | smb | diag | aper | evt | stats | hbmMem | hostMem | free
  deriving DecidableEq, Repr

/-- A part of the state is the same in `s` and `t`. -/
def Block.same (b : Block) (s t : State) : Prop :=
  match b with
  | .out => t.out = s.out
  | .pm => t.pm = s.pm
  | .time => t.time = s.time
  | .win => t.win = s.win
  | .mb => t.mb = s.mb
  | .cfg => t.cfg = s.cfg
  | .led => t.led = s.led
  | .lay => t.lay = s.lay
  | .rnd => t.rnd = s.rnd
  | .store => t.store = s.store
  | .seq => t.seq = s.seq
  | .link => t.link = s.link
  | .trk => t.trk = s.trk
  | .scan => t.scan = s.scan
  | .ilk => t.ilk = s.ilk
  | .dma => t.dma = s.dma
  | .fab => t.fab = s.fab
  | .hbm => t.hbm = s.hbm
  | .cal => t.cal = s.cal
  | .keep => t.keep = s.keep
  | .upd => t.upd = s.upd
  | .nor => t.nor = s.nor
  | .svc => t.svc = s.svc
  | .smb => t.smb = s.smb
  | .diag => t.diag = s.diag
  | .aper => t.aper = s.aper
  | .evt => t.evt = s.evt
  | .stats => t.stats = s.stats
  | .hbmMem => t.hbmMem = s.hbmMem
  | .hostMem => t.hostMem = s.hostMem
  | .free => t.free = s.free

/-- From `s` to `t` nothing has changed but the parts named, and the queue has not. -/
def Only (bs : List Block) (s t : State) : Prop := t.pending = s.pending ∧ ∀ b : Block, b ∉ bs → b.same s t

/-- The parts a completion touches: outputs, rings, running commands, service port, statistics, host memory (12 R280). -/
def answerParts : List Block := [.out, .win, .mb, .svc, .stats, .hostMem]

/-- The parts an event touches: outputs, rings, log, counters, statistics, host memory (12 R281, R285). -/
def eventParts : List Block := [.out, .win, .nor, .evt, .stats, .hostMem]

/-! ### What a command does -/

/-- Command `i` completes in `s`, in a state of which `p` holds. -/
def Runs (i : Instr) (s : State) (p : State → Prop) : Prop := ∃ t, exec i s = .next t ∧ p t

/-- Output `o` is given from `s` to `t`. -/
def Gives (o : Output) (s t : State) : Prop := ∃ l, t.out = l ++ s.out ∧ o ∈ l

/-- An event record with a code and a detail word joins the persistent log from `s` to `t` (12 R281, 13 R324). -/
def Raises (code : Nat) (det : W128) (s t : State) : Prop :=
  ∃ l r, t.nor.log = l ++ s.nor.log ∧ r ∈ l ∧ r.code = BitVec.ofNat 16 code ∧ r.detail = det

/-- The entry `e` of mailbox command `c` can start in `s` and passes every check (12 R279, R280, 13 R289, R293). -/
abbrev Starts (c : Cmd) (e : Entry) (s : State) : Prop :=
  sourceReady s e.src = true ∧ sourceSpace s e.src = true ∧ modeHolds s c = false ∧ c.judge e s = none

/-- The completion of `e` is given from `s` to `t`: its opcode and tag, the host's context, a status, a reason and result
words (12 R278). -/
def Answers (c : Cmd) (e : Entry) (status reason : Nat) (results : List W128) (s t : State) : Prop :=
  ∃ l x, t.out = l ++ s.out ∧ Output.completion e.src x ∈ l ∧ x.opcode = BitVec.ofNat 16 c.op ∧ x.tag = e.tag ∧
    x.ctx = e.ctx ∧ x.status = BitVec.ofNat 16 status ∧ x.reason = BitVec.ofNat 16 reason ∧ x.results = results

/-- The ledger holds an item that is over: its state, status, reason and result (11 R248, R249). -/
def Ended (f : BitVec 8) (q : BitVec 64) (st : ItemSt) (status reason : Nat) (t : State) : Prop :=
  ∃ i, findItem t f q = some i ∧ i.st = st ∧ i.status = BitVec.ofNat 16 status ∧ i.reason = BitVec.ofNat 16 reason

/-- The parts that a record sent to the witness touches besides the ledger (11 R253, R254). -/
def ledgerParts : List Block := [.out, .win, .mb, .stats, .hostMem, .led, .fab, .dma, .diag, .evt, .nor, .free]

/-- The stripe is stopping with cause `c` alone, its last flash `m` (07 R165, R166, R169). -/
def Stops (c : Nat) (m : Int) (t : State) : Prop :=
  t.seq.st = .stopping ∧ t.seq.causes = [c] ∧ t.seq.lastCause = c ∧ t.seq.m = m

/-- A message of the BSA that the device takes: the link carries it, its check, reserved bits, type and length are right, and it
is newer than the last one (08 R181, R182). -/
def MsgTaken (typ words : Nat) (m : RetMsg) (s : State) : Prop :=
  linkHears s = true ∧ msgCheckOk m = true ∧ msgReservedOk m typ = true ∧ bitsNat m.word0 0 8 = typ ∧
    bitsNat m.word0 8 8 = words ∧ m.body.length + 1 = words ∧
    ∀ old, s.link.mseq = some old → (bitsOf m.word0 16 16 - old) ≠ 0 ∧ (bitsOf m.word0 16 16 - old).toNat < 32768

/-- The tracking engine trips: LOST, TRACK_LOST with the reason and channel, and a stripe that fires stops immediately with cause 6
(09 R215). -/
def Trips (reason : Nat) (c : Fin 4) (s t : State) : Prop :=
  t.trk.st = .lost ∧
    Raises 0x0911 (detail [du 8 reason, du 8 c.val, ds 32 (asr s.trk.e 16), ds 32 (asr (deviation s) 16)]) s t ∧
    (s.seq.st.live = true → Stops 6 (stopM true s.seq) t)

/-- The slots that a mask names are empty, every other as it was (20 R444). -/
def SlotsErased (mask : BitVec 64) (s t : State) : Prop :=
  ∀ i : Fin 64, t.keep.slots[i] = if slotNamed mask i.val then KeySlot.empty else s.keep.slots[i]

/-- A spore of type `typ` that port `p` takes and that the device acts on: the link layer takes it, it violates no rule, and it
is for this device, in a mode other than HOLD (15 R354, R363, R373, 19 R420). -/
def Heard (typ : Nat) (p : Fin 8) (sp : Spore) (s : State) : Prop :=
  hdrType sp.header = typ ∧ (linkTake p sp s).1 = true ∧ sporeViolation sp s.fab.node.toNat = none ∧
    (hdrDst sp.header = 0 ∨ hdrDst sp.header = 0xFFF ∨ hdrDst sp.header = s.fab.node.toNat) ∧ s.pm.mode ≠ .hold

/-- A spore with this payload waits on port `q`, sent and not acknowledged, or not yet sent (15 R353, R354). -/
def Queued (q : Fin 8) (c : Fin 4) (h : W128) (payload : List Byte) (t : State) : Prop :=
  ∃ x ∈ (pclass t q c).unacked ++ (pclass t q c).queue, x.header = h ∧ x.payload = payload

/-- Address `a` is not one of the `n` bytes from `b` on. -/
def outside (a b n : Nat) : Prop := a < b ∨ b + n ≤ a

/-- The mailbox commands: what the tables of 13 say of the command, its entry, and whether it must wait for another now
(13 R293). -/
def mailboxCommand (s : State) (i : Instr) : Option (Cmd × Entry × Bool) :=
  match i with
  | .devIdentify e => some (cmdDevIdentify, e, false)
  | .devSetMode e => some (cmdDevSetMode, e, !s.pm.changing && !s.mb.running.isEmpty)
  | .devGetStatus e => some (cmdDevGetStatus, e, false)
  | .devReadback e => some (cmdDevReadback, e, false)
  | .devReset e => some (cmdDevReset, e, false)
  | .cfgSet e => some (cmdCfgSet, e, false)
  | .cfgGet e => some (cmdCfgGet, e, false)
  | .cfgCommit e _ => some (cmdCfgCommit, e, false)
  | .cfgLoadBeamTable e => some (cmdLoadBeamTable, e, false)
  | .cfgLoadLayerMap e => some (cmdLoadLayerMap, e, false)
  | .flowOpen e => some (cmdFlowOpen, e, objBusy s (flowObjs (argFlow e)))
  | .flowClose e => some (cmdFlowClose, e, objBusy s (flowObjs (argFlow e)))
  | .workSubmit e =>
    some (cmdWorkSubmit, e,
      objBusy s (itemObjs (argFlow e) (argSeq e)) || stillSubmitted s (argFlow e) (argSeq e) || submitStalls s e)
  | .workCancel e =>
    some (cmdWorkCancel, e,
      objBusy s (itemObjs (argFlow e) (argSeq e)) || stillSubmitted s (argFlow e) (argSeq e))
  | .workQuery e => some (cmdWorkQuery, e, objBusy s [(1, (argFlow e).toNat, (argSeq e).toNat)])
  | .ledgerSetWitness e _ => some (cmdLedgerSetWitness, e, ledgerWaits s)
  | .ledgerCheckpoint e => some (cmdLedgerCheckpoint, e, objBusy s (flowObjs (argFlow e)))
  | .ledgerRead e => some (cmdLedgerRead, e, false)
  | .dmaChannelSetup e => some (cmdDmaChannelSetup, e, false)
  | .dtuSetRoot e => some (cmdDtuSetRoot, e, objBusy s [(0, bitsNat (Entry.arg e 0) 0 8, 0)])
  | .dtuInvalidate e => some (cmdDtuInvalidate, e, objBusy s [(0, bitsNat (Entry.arg e 0) 0 8, 0)])
  | .dtuResumeFault e => some (cmdDtuResumeFault, e, objBusy s [(0, bitsNat (Entry.arg e 0) 0 8, 0)])
  | .fabDiscover e => some (cmdFabDiscover, e, objBusy s [(5, 0, 0)])
  | .fabAssignNode e => some (cmdFabAssignNode, e, objBusy s [(5, 0, 0)])
  | .fabSetRoute e => some (cmdFabSetRoute, e, false)
  | .fabPair e => some (cmdFabPair, e, objBusy s [(8, 0, 0), (7, 0, 0)])
  | .fabHandover e => some (cmdFabHandover, e, objBusy s [(8, 0, 0)])
  | .timeSetSource e => some (cmdTimeSetSource, e, false)
  | .timeGet e => some (cmdTimeGet, e, false)
  | .timeAdjust e => some (cmdTimeAdjust, e, false)
  | .calRun e => some (cmdCalRun, e, s.cal.st != 0)
  | .calStatus e => some (cmdCalStatus, e, false)
  | .calSetLimits e => some (cmdCalSetLimits, e, s.cal.st != 0)
  | .trackSetCoeffs e => some (cmdTrackSetCoeffs, e, objBusy s [(4, 0, 0), (4, 1, 0)])
  | .trackArm e => some (cmdTrackArm, e, false)
  | .scanHome e => some (cmdScanHome, e, homeHold e s)
  | .scanSetProfile e => some (cmdScanSetProfile, e, false)
  | .scanStop e => some (cmdScanStop, e, false)
  | .ilkConfigure e => some (cmdIlkConfigure, e, false)
  | .ilkClear e _ => some (cmdIlkClear, e, false)
  | .secImportKey e => some (cmdSecImportKey, e, false)
  | .secEraseKey e => some (cmdSecEraseKey, e, !s.keep.zeroing.isEmpty)
  | .secStatus e => some (cmdSecStatus, e, false)
  | .secUnlockDebug e => some (cmdSecUnlockDebug, e, false)
  | .updBegin e => some (cmdUpdBegin, e, false)
  | .updPutPiece e _ => some (cmdUpdPutPiece, e, false)
  | .updStatus e => some (cmdUpdStatus, e, false)
  | .updArm e => some (cmdUpdArm, e, false)
  | .diagLoopback e => some (cmdDiagLoopback, e, objBusy s [(5, 0, 0)])
  | .diagInject e => some (cmdDiagInject, e, false)
  | .diagCounters e => some (cmdDiagCounters, e, false)
  | _ => none

end Sys2Proof.Machine
end

