-- ==== Sys2Proof/Certificates/Slice0/Obligations.lean ====
section
/-! DEFINITION. The statements: what the commands of the block do, in the terms of Safety.lean. `Runs i s p` says that command
`i` completes in `s` in a state of which `p` holds; `Only parts s t` is its frame. -/

open Sys2Proof Sys2Proof.Machine

/-! ### The whole machine -/

/-- The state right after reset is safe: memory canonical, empty key slots blank, no strobe under a latched watchdog. -/
def Obligations.ResetIsSafe : Prop :=
 State.reset.Inv

/-- A step takes the command at the front of the queue and runs it on the state with the queue's rest. -/
def Obligations.StepTakesTheFront : Prop :=
  ∀ (c : Instr) (rest : List Instr) (s : State), step { s with pending := c :: rest } = exec c { s with pending := rest }

/-- With no command waiting a step lets the time bases count one period of SYSCLK and changes nothing else (16 R378, R379; the
model's choice, log 1). -/
def Obligations.IdleStepCounts : Prop :=
  ∀ s : State, s.pending = [] → ∃ t, step s = .next t ∧ Only [.time] s t ∧
    (∀ b : Fin 4, baseCounts s b = true → t.time.base[b] = (s.time.base[b]).count 40) ∧
    (∀ b : Fin 4, baseCounts s b = false → t.time.base[b] = s.time.base[b])

/-- Every step keeps the state safe: both memories stay canonical, no key stays in an empty slot (20 R440, R444), and while the
strobe watchdog's cut is latched GSTROBE stays low and GBLANK stays high (07 R164). -/
def Obligations.StepKeepsInv : Prop :=
 ∀ s t : State, s.Inv → step s = .next t → t.Inv

/-- Every command completes; it takes no command from the queue, and takes back neither an output nor a record of the persistent
log (12 R281). -/
def Obligations.CommandsOnlyAdd : Prop :=
  ∀ (i : Instr) (s : State), Runs i s fun t => t.pending = s.pending ∧ s.out <:+ t.out ∧ s.nor.log <:+ t.nor.log

/-! ### Mailbox commands: starting and checking (12 R279, R280, 13 R289, R293) -/

/-- A mailbox entry that fails a check is consumed and answered with that status and reason, and has no other effect but the event
of a refusal in the present mode (12 R279, 13 R289, R290). A mailbox entry that cannot start now changes nothing: its source does
not serve it, or the command must wait for another or for the end of a mode change (12 R280, 13 R293). -/
def Obligations.BadEntriesAreAnsweredWaitingOnesKept : Prop :=
  (∀ (i : Instr) (s : State) (c : Cmd) (e : Entry) (r : Nat × Nat), mailboxCommand s i = some (c, e, false) →
     sourceReady s e.src = true → sourceSpace s e.src = true → modeHolds s c = false → c.judge e s = some r →
     Runs i s fun t => Answers c e r.1 r.2 [] s t ∧ Only (answerParts ++ eventParts) s t ∧
       (r.2 ≠ 0x8000 → Only answerParts s t)) ∧
  (∀ (i : Instr) (s : State) (c : Cmd) (e : Entry) (hold : Bool), mailboxCommand s i = some (c, e, hold) →
     (sourceReady s e.src = false ∨ (sourceSpace s e.src = true ∧ (hold = true ∨ modeHolds s c = true))) →
     Runs i s fun t => t = s)

/-- How an entry is judged, first failure first: what the service port does not serve, the number of argument words, reserved
bits, the mode, the domains the command needs (20 R449, 12 R279, 13 R289, 01 R13). -/
def Obligations.ChecksComeInOrder : Prop :=
  ∀ (c : Cmd) (e : Entry) (s : State),
    (e.src = .service → serviceServes c s = false → c.judge e s = some (stDenied, 0x8009)) ∧
    ((e.src ≠ .service ∨ serviceServes c s = true) →
      (e.argWords ≠ c.masks.length → c.judge e s = some (stBadLength, 0)) ∧
      (e.argWords = c.masks.length → e.rsv ≠ 0 → c.judge e s = some (stBadArg, 0x8008)) ∧
      (e.argWords = c.masks.length → e.rsv = 0 → argsOk c.masks e.args.toList = true → s.pm.mode ∉ c.modes →
        c.judge e s = some (stBadState, 0x8000)) ∧
      (e.argWords = c.masks.length → e.rsv = 0 → argsOk c.masks e.args.toList = true → s.pm.mode ∈ c.modes →
        (∃ d ∈ c.needs, domOn s d = false) → c.judge e s = some (stBadState, 0x8001)))

/-! ### Device and configuration commands (13 R296-R304) -/

/-- DEV_IDENTIFY and DEV_GET_STATUS answer with the identity and status words and touch nothing else (13 R296, R298). DEV_SET_MODE
to a mode that may follow the present one, with every condition met, begins the change and waits; to the present mode it completes
at once (13 R297, 19 R422). DEV_RESET with its confirmation, of a kind the mode admits and with no stripe active, completes OK,
raises 0x0111 and leaves the reset to come; DEV_READBACK of an object gives the bytes asked for and their CRC-32C (13 R299, R300,
19 R430). -/
def Obligations.StatusModesAndReadbackAreServed : Prop :=
  (∀ (e : Entry) (s : State),
     (Starts cmdDevIdentify e s → Runs (.devIdentify e) s fun t =>
       Answers cmdDevIdentify e stOk 0 (identityWords (consume e.src s)) s t ∧ Only answerParts s t) ∧
     (Starts cmdDevGetStatus e s → Runs (.devGetStatus e) s fun t =>
       Answers cmdDevGetStatus e stOk 0 (statusWords (consume e.src s)) s t ∧ Only answerParts s t)) ∧
  (∀ (e : Entry) (s : State) (m : Mode), Starts cmdDevSetMode e s → s.pm.changing = false → s.mb.running = [] →
     Mode.ofCode (bitsNat (Entry.arg e 0) 0 4) = some m →
     (m = s.pm.mode → Runs (.devSetMode e) s fun t =>
       Answers cmdDevSetMode e stOk 0 (modeWords m m 0) s t ∧ Only answerParts s t) ∧
     (∀ l, m ≠ s.pm.mode → modePre s.pm.mode m = some l → (∀ r ∈ l, preHolds s m r = true) → Runs (.devSetMode e) s fun t =>
       t.pm.changing = true ∧ t.pm.target = m ∧ t.pm.mode = s.pm.mode ∧
         started cmdDevSetMode e (.modeChange s.pm.mode) s ∈ t.mb.running ∧
         Only [.out, .win, .mb, .stats, .hostMem, .pm, .link] s t)) ∧
  (∀ (e : Entry) (s : State),
     (Starts cmdDevReset e s →
       resetBad s (bitsNat (Entry.arg e 0) 0 4) (bitsNat (Entry.arg e 0) 8 8) (bitAt (Entry.arg e 0) 16) = none →
       Runs (.devReset e) s fun t => Answers cmdDevReset e stOk 0 [] s t ∧ Raises 0x0111 0 s t ∧
         t.pm.commandedReset = some (bitsNat (Entry.arg e 0) 0 4) ∧ Only (.pm :: (answerParts ++ eventParts)) s t) ∧
     (∀ (size : Nat) (f : Nat → Nat → List Byte) (b : List Byte), Starts cmdDevReadback e s → e.src ≠ .service →
       objectBytes (consume e.src s) (bitsNat (Entry.arg e 0) 0 32) = .ok (size, f) →
       openObject (bitsNat (Entry.arg e 0) 0 32) = false → bitsNat (Entry.arg e 0) 64 64 % 16 = 0 →
       bitsNat (Entry.arg e 0) 32 32 % 16 = 0 → bitsNat (Entry.arg e 0) 64 64 < size →
       b = f (bitsNat (Entry.arg e 0) 64 64) (mapLength size (bitsNat (Entry.arg e 0) 64 64) (bitsNat (Entry.arg e 0) 32 32)) →
       Runs (.devReadback e) s fun t => t.aper.bytes = b ∧ t.aper.gen = s.aper.gen + 1 ∧ Gives (.mappedBytes b) s t ∧
         Answers cmdDevReadback e stOk 0
           [word [(0, 32, bitsNat (Entry.arg e 0) 0 32), (32, 32, b.length), (64, 64, size)],
            word [(0, 32, t.aper.gen.toNat), (32, 32, (crc32c b).toNat)]] s t ∧
         Only (.aper :: answerParts) s t))

/-- CFG_SET of an item that acts at once or at the next use, with an admitted value, makes that value the active one, as CFG_GET
reads it (13 R301-R303). CFG_GET answers the active value of a known item; CFG_COMMIT that reads back stores the configuration in
force under the next count, and one that does not stores nothing (13 R303, R304). -/
def Obligations.ConfigIsSetReadAndStored : Prop :=
  (∀ (e : Entry) (s : State), Starts cmdCfgSet e s →
     bitsNat (Entry.arg e 0) 0 16 ∈ [0x30, 0x41, 0x42, 0x43, 0x44, 0x45, 0x46, 0x47, 0x50, 0x60, 0x61] →
     cfgSetBad s (bitsNat (Entry.arg e 0) 0 16) (bitsNat (Entry.arg e 0) 16 8) (bitAt (Entry.arg e 0) 24) (Entry.arg e 1) = none →
     Runs (.cfgSet e) s fun t =>
       t.cfg.act.word (bitsNat (Entry.arg e 0) 0 16) (bitsNat (Entry.arg e 0) 16 8) = Entry.arg e 1 ∧
       Answers cmdCfgSet e stOk 0
         (cfgSetWords (bitsNat (Entry.arg e 0) 0 16)
           (stagedValue s (bitsNat (Entry.arg e 0) 0 16) (bitsNat (Entry.arg e 0) 16 8)).isSome
           (crc32c (wordBytes (Entry.arg e 1)))) s t ∧
       Only (.cfg :: answerParts) s t) ∧
  (∀ (e : Entry) (s : State),
     (Starts cmdCfgGet e s → itemKnown (bitsNat (Entry.arg e 0) 0 16) (bitsNat (Entry.arg e 0) 16 8) = true →
       bitAt (Entry.arg e 0) 24 = false → bitsNat (Entry.arg e 0) 0 16 ≠ 0x10 → Runs (.cfgGet e) s fun t =>
       Answers cmdCfgGet e stOk 0 [s.cfg.act.word (bitsNat (Entry.arg e 0) 0 16) (bitsNat (Entry.arg e 0) 16 8),
         BitVec.ofNat 128 (b2n (stagedValue s (bitsNat (Entry.arg e 0) 0 16) (bitsNat (Entry.arg e 0) 16 8)).isSome)] s t ∧
       Only answerParts s t) ∧
     (Starts cmdCfgCommit e s → Runs (.cfgCommit e true) s fun t =>
       t.nor.store.valid = true ∧ t.nor.store.items = s.cfg.act ∧ t.nor.store.profile = s.scan.profile ∧
         t.nor.store.banks = s.trk.banks ∧ t.nor.store.activeBank = s.trk.active ∧ t.nor.store.witness = s.led.witness ∧
         t.nor.store.limits = s.cal.limits ∧ t.nor.store.routes = s.fab.routes ∧
         t.nor.store.commits = s.nor.store.commits + 1 ∧ Raises 0x0200 0 s t ∧ Only (answerParts ++ eventParts) s t) ∧
     (Starts cmdCfgCommit e s → Runs (.cfgCommit e false) s fun t =>
       Answers cmdCfgCommit e stFault 1 [] s t ∧ Only answerParts s t))

/-- A beam table or layer map that passes its checks is staged, at the boundary becomes active, and is answered with its CRC; one
that fails is answered with the check's reason and leaves every table as it was (02 R38, R39, 03 R66, 13 R305). -/
def Obligations.TablesAreLoaded : Prop :=
  ∀ (e : Entry) (s u : State) (l : List Byte),
    (Starts cmdLoadBeamTable e s → readBuffer e (Entry.arg e 0) (fun n => n == 1048576) (consume e.src s) = (.ok l, u) →
      (btCheck l (bitsOf (Entry.arg e 1) 0 32) = none → Runs (.cfgLoadBeamTable e) s fun t =>
        (t.cfg.btabStaged = some { bytes := l, crc := bitsOf (Entry.arg e 1) 0 32 } ∨
          t.cfg.btab = some { bytes := l, crc := bitsOf (Entry.arg e 1) 0 32 }) ∧
        Raises 0x0221 0 s t ∧
        Answers cmdLoadBeamTable e stOk 0 (loadWords (bitsOf (Entry.arg e 1) 0 32) t.cfg.btabStaged.isNone 0) s t) ∧
      (∀ reason beam, btCheck l (bitsOf (Entry.arg e 1) 0 32) = some (reason, beam) → Runs (.cfgLoadBeamTable e) s fun t =>
        t.cfg = s.cfg ∧ Raises 0x0220 (detail [du 8 reason, du 32 beam]) s t ∧
        Answers cmdLoadBeamTable e stBadArg reason (loadWords (crc32c l) false beam) s t)) ∧
    (Starts cmdLoadLayerMap e s → readBuffer e (Entry.arg e 0) (fun n => n == 4160) (consume e.src s) = (.ok l, u) →
      (lmCheck l (bitsOf (Entry.arg e 1) 0 32) = none → Runs (.cfgLoadLayerMap e) s fun t =>
        (t.cfg.lmapStaged = some { bytes := l, crc := bitsOf (Entry.arg e 1) 0 32 } ∨
          t.cfg.lmap = some { bytes := l, crc := bitsOf (Entry.arg e 1) 0 32 }) ∧
        Raises 0x0231 0 s t ∧
        Answers cmdLoadLayerMap e stOk 0 (loadWords (bitsOf (Entry.arg e 1) 0 32) t.cfg.lmapStaged.isNone 0) s t) ∧
      (∀ reason entry, lmCheck l (bitsOf (Entry.arg e 1) 0 32) = some (reason, entry) → Runs (.cfgLoadLayerMap e) s fun t =>
        t.cfg = s.cfg ∧ Answers cmdLoadLayerMap e stBadArg reason (loadWords (crc32c l) false entry) s t))

/-! ### Flows, work items and the ledger (11, 13 R306-R311) -/

/-- FLOW_OPEN, FLOW_CLOSE and LEDGER_CHECKPOINT that pass their checks write an OWNER, CLOSE or CHECKPOINT record and wait until
the witness has acknowledged it (11 R243, R244, 13 R306, R310). A new item whose submission passes every check of R250 joins the
ledger SUBMITTED, with a SUBMIT record for the witness, and the command waits for its acceptance (11 R247, R250, 13 R307). The
head item of a flow starts: it is RUNNING in the ledger, and its engine takes it up: an ingest its container, a calibration its
run (11 R246, 03 R47, 18 R414). -/
def Obligations.FlowsOpenTakeAndStartWork : Prop :=
  (∀ (e : Entry) (s : State), objBusy s (flowObjs (argFlow e)) = false →
     (Starts cmdFlowOpen e s → flowOpenBad s (argFlow e) (argSeq e) = none → Runs (.flowOpen e) s fun t =>
       (∃ r ∈ t.led.unacked, r.rtype = 8 ∧ r.flow = argFlow e ∧ r.seq = argSeq e ∧ r.owner = s.fab.node ∧
         r.wseq + 1 = t.led.wseq ∧ started cmdFlowOpen e (.flowOpen (argFlow e) r.wseq (argSeq e)) s ∈ t.mb.running) ∧
       Only ledgerParts s t) ∧
     (Starts cmdFlowClose e s → flowCloseBad s (argFlow e) = none → Runs (.flowClose e) s fun t =>
       (∃ r ∈ t.led.unacked, r.rtype = 7 ∧ r.flow = argFlow e ∧ r.wseq + 1 = t.led.wseq ∧
         started cmdFlowClose e (.flowClose (argFlow e) r.wseq) s ∈ t.mb.running) ∧ Only ledgerParts s t) ∧
     (Starts cmdLedgerCheckpoint e s → (flow s (argFlow e)).isOpen = true → witnessOk s = true →
       Runs (.ledgerCheckpoint e) s fun t =>
       (∃ r ∈ t.led.unacked, r.rtype = 6 ∧ r.flow = argFlow e ∧ r.seq = checkpointFloor s (argFlow e) (argSeq e) ∧
         r.wseq + 1 = t.led.wseq ∧
         started cmdLedgerCheckpoint e (.checkpoint (argFlow e) r.wseq (checkpointFloor s (argFlow e) (argSeq e))) s ∈ t.mb.running) ∧
       Only ledgerParts s t)) ∧
  (∀ (e : Entry) (s u : State) (b : List Byte) (x : Submit), Starts cmdWorkSubmit e s →
     objBusy s (itemObjs (argFlow e) (argSeq e)) = false → stillSubmitted s (argFlow e) (argSeq e) = false →
     submitStalls s e = false → readBuffer e (Entry.arg e 1) (fun _ => true) (consume e.src s) = (.ok b, u) →
     x = { f := argFlow e, q := argSeq e, kind := bitsNat (Entry.arg e 0) 8 8, block := b } →
     u.led.rebuilt = true → (flow u x.f).isOpen = true → (flow u x.f).owner = u.fab.node → x.q = (flow u x.f).nextSeq →
     plainChecks u x = none → kindChecks x.kind u x.f x.block = none →
     Runs (.workSubmit e) s fun t =>
       (∃ i ∈ t.led.items, i.flow = x.f ∧ i.seq = x.q ∧ i.st = .submitted ∧ i.kind = BitVec.ofNat 8 x.kind ∧
         i.params = some b) ∧
       (∃ r ∈ t.led.unacked, r.rtype = 1 ∧ r.flow = x.f ∧ r.seq = x.q ∧ r.paramCrc = x.crc) ∧
       started cmdWorkSubmit e (.accept x.f x.q) s ∈ t.mb.running ∧ Only ledgerParts s t) ∧
  (∀ (s : State) (f : BitVec 8) (i : Item) (p : List Byte), running s = true → s.led.rebuilt = true → s.pm.mode ≠ .hold →
     (flow s f).owner = s.fab.node → headItem s f = some i → i.params = some p → i.st = .accepted →
     (i.kind = 1 → domOn s .ing = true → (IngestJob.of i.flow p).sealed_ = false → Runs (.workItemStart f) s fun t =>
       t.lay.ingests = s.lay.ingests ++ [newIngest i.flow i.seq] ∧ (findItem t i.flow i.seq).map (·.st) = some .running) ∧
     (i.kind = 6 → kindMode 6 s.pm.mode = true → s.cal.st = 0 → Runs (.workItemStart f) s fun t =>
       t.cal.st = 1 ∧ t.cal.targets = BitVec.ofNat 4 (blk p 0 0 4) ∧ t.cal.item = some (i.flow, i.seq) ∧
         (findItem t i.flow i.seq).map (·.st) = some .running))

/-- WORK_QUERY answers the record of an item the ledger holds; WORK_CANCEL of an accepted item ends it FAILED with ABORTED and
waits for that record; of an item that is over it answers its record (11 R248, 13 R308, R309). LEDGER_READ gives the stored
records of a flow from a sequence number on and their count; LEDGER_SET_WITNESS to a peer sends that peer the copies of what the
ledger holds and waits (11 R255, 13 R311). -/
def Obligations.WorkAndLedgerAreReadAndMoved : Prop :=
  (∀ (e : Entry) (s : State) (i : Item), seqUnknown s (argFlow e) (argSeq e) = false →
     findItem s (argFlow e) (argSeq e) = some i →
     (Starts cmdWorkQuery e s → objBusy s [(1, (argFlow e).toNat, (argSeq e).toNat)] = false → Runs (.workQuery e) s fun t =>
       Answers cmdWorkQuery e stOk 0 (queryWords s i) s t ∧ Only answerParts s t) ∧
     (Starts cmdWorkCancel e s → objBusy s (itemObjs (argFlow e) (argSeq e)) = false → i.st = .accepted →
       (flow s (argFlow e)).owner = s.fab.node → Runs (.workCancel e) s fun t =>
       started cmdWorkCancel e (.cancel (argFlow e) (argSeq e)) s ∈ t.mb.running ∧
         ∃ j, findItem t (argFlow e) (argSeq e) = some j ∧ j.st = .failed ∧ j.status = BitVec.ofNat 16 stAborted) ∧
     (Starts cmdWorkCancel e s → objBusy s (itemObjs (argFlow e) (argSeq e)) = false → i.live = false → i.st ≠ .submitted →
       Runs (.workCancel e) s fun t => Answers cmdWorkCancel e stBadState 1 (queryWords s i) s t ∧ Only answerParts s t)) ∧
  (∀ (e : Entry) (s : State),
     (∀ l, Starts cmdLedgerRead e s → bitsNat (Entry.arg e 1) 0 15 ≠ 0 → bitsNat (Entry.arg e 1) 0 15 ≤ 16384 →
       l = ((flowRecs s (argFlow e)).filter (fun r => decide (argSeq e ≤ r.seq))).take (bitsNat (Entry.arg e 1) 0 15) →
       Runs (.ledgerRead e) s fun t => t.aper.bytes = l.flatMap WRec.bytes ∧ t.aper.gen = s.aper.gen + 1 ∧
         Answers cmdLedgerRead e stOk 0 [word [(64, 32, l.length), (96, 32, t.aper.gen.toNat)]] s t ∧
         Only (.aper :: answerParts) s t) ∧
     (∀ node stored, Starts cmdLedgerSetWitness e s → ledgerWaits s = false → witnessMayChange s = true →
       newWitness s (Entry.arg e 0) (Entry.arg e 1) = .ok (.peer node) →
       copyRecs s (bitsOf (Entry.arg e 0) 64 32) ≠ [] → Runs (.ledgerSetWitness e stored) s fun t =>
       t.led.pendingWitness = some (.peer node, bitsOf (Entry.arg e 0) 64 32, (copyRecs s (bitsOf (Entry.arg e 0) 64 32)).length) ∧
         started cmdLedgerSetWitness e (.setWitness (copyRecs s (bitsOf (Entry.arg e 0) 64 32)).length stored) s ∈ t.mb.running ∧
         t.led.witness = s.led.witness ∧ Only ledgerParts s t))

/-- A region whose read-back agrees has the oldest record acknowledged; a peer that does not acknowledge gets it again on the
alternate route; when the witness is lost nothing stays SUBMITTED, and 0x0401 says so; one that answers again ends the loss with
0x0402 (11 R254). The progress timer writes the stripe's h into a PROGRESS record; a ledger rebuild reads back the records of this
epoch that check out and says how many; an item not accepted in time leaves the ledger refused (11 R250, R257, R260). -/
def Obligations.WitnessesAcknowledgeInTime : Prop :=
  (∀ (s : State) (r : WRec) (rest : List WRec),
     (∀ f a n, s.diag.withhold = false → s.led.lost = false → s.led.witness = .region f a n → s.led.unacked = r :: rest →
       Runs (.witnessReadbackDone true) s fun t => t.led.acked = max s.led.acked r.wseq) ∧
     (Runs (.witnessReadbackDone false) s fun t => t = s) ∧
     (∀ node, s.led.lost = false → s.led.witness = .peer node → s.led.unacked = r :: rest →
       Runs .witnessResendTimeout s fun t => t = sendAlternate node.toNat 0x20 1 r.bytes (stat (sk 0x04000001 0x40) s) ∧
         Only [.out, .fab, .diag, .stats] s t) ∧
     (hasWitness s = true → s.led.lost = false → s.led.unacked = r :: rest → Runs .witnessLost s fun t =>
       t.led.lost = true ∧ Raises 0x0401 0 s t ∧ ∀ i ∈ t.led.items, i.st ≠ .submitted) ∧
     (hasWitness s = true → s.led.lost = true → s.diag.withhold = false → Runs (.witnessRetry true) s fun t =>
       t.led.lost = false ∧ Raises 0x0402 0 s t)) ∧
  (∀ (s : State) (f : BitVec 8) (q : BitVec 64) (i : Item),
     (running s = true → s.seq.item = some (f, q) → findItem s f q = some i → i.st = .running → hasWitness s = true →
       Runs .progressTimer s fun t => ∃ r ∈ t.led.unacked, r.rtype = 3 ∧ r.flow = f ∧ r.seq = q ∧ r.h = s.seq.h) ∧
     (∀ recs : List (BitVec 512), running s = true → s.led.rebuilt = false → hasWitness s = true →
       Runs (.ledgerRebuild recs) s fun t => t.led.rebuilt = true ∧ t.led.rebuilds = s.led.rebuilds + 1 ∧
         Raises 0x0403 (detail [du 32 ((((recs.map (fun r => leBytes 64 r.toNat)).filter recCrcOk).map WRec.ofBytes).filter
           (fun r => r.epoch == s.led.epoch)).length]) s t) ∧
     (s.led.items.find? (fun i => i.flow == f && i.st == .submitted) = some i → Runs (.acceptTimeout f) s fun t =>
       findItem t f i.seq = none ∧ Raises 0x0300 (word [(0, 8, 10), (16, 8, f.toNat), (64, 64, i.seq.toNat)]) s t))

/-! ### Layout ingest and census (03, 04) -/

/-- A record of an ingest's input that indexes joins the ingest; one that does not fails it with its reason and offset; a record
of a sealed container that authenticates is decrypted into the ingest, one that does not fails it with reason 0x23 (03 R54, R65,
R49, 20 R441). An ingest whose input is read through completes: into HBM it writes the stream of its flattened shapes where the
job says, and its item is DONE; a layout that does not flatten, or a stream that does not fit, fails it (03 R48, R60-R65). -/
def Obligations.IngestRunsToItsStream : Prop :=
  (∀ (s : State) (f : BitVec 8) (r : IngestRun) (j : IngestJob), domOn s .ing = true → ingestOf s f = some r →
     ingestJob s r = some j →
     (∀ x r1, recordReady s r x.off = true → indexRecord j.pitch x r = .ok r1 → skipKind x.body = 0 →
       Runs (.ingestRecord f x) s fun t =>
         t.lay.ingests = s.lay.ingests.map (fun y => if y.flow = r1.flow then r1 else y) ∧ Only [.lay, .stats] s t) ∧
     (∀ x reason, recordReady s r x.off = true → indexRecord j.pitch x r = .error reason → Runs (.ingestRecord f x) s fun t =>
         Raises 0x0310 (detail [du 8 reason, du 64 x.off, du 32 0]) s t ∧ ingestOf t f = none ∧
         ∀ i, findItem s r.flow r.seq = some i → i.live = true →
           Ended r.flow r.seq .failed (ingestStatus reason) reason t) ∧
     (∀ n key hb b, s.lay.decryptor = some (n, key) → j.sealed_ = true → r.stalled = false → jread s j.src 0 64 = .ok hb →
       r.recNo < (Container.of hb).recCount →
       jread s j.src (64 + r.recNo * 1048592) (recordLen (Container.of hb) r.recNo) = .ok b →
       (∀ p, openRecord key (Container.of hb) r.recNo b = some p → Runs (.containerRecordAuth f) s fun t =>
         t.lay.ingests = s.lay.ingests.map (fun y => if y.flow = r.flow then { r with recNo := r.recNo + 1, plain := r.plain ++ p } else y) ∧
         Only [.lay, .stats] s t) ∧
       (openRecord key (Container.of hb) r.recNo b = none → Runs (.containerRecordAuth f) s fun t =>
         Raises 0x0310 (detail [du 8 0x23, du 64 0, du 32 r.recNo]) s t ∧ ingestOf t f = none))) ∧
  (∀ (s : State) (f : BitVec 8) (r : IngestRun) (j : IngestJob) (steps : Nat) (i : Item), MemoryOk s → domOn s .ing = true →
     ingestOf s f = some r → ingestJob s r = some j → r.s = some steps → sourceRead s r j = true →
     findItem s r.flow r.seq = some i → i.live = true →
     (∀ reason off, flattenJob j r = .error (reason, off) → Runs (.ingestComplete f) s fun t =>
       Raises 0x0310 (detail [du 8 reason, du 64 off, du 32 0]) s t ∧ ingestOf t f = none ∧
         Ended r.flow r.seq .failed (ingestStatus reason) reason t) ∧
     (∀ shapes ts r1 s1 b n, flattenJob j r = .ok shapes → decompose (lmap s) j steps shapes [] (r, s) = (ts, (r1, s1)) →
       streamOf s1 j steps ts = (b, n) →
       (j.outCap < b.length → Runs (.ingestComplete f) s fun t =>
         Raises 0x0310 (detail [du 8 0x13, du 64 0, du 32 0]) s t ∧ t.hbmMem = s.hbmMem) ∧
       (b.length ≤ j.outCap → j.out.space = 1 → Runs (.ingestComplete f) s fun t =>
         hbmRead t j.out.addr b.length = b ∧
         (∀ a, a < j.out.addr ∨ j.out.addr + b.length ≤ a → Memory.read t.hbmMem a = Memory.read s.hbmMem a))))

/-- The density sweep writes the map of the whole job; a stripe whose bins are read and whose trial lines are rendered gets its
census: the rate with CENSUS_STRIPE, and 0x0321 where it is below 100,000 Hz (03 R71, R75, 04 R96-R98). -/
def Obligations.CensusForecasts : Prop :=
  ∀ (s : State) (f : BitVec 8) (r : CensusRun) (c : CensusJob) (h : SHdr), MemoryOk s → domOn s .ing = true → censusOf s f = some r →
    censusJob s r = some c → streamHdr s c.j = .ok h →
    (∀ ts, r.forecast = false → s.cfg.act.segCode = 0 → (mapGeo h c.dmargin).size ≤ c.dmapCap →
      hbmFree c.dmap (mapGeo h c.dmargin).size = true → jobTraps s c.j h (List.range h.count) = .ok ts →
      Runs (.densitySweepDone f) s fun t =>
        hbmRead t c.dmap (mapBytes (lmap s) (mapGeo h c.dmargin) h ts).length = mapBytes (lmap s) (mapGeo h c.dmargin) h ts ∧
        t.lay.lastMap = some c.dmap ∧ t.lay.lastJob = some (c.j.space, c.j.flow, c.j.addr) ∧
        Only [.lay, .rnd, .hbmMem] s t) ∧
    (∀ x bs l u, r.forecast = true → trialsDone r h.linesM1 = true → stripeHdr s c.j h r.next = .ok x →
      allBins s c.j x (List.range x.bins) = .ok bs →
      l = binCasts c (binCounts x.linesM1 bs)
        ((List.range x.bins).map (fun b => overflowOf c.margin (sigma138 (forecastCode s r).1 (forecastCode s r).2 r.values b))) →
      jput c.j x.censusOff (censusBlock c x.num l) (writeCtab r.next x.num (forecastCode s r).1 s) = some u →
      Runs (.censusStripeReady f) s fun t =>
        Raises 0x0320 (detail [du 16 x.num, du 32 (censusRate c.fMax l)]) s t ∧
        (censusRate c.fMax l < 100000 → Raises 0x0321 0 s t))

/-! ### Rendering and the delay store (05, 06) -/

/-- A line that a core may take is dispatched to it; a rendered line of class X enters the store and frees its core; one of a
census adds to its trial lines (05 R102, R103, 06 R145, 03 R72). A spilled segment becomes VALID when its write is acknowledged,
and its value is at hand when its read returns (06 R145, R149). A bin rendered to its last line is over, and its item is DONE; a
COPY whose last byte is written ends its item DONE (05 R122, 14 R343). -/
def Obligations.RenderedLinesReachTheirPlace : Prop :=
  (∀ (s : State) (r : RLine) (c : Fin 32), domOn s .rnd0 = true →
     (∀ segs, nextDispatch s = some (r, c) → lineLook s r = .ready segs → Runs .lineDispatch s fun t =>
       t.rnd = { s.rnd with waiting := s.rnd.waiting.erase r, cores := s.rnd.cores.set c.val (some r) } ∧ Only [.rnd] s t) ∧
     (∀ segs, s.rnd.cores[c] = some r → lineLook { s with rnd := { s.rnd with cores := s.rnd.cores.set c.val none } } r = .ready segs →
       (r.cls = 0 → Runs (.lineRendered c) s fun t => t.rnd.cores = s.rnd.cores.set c.val none ∧
         (∀ k, k < segs.length → (slot t (slotOf r.line k)).isSome = true) ∧
         Only [.out, .win, .rnd, .store, .nor, .evt, .stats, .hbmMem, .hostMem] s t) ∧
       (∀ x, r.cls = 3 → censusOf s r.flow = some x → Runs (.lineRendered c) s fun t =>
         t.rnd.cores = s.rnd.cores.set c.val none ∧
         t.lay.censuses = s.lay.censuses.map (fun y => if y.flow = x.flow then { x with values := x.values ++ [(r.line, segs)] } else y) ∧
         Only [.rnd, .lay, .stats] s t))) ∧
  (∀ (s : State) (n : Nat) (x : Slot), slot s n = some x → x.where_ = 2 → domOn s .store = true →
     (x.st = 1 → Runs (.spillWriteAck n) s fun t => slot t n = some { x with st := 2 } ∧ Only [.rnd, .store] s t) ∧
     (x.st = 2 → s.store.spillReady.contains n = false → Runs (.spillReadReturn n) s fun t =>
       t.store = { s.store with spillReady := s.store.spillReady ++ [n] } ∧ Only [.store, .stats] s t)) ∧
  (∀ (s : State) (f : BitVec 8) (i : Item),
     (∀ b, domOn s .rnd0 = true → binOnFlow s f = some b → b.held = [] → b.failed = 0 → b.over s = true → b.req = none →
       findItem s b.flow b.seq = some i → i.live = true → Runs (.renderBinComplete f) s fun t =>
       Ended b.flow b.seq .done 0 0 t ∧ ∀ x ∈ t.rnd.bins, ¬ (x.req = none ∧ x.flow = b.flow ∧ x.seq = b.seq)) ∧
     (∀ r d u, copyOf s f = some r → r.f s = some d → d.alive s = true → r.st = 0 → d.move f.toNat r.done d.len s = some u →
       findItem s f r.seq = some i → i.live = true → Runs (.copyComplete f) s fun t =>
       Ended f r.seq .done 0 0 t))

/-! ### The sequencer (07) -/

/-- A stripe that is ready is ARMED: STRIPE_OPEN is sent, the stage starts its run and n0 is framed; where lines of n0 are bad or
a class 1 segment is not there the stripe stops before n0 with cause 13 or 1, where the stage is past n0 with cause 8 (07 R165, 06
R148, R152, 09 R211). A fire event for the flash after f, t_min after the one before it, is accepted: f becomes n and the flash
waits for its strobe; the first of a run raises STRIPE_STARTED or STRIPE_RESUMED, and n_last begins ENDING. Any other is
FLASH_OVERRUN and stops the stripe at f with cause 8 (07 R162, R163, R165). -/
def Obligations.StripesAreArmedAndFired : Prop :=
  (∀ (s : State) (f : BitVec 8) (q : BitVec 64), armReady s = true → s.seq.item = some (f, q) → Runs .stripeArm s fun t =>
     Gives (.control (ctrlLane 4 0) (ctrlWords 4 0 s.link.cseq.toNat
       [word [(0, 64, q.toNat), (64, 8, f.toNat), (72, 16, s.seq.stripe), (88, 32, raw 32 s.seq.n0)],
        word [(0, 32, raw 32 s.seq.nLast), (32, 1, b2n (!s.seq.opened && decide (s.seq.n0 = s.seq.nFirst)))]])) s t ∧
     t.trk.f = s.seq.n0 - 1 ∧
     (s.seq.n0 * 2 ^ 24 ≤ s.trk.phi → Raises 0x0917 0 s t ∧ Stops 8 (s.seq.n0 - 1) t) ∧
     (s.trk.phi < s.seq.n0 * 2 ^ 24 →
       (t.seq.st = .armed ∧ t.scan.st = .stripe ∧ t.seq.framed = some s.seq.n0) ∨
       (needsBad s s.seq.n0 = true ∧ Stops 13 (s.seq.n0 - 1) t) ∨ (needsBad s s.seq.n0 = false ∧ Stops 1 (s.seq.n0 - 1) t)) ∧
     Only [.out, .win, .rnd, .store, .seq, .link, .trk, .scan, .nor, .diag, .evt, .stats, .hostMem, .free] s t) ∧
  (∀ (s : State) (n : Int) (dt : Nat), s.seq.st = .armed ∧ s.seq.f = s.seq.n0 - 1 ∨ s.seq.st = .running →
     (n = s.seq.f + 1 → n = s.seq.n0 ∨ curTmin s ≤ dt → Runs (.fireEvent n dt) s fun t =>
       t.seq.f = n ∧ t.trk.f = n ∧ n ∈ t.seq.fired ∧ (n = s.seq.nLast → t.seq.st = .ending) ∧
       (n = s.seq.n0 → Raises (if s.seq.resumes = 0 then 0x0360 else 0x0363) 0 s t)) ∧
     (¬ (n = s.seq.f + 1 ∧ (n = s.seq.n0 ∨ curTmin s ≤ dt)) → Runs (.fireEvent n dt) s fun t =>
       t.seq.f = s.seq.f ∧ Raises 0x0364 (detail [ds 32 (s.seq.f + 1), ds 32 n, du 32 dt]) s t ∧ Stops 8 s.seq.f t))

/-- The strobe of the oldest flash fired rises while the watchdog is clear; GBLANK rises after the last one; a late frame stops
the stripe at the flash before it; the watchdog's cut forces GSTROBE low and GBLANK high, latches, and stops the stripe at once
(07 R161, R163, R164, R166, R167). -/
def Obligations.StrobesFollowFlashes : Prop :=
  ∀ (s : State),
    (∀ n l, s.seq.fired = n :: l → s.seq.wdLatch = false → s.seq.gstrobe = false → Runs .gstrobeRise s fun t =>
      t.seq = { s.seq with gstrobe := true, strobed := n, fired := l } ∧ Only [.seq] s t) ∧
    (s.seq.wdLatch = true → Runs .gstrobeRise s fun t => t = s) ∧
    (s.seq.gstrobe = true → Runs .gstrobeFall s fun t =>
      t.seq = { s.seq with gstrobe := false, gblank := blankAfter s.seq } ∧ Only [.seq] s t) ∧
    (∀ n l, s.seq.fired = n :: l → s.seq.st = .running ∨ s.seq.st = .ending → Runs .frameDeadlineMissed s fun t =>
      Stops 8 (n - 1) t ∧ ∀ k ∈ t.seq.fired, k ≤ n - 1) ∧
    (s.seq.wdLatch = false → Runs .strobeCut s fun t =>
      t.seq.wdLatch = true ∧ t.seq.gstrobe = false ∧ t.seq.gblank = true ∧ Raises 0x0365 0 s t ∧
      (s.seq.st.active = true → Stops 7 (stopM true s.seq) t ∧ t.seq.fired = []))

/-- The waits of a stripe end: ENDING without the high-water stops it with cause 9; a stop whose report does not come settles on
the last h, DONE where that is n_last; a STOPPED stripe whose conditions hold fills again from the first flash not executed (07
R165, R168, R170, R490). A sample of the die's sensors sets both temperature registers to the hottest corrected reading; from 95
degrees it raises 0x0368, from 105 degrees 0x0369 with a stop of cause 2 (07 R171, 12 R267, 18 R410). -/
def Obligations.StopsSettleAndTemperaturesAreWatched : Prop :=
  (∀ (s : State) (f : BitVec 8) (q : BitVec 64), s.seq.item = some (f, q) →
     (s.seq.st = .ending → Runs .endingTimeout s fun t => Stops 9 s.seq.nLast t) ∧
     (s.seq.st = .stopping → Runs .highWaterTimeout s fun t =>
       t.seq.h = s.seq.h ∧ (t.seq.st = .stopped ∨ t.seq.st = .idle) ∧ Raises 0x0367 0 s t ∧
       (∀ i, s.seq.violated = false → s.seq.h ≤ s.seq.m → s.seq.h = s.seq.nLast → findItem s f q = some i → i.live = true →
         Raises 0x0361 0 s t ∧ Ended f q .done 0 0 t)) ∧
     (s.seq.st = .stopped → resumeReady s = true → s.seq.causes.contains 14 = false → s.pm.mode = .expose →
       Runs .resumeConditionMet s fun t => t.seq.resumes = s.seq.resumes + 1 ∧ t.seq.n0 = resumeN0 s ∧
         t.seq.item = some (f, q) ∧ (t.seq.st = .filling ∨ t.seq.st = .stopping))) ∧
  (∀ (s : State) (x : Vector (BitVec 16) 16) (cool : Bool) (i : Nat) (d : Int), hottest s x = (i, d) →
     Runs (.tempSample x cool) s fun t =>
       t.win.temp = wrapInt 16 d ∧ t.smb.temp = wrapInt 16 d ∧ t.seq.cool = (cool && decide (d ≤ 720)) ∧
       (760 ≤ d → s.seq.dieWarned = false → Raises 0x0368 (tempDetail 0 i d) s t) ∧
       (840 ≤ d → s.seq.dieHot = false → Raises 0x0369 (tempDetail 0 i d) s t ∧
         (s.seq.st.active = true → Stops 2 (stopM false s.seq) t)) ∧
       (d < 840 → t.seq.st = s.seq.st ∧ Only [.out, .win, .seq, .nor, .smb, .evt, .stats, .hostMem] s t))

/-! ### The blanker link (08) -/

/-- The link trains again from DOWN; at the end of LOCKING the lanes without block lock are failed and LANE_MAP is sent, or the
link is DEGRADED for want of spares, or DOWN for want of a TRAIN_STATUS; DEGRADED returns to DOWN (08 R183, R186, R187). -/
def Obligations.LinkTrains : Prop :=
  ∀ (s : State) (m : RetMsg), domOn s .seq = true →
    (s.link.st = .down → loopOnLink s = false → Runs .linkDownRetry s fun t =>
      t.link.st = .locking ∧ t.link.cseq = 0 ∧ t.link.mseq = none ∧ t.link.out = [] ∧ Gives .trainBlocks s t ∧
      Only [.out, .link, .cal] s t) ∧
    (s.link.st = .locking → MsgTaken 6 2 m s → Runs (.trainStatus m) s fun t =>
      t.link.locks = BitVec.ofNat 80 (bitsNat m.word0 64 32 + bitsNat (msgW1 m) 0 48 * 2 ^ 32) ∧ t.link.trainSeen = true ∧
      t.link.mseq = some (bitsOf m.word0 16 16) ∧ Only [.link, .stats] s t) ∧
    (s.link.st = .locking → s.link.trainSeen = true → laneLock s 0 = true ∨ laneLock s 1 = true →
      Runs .lockingTimeout s fun t =>
      (∀ p, p < 80 → bitAt s.link.locks p = false → bitAt t.link.failed p = true) ∧
      ((t.link.st = .mapping ∧
          Gives (.control 0 (ctrlWords 1 0 s.link.cseq.toNat (bytesWords t.link.map.toList 5))) s t) ∨
        (t.link.st = .degraded ∧ Raises 0x0374 (detail [du 8 0xFF, du 16 s.seq.stripe, ds 32 s.seq.f]) s t)) ∧
      Only [.out, .win, .link, .nor, .evt, .stats, .hostMem] s t) ∧
    (s.link.st = .locking → s.link.trainSeen = false → Runs .lockingTimeout s fun t =>
      t.link.st = .down ∧ Raises 0x0371 (detail [du 8 0xFF, du 16 s.seq.stripe, ds 32 s.seq.f]) s t) ∧
    (s.link.st = .degraded → Runs .degradedRetry s fun t => t.link.st = .down ∧ t.link.out = [] ∧ Only [.link] s t)

/-- A control frame waits for its CTRL_ACK, which takes it off the outstanding ones; the oldest is sent again at most 8 times in
all, then the link has failed; an answer to a frame never sent is breach 9 (08 R179, R186, R196). -/
def Obligations.ControlFramesAwaitTheirAnswer : Prop :=
  ∀ (s : State) (x : Ctrl) (l : List Ctrl) (m : RetMsg), domOn s .seq = true →
    (s.link.out = x :: l → x.sends < 8 → Runs .ctrlFrameResend s fun t =>
      t.link = { s.link with out := { x with sends := x.sends + 1 } :: l } ∧
      Gives (.control (ctrlLane x.op x.arg) x.words) s t ∧ Only [.out, .link, .stats] s t) ∧
    (s.link.out = x :: l → 8 ≤ x.sends → s.link.st ≠ .down → Runs .ctrlFrameResend s fun t =>
      t.link.st = .down ∧ t.link.out = [] ∧
      Raises 0x0371 (detail [du 8 0xFF, du 16 s.seq.stripe, ds 32 s.seq.f]) s t) ∧
    (MsgTaken 4 2 m s → bitsNat m.word0 64 32 < s.link.cseq.toNat →
      s.link.out.find? (fun x => x.cseq == bitsOf m.word0 64 32) = some x →
      (x.op = 5 → Runs (.ctrlAck m) s fun t =>
        t.link = { s.link with mseq := some (bitsOf m.word0 16 16), out := s.link.out.erase x } ∧ Only [.link, .stats] s t) ∧
      (x.op = 4 → s.seq.st.active = true → bitsNat (msgW1 m) 0 16 = stOk → Runs (.ctrlAck m) s fun t =>
        t.seq = { s.seq with opened := true, openFails := 0, h := signedNat 32 (bitsNat (msgW1 m) 32 32), hKnown := true } ∧
        t.link.out = s.link.out.erase x) ∧
      (x.op = 1 → bitsNat (msgW1 m) 0 16 = stOk → s.link.st = .mapping → Runs (.ctrlAck m) s fun t =>
        t.link.st = .configuring ∧ Only [.out, .link, .stats] s t)) ∧
    (MsgTaken 4 2 m s → s.link.cseq.toNat ≤ bitsNat m.word0 64 32 → Runs (.ctrlAck m) s fun t =>
      t.link.out = s.link.out ∧ Raises 0x0376 (detail [du 8 9, du 16 s.seq.stripe, ds 32 0]) s t)

/-- A FLASH_ACK of the port held moves the high-water: while the stripe runs h becomes the reported value; the ack of n_last ends
it DONE; a flash not executed raises FLASH_REJECTED (07 R165, 08 R183, R191). What STATUS reports is kept, and a rising limit flag
stops the stripe with cause 3; ERROR 4 or 5 fails the lane it names and the link; loss of the return lane in use goes to lane 1;
no STATUS for 100 us takes the link down (07 R171, 08 R181, R184, R185, R187, R196). -/
def Obligations.FlashAcksAndReportsAreHeeded : Prop :=
  (∀ (s : State) (m : RetMsg) (h : Int), MsgTaken 1 6 m s → s.link.held = true →
     strobedFlash s (msgStripe m) (msgValue m) = true → h = signedNat 32 (bitsNat (msgW1 m) 0 32) → s.seq.opened = true →
     s.seq.h ≤ h →
     (bitAt (msgW1 m) 32 = true → 512 ≤ bitsNat (msgW1 m) 33 10 → s.seq.st = .running → Runs (.flashAck m) s fun t =>
       t.seq = { s.seq with h := h, hKnown := true } ∧ t.link.hb = h ∧ Only [.seq, .link, .stats] s t) ∧
     (∀ f q i, bitAt (msgW1 m) 32 = true → 512 ≤ bitsNat (msgW1 m) 33 10 → s.seq.st = .ending → h = s.seq.nLast →
       s.seq.item = some (f, q) → findItem s f q = some i → i.live = true → Runs (.flashAck m) s fun t =>
       t.seq.st = .idle ∧ Raises 0x0361 0 s t ∧ Ended f q .done 0 0 t) ∧
     (bitAt (msgW1 m) 32 = false → s.seq.st = .running → Runs (.flashAck m) s fun t =>
       Raises 0x0375 (detail [du 8 0, du 16 s.seq.stripe, ds 32 (msgValue m)]) s t ∧ t.seq.st ≠ .running ∧ t.seq.h = h)) ∧
  (∀ (s : State) (m : RetMsg),
     (MsgTaken 2 2 m s → Runs (.status m) s fun t =>
       t.link.sCrc = bitsOf (msgW1 m) 32 32 ∧ t.link.sTemp = bitsOf (msgW1 m) 0 16 ∧
       t.link.sBlockedCrc = bitsOf (msgW1 m) 64 32 ∧ t.link.sBlockedCount = bitsOf (msgW1 m) 96 18 ∧
       t.link.hb = msgValue m ∧
       (bitAt (msgW1 m) 17 = true → s.seq.bsaLimit = false →
         Raises 0x0369 (tempDetail 1 0 (signedNat 16 (bitsNat (msgW1 m) 0 16))) s t ∧ t.seq.st.live = false)) ∧
     (∀ p, MsgTaken 3 2 m s → physOf s (bitsNat (msgW1 m) 8 8) = some p →
       bitsNat (msgW1 m) 0 8 = 4 ∨ bitsNat (msgW1 m) 0 8 = 5 → Runs (.error m) s fun t =>
       bitAt t.link.failed p = true ∧ t.link.st = .down) ∧
     (domOn s .seq = true → s.link.st ≠ .down → s.link.rlane = 0 → laneLock s 1 = true → Runs .returnLaneSwitched s fun t =>
       t.link = { s.link with rlane := 1, rlock := s.link.rlock.set 0 false } ∧
       Raises 0x037A (detail [du 8 1, du 16 s.seq.stripe, ds 32 s.seq.f]) s t) ∧
     (domOn s .seq = true → s.link.st = .trained → Runs .bsaStatusTimeout s fun t =>
       t.link.st = .down ∧ Raises 0x0376 (detail [du 8 7, du 16 s.seq.stripe, ds 32 0]) s t ∧
       Raises 0x037C (detail [du 8 0xFF, du 16 s.seq.stripe, ds 32 s.seq.f]) s t))

/-- The device's own claim granted, it holds the port; a grant it did not claim is released with breach 8; a port taken away stops
the stripe with cause 14; a claim not granted in time is withdrawn and the change to EXPOSE fails (08 R193, R194, R196, 19 R423).
-/
def Obligations.PortsAreClaimedAndLost : Prop :=
  ∀ (s : State) (m : RetMsg) (sb : Nat), sb = bitsNat (msgW1 m) 16 16 →
    (MsgTaken 5 2 m s → bitsNat (msgW1 m) 0 2 = 1 → s.link.claim.isSome = true → s.fab.pair.takeover = false →
      s.fab.pair.st ≠ .handingOver → Runs (.portEvent m) s fun t =>
      t.link.held = true ∧ t.link.claim = none ∧ t.link.hb = msgValue m ∧ t.pm = { s.pm with claimWait := false } ∧
      Raises 0x0377 (detail [du 8 0, du 16 sb, ds 32 (msgValue m)]) s t ∧ Only (.pm :: .link :: eventParts) s t) ∧
    (MsgTaken 5 2 m s → bitsNat (msgW1 m) 0 2 = 1 → s.link.claim = none → Runs (.portEvent m) s fun t =>
      t.link.held = s.link.held ∧ Raises 0x0376 (detail [du 8 8, du 16 s.seq.stripe, ds 32 0]) s t ∧
      Gives (.control 0 (ctrlWords 7 0 s.link.cseq.toNat [])) s t) ∧
    (MsgTaken 5 2 m s → bitsNat (msgW1 m) 0 2 = 2 → s.fab.pair.st = .unpaired → Runs (.portEvent m) s fun t =>
      t.link.held = false ∧ t.link.lost = true ∧ t.seq.st.live = false ∧
      Raises 0x0379 (detail [du 8 0, du 16 sb, ds 32 (msgValue m)]) s t) ∧
    (s.pm.changing = true → s.pm.claimWait = true → s.pm.target = .expose → s.link.held = false → s.link.st ≠ .down →
      Runs .portClaimTimeout s fun t => t.link.claim = none ∧ t.pm.changing = false ∧ t.pm.mode = s.pm.mode ∧
        Gives (.control 0 (ctrlWords 7 0 s.link.cseq.toNat [])) s t ∧ Raises 0x0121 0 s t)

/-! ### Stage tracking (09) -/

/-- A valid quadrature edge moves a channel's count by one, an index pulse latches it, and a good serial frame sets it; a bad one
holds it (09 R200, R201, R202, R214). TRACK_SET_COEFFS loads an image that passes R208 into the bank that is not active, refuses
any other with TRACK_COEFF_REJECTED and the check's number, and asks for a swap; TRACK_ARM begins ACQUIRING, or turns the engine
OFF (09 R208-R210, 13 R316, R317). -/
def Obligations.ChannelsBanksAndArming : Prop :=
  (∀ (s : State) (c : Fin 4), domOn s .trk = true →
     (∀ up, posMode s.cfg.act.posCfg[c] = 1 → Runs (.quadratureEdge c up) s fun t =>
       (t.trk.ch[c]).pos =
         signedNat 48 (raw 48 ((s.trk.ch[c]).pos + (if up = posInvert s.cfg.act.posCfg[c] then -1 else 1))) ∧
       (∀ d : Fin 4, d ≠ c → t.trk.ch[d] = s.trk.ch[d]) ∧ Only [.trk] s t) ∧
     (posMode s.cfg.act.posCfg[c] = 1 → Runs (.indexPulse c) s fun t =>
       (t.trk.ch[c]).index = some (s.trk.ch[c]).pos ∧ (t.trk.ch[c]).pos = (s.trk.ch[c]).pos ∧
       (∀ d : Fin 4, d ≠ c → t.trk.ch[d] = s.trk.ch[d]) ∧ Only [.trk, .scan] s t) ∧
     (∀ f, posMode s.cfg.act.posCfg[c] = 2 → injected 6 (fun p => p.toNat == c.val) s = (false, s) → frameBad f = none →
       Runs (.serialPositionFrame c f) s fun t =>
       (t.trk.ch[c]).pos = inCounts s c (signedNat 48 (bitsNat f 16 48)) ∧ (t.trk.ch[c]).seq = some (bitsOf f 8 8) ∧
       (t.trk.ch[c]).bad = 0 ∧ (∀ d : Fin 4, d ≠ c → t.trk.ch[d] = s.trk.ch[d]) ∧ Only [.trk, .stats] s t) ∧
     (∀ f why, posMode s.cfg.act.posCfg[c] = 2 → injected 6 (fun p => p.toNat == c.val) s = (false, s) →
       frameBad f = some why → (s.trk.ch[c]).bad < 2 → Runs (.serialPositionFrame c f) s fun t =>
       t.trk.ch[c] = { s.trk.ch[c] with bad := (s.trk.ch[c]).bad + 1 } ∧ t.trk.st = s.trk.st ∧ Only [.trk, .stats] s t)) ∧
  (∀ (e : Entry) (s : State) (bank : Fin 2), bank = (if bitAt (Entry.arg e 1) 0 then 1 else 0) →
     (∀ b u, Starts cmdTrackSetCoeffs e s → objBusy s [(4, 0, 0), (4, 1, 0)] = false → bitAt (Entry.arg e 1) 2 = false →
       s.trk.active ≠ some bank.val → readBuffer e (Entry.arg e 0) (fun n => n == 1040) (consume e.src s) = (.ok b, u) →
       (bankBad b = none → bitAt (Entry.arg e 1) 1 = false → Runs (.trackSetCoeffs e) s fun t =>
         t.trk = { s.trk with banks := s.trk.banks.set bank.val (some b) } ∧
         Answers cmdTrackSetCoeffs e stOk 0 (activeWord s) s t) ∧
       (bankBad b = none → bitAt (Entry.arg e 1) 1 = true → Runs (.trackSetCoeffs e) s fun t =>
         t.trk = { s.trk with banks := s.trk.banks.set bank.val (some b), swap := some bank.val } ∧
         started cmdTrackSetCoeffs e (.swap bank.val) s ∈ t.mb.running) ∧
       (∀ n, bankBad b = some n → Runs (.trackSetCoeffs e) s fun t =>
         t.trk = s.trk ∧ Raises 0x0915 0 s t ∧ Answers cmdTrackSetCoeffs e stBadArg n [] s t)) ∧
     (Starts cmdTrackArm e s → stripeFires s = false →
       (bitAt (Entry.arg e 0) 0 = true → armOk s = true → s.trk.st ≠ .acquiring → Runs (.trackArm e) s fun t =>
         t.trk.st = .acquiring ∧ t.trk.arming = true ∧ t.trk.lead = phaseLead s ((scanChannel s).getD 0) ∧
         Answers cmdTrackArm e stOk 0 (armWord t) s t ∧ Only (.trk :: answerParts) s t) ∧
       (bitAt (Entry.arg e 0) 0 = false → Runs (.trackArm e) s fun t =>
         t.trk.st = .off ∧ Answers cmdTrackArm e stOk 0 (armWord t) s t ∧ Only (.trk :: answerParts) s t)))

/-- Input faults and a lock that does not come trip the running engine: an illegal transition (reason 4), no good serial frame for
2 us (reason 5), 10 ms in ACQUIRING (reason 6); a fault of a channel not in use is only counted (09 R210, R214, R215). A sample
counts, takes the swap and the frame that wait for it, and in a fixed frame never moves the phase backward, nor forward by more
than half a line and a fine step; at most the next flash is fired, and only LOCKED with the sequencer ARMED or RUNNING (09 R203,
R204, R209, R211). -/
def Obligations.PhaseIsKeptAndFaultsTrip : Prop :=
  (∀ (s : State) (c : Fin 4), domOn s .trk = true →
     (posMode s.cfg.act.posCfg[c] = 1 → engineOn s = true → roleInUse s c = true →
       Runs (.quadratureIllegalTransition c) s fun t => Trips 4 c s t) ∧
     (posMode s.cfg.act.posCfg[c] = 1 → (engineOn s && roleInUse s c) = false →
       Runs (.quadratureIllegalTransition c) s fun t => t = stat (chKey c 0) s) ∧
     (posMode s.cfg.act.posCfg[c] = 2 → engineOn s = true → roleInUse s c = true →
       Runs (.serialFrameTimeout c) s fun t => Trips 5 c s t) ∧
     (posMode s.cfg.act.posCfg[c] = 2 → (engineOn s && roleInUse s c) = false →
       Runs (.serialFrameTimeout c) s fun t => t = stat (chKey c 8) s) ∧
     (s.trk.st = .acquiring → Runs .acquireTimeout s fun t => Trips 6 ((scanChannel s).getD 0) s t)) ∧
  (∀ s : State, domOn s .trk = true → Runs .positionSample s fun t =>
     t.trk.samples = s.trk.samples + 1 ∧ t.trk.swap = none ∧ t.trk.newFrame = none ∧
     (∀ b, s.trk.swap = some b → t.trk.active = some b) ∧
     (s.trk.newFrame = none → s.trk.arming = false → -1 ≤ s.trk.step → s.trk.step ≤ 1 →
       s.trk.phi ≤ t.trk.phi ∧ t.trk.phi ≤ s.trk.phi + 2 ^ 23 + 2 ^ 16 ∧ -1 ≤ t.trk.step ∧ t.trk.step ≤ 1 ∧
       (t.trk.f = s.trk.f ∨
         (t.trk.f = s.trk.f + 1 ∧ s.trk.st = .locked ∧ (s.seq.st = .armed ∨ s.seq.st = .running) ∧
           (s.trk.f + 1) * 2 ^ 24 ≤ t.trk.phi ∧ ∃ q, t.trk.fire = some (s.trk.f + 1, q)))))

/-! ### The scan profile and the interlocks (10) -/

/-- While SPO is driven a frame tells the next setpoint of the move; a device at rest that is no holder releases SPO; the end of a
move leaves the stage at the approach point, and that of a return to the index homed (10 R227, R228, R231, R238). SCAN_HOME sets
p_home, or begins the index search; SCAN_SET_PROFILE makes an image that passes R222 the profile and refuses any other with its
check's number; SCAN_STOP stops the stripe with cause 11 and ramps the generator to rest (10 R222, R232, R238, 13 R317). -/
def Obligations.TheStageIsMovedAsCommanded : Prop :=
  (∀ s : State, s.scan.faultFrames = 0 →
     (s.scan.st ≠ .released → domOn s .trk = true → Runs .spoFrame s fun t =>
       Gives (.spo (spoBits t)) s t ∧ t.scan.spoSeq = s.scan.spoSeq + 1 ∧
       (∀ mv, s.scan.move = some mv → t.scan.k = s.scan.k + 1 ∧ t.scan.pos = Config.planPos mv.params (s.scan.k + 1) ∧
         t.scan.vel = Config.planVel mv.params (s.scan.k + 1) ∧ t.scan.acc = Config.planAcc mv.params (s.scan.k + 1)) ∧
       (s.scan.move = none → t.scan.pos = s.scan.pos ∧ t.scan.vel = 0 ∧ t.scan.acc = 0) ∧ Only [.out, .scan, .stats] s t) ∧
     (s.scan.st = .idle → s.pm.mode ≠ .expose → s.scan.target = none → s.scan.homing = none → Runs .spoReleaseTimeout s fun t =>
       t.scan.st = .released ∧ Only [.scan] s t) ∧
     (domOn s .trk = true → s.scan.st = .moving → toTarget s = false → Runs .moveComplete s fun t =>
       t.scan.st = .atApproach ∧ t.scan.pos = moveEnd s ∧ t.scan.vel = 0 ∧ Only [.scan] s t) ∧
     (∀ h, domOn s .trk = true → s.scan.st = .homing → s.scan.homing = some h → h.phase = 2 → Runs .moveComplete s fun t =>
       t.scan.st = .idle ∧ t.scan.homed = true ∧ t.scan.pHome = h.index ∧ t.scan.homing = none ∧
       Raises 0x0924 (detail [ds 64 h.index]) s t) ∧
     (∀ h, s.scan.st = .homing → s.scan.homing = some h → h.phase = 0 → Runs .homingTravelLimit s fun t =>
       t.scan.homing = some { h with phase := 3, abort := 1 } ∧ t.scan.st = .homing ∧ Only [.scan] s t)) ∧
  (∀ (e : Entry) (s : State),
     (∀ p, Starts cmdScanHome e s → homeHold e s = false → isSearch e = false →
       p = signedNat 48 (bitsNat (Entry.arg e 1) 0 48) → Runs (.scanHome e) s fun t =>
       t.scan.pHome = p ∧ t.scan.homed = true ∧ Raises 0x0924 (detail [ds 64 p]) s t ∧
       Answers cmdScanHome e stOk 0 (homeWord p) s t) ∧
     (∀ h, Starts cmdScanHome e s → homeHold e s = false → isSearch e = true → Entry.arg e 1 = 0 → h = searchOf e →
       s.scan.profile.isSome = true → scanQuadrature s = true → 10 ≤ h.speed → h.speed ≤ profV (profileBytes s) →
       1 ≤ h.travel → h.travel ≤ 2 ^ 31 → searchForbidden h s = false → s.scan.st = .idle → Runs (.scanHome e) s fun t =>
       t.scan.st = .homing ∧ t.scan.homing = some { h with phase := 0 } ∧
       started cmdScanHome e .home s ∈ t.mb.running ∧ Only (.scan :: answerParts) s t) ∧
     (Starts cmdScanSetProfile e s →
       (profileBad (leBytes 64 (profileOf e).toNat) = none → s.scan.st = .idle ∨ s.scan.st = .released →
         Runs (.scanSetProfile e) s fun t =>
         t.scan.profile = some (profileOf e) ∧ Answers cmdScanSetProfile e stOk 0 [] s t) ∧
       (∀ n, profileBad (leBytes 64 (profileOf e).toNat) = some n → Runs (.scanSetProfile e) s fun t =>
         Raises 0x0920 0 s t ∧ Answers cmdScanSetProfile e stBadArg n [] s t ∧ Only (answerParts ++ eventParts) s t)) ∧
     (Starts cmdScanStop e s → bitAt (Entry.arg e 0) 0 = false → Runs (.scanStop e) s fun t =>
       (s.seq.st.active = true → Stops 11 (stopM false s.seq) t) ∧
       (s.scan.st.moves = true → t.scan.st = .stopping ∧ t.scan.stop = true) ∧ t.scan.target = none ∧
       Answers cmdScanStop e stOk 0 [] s t))

/-- ILK_CONFIGURE gives the named inputs their configuration, all or none; ILK_CLEAR unlatches the named items, all or none (10
R234, R237, 13 R318). An enabled input that trips latches the time of its first active edge; a hard one stops the stripe
immediately with cause 5, a ramped one at a flash boundary with cause 4, and the generator ramps to rest; chatter is counted and
told once a latched episode (10 R232, R235, R236). -/
def Obligations.InterlocksStopTheStripeUntilCleared : Prop :=
  (∀ (e : Entry) (s : State),
     (Starts cmdIlkConfigure e s →
       (ilkRefused e s = none → Runs (.ilkConfigure e) s fun t => t.ilk = ilkAfter e s ∧
         Answers cmdIlkConfigure e stOk 0 (ilkWord t) s t ∧ Only (.ilk :: answerParts) s t) ∧
       (∀ r, ilkRefused e s = some r → Runs (.ilkConfigure e) s fun t =>
         Answers cmdIlkConfigure e r.1 r.2 [] s t ∧ Only answerParts s t)) ∧
     (∀ steady, Starts cmdIlkClear e s →
       (clearBlocked (bitsNat (Entry.arg e 0) 0 9) steady s = 0 → Runs (.ilkClear e steady) s fun t =>
         (∀ i : Fin 8, (t.ilk[i]).latched = ((s.ilk[i]).latched && !(bitAt (Entry.arg e 0) i.val))) ∧
         t.seq.wdLatch = (s.seq.wdLatch && !(bitAt (Entry.arg e 0) 8)) ∧ Raises 0x0931 0 s t ∧
         Answers cmdIlkClear e stOk 0 [word [(0, 9, bitsNat (Entry.arg e 0) 0 9)]] s t) ∧
       (clearBlocked (bitsNat (Entry.arg e 0) 0 9) steady s ≠ 0 → Runs (.ilkClear e steady) s fun t =>
         Answers cmdIlkClear e stBadState 1
           [word [(16, 9, clearBlocked (bitsNat (Entry.arg e 0) 0 9) steady s)]] s t ∧ Only answerParts s t))) ∧
  (∀ (s : State) (i : Fin 8), aonAlive s = true → bitAt (s.ilk[i]).cfg 0 = true →
     (∀ ft lt, (s.ilk[i]).latched = false → Runs (.ilkTrip i ft lt) s fun t =>
       t.ilk[i] = { s.ilk[i] with latched := true, ft := ft, lt := lt, noted := false } ∧
       (∀ j : Fin 8, j ≠ i → t.ilk[j] = s.ilk[j]) ∧ (running s = true → Raises 0x0930 0 s t) ∧
       (s.seq.st.active = true → Stops (if bitAt (s.ilk[i]).cfg 1 then 5 else 4) (stopM (bitAt (s.ilk[i]).cfg 1) s.seq) t) ∧
       (bitAt (s.ilk[i]).cfg 1 = true → t.seq.gblank = true) ∧ (s.scan.st.moves = true → t.scan.st = .stopping)) ∧
     (∀ ft lt, (s.ilk[i]).latched = true → Runs (.ilkTrip i ft lt) s fun t => t = s) ∧
     (Runs (.ilkChatter i) s fun t =>
       (t.ilk[i]).chatter = (s.ilk[i]).chatter + 1 ∧ (t.ilk[i]).latched = (s.ilk[i]).latched ∧
       ((s.ilk[i]).latched = true → (s.ilk[i]).noted = false → running s = true → Raises 0x0932 0 s t) ∧
       Only (.ilk :: eventParts) s t))

/-! ### The keeper and service access (20, 22) -/

/-- SEC_IMPORT_KEY fills an empty slot with the key a sound blob holds, and refuses any other blob; SEC_STATUS reports; neither
touches another slot (20 R440-R442, 13 R319). SEC_ERASE_KEY empties the slots it names, SEC_UNLOCK_DEBUG and a debug request in
READY or HOLD all of them; a zeroing that ends leaves no byte of its regions, no region of its slots registered, and is counted
and told (20 R443-R445, R448). -/
def Obligations.KeysAreImportedAndErased : Prop :=
  (∀ (e : Entry) (s : State),
     (∀ b u, Starts cmdSecImportKey e s → importRefused (importSlot e) s = none →
       readBuffer e (Entry.arg e 1) (fun n => n == 176) (consume e.src s) = (.ok b, u) →
       (∀ key, unwrapBlob b (importSlot e).val (bitsNat (Entry.arg e 0) 64 64) = some key → Runs (.secImportKey e) s fun t =>
         (t.keep.slots[importSlot e]).key = key ∧ (t.keep.slots[importSlot e]).keyId = bitsOf (Entry.arg e 0) 64 64 ∧
         (t.keep.slots[importSlot e]).occupied = true ∧ t.keep.imports = s.keep.imports + 1 ∧
         (∀ i : Fin 64, i ≠ importSlot e → t.keep.slots[i] = s.keep.slots[i]) ∧
         Raises 0x0A10 (detail [du 8 (importSlot e).val, du 64 (bitsNat (Entry.arg e 0) 64 64)]) s t ∧
         Answers cmdSecImportKey e stOk 0 [word [(0, 32, t.keep.imports.toNat)]] s t) ∧
       (unwrapBlob b (importSlot e).val (bitsNat (Entry.arg e 0) 64 64) = none → Runs (.secImportKey e) s fun t =>
         t.keep = s.keep ∧ Raises 0x0A11 0 s t ∧ Answers cmdSecImportKey e stDenied 2 [] s t)) ∧
     (∀ r, Starts cmdSecImportKey e s → importRefused (importSlot e) s = some r → Runs (.secImportKey e) s fun t =>
       Answers cmdSecImportKey e stBadState r [] s t ∧ Only answerParts s t) ∧
     (Starts cmdSecStatus e s → Runs (.secStatus e) s fun t =>
       Answers cmdSecStatus e stOk 0 (secWords s) s t ∧ Only answerParts s t)) ∧
  (∀ (e : Entry) (s : State),
     (Starts cmdSecEraseKey e s → s.keep.zeroing = [] → Runs (.secEraseKey e) s fun t =>
       SlotsErased (erasureOf e).mask s t ∧
       Answers cmdSecEraseKey e stOk 0 [word [(0, 32, t.keep.erases.toNat), (64, 64, (occupiedMask t).toNat)]] s t) ∧
     (Starts cmdSecUnlockDebug e s → bitsNat (Entry.arg e 0) 0 16 = 0xDEB0 → Runs (.secUnlockDebug e) s fun t =>
       (∀ i : Fin 64, t.keep.slots[i] = KeySlot.empty) ∧ t.keep.debug = true ∧ Raises 0x0A15 0 s t ∧
       Answers cmdSecUnlockDebug e stOk 0 [word [(0, 32, t.keep.erases.toNat)]] s t) ∧
     (running s = true → s.pm.mode = .ready ∨ s.pm.mode = .hold → Runs .dbgRequest s fun t =>
       (∀ i : Fin 64, t.keep.slots[i] = KeySlot.empty) ∧ t.keep.debug = true ∧ Raises 0x0A15 0 s t) ∧
     (running s = true → s.pm.mode ≠ .ready → s.pm.mode ≠ .hold → Runs .dbgRequest s fun t =>
       t.keep = { s.keep with dbgHeld := true } ∧ Only [.keep] s t) ∧
     (∀ x l, s.keep.zeroing = x :: l → memWorks s = true → Runs .erasureZeroingDone s fun t =>
       t.keep.zeroing = l ∧ t.keep.erases = s.keep.erases + 1 ∧
       (∀ r ∈ t.keep.regions, ¬ (x.all = true ∨ slotNamed x.mask r.slot = true)) ∧
       (∀ r ∈ namedRegions x s, ∀ c ∈ t.hbmMem, ¬ (r.start ≤ c.1 ∧ c.1 < r.start + r.len)) ∧
       Raises 0x0A12 (detail [du 64 x.mask.toNat, du 8 x.cause, du 56 ((namedRegions x s).map (·.len)).sum]) s t))

/-- The second failed check in a row trips: latched, counted and every slot empty; the latch clears once the loop has been closed
for 10 s. The battery's level sets and clears the low flag; a keeper on battery below 2.05 V keeps no key (20 R438, R439, R446,
R447). -/
def Obligations.TamperErasesEverything : Prop :=
  ∀ s : State, s.keep.stopped = false →
    (s.keep.latched = false → s.keep.fails = 1 → Runs (.tamperCheck false) s fun t =>
      t.keep.latched = true ∧ t.keep.trips = s.keep.trips + 1 ∧ (∀ i : Fin 64, t.keep.slots[i] = KeySlot.empty) ∧
      (s.keep.battery = false → running s = true → Raises 0x0A13 (detail [du 48 (s.keep.ticks + 64).toNat]) s t)) ∧
    (s.keep.fails = 0 → Runs (.tamperCheck false) s fun t =>
      t.keep.fails = 1 ∧ t.keep.loopOpen = true ∧ t.keep.slots = s.keep.slots ∧ Only [.keep] s t) ∧
    (Runs (.tamperCheck true) s fun t =>
      t.keep = { s.keep with ticks := s.keep.ticks + 64, fails := 0, loopOpen := false } ∧ Only [.keep] s t) ∧
    (s.keep.latched = true → s.keep.loopOpen = false → Runs .tamperCleared s fun t =>
      t.keep.latched = false ∧ (s.keep.battery = false → running s = true → Raises 0x0A14 0 s t)) ∧
    (∀ mv, s.keep.battery = false → Runs (.vbatThreshold mv) s fun t =>
      t.keep.vbat = mv ∧
      t.keep.vbatLow = (if mv.toNat < 2200 then true else if 2300 < mv.toNat then false else s.keep.vbatLow) ∧
      t.keep.slots = s.keep.slots) ∧
    (∀ mv, s.keep.battery = true → s.keep.latched = false → mv.toNat < 2050 → Runs (.vbatThreshold mv) s fun t =>
      t.keep.stopped = true ∧ ∀ i : Fin 64, t.keep.slots[i] = KeySlot.empty) ∧
    (s.keep.battery = false → 2050 ≤ s.keep.vbat.toNat → Runs (.keeperSupplySwitch true) s fun t =>
      t.keep = { s.keep with battery := true } ∧ Only [.keep] s t) ∧
    (s.keep.battery = true → Runs (.keeperSupplySwitch false) s fun t =>
      t.keep.battery = false ∧ t.keep.slots = s.keep.slots ∧ Only (.keep :: eventParts) s t)

/-- The service port and IDENT tell their events while the device runs; the SMBus slave clears and enables its alerts and gives
its address (20 R450, R451, 22 R483). -/
def Obligations.PinsAreHeard : Prop :=
  ∀ (s : State),
    (s.svc.attached = false → Runs .svcAttached s fun t =>
      t.svc.attached = true ∧ (running s = true → Raises 0x0A20 0 s t) ∧ Only (.svc :: eventParts) s t) ∧
    (s.svc.attached = true → Runs .svcDetached s fun t =>
      t.svc.attached = false ∧ (running s = true → Raises 0x0A21 0 s t) ∧ Only (.svc :: eventParts) s t) ∧
    (∀ ms, aonAlive s = true → s.svc.stuck = false → Runs (.identPressed ms) s fun t =>
      (running s = true → Raises 0x0A23 (detail [du 32 ms.toNat]) s t) ∧
      (ms.toNat < 2000 → t.svc.flashing = true) ∧ (5000 ≤ ms.toNat → (ftNow s, ltNow s) ∈ t.nor.marks)) ∧
    (aonAlive s = true → s.svc.stuck = false → Runs .identStuck s fun t =>
      t.svc.stuck = true ∧ (running s = true → Raises 0x0A23 (detail [du 32 30000]) s t)) ∧
    (Runs .identFlashEnd s fun t => t.svc = { s.svc with flashing := false } ∧ Only [.svc] s t) ∧
    (∀ v, aonAlive s = true → Runs (.smbStatusClear v) s fun t =>
      t.smb = { s.smb with status := s.smb.status &&& ~~~(v.setWidth 4) } ∧ Only [.smb] s t) ∧
    (∀ v, aonAlive s = true → Runs (.smbAlertEnWrite v) s fun t =>
      t.smb = { s.smb with alertEn := v.setWidth 4 } ∧ Only [.smb] s t) ∧
    (aonAlive s = true → Runs .smbAlertResponse s fun t => Gives (.smbAlertAddress (smbAddress s)) s t ∧ Only [.out] s t)

/-! ### Updates (21, 13 R320) -/

/-- UPD_BEGIN opens a fresh update or goes on with the same one; UPD_PUT_PIECE holds a piece whose CRC is right and refuses any
other; UPD_STATUS reports; UPD_ARM arms an image whose digest is right, and with `now` asks for a reset of kind 3 (13 R320, 21
R456, R460). An UPDATE item gives its target the next piece missing at each tick, ends DONE once this device holds all of them,
and NO_RESOURCE where a peer answers nothing for 10 s; a lone half of a relayed piece is dropped after 1 s (21 R458, R459). -/
def Obligations.UpdatesAreStagedAndSent : Prop :=
  (∀ (e : Entry) (s : State),
     (∀ d, Starts cmdUpdBegin e s → d = updDescOf e → 4096 ≤ d.imgLen → d.imgLen ≤ 33554432 →
       d.pieces = (d.imgLen + 4095) / 4096 →
       (sameUpdate d s = false → s.upd.st < 3 → Runs (.updBegin e) s fun t =>
         t.upd = { s.upd with st := 1, imgId := d.imgId, imgLen := d.imgLen, pieces := d.pieces, imgCrc := d.imgCrc,
                              digest := d.digest, held := [] } ∧
         Raises 0x0B10 (detail [dflag false]) s t ∧ Answers cmdUpdBegin e stOk 0 [0] s t) ∧
       (sameUpdate d s = true → s.upd.st ≠ 0 → Runs (.updBegin e) s fun t =>
         t.upd = s.upd ∧ Raises 0x0B10 (detail [dflag true]) s t ∧
         Answers cmdUpdBegin e stOk 0 [word [(0, 32, s.upd.held.length)]] s t)) ∧
     (∀ ok b u i, Starts cmdUpdPutPiece e s → i = bitsNat (Entry.arg e 0) 32 32 →
       readBuffer e (Entry.arg e 1) (fun n => n == 4096) (consume e.src s) = (.ok b, u) →
       s.upd.st ≠ 0 → bitsOf (Entry.arg e 0) 0 32 = s.upd.imgId → i < s.upd.pieces → pieceHeld s i = false →
       (crc32c b = bitsOf (Entry.arg e 0) 64 32 → ok = true → Runs (.updPutPiece e ok) s fun t =>
         t.upd.held = s.upd.held ++ [(i, bitsOf (Entry.arg e 0) 64 32, b)] ∧
         (s.upd.st = 1 → s.upd.held.length + 1 = s.upd.pieces → t.upd.st = 2 ∧ Raises 0x0B12 0 s t) ∧
         Answers cmdUpdPutPiece e stOk 0 (pieceWord t) s t) ∧
       (crc32c b ≠ bitsOf (Entry.arg e 0) 64 32 ∨ ok = false → Runs (.updPutPiece e ok) s fun t =>
         t.upd = s.upd ∧ Raises 0x0B11 0 s t ∧ Answers cmdUpdPutPiece e stFault 3 [] s t)) ∧
     (Starts cmdUpdStatus e s → Runs (.updStatus e) s fun t =>
       Answers cmdUpdStatus e stOk 0 (updWords s) s t ∧ Only answerParts s t) ∧
     (Starts cmdUpdArm e s → bitsNat (Entry.arg e 0) 8 8 = 0xA5 → pairHolds s = false →
       updComplete (checkPieces s) = true →
       (Config.sha384 (stagedImage (checkPieces s)) = s.upd.digest → Runs (.updArm e) s fun t =>
         t.upd = { (checkPieces s).upd with st := 3 } ∧ Raises 0x0B13 0 s t ∧ Answers cmdUpdArm e stOk 0 [] s t ∧
         (bitAt (Entry.arg e 0) 0 = true → t.pm.commandedReset = some 3 ∧ Raises 0x0111 0 s t)) ∧
       (Config.sha384 (stagedImage (checkPieces s)) ≠ s.upd.digest → Runs (.updArm e) s fun t =>
         Answers cmdUpdArm e stFault 4 [] s t))) ∧
  (∀ (s : State) (f : BitVec 8) (r : UpdRun) (j : UpdJob), updOf s f = some r → r.job s = some j →
     (∀ i, j.target = 0 → nextPiece r (pieceHeld s) = some i → s.upd.st ≠ 0 → (imageDesc r.image).imgId = s.upd.imgId →
       i < s.upd.pieces → Runs (.updateRateTick f) s fun t => pieceHeld t i = true) ∧
     (∀ i, j.target = 0 → nextPiece r (pieceHeld s) = none → findItem s r.flow r.seq = some i → i.live = true →
       Runs (.updateRateTick f) s fun t => Ended r.flow r.seq .done 0 0 t ∧ updOf t f = none) ∧
     (∀ i, j.target ≠ 0 → mayOriginate s = true → r.begun = true → nextPiece r r.have_.contains = some i →
       Runs (.updateRateTick f) s fun t => ∃ x, updOf t f = some x ∧ x.sent = r.sent + 1 ∧ x.have_ = i :: r.have_) ∧
     (∀ i, j.target ≠ 0 → findItem s r.flow r.seq = some i → i.live = true → Runs (.updateTargetTimeout f) s fun t =>
       Ended r.flow r.seq .failed stNoResource 0 t ∧ updOf t f = none) ∧
     (Runs .relayHalfTimeout s fun t => t.fab.halves = s.fab.halves.drop 1 ∧ Only [.fab] s t))

/-! ### Diagnostics and calibration (13 R321-R323, 18) -/

/-- A loopback takes its link down until its duration ends and leaves its results; an injected fault waits for its occurrence with
0x0C10, or is DENIED where diagnostics are not enabled; DIAG_COUNTERS shows the event counters of a class (13 R321-R323). -/
def Obligations.DiagnosticsAct : Prop :=
  ∀ (e : Entry) (s : State) (a : W128), a = Entry.arg e 0 →
    (Starts cmdDiagLoopback e s → objBusy s [(5, 0, 0)] = false → bitsNat a 0 4 ≤ 2 → 1 ≤ bitsNat a 32 32 →
      bitsNat a 32 32 ≤ 1000000 → bitsNat a 8 8 < loopUnits (bitsNat a 0 4) → Runs (.diagLoopback e) s fun t =>
      t.diag.loop = some (bitsNat a 0 4, bitsNat a 8 8) ∧ started cmdDiagLoopback e .loopback s ∈ t.mb.running ∧
      (bitsNat a 0 4 ≠ 1 → t.link.st = .down) ∧
      (∀ p : Fin 8, bitsNat a 0 4 = 1 → bitsNat a 8 8 = p.val → (port t p).st = .down)) ∧
    (∀ n x l, s.diag.loop.isSome = true → Runs (.loopbackDurationEnd n x l) s fun t =>
      t.diag.loop = none ∧ t.diag.result = (n, x, l) ∧ (∀ w ∈ t.mb.running, w.on ≠ .loopback) ∧
      Only (.diag :: answerParts) s t) ∧
    (Starts cmdDiagInject e s → s.cfg.act.diagEnable ≠ 0 → bitsNat a 0 16 ∈ [1, 2, 3, 4, 6, 7, 8, 9, 10] →
      bitsNat a 16 16 ≠ 0 → (∀ n, paramLimit (bitsNat a 0 16) = some n → bitsNat a 32 32 < n) → Runs (.diagInject e) s fun t =>
      (bitsNat a 0 16 ≠ 9 → t.diag.inject = s.diag.inject ++ [(bitsNat a 0 16, bitsNat a 16 16, bitsOf a 32 32)]) ∧
      (bitsNat a 0 16 = 9 → t.diag.withhold = true) ∧
      Raises 0x0C10 (detail [du 16 (bitsNat a 0 16), du 32 (bitsNat a 32 32)]) s t ∧
      Answers cmdDiagInject e stOk 0 [] s t ∧ Only (.diag :: (answerParts ++ eventParts)) s t) ∧
    (Starts cmdDiagInject e s → s.cfg.act.diagEnable = 0 → Runs (.diagInject e) s fun t =>
      Answers cmdDiagInject e stDenied 1 [] s t ∧ Only answerParts s t) ∧
    (Runs .ackWithholdEnd s fun t => t.diag = { s.diag with withhold := false } ∧ Only [.diag] s t) ∧
    (Starts cmdDiagCounters e s → 1 ≤ bitsNat a 0 8 → bitsNat a 0 8 ≤ 0x0C → Runs (.diagCounters e) s fun t =>
      t.aper.bytes = counterBytes s (bitsNat a 0 8) 1 ∧ t.aper.gen = s.aper.gen + 1 ∧
      Answers cmdDiagCounters e stOk 0 [word [(0, 32, t.aper.bytes.length), (32, 32, t.aper.gen.toNat)]] s t ∧
      Only (.aper :: answerParts) s t)

/-- A calibration run is asked for, starts with the measured reference, and its end judges each target: one whose two measurements
agree and are plausible takes their mean, another fails with its event; CAL_SET_LIMITS takes an image that passes R412 and refuses
any other (18 R408, R410-R412, R414-R416, 13 R315, 22 R481). -/
def Obligations.CalibrationJudgesItsTargets : Prop :=
  ∀ (e : Entry) (s : State),
    (Starts cmdCalRun e s → s.cal.st = 0 → s.pm.mode ≠ .expose ∨ bitAt (Entry.arg e 0) 4 = true →
      bitsNat (Entry.arg e 0) 0 4 ≠ 0 → Runs (.calRun e) s fun t =>
      t.cal = { s.cal with st := 1, targets := bitsOf (Entry.arg e 0) 0 4, item := none } ∧
      started cmdCalRun e .calRun s ∈ t.mb.running ∧ Only (.cal :: answerParts) s t) ∧
    (Starts cmdCalStatus e s → Runs (.calStatus e) s fun t =>
      Answers cmdCalStatus e stOk 0
        [word [(0, 32, s.cal.count.toNat), (32, 32, s.cal.pt.toNat), (64, 32, s.cal.ft.toNat),
           (96, 4, s.cal.accepted.toNat), (100, 4, s.cal.failedMask.toNat)],
         word [(0, 32, s.cal.failures.toNat)]] s t ∧ Only answerParts s t) ∧
    (∀ b u, Starts cmdCalSetLimits e s → s.cal.st = 0 →
      readBuffer e (Entry.arg e 0) (fun n => n == 64) (consume e.src s) = (.ok b, u) →
      (limitsBad b = none → Runs (.calSetLimits e) s fun t =>
        t.cal = { s.cal with limits := BitVec.ofNat 512 (leNat b) } ∧ Raises 0x0814 0 s t ∧
        Answers cmdCalSetLimits e stOk 0 [] s t) ∧
      (∀ n, limitsBad b = some n → Runs (.calSetLimits e) s fun t =>
        t.cal = s.cal ∧ Raises 0x0815 0 s t ∧ Answers cmdCalSetLimits e stBadArg n [] s t)) ∧
    (∀ na, s.cal.st = 1 → domOn s .trk = true → calPoint s = true → Runs (.calRunStart na) s fun t =>
      t.cal.st = 2 ∧ t.cal.iRef = na ∧ (refOk na = false → Raises 0x0812 0 s t)) ∧
    (∀ l, s.cal.st = 2 → domOn s .trk = true → Runs (.calDone l) s fun t =>
      t.cal.st = 0 ∧ t.cal.last = l ∧ t.cal.count = s.cal.count + 1 ∧
      (∀ k, k < 4 → bitAt s.cal.targets k = true →
        (targetFail s l k = none → bitAt t.cal.accepted k = true ∧
          (k < 3 → ∀ x ∈ calItems k, calValue t k x.1 x.2 = calMean (measOf l k x.1 x.2).1 (measOf l k x.1 x.2).2)) ∧
        (∀ f, targetFail s l k = some f → bitAt t.cal.failedMask k = true ∧
          Raises 0x0811 (detail [du 8 k, du 8 f.unit, du 8 f.quantity, ds 32 f.a, ds 32 f.b, du 8 f.cause]) s t))) ∧
    (∀ ch raw, domOn s .trk = true → s.cal.st ≠ 2 → Runs (.monitorAdcSample ch raw) s fun t =>
      t.cal.adc = s.cal.adc.set ch.val (adcValue s ch.val raw.toInt, false, ltNow s) ∧ Only [.cal] s t)

/-! ### Time bases (16, 13 R314) -/

/-- TIME_GET answers all four bases; TIME_SET_SOURCE gives a base a source that is valid for it; TIME_ADJUST sets a rate, clamped
to 500 ppm, or steps the base with TIME_STEPPED (13 R314, 16 R378, R385). -/
def Obligations.TimeIsSetAndRead : Prop :=
  ∀ (e : Entry) (s : State),
    (Starts cmdTimeGet e s → Runs (.timeGet e) s fun t =>
      Answers cmdTimeGet e stOk 0 (timeWords s) s t ∧ Only answerParts s t) ∧
    (∀ src, Starts cmdTimeSetSource e s → src = bitsNat (Entry.arg e 0) 4 4 →
      (sourceValid (argBase e).val src = true → baseCounts s (argBase e) = true → Runs (.timeSetSource e) s fun t =>
        (t.time.base[argBase e]).src = src ∧ Answers cmdTimeSetSource e stOk 0 [] s t ∧ Only (.time :: answerParts) s t) ∧
      (sourceValid (argBase e).val src = false → Runs (.timeSetSource e) s fun t =>
        Answers cmdTimeSetSource e stBadArg 1 [] s t ∧ Only answerParts s t)) ∧
    (∀ v, Starts cmdTimeAdjust e s → v = signedNat 64 (bitsNat (Entry.arg e 0) 64 64) →
      adjustBad s (argBase e) (bitAt (Entry.arg e 0) 2) = none →
      (bitAt (Entry.arg e 0) 2 = true → Runs (.timeAdjust e) s fun t =>
        (t.time.base[argBase e]).rate = clampInt (-ppm500) ppm500 v ∧ Answers cmdTimeAdjust e stOk 0 [] s t ∧
        Only (.time :: answerParts) s t) ∧
      (bitAt (Entry.arg e 0) 2 = false → Runs (.timeAdjust e) s fun t =>
        Raises 0x0712 (detail [du 8 (argBase e).val, ds 64 v]) s t ∧ Answers cmdTimeAdjust e stOk 0 [] s t ∧
        Only (.time :: (answerParts ++ eventParts)) s t)) ∧
    (∀ r, Starts cmdTimeAdjust e s → adjustBad s (argBase e) (bitAt (Entry.arg e 0) 2) = some r → Runs (.timeAdjust e) s fun t =>
      Answers cmdTimeAdjust e r.1 r.2 [] s t ∧ Only answerParts s t)

/-- A base that loses its source counts on and tells it; PTP follows the best master it hears, takes a Sync's time with a
Delay_Req, and the path delay from its answer (16 R382, R384, R388). -/
def Obligations.SourcesAreFollowedAndLost : Prop :=
  ∀ (s : State) (m : PtpMsg),
    ((s.time.base[(0 : Fin 4)]).src = 1 → baseCounts s 0 = true → (s.time.base[(0 : Fin 4)]).acquired = true →
      Runs (.timeSourceTimeout 0) s fun t =>
      (t.time.base[(0 : Fin 4)]).state = 2 ∧ (t.time.base[(0 : Fin 4)]).rate = (s.time.base[(0 : Fin 4)]).rate ∧
      Raises 0x0711 (detail [du 8 0]) s t ∧ Only (.time :: eventParts) s t) ∧
    (mayOriginate s = true → (s.time.base[(0 : Fin 4)]).src = 1 ∨ (s.time.base[(0 : Fin 4)]).src = 2 → Runs .timeSporeTimer s fun t =>
      t.fab.msgId.toNat = (s.fab.msgId.toNat + (allPorts.filter (portUp s)).length) % 2 ^ 32 ∧
      Only [.out, .time, .fab, .diag, .stats] s t) ∧
    (ptpHears s m = true → Runs (.ptpAnnounce m) s fun t =>
      { sender := m.sender, quality := m.quality } ∈ t.time.ptpMasters ∧
      t.time.ptpMaster = (bestMaster t.time.ptpMasters).map (·.sender) ∧
      (s.time.ptpMaster ≠ t.time.ptpMaster → Raises 0x0714 0 s t) ∧ Only (.time :: eventParts) s t) ∧
    (ptpHears s m = true → s.time.ptpMaster = some m.sender → m.twoStep = true → Runs (.ptpSync m) s fun t =>
      t.time = { s.time with ptpSync := some (m.seq, m.received) } ∧ Only [.time, .stats] s t) ∧
    (ptpHears s m = true → s.time.ptpMaster = some m.sender → m.twoStep = false → Runs (.ptpSync m) s fun t =>
      (t.time.base[(3 : Fin 4)]).offset = (s.time.base[(3 : Fin 4)]).delay - timeDiff m.received m.origin ∧
      Gives (.delayReq s.time.ptpSeq) s t ∧ t.time.ptpSeq = s.time.ptpSeq + 1) ∧
    (∀ rx, ptpHears s m = true → s.time.ptpMaster = some m.sender → s.time.ptpSync = some (m.seq, rx) → Runs (.ptpFollowUp m) s fun t =>
      (t.time.base[(3 : Fin 4)]).offset = (s.time.base[(3 : Fin 4)]).delay - timeDiff rx m.origin ∧
      Gives (.delayReq s.time.ptpSeq) s t ∧ t.time.ptpSync = none) ∧
    (∀ t3, ptpHears s m = true → s.time.ptpMaster = some m.sender → s.time.ptpReq = some (m.seq, t3) → Runs (.ptpDelayResp m) s fun t =>
      (t.time.base[(3 : Fin 4)]).delay = (s.time.ptpForward + timeDiff m.origin t3) / 2 ∧ t.time.ptpReq = none ∧
      Only [.time, .stats] s t) ∧
    (∀ n, s.time.ptpMaster = some n → running s = true → (s.time.base[(3 : Fin 4)]).acquired = true → Runs .ptpMasterTimeout s fun t =>
      t.time.ptpMaster = none ∧ (t.time.base[(3 : Fin 4)]).state = 2 ∧ Raises 0x0711 (detail [du 8 3]) s t ∧
      Only (.time :: eventParts) s t)

/-! ### The fabric (15) -/

/-- A port in DOWN trains, returns to DOWN where training fails, and comes UP with a sound HELLO; losing block lock takes it DOWN
with FAB_PORT_DOWN (15 R355). -/
def Obligations.PortsTrainAndFall : Prop :=
  ∀ (s : State) (p : Fin 8),
    (∀ i ∈ [Instr.portTrainStart p, Instr.portRetry p], (port s p).st = .down → domOn s .fab = true → loopOnPort s p.val = false →
      Runs i s fun t => (port t p).st = .training ∧ (∀ q : Fin 8, q ≠ p → port t q = port s q) ∧
      (∀ l ∈ [0, 1, 2, 3], Gives (.block p.val (ctlBlock 0x66 [(0, 8, l), (8, 8, 0xFE)])) s t) ∧ Only [.out, .fab] s t) ∧
    ((port s p).st = .training → Runs (.portTrainingTimeout p) s fun t =>
      port t p = { port s p with st := .down } ∧ (∀ q : Fin 8, q ≠ p → port t q = port s q) ∧ Only [.fab] s t) ∧
    (fabAlive s = true → portUp s p = true → Runs (.fabPortDown p) s fun t => (port t p).st = .down ∧ Raises 0x0601 0 s t) ∧
    (∀ sp, (port s p).st = .training → domOn s .fab = true → hdrType sp.header = 1 → helloValid sp = true →
      helloSerial sp.payload ≠ Config.serial → Runs (.hello p sp) s fun t =>
      (port t p).st = .up ∧ (port t p).pSerial = helloSerial sp.payload ∧ (port t p).pNode = helloNode sp.payload ∧
      (port t p).cls = Vector.replicate 4 PClass.init ∧ (∀ q : Fin 8, q ≠ p → port t q = port s q) ∧ Raises 0x0600 0 s t ∧
      Only (.fab :: eventParts) s t)

/-- LINK_ACK ends the spores it acknowledges, CREDIT returns credits; a spore not acknowledged is sent again, and the eighth time
in a row the port goes DOWN; owed credits and acknowledgements are sent in time; a spore for another node goes on, its TTL one
less (15 R352-R354, R356, R363). -/
def Obligations.LinkControlMovesSpores : Prop :=
  ∀ (s : State) (p : Fin 8) (c : Fin 4),
    (∀ b l, bitsNat b 0 8 = 0x33 → takesControl s p = true → bitsNat b 8 8 = c.val → bitsNat b 40 8 = 0 → bitsNat b 56 8 = 0 →
      unackedAfter (pclass s p c) (bitsNat b 16 24) = some l → Runs (.linkAck p b) s fun t =>
      (pclass t p c).unacked = l ∧ (∀ d : Fin 4, d ≠ c → pclass t p d = pclass s p d) ∧ Only [.fab] s t) ∧
    (∀ b q, bitsNat b 0 8 = 0x4B → takesControl s p = true → bitsNat b 40 24 = 0 → takeCredits (port s p) b = some q →
      Runs (.credit p b) s fun t => (∀ d : Fin 4, (pclass t p d).returned = (q.cls[d]).returned) ∧
      ((∀ d : Fin 4, (q.cls[d]).queue = []) → port t p = q ∧ Only [.fab] s t)) ∧
    (fabAlive s = true → portUp s p = true → (pclass s p c).unacked ≠ [] →
      ((pclass s p c).episodes < 7 → Runs (.sporeAckTimeout p c) s fun t =>
        (pclass t p c).episodes = (pclass s p c).episodes + 1 ∧ (pclass t p c).unacked = (pclass s p c).unacked ∧
        ∀ x ∈ (pclass s p c).unacked, Gives (.spore p.val x.hopSeq c.val x.ttl x.header x.payload) s t) ∧
      (7 ≤ (pclass s p c).episodes → Runs (.sporeAckTimeout p c) s fun t => (port t p).st = .down ∧ Raises 0x0601 0 s t)) ∧
    (takesControl s p = true → (∃ d : Fin 4, 0 < (pclass s p d).owed) → Runs (.creditReturnTimer p) s fun t =>
      (∀ d : Fin 4, (pclass t p d).owed = 0 ∧ (pclass t p d).freed = (pclass s p d).freed) ∧
      Gives (.block p.val (ctlBlock 0x4B [(0, 8, (pclass s p 0).freed), (8, 8, (pclass s p 1).freed),
        (16, 8, (pclass s p 2).freed), (24, 8, (pclass s p 3).freed)])) s t ∧ Only [.out, .fab] s t) ∧
    (takesControl s p = true → 0 < (pclass s p c).owedAcks → Runs (.linkAckTimer p c) s fun t =>
      pclass t p c = { pclass s p c with owedAcks := 0 } ∧
      Gives (.block p.val (ctlBlock 0x33 [(0, 8, c.val), (8, 24, 16777215 + (pclass s p c).rx), (32, 8, 0), (40, 8, 0)])) s t ∧
      Only [.out, .fab] s t) ∧
    (∀ sp q, (linkTake p sp s).1 = true → sporeViolation sp s.fab.node.toNat = none → hdrDst sp.header ≠ 0 →
      hdrDst sp.header ≠ 0xFFF → hdrDst sp.header ≠ s.fab.node.toNat → sp.ttl ≠ 0 → routePort s (hdrDst sp.header) = some q →
      Runs (.sporeForward p sp) s fun t => Queued q sp.cls sp.header sp.payload t)

/-- A discovery trains the ports it names and collects the TOPO of each device for 50 ms; a node ID is given once, to this device
or by ASSIGN and its ASSIGN_ACK within 10 ms; FAB_SET_ROUTE writes or clears an entry (15 R360-R362, 13 R313). -/
def Obligations.NodesAreFoundAndNamed : Prop :=
  ∀ (e : Entry) (s : State) (p : Fin 8) (sp : Spore),
    (Starts cmdFabDiscover e s → objBusy s [(5, 0, 0)] = false → Runs (.fabDiscover e) s fun t =>
      t.fab.found = [] ∧ started cmdFabDiscover e .discover s ∈ t.mb.running ∧
      ∀ q : Fin 8, bitAt (Entry.arg e 0) q.val = true → (port s q).st = .down → loopOnPort s q.val = false →
        (port t q).st = .training) ∧
    (Heard 2 p sp s → discovering s = true → (foundOf sp.payload).serial ≠ Config.serial → Runs (.topo p sp) s fun t =>
      foundOf sp.payload ∈ t.fab.found) ∧
    (discovering s = true → Runs .discoveryCollectTimeout s fun t =>
      discovering t = false ∧ Raises 0x0606 0 s t ∧ Only (answerParts ++ eventParts) s t) ∧
    (∀ serial node, Starts cmdFabAssignNode e s → objBusy s [(5, 0, 0)] = false → serial = bitsOf (Entry.arg e 0) 0 64 →
      node = bitsOf (Entry.arg e 0) 64 12 → nodeOk node.toNat = true → nodeTaken s node = false →
      (serial ≠ Config.serial → Runs (.fabAssignNode e) s fun t =>
        t.fab.node = s.fab.node ∧ started cmdFabAssignNode e (.assignNode serial node) s ∈ t.mb.running) ∧
      (serial = Config.serial → s.fab.pair.st = .unpaired → Runs (.fabAssignNode e) s fun t =>
        t.fab.node = node ∧ Raises 0x0607 0 s t ∧ ∀ w ∈ t.mb.running, w.on ≠ .assignNode serial node)) ∧
    (∀ node, Heard 3 p sp s → BitVec.ofNat 64 (leAt sp.payload 16 8) = Config.serial → s.fab.pair.st = .unpaired →
      node = BitVec.ofNat 12 (leAt sp.payload 24 2) → nodeOk node.toNat = true → s.fab.node ≠ node →
      Runs (.assign p sp) s fun t => t.fab.node = node ∧ Raises 0x0607 0 s t) ∧
    (Heard 4 p sp s → Runs (.assignAck p sp) s fun t => ∀ w ∈ t.mb.running,
      w.on ≠ .assignNode (BitVec.ofNat 64 (leAt sp.payload 0 8)) (BitVec.ofNat 12 (leAt sp.payload 8 2))) ∧
    (Runs .assignTimeout s fun t => (∀ w ∈ t.mb.running, ∀ x n, w.on ≠ .assignNode x n) ∧ Only answerParts s t) ∧
    (∀ d, Starts cmdFabSetRoute e s → d = bitsNat (Entry.arg e 0) 0 12 → nodeOk d = true →
      (bitAt (Entry.arg e 0) 20 = true → Runs (.fabSetRoute e) s fun t =>
        bitsNat (routeOf t d) 0 9 = bitsNat (routeEntry (Entry.arg e 0) 0) 0 9 ∧ Answers cmdFabSetRoute e stOk 0 [] s t ∧
        Only (.fab :: (answerParts ++ eventParts)) s t) ∧
      (bitAt (Entry.arg e 0) 20 = false → Runs (.fabSetRoute e) s fun t =>
        tget t.fab.routes d = none ∧ Answers cmdFabSetRoute e stOk 0 [] s t))

/-- FAB_PAIR asks a peer and forms the pair once the peer's PAIR_REQ agrees and its PAIR_ACK has come; role 0 ends it; beats tell
each partner of the other, and a partner that falls silent is lost or its column taken over (15 R368-R370, R372). -/
def Obligations.PairsFormAndEnd : Prop :=
  ∀ (e : Entry) (s : State) (p : Fin 8) (sp : Spore),
    (∀ n role, Starts cmdFabPair e s → objBusy s [(8, 0, 0), (7, 0, 0)] = false → n = bitsOf (Entry.arg e 0) 0 12 →
      role = bitsNat (Entry.arg e 0) 12 2 →
      (role = 1 ∨ role = 2 → nodeOk n.toNat = true → n ≠ s.fab.node → s.fab.pair.req = none → Runs (.fabPair e) s fun t =>
        t.fab.pair.pending = some (n, role) ∧ t.fab.pair.ackSeen = false ∧ started cmdFabPair e .pair s ∈ t.mb.running) ∧
      (role = 0 → Runs (.fabPair e) s fun t => t.fab.pair.st = .unpaired ∧ Answers cmdFabPair e stOk 0 (pairWords s) s t)) ∧
    (Heard 0x10 p sp s → s.fab.pair.st = .unpaired → s.fab.pair.pending = none → Runs (.pairReq p sp) s fun t =>
      t.fab.pair.req = some (srcNode sp, blk sp.payload 0 64 2, BitVec.ofNat 96 (blk sp.payload 1 0 96)) ∧
      t.fab.mirror.pairEpoch = some (BitVec.ofNat 32 (blk sp.payload 0 96 32)) ∧ t.fab.pair.st = .unpaired) ∧
    (∀ role, Heard 0x11 p sp s → s.fab.pair.pending = some (srcNode sp, role) → reqFits s = true → reqCrcsEqual s = true →
      Runs (.pairAck p sp) s fun t =>
      t.fab.pair.st = .paired ∧ t.fab.pair.partner = srcNode sp ∧ t.fab.pair.role = role ∧ t.fab.pair.pending = none ∧
      Raises 0x0610 0 s t) ∧
    (s.fab.pair.pending.isSome = true → Runs .pairTimeout s fun t =>
      t.fab.pair.pending = none ∧ (∀ w ∈ t.mb.running, w.on ≠ .pair) ∧ Only (.fab :: answerParts) s t) ∧
    (Heard 0x12 p sp s → fromPartner sp s = true → Runs (.pairBeat p sp) s fun t =>
      t.fab.pair.beat = some (beatOf sp.payload) ∧
      (s.fab.pair.st = .partnerLost → (beatOf sp.payload).mode = 5 → t.fab.pair.st = .paired)) ∧
    (Heard 0x13 p sp s → fromPartner sp s = true →
      (leAt sp.payload 0 1 = 3 → Runs (.pairFail p sp) s fun t => t.fab.pair.st = .unpaired) ∧
      (leAt sp.payload 0 1 ≠ 3 → s.fab.pair.st = .paired → s.fab.pair.takeover = false → takeoverReady s = false →
        Runs (.pairFail p sp) s fun t => t.fab.pair.st = .partnerLost ∧ Raises 0x0612 0 s t)) ∧
    (s.fab.pair.st = .paired → mayOriginate s = true → Runs .pairBeatTimer s fun t =>
      t.fab.pair = { s.fab.pair with beats := s.fab.pair.beats + 1 } ∧
      Only [.out, .win, .fab, .nor, .diag, .evt, .stats, .hostMem] s t) ∧
    (mayOriginate s = true → s.fab.pair.st = .paired → s.fab.pair.takeover = false → Runs .partnerBeatTimeout s fun t =>
      Raises 0x0612 0 s t ∧ (takeoverReady s = false → t.fab.pair.st = .partnerLost) ∧
      (takeoverReady s = true → t.fab.pair.takeover = true ∧ t.link.claim = some true)) ∧
    (s.fab.pair.st = .partnerLost → takeoverReady s = true → Runs .takeoverRecheck s fun t =>
      t.fab.pair.takeover = true ∧ t.link.claim = some true ∧ Gives (.control 0 (ctrlWords 6 1 s.link.cseq.toNat [])) s t ∧
      Only [.out, .link, .fab, .stats] s t)

/-- A handover begins on either partner, the shadow claims the port with GO, the holder enters SHADOW with DONE; a shadow that is
not ready within 10 s ends it (15 R371, 13 R313). -/
def Obligations.HandoversMoveTheColumn : Prop :=
  ∀ (e : Entry) (s : State) (p : Fin 8) (sp : Spore),
    (Starts cmdFabHandover e s → objBusy s [(8, 0, 0)] = false → handoverBad s (bitsOf (Entry.arg e 0) 0 12) = none →
      Entry.arg e 1 = 0 → s.fab.pair.st = .paired → Runs (.fabHandover e) s fun t =>
      t.fab.pair.st = .handingOver ∧ t.fab.pair.issuer = true ∧ t.fab.pair.region = none ∧
      started cmdFabHandover e .handover s ∈ t.mb.running) ∧
    (Heard 0x14 p sp s → fromPartner sp s = true → s.fab.pair.st = .paired → Runs (.handoverReq p sp) s fun t =>
      t.fab.pair.st = .handingOver ∧ t.fab.pair.issuer = false) ∧
    (Heard 0x15 p sp s → fromPartner sp s = true → s.fab.pair.st = .handingOver → s.fab.pair.role = 2 → s.fab.pair.step = 4 →
      Runs (.handoverGo p sp) s fun t =>
      t.fab.pair.step = 5 ∧ (s.pm.mode = .shadow → s.link.st = .trained → s.link.claim = none → t.link.claim = some false)) ∧
    (Heard 0x16 p sp s → fromPartner sp s = true → s.fab.pair.st = .handingOver → s.fab.pair.role = 1 → s.fab.pair.step = 6 →
      Runs (.handoverDone p sp) s fun t =>
      t.fab.pair.st = .paired ∧ t.fab.pair.role = 2 ∧ t.fab.pair.handovers = s.fab.pair.handovers + 1 ∧ t.pm.mode = .shadow ∧
      t.seq.st = .idle ∧ Raises 0x0614 0 s t) ∧
    (s.fab.pair.st = .handingOver → Runs .handoverShadowTimeout s fun t =>
      t.fab.pair.st = .paired ∧ t.fab.pair.step = 0 ∧ ∀ w ∈ t.mb.running, w.on ≠ .handover)

/-- Records of the mirror's client are kept, acknowledgements of the witness taken; a bin is rendered for a peer, its segments
admitted and its end noted; an update and fabric time come over the fabric too (15 R366, R367, 16 R383, 21 R459). -/
def Obligations.SporesActOnTheirSubject : Prop :=
  ∀ (s : State) (p : Fin 8) (sp : Spore),
    (Heard 0x20 p sp s → mirrorClient s = some (srcNode sp) → Runs (.ledgerRec p sp) s fun t =>
      t.fab.mirror = (sporeRecs 63 sp.payload).foldl Mirror.add { s.fab.mirror with client := some (srcNode sp) }) ∧
    (Heard 0x21 p sp s → s.diag.withhold = false → s.led.pendingWitness = none → s.led.witness = .peer (srcNode sp) →
      BitVec.ofNat 32 (leAt sp.payload 8 4) = s.led.epoch → leAt sp.payload 0 8 < s.led.wseq → s.led.lost = false →
      Runs (.ledgerAck p sp) s fun t => t.led.acked = max s.led.acked (leAt sp.payload 0 8)) ∧
    (∀ j h, Heard 0x30 p sp s → j = BinJob.of (BitVec.ofNat 8 (blk sp.payload 1 20 8)) sp.payload → s.pm.mode = .render →
      (peerRuns s (srcNode sp)).length < 16 → j.outMode = 1 → binCheck (linkTake p sp s).2 j = .ok h → Runs (.offloadReq p sp) s fun t =>
      ∃ b ∈ t.rnd.bins, b.req = some (srcNode sp, hdrMsgId sp.header)) ∧
    (Heard 0x31 p sp s → s.rnd.offloads.any (fun q => q.node == srcNode sp && q.msgId == BitVec.ofNat 32 (leAt sp.payload 0 4)) = true →
      Runs (.offloadDone p sp) s fun t =>
      t.rnd.offloads = s.rnd.offloads.filter (fun q => !(q.node == srcNode sp && q.msgId == BitVec.ofNat 32 (leAt sp.payload 0 4)))) ∧
    (Heard 0x32 p sp s → Runs (.segments p sp) s fun t => t = admitSegs (splitSegs 256 sp.payload) (linkTake p sp s).2) ∧
    (∀ d, Heard 0x51 p sp s → blk sp.payload 0 0 8 = 1 → hdrLen sp.header = 80 → d = relayDesc sp.payload → 4096 ≤ d.imgLen →
      d.imgLen ≤ 33554432 → d.pieces = (d.imgLen + 4095) / 4096 → sameUpdate d s = false → s.upd.st < 3 →
      Runs (.updRelay p sp) s fun t =>
      t.upd.st = 1 ∧ t.upd.imgId = d.imgId ∧ t.upd.pieces = d.pieces ∧ t.upd.held = [] ∧
      Raises 0x0B10 (detail [dflag false]) s t) ∧
    (Heard 0x51 p sp s → blk sp.payload 0 0 8 = 2 → hdrLen sp.header = 2064 → s.fab.halves.find? (otherHalf (halfOf sp.payload)) = none →
      Runs (.updRelay p sp) s fun t => halfOf sp.payload ∈ t.fab.halves ∧ t.upd = s.upd) ∧
    (Heard 0x40 p sp s → (s.time.base[(0 : Fin 4)]).src = 1 → s.time.ftPort = p.val → blk sp.payload 1 0 2 = 1 →
      blk sp.payload 1 4 4 ≠ 15 → Runs (.time p sp) s fun t =>
      t.time.hops = blk sp.payload 1 4 4 + 1 ∧ t.time.master = BitVec.ofNat 12 (blk sp.payload 1 8 12) ∧
      t.time.lastRx[p] = (sp.arrived, hdrMsgId sp.header))

/-- A HOST spore goes to the oldest posted buffer; the transmit ring gives a spore to the fabric or posts a buffer; a NACK of a
host spore goes to the host, one of an offload ends it (15 R359, R364-R366). -/
def Obligations.HostSporesUseTheirRings : Prop :=
  ∀ (s : State) (p : Fin 8) (sp : Spore) (x : BitVec 32 × W128) (l : List (BitVec 32 × W128)),
    (Heard 0x50 p sp s → (port s p).posted = x :: l → hostReady s p = true → Runs (.host p sp) s fun t =>
      (port t p).posted = l ∧ (ring t (rxRing p)).devIdx = (ring s (rxRing p)).devIdx + 1 ∧
      ((bufRef x.2).space = 1 →
        t.hbmMem = (hbmWrite (bufRef x.2).addr (sp.payload.take (hdrLen sp.header)) s).hbmMem)) ∧
    (Heard 0x08 p sp s → leAt sp.payload 4 1 = 0x50 → s.fab.hostSent.contains (BitVec.ofNat 32 (leAt sp.payload 0 4)) = true →
      (port s p).posted = x :: l → hostReady s p = true → Runs (.nack p sp) s fun t =>
      (port t p).posted = l ∧ (ring t (rxRing p)).devIdx = (ring s (rxRing p)).devIdx + 1) ∧
    (Heard 0x08 p sp s → leAt sp.payload 4 1 = 0x30 →
      s.rnd.offloads.any (fun q => q.node == srcNode sp && q.msgId == BitVec.ofNat 32 (leAt sp.payload 0 4)) = true →
      Runs (.nack p sp) s fun t => Raises 0x0617 0 s t ∧
      t.rnd.offloads = s.rnd.offloads.filter (fun q => !(q.node == srcNode sp && q.msgId == BitVec.ofNat 32 (leAt sp.payload 0 4)))) ∧
    (∀ e b u q, txReady s p = true → bitsNat (entryWord e 0) 0 4 = 1 → txReservedOk e = true →
      nodeOk (bitsNat (entryWord e 0) 16 12) = true → bitsNat (entryWord e 0) 32 32 ≠ 0 → bitsNat (entryWord e 0) 32 32 ≤ 4096 →
      txRefBad s (bufRef (entryWord e 1)) (bitsNat (entryWord e 0) 32 32) = none →
      txBytes s (bufRef (entryWord e 1)) = (.ok b, u) → routePort s (bitsNat (entryWord e 0) 16 12) = some q →
      Runs (.hostSporeSend p e) s fun t =>
      (ring t (txRing p)).devIdx = (ring s (txRing p)).devIdx + 1 ∧ s.fab.msgId ∈ t.fab.hostSent ∧
      Queued q 3 (header (bitsNat (entryWord e 0) 16 12) s.fab.node.toNat 0x50 b.length 3 s.fab.msgId b) b t) ∧
    (∀ e, txReady s p = true → bitsNat (entryWord e 0) 0 4 = 2 → txReservedOk e = true → bitsNat (entryWord e 0) 16 12 = 0 →
      bitsNat (entryWord e 0) 32 32 = 4096 → txRefBad s (bufRef (entryWord e 1)) 4096 = none → (port s p).posted.length < 64 →
      Runs (.rxBufferPost p e) s fun t =>
      (port t p).posted = (port s p).posted ++ [(bitsOf (entryWord e 0) 64 32, entryWord e 1)] ∧
      (ring t (txRing p)).devIdx = (ring s (txRing p)).devIdx + 1 ∧ Only [.out, .win, .fab, .stats, .hostMem] s t)

/-! ### The host window (12) -/

/-- A doorbell in range gives its ring the host index, one out of range sets DB_BAD and changes no index, one to a ring that is
not ACTIVE is refused; flags are cleared by writing ones; WIN_STAGE opens a window that exists; a write to a reserved address is
counted and has no other effect (00 R6, 12 R269, R270, R274, R275). -/
def Obligations.RegistersAreWritten : Prop :=
  ∀ (s : State) (i : Fin 64), running s = true →
    (∀ v : BitVec 64, (ring s i).st = 1 →
      (doorbellOk i.val (ring s i) (bitsOf v 0 32) = true → Runs (.doorbellWrite i v) s fun t =>
        (ring t i).hostIdx = bitsOf v 0 32 ∧ (∀ j : Fin 64, j ≠ i → ring t j = ring s j) ∧
        Only [.out, .win, .stats, .hostMem] s t) ∧
      (doorbellOk i.val (ring s i) (bitsOf v 0 32) = false → Runs (.doorbellWrite i v) s fun t =>
        (ring t i).hostIdx = (ring s i).hostIdx ∧ (ring t i).dbBad = true ∧
        Raises 0x0132 (detail [du 8 i.val, du 32 (ring s i).hostIdx.toNat, du 32 (bitsOf v 0 32 : BitVec 32).toNat]) s t ∧
        Only eventParts s t)) ∧
    (∀ v : BitVec 64, (ring s i).st ≠ 1 → Runs (.doorbellWrite i v) s fun t =>
      (ring t i).hostIdx = (ring s i).hostIdx ∧ Raises 0x0131 (detail [du 8 i.val]) s t ∧ Only eventParts s t) ∧
    (∀ v, Runs (.ringStatusClear i v) s fun t =>
      ring t i = { ring s i with dbBad := (ring s i).dbBad && !bitAt v 4, busErr := (ring s i).busErr && !bitAt v 5 } ∧
      (∀ j : Fin 64, j ≠ i → ring t j = ring s j) ∧ Only [.win] s t) ∧
    (∀ v, Runs (.winStatusClear v) s fun t =>
      (∀ k : Fin 11, bitAt t.win.status k.val = (bitAt s.win.status k.val && !bitAt v k.val)) ∧
      t.win.setCnt = s.win.setCnt ∧ t.win.rings = s.win.rings ∧ Only [.win] s t) ∧
    (∀ v, (bitsNat v 0 8 ≤ 190 → Runs (.winStageWrite v) s fun t =>
        t.win = { s.win with window := bitsOf v 0 8, stageEn := bitAt v 8 } ∧ Only [.win] s t) ∧
      (190 < bitsNat v 0 8 → Runs (.winStageWrite v) s fun t =>
        t.win.window = s.win.window ∧ t.win.stageEn = s.win.stageEn ∧ Raises 0x0131 0 s t ∧ Only eventParts s t)) ∧
    (∀ v : BitVec 64, Runs (.registerWrite 0x100C false v) s fun t =>
      t.win = { s.win with statusIrq := bitsOf v 0 11 } ∧ Only [.win] s t) ∧
    (∀ off v, off.toNat % 4 ≠ 0 → Runs (.registerWrite off false v) s fun t =>
      eventCount t 0x0130 = eventCount s 0x0130 + 1 ∧ Only eventParts s t) ∧
    (∀ off size, Runs (.winReservedWrite off size) s fun t =>
      eventCount t 0x0130 = eventCount s 0x0130 + 1 ∧ Only eventParts s t)

/-- BAR4 reads and writes HBM through the open window; with no window open, in a mode without HBM, or on a sealed region, a write
is dropped, a read gives zeros, and both raise STAGE_ACCESS_DENIED (12 R270). The device writes host memory nowhere but where the
host told it to: an answer to a bad entry only in the completion ring's entry and the two shadows of its mailbox, an event only in
the event rings and their shadows; every other byte of host memory reads as before (12 R271, R276, R281). -/
def Obligations.MemoryIsWrittenWhereTold : Prop :=
  (∀ (s : State) (addr : BitVec 28) (len : Nat) (data : List Byte), running s = true →
     (bar4Refused s (268435456 * s.win.window.toNat + addr.toNat) (min data.length (268435456 - addr.toNat)) = true →
       Runs (.bar4Access addr true len data) s fun t => Raises 0x0136 0 s t ∧ Only eventParts s t) ∧
     (bar4Refused s (268435456 * s.win.window.toNat + addr.toNat) (min len (268435456 - addr.toNat)) = true →
       Runs (.bar4Access addr false len data) s fun t =>
       Gives (.bar4Read (List.replicate (min len (268435456 - addr.toNat)) 0)) s t ∧ Raises 0x0136 0 s t ∧ Only eventParts s t) ∧
     (bar4Refused s (268435456 * s.win.window.toNat + addr.toNat) (min data.length (268435456 - addr.toNat)) = false →
       Runs (.bar4Access addr true len data) s fun t =>
       (∀ a, a < 268435456 * s.win.window.toNat + addr.toNat ∨
           268435456 * s.win.window.toNat + addr.toNat + min data.length (268435456 - addr.toNat) ≤ a →
         t.hbmMem.read a = s.hbmMem.read a) ∧
       (∀ k, k < data.length → k < 268435456 - addr.toNat → 268435456 * s.win.window.toNat + addr.toNat + k < hbmSize →
         data[k]? = some (t.hbmMem.read (268435456 * s.win.window.toNat + addr.toNat + k))) ∧
       Only [.hbmMem] s t) ∧
     (bar4Refused s (268435456 * s.win.window.toNat + addr.toNat) (min len (268435456 - addr.toNat)) = false →
       Runs (.bar4Access addr false len data) s fun t =>
       Gives (.bar4Read (hbmRead s (268435456 * s.win.window.toNat + addr.toNat) (min len (268435456 - addr.toNat)))) s t ∧
       Only [.out] s t)) ∧
  (∀ (s : State) (a : Nat),
     (∀ (i : Instr) (c : Cmd) (e : Entry) (r : Nat × Nat) (m : Fin 8), mailboxCommand s i = some (c, e, false) →
       e.src = .mailbox m → sourceReady s e.src = true → sourceSpace s e.src = true → modeHolds s c = false →
       c.judge e s = some r → r.2 ≠ 0x8000 →
       outside a (ring s (subRing m)).shadow.toNat 4 → outside a (ring s (cplRing m)).shadow.toNat 4 →
       outside a (entryAddr (cplRing m).val (ring s (cplRing m)) (ring s (cplRing m)).devIdx) 128 →
       Runs i s fun t => t.hostMem.read a = s.hostMem.read a) ∧
     (∀ off size, (∀ i : Fin 64, 48 ≤ i.val → i.val < 56 → outside a (ring s i).shadow.toNat 4 ∧
         outside a (entryAddr i.val (ring s i) (ring s i).devIdx) 32) →
       Runs (.winReservedWrite off size) s fun t => t.hostMem.read a = s.hostMem.read a))

/-- A ring whose registers are sound becomes ACTIVE with its indices at 0, another stays DISABLED; a ring disabled stops, at once
where none of its entries is in progress; a bus error moves it to ERROR; an unmasked vector sends its pending message, a
coalescing interval that is over its one message (12 R273, R276, R283). -/
def Obligations.RingsChangeState : Prop :=
  ∀ (s : State) (i : Fin 64), running s = true →
    (∀ v, (ring s i).st = 0 →
      (enableOk s i (bitsNat v 1 5) = true → Runs (.ringEnable i v) s fun t =>
        (ring t i).st = 1 ∧ (ring t i).hostIdx = 0 ∧ (16 ≤ i.val → i.val < 56 → (ring t i).devIdx = 0) ∧
        (ring t i).log2n = bitsNat v 1 5 ∧ ∀ j : Fin 64, j ≠ i → ring t j = ring s j) ∧
      (enableOk s i (bitsNat v 1 5) = false → Runs (.ringEnable i v) s fun t =>
        (ring t i).st = 0 ∧ bitAt (ring t i).cfg 0 = false ∧ Raises 0x0131 (detail [du 8 i.val]) s t ∧ Only eventParts s t)) ∧
    (∀ v, (ring s i).st = 1 → Runs (.ringDisable i v) s fun t =>
      (ring t i).st = (if ringBusy s i.val = true then 2 else 0) ∧ bitAt (ring t i).cfg 0 = false ∧
      (ring t i).log2n = (ring s i).log2n ∧ Only eventParts s t) ∧
    (∀ addr, (ring s i).st = 1 ∨ (ring s i).st = 2 → Runs (.ringBusError i addr) s fun t =>
      (ring t i).st = 3 ∧ (ring t i).busErr = true ∧ (ring t i).errAddr = addr ∧ bitAt t.win.status 8 = true ∧
      Raises 0x0133 (detail [du 8 i.val]) s t ∧ Only eventParts s t) ∧
    (Runs (.msixVectorUnmask i) s fun t =>
      bitAt (t.win.msix[i]) 96 = false ∧ bitAt t.win.pba i.val = false ∧ t.win.rings = s.win.rings ∧
      (bitAt s.win.pba i.val = true → Gives (.msix i.val) s t) ∧ Only [.out, .win, .stats] s t) ∧
    (bitAt (ring s i).cfg 12 = true → (ring s i).coal ≠ 0 → Runs (.msixCoalesceTimeout i) s fun t =>
      ring t i = { ring s i with coal := 0 } ∧ (∀ j : Fin 64, j ≠ i → ring t j = ring s j) ∧
      (∀ h : (ring s i).vec < 64, bitAt (s.win.msix[(ring s i).vec]) 96 = false → Gives (.msix (ring s i).vec) s t) ∧
      Only [.out, .win, .stats] s t)

/-! ### DMA and translation (14) -/

/-- DMA_CHANNEL_SETUP, DTU_SET_ROOT, DTU_INVALIDATE set one channel, one root, drop the named cache entries, and answer; a fault
resumed or aborted leaves the table with its event, and its descriptor is active again or fails (13 R311, R312, 14 R347). -/
def Obligations.ChannelsAndRootsAreSetUp : Prop :=
  ∀ (e : Entry) (s : State) (c : Fin 16),
    (Starts cmdDmaChannelSetup e s → bitsNat (Entry.arg e 0) 0 4 = c.val → (ring s (dmaRing c)).st = 0 →
      bitsNat (Entry.arg e 0) 48 16 ≤ bitsNat (Entry.arg e 0) 32 16 → 2 ≤ bitsNat (Entry.arg e 0) 16 2 →
      Runs (.dmaChannelSetup e) s fun t =>
      t.dma.ch[c] = setupChannel (Entry.arg e 0) s.dma.ch[c] ∧ (∀ d : Fin 16, d ≠ c → t.dma.ch[d] = s.dma.ch[d]) ∧
      Answers cmdDmaChannelSetup e stOk 0 [] s t ∧ Only (.dma :: answerParts) s t) ∧
    (∀ f : BitVec 8, Starts cmdDtuSetRoot e s → objBusy s [(0, bitsNat (Entry.arg e 0) 0 8, 0)] = false →
      f = bitsOf (Entry.arg e 0) 0 8 → bitsNat (Entry.arg e 0) 64 12 = 0 → bitsNat (Entry.arg e 0) 112 16 = 0 →
      spaceBusy s f = false → Runs (.dtuSetRoot e) s fun t =>
      tget t.dma.roots f.toNat = (if bitAt (Entry.arg e 0) 8 = true then some (bitsOf (Entry.arg e 0) 64 64) else none) ∧
      (∀ g : Nat, g ≠ f.toNat → tget t.dma.roots g = tget s.dma.roots g) ∧
      t.dma.cache = s.dma.cache.filter (fun x => x.flow != f) ∧
      Answers cmdDtuSetRoot e stOk 0 [] s t ∧ Only (.dma :: answerParts) s t) ∧
    (Starts cmdDtuInvalidate e s → objBusy s [(0, bitsNat (Entry.arg e 0) 0 8, 0)] = false → Runs (.dtuInvalidate e) s fun t =>
      (∀ x, x ∈ t.dma.cache ↔ x ∈ s.dma.cache ∧
        invalidates (bitsNat (Entry.arg e 0) 8 2) (bitsOf (Entry.arg e 0) 0 8) (bitsNat (Entry.arg e 0) 64 64) x = false) ∧
      Answers cmdDtuInvalidate e stOk 0 [word [(0, 32, s.dma.cache.length - t.dma.cache.length)]] s t ∧
      Only (.dma :: answerParts) s t) ∧
    (∀ g, Starts cmdDtuResumeFault e s → objBusy s [(0, bitsNat (Entry.arg e 0) 0 8, 0)] = false →
      s.dma.faults.find? (fun x => x.id == bitsOf (Entry.arg e 0) 16 16 && x.flow == bitsOf (Entry.arg e 0) 0 8) = some g →
      Runs (.dtuResumeFault e) s fun t =>
      Raises (if bitAt (Entry.arg e 0) 32 then 0x0522 else 0x0521) g.det s t ∧ Answers cmdDtuResumeFault e stOk 0 [] s t ∧
      (∀ d, g.ctx = c.val → s.dma.waiting = [] → findDesc s c g.idx = some d →
        t.dma.faults = s.dma.faults.filter (fun x => x.id != g.id) ∧
        (bitAt (Entry.arg e 0) 32 = false → { d with st := .active } ∈ (t.dma.ch[c]).descs) ∧
        (bitAt (Entry.arg e 0) 32 = true → (s.dma.ch[c]).descs = [d] →
          (t.dma.ch[c]).descs = [] ∧ Raises 0x0510 (detail [du 8 c.val]) s t)))

/-- A descriptor that may start joins its channel, or is final at once where a check of R333 fails; its bytes go where it says and
nowhere else in HBM; the head of the channel is released, the device index one further (14 R332-R334, R338-R341). -/
def Obligations.DescriptorsRun : Prop :=
  ∀ (s : State) (c : Fin 16),
    (∀ w : BitVec 512, mayStart (pace c s) c (newDesc 0 w).f = true →
      (startVerdict (pace c s) c (newDesc 0 w).f = none → Runs (.dmaDescriptorStart c w) s fun t =>
        (t.dma.ch[c]).descs = (s.dma.ch[c]).descs ++
          [newDesc ((ring s (dmaRing c)).devIdx + BitVec.ofNat 32 (s.dma.ch[c]).descs.length) w] ∧
        (∀ d : Fin 16, d ≠ c → t.dma.ch[d] = s.dma.ch[d]) ∧ Only [.dma, .stats] s t) ∧
      (∀ r, startVerdict (pace c s) c (newDesc 0 w).f = some r → (s.dma.ch[c]).descs = [] →
        Runs (.dmaDescriptorStart c w) s fun t =>
        (t.dma.ch[c]).descs = [] ∧ (ring t (dmaRing c)).devIdx = (ring s (dmaRing c)).devIdx + 1 ∧
        Raises 0x0510 (detail [du 8 c.val]) s t ∧ Only (.dma :: eventParts) s t)) ∧
    (∀ w : BitVec 512, mayStart (pace c s) c (newDesc 0 w).f = false → Runs (.dmaDescriptorStart c w) s fun t =>
      (∀ d : Fin 16, (t.dma.ch[d]).descs = (s.dma.ch[d]).descs) ∧ Only [.dma, .stats] s t) ∧
    (∀ idx d u, findDesc s c idx = some d → d.st = .active → d.f.alive s = true →
      (injected 7 (fun p => p.toNat == c.val) s).1 = false → d.f.move (s.dma.ch[c]).flow.toNat d.done d.f.len s = some u →
      Runs (.dmaDescriptorDone c idx) s fun t =>
      t.hbmMem = u.hbmMem ∧ (∀ a, ¬ (d.f.dstSp = 1 ∧ d.f.dst ≤ a ∧ a < d.f.dst + d.f.len) → t.hbmMem.read a = s.hbmMem.read a) ∧
      (∀ y ∈ (t.dma.ch[c]).descs, y.idx = idx → y.st = .final ∧ y.status = 0 ∧ y.done = d.f.len) ∧
      ((s.dma.ch[c]).descs = [d] → (t.dma.ch[c]).descs = [] ∧
        (ring t (dmaRing c)).devIdx = (ring s (dmaRing c)).devIdx + 1))

/-- A bus error, or a read with no answer in time, stops a transfer at its progress: it waits for a retry while it has one left
and is final with FAULT when it has none; a retry makes it active again, one attempt further (14 R336-R338, R348). -/
def Obligations.FailedReadsAreRetried : Prop :=
  ∀ (s : State) (idx : BitVec 32) (arrived : Nat),
    (∀ (c : Fin 16) (ctx : Fin 20) (d : Desc) (u : State), ctx.val = c.val → findDesc s c idx = some d → d.st = .active →
      d.f.alive s = true → d.f.readsHost = true → d.done ≤ arrived → arrived < d.f.len →
      d.f.move (s.dma.ch[c]).flow.toNat d.done arrived s = some u →
      ∀ i ∈ [Instr.dmaBusError ctx idx arrived, Instr.dmaReadTimeout ctx idx arrived], Runs i s fun t =>
        Raises 0x0511 (detail [du 8 c.val]) s t ∧ t.hbmMem = u.hbmMem ∧
        (d.attempts ≤ (s.dma.ch[c]).retries → { d with done := arrived, st := .retryWait } ∈ (t.dma.ch[c]).descs) ∧
        ((s.dma.ch[c]).retries < d.attempts → (s.dma.ch[c]).descs = [d] →
          (t.dma.ch[c]).descs = [] ∧ Raises 0x0510 (detail [du 8 c.val]) s t)) ∧
    (∀ (r : CopyRun) (d : DescF) (u : State), copyOf s (BitVec.ofNat 8 idx.toNat) = some r → r.f s = some d → r.st = 0 →
      d.alive s = true → d.readsHost = true → r.done ≤ arrived → arrived < d.len →
      d.move r.flow.toNat r.done arrived s = some u → r.attempts ≤ 3 →
      ∀ i ∈ [Instr.dmaBusError 19 idx arrived, Instr.dmaReadTimeout 19 idx arrived], Runs i s fun t =>
        Raises 0x0511 (detail [du 8 19]) s t ∧ { r with done := arrived, st := 2 } ∈ t.dma.copies) ∧
    (∀ (c : Fin 16) (ctx : Fin 20) (d : Desc), ctx.val = c.val → findDesc s c idx = some d → d.st = .retryWait →
      Runs (.dmaRetry ctx idx) s fun t =>
      { d with st := .active, attempts := d.attempts + 1 } ∈ (t.dma.ch[c]).descs ∧
      (∀ k : Fin 16, k ≠ c → t.dma.ch[k] = s.dma.ch[k]) ∧ Only [.dma, .stats] s t) ∧
    (∀ r, copyOf s (BitVec.ofNat 8 idx.toNat) = some r → r.st = 2 → Runs (.dmaRetry 19 idx) s fun t =>
      { r with st := 0, attempts := r.attempts + 1 } ∈ t.dma.copies ∧ Only [.dma, .stats] s t)

/-- An access that does not translate stalls its transfer at the progress made and enters a fault in the table, with DTU_FAULT;
with 64 faults outstanding it waits to be entered (14 R341, R346). -/
def Obligations.TranslationFaultsStall : Prop :=
  ∀ (s : State) (idx : BitVec 32) (write : Bool) (va : BitVec 64) (progress : Nat) (busErr : Bool) (r : Nat),
    (∀ (c : Fin 16) (ctx : Fin 20) (d : Desc) (u v : State), ctx.val = c.val → findDesc s c idx = some d → d.st = .active →
      d.f.alive s = true → d.f.touches (d.f.maxIndex s (s.dma.ch[c]).flow.toNat) write va.toNat = true → d.done ≤ progress →
      progress < d.f.len → faultReason (s.dma.ch[c]).flow.toNat write va.toNat busErr s = (some r, u) →
      d.f.move (s.dma.ch[c]).flow.toNat d.done progress u = some v →
      Runs (.dtuFault ctx idx write va progress busErr) s fun t =>
        (∃ y ∈ (t.dma.ch[c]).descs, y.idx = idx ∧ y.st = .stalled ∧ y.done = progress) ∧
        (s.dma.faults.length < 64 → ∃ g ∈ t.dma.faults, g.ctx = c.val ∧ g.idx = idx ∧ g.reason = r ∧ g.va = va ∧
          g.progress = progress ∧ Raises 0x0520 g.det s t) ∧
        (64 ≤ s.dma.faults.length → mkFault (s.dma.ch[c]).flow r write c.val idx va progress ∈ t.dma.waiting)) ∧
    (∀ (ctx : Fin 20) (u v : State), 16 ≤ ctx.val → domOn s .host = true → s.dma.faults.length < 64 →
      (s.dma.faults ++ s.dma.waiting).any (fun g => decide (g.ctx = ctx.val) && g.flow == BitVec.ofNat 8 idx.toNat) = false →
      faultReason (BitVec.ofNat 8 idx.toNat).toNat write va.toNat busErr s = (some r, u) →
      stallUser ctx.val (BitVec.ofNat 8 idx.toNat) progress u = some v →
      Runs (.dtuFault ctx idx write va progress busErr) s fun t =>
        ∃ g ∈ t.dma.faults, g.ctx = ctx.val ∧ g.flow = BitVec.ofNat 8 idx.toNat ∧ g.reason = r ∧ g.va = va ∧
          Raises 0x0520 g.det s t)

/-! ### The HBM controller (17) -/

/-- A read is checked: one without an error steps the activate's LFSR only, a corrected one enters the error log, an uncorrectable
one freezes the controller, keeps its record and puts the device in HOLD; refresh changes nothing; a stack above 85 degrees
refreshes at twice the rate and above it raises HBM_TEMP_HIGH once (17 R396-R399, R403, R404, R406). One pseudo-channel of a stack
retrains at a time; an eye of 0.35 UI or more takes effect, a narrower one is dropped and told of; a slice put off too long is
forced (17 R401, R402). -/
def Obligations.HbmIsCheckedAndRetrained : Prop :=
  (∀ (s : State) (off : BitVec 36) (kind : Fin 6) (sev : BitVec 3) (syn : BitVec 9) (req : BitVec 8) (rmw : Bool) (a : Nat) (p : Fin 64),
     (memWorks s = true → a = off.toNat - off.toNat % 16 → a < hbmSize → p = pcOf a →
       (injected 2 (fun _ => true) s).1 = false → (injected 3 (fun _ => true) s).1 = false →
       (kind = 0 → Runs (.hbmReadComplete off kind sev syn req rmw) s fun t =>
         t.hbm = { s.hbm with pcs := s.hbm.pcs.set p.val { s.hbm.pcs[p] with lfsr := lfsrStep (s.hbm.pcs[p]).lfsr } } ∧
         Only [.hbm, .stats] s t) ∧
       (kind = 1 ∨ kind = 2 → Runs (.hbmReadComplete off kind sev syn req rmw) s fun t =>
         t.hbm.kindCnt[kind] = s.hbm.kindCnt[kind] + 1 ∧
         (∃ r, t.hbm.log = (r :: s.hbm.log).take 255 ∧ bitsNat r 0 36 = a ∧ bitsNat r 60 3 = kind.val) ∧
         eventCount t 0x0140 = eventCount s 0x0140 + 1 ∧ Only (.hbm :: eventParts) s t) ∧
       (3 ≤ kind.val → Runs (.hbmReadComplete off kind sev syn req rmw) s fun t =>
         t.hbm.frozen = true ∧ (∀ q : Fin 64, (t.hbm.pcs[q]).slice = false) ∧ t.pm.mode = .hold ∧
         ∃ r, t.nor.frozen = r :: s.nor.frozen ∧ bitsNat r 0 36 = a ∧ bitsNat r 60 3 = kind.val ∧
           Raises 0x0141 (bitsOf r 0 128) s t ∧ Raises 0x0122 (word [(0, 8, 1), (64, 64, bitsNat r 0 64)]) s t)) ∧
     (∀ q, Runs (.hbmRefresh q) s fun t => t = s) ∧
     (∀ t0 t1, domOn s .mem = true ∨ (running s = true ∧ s.pm.mode = .hold) → Runs (.hbmTempRead t0 t1) s fun t =>
       t.hbm.temp = #v[t0, t1] ∧ t.hbm.doubled = #v[decide (680 < t0.toInt), decide (680 < t1.toInt)] ∧
       (680 < t0.toInt ∧ s.hbm.hotRaised[(0 : Fin 2)] = false ∨ 680 < t1.toInt ∧ s.hbm.hotRaised[(1 : Fin 2)] = false →
         Raises 0x0144 0 s t) ∧ Only (.hbm :: eventParts) s t)) ∧
  (∀ (s : State) (p : Fin 64),
     (sliceFree s p = true →
       (Runs (.hbmRetrainSliceStart p) s fun t =>
         t.hbm.pcs[p] = { s.hbm.pcs[p] with slice := true } ∧ (∀ q : Fin 64, q ≠ p → t.hbm.pcs[q] = s.hbm.pcs[q]) ∧
         Only [.hbm] s t) ∧
       (Runs (.hbmRetrainForced p) s fun t =>
         t.hbm.pcs[p] = { s.hbm.pcs[p] with slice := true } ∧ (∀ q : Fin 64, q ≠ p → t.hbm.pcs[q] = s.hbm.pcs[q]) ∧
         Raises 0x0143 0 s t ∧ Only (.hbm :: eventParts) s t)) ∧
     (sliceFree s p = false →
       (Runs (.hbmRetrainSliceStart p) s fun t => t = s) ∧ Runs (.hbmRetrainForced p) s fun t => t = s) ∧
     (∀ eye, memWorks s = true → (s.hbm.pcs[p]).slice = true →
       (350 ≤ eye.toNat → Runs (.hbmRetrainSliceEnd p eye) s fun t =>
         (t.hbm.pcs[p]).slice = false ∧ (t.hbm.pcs[p]).eye = eye ∧ (t.hbm.pcs[p]).trained = ftNow s ∧
         (t.hbm.pcs[p]).due = false ∧ (∀ q : Fin 64, q ≠ p → t.hbm.pcs[q] = s.hbm.pcs[q]) ∧ Only [.hbm, .stats] s t) ∧
       (eye.toNat < 350 → Runs (.hbmRetrainSliceEnd p eye) s fun t =>
         (t.hbm.pcs[p]).slice = false ∧ (t.hbm.pcs[p]).trained = (s.hbm.pcs[p]).trained ∧ (t.hbm.pcs[p]).due = true ∧
         (∀ q : Fin 64, q ≠ p → t.hbm.pcs[q] = s.hbm.pcs[q]) ∧
         Raises 0x0142 (detail [du 8 p.val, du 16 eye.toNat]) s t ∧ Only (.hbm :: eventParts) s t)))

/-! ### Modes, supplies and resets (19) -/

/-- A change that is ready enters its mode and answers, or fails where a domain did not power up; the heartbeat counts; an
uncorrectable error of a table array and the loss of a domain put the device in HOLD, which ends the strobe (12 R267, 19
R422-R424, R437). -/
def Obligations.ModesChange : Prop :=
  ∀ (s : State),
    (∀ failed bad tUs, changeReady s = true →
      ((failed && powersUp s.pm.mode s.pm.target) = false → Runs (.modeChangeDone failed bad tUs) s fun t =>
        t.pm.mode = s.pm.target ∧ t.pm.changing = false ∧ bitAt t.win.status 0 = true ∧
        (∀ w ∈ t.mb.running, ∀ m, w.on ≠ .modeChange m) ∧
        Raises 0x0120 (detail [du 8 s.pm.mode.code, du 8 s.pm.target.code, du 8 s.pm.trigger]) s t) ∧
      ((failed && powersUp s.pm.mode s.pm.target) = true → Runs (.modeChangeDone failed bad tUs) s fun t =>
        t.pm.mode = s.pm.mode ∧ t.pm.changing = false ∧ (∀ w ∈ t.mb.running, ∀ m, w.on ≠ .modeChange m) ∧
        Raises 0x0121 0 s t)) ∧
    (running s = true → s.pm.fwState ≠ 0 → Runs .heartbeatTick s fun t =>
      t.win = { s.win with heartbeat := s.win.heartbeat + 1 } ∧ Only [.win] s t) ∧
    (running s = true → s.pm.mode ≠ .hold → s.pm.mode ≠ .recovery →
      (∀ a : Fin 4, domPowered s (arrayDomain a) = true → Runs (.tableArrayUncorrectable a) s fun t =>
        t.pm.mode = .hold ∧ t.seq.gblank = true ∧ t.seq.gstrobe = false ∧ t.trk.st = .off ∧ bitAt t.win.status 1 = true ∧
        Raises 0x0122 (word [(0, 8, 2), (64, 64, 0)]) s t) ∧
      (∀ (d : Fin 12) (x : Domain), 2 ≤ d.val → Domain.all[d.val]? = some x → domPowered s x = true →
        Runs (.domainPowerLoss d) s fun t =>
        t.pm.mode = .hold ∧ t.seq.gblank = true ∧ t.seq.gstrobe = false ∧ t.trk.st = .off ∧ bitAt t.win.status 1 = true ∧
        Raises 0x0122 (word [(0, 8, 3), (64, 64, 0)]) s t))

/-- A rail below warning is told of once, stops a stripe at a flash boundary with cause 10 and is told of again when all have
recovered; one that trips holds the device in reset with GBLANK high until then, and so does a die too hot (19 R426-R429). -/
def Obligations.SuppliesAreWatched : Prop :=
  ∀ (s : State), aonAlive s = true →
    (∀ (rail : Fin 9) mv, running s = true → bitAt s.pm.railsLow rail.val = false → Runs (.supplyWarning rail mv) s fun t =>
      bitAt t.pm.railsLow rail.val = true ∧ t.pm.railMv[rail] = mv ∧ bitAt t.win.status 2 = true ∧
      Raises 0x0123 (detail [du 8 rail.val, du 16 mv.toNat]) s t ∧
      (s.seq.st.active = true → Stops 10 (stopM false s.seq) t)) ∧
    (∀ (rail : Fin 9) mv, bitAt s.pm.railsLow rail.val = true → Runs (.supplyWarning rail mv) s fun t =>
      t.pm.railMv[rail] = mv ∧ Only [.pm] s t) ∧
    (∀ b, s.pm.railsLow ≠ 0 →
      (running s = true → Runs (.supplyRecovered b) s fun t =>
        t.pm.railsLow = 0 ∧ t.pm.recoveries = s.pm.recoveries + 1 ∧ Raises 0x0124 0 s t ∧
        Only (.pm :: .free :: eventParts) s t) ∧
      (s.pm.held = .supply → Runs (.supplyRecovered b) s fun t =>
        t.pm.held = .no ∧ t.pm.railsLow = 0 ∧ (s.pm.heldKind % 16 ≠ 4 → b.slotOk = true → t.pm.mode = .ready))) ∧
    (∀ (rail : Fin 9) mv, running s = true → Runs (.railResetTrip rail mv) s fun t =>
      t.pm.held = .supply ∧ t.seq.gblank = true ∧ t.seq.gstrobe = false ∧ t.keep.slots = s.keep.slots ∧
      t.nor.store = s.nor.store ∧ t.hbmMem = (if rail.val = 8 then [] else s.hbmMem)) ∧
    (running s = true → Runs .thermalTrip s fun t =>
      t.pm.held = .thermal ∧ t.pm.thermalTrips = s.pm.thermalTrips + 1 ∧ t.seq.gblank = true ∧ t.seq.gstrobe = false ∧
      t.keep.slots = s.keep.slots ∧ t.hbmMem = s.hbmMem) ∧
    (∀ b, s.pm.held = .thermal →
      (s.pm.railsLow ≠ 0 → Runs (.thermalResetRelease b) s fun t =>
        t.pm = { s.pm with held := .supply } ∧ Only [.pm] s t) ∧
      (s.pm.railsLow = 0 → Runs (.thermalResetRelease b) s fun t =>
        t.pm.held = .no ∧ (s.pm.heldKind / 16 = 4 → Raises 0x0126 0 s t) ∧
        (s.pm.heldKind % 16 ≠ 4 → b.slotOk = true → t.pm.mode = .ready)))

/-- RESET_N low resets every domain but KEEP and loses HBM; the power-on reset that ends it starts the device, which is READY
where the boot ROM finds a sound image; a watchdog reset and a commanded one end the commands in progress, drive GBLANK high and
raise RESET_OCCURRED (19 R430-R434, 22 R469, R474). Function Level Reset and PERST stop the channels, whose open descriptors are
kept as ABORTED with reason 11, and clear the rings, the MSI-X table and WIN_STAGE; the mode and HBM stay as they are, and
RESET_OCCURRED tells of the reset (12 R284, 14 R345, 19 R430-R432). -/
def Obligations.ResetsClearAndStart : Prop :=
  (∀ (s : State),
     (s.pm.held ≠ .resetLow → Runs .resetNAsserted s fun t =>
       t.pm.held = .resetLow ∧ t.hbmMem = [] ∧ t.keep.slots = s.keep.slots ∧ t.seq.gblank = true ∧ t.seq.gstrobe = false ∧
       t.seq.wdLatch = false ∧ t.nor.store = s.nor.store ∧ t.pending = s.pending) ∧
     (∀ b, s.pm.held = .resetLow →
       (Runs (.powerOnReset true b) s fun t => t.pm = { s.pm with held := .testEn } ∧ Only [.pm] s t) ∧
       (b.slotOk = true → Runs (.powerOnReset false b) s fun t => t.pm.held = .no ∧ t.pm.mode = .ready)) ∧
     (running s = true → s.pm.fwState ≠ 0 → Runs .watchdogReset s fun t =>
       t.pm.watchdogResets = s.pm.watchdogResets + 1 ∧ t.mb.running = [] ∧ t.seq.gblank = true ∧ t.seq.gstrobe = false ∧
       t.hbmMem = s.hbmMem ∧ Raises 0x0127 0 s t ∧
       Raises 0x0125 (detail [du 8 1, du 8 (Config.openCode 1 2).toNat, du 32 (ltNow s).toNat, du 8 0]) s t) ∧
     (∀ b, running s = true → ∀ kind ∈ [1, 2, 3, 4], s.pm.commandedReset = some kind → Runs (.commandedResetStart b) s fun t =>
       t.pm.commandedReset = none ∧ t.mb.running = [] ∧ t.seq.gblank = true ∧ t.seq.gstrobe = false ∧
       (kind = 3 → b.slotOk = true → t.pm.mode = .ready) ∧ (kind = 4 → t.pm.mode = .recovery) ∧
       Raises 0x0125 (detail [du 8 kind, du 8 (Config.openCode 1 1).toNat, du 32 (ltNow s).toNat, du 8 0]) s t)) ∧
  (∀ (s : State), running s = true → ∀ x ∈ [(Instr.functionLevelReset, 6), (Instr.perst, 7)],
     Runs x.1 s fun t =>
       (∀ i : Fin 64, (ring t i).st = 0) ∧ t.win.msix = Win.init.msix ∧ t.win.pba = 0 ∧ t.win.window = 0 ∧ t.win.stageEn = false ∧
       (∀ c : Fin 16, (t.dma.ch[c]).descs = []) ∧
       (∀ (c : Fin 16) (d : Desc), d ∈ (s.dma.ch[c]).descs → d.st ≠ .final →
         { d with st := .final, status := BitVec.ofNat 16 stAborted, reason := 11 } ∈ (t.dma.ch[c]).stoppedDescs) ∧
       t.pm.mode = s.pm.mode ∧ t.pm.held = .no ∧
       Raises 0x0125 (detail [du 8 (kindCode x.2), du 8 (Config.openCode 1 6).toNat, du 32 (ltNow s).toNat, du 8 0]) s t ∧
       Only (.pm :: .dma :: .aper :: eventParts) s t)

/-! ### Dose arithmetic and check values (02, 06) -/

/-- CRC-32C is the remainder by the polynomial 0x1EDC6F41, input and output reflected, from all ones, inverted at the end; of the
nine ASCII bytes 123456789 it is 0xE3069283 (06 R134). -/
def Obligations.CheckValuesAreCastagnoli : Prop :=
  (∀ l : List Byte, crc32c l =
    ((l.flatMap fun b => [0, 1, 2, 3, 4, 5, 6, 7].map b.getLsbD).foldl
      (fun (c : BitVec 32) (b : Bool) => if (c.msb ^^ b) = true then (c <<< 1) ^^^ 0x1EDC6F41#32 else c <<< 1)
      0xFFFFFFFF#32).reverse ^^^ 0xFFFFFFFF#32) ∧
  crc32c [0x31, 0x32, 0x33, 0x34, 0x35, 0x36, 0x37, 0x38, 0x39] = 0xE3069283#32

/-- σ_k(j) is the five bits of j XOR k in reverse order, σ_k(j + 16) = σ_k(j) + 1, and the example of the rule: with D = 203 the
slots of k = 7 that receive 7 are those it lists, the others receive 6 (02 R29). -/
def Obligations.OrderOfSlotsReversesBits : Prop :=
  (∀ k < 16, ∀ j < 32, sigma k j < 32 ∧ ∀ i < 5, (sigma k j).testBit i = (j ^^^ k).testBit (4 - i)) ∧
  (∀ k < 16, ∀ j < 16, sigma k (j + 16) = sigma k j + 1) ∧
  (∀ j < 32, (203 + sigma 7 j) / 32 = if j ∈ [0, 4, 8, 10, 12, 16, 18, 20, 24, 26, 28] then 7 else 6)

/-- The split: in a column class with N live slots, live slot j of rank ρ(j) receives ⌊(D + ρ(j)) / N⌋ and a disabled one 0; the
levels sum to exactly D, whatever the table and the dose; with N = 32, ρ is σ (02 R31). -/
def Obligations.LiveLevelsSumToTheDose : Prop :=
  ∀ (tab : List Byte) (c k d N : Nat) (l : List CSlot), k < 16 → l = classSlots tab c k → N = (l.filter (·.live)).length → 1 ≤ N →
    (∀ x ∈ l, rank l k x.j = (l.filter fun y => y.live && decide (sigma k y.j < sigma k x.j)).length ∧
      splitLevel l k d x = if x.live = true then (d + rank l k x.j) / N else 0) ∧
    (l.map (splitLevel l k d)).sum = d ∧
    (N = 32 → ∀ x ∈ l, rank l k x.j = sigma k x.j ∧ splitLevel l k d x = (d + sigma k x.j) / 32)

/-- The delivered dose Σ l'·g is within half a level of the live beam with the highest gain of 512·D, so by less than one nominal
level, and by at most half of one where that gain is 1.000 (02 R35). -/
def Obligations.DeliveredDoseIsWithinHalfALevel : Prop :=
  ∀ (tab : List Byte) (c k d gmax : Nat) (l : List CSlot), k < 16 → l = classSlots tab c k → (∃ x ∈ l, x.live = true) →
    (∀ x ∈ l, x.live = true → 512 ≤ x.gain) → (∃ x ∈ l, x.live = true ∧ x.gain = gmax) →
    (∀ x ∈ l, x.live = true → x.gain ≤ gmax) →
    2 * ((512 * d : Int) - ((l.map fun x => delivered l k d x.j * x.gain).sum : Nat)).natAbs ≤ gmax ∧
    ((512 * d : Int) - ((l.map fun x => delivered l k d x.j * x.gain).sum : Nat)).natAbs < 512 ∧
    (gmax = 512 → ((512 * d : Int) - ((l.map fun x => delivered l k d x.j * x.gain).sum : Nat)).natAbs ≤ 256)

/-- Where D is at most D_cap, every split level and every delivered level fits the four bits of a level, at every gain the table
may hold (02 R32, R34). -/
def Obligations.LevelsFitFourBits : Prop :=
  ∀ (tab : List Byte) (c k d : Nat) (l : List CSlot), c < 512 → k < 16 → l = classSlots tab c k → d ≤ dCap tab →
    (∀ x ∈ l, splitLevel l k d x ≤ 15) ∧
    ((∀ x ∈ l, x.live = true → 512 ≤ x.gain) → ∀ x ∈ l, delivered l k d x.j ≤ 15 ∧ (x.live = false → delivered l k d x.j = 0))

/-- At flash n row r reads line L = n - 16 r - d_r in sub-raster k = r mod 16, from slot 16 (L mod 8704) + k where 0 <= L <=
lines_m1; elsewhere every beam of the row receives level 0 and no store read is made (07 R155). -/
def Obligations.RowsReadTheirLines : Prop :=
  ∀ (s : State) (n L : Int) (r k : Nat) (acc : List Frame), r < 512 → s.diag.inject = [] → L = n - 16 * r - rowTrim (btab s) r →
    k = r % 16 →
    (L < 0 ∨ (s.seq.linesM1 : Int) < L → ∃ t, readRows n [r] acc s =
        (some (mkFrame s n r (List.replicate 512 0) false :: acc), t) ∧ Only [.stats] s t) ∧
    (∀ v, 0 ≤ L → L ≤ s.seq.linesM1 → readSlot s false L.toNat k (16 * (L.toNat % 8704) + k) = .ok v → ∃ t, readRows n [r] acc s =
        (some (mkFrame s n r (rowLevels (btab s) r v) false :: acc), t) ∧
        ∀ m, m ≠ 16 * (L.toNat % 8704) + k → slot t m = slot s m)
end

