-- ==== Sys2Proof/Laws/Memory.lean ====
section
/-! SUPPORT. Tables and memory: a read after a write to the same place gives the value written, a write leaves every other place
alone, and every operation keeps the canonical form. -/

namespace Sys2Proof.Machine

/-! ### Tables -/

/-- The value put is the value got. -/
@[simp] theorem tget_tput_self {α : Type} (t : Tbl α) (n : Nat) (v : α) : tget (tput t n v) n = some v := by
  induction t with
  | nil => simp [tput, tget]
  | cons x t ih =>
    obtain ⟨k, w⟩ := x
    simp only [tput]
    split
    · simp [tget]
    · split
      · simp [tget]
      · rename_i h1 h2
        simp [tget, ih, Ne.symm h2]

/-- Putting at one key leaves the others alone. -/
theorem tget_tput_ne {α : Type} (t : Tbl α) {n m : Nat} (h : m ≠ n) (v : α) : tget (tput t n v) m = tget t m := by
  induction t with
  | nil => simp [tput, tget, Ne.symm h]
  | cons x t ih =>
    obtain ⟨k, w⟩ := x
    simp only [tput]
    split
    · simp [tget, Ne.symm h]
    · split
      · rename_i h1 h2
        subst h2
        simp [tget, Ne.symm h]
      · simp [tget, ih]

/-- Deleting one key leaves the others alone. -/
theorem tget_tdel_ne {α : Type} (t : Tbl α) {n m : Nat} (h : m ≠ n) : tget (tdel t n) m = tget t m := by
  induction t with
  | nil => rfl
  | cons x t ih =>
    obtain ⟨k, w⟩ := x
    simp only [tdel]
    split
    · rename_i h1
      subst h1
      simp [tget, Ne.symm h, ih]
    · simp [tget, ih]

/-- A deleted key is gone. -/
theorem tget_tdel_self {α : Type} (t : Tbl α) (n : Nat) : tget (tdel t n) n = none := by
  induction t with
  | nil => rfl
  | cons x t ih =>
    obtain ⟨k, w⟩ := x
    simp only [tdel]
    split
    · exact ih
    · rename_i h1
      simp only [tget, h1, if_false]
      exact ih

/-! ### The canonical form -/

/-- A lower bound may be lowered. -/
theorem Memory.wfFrom_mono {lo hi : Nat} (h : lo ≤ hi) : ∀ (m : Memory), Memory.wfFrom hi m = true → Memory.wfFrom lo m = true := by
  intro m w
  cases m with
  | nil => rfl
  | cons x t =>
    obtain ⟨a, b⟩ := x
    simp only [Memory.wfFrom, Bool.and_eq_true, decide_eq_true_eq] at w ⊢
    exact ⟨⟨h.trans w.1.1, w.1.2⟩, w.2⟩

/-- Nothing is listed below the lower bound. -/
theorem Memory.tget_below {lo : Nat} : ∀ (m : Memory), Memory.wfFrom lo m = true → ∀ a, a < lo → tget m a = none := by
  intro m
  induction m generalizing lo with
  | nil => intros; rfl
  | cons x t ih =>
    obtain ⟨k, w⟩ := x
    intro h a ha
    simp only [Memory.wfFrom, Bool.and_eq_true, decide_eq_true_eq] at h
    have hk : k ≠ a := by omega
    simp only [tget, hk, if_false]
    exact ih h.2 a (by omega)

/-- Putting a byte other than 0 keeps the form. -/
theorem Memory.tput_wf {lo a : Nat} {b : Byte} (hb : b ≠ 0) (ha : lo ≤ a) :
    ∀ (m : Memory), Memory.wfFrom lo m = true → Memory.wfFrom lo (tput m a b) = true := by
  intro m
  induction m generalizing lo with
  | nil => intro _; simpa [tput, Memory.wfFrom, ha] using hb
  | cons x t ih =>
    obtain ⟨k, w⟩ := x
    intro h
    simp only [Memory.wfFrom, Bool.and_eq_true, decide_eq_true_eq, bne_iff_ne, ne_eq] at h
    simp only [tput]
    split
    · simp only [Memory.wfFrom, Bool.and_eq_true, decide_eq_true_eq, bne_iff_ne, ne_eq]
      exact ⟨⟨ha, hb⟩, ⟨by omega, h.1.2⟩, h.2⟩
    · split
      · simp only [Memory.wfFrom, Bool.and_eq_true, decide_eq_true_eq, bne_iff_ne, ne_eq]
        rename_i h1 h2
        subst h2
        exact ⟨⟨ha, hb⟩, h.2⟩
      · simp only [Memory.wfFrom, Bool.and_eq_true, decide_eq_true_eq, bne_iff_ne, ne_eq]
        exact ⟨⟨h.1.1, h.1.2⟩, ih (by omega) h.2⟩

/-- Deleting keeps the form. -/
theorem Memory.tdel_wf {lo : Nat} (a : Nat) : ∀ (m : Memory), Memory.wfFrom lo m = true → Memory.wfFrom lo (tdel m a) = true := by
  intro m
  induction m generalizing lo with
  | nil => intro _; rfl
  | cons x t ih =>
    obtain ⟨k, w⟩ := x
    intro h
    simp only [Memory.wfFrom, Bool.and_eq_true, decide_eq_true_eq] at h
    simp only [tdel]
    split
    · exact Memory.wfFrom_mono (lo := lo) (hi := k + 1) (by omega) _ (ih h.2)
    · simp only [Memory.wfFrom, Bool.and_eq_true, decide_eq_true_eq]
      exact ⟨h.1, ih h.2⟩

/-- Dropping cells keeps the form. -/
theorem Memory.filter_wfFrom {lo : Nat} (p : Host.Cell → Bool) :
    ∀ (m : Memory), Memory.wfFrom lo m = true → Memory.wfFrom lo (m.filter p) = true := by
  intro m
  induction m generalizing lo with
  | nil => intro _; rfl
  | cons x t ih =>
    obtain ⟨k, w⟩ := x
    intro h
    simp only [Memory.wfFrom, Bool.and_eq_true, decide_eq_true_eq] at h
    simp only [List.filter_cons]
    split
    · simp only [Memory.wfFrom, Bool.and_eq_true, decide_eq_true_eq]
      exact ⟨h.1, ih h.2⟩
    · exact ih (Memory.wfFrom_mono (by omega) t h.2)

/-- Dropping cells keeps the canonical form. -/
theorem Memory.filter_wf (p : Host.Cell → Bool) (m : Memory) (h : Memory.wf m = true) : Memory.wf (m.filter p) = true :=
  Memory.filter_wfFrom p m h

/-- A write keeps the canonical form. -/
theorem Memory.write_wf (m : Memory) (a : Nat) (b : Byte) (h : Memory.wf m = true) : Memory.wf (Memory.write m a b) = true := by
  unfold Memory.write
  split
  · exact Memory.tdel_wf a m h
  · exact Memory.tput_wf (by assumption) (Nat.zero_le a) m h

/-- Writes keep the canonical form. -/
theorem Memory.writes_wf (m : Memory) (a : Nat) (l : List Byte) (h : Memory.wf m = true) :
    Memory.wf (Memory.writes m a l) = true := by
  induction l generalizing m a with
  | nil => exact h
  | cons b t ih => exact ih _ _ (Memory.write_wf m a b h)

/-! ### Read after write -/

/-- The byte written is the byte read. -/
theorem Memory.read_write_self (m : Memory) (a : Nat) (b : Byte) (h : Memory.wf m = true) :
    Memory.read (Memory.write m a b) a = b := by
  unfold Memory.read Memory.write
  split
  · rename_i h1
    rw [tget_tdel_self m a, h1]
    rfl
  · simp

/-- A write leaves every other address alone. -/
theorem Memory.read_write_ne (m : Memory) {a c : Nat} (h : c ≠ a) (b : Byte) :
    Memory.read (Memory.write m a b) c = Memory.read m c := by
  unfold Memory.read Memory.write
  split
  · rw [tget_tdel_ne m h]
  · rw [tget_tput_ne m h]

/-- Writes leave every address outside them alone. -/
theorem Memory.read_writes_ne (m : Memory) (a c : Nat) (l : List Byte) (h : c < a ∨ a + l.length ≤ c) :
    Memory.read (Memory.writes m a l) c = Memory.read m c := by
  induction l generalizing m a with
  | nil => rfl
  | cons b t ih =>
    simp only [List.length_cons] at h
    rw [Memory.writes, ih _ _ (by omega), Memory.read_write_ne m (by omega)]

/-- The bytes written are the bytes read. -/
theorem Memory.read_writes_at (m : Memory) (a : Nat) (l : List Byte) (h : Memory.wf m = true) (i : Nat) (hi : i < l.length) :
    Memory.read (Memory.writes m a l) (a + i) = l[i] := by
  induction l generalizing m a i with
  | nil => simp at hi
  | cons b t ih =>
    rw [Memory.writes]
    cases i with
    | zero =>
      rw [Memory.read_writes_ne _ _ _ _ (by omega)]
      exact Memory.read_write_self m a b h
    | succ j =>
      have k := ih (Memory.write m a b) (a + 1) (Memory.write_wf m a b h) j (by simpa using hi)
      rw [show a + (j + 1) = a + 1 + j by omega, k]
      rfl

end Sys2Proof.Machine
end

