-- ==== Sys2Proof/Laws/Kept.lean ====
section
/-! SUPPORT. `Kept s t`: what every operation of the block keeps from `s` to `t`. It is reflexive and transitive; the lemmas of
the files Kept1 … say it of each operation. -/

namespace Sys2Proof.Machine

/-- From `s` to `t` the queue is the same, no output and no record of the persistent log is taken back, memory stays
canonical, empty key slots stay blank, and a latched strobe watchdog keeps the beam dark. -/
structure Kept (s t : State) : Prop where
  pending : t.pending = s.pending
  out : s.out <:+ t.out
  log : s.nor.log <:+ t.nor.log
  memory : MemoryOk s → MemoryOk t
  slots : SlotsClean s → SlotsClean t
  strobe : s.seq.heldDark → t.seq.heldDark

/-- Slots given as a vector are blank where free. -/
def CleanSlots (v : Vector KeySlot 64) : Prop := ∀ i : Fin 64, (v[i]).blankIfFree

/-- `Kept` in terms of the parts of `t` it speaks of. -/
def KeptTo (s : State) (p : List Instr) (o : List Output) (g : List EventRec) (m h : Memory) (v : Vector KeySlot 64)
    (wd gs gb : Bool) : Prop :=
  p = s.pending ∧ s.out <:+ o ∧ s.nor.log <:+ g ∧ (MemoryOk s → Memory.wf m = true ∧ Memory.wf h = true) ∧
    (SlotsClean s → CleanSlots v) ∧ (s.seq.heldDark → wd = true → gs = false ∧ gb = true)

/-- `Kept` spelled by parts. -/
theorem kept_parts (s t : State) : Kept s t ↔
    KeptTo s t.pending t.out t.nor.log t.hbmMem t.hostMem t.keep.slots t.seq.wdLatch t.seq.gstrobe t.seq.gblank :=
  ⟨fun h => ⟨h.1, h.2, h.3, h.4, h.5, h.6⟩, fun h => ⟨h.1, h.2.1, h.2.2.1, h.2.2.2.1, h.2.2.2.2.1, h.2.2.2.2.2⟩⟩

/-- Every state keeps to itself. -/
theorem Kept.refl (s : State) : Kept s s := ⟨rfl, List.suffix_refl _, List.suffix_refl _, id, id, id⟩

/-- Keeping is transitive. -/
theorem Kept.trans {s t u : State} (h : Kept s t) (k : Kept t u) : Kept s u :=
  ⟨k.1.trans h.1, h.2.trans k.2, h.3.trans k.3, fun x => k.4 (h.4 x), fun x => k.5 (h.5 x), fun x => k.6 (h.6 x)⟩

/-- An update of other parts of the state keeps what the state before it keeps. -/
theorem kept_upd {s0 u : State}
    (pm : Power) (time : Times) (win : Win) (mb : Mailboxes) (cfg : Config) (led : Ledger) (lay : Layout)
    (rnd : Render) (store : Store) (seq : Seq) (link : Link) (trk : Track) (scan : Scan) (ilk : Vector Ilk 8)
    (dma : Dma) (fab : Fabric) (hbm : Hbm) (cal : Cal) (keep : Keeper) (upd : Update) (nor : Nor) (svc : Service)
    (smb : Smb) (diag : Diag) (aper : Aperture) (evt : Events) (stats : Tbl (BitVec 64)) (free : Nat)
    (h : Kept s0 u) (hk : keep.slots = u.keep.slots) (hn : nor.log = u.nor.log)
    (hd : (u.seq.wdLatch = true → u.seq.gstrobe = false ∧ u.seq.gblank = true) → seq.wdLatch = true →
      seq.gstrobe = false ∧ seq.gblank = true) :
    Kept s0 (State.mk
      u.pending u.out pm time win mb cfg led lay rnd store seq link trk scan ilk dma fab hbm cal keep upd nor svc smb
      diag aper evt stats u.hbmMem u.hostMem free) := by
  refine ⟨h.pending, h.out, by rw [hn]; exact h.log, h.memory, fun x => ?_, fun x => hd (h.strobe x)⟩
  have y := h.slots x
  intro i
  have z := y i
  rw [← hk] at z
  exact z

/-- A fold keeps what each of its steps keeps. -/
theorem kept_foldl {α : Type} {s0 : State} (f : State → α → State) (hf : ∀ t x, Kept s0 t → Kept s0 (f t x)) :
    ∀ (l : List α) (s : State), Kept s0 s → Kept s0 (l.foldl f s) := by
  intro l
  induction l with
  | nil => intro s h; exact h
  | cons x t ih => intro s h; exact ih _ (hf s x h)

end Sys2Proof.Machine
end

