-- ==== Sys2Proof/Laws/Kept1.lean ====
section
/-! SUPPORT. What the functions of these files keep of a state (Laws/Kept): Ops, Dtu, Operands, Flags, FabricOps, LedgerOps. -/

namespace Sys2Proof.Machine

theorem kept_hbmWrite {s0 : State} (a : Nat) (b : List Byte) {s : State} (hkp : Kept s0 s) : Kept s0 (hbmWrite a b s) := by
  exact ⟨hkp.1, hkp.2, hkp.3, fun x => ⟨Memory.writes_wf _ _ _ (hkp.4 x).1, (hkp.4 x).2⟩, hkp.5, hkp.6⟩

theorem kept_statAdd {s0 : State} (key : Nat) (n : Nat) {s : State} (hkp : Kept s0 s) : Kept s0 (statAdd key n s) := by
  grind [statAdd, kept_parts]

theorem kept_stat {s0 : State} (key : Nat) {s : State} (hkp : Kept s0 s) : Kept s0 (stat key s) := by
  grind [stat, kept_statAdd, kept_parts]

theorem kept_hostWrite {s0 : State} (a : Nat) (b : List Byte) {s : State} (hkp : Kept s0 s) : Kept s0 (hostWrite a b s) := by
  exact ⟨hkp.1, hkp.2, hkp.3, fun x => ⟨(hkp.4 x).1, Memory.writes_wf _ _ _ (hkp.4 x).2⟩, hkp.5, hkp.6⟩

theorem kept_emit {s0 : State} (o : Output) {s : State} (hkp : Kept s0 s) : Kept s0 (emit o s) := by
  exact ⟨hkp.1, hkp.2.trans (List.suffix_cons _ _), hkp.3, hkp.4, hkp.5, hkp.6⟩

theorem kept_sendMsix {s0 : State} (v : Nat) {s : State} (hkp : Kept s0 s) : Kept s0 (sendMsix v s) := by
  grind [sendMsix, kept_stat, kept_emit, kept_parts]

theorem kept_setRing {s0 : State} (i : Fin 64) (r : Ring) {s : State} (hkp : Kept s0 s) : Kept s0 (setRing i r s) := by
  grind [setRing, kept_parts]

theorem kept_coalesce {s0 : State} (i : Fin 64) {s : State} (hkp : Kept s0 s) : Kept s0 (coalesce i s) := by
  grind [coalesce, kept_sendMsix, kept_setRing, kept_parts]

theorem kept_writeShadow {s0 : State} (i : Fin 64) {s : State} (hkp : Kept s0 s) : Kept s0 (writeShadow i s) := by
  grind [writeShadow, kept_emit, kept_hostWrite, kept_parts]

theorem kept_advance {s0 : State} (i : Fin 64) {s : State} (hkp : Kept s0 s) : Kept s0 (advance i s) := by
  grind [advance, kept_coalesce, kept_writeShadow, kept_stat, kept_setRing, kept_parts]

theorem kept_pushEntry {s0 : State} (i : Fin 64) (b : List Byte) {s : State} (hkp : Kept s0 s) : Kept s0 (pushEntry i b s) := by
  grind [pushEntry, kept_advance, kept_emit, kept_hostWrite, kept_parts]

theorem kept_setFlag {s0 : State} (b : Fin 11) {s : State} (hkp : Kept s0 s) : Kept s0 (setFlag b s) := by
  grind [setFlag, kept_sendMsix, kept_parts]

theorem kept_countEvent {s0 : State} (code : Nat) {s : State} (hkp : Kept s0 s) : Kept s0 (countEvent code s) := by
  grind [countEvent, kept_parts]

theorem kept_eventToRing {s0 : State} (i : Fin 64) (r : EventRec) {s : State} (hkp : Kept s0 s) : Kept s0 (eventToRing i r s) := by
  grind [eventToRing, kept_pushEntry, kept_setFlag, kept_countEvent, kept_parts]

theorem kept_eventToRings {s0 : State} (r : EventRec) (a1 : List (Fin 64)) {a2 : State} (hkp : Kept s0 a2) : Kept s0 (eventToRings r a1 a2) := by
  fun_induction eventToRings r a1 a2 <;> grind [kept_eventToRing, kept_parts]

theorem kept_recordEvent {s0 : State} (code : Nat) (d : Domain) (det : W128) {s : State} (hkp : Kept s0 s) : Kept s0 (recordEvent code d det s) := by
  exact kept_eventToRings _ _ ⟨hkp.1, hkp.2, hkp.3.trans (List.suffix_cons _ _), hkp.4, hkp.5, hkp.6⟩

theorem kept_raise {s0 : State} (code : Nat) (d : Domain) (det : W128) {s : State} (hkp : Kept s0 s) : Kept s0 (raise code d det s) := by
  grind [raise, kept_recordEvent, kept_countEvent, kept_parts]

theorem kept_complete {s0 : State} (src : Src) (c : Completion) {s : State} (hkp : Kept s0 s) : Kept s0 (complete src c s) := by
  unfold complete
  (repeat' split) <;> grind [kept_emit, kept_pushEntry, kept_stat, kept_parts, kept_upd]

theorem kept_stopRing {s0 : State} (i : Fin 64) {s : State} (hkp : Kept s0 s) : Kept s0 (stopRing i s) := by
  grind [stopRing, kept_writeShadow, kept_setRing, kept_parts]

theorem kept_finish {s0 : State} (w : Waiting) (status : Nat) (reason : Nat) (results : List W128) {s : State} (hkp : Kept s0 s) : Kept s0 (finish w status reason results s) := by
  grind [finish, kept_complete, kept_stopRing, kept_parts]

theorem kept_finishAll {s0 : State} (p : Waiting → Option (Nat × Nat × List W128)) (a1 : List Waiting) {a2 : State} (hkp : Kept s0 a2) : Kept s0 (finishAll p a1 a2) := by
  fun_induction finishAll p a1 a2 <;> grind [kept_finish, kept_parts]

theorem kept_settle {s0 : State} (p : Waiting → Option (Nat × Nat × List W128)) {s : State} (hkp : Kept s0 s) : Kept s0 (settle p s) := by
  grind [settle, kept_finishAll, kept_parts]

theorem kept_raiseLimited {s0 : State} (key : Nat) (code : Nat) (d : Domain) (det : W128) {s : State} (hkp : Kept s0 s) : Kept s0 (raiseLimited key code d det s) := by
  grind [raiseLimited, kept_countEvent, kept_recordEvent, kept_parts, kept_upd]

theorem kept_writeRefused {s0 : State} (det : W128) {s : State} (hkp : Kept s0 s) : Kept s0 (writeRefused det s) := by
  grind [writeRefused, kept_raise, kept_parts]

theorem kept_injected {s0 : State} (fault : Nat) (p : BitVec 32 → Bool) {s : State} (hkp : Kept s0 s) : Kept s0 (injected fault p s).2 := by
  grind [injected, kept_parts]

theorem kept_injected_eq {s0 : State} (fault : Nat) (p : BitVec 32 → Bool) {s : State} {v : Bool} {t : State} (hev : (injected fault p s) = (v, t)) (h : Kept s0 s) : Kept s0 t := by
  have k := @kept_injected s0 fault p s h
  rw [hev] at k
  exact k

theorem kept_takeFree {s0 : State} {s : State} (hkp : Kept s0 s) : Kept s0 (takeFree s).2 := by
  grind [takeFree, kept_parts]

theorem kept_takeFree_eq {s0 : State} {s : State} {v : BitVec 128} {t : State} (hev : (takeFree s) = (v, t)) (h : Kept s0 s) : Kept s0 t := by
  have k := @kept_takeFree s0 s h
  rw [hev] at k
  exact k

theorem kept_cacheFill {s0 : State} (flow : Nat) (va : Nat) (pg : Bool × Nat × Bool) {s : State} (hkp : Kept s0 s) : Kept s0 (cacheFill flow va pg s) := by
  grind [cacheFill, kept_parts]

theorem kept_translate {s0 : State} (flow : Nat) (write : Bool) (va : Nat) {s : State} (hkp : Kept s0 s) : Kept s0 (translate flow write va s).2 := by
  unfold translate
  (repeat' split) <;> grind [kept_injected, kept_takeFree, kept_stat, kept_statAdd, kept_cacheFill, kept_parts]

theorem kept_translate_eq {s0 : State} (flow : Nat) (write : Bool) (va : Nat) {s : State} {v : Except Nat Nat} {t : State} (hev : (translate flow write va s) = (v, t)) (h : Kept s0 s) : Kept s0 t := by
  have k := @kept_translate s0 flow write va s h
  rw [hev] at k
  exact k

theorem kept_vwriteFuel {s0 : State} (a0 : Nat) (a1 : Nat) (a2 : Nat) (a3 : List Byte) (a4 : Nat) {a5 : State} (hkp : Kept s0 a5) : Kept s0 (vwriteFuel a0 a1 a2 a3 a4 a5).2 := by
  fun_induction vwriteFuel a0 a1 a2 a3 a4 a5 <;> grind [kept_translate, kept_hostWrite, → kept_translate_eq, kept_parts]

theorem kept_vwriteFuel_eq {s0 : State} (a0 : Nat) (a1 : Nat) (a2 : Nat) (a3 : List Byte) (a4 : Nat) {a5 : State} {v : (Option (Nat × Nat) × Nat)} {t : State} (hev : (vwriteFuel a0 a1 a2 a3 a4 a5) = (v, t)) (h : Kept s0 a5) : Kept s0 t := by
  have k := @kept_vwriteFuel s0 a0 a1 a2 a3 a4 a5 h
  rw [hev] at k
  exact k

theorem kept_vwrite {s0 : State} (flow : Nat) (va : Nat) (b : List Byte) {s : State} (hkp : Kept s0 s) : Kept s0 (vwrite flow va b s).2 := by
  grind [vwrite, kept_vwriteFuel, kept_parts]

theorem kept_vwrite_eq {s0 : State} (flow : Nat) (va : Nat) (b : List Byte) {s : State} {v : (Option (Nat × Nat) × Nat)} {t : State} (hev : (vwrite flow va b s) = (v, t)) (h : Kept s0 s) : Kept s0 t := by
  have k := @kept_vwrite s0 flow va b s h
  rw [hev] at k
  exact k

theorem kept_recordFault {s0 : State} (f : DFault) {s : State} (hkp : Kept s0 s) : Kept s0 (recordFault f s) := by
  grind [recordFault, kept_raise, kept_parts]

theorem kept_promoteFault {s0 : State} {s : State} (hkp : Kept s0 s) : Kept s0 (promoteFault s) := by
  grind [promoteFault, kept_recordFault, kept_parts, kept_upd]

theorem kept_vreadFuel {s0 : State} (a0 : Nat) (a1 : Nat) (a2 : Nat) (a3 : Nat) (a4 : List Byte) {a5 : State} (hkp : Kept s0 a5) : Kept s0 (vreadFuel a0 a1 a2 a3 a4 a5).2 := by
  fun_induction vreadFuel a0 a1 a2 a3 a4 a5 with
  | case1 => exact hkp
  | case2 => exact hkp
  | case3 => rename_i x; exact kept_translate_eq _ _ _ x hkp
  | case4 => rename_i x ih; exact ih (kept_translate_eq _ _ _ x hkp)

theorem kept_vreadFuel_eq {s0 : State} (a0 : Nat) (a1 : Nat) (a2 : Nat) (a3 : Nat) (a4 : List Byte) {a5 : State} {v : Except (Nat × Nat × List Byte) (List Byte)} {t : State} (hev : (vreadFuel a0 a1 a2 a3 a4 a5) = (v, t)) (h : Kept s0 a5) : Kept s0 t := by
  have k := @kept_vreadFuel s0 a0 a1 a2 a3 a4 a5 h
  rw [hev] at k
  exact k

theorem kept_vread {s0 : State} (flow : Nat) (va : Nat) (n : Nat) {s : State} (hkp : Kept s0 s) : Kept s0 (vread flow va n s).2 := by
  grind [vread, kept_vreadFuel, kept_parts]

theorem kept_vread_eq {s0 : State} (flow : Nat) (va : Nat) (n : Nat) {s : State} {v : Except (Nat × Nat × List Byte) (List Byte)} {t : State} (hev : (vread flow va n s) = (v, t)) (h : Kept s0 s) : Kept s0 t := by
  have k := @kept_vread s0 flow va n s h
  rw [hev] at k
  exact k

theorem kept_readSpace {s0 : State} (space : Nat) (flow : Nat) (a : Nat) (n : Nat) {s : State} (hkp : Kept s0 s) : Kept s0 (readSpace space flow a n s).2 := by
  grind [readSpace, kept_vread, kept_parts]

theorem kept_readSpace_eq {s0 : State} (space : Nat) (flow : Nat) (a : Nat) (n : Nat) {s : State} {v : Except (Nat × Nat × List Byte) (List Byte)} {t : State} (hev : (readSpace space flow a n s) = (v, t)) (h : Kept s0 s) : Kept s0 t := by
  have k := @kept_readSpace s0 space flow a n s h
  rw [hev] at k
  exact k

theorem kept_consume {s0 : State} (src : Src) {s : State} (hkp : Kept s0 s) : Kept s0 (consume src s) := by
  unfold consume
  (repeat' split) <;> grind [kept_setRing, kept_advance, kept_parts]

theorem kept_stallCheck {s0 : State} (i : Fin 8) {s : State} (hkp : Kept s0 s) : Kept s0 (stallCheck i s) := by
  grind [stallCheck, kept_raise, kept_stat, kept_setRing, kept_parts]

theorem kept_refuseInMode {s0 : State} (c : Cmd) (r : Nat × Nat) {s : State} (hkp : Kept s0 s) : Kept s0 (refuseInMode c r s) := by
  grind [refuseInMode, kept_raiseLimited, kept_parts]

theorem kept_takeUp {s0 : State} (c : Cmd) (e : Entry) (hold : Bool) (act : Waiting → State → State) {s : State} (hkp : Kept s0 s) (hact : ∀ x0 x1, Kept s0 x1 → Kept s0 (act x0 x1)) : Kept s0 (takeUp c e hold act s) := by
  grind [takeUp, kept_stallCheck, kept_consume, kept_finish, kept_refuseInMode, kept_parts]

theorem kept_wait {s0 : State} (w : Waiting) (on : WaitOn) {s : State} (hkp : Kept s0 s) : Kept s0 (wait w on s) := by
  grind [wait, kept_parts]

theorem kept_readBuffer {s0 : State} (e : Entry) (w : W128) (lenOk : Nat → Bool) {s : State} (hkp : Kept s0 s) : Kept s0 (readBuffer e w lenOk s).2 := by
  grind [readBuffer, kept_vread, kept_parts]

theorem kept_readBuffer_eq {s0 : State} (e : Entry) (w : W128) (lenOk : Nat → Bool) {s : State} {v : Except (Nat × Nat) (List Byte)} {t : State} (hev : (readBuffer e w lenOk s) = (v, t)) (h : Kept s0 s) : Kept s0 t := by
  have k := @kept_readBuffer s0 e w lenOk s h
  rw [hev] at k
  exact k

theorem kept_setSmb {s0 : State} (m : BitVec 4) {s : State} (hkp : Kept s0 s) : Kept s0 (setSmb m s) := by
  grind [setSmb, kept_parts]

theorem kept_setPort {s0 : State} (p : Fin 8) (q : Port) {s : State} (hkp : Kept s0 s) : Kept s0 (setPort p q s) := by
  grind [setPort, kept_parts]

theorem kept_setPClass {s0 : State} (p : Fin 8) (c : Fin 4) (k : PClass) {s : State} (hkp : Kept s0 s) : Kept s0 (setPClass p c k s) := by
  grind [setPClass, kept_setPort, kept_parts]

theorem kept_transmit {s0 : State} (p : Fin 8) (c : Fin 4) (t : TxSpore) {s : State} (hkp : Kept s0 s) : Kept s0 (transmit p c t s) := by
  grind [transmit, kept_injected, kept_stat, kept_setPClass, kept_emit, kept_parts]

theorem kept_sendOn {s0 : State} (p : Fin 8) (c : Fin 4) (t : TxSpore) {s : State} (hkp : Kept s0 s) : Kept s0 (sendOn p c t s) := by
  grind [sendOn, kept_transmit, kept_setPClass, kept_parts]

theorem kept_originateOn {s0 : State} (p : Fin 8) (dst : Nat) (typ : Nat) (c : Fin 4) (payload : List Byte) {s : State} (hkp : Kept s0 s) : Kept s0 (originateOn p dst typ c payload s) := by
  grind [originateOn, kept_sendOn, kept_parts]

theorem kept_undeliverable {s0 : State} (reason : Nat) {s : State} (hkp : Kept s0 s) : Kept s0 (undeliverable reason s) := by
  grind [undeliverable, kept_raise, kept_stat, kept_parts]

theorem kept_send {s0 : State} (dst : Nat) (typ : Nat) (c : Fin 4) (payload : List Byte) {s : State} (hkp : Kept s0 s) : Kept s0 (send dst typ c payload s) := by
  grind [send, kept_originateOn, kept_undeliverable, kept_parts]

theorem kept_nackSpore {s0 : State} (w : W128) (reason : Nat) (sub : Nat) {s : State} (hkp : Kept s0 s) : Kept s0 (nackSpore w reason sub s) := by
  grind [nackSpore, kept_undeliverable, kept_send, kept_parts]

theorem kept_sendLinkAck {s0 : State} (p : Fin 8) (c : Fin 4) (code : Nat) (viol : Nat) {s : State} (hkp : Kept s0 s) : Kept s0 (sendLinkAck p c code viol s) := by
  grind [sendLinkAck, kept_emit, kept_parts]

theorem kept_ackIfEight {s0 : State} (p : Fin 8) (c : Fin 4) {s : State} (hkp : Kept s0 s) : Kept s0 (ackIfEight p c s) := by
  grind [ackIfEight, kept_sendLinkAck, kept_setPClass, kept_parts]

theorem kept_floodFrom {s0 : State} (except : Option (Fin 8)) (typ : Nat) (payload : List Byte) (a3 : List (Fin 8)) {a4 : State} (hkp : Kept s0 a4) : Kept s0 (floodFrom except typ payload a3 a4) := by
  fun_induction floodFrom except typ payload a3 a4 <;> grind [kept_originateOn, kept_parts]

theorem kept_updateRoutes {s0 : State} (a0 : List (Nat × BitVec 32)) {a1 : State} (hkp : Kept s0 a1) : Kept s0 (updateRoutes a0 a1) := by
  fun_induction updateRoutes a0 a1 <;> grind [kept_raise, kept_parts]

theorem kept_refreshRoutes {s0 : State} {s : State} (hkp : Kept s0 s) : Kept s0 (refreshRoutes s) := by
  grind [refreshRoutes, kept_updateRoutes, kept_parts]

theorem kept_violation {s0 : State} (p : Fin 8) (code : Nat) (src : Nat) (typ : Nat) {s : State} (hkp : Kept s0 s) : Kept s0 (violation p code src typ s) := by
  have h1 := kept_raiseLimited (0x060300 + p.val) 0x0603 .fab (detail [du 8 p.val, du 8 code, du 16 src, du 8 typ])
    (kept_stat (sk 0x06010001 (0x200 + p.val * 16 + code)) hkp)
  rw [violation]
  generalize raiseLimited _ _ _ _ _ = s1 at h1
  split
  · exact kept_refreshRoutes (kept_raise _ _ _ (kept_setPort _ _ h1))
  · exact kept_setPort _ _ h1

theorem kept_sendAlternate {s0 : State} (dst : Nat) (typ : Nat) (c : Fin 4) (payload : List Byte) {s : State} (hkp : Kept s0 s) : Kept s0 (sendAlternate dst typ c payload s) := by
  grind [sendAlternate, kept_originateOn, kept_parts]

theorem kept_sendBoth {s0 : State} (dst : Nat) (typ : Nat) (c : Fin 4) (payload : List Byte) {s : State} (hkp : Kept s0 s) : Kept s0 (sendBoth dst typ c payload s) := by
  grind [sendBoth, kept_sendAlternate, kept_send, kept_parts]

theorem kept_dropPorts {s0 : State} {s : State} (hkp : Kept s0 s) : Kept s0 (dropPorts s) := by
  grind [dropPorts, kept_parts]

theorem kept_drainQueue {s0 : State} (p : Fin 8) (c : Fin 4) (a2 : Nat) {a3 : State} (hkp : Kept s0 a3) : Kept s0 (drainQueue p c a2 a3) := by
  fun_induction drainQueue p c a2 a3 <;> grind [kept_transmit, kept_setPClass, kept_parts]

theorem kept_rerouteAll {s0 : State} (a0 : List (Fin 4 × TxSpore)) {a1 : State} (hkp : Kept s0 a1) : Kept s0 (rerouteAll a0 a1) := by
  fun_induction rerouteAll a0 a1 <;> grind [kept_sendOn, kept_nackSpore, kept_parts]

theorem kept_portDown {s0 : State} (p : Fin 8) {s : State} (hkp : Kept s0 s) : Kept s0 (portDown p s) := by
  grind [portDown, kept_rerouteAll, kept_refreshRoutes, kept_raise, kept_setPort, kept_parts]

theorem kept_violationAck {s0 : State} (p : Fin 8) (c : Fin 4) (code : Nat) (src : Nat) (typ : Nat) {s : State} (hkp : Kept s0 s) : Kept s0 (violationAck p c code src typ s) := by
  grind [violationAck, kept_sendLinkAck, kept_violation, kept_parts]

theorem kept_resendAll {s0 : State} (p : Fin 8) (c : Fin 4) (a2 : List TxSpore) {a3 : State} (hkp : Kept s0 a3) : Kept s0 (resendAll p c a2 a3) := by
  fun_induction resendAll p c a2 a3 <;> grind [kept_emit, kept_parts]

theorem kept_retransmit {s0 : State} (p : Fin 8) (c : Fin 4) {s : State} (hkp : Kept s0 s) : Kept s0 (retransmit p c s) := by
  grind [retransmit, kept_raiseLimited, kept_stat, kept_setPClass, kept_portDown, kept_resendAll, kept_parts]

theorem kept_sendCredit {s0 : State} (p : Fin 8) {s : State} (hkp : Kept s0 s) : Kept s0 (sendCredit p s) := by
  grind [sendCredit, kept_emit, kept_setPort, kept_parts]

theorem kept_linkTake {s0 : State} (p : Fin 8) (sp : Spore) {s : State} (hkp : Kept s0 s) : Kept s0 (linkTake p sp s).2 := by
  unfold linkTake
  dsimp only
  (repeat' split) <;> first
    | exact hkp
    | grind [kept_violationAck, kept_ackIfEight, kept_setPClass, kept_sendLinkAck, kept_stat]

theorem kept_linkTake_eq {s0 : State} (p : Fin 8) (sp : Spore) {s : State} {v : Bool} {t : State} (hev : (linkTake p sp s) = (v, t)) (h : Kept s0 s) : Kept s0 t := by
  have k := @kept_linkTake s0 p sp s h
  rw [hev] at k
  exact k

theorem kept_forward {s0 : State} (sp : Spore) {s : State} (hkp : Kept s0 s) : Kept s0 (forward sp s) := by
  grind [forward, kept_nackSpore, kept_sendOn, kept_parts]

theorem kept_rxSpore {s0 : State} (typ : Nat) (p : Fin 8) (sp : Spore) (deliver : State → State) {s : State} (hkp : Kept s0 s) (hdeliver : ∀ x0, Kept s0 x0 → Kept s0 (deliver x0)) : Kept s0 (rxSpore typ p sp deliver s) := by
  unfold rxSpore
  (repeat' split) <;> grind [kept_linkTake, kept_violationAck, kept_nackSpore, kept_violation, kept_forward, kept_parts]

theorem kept_forwardFlood {s0 : State} (p : Fin 8) (sp : Spore) (a2 : List (Fin 8)) {a3 : State} (hkp : Kept s0 a3) : Kept s0 (forwardFlood p sp a2 a3) := by
  fun_induction forwardFlood p sp a2 a3 <;> grind [kept_sendOn, kept_parts]

theorem kept_sendRecs {s0 : State} (node : BitVec 12) (rs : List WRec) {s : State} (hkp : Kept s0 s) : Kept s0 (sendRecs node rs s) := by
  grind [sendRecs, kept_send, kept_parts]

theorem kept_writeRegion {s0 : State} (f : BitVec 8) (a : Nat) (n : Nat) (r : WRec) {s : State} (hkp : Kept s0 s) : Kept s0 (writeRegion f a n r s) := by
  grind [writeRegion, kept_vwrite, kept_recordFault, kept_parts]

theorem kept_sendTo {s0 : State} (w : WitnessKind) (r : WRec) {s : State} (hkp : Kept s0 s) : Kept s0 (sendTo w r s) := by
  unfold sendTo
  (repeat' split) <;> grind [kept_sendRecs, kept_writeRegion, kept_parts]

theorem kept_sendRec {s0 : State} (r : WRec) {s : State} (hkp : Kept s0 s) : Kept s0 (sendRec r s) := by
  grind [sendRec, kept_sendTo, kept_sendRecs, kept_parts]

theorem kept_appendRec {s0 : State} (mk : State → WRec) {s : State} (hkp : Kept s0 s) : Kept s0 (appendRec mk s) := by
  grind [appendRec, kept_stat, kept_sendRec, kept_parts]

theorem kept_checkpointItems {s0 : State} (a0 : List Item) {a1 : State} (hkp : Kept s0 a1) : Kept s0 (checkpointItems a0 a1) := by
  fun_induction checkpointItems a0 a1 <;> grind [kept_appendRec, kept_parts]

theorem kept_checkpointFlows {s0 : State} (a0 : List (Nat × Flow)) {a1 : State} (hkp : Kept s0 a1) : Kept s0 (checkpointFlows a0 a1) := by
  fun_induction checkpointFlows a0 a1 <;> grind [kept_appendRec, kept_parts]

theorem kept_regionCheckpoint {s0 : State} {s : State} (hkp : Kept s0 s) : Kept s0 (regionCheckpoint s) := by
  grind [regionCheckpoint, kept_checkpointItems, kept_checkpointFlows, kept_parts]

theorem kept_writeRec {s0 : State} (mk : State → WRec) {s : State} (hkp : Kept s0 s) : Kept s0 (writeRec mk s) := by
  grind [writeRec, kept_appendRec, kept_regionCheckpoint, kept_parts]

theorem kept_putItem {s0 : State} (x : Item) {s : State} (hkp : Kept s0 s) : Kept s0 (putItem x s) := by
  grind [putItem, kept_parts]

theorem kept_endItem {s0 : State} (i : Item) (st : ItemSt) (status : Nat) (reason : Nat) {s : State} (hkp : Kept s0 s) : Kept s0 (endItem i st status reason s) := by
  grind [endItem, kept_writeRec, kept_putItem, kept_raise, kept_parts]

theorem kept_failItem {s0 : State} (f : BitVec 8) (q : BitVec 64) (status : Nat) (reason : Nat) {s : State} (hkp : Kept s0 s) : Kept s0 (failItem f q status reason s) := by
  grind [failItem, kept_endItem, kept_parts]

theorem kept_doneItem {s0 : State} (f : BitVec 8) (q : BitVec 64) (result : Nat) {s : State} (hkp : Kept s0 s) : Kept s0 (doneItem f q result s) := by
  grind [doneItem, kept_endItem, kept_parts]

theorem kept_setFlow {s0 : State} (f : BitVec 8) (x : Flow) {s : State} (hkp : Kept s0 s) : Kept s0 (setFlow f x s) := by
  grind [setFlow, kept_parts]

theorem kept_acceptItem {s0 : State} (i : Item) {s : State} (hkp : Kept s0 s) : Kept s0 (acceptItem i s) := by
  grind [acceptItem, kept_setFlow, kept_putItem, kept_parts]

theorem kept_retireFlow {s0 : State} (f : BitVec 8) {s : State} (hkp : Kept s0 s) : Kept s0 (retireFlow f s) := by
  grind [retireFlow, kept_parts]

theorem kept_applyFloor {s0 : State} (f : BitVec 8) (floor : BitVec 64) {s : State} (hkp : Kept s0 s) : Kept s0 (applyFloor f floor s) := by
  grind [applyFloor, kept_setFlow, kept_parts]

theorem kept_ackEffect {s0 : State} (a : Nat) (w : Waiting) {s : State} (hkp : Kept s0 s) : Kept s0 (ackEffect a w s) := by
  grind [ackEffect, kept_setFlow, kept_retireFlow, kept_applyFloor, kept_parts]

theorem kept_ackEffects {s0 : State} (a : Nat) (a1 : List Waiting) {a2 : State} (hkp : Kept s0 a2) : Kept s0 (ackEffects a a1 a2) := by
  fun_induction ackEffects a a1 a2 <;> grind [kept_ackEffect, kept_parts]

theorem kept_drainResults {s0 : State} (j : Fin 8) (a1 : Nat) {a2 : State} (hkp : Kept s0 a2) : Kept s0 (drainResults j a1 a2) := by
  fun_induction drainResults j a1 a2 <;> grind [kept_setRing, kept_pushEntry, kept_parts]

theorem kept_serveResults {s0 : State} (j : Fin 8) {s : State} (hkp : Kept s0 s) : Kept s0 (serveResults j s) := by
  grind [serveResults, kept_drainResults, kept_parts]

theorem kept_publish {s0 : State} (i : Item) {s : State} (hkp : Kept s0 s) : Kept s0 (publish i s) := by
  grind [publish, kept_serveResults, kept_putItem, kept_parts]

theorem kept_settleItem {s0 : State} (a : Nat) (i : Item) {s : State} (hkp : Kept s0 s) : Kept s0 (settleItem a i s) := by
  grind [settleItem, kept_acceptItem, kept_publish, kept_parts]

theorem kept_settleItems {s0 : State} (a : Nat) (a1 : List Item) {a2 : State} (hkp : Kept s0 a2) : Kept s0 (settleItems a a1 a2) := by
  fun_induction settleItems a a1 a2 <;> grind [kept_settleItem, kept_parts]

theorem kept_settleAcks {s0 : State} {s : State} (hkp : Kept s0 s) : Kept s0 (settleAcks s) := by
  grind [settleAcks, kept_settleItems, kept_ackEffects, kept_settle, kept_parts]

theorem kept_ackMirror {s0 : State} (a : Nat) {s : State} (hkp : Kept s0 s) : Kept s0 (ackMirror a s) := by
  grind [ackMirror, kept_settleAcks, kept_parts]

theorem kept_ackUpTo {s0 : State} (a : Nat) {s : State} (hkp : Kept s0 s) : Kept s0 (ackUpTo a s) := by
  grind [ackUpTo, kept_settleAcks, kept_parts]

theorem kept_addItem {s0 : State} (x : Item) {s : State} (hkp : Kept s0 s) : Kept s0 (addItem x s) := by
  grind [addItem, kept_parts]

theorem kept_progressRec {s0 : State} {s : State} (hkp : Kept s0 s) : Kept s0 (progressRec s) := by
  grind [progressRec, kept_writeRec, kept_putItem, kept_parts]

theorem kept_dropItem {s0 : State} (f : BitVec 8) (q : BitVec 64) {s : State} (hkp : Kept s0 s) : Kept s0 (dropItem f q s) := by
  grind [dropItem, kept_parts]

theorem kept_restoreFlow {s0 : State} (w : Waiting) {s : State} (hkp : Kept s0 s) : Kept s0 (restoreFlow w s) := by
  grind [restoreFlow, kept_writeRec, kept_parts]

theorem kept_restoreFlows {s0 : State} (a0 : List Waiting) {a1 : State} (hkp : Kept s0 a1) : Kept s0 (restoreFlows a0 a1) := by
  fun_induction restoreFlows a0 a1 <;> grind [kept_restoreFlow, kept_parts]

theorem kept_withdraw {s0 : State} (i : Item) {s : State} (hkp : Kept s0 s) : Kept s0 (withdraw i s) := by
  grind [withdraw, kept_dropItem, kept_writeRec, kept_parts, kept_upd]

theorem kept_withdrawAll {s0 : State} (a0 : List Item) {a1 : State} (hkp : Kept s0 a1) : Kept s0 (withdrawAll a0 a1) := by
  fun_induction withdrawAll a0 a1 <;> grind [kept_withdraw, kept_parts]

theorem kept_refuseSubmitted {s0 : State} (a0 : List Item) {a1 : State} (hkp : Kept s0 a1) : Kept s0 (refuseSubmitted a0 a1) := by
  fun_induction refuseSubmitted a0 a1 <;> grind [kept_raise, kept_parts]

theorem kept_loseWitness {s0 : State} {s : State} (hkp : Kept s0 s) : Kept s0 (loseWitness s) := by
  unfold loseWitness
  split
  · exact hkp
  · exact kept_settle _ (kept_restoreFlows _ (kept_withdrawAll _ (kept_refuseSubmitted _ (kept_setFlag _
      (kept_raise _ _ _ (kept_stat _ ⟨hkp.1, hkp.2, hkp.3, hkp.4, hkp.5, hkp.6⟩))))))

theorem kept_sendBatches {s0 : State} (node : BitVec 12) (a1 : Nat) (a2 : List WRec) {a3 : State} (hkp : Kept s0 a3) : Kept s0 (sendBatches node a1 a2 a3) := by
  fun_induction sendBatches node a1 a2 a3 <;> grind [kept_sendRecs, kept_parts]

theorem kept_sendRegion {s0 : State} (f : BitVec 8) (a : Nat) (n : Nat) (a3 : List WRec) {a4 : State} (hkp : Kept s0 a4) : Kept s0 (sendRegion f a n a3 a4) := by
  fun_induction sendRegion f a n a3 a4 <;> grind [kept_writeRegion, kept_parts]

theorem kept_resendTo {s0 : State} (w : WitnessKind) (l : List WRec) {s : State} (hkp : Kept s0 s) : Kept s0 (resendTo w l s) := by
  unfold resendTo
  (repeat' split) <;> grind [kept_sendBatches, kept_sendRegion, kept_parts]

theorem kept_storeWitness {s0 : State} (w : WitnessKind) (epoch : BitVec 32) {s : State} (hkp : Kept s0 s) : Kept s0 (storeWitness w epoch s) := by
  grind [storeWitness, kept_parts]

theorem kept_restoreWitness {s0 : State} {s : State} (hkp : Kept s0 s) : Kept s0 (restoreWitness s) := by
  grind [restoreWitness, kept_raise, kept_resendTo, kept_parts]

end Sys2Proof.Machine
end

