-- ==== Sys2Proof/Laws/Kept2.lean ====
section
/-! SUPPORT. What the functions of these files keep of a state (Laws/Kept): ScanOps, CtrlOps, SlotOps, SeqOps, Tables, Stream, ScanPlan, StoreOps, SeqEnd, Sequencer, Ingest, Census. -/

namespace Sys2Proof.Machine

theorem kept_abortHoming {s0 : State} (reason : Nat) (input : Nat) {s : State} (hkp : Kept s0 s) : Kept s0 (abortHoming reason input s) := by
  grind [abortHoming, kept_raise, kept_stat, kept_parts]

theorem kept_rampStop {s0 : State} (origin : Nat) (cause : Nat) (input : Nat) {s : State} (hkp : Kept s0 s) : Kept s0 (rampStop origin cause input s) := by
  grind [rampStop, kept_raise, kept_stat, kept_parts]

theorem kept_loseHome {s0 : State} {s : State} (hkp : Kept s0 s) : Kept s0 (loseHome s) := by
  grind [loseHome, kept_parts]

theorem kept_becomeHolder {s0 : State} {s : State} (hkp : Kept s0 s) : Kept s0 (becomeHolder s) := by
  grind [becomeHolder, kept_takeFree, → kept_takeFree_eq, kept_parts, kept_upd]

theorem kept_releaseSpo {s0 : State} {s : State} (hkp : Kept s0 s) : Kept s0 (releaseSpo s) := by
  grind [releaseSpo, kept_parts]

theorem kept_sendCtrl {s0 : State} (op : Nat) (arg : Nat) (body : List W128) {s : State} (hkp : Kept s0 s) : Kept s0 (sendCtrl op arg body s) := by
  grind [sendCtrl, kept_emit, kept_stat, kept_parts]

theorem kept_sendChunk {s0 : State} (i : Nat) {s : State} (hkp : Kept s0 s) : Kept s0 (sendChunk i s) := by
  grind [sendChunk, kept_sendCtrl, kept_parts]

theorem kept_sendChunks {s0 : State} (a0 : List Nat) {a1 : State} (hkp : Kept s0 a1) : Kept s0 (sendChunks a0 a1) := by
  fun_induction sendChunks a0 a1 <;> grind [kept_sendChunk, kept_parts]

theorem kept_sendBeamConfig {s0 : State} {s : State} (hkp : Kept s0 s) : Kept s0 (sendBeamConfig s) := by
  grind [sendBeamConfig, kept_sendChunks, kept_parts]

theorem kept_reconfigure {s0 : State} {s : State} (hkp : Kept s0 s) : Kept s0 (reconfigure s) := by
  grind [reconfigure, kept_sendBeamConfig, kept_parts]

theorem kept_sendStripeClose {s0 : State} {s : State} (hkp : Kept s0 s) : Kept s0 (sendStripeClose s) := by
  grind [sendStripeClose, kept_sendCtrl, kept_parts]

theorem kept_sendStripeOpen {s0 : State} (f : BitVec 8) (q : BitVec 64) {s : State} (hkp : Kept s0 s) : Kept s0 (sendStripeOpen f q s) := by
  grind [sendStripeOpen, kept_sendCtrl, kept_parts]

theorem kept_sendRelease {s0 : State} {s : State} (hkp : Kept s0 s) : Kept s0 (sendRelease s) := by
  grind [sendRelease, kept_sendCtrl, kept_parts]

theorem kept_sendClaim {s0 : State} (force : Bool) {s : State} (hkp : Kept s0 s) : Kept s0 (sendClaim force s) := by
  grind [sendClaim, kept_sendCtrl, kept_parts]

theorem kept_blankHigh {s0 : State} {s : State} (hkp : Kept s0 s) : Kept s0 (blankHigh s) := by
  grind [blankHigh, kept_parts, kept_upd]

theorem kept_sendCommit {s0 : State} {s : State} (hkp : Kept s0 s) : Kept s0 (sendCommit s) := by
  grind [sendCommit, kept_sendCtrl, kept_parts]

theorem kept_sendLaneMap {s0 : State} {s : State} (hkp : Kept s0 s) : Kept s0 (sendLaneMap s) := by
  grind [sendLaneMap, kept_sendCtrl, kept_parts]

theorem kept_strobeLow {s0 : State} {s : State} (hkp : Kept s0 s) : Kept s0 (strobeLow s) := by
  grind [strobeLow, kept_parts, kept_upd]

theorem kept_releaseSlot {s0 : State} (n : Nat) {s : State} (hkp : Kept s0 s) : Kept s0 (releaseSlot n s) := by
  grind [releaseSlot, kept_parts]

theorem kept_releaseSlots {s0 : State} (a0 : List Nat) {a1 : State} (hkp : Kept s0 a1) : Kept s0 (releaseSlots a0 a1) := by
  fun_induction releaseSlots a0 a1 <;> grind [kept_releaseSlot, kept_parts]

theorem kept_releaseAll {s0 : State} {s : State} (hkp : Kept s0 s) : Kept s0 (releaseAll s) := by
  grind [releaseAll, kept_releaseSlots, kept_parts]

theorem kept_endFill {s0 : State} {s : State} (hkp : Kept s0 s) : Kept s0 (endFill s) := by
  grind [endFill, kept_releaseAll, kept_parts, kept_upd]

theorem kept_releaseRow {s0 : State} (line : Nat) {s : State} (hkp : Kept s0 s) : Kept s0 (releaseRow line s) := by
  grind [releaseRow, kept_releaseSlots, kept_parts]

theorem kept_setSlot {s0 : State} (n : Nat) (x : Slot) {s : State} (hkp : Kept s0 s) : Kept s0 (setSlot n x s) := by
  grind [setSlot, kept_parts]

theorem kept_takeBlocks {s0 : State} (a0 : Nat) {a1 : State} (hkp : Kept s0 a1) : Kept s0 (takeBlocks a0 a1).2 := by
  revert hkp
  fun_induction takeBlocks a0 a1 <;> intro hkp <;> grind [kept_parts]

theorem kept_takeBlocks_eq {s0 : State} (a0 : Nat) {a1 : State} {v : List Nat} {t : State} (hev : (takeBlocks a0 a1) = (v, t)) (h : Kept s0 a1) : Kept s0 t := by
  have k := @kept_takeBlocks s0 a0 a1 h
  rw [hev] at k
  exact k

theorem kept_putBlocks {s0 : State} (a0 : List Nat) (a1 : List Byte) {a2 : State} (hkp : Kept s0 a2) : Kept s0 (putBlocks a0 a1 a2) := by
  revert hkp
  fun_induction putBlocks a0 a1 a2 <;> intro hkp <;> grind [kept_parts]

theorem kept_cutNow {s0 : State} {s : State} (hkp : Kept s0 s) : Kept s0 (cutNow s) := by
  grind [cutNow, kept_takeFree, kept_raise, kept_stat, → kept_takeFree_eq, kept_parts, kept_upd]

theorem kept_countCause {s0 : State} (c : Nat) {s : State} (hkp : Kept s0 s) : Kept s0 (countCause c s) := by
  grind [countCause, kept_stat, kept_parts]

theorem kept_stopAt {s0 : State} (c : Nat) (imm : Bool) (m : Int) {s : State} (hkp : Kept s0 s) : Kept s0 (stopAt c imm m s) := by
  unfold stopAt
  dsimp only
  have h0 : Kept s0 (endFill (if imm then cutNow s else s)) := by
    apply kept_endFill
    split
    · exact kept_cutNow hkp
    · exact hkp
  have hg : ∀ (u : State) (x : List Int), u.seq.gblank = true → blankAtBoundary { u.seq with fired := x } = true := by
    intro u x h
    simp [blankAtBoundary, h]
  generalize endFill (if imm then cutNow s else s) = u at h0 ⊢
  apply kept_countCause
  refine ⟨h0.1, h0.2, h0.3, h0.4, h0.5, fun a w => ⟨(h0.6 a w).1, ?_⟩⟩
  cases imm
  · exact hg u _ (h0.6 a w).2
  · rfl

theorem kept_addCause {s0 : State} (c : Nat) {s : State} (hkp : Kept s0 s) : Kept s0 (addCause c s) := by
  grind [addCause, kept_countCause, kept_parts]

theorem kept_stopStripe {s0 : State} (c : Nat) (imm : Bool) (org : Nat) (input : Nat) {s : State} (hkp : Kept s0 s) : Kept s0 (stopStripe c imm org input s) := by
  grind [stopStripe, kept_rampStop, kept_stopAt, kept_addCause, kept_cutNow, kept_parts]

theorem kept_boundaryStop {s0 : State} (c : Nat) {s : State} (hkp : Kept s0 s) : Kept s0 (boundaryStop c s) := by
  grind [boundaryStop, kept_stopStripe, kept_parts]

theorem kept_setItem {s0 : State} (item : Nat) (idx : Nat) (v : W128) {s : State} (hkp : Kept s0 s) : Kept s0 (setItem item idx v s) := by
  grind [setItem, kept_parts]

theorem kept_applyStaged {s0 : State} (p : Nat → Bool) (a1 : List (Nat × Nat × W128)) {a2 : State} (hkp : Kept s0 a2) : Kept s0 (applyStaged p a1 a2) := by
  fun_induction applyStaged p a1 a2 <;> grind [kept_setItem, kept_parts]

theorem kept_activateItems {s0 : State} (p : Nat → Bool) {s : State} (hkp : Kept s0 s) : Kept s0 (activateItems p s) := by
  grind [activateItems, kept_applyStaged, kept_parts, kept_upd]

theorem kept_activateRender {s0 : State} {s : State} (hkp : Kept s0 s) : Kept s0 (activateRender s) := by
  grind [activateRender, kept_raise, kept_activateItems, kept_parts, kept_upd]

theorem kept_activateLmap {s0 : State} {s : State} (hkp : Kept s0 s) : Kept s0 (activateLmap s) := by
  grind [activateLmap, kept_raise, kept_parts]

theorem kept_activateBtab {s0 : State} {s : State} (hkp : Kept s0 s) : Kept s0 (activateBtab s) := by
  grind [activateBtab, kept_raise, kept_parts]

theorem kept_activateBoundary {s0 : State} {s : State} (hkp : Kept s0 s) : Kept s0 (activateBoundary s) := by
  grind [activateBoundary, kept_reconfigure, kept_activateBtab, kept_activateItems, kept_parts]

theorem kept_activateTables {s0 : State} {s : State} (hkp : Kept s0 s) : Kept s0 (activateTables s) := by
  grind [activateTables, kept_activateRender, kept_activateLmap, kept_activateBoundary, kept_parts]

theorem kept_stageItem {s0 : State} (item : Nat) (idx : Nat) (v : W128) {s : State} (hkp : Kept s0 s) : Kept s0 (stageItem item idx v s) := by
  grind [stageItem, kept_parts]

theorem kept_raiseBad {s0 : State} (b : Bad) {s : State} (hkp : Kept s0 s) : Kept s0 (raiseBad b s) := by
  unfold raiseBad
  (repeat' split) <;> grind [kept_raise, kept_parts]

theorem kept_jwrite {s0 : State} (j : JobRef) (off : Nat) (b : List Byte) {s : State} (hkp : Kept s0 s) : Kept s0 (jwrite j off b s) := by
  grind [jwrite, kept_hbmWrite, kept_vwrite, kept_parts]

theorem kept_stopBad {s0 : State} (b : Bad) {s : State} (hkp : Kept s0 s) : Kept s0 (stopBad b s) := by
  unfold stopBad
  (repeat' split) <;> grind [kept_raiseBad, kept_putItem, kept_boundaryStop, kept_parts]

theorem kept_raiseOnce {s0 : State} (done : Bool) (code : Nat) (mark : Scan → Scan) {s : State} (hkp : Kept s0 s) : Kept s0 (raiseOnce done code mark s) := by
  grind [raiseOnce, kept_raise, kept_parts]

theorem kept_tryApproach {s0 : State} {s : State} (hkp : Kept s0 s) : Kept s0 (tryApproach s) := by
  grind [tryApproach, kept_raiseOnce, kept_stopBad, kept_stat, kept_parts]

theorem kept_fillStep {s0 : State} (n : Int) {s : State} (hkp : Kept s0 s) : Kept s0 (fillStep n s) := by
  grind [fillStep, kept_releaseRow, kept_parts, kept_upd]

theorem kept_noteFailure {s0 : State} (line : Nat) (k : Nat) (b : ReadBad) {s : State} (hkp : Kept s0 s) : Kept s0 (noteFailure line k b s) := by
  grind [noteFailure, kept_parts]

theorem kept_countRead {s0 : State} (n : Nat) {s : State} (hkp : Kept s0 s) : Kept s0 (countRead n s) := by
  grind [countRead, kept_setSlot, kept_parts, kept_upd]

theorem kept_readRows {s0 : State} (n : Int) (a1 : List Nat) (a2 : List Frame) {a3 : State} (hkp : Kept s0 a3) : Kept s0 (readRows n a1 a2 a3).2 := by
  fun_induction readRows n a1 a2 a3 <;> grind [kept_injected, kept_stat, kept_noteFailure, kept_raise, kept_countRead, → kept_injected_eq, kept_parts]

theorem kept_readRows_eq {s0 : State} (n : Int) (a1 : List Nat) (a2 : List Frame) {a3 : State} {v : Option (List Frame)} {t : State} (hev : (readRows n a1 a2 a3) = (v, t)) (h : Kept s0 a3) : Kept s0 t := by
  have k := @kept_readRows s0 n a1 a2 a3 h
  rw [hev] at k
  exact k

theorem kept_flashReads {s0 : State} (n : Int) {s : State} (hkp : Kept s0 s) : Kept s0 (flashReads n s) := by
  grind [flashReads, kept_boundaryStop, kept_readRows, kept_emit, kept_statAdd, → kept_readRows_eq, kept_parts]

theorem kept_offloadIssue {s0 : State} {s : State} (hkp : Kept s0 s) : Kept s0 (offloadIssue s) := by
  grind [offloadIssue, kept_send, kept_statAdd, kept_parts]

theorem kept_expireOffloads {s0 : State} (a0 : List OffloadReq) {a1 : State} (hkp : Kept s0 a1) : Kept s0 (expireOffloads a0 a1) := by
  fun_induction expireOffloads a0 a1 <;> grind [kept_raise, kept_stat, kept_parts]

theorem kept_offloadStep {s0 : State} {s : State} (hkp : Kept s0 s) : Kept s0 (offloadStep s) := by
  grind [offloadStep, kept_offloadIssue, kept_expireOffloads, kept_parts]

theorem kept_checkReady {s0 : State} {s : State} (hkp : Kept s0 s) : Kept s0 (checkReady s) := by
  grind [checkReady, kept_parts]

theorem kept_spillSeg {s0 : State} (n : Nat) (line : Nat) (kind : Nat) (check : BitVec 32) (coded : List Byte) {s : State} (hkp : Kept s0 s) : Kept s0 (spillSeg n line kind check coded s) := by
  grind [spillSeg, kept_hbmWrite, kept_statAdd, kept_setSlot, kept_raise, kept_parts, kept_upd]

theorem kept_writeSeg {s0 : State} (line : Nat) (k : Nat) (kind : Nat) (check : BitVec 32) (coded : List Byte) (peer : Bool) {s : State} (hkp : Kept s0 s) : Kept s0 (writeSeg line k kind check coded peer s) := by
  grind [writeSeg, kept_stat, kept_setSlot, kept_takeBlocks, kept_putBlocks, kept_spillSeg, kept_parts]

theorem kept_beginFill {s0 : State} (f : BitVec 8) (q : BitVec 64) {s : State} (hkp : Kept s0 s) : Kept s0 (beginFill f q s) := by
  grind [beginFill, kept_checkReady, kept_parts]

theorem kept_assign {s0 : State} (r : RLine) (c : Fin 32) {s : State} (hkp : Kept s0 s) : Kept s0 (assign r c s) := by
  grind [assign, kept_parts]

theorem kept_dropLine {s0 : State} (r : RLine) {s : State} (hkp : Kept s0 s) : Kept s0 (dropLine r s) := by
  grind [dropLine, kept_parts]

theorem kept_writeLine {s0 : State} (line : Nat) (a1 : Nat) (a2 : List (List Nat)) {a3 : State} (hkp : Kept s0 a3) : Kept s0 (writeLine line a1 a2 a3) := by
  fun_induction writeLine line a1 a2 a3 <;> grind [kept_writeSeg, kept_parts]

theorem kept_seqIdle {s0 : State} {s : State} (hkp : Kept s0 s) : Kept s0 (seqIdle s) := by
  grind [seqIdle, Seq.toIdle, kept_endFill, kept_activateTables, kept_parts, kept_upd]

theorem kept_endStripe {s0 : State} (st : ItemSt) (status : Nat) {s : State} (hkp : Kept s0 s) : Kept s0 (endStripe st status s) := by
  grind [endStripe, kept_sendStripeClose, kept_seqIdle, kept_endItem, kept_parts]

theorem kept_loadCtab {s0 : State} {s : State} (hkp : Kept s0 s) : Kept s0 (loadCtab s) := by
  grind [loadCtab, kept_stopBad, kept_boundaryStop, kept_raise, kept_parts]

theorem kept_enterFilling {s0 : State} (f : BitVec 8) (q : BitVec 64) (n0 : Int) {s : State} (hkp : Kept s0 s) : Kept s0 (enterFilling f q n0 s) := by
  grind [enterFilling, kept_loadCtab, kept_tryApproach, kept_beginFill, kept_parts]

theorem kept_resumeStripe {s0 : State} {s : State} (hkp : Kept s0 s) : Kept s0 (resumeStripe s) := by
  grind [resumeStripe, kept_enterFilling, kept_parts]

theorem kept_stripeDone {s0 : State} {s : State} (hkp : Kept s0 s) : Kept s0 (stripeDone s) := by
  grind [stripeDone, kept_endStripe, kept_raise, kept_parts]

theorem kept_linkDown {s0 : State} (lane : Nat) {s : State} (hkp : Kept s0 s) : Kept s0 (linkDown lane s) := by
  grind [linkDown, kept_raise, kept_boundaryStop, kept_parts]

theorem kept_raiseStopped {s0 : State} {s : State} (hkp : Kept s0 s) : Kept s0 (raiseStopped s) := by
  grind [raiseStopped, kept_raise, kept_parts]

theorem kept_lowerRate {s0 : State} {s : State} (hkp : Kept s0 s) : Kept s0 (lowerRate s) := by
  grind [lowerRate, kept_raise, kept_jwrite, kept_parts]

theorem kept_decideStop {s0 : State} {s : State} (hkp : Kept s0 s) : Kept s0 (decideStop s) := by
  grind [decideStop, kept_endStripe, kept_raiseStopped, kept_stripeDone, kept_lowerRate, kept_parts, kept_upd]

theorem kept_settleH {s0 : State} (h : Int) {s : State} (hkp : Kept s0 s) : Kept s0 (settleH h s) := by
  grind [settleH, kept_raise, kept_stat, kept_decideStop, kept_progressRec, kept_parts, kept_upd]

theorem kept_failLane {s0 : State} (p : Nat) {s : State} (hkp : Kept s0 s) : Kept s0 (failLane p s) := by
  grind [failLane, kept_raise, kept_parts]

theorem kept_stamp {s0 : State} (i : Fin 3) {s : State} (hkp : Kept s0 s) : Kept s0 (stamp i s) := by
  grind [stamp, kept_parts]

theorem kept_startRun {s0 : State} {s : State} (hkp : Kept s0 s) : Kept s0 (startRun s) := by
  grind [startRun, kept_stamp, kept_raise, kept_parts, kept_upd]

theorem kept_acceptFire {s0 : State} (n : Int) {s : State} (hkp : Kept s0 s) : Kept s0 (acceptFire n s) := by
  grind [acceptFire, kept_stamp, kept_fillStep, kept_stat, kept_startRun, kept_flashReads, kept_offloadStep, kept_parts, kept_upd]

theorem kept_approachPast {s0 : State} {s : State} (hkp : Kept s0 s) : Kept s0 (approachPast s) := by
  grind [approachPast, kept_boundaryStop, kept_raise, kept_parts]

theorem kept_armStripe {s0 : State} {s : State} (hkp : Kept s0 s) : Kept s0 (armStripe s) := by
  grind [armStripe, kept_sendStripeOpen, kept_approachPast, kept_flashReads, kept_parts]

theorem kept_dieLimit {s0 : State} (sensor : Nat) (t : Int) {s : State} (hkp : Kept s0 s) : Kept s0 (dieLimit sensor t s) := by
  grind [dieLimit, kept_boundaryStop, kept_setFlag, kept_raise, kept_parts]

theorem kept_dieWarning {s0 : State} (sensor : Nat) (t : Int) {s : State} (hkp : Kept s0 s) : Kept s0 (dieWarning sensor t s) := by
  grind [dieWarning, kept_setSmb, kept_setFlag, kept_raise, kept_parts]

theorem kept_execStripeArm {s : State} {t : State} (hx : (execStripeArm s) = .next t) : Kept s t := by
  have h0 := Kept.refl s
  grind [execStripeArm, kept_armStripe, kept_parts]

theorem kept_overrun {s0 : State} (n : Int) (interval : Nat) {s : State} (hkp : Kept s0 s) : Kept s0 (overrun n interval s) := by
  grind [overrun, kept_boundaryStop, kept_raise, kept_stat, kept_parts]

theorem kept_execFireEvent (n : Int) (interval : Nat) {s : State} {t : State} (hx : (execFireEvent n interval s) = .next t) : Kept s t := by
  have h0 := Kept.refl s
  grind [execFireEvent, kept_acceptFire, kept_overrun, kept_parts]

theorem kept_execFrameDeadlineMissed {s : State} {t : State} (hx : (execFrameDeadlineMissed s) = .next t) : Kept s t := by
  have h0 := Kept.refl s
  grind [execFrameDeadlineMissed, kept_rampStop, kept_stopAt, kept_stat, kept_parts]

theorem kept_execGstrobeRise {s : State} {t : State} (hx : (execGstrobeRise s) = .next t) : Kept s t := by
  have h0 := Kept.refl s
  grind [execGstrobeRise, kept_parts, kept_upd]

theorem kept_execGstrobeFall {s : State} {t : State} (hx : (execGstrobeFall s) = .next t) : Kept s t := by
  have h0 := Kept.refl s
  grind [execGstrobeFall, kept_parts, kept_upd]

theorem kept_execStrobeCut {s : State} {t : State} (hx : (execStrobeCut s) = .next t) : Kept s t := by
  have h0 := Kept.refl s
  grind [execStrobeCut, kept_stopStripe, kept_setFlag, kept_raise, kept_stat, kept_parts, kept_upd]

theorem kept_execEndingTimeout {s : State} {t : State} (hx : (execEndingTimeout s) = .next t) : Kept s t := by
  have h0 := Kept.refl s
  grind [execEndingTimeout, kept_boundaryStop, kept_parts]

theorem kept_execHighWaterTimeout {s : State} {t : State} (hx : (execHighWaterTimeout s) = .next t) : Kept s t := by
  have h0 := Kept.refl s
  grind [execHighWaterTimeout, kept_settleH, kept_raise, kept_stat, kept_parts, kept_upd]

theorem kept_execResumeConditionMet {s : State} {t : State} (hx : (execResumeConditionMet s) = .next t) : Kept s t := by
  have h0 := Kept.refl s
  grind [execResumeConditionMet, kept_resumeStripe, kept_parts]

theorem kept_execTempSample (raw : Vector (BitVec 16) 16) (cool : Bool) {s : State} {t : State} (hx : (execTempSample raw cool s) = .next t) : Kept s t := by
  have h0 := Kept.refl s
  grind [execTempSample, kept_dieLimit, kept_dieWarning, kept_parts]

theorem kept_dropIngest {s0 : State} (f : BitVec 8) (sealed_ : Bool) {s : State} (hkp : Kept s0 s) : Kept s0 (dropIngest f sealed_ s) := by
  grind [dropIngest, kept_parts]

theorem kept_failIngest {s0 : State} (r : IngestRun) (reason : Nat) (off : Nat) (recNo : Nat) {s : State} (hkp : Kept s0 s) : Kept s0 (failIngest r reason off recNo s) := by
  unfold failIngest
  (repeat' split) <;> grind [kept_raise, kept_stat, kept_dropIngest, kept_activateTables, kept_failItem, kept_parts]

theorem kept_putIngest {s0 : State} (r : IngestRun) {s : State} (hkp : Kept s0 s) : Kept s0 (putIngest r s) := by
  grind [putIngest, kept_parts]

theorem kept_authStep {s0 : State} (r : IngestRun) (j : IngestJob) (key : BitVec 256) {s : State} (hkp : Kept s0 s) : Kept s0 (authStep r j key s) := by
  unfold authStep
  (repeat' split) <;> grind [kept_failIngest, kept_putIngest, kept_stat, kept_parts]

theorem kept_jput {s0 : State} (j : JobRef) (off : Nat) (b : List Byte) {s : State} {t : State} (hkp : Kept s0 s) (e : (jput j off b s) = some t) : Kept s0 t := by
  grind [jput, kept_hbmWrite, kept_vwrite, kept_parts]

theorem kept_skip {s0 : State} (kind off layer dt n : Nat) (p : IngestRun × State) (hkp : Kept s0 p.2) :
    Kept s0 (skip kind off layer dt n p).2 := by
  unfold skip
  dsimp only
  (repeat' split) <;> grind [kept_statAdd, kept_raise]
theorem kept_decompose {s0 : State} (lm : List Byte) (j : IngestJob) (n : Nat) (l : List FShape) (acc : List Trap)
    (p : IngestRun × State) (hkp : Kept s0 p.2) : Kept s0 (decompose lm j n l acc p).2.2 := by
  induction l generalizing acc p with
  | nil => exact hkp
  | cons sh t ih =>
    unfold decompose
    split
    · exact ih _ _ (kept_skip _ _ _ _ _ _ hkp)
    · split
      · exact ih _ _ hkp
      · exact ih _ _ (kept_skip _ _ _ _ _ _ (kept_skip _ _ _ _ _ _ (kept_skip _ _ _ _ _ _ hkp)))

theorem kept_writeStream {s0 : State} (r : IngestRun) (j : IngestJob) (steps : Nat) (ts : List Trap) (sB : State) {s : State} (hkp : Kept s0 s) (hx : Kept s0 sB) : Kept s0 (writeStream r j steps ts sB s) := by
  unfold writeStream
  dsimp only
  split
  · exact kept_failIngest _ _ _ _ hkp
  · split
    · exact hx
    · exact kept_activateTables (kept_doneItem _ _ _ (kept_dropIngest _ _ (kept_statAdd _ _ (kept_jput _ _ _ hkp (by assumption)))))

theorem kept_completeIngest {s0 : State} (r : IngestRun) (j : IngestJob) (steps : Nat) {s : State} (hkp : Kept s0 s) : Kept s0 (completeIngest r j steps s) := by
  unfold completeIngest
  split
  · exact kept_failIngest _ _ _ _ hkp
  · exact kept_writeStream _ _ _ _ _ (kept_decompose _ _ _ _ _ _ hkp) hkp

theorem kept_ingestStep {s0 : State} (r : IngestRun) (j : IngestJob) (x : OasisRec) {s : State} (hkp : Kept s0 s) : Kept s0 (ingestStep r j x s) := by
  unfold ingestStep
  dsimp only
  split
  · exact kept_failIngest _ _ _ _ (kept_stat _ hkp)
  · exact kept_putIngest _ (kept_skip _ _ _ _ _ _ (kept_stat _ hkp))

theorem kept_execIngestRecord (f : BitVec 8) (x : OasisRec) {s : State} {t : State} (hx : (execIngestRecord f x s) = .next t) : Kept s t := by
  have h0 := Kept.refl s
  grind [execIngestRecord, kept_ingestStep, kept_parts]

theorem kept_execContainerRecordAuth (f : BitVec 8) {s : State} {t : State} (hx : (execContainerRecordAuth f s) = .next t) : Kept s t := by
  have h0 := Kept.refl s
  grind [execContainerRecordAuth, kept_authStep, kept_parts]

theorem kept_execIngestComplete (f : BitVec 8) {s : State} {t : State} (hx : (execIngestComplete f s) = .next t) : Kept s t := by
  have h0 := Kept.refl s
  grind [execIngestComplete, kept_completeIngest, kept_parts]

theorem kept_dropCensus {s0 : State} (f : BitVec 8) {s : State} (hkp : Kept s0 s) : Kept s0 (dropCensus f s) := by
  grind [dropCensus, kept_parts]

theorem kept_keepDetail {s0 : State} (f : BitVec 8) (q : BitVec 64) (b : Bad) {s : State} (hkp : Kept s0 s) : Kept s0 (keepDetail f q b s) := by
  grind [keepDetail, kept_putItem, kept_parts]

theorem kept_failCensus {s0 : State} (f : BitVec 8) (q : BitVec 64) (reason : Nat) {s : State} (hkp : Kept s0 s) : Kept s0 (failCensus f q reason s) := by
  grind [failCensus, kept_activateTables, kept_failItem, kept_raise, kept_dropCensus, kept_parts]

theorem kept_censusBad {s0 : State} (f : BitVec 8) (q : BitVec 64) (b : Bad) {s : State} (hkp : Kept s0 s) : Kept s0 (censusBad f q b s) := by
  grind [censusBad, kept_failCensus, kept_keepDetail, kept_raiseBad, kept_parts, kept_upd]

theorem kept_writeCtab {s0 : State} (i : Nat) (stripe : Nat) (t : List CEntry) {s : State} (hkp : Kept s0 s) : Kept s0 (writeCtab i stripe t s) := by
  grind [writeCtab, kept_hbmWrite, kept_parts]

theorem kept_queueTrials {s0 : State} (r : CensusRun) (h : SHdr) {s : State} (hkp : Kept s0 s) : Kept s0 (queueTrials r h s) := by
  grind [queueTrials, kept_parts, kept_upd]

theorem kept_putCensus {s0 : State} (r : CensusRun) {s : State} (hkp : Kept s0 s) : Kept s0 (putCensus r s) := by
  grind [putCensus, kept_parts]

theorem kept_stripeCensused {s0 : State} (r : CensusRun) (h : SHdr) (stripe : Nat) (fs : Nat) {s : State} (hkp : Kept s0 s) : Kept s0 (stripeCensused r h stripe fs s) := by
  grind [stripeCensused, kept_raise, kept_queueTrials, kept_putCensus, kept_activateTables, kept_doneItem, kept_dropCensus, kept_parts, kept_upd]

theorem kept_forecastStripe {s0 : State} (r : CensusRun) (c : CensusJob) (h : SHdr) (t : Strp) (bs : List (List Trap)) {s : State} (hkp : Kept s0 s) : Kept s0 (forecastStripe r c h t bs s) := by
  unfold forecastStripe
  dsimp only
  split
  · exact hkp
  · exact kept_stripeCensused _ _ _ _ (kept_jput _ _ _ (kept_writeCtab _ _ _ hkp) (by assumption))

theorem kept_censusStep {s0 : State} (r : CensusRun) (c : CensusJob) {s : State} (hkp : Kept s0 s) : Kept s0 (censusStep r c s) := by
  grind [censusStep, kept_censusBad, kept_forecastStripe, kept_parts, kept_upd]

theorem kept_startCensus {s0 : State} (f : BitVec 8) (q : BitVec 64) (c : CensusJob) {s : State} (hkp : Kept s0 s) : Kept s0 (startCensus f q c s) := by
  grind [startCensus, kept_censusBad, kept_failCensus, kept_parts]

theorem kept_startCtab {s0 : State} (h : SHdr) {s : State} (hkp : Kept s0 s) : Kept s0 (startCtab h s) := by
  grind [startCtab, kept_hbmWrite, kept_parts, kept_upd]

theorem kept_sweepDone {s0 : State} (r : CensusRun) (c : CensusJob) {s : State} (hkp : Kept s0 s) : Kept s0 (sweepDone r c s) := by
  unfold sweepDone
  (repeat' split) <;> grind [kept_censusBad, kept_failCensus, kept_queueTrials, kept_startCtab, kept_hbmWrite, kept_putCensus, kept_parts, kept_upd]

theorem kept_execDensitySweepDone (f : BitVec 8) {s : State} {t : State} (hx : (execDensitySweepDone f s) = .next t) : Kept s t := by
  have h0 := Kept.refl s
  grind [execDensitySweepDone, kept_sweepDone, kept_parts]

theorem kept_execCensusStripeReady (f : BitVec 8) {s : State} {t : State} (hx : (execCensusStripeReady f s) = .next t) : Kept s t := by
  have h0 := Kept.refl s
  grind [execCensusStripeReady, kept_censusStep, kept_parts]

end Sys2Proof.Machine
end

