-- ==== Sys2Proof/Laws/Kept3.lean ====
section
/-! SUPPORT. What the functions of these files keep of a state (Laws/Kept): Render, KeeperOps, PowerBase, PowerOps, PairOps. -/

namespace Sys2Proof.Machine

theorem kept_dropBinLines {s0 : State} (b : BinRun) {s : State} (hkp : Kept s0 s) : Kept s0 (dropBinLines b s) := by
  grind [dropBinLines, kept_parts]

theorem kept_raiseBinFailed {s0 : State} (reason : Nat) (j : BinJob) (line : Nat) {s : State} (hkp : Kept s0 s) : Kept s0 (raiseBinFailed reason j line s) := by
  grind [raiseBinFailed, kept_raise, kept_stat, kept_parts]

theorem kept_answerOffload {s0 : State} (b : BinRun) (node : BitVec 12) (msgId : BitVec 32) {s : State} (hkp : Kept s0 s) : Kept s0 (answerOffload b node msgId s) := by
  grind [answerOffload, kept_nackSpore, kept_send, kept_parts]

theorem kept_endBin {s0 : State} (b : BinRun) {s : State} (hkp : Kept s0 s) : Kept s0 (endBin b s) := by
  unfold endBin
  have h1 := kept_dropBinLines b (show Kept s0 { s with rnd := { s.rnd with
    bins := s.rnd.bins.filter (fun x => !(x.req == b.req && x.flow == b.flow && x.seq == b.seq)) } } from
      ⟨hkp.1, hkp.2, hkp.3, hkp.4, hkp.5, hkp.6⟩)
  dsimp only
  (repeat' split) <;> grind [kept_stat, kept_raiseBinFailed, kept_answerOffload, kept_activateTables, kept_doneItem,
    kept_failItem, kept_putItem]

theorem kept_admitSeg {s0 : State} (x : Nat × Nat × BitVec 32 × List Byte) {s : State} (hkp : Kept s0 s) : Kept s0 (admitSeg x s) := by
  grind [admitSeg, kept_stat, kept_checkReady, kept_writeSeg, kept_parts]

theorem kept_admitSegs {s0 : State} (a0 : List (Nat × Nat × BitVec 32 × List Byte)) {a1 : State} (hkp : Kept s0 a1) : Kept s0 (admitSegs a0 a1) := by
  fun_induction admitSegs a0 a1 <;> grind [kept_admitSeg, kept_parts]

theorem kept_putBin {s0 : State} (b : BinRun) {s : State} (hkp : Kept s0 s) : Kept s0 (putBin b s) := by
  grind [putBin, kept_parts]

theorem kept_stopBin {s0 : State} (b : BinRun) (reason : Nat) {s : State} (hkp : Kept s0 s) : Kept s0 (stopBin b reason s) := by
  grind [stopBin, kept_dropBinLines, kept_putBin, kept_parts]

theorem kept_binBad {s0 : State} (b : BinRun) (x : Bad) {s : State} (hkp : Kept s0 s) : Kept s0 (binBad b x s) := by
  unfold binBad
  (repeat' split) <;> grind [kept_stopBin, kept_keepDetail, kept_raiseBad, kept_parts]

theorem kept_sendSegs {s0 : State} (node : Nat) (cls : Fin 4) (a2 : List (List Byte)) {a3 : State} (hkp : Kept s0 a3) : Kept s0 (sendSegs node cls a2 a3) := by
  fun_induction sendSegs node cls a2 a3 <;> grind [kept_send, kept_parts]

theorem kept_deliverLine {s0 : State} (b : BinRun) (fs : List (List Byte)) {s : State} {t : State} (hkp : Kept s0 s) (e : (deliverLine b fs s) = some t) : Kept s0 t := by
  unfold deliverLine at e
  dsimp only at e
  (repeat' split at e)
  · simp only [Option.some.injEq] at e
    subst e
    exact kept_stopBin _ _ hkp
  · simp only [Option.map_eq_some_iff] at e
    obtain ⟨v, hv, rfl⟩ := e
    exact kept_putBin _ (kept_jput _ _ _ hkp hv)
  all_goals
    simp only [Option.some.injEq] at e
    subst e
    exact kept_sendSegs _ _ _ (kept_putBin _ hkp)

theorem kept_deliver {s0 : State} (a0 : Nat) (a1 : BinRun) {a2 : State} (hkp : Kept s0 a2) : Kept s0 (deliver a0 a1 a2) := by
  fun_induction deliver a0 a1 a2 <;> grind [kept_deliverLine, kept_parts]

theorem kept_binRendered {s0 : State} (b : BinRun) (line : Nat) (segs : List (List Nat)) {s : State} (hkp : Kept s0 s) : Kept s0 (binRendered b line segs s) := by
  grind [binRendered, kept_binBad, kept_stopBin, kept_raise, kept_deliver, kept_putBin, kept_parts]

theorem kept_queueBin {s0 : State} (b : BinRun) (linesM1 : Nat) {s : State} (hkp : Kept s0 s) : Kept s0 (queueBin b linesM1 s) := by
  grind [queueBin, kept_parts]

theorem kept_startBin {s0 : State} (f : BitVec 8) (q : BitVec 64) (p : List Byte) {s : State} (hkp : Kept s0 s) : Kept s0 (startBin f q p s) := by
  grind [startBin, kept_keepDetail, kept_raiseBad, kept_activateTables, kept_failItem, kept_raiseBinFailed, kept_queueBin, kept_parts]

theorem kept_xBad {s0 : State} (line : Nat) (b : Bad) {s : State} (hkp : Kept s0 s) : Kept s0 (xBad line b s) := by
  grind [xBad, kept_raiseBad, kept_keepDetail, kept_boundaryStop, kept_parts, kept_upd]

theorem kept_lineBad {s0 : State} (r : RLine) (x : LineLook) {s : State} (hkp : Kept s0 s) : Kept s0 (lineBad r x s) := by
  unfold lineBad
  (repeat' split) <;> grind [kept_xBad, kept_binBad, kept_censusBad, kept_stopBin, kept_dropLine, kept_parts]

theorem kept_execLineDispatch {s : State} {t : State} (hx : (execLineDispatch s) = .next t) : Kept s t := by
  have h0 := Kept.refl s
  grind [execLineDispatch, kept_assign, kept_lineBad, kept_parts]

theorem kept_lineDone {s0 : State} (r : RLine) (segs : List (List Nat)) {s : State} (hkp : Kept s0 s) : Kept s0 (lineDone r segs s) := by
  grind [lineDone, kept_checkReady, kept_writeLine, kept_binRendered, kept_putCensus, kept_parts]

theorem kept_execLineRendered (core : Fin 32) {s : State} {t : State} (hx : (execLineRendered core s) = .next t) : Kept s t := by
  have h0 := Kept.refl s
  grind [execLineRendered, kept_lineDone, kept_stat, kept_lineBad, kept_parts]

theorem kept_execSpillWriteAck (n : Nat) {s : State} {t : State} (hx : (execSpillWriteAck n s) = .next t) : Kept s t := by
  have h0 := Kept.refl s
  grind [execSpillWriteAck, kept_checkReady, kept_setSlot, kept_parts]

theorem kept_execSpillReadReturn (n : Nat) {s : State} {t : State} (hx : (execSpillReadReturn n s) = .next t) : Kept s t := by
  have h0 := Kept.refl s
  grind [execSpillReadReturn, kept_statAdd, kept_parts]

theorem kept_execRenderBinComplete (f : BitVec 8) {s : State} {t : State} (hx : (execRenderBinComplete f s) = .next t) : Kept s t := by
  have h0 := Kept.refl s
  grind [execRenderBinComplete, kept_deliver, kept_endBin, kept_parts]

theorem kept_offloadOver {s0 : State} (node : BitVec 12) (id : BitVec 32) (refused : Bool) {s : State} (hkp : Kept s0 s) : Kept s0 (offloadOver node id refused s) := by
  grind [offloadOver, kept_raise, kept_parts]

theorem kept_takeOffload {s0 : State} (w : W128) (p : List Byte) {s : State} (hkp : Kept s0 s) : Kept s0 (takeOffload w p s) := by
  grind [takeOffload, kept_nackSpore, kept_raiseBad, kept_raiseBinFailed, kept_queueBin, kept_parts]

theorem kept_recordErasure {s0 : State} (e : Erasure) (bytes : Nat) {s : State} (hkp : Kept s0 s) : Kept s0 (recordErasure e bytes s) := by
  grind [recordErasure, kept_setSmb, kept_setFlag, kept_raise, kept_parts]

theorem kept_zeroRegions {s0 : State} (a0 : List Region) {a1 : State} (hkp : Kept s0 a1) : Kept s0 (zeroRegions a0 a1) := by
  fun_induction zeroRegions a0 a1 with
  | case1 => exact hkp
  | case2 s r t ih => exact ih ⟨hkp.1, hkp.2, hkp.3, fun x => ⟨Memory.filter_wf _ _ (hkp.4 x).1, (hkp.4 x).2⟩, hkp.5, hkp.6⟩

theorem kept_finishErasure {s0 : State} (e : Erasure) {s : State} (hkp : Kept s0 s) : Kept s0 (finishErasure e s) := by
  grind [finishErasure, kept_recordErasure, kept_zeroRegions, kept_parts]

theorem kept_finishErasures {s0 : State} (a0 : List Erasure) {a1 : State} (hkp : Kept s0 a1) : Kept s0 (finishErasures a0 a1) := by
  fun_induction finishErasures a0 a1 <;> grind [kept_finishErasure, kept_parts]

theorem kept_scrubRegions {s0 : State} {s : State} (hkp : Kept s0 s) : Kept s0 (scrubRegions s) := by
  grind [scrubRegions, kept_finishErasures, kept_parts]

theorem kept_eraseIngests {s0 : State} (mask : BitVec 64) (a1 : List IngestRun) {a2 : State} (hkp : Kept s0 a2) : Kept s0 (eraseIngests mask a1 a2) := by
  fun_induction eraseIngests mask a1 a2 <;> grind [kept_failIngest, kept_parts]

theorem kept_eraseDecryptor {s0 : State} (mask : BitVec 64) {s : State} (hkp : Kept s0 s) : Kept s0 (eraseDecryptor mask s) := by
  grind [eraseDecryptor, kept_parts]

theorem kept_eraseSlots {s0 : State} (e : Erasure) {s : State} (hkp : Kept s0 s) : Kept s0 (eraseSlots e s) := by
  constructor
  · simp only [eraseSlots]
    exact hkp.1
  · simp only [eraseSlots]
    exact hkp.2
  · simp only [eraseSlots]
    exact hkp.3
  · intro x
    have y := hkp.4 x
    simp only [MemoryOk, eraseSlots] at y ⊢
    exact y
  · intro x i h0
    have y := hkp.5 x i
    simp only [eraseSlots, Fin.getElem_fin, Vector.getElem_ofFn] at h0 ⊢
    split at h0
    · rename_i h1
      rw [if_pos h1]
      exact ⟨rfl, rfl, rfl⟩
    · rename_i h1
      rw [if_neg h1]
      exact y h0
  · simp only [eraseSlots]
    exact hkp.6

theorem kept_erase {s0 : State} (e : Erasure) {s : State} (hkp : Kept s0 s) : Kept s0 (erase e s) := by
  grind [erase, kept_eraseIngests, kept_eraseDecryptor, kept_eraseSlots, kept_recordErasure, kept_parts, kept_upd]

theorem kept_eraseAll {s0 : State} (cause : Nat) {s : State} (hkp : Kept s0 s) : Kept s0 (eraseAll cause s) := by
  grind [eraseAll, kept_erase, kept_parts]

theorem kept_keeperTell {s0 : State} (code : Nat) (det : W128) {s : State} (hkp : Kept s0 s) : Kept s0 (keeperTell code det s) := by
  grind [keeperTell, kept_raise, kept_parts]

theorem kept_keeperRaise {s0 : State} (code : Nat) {s : State} (hkp : Kept s0 s) : Kept s0 (keeperRaise code s) := by
  grind [keeperRaise, kept_keeperTell, kept_parts]

theorem kept_openDebug {s0 : State} {s : State} (hkp : Kept s0 s) : Kept s0 (openDebug s) := by
  grind [openDebug, kept_eraseAll, kept_raise, kept_parts, kept_upd]

theorem kept_heldDebug {s0 : State} (m : Mode) {s : State} (hkp : Kept s0 s) : Kept s0 (heldDebug m s) := by
  grind [heldDebug, kept_openDebug, kept_parts]

theorem kept_memStops {s0 : State} {s : State} (hkp : Kept s0 s) : Kept s0 (memStops s) := by
  grind [memStops, kept_parts]

theorem kept_raiseLater {s0 : State} (a0 : List (Nat × W128)) {a1 : State} (hkp : Kept s0 a1) : Kept s0 (raiseLater a0 a1) := by
  fun_induction raiseLater a0 a1 <;> grind [kept_raise, kept_parts]

theorem kept_flushKeeper {s0 : State} {s : State} (hkp : Kept s0 s) : Kept s0 (flushKeeper s) := by
  grind [flushKeeper, kept_raiseLater, kept_parts]

theorem kept_keeperPowered {s0 : State} {s : State} (hkp : Kept s0 s) : Kept s0 (keeperPowered s) := by
  grind [keeperPowered, kept_flushKeeper, kept_parts]

theorem kept_showDacs {s0 : State} {s : State} (hkp : Kept s0 s) : Kept s0 (showDacs s) := by
  grind [showDacs, kept_emit, kept_parts, kept_foldl]

theorem kept_abortCal {s0 : State} {s : State} (hkp : Kept s0 s) : Kept s0 (abortCal s) := by
  grind [abortCal, kept_raise, kept_showDacs, kept_activateTables, kept_failItem, kept_settle, kept_parts]

theorem kept_setBase {s0 : State} (b : Fin 4) (x : TimeBase) {s : State} (hkp : Kept s0 s) : Kept s0 (setBase b x s) := by
  grind [setBase, kept_parts]

theorem kept_deriveSt {s0 : State} {s : State} (hkp : Kept s0 s) : Kept s0 (deriveSt s) := by
  grind [deriveSt, kept_setBase, kept_parts]

theorem kept_applySource {s0 : State} (b : Fin 4) (src : Nat) {s : State} (hkp : Kept s0 s) : Kept s0 (applySource b src s) := by
  grind [applySource, kept_deriveSt, kept_setBase, kept_parts]

theorem kept_trainHbm {s0 : State} {s : State} (hkp : Kept s0 s) : Kept s0 (trainHbm s) := by
  grind [trainHbm, kept_parts]

theorem kept_memUp {s0 : State} {s : State} (hkp : Kept s0 s) : Kept s0 (memUp s) := by
  grind [memUp, kept_scrubRegions, kept_trainHbm, kept_parts]

theorem kept_resumeBases {s0 : State} {s : State} (hkp : Kept s0 s) : Kept s0 (resumeBases s) := by
  grind [resumeBases, kept_applySource, kept_parts]

theorem kept_sendPairFail {s0 : State} (cause : Nat) {s : State} (hkp : Kept s0 s) : Kept s0 (sendPairFail cause s) := by
  grind [sendPairFail, kept_sendBoth, kept_parts]

theorem kept_haltStripe {s0 : State} {s : State} (hkp : Kept s0 s) : Kept s0 (haltStripe s) := by
  grind [haltStripe, kept_endFill, kept_parts, kept_upd]

theorem kept_storeLost {s0 : State} {s : State} (hkp : Kept s0 s) : Kept s0 (storeLost s) := by
  grind [storeLost, kept_parts]

theorem kept_linkReset {s0 : State} {s : State} (hkp : Kept s0 s) : Kept s0 (linkReset s) := by
  grind [linkReset, kept_parts]

theorem kept_loseBase {s0 : State} (b : Fin 4) {s : State} (hkp : Kept s0 s) : Kept s0 (loseBase b s) := by
  grind [loseBase, kept_setBase, kept_parts]

theorem kept_loseQuadratureHome {s0 : State} {s : State} (hkp : Kept s0 s) : Kept s0 (loseQuadratureHome s) := by
  grind [loseQuadratureHome, kept_loseHome, kept_parts]

theorem kept_setDac {s0 : State} (d : Fin 4) (code : Int) {s : State} (hkp : Kept s0 s) : Kept s0 (setDac d code s) := by
  grind [setDac, kept_emit, kept_parts]

theorem kept_parkDacs {s0 : State} {s : State} (hkp : Kept s0 s) : Kept s0 (parkDacs s) := by
  grind [parkDacs, kept_setDac, kept_parts, kept_foldl]

theorem kept_trackOff {s0 : State} {s : State} (hkp : Kept s0 s) : Kept s0 (trackOff s) := by
  grind [trackOff, kept_parkDacs, kept_parts]

theorem kept_seedHbm {s0 : State} {s : State} (hkp : Kept s0 s) : Kept s0 (seedHbm s) := by
  grind [seedHbm, kept_parts]

theorem kept_unpair {s0 : State} {s : State} (hkp : Kept s0 s) : Kept s0 (unpair s) := by
  grind [unpair, kept_loseWitness, kept_settleAcks, kept_parts]

theorem kept_abortOffloads {s0 : State} (a0 : List BinRun) {a1 : State} (hkp : Kept s0 a1) : Kept s0 (abortOffloads a0 a1) := by
  fun_induction abortOffloads a0 a1 <;> grind [kept_endBin, kept_parts]

theorem kept_applySources {s0 : State} {s : State} (hkp : Kept s0 s) : Kept s0 (applySources s) := by
  grind [applySources, kept_applySource, kept_parts]

theorem kept_applyStore {s0 : State} {s : State} (hkp : Kept s0 s) : Kept s0 (applyStore s) := by
  grind [applyStore, kept_parts]

theorem kept_retentionFailed {s0 : State} (n : Nat) {s : State} (hkp : Kept s0 s) : Kept s0 (retentionFailed n s) := by
  grind [retentionFailed, kept_raise, kept_parts]

theorem kept_dropBank {s0 : State} (b : Fin 2) {s : State} (hkp : Kept s0 s) : Kept s0 (dropBank b s) := by
  grind [dropBank, kept_parts, kept_upd]

theorem kept_clearTable {s0 : State} (n : Nat) {s : State} (hkp : Kept s0 s) : Kept s0 (clearTable n s) := by
  grind [clearTable, kept_dropBank, kept_parts, kept_upd]

theorem kept_dropTable {s0 : State} (n : Nat) {s : State} (hkp : Kept s0 s) : Kept s0 (dropTable n s) := by
  grind [dropTable, kept_retentionFailed, kept_clearTable, kept_parts, kept_upd]

theorem kept_dropTables {s0 : State} (bad : BitVec 6) (a1 : List Nat) {a2 : State} (hkp : Kept s0 a2) : Kept s0 (dropTables bad a1 a2) := by
  fun_induction dropTables bad a1 a2 <;> grind [kept_dropTable, kept_parts, kept_upd]

theorem kept_arrive {s0 : State} (old : Mode) (new : Mode) (bad : BitVec 6) {s : State} (hkp : Kept s0 s) : Kept s0 (arrive old new bad s) := by
  unfold arrive
  (repeat' split) <;> grind [kept_dropTables, kept_memUp, kept_resumeBases, kept_resumeStripe, kept_becomeHolder, kept_parts]

theorem kept_settleMode {s0 : State} (status : Nat) (reason : Nat) (results : Mode → List W128) {s : State} (hkp : Kept s0 s) : Kept s0 (settleMode status reason results s) := by
  grind [settleMode, kept_settle, kept_parts]

theorem kept_failMode {s0 : State} (status : Nat) (reason : Nat) {s : State} (hkp : Kept s0 s) : Kept s0 (failMode status reason s) := by
  grind [failMode, kept_sendRelease, kept_settleMode, kept_raise, kept_parts, kept_upd]

theorem kept_beginChange {s0 : State} (m : Mode) (trigger : Nat) {s : State} (hkp : Kept s0 s) : Kept s0 (beginChange m trigger s) := by
  grind [beginChange, kept_failMode, kept_sendClaim, kept_sendRelease, kept_parts]

theorem kept_fwReady {s0 : State} {s : State} (hkp : Kept s0 s) : Kept s0 (fwReady s) := by
  grind [fwReady, kept_setFlag, kept_parts]

theorem kept_beginRebuild {s0 : State} {s : State} (hkp : Kept s0 s) : Kept s0 (beginRebuild s) := by
  grind [beginRebuild, kept_fwReady, kept_parts]

theorem kept_recordReset {s0 : State} (kind : Nat) (trigger : Nat) (rail : Nat) {s : State} (hkp : Kept s0 s) : Kept s0 (recordReset kind trigger rail s) := by
  grind [recordReset, kept_parts]

theorem kept_resetCal {s0 : State} {s : State} (hkp : Kept s0 s) : Kept s0 (resetCal s) := by
  grind [resetCal, kept_showDacs, kept_raise, kept_parts]

theorem kept_beginReset {s0 : State} (kind : Nat) (trigger : Nat) (rail : Nat) {s : State} (hkp : Kept s0 s) : Kept s0 (beginReset kind trigger rail s) := by
  grind [beginReset, kept_setSmb, kept_recordReset, kept_sendPairFail, kept_resetCal, kept_releaseSpo, kept_haltStripe, kept_parts]

theorem kept_eraseUpdate {s0 : State} {s : State} (hkp : Kept s0 s) : Kept s0 (eraseUpdate s) := by
  grind [eraseUpdate, kept_parts]

theorem kept_bootRom {s0 : State} (b : BootIn) {s : State} (hkp : Kept s0 s) : Kept s0 (bootRom b s) := by
  grind [bootRom, kept_eraseUpdate, kept_parts, kept_upd]

theorem kept_reenterMode {s0 : State} {s : State} (hkp : Kept s0 s) : Kept s0 (reenterMode s) := by
  grind [reenterMode, kept_beginChange, kept_parts]

theorem kept_enterMode {s0 : State} (m : Mode) (trigger : Nat) {s : State} (hkp : Kept s0 s) : Kept s0 (enterMode m trigger s) := by
  grind [enterMode, kept_heldDebug, kept_setFlag, kept_raise, kept_parts]

theorem kept_trackDown {s0 : State} {s : State} (hkp : Kept s0 s) : Kept s0 (trackDown s) := by
  grind [trackDown, kept_loseQuadratureHome, kept_releaseSpo, kept_parts]

theorem kept_leaveMode {s0 : State} (old : Mode) (new : Mode) {s : State} (hkp : Kept s0 s) : Kept s0 (leaveMode old new s) := by
  unfold leaveMode
  split
  · have h0 : Kept s0 { s with rnd := Render.init } := ⟨hkp.1, hkp.2, hkp.3, hkp.4, hkp.5, hkp.6⟩
    exact kept_memStops (kept_storeLost (kept_linkReset (kept_dropPorts (kept_loseBase _ (kept_loseBase _ (kept_trackDown
      (kept_trackOff h0)))))))
  · exact kept_storeLost (kept_linkReset (kept_loseBase _ (kept_trackDown hkp)))
  · exact kept_storeLost (kept_trackOff hkp)
  · exact kept_abortOffloads _ hkp
  · exact hkp

theorem kept_completeChange {s0 : State} (bad : BitVec 6) (tUs : Nat) {s : State} (hkp : Kept s0 s) : Kept s0 (completeChange bad tUs s) := by
  grind [completeChange, kept_enterMode, kept_leaveMode, kept_settleMode, kept_arrive, kept_parts]

theorem kept_resetOccurred {s0 : State} (kind : Nat) (trigger : Nat) (lt : BitVec 32) {s : State} (hkp : Kept s0 s) : Kept s0 (resetOccurred kind trigger lt s) := by
  grind [resetOccurred, kept_raise, kept_parts]

theorem kept_enterRecovery {s0 : State} (prev : Mode) {s : State} (hkp : Kept s0 s) : Kept s0 (enterRecovery prev s) := by
  grind [enterRecovery, kept_enterMode, kept_parts]

theorem kept_reportBoot {s0 : State} (code : Option Nat) {s : State} (hkp : Kept s0 s) : Kept s0 (reportBoot code s) := by
  unfold reportBoot
  (repeat' split) <;> grind [kept_raise, kept_parts]

theorem kept_powerDomains {s0 : State} {s : State} (hkp : Kept s0 s) : Kept s0 (powerDomains s) := by
  exact kept_applySources (kept_parkDacs (kept_scrubRegions (kept_trainHbm (kept_seedHbm (kept_enterMode _ _ hkp)))))

theorem kept_loadStore {s0 : State} {s : State} (hkp : Kept s0 s) : Kept s0 (loadStore s) := by
  grind [loadStore, kept_applyStore, kept_raise, kept_parts]

theorem kept_firmwareStart {s0 : State} (kind : Nat) (trigger : Nat) (code : Option Nat) {s : State} (hkp : Kept s0 s) : Kept s0 (firmwareStart kind trigger code s) := by
  exact kept_beginRebuild (kept_reportBoot _ (kept_resetOccurred _ _ _ (kept_powerDomains (kept_loadStore
    ⟨hkp.1, hkp.2, hkp.3, hkp.4, hkp.5, hkp.6⟩))))

theorem kept_startUp {s0 : State} (kind : Nat) (trigger : Nat) (prev : Mode) (b : BootIn) {s : State} (hkp : Kept s0 s) : Kept s0 (startUp kind trigger prev b s) := by
  grind [startUp, kept_flushKeeper, kept_resetOccurred, kept_enterRecovery, kept_bootRom, kept_firmwareStart, kept_raise, kept_parts]

theorem kept_enterHold {s0 : State} (cause : Nat) (rec : Nat) {s : State} (hkp : Kept s0 s) : Kept s0 (enterHold cause rec s) := by
  unfold enterHold
  split
  · exact hkp
  · have h0 : Kept s0 (if s.pm.changing then failMode stFault 11 s else s) := by
      split
      · exact kept_failMode _ _ hkp
      · exact hkp
    have h1 := kept_abortCal (kept_trackOff (kept_haltStripe (kept_memStops (kept_sendPairFail 1 h0))))
    dsimp only
    generalize (if s.pm.changing then failMode stFault 11 s else s) = u at h0 h1 ⊢
    generalize abortCal (trackOff (haltStripe (memStops (sendPairFail 1 u)))) = v at h1 ⊢
    have h2 : Kept s0 { v with
        scan := { v.scan with faultFrames := if scanHolder u then 100 else 0 }
        pm := { v.pm with reenter := none } } := ⟨h1.1, h1.2, h1.3, h1.4, h1.5, h1.6⟩
    exact kept_setFlag _ (kept_raise _ _ _ (kept_enterMode _ _ h2))

theorem kept_resetState {s0 : State} (por : Bool) (keepHbm : Bool) {s : State} (hkp : Kept s0 s) : Kept s0 (resetState por keepHbm s) := by
  refine ⟨hkp.1, hkp.2, hkp.3, fun x => ?_, hkp.5, fun _ _ => ⟨rfl, rfl⟩⟩
  have y := hkp.4 x
  refine ⟨?_, y.2⟩
  simp only [resetState]
  split
  · exact y.1
  · rfl

theorem kept_holdReset {s0 : State} (kind : Nat) (trigger : Nat) (rail : Nat) (h : Held) {s : State} (hkp : Kept s0 s) : Kept s0 (holdReset kind trigger rail h s) := by
  grind [holdReset, kept_resetState, kept_beginReset, kept_parts, kept_upd]

theorem kept_restart {s0 : State} (kind : Nat) (trigger : Nat) {s : State} (hkp : Kept s0 s) : Kept s0 (restart kind trigger s) := by
  grind [restart, kept_resetOccurred, kept_enterMode, kept_reenterMode, kept_fwReady, kept_parts, kept_upd]

theorem kept_resetFirmware {s0 : State} (trigger : Nat) {s : State} (hkp : Kept s0 s) : Kept s0 (resetFirmware trigger s) := by
  grind [resetFirmware, kept_restart, kept_beginReset, kept_parts]

theorem kept_loseDatapath {s0 : State} {s : State} (hkp : Kept s0 s) : Kept s0 (loseDatapath s) := by
  exact kept_applySource _ _ (kept_loseBase _ (kept_unpair (kept_linkReset (kept_storeLost (kept_trackDown
    ⟨hkp.1, hkp.2, hkp.3, hkp.4, hkp.5, hkp.6⟩)))))

theorem kept_resetDatapath {s0 : State} {s : State} (hkp : Kept s0 s) : Kept s0 (resetDatapath s) := by
  exact kept_scrubRegions (kept_trainHbm (kept_seedHbm (kept_restart _ _ (kept_loseDatapath (kept_beginReset _ _ _ hkp)))))

theorem kept_resetDevice {s0 : State} (kind : Nat) (b : BootIn) {s : State} (hkp : Kept s0 s) : Kept s0 (resetDevice kind b s) := by
  grind [resetDevice, kept_beginReset, kept_startUp, kept_resetState, kept_parts]

theorem kept_writeOwners {s0 : State} (a0 : List (Nat × Flow)) {a1 : State} (hkp : Kept s0 a1) : Kept s0 (writeOwners a0 a1) := by
  fun_induction writeOwners a0 a1 <;> grind [kept_writeRec, kept_parts]

theorem kept_adoptFlows {s0 : State} {s : State} (hkp : Kept s0 s) : Kept s0 (adoptFlows s) := by
  grind [adoptFlows, kept_writeOwners, kept_parts]

theorem kept_setStripe {s0 : State} (f : BitVec 8) (q : BitVec 64) (stripe : Nat) (linesM1 : Nat) {s : State} (hkp : Kept s0 s) : Kept s0 (setStripe f q stripe linesM1 s) := by
  refine ⟨hkp.1, hkp.2, hkp.3, hkp.4, hkp.5, fun h0 w => ⟨(hkp.6 h0 w).1, rfl⟩⟩

theorem kept_adoptStripe {s0 : State} (sb : Nat) (hb : Int) (i : Item) {s : State} (hkp : Kept s0 s) : Kept s0 (adoptStripe sb hb i s) := by
  grind [adoptStripe, kept_setStripe, kept_parts, kept_upd]

theorem kept_setStep {s0 : State} (n : Nat) {s : State} (hkp : Kept s0 s) : Kept s0 (setStep n s) := by
  grind [setStep, kept_parts]

theorem kept_releaseColumn {s0 : State} {s : State} (hkp : Kept s0 s) : Kept s0 (releaseColumn s) := by
  grind [releaseColumn, kept_setStep, kept_sendRelease, kept_releaseSpo, kept_rampStop, kept_parts]

theorem kept_handoverStep {s0 : State} {s : State} (hkp : Kept s0 s) : Kept s0 (handoverStep s) := by
  grind [handoverStep, kept_releaseColumn, kept_setStep, kept_sendClaim, kept_parts]

theorem kept_beginHandover {s0 : State} (now : Bool) (issuer : Bool) (region : Option (BitVec 8 × Nat × Nat)) {s : State} (hkp : Kept s0 s) : Kept s0 (beginHandover now issuer region s) := by
  grind [beginHandover, kept_handoverStep, kept_boundaryStop, kept_parts]

theorem kept_beginTakeover {s0 : State} {s : State} (hkp : Kept s0 s) : Kept s0 (beginTakeover s) := by
  grind [beginTakeover, kept_sendClaim, kept_parts]

theorem kept_takeoverRefused {s0 : State} {s : State} (hkp : Kept s0 s) : Kept s0 (takeoverRefused s) := by
  grind [takeoverRefused, kept_parts]

theorem kept_continueColumn {s0 : State} (sb : Nat) (hb : Int) (trigger : Nat) {s : State} (hkp : Kept s0 s) : Kept s0 (continueColumn sb hb trigger s) := by
  grind [continueColumn, kept_adoptFlows, kept_progressRec, kept_adoptStripe, kept_resumeStripe, kept_becomeHolder, kept_enterMode, kept_parts]

theorem kept_copyLedger {s0 : State} {s : State} (hkp : Kept s0 s) : Kept s0 (copyLedger s) := by
  grind [copyLedger, kept_checkpointItems, kept_checkpointFlows, kept_parts]

theorem kept_disownFlows {s0 : State} {s : State} (hkp : Kept s0 s) : Kept s0 (disownFlows s) := by
  grind [disownFlows, kept_parts]

theorem kept_keepColumn {s0 : State} {s : State} (hkp : Kept s0 s) : Kept s0 (keepColumn s) := by
  grind [keepColumn, kept_sendClaim, kept_endStripe, kept_resumeStripe, kept_parts, kept_upd]

theorem kept_failHandover {s0 : State} {s : State} (hkp : Kept s0 s) : Kept s0 (failHandover s) := by
  grind [failHandover, kept_keepColumn, kept_settle, kept_parts, kept_upd]

theorem kept_takeWitness {s0 : State} (p : BitVec 12) {s : State} (hkp : Kept s0 s) : Kept s0 (takeWitness p s) := by
  unfold takeWitness
  (repeat' split) <;> grind [kept_raise, kept_storeWitness, kept_copyLedger, kept_resendTo, kept_parts]

theorem kept_pairWitness {s0 : State} (p : BitVec 12) {s : State} (hkp : Kept s0 s) : Kept s0 (pairWitness p s) := by
  grind [pairWitness, kept_takeWitness, kept_copyLedger, kept_parts]

theorem kept_formPair {s0 : State} {s : State} (hkp : Kept s0 s) : Kept s0 (formPair s) := by
  grind [formPair, kept_raise, kept_settle, kept_pairWitness, kept_parts]

theorem kept_failPair {s0 : State} (status : Nat) (reason : Nat) {s : State} (hkp : Kept s0 s) : Kept s0 (failPair status reason s) := by
  grind [failPair, kept_settle, kept_parts]

theorem kept_rebuildLedger {s0 : State} (l : List WRec) {s : State} (hkp : Kept s0 s) : Kept s0 (rebuildLedger l s) := by
  grind [rebuildLedger, kept_fwReady, kept_raise, kept_parts]

theorem kept_takeoverGranted {s0 : State} (sb : Nat) (hb : Int) {s : State} (hkp : Kept s0 s) : Kept s0 (takeoverGranted sb hb s) := by
  grind [takeoverGranted, kept_raise, kept_continueColumn, kept_loseWitness, kept_parts]

theorem kept_handoverDone {s0 : State} (role : Nat) (stripe : Nat) (h : Int) {s : State} (hkp : Kept s0 s) : Kept s0 (handoverDone role stripe h s) := by
  grind [handoverDone, kept_settle, kept_raise, kept_parts, kept_upd]

theorem kept_handoverGranted {s0 : State} (sb : Nat) (hb : Int) {s : State} (hkp : Kept s0 s) : Kept s0 (handoverGranted sb hb s) := by
  grind [handoverGranted, kept_raise, kept_storeWitness, kept_continueColumn, kept_handoverDone, kept_send, kept_parts, kept_upd]

theorem kept_partnerLost {s0 : State} {s : State} (hkp : Kept s0 s) : Kept s0 (partnerLost s) := by
  grind [partnerLost, kept_failHandover, kept_raise, kept_beginTakeover, kept_parts, kept_upd]

theorem kept_handoverGiven {s0 : State} (stripe : Nat) (h : Int) {s : State} (hkp : Kept s0 s) : Kept s0 (handoverGiven stripe h s) := by
  have h1 := kept_disownFlows hkp
  unfold handoverGiven
  exact kept_handoverDone _ _ _ (kept_enterMode _ _ (kept_activateTables
    ⟨h1.1, h1.2, h1.3, h1.4, h1.5, fun a w => ⟨(h1.6 a w).1, rfl⟩⟩))

end Sys2Proof.Machine
end

