-- ==== Sys2Proof/Laws/Kept4.lean ====
section
/-! SUPPORT. What the functions of these files keep of a state (Laws/Kept): LinkMsgs, DmaOps, DmaCmd, UpdOps. -/

namespace Sys2Proof.Machine

theorem kept_applySwing {s0 : State} {s : State} (hkp : Kept s0 s) : Kept s0 (applySwing s) := by
  grind [applySwing, kept_parts]

theorem kept_bsaLimitFlag {s0 : State} (on : Bool) (temp : Int) {s : State} (hkp : Kept s0 s) : Kept s0 (bsaLimitFlag on temp s) := by
  grind [bsaLimitFlag, kept_boundaryStop, kept_setFlag, kept_raise, kept_parts]

theorem kept_bsaViolation {s0 : State} (code : Nat) (flash : Int) {s : State} (hkp : Kept s0 s) : Kept s0 (bsaViolation code flash s) := by
  grind [bsaViolation, kept_raise, kept_stat, kept_parts]

theorem kept_bsaWarning {s0 : State} (on : Bool) (temp : Int) {s : State} (hkp : Kept s0 s) : Kept s0 (bsaWarning on temp s) := by
  grind [bsaWarning, kept_setFlag, kept_raise, kept_parts]

theorem kept_checkDone {s0 : State} {s : State} (hkp : Kept s0 s) : Kept s0 (checkDone s) := by
  grind [checkDone, kept_stripeDone, kept_progressRec, kept_parts]

theorem kept_linkTrained {s0 : State} {s : State} (hkp : Kept s0 s) : Kept s0 (linkTrained s) := by
  grind [linkTrained, kept_reenterMode, kept_raise, kept_parts]

theorem kept_checkTrained {s0 : State} {s : State} (hkp : Kept s0 s) : Kept s0 (checkTrained s) := by
  grind [checkTrained, kept_linkTrained, kept_parts]

theorem kept_claimRefused {s0 : State} {s : State} (hkp : Kept s0 s) : Kept s0 (claimRefused s) := by
  grind [claimRefused, kept_failMode, kept_takeoverRefused, kept_parts]

theorem kept_linkFails {s0 : State} (lane : Nat) {s : State} (hkp : Kept s0 s) : Kept s0 (linkFails lane s) := by
  grind [linkFails, kept_linkDown, kept_parts, kept_upd]

theorem kept_openHopeless {s0 : State} {s : State} (hkp : Kept s0 s) : Kept s0 (openHopeless s) := by
  grind [openHopeless, kept_bsaViolation, kept_boundaryStop, kept_parts, kept_upd]

theorem kept_openBehind {s0 : State} (hb : Int) {s : State} (hkp : Kept s0 s) : Kept s0 (openBehind hb s) := by
  grind [openBehind, kept_stripeDone, kept_progressRec, kept_enterFilling, kept_endFill, kept_rampStop, kept_parts]

theorem kept_openAnswered {s0 : State} (status : Nat) (hb : Int) {s : State} (hkp : Kept s0 s) : Kept s0 (openAnswered status hb s) := by
  grind [openAnswered, kept_openHopeless, kept_openBehind, kept_parts]

theorem kept_releaseAnswered {s0 : State} {s : State} (hkp : Kept s0 s) : Kept s0 (releaseAnswered s) := by
  grind [releaseAnswered, kept_raise, kept_setStep, kept_send, kept_parts, kept_upd]

theorem kept_ctrlAnswered {s0 : State} (op : Nat) (status : Nat) (hb : Int) {s : State} (hkp : Kept s0 s) : Kept s0 (ctrlAnswered op status hb s) := by
  unfold ctrlAnswered
  (repeat' split) <;> grind [kept_linkFails, kept_sendBeamConfig, kept_sendCommit, kept_checkTrained, kept_openAnswered, kept_claimRefused, kept_releaseAnswered, kept_parts]

theorem kept_enterLocking {s0 : State} {s : State} (hkp : Kept s0 s) : Kept s0 (enterLocking s) := by
  grind [enterLocking, kept_emit, kept_applySwing, kept_parts]

theorem kept_moveLane {s0 : State} (l : Nat) (p : Nat) (q : Nat) {s : State} (hkp : Kept s0 s) : Kept s0 (moveLane l p q s) := by
  grind [moveLane, kept_raise, kept_parts]

theorem kept_spareLanes {s0 : State} (a0 : List Nat) {a1 : State} {t : State} (hkp : Kept s0 a1) (e : (spareLanes a0 a1) = some t) : Kept s0 t := by
  fun_induction spareLanes a0 a1 with
  | case1 => simp only [Option.some.injEq] at e; subst e; exact hkp
  | case2 => rename_i ih; exact ih hkp e
  | case3 => simp at e
  | case4 => rename_i ih; exact ih (kept_moveLane _ _ _ hkp) e
  | case5 => rename_i ih; exact ih hkp e

theorem kept_enterMapping {s0 : State} {s : State} (hkp : Kept s0 s) : Kept s0 (enterMapping s) := by
  grind [enterMapping, kept_spareLanes, kept_sendLaneMap, kept_raise, kept_parts, kept_upd]

theorem kept_laneLost {s0 : State} {s : State} (hkp : Kept s0 s) : Kept s0 (laneLost s) := by
  grind [laneLost, kept_raise, kept_linkFails, kept_parts]

theorem kept_execLinkDownRetry {s : State} {t : State} (hx : (execLinkDownRetry s) = .next t) : Kept s t := by
  have h0 := Kept.refl s
  grind [execLinkDownRetry, kept_enterLocking, kept_parts]

theorem kept_failUnlocked {s0 : State} (a0 : List Nat) {a1 : State} (hkp : Kept s0 a1) : Kept s0 (failUnlocked a0 a1) := by
  fun_induction failUnlocked a0 a1 <;> grind [kept_failLane, kept_parts]

theorem kept_execLockingTimeout {s : State} {t : State} (hx : (execLockingTimeout s) = .next t) : Kept s t := by
  have h0 := Kept.refl s
  grind [execLockingTimeout, kept_enterMapping, kept_failUnlocked, kept_linkFails, kept_parts]

theorem kept_execDegradedRetry {s : State} {t : State} (hx : (execDegradedRetry s) = .next t) : Kept s t := by
  have h0 := Kept.refl s
  grind [execDegradedRetry, kept_parts]

theorem kept_execCtrlFrameResend {s : State} {t : State} (hx : (execCtrlFrameResend s) = .next t) : Kept s t := by
  have h0 := Kept.refl s
  grind [execCtrlFrameResend, kept_linkFails, kept_emit, kept_stat, kept_parts]

theorem kept_takeMsg {s0 : State} (typ : Nat) (words : Nat) (m : RetMsg) (act : State → State) {s : State} (hkp : Kept s0 s) (hact : ∀ x0, Kept s0 x0 → Kept s0 (act x0)) : Kept s0 (takeMsg typ words m act s) := by
  grind [takeMsg, kept_bsaViolation, kept_statAdd, kept_parts]

theorem kept_execCtrlAck (m : RetMsg) {s : State} {t : State} (hx : (execCtrlAck m s) = .next t) : Kept s t := by
  have h0 := Kept.refl s
  grind [execCtrlAck, kept_takeMsg, kept_bsaViolation, kept_ctrlAnswered, kept_parts]

theorem kept_violateStripe {s0 : State} (code : Nat) (flash : Int) {s : State} (hkp : Kept s0 s) : Kept s0 (violateStripe code flash s) := by
  grind [violateStripe, kept_bsaViolation, kept_boundaryStop, kept_parts, kept_upd]

theorem kept_heedHigh {s0 : State} (sb : Nat) (hb : Int) {s : State} (hkp : Kept s0 s) : Kept s0 (heedHigh sb hb s) := by
  grind [heedHigh, kept_violateStripe, kept_parts]

theorem kept_ownAck {s0 : State} (n : Int) (hb : Int) (executed : Bool) (rows : Nat) {s : State} (hkp : Kept s0 s) : Kept s0 (ownAck n hb executed rows s) := by
  grind [ownAck, kept_heedHigh, kept_violateStripe, kept_boundaryStop, kept_raise, kept_stat, kept_settleH, kept_checkDone, kept_parts, kept_upd]

theorem kept_execFlashAck (m : RetMsg) {s : State} {t : State} (hx : (execFlashAck m s) = .next t) : Kept s t := by
  have h0 := Kept.refl s
  grind [execFlashAck, kept_takeMsg, kept_heedHigh, kept_bsaViolation, kept_ownAck, kept_parts]

theorem kept_statusBlocked {s0 : State} (was : Bool) {s : State} (hkp : Kept s0 s) : Kept s0 (statusBlocked was s) := by
  grind [statusBlocked, kept_boundaryStop, kept_raise, kept_bsaViolation, kept_parts]

theorem kept_statusCrc {s0 : State} {s : State} (hkp : Kept s0 s) : Kept s0 (statusCrc s) := by
  grind [statusCrc, kept_boundaryStop, kept_raise, kept_bsaViolation, kept_sendBeamConfig, kept_checkTrained, kept_parts, kept_upd]

theorem kept_statusStripe {s0 : State} (m : RetMsg) (was : Bool) {s : State} (hkp : Kept s0 s) : Kept s0 (statusStripe m was s) := by
  grind [statusStripe, kept_checkDone, kept_heedHigh, kept_statusBlocked, kept_statusCrc, kept_settleH, kept_parts, kept_upd]

theorem kept_statusTemp {s0 : State} (w : W128) {s : State} (hkp : Kept s0 s) : Kept s0 (statusTemp w s) := by
  grind [statusTemp, kept_bsaViolation, kept_bsaLimitFlag, kept_bsaWarning, kept_parts, kept_upd]

theorem kept_statusFields {s0 : State} (w : W128) {s : State} (hkp : Kept s0 s) : Kept s0 (statusFields w s) := by
  grind [statusFields, kept_parts, kept_upd]

theorem kept_execStatus (m : RetMsg) {s : State} {t : State} (hx : (execStatus m s) = .next t) : Kept s t := by
  have h0 := Kept.refl s
  grind [execStatus, kept_takeMsg, kept_statusStripe, kept_statusTemp, kept_statusFields, kept_parts, kept_upd]

theorem kept_frameError {s0 : State} (p : Nat) {s : State} (hkp : Kept s0 s) : Kept s0 (frameError p s) := by
  grind [frameError, kept_linkFails, kept_failLane, kept_parts]

theorem kept_execError (m : RetMsg) {s : State} {t : State} (hx : (execError m s) = .next t) : Kept s t := by
  have h0 := Kept.refl s
  grind [execError, kept_takeMsg, kept_stat, kept_frameError, kept_linkFails, kept_failLane, kept_parts]

theorem kept_portGranted {s0 : State} (sb : Nat) (hb : Int) {s : State} (hkp : Kept s0 s) : Kept s0 (portGranted sb hb s) := by
  grind [portGranted, kept_sendRelease, kept_bsaViolation, kept_raise, kept_takeoverGranted, kept_handoverGranted, kept_parts, kept_upd]

theorem kept_portLost {s0 : State} (sb : Nat) (hb : Int) {s : State} (hkp : Kept s0 s) : Kept s0 (portLost sb hb s) := by
  unfold portLost
  have h0 := kept_heedHigh sb hb hkp
  have h1 := kept_boundaryStop 14 (kept_raise 0x0379 .seq (detail [du 8 0, du 16 sb, ds 32 hb])
    (show Kept s0 { heedHigh sb hb s with link := { (heedHigh sb hb s).link with held := false, lost := true } } from
      ⟨h0.1, h0.2, h0.3, h0.4, h0.5, h0.6⟩))
  dsimp only
  generalize boundaryStop 14 _ = s1 at h1 ⊢
  have h2 : Kept s0 (if s1.seq.st = .stopping then settleH s1.seq.h s1 else s1) := by
    split
    · exact kept_settleH _ h1
    · exact h1
  generalize (if s1.seq.st = .stopping then settleH s1.seq.h s1 else s1) = s2 at h2 ⊢
  split
  · exact h2
  · have h3 := kept_disownFlows (show Kept s0 { s2 with
      seq := s2.seq.toIdle
      fab := { s2.fab with pair := { s2.fab.pair with st := .partnerLost, role := 2, step := 0 } } } from
        ⟨h2.1, h2.2, h2.3, h2.4, h2.5, fun a w => ⟨(h2.6 a w).1, rfl⟩⟩)
    split
    · exact kept_enterMode _ _ (kept_endFill h3)
    · exact h3

theorem kept_execPortEvent (m : RetMsg) {s : State} {t : State} (hx : (execPortEvent m s) = .next t) : Kept s t := by
  have h0 := Kept.refl s
  grind [execPortEvent, kept_takeMsg, kept_portGranted, kept_portLost, kept_parts]

theorem kept_execTrainStatus (m : RetMsg) {s : State} {t : State} (hx : (execTrainStatus m s) = .next t) : Kept s t := by
  have h0 := Kept.refl s
  grind [execTrainStatus, kept_takeMsg, kept_parts]

theorem kept_execReturnLaneSwitched {s : State} {t : State} (hx : (execReturnLaneSwitched s) = .next t) : Kept s t := by
  have h0 := Kept.refl s
  grind [execReturnLaneSwitched, kept_laneLost, kept_parts]

theorem kept_execBsaStatusTimeout {s : State} {t : State} (hx : (execBsaStatusTimeout s) = .next t) : Kept s t := by
  have h0 := Kept.refl s
  grind [execBsaStatusTimeout, kept_linkFails, kept_raise, kept_bsaViolation, kept_parts]

theorem kept_execPortClaimTimeout {s : State} {t : State} (hx : (execPortClaimTimeout s) = .next t) : Kept s t := by
  have h0 := Kept.refl s
  grind [execPortClaimTimeout, kept_claimRefused, kept_sendRelease, kept_parts]

theorem kept_putSpace {s0 : State} (space : Nat) (flow : Nat) (a : Nat) (b : List Byte) {s : State} {t : State} (hkp : Kept s0 s) (e : (putSpace space flow a b s) = some t) : Kept s0 t := by
  grind [putSpace, kept_hbmWrite, kept_vwrite, kept_parts]

theorem kept_DescF_move {s0 : State} (d : DescF) (flow : Nat) (p : Nat) (q : Nat) {s : State} {t : State} (hkp : Kept s0 s) (e : (DescF.move d flow p q s) = some t) : Kept s0 t := by
  grind [DescF.move, kept_putSpace, kept_parts]

theorem kept_setCh {s0 : State} (c : Fin 16) (x : Channel16) {s : State} (hkp : Kept s0 s) : Kept s0 (setCh c x s) := by
  grind [setCh, kept_parts]

theorem kept_releaseDesc {s0 : State} (c : Fin 16) (d : Desc) (t : List Desc) {s : State} (hkp : Kept s0 s) : Kept s0 (releaseDesc c d t s) := by
  grind [releaseDesc, kept_setCh, kept_hostWrite, kept_advance, kept_stat, kept_raise, kept_parts]

theorem kept_releaseFinal {s0 : State} (c : Fin 16) (a1 : List Desc) {a2 : State} (hkp : Kept s0 a2) : Kept s0 (releaseFinal c a1 a2) := by
  fun_induction releaseFinal c a1 a2 <;> grind [kept_stopRing, kept_releaseDesc, kept_parts]

theorem kept_releaseDescs {s0 : State} (c : Fin 16) {s : State} (hkp : Kept s0 s) : Kept s0 (releaseDescs c s) := by
  grind [releaseDescs, kept_releaseFinal, kept_parts]

theorem kept_putDesc {s0 : State} (c : Fin 16) (d : Desc) {s : State} (hkp : Kept s0 s) : Kept s0 (putDesc c d s) := by
  grind [putDesc, kept_setCh, kept_parts]

theorem kept_finalDesc {s0 : State} (c : Fin 16) (d : Desc) (status : Nat) (reason : Nat) {s : State} (hkp : Kept s0 s) : Kept s0 (finalDesc c d status reason s) := by
  grind [finalDesc, kept_releaseDescs, kept_putDesc, kept_parts]

theorem kept_dropCopy {s0 : State} (f : BitVec 8) {s : State} (hkp : Kept s0 s) : Kept s0 (dropCopy f s) := by
  grind [dropCopy, kept_parts]

theorem kept_failCopy {s0 : State} (r : CopyRun) (status : Nat) (reason : Nat) {s : State} (hkp : Kept s0 s) : Kept s0 (failCopy r status reason s) := by
  grind [failCopy, kept_dropCopy, kept_activateTables, kept_failItem, kept_putItem, kept_parts]

theorem kept_copyStat {s0 : State} (k : Nat) {s : State} (hkp : Kept s0 s) : Kept s0 (copyStat k s) := by
  grind [copyStat, kept_stat, kept_parts]

theorem kept_putCopy {s0 : State} (r : CopyRun) {s : State} (hkp : Kept s0 s) : Kept s0 (putCopy r s) := by
  grind [putCopy, kept_parts]

theorem kept_startCopy {s0 : State} (f : BitVec 8) (q : BitVec 64) {s : State} (hkp : Kept s0 s) : Kept s0 (startCopy f q s) := by
  grind [startCopy, kept_parts]

theorem kept_execCopyComplete (f : BitVec 8) {s : State} {t : State} (hx : (execCopyComplete f s) = .next t) : Kept s t := by
  have h0 := Kept.refl s
  unfold execCopyComplete at hx
  (repeat' split at hx) <;> grind [kept_DescF_move, kept_activateTables, kept_doneItem, kept_copyStat, kept_dropCopy, kept_parts]

theorem kept_pace {s0 : State} (c : Fin 16) {s : State} (hkp : Kept s0 s) : Kept s0 (pace c s) := by
  grind [pace, kept_setCh, kept_stat, kept_parts]

theorem kept_abortStripe {s0 : State} {s : State} (hkp : Kept s0 s) : Kept s0 (abortStripe s) := by
  grind [abortStripe, kept_endStripe, kept_boundaryStop, kept_parts]

theorem kept_abortUser {s0 : State} (f : DFault) {s : State} (hkp : Kept s0 s) : Kept s0 (abortUser f s) := by
  unfold abortUser
  (repeat' split) <;> grind [kept_abortStripe, kept_dropBinLines, kept_activateTables, kept_failItem, kept_answerOffload, kept_dropIngest, kept_failCopy, kept_dropCensus, kept_parts]

theorem kept_abortTransfer {s0 : State} (f : DFault) {s : State} (hkp : Kept s0 s) : Kept s0 (abortTransfer f s) := by
  grind [abortTransfer, kept_finalDesc, kept_abortUser, kept_parts]

theorem kept_copyError {s0 : State} (r : CopyRun) {s : State} (hkp : Kept s0 s) : Kept s0 (copyError r s) := by
  grind [copyError, kept_raise, kept_copyStat, kept_putCopy, kept_failCopy, kept_parts]

theorem kept_descError {s0 : State} (c : Fin 16) (d : Desc) {s : State} (hkp : Kept s0 s) : Kept s0 (descError c d s) := by
  grind [descError, kept_raise, kept_stat, kept_putDesc, kept_finalDesc, kept_parts]

theorem kept_dropFault {s0 : State} (f : DFault) {s : State} (hkp : Kept s0 s) : Kept s0 (dropFault f s) := by
  grind [dropFault, kept_promoteFault, kept_parts]

theorem kept_execDmaChannelSetup (e : Entry) {s : State} {t : State} (hx : (execDmaChannelSetup e s) = .next t) : Kept s t := by
  have h0 := Kept.refl s
  grind [execDmaChannelSetup, kept_takeUp, kept_finish, kept_setCh, kept_parts]

theorem kept_execDtuSetRoot (e : Entry) {s : State} {t : State} (hx : (execDtuSetRoot e s) = .next t) : Kept s t := by
  have h0 := Kept.refl s
  grind [execDtuSetRoot, kept_takeUp, kept_finish, kept_parts, kept_upd]

theorem kept_execDtuInvalidate (e : Entry) {s : State} {t : State} (hx : (execDtuInvalidate e s) = .next t) : Kept s t := by
  have h0 := Kept.refl s
  grind [execDtuInvalidate, kept_takeUp, kept_finish, kept_parts, kept_upd]

theorem kept_resumeTransfer {s0 : State} (f : DFault) {s : State} (hkp : Kept s0 s) : Kept s0 (resumeTransfer f s) := by
  grind [resumeTransfer, kept_putDesc, kept_putIngest, kept_putCopy, kept_parts]

theorem kept_execDtuResumeFault (e : Entry) {s : State} {t : State} (hx : (execDtuResumeFault e s) = .next t) : Kept s t := by
  have h0 := Kept.refl s
  grind [execDtuResumeFault, kept_takeUp, kept_finish, kept_dropFault, kept_abortTransfer, kept_raise, kept_resumeTransfer, kept_parts, kept_upd]

theorem kept_execDmaDescriptorStart (c : Fin 16) (w : BitVec 512) {s : State} {t : State} (hx : (execDmaDescriptorStart c w s) = .next t) : Kept s t := by
  have h0 := Kept.refl s
  grind [execDmaDescriptorStart, kept_pace, kept_setCh, kept_finalDesc, kept_parts]

theorem kept_execDmaDescriptorDone (c : Fin 16) (idx : BitVec 32) {s : State} {t : State} (hx : (execDmaDescriptorDone c idx s) = .next t) : Kept s t := by
  have h0 := Kept.refl s
  unfold execDmaDescriptorDone at hx
  (repeat' split at hx) <;> grind [kept_injected, kept_descError, kept_DescF_move, kept_finalDesc, kept_statAdd, kept_parts]

theorem kept_readFails {s0 : State} (ctx : Fin 20) (idx : BitVec 32) (arrived : Nat) {s : State} (hkp : Kept s0 s) : Kept s0 (readFails ctx idx arrived s) := by
  unfold readFails
  (repeat' split) <;> grind [kept_DescF_move, kept_descError, kept_copyError, kept_putCopy, kept_parts]

theorem kept_execDmaBusError (ctx : Fin 20) (idx : BitVec 32) (arrived : Nat) {s : State} {t : State} (hx : (execDmaBusError ctx idx arrived s) = .next t) : Kept s t := by
  have h0 := Kept.refl s
  grind [execDmaBusError, kept_readFails, kept_parts]

theorem kept_execDmaReadTimeout (ctx : Fin 20) (idx : BitVec 32) (arrived : Nat) {s : State} {t : State} (hx : (execDmaReadTimeout ctx idx arrived s) = .next t) : Kept s t := by
  have h0 := Kept.refl s
  grind [execDmaReadTimeout, kept_readFails, kept_parts]

theorem kept_execDmaRetry (ctx : Fin 20) (idx : BitVec 32) {s : State} {t : State} (hx : (execDmaRetry ctx idx s) = .next t) : Kept s t := by
  have h0 := Kept.refl s
  grind [execDmaRetry, kept_putDesc, kept_stat, kept_putCopy, kept_copyStat, kept_parts]

theorem kept_faultReason {s0 : State} (flow : Nat) (write : Bool) (va : Nat) (busErr : Bool) {s : State} (hkp : Kept s0 s) : Kept s0 (faultReason flow write va busErr s).2 := by
  grind [faultReason, kept_translate, kept_parts]

theorem kept_faultReason_eq {s0 : State} (flow : Nat) (write : Bool) (va : Nat) (busErr : Bool) {s : State} {v : Option Nat} {t : State} (hev : (faultReason flow write va busErr s) = (v, t)) (h : Kept s0 s) : Kept s0 t := by
  have k := @kept_faultReason s0 flow write va busErr s h
  rw [hev] at k
  exact k

theorem kept_stallDesc {s0 : State} (c : Fin 16) (d : Desc) (write : Bool) (va : BitVec 64) (progress : Nat) (busErr : Bool) {s : State} (hkp : Kept s0 s) : Kept s0 (stallDesc c d write va progress busErr s) := by
  unfold stallDesc
  dsimp only
  split
  · exact hkp
  · split
    · exact hkp
    · rename_i r s1 e1
      have h1 := kept_faultReason_eq _ _ _ _ e1 hkp
      split
      · exact hkp
      · rename_i s2 e2
        have h2 := kept_DescF_move _ _ _ _ h1 e2
        have h3 := kept_recordFault (mkFault s.dma.ch[c].flow r write c.val d.idx va progress)
          (kept_putDesc c { d with st := .stalled, done := progress } h2)
        split
        · exact kept_putDesc _ _ h3
        · exact h3

theorem kept_stallCopy {s0 : State} (r : CopyRun) (d : DescF) (progress : Nat) {s : State} {t : State} (hkp : Kept s0 s) (e : (stallCopy r d progress s) = some t) : Kept s0 t := by
  unfold stallCopy at e
  split at e
  · simp at e
  · simp only [Option.map_eq_some_iff] at e
    obtain ⟨v, hv, rfl⟩ := e
    exact kept_putCopy _ (kept_DescF_move _ _ _ _ hkp hv)

theorem kept_stallUser {s0 : State} (ctx : Nat) (flow : BitVec 8) (progress : Nat) {s : State} {t : State} (hkp : Kept s0 s) (e : (stallUser ctx flow progress s) = some t) : Kept s0 t := by
  have hif : ∀ (c : Prop) [Decidable c], (if c then some s else none) = some t → Kept s0 t := by
    intro c _ h
    split at h
    · cases h; exact hkp
    · cases h
  unfold stallUser at e
  split at e
  · exact hif _ e
  · split at e
    · exact hif _ e
    · cases e
  · exact hif _ e
  · generalize ingestOf s flow = a at e
    generalize copyOf s flow = b at e
    cases a with
    | some r =>
      dsimp only at e
      split at e
      · cases e
      · injection e with e
        rw [← e]
        exact kept_putIngest _ hkp
    | none =>
      cases b with
      | none => exact hif _ e
      | some r =>
        dsimp only at e
        cases h : CopyRun.f r s with
        | none => rw [h] at e; cases e
        | some d => rw [h] at e; exact kept_stallCopy _ _ _ hkp e

theorem kept_execDtuFault (ctx : Fin 20) (idx : BitVec 32) (write : Bool) (va : BitVec 64) (progress : Nat) (busErr : Bool) {s : State} {t : State} (hx : (execDtuFault ctx idx write va progress busErr s) = .next t) : Kept s t := by
  have h0 := Kept.refl s
  grind [execDtuFault, kept_stallDesc, kept_faultReason, kept_stallUser, kept_recordFault, → kept_faultReason_eq, kept_parts]

theorem kept_freshUpdate {s0 : State} (d : UpdDesc) {s : State} (hkp : Kept s0 s) : Kept s0 (freshUpdate d s) := by
  grind [freshUpdate, kept_parts]

theorem kept_beginUpdate {s0 : State} (d : UpdDesc) {s : State} {t : State} (hkp : Kept s0 s) (e : (beginUpdate d s) = .ok t) : Kept s0 t := by
  grind [beginUpdate, kept_raise, kept_freshUpdate, kept_parts]

theorem kept_dropUpd {s0 : State} (f : BitVec 8) {s : State} (hkp : Kept s0 s) : Kept s0 (dropUpd f s) := by
  grind [dropUpd, kept_parts]

theorem kept_failUpd {s0 : State} (r : UpdRun) (status : Nat) (reason : Nat) {s : State} (hkp : Kept s0 s) : Kept s0 (failUpd r status reason s) := by
  grind [failUpd, kept_dropUpd, kept_activateTables, kept_failItem, kept_putItem, kept_parts]

theorem kept_doneUpd {s0 : State} (r : UpdRun) {s : State} (hkp : Kept s0 s) : Kept s0 (doneUpd r s) := by
  grind [doneUpd, kept_activateTables, kept_doneItem, kept_dropUpd, kept_parts]

theorem kept_putUpd {s0 : State} (r : UpdRun) {s : State} (hkp : Kept s0 s) : Kept s0 (putUpd r s) := by
  grind [putUpd, kept_parts]

theorem kept_sendBegin {s0 : State} (r : UpdRun) (target : Nat) {s : State} (hkp : Kept s0 s) : Kept s0 (sendBegin r target s) := by
  grind [sendBegin, kept_send, kept_putUpd, kept_parts]

theorem kept_beginRun {s0 : State} (r : UpdRun) (target : Nat) {s : State} (hkp : Kept s0 s) : Kept s0 (beginRun r target s) := by
  unfold beginRun
  have h1 : Kept s0 { s with upd := { s.upd with items := s.upd.items ++ [r] } } := ⟨hkp.1, hkp.2, hkp.3, hkp.4, hkp.5, hkp.6⟩
  dsimp only
  split
  · split
    · exact kept_failUpd _ _ _ h1
    · have h2 := kept_beginUpdate _ h1 (by assumption)
      split
      · exact kept_doneUpd _ h2
      · exact kept_putUpd _ h2
  · exact kept_sendBegin _ _ h1

theorem kept_holdPiece {s0 : State} (i : Nat) (pcrc : BitVec 32) (b : List Byte) {s : State} (hkp : Kept s0 s) : Kept s0 (holdPiece i pcrc b s) := by
  grind [holdPiece, kept_raise, kept_parts]

theorem kept_putPiece {s0 : State} (id : BitVec 32) (i : Nat) (pcrc : BitVec 32) (b : List Byte) (readBackOk : Bool) {s : State} (hkp : Kept s0 s) : Kept s0 (putPiece id i pcrc b readBackOk s).2 := by
  grind [putPiece, kept_raise, kept_holdPiece, kept_parts]

theorem kept_putPiece_eq {s0 : State} (id : BitVec 32) (i : Nat) (pcrc : BitVec 32) (b : List Byte) (readBackOk : Bool) {s : State} {v : Option (Nat × Nat)} {t : State} (hev : (putPiece id i pcrc b readBackOk s) = (v, t)) (h : Kept s0 s) : Kept s0 t := by
  have k := @kept_putPiece s0 id i pcrc b readBackOk s h
  rw [hev] at k
  exact k

theorem kept_startUpdate {s0 : State} (f : BitVec 8) (q : BitVec 64) (p : List Byte) {s : State} {t : State} (hkp : Kept s0 s) (e : (startUpdate f q p s) = some t) : Kept s0 t := by
  grind [startUpdate, kept_beginRun, kept_failUpd, kept_parts]

theorem kept_relayNacked {s0 : State} (r : UpdRun) (i : Nat) (reason : Nat) (sub : Nat) {s : State} (hkp : Kept s0 s) : Kept s0 (relayNacked r i reason sub s) := by
  grind [relayNacked, kept_failUpd, kept_putUpd, kept_parts]

theorem kept_relayReport {s0 : State} (r : UpdRun) (complete : Bool) (bitmap : List Byte) {s : State} (hkp : Kept s0 s) : Kept s0 (relayReport r complete bitmap s) := by
  grind [relayReport, kept_doneUpd, kept_putUpd, kept_parts]

theorem kept_execUpdateTargetTimeout (f : BitVec 8) {s : State} {t : State} (hx : (execUpdateTargetTimeout f s) = .next t) : Kept s t := by
  have h0 := Kept.refl s
  grind [execUpdateTargetTimeout, kept_failUpd, kept_parts]

theorem kept_sendPiece {s0 : State} (r : UpdRun) (target : Nat) (i : Nat) {s : State} (hkp : Kept s0 s) : Kept s0 (sendPiece r target i s) := by
  grind [sendPiece, kept_send, kept_putUpd, kept_parts]

theorem kept_execUpdateRateTick (f : BitVec 8) {s : State} {t : State} (hx : (execUpdateRateTick f s) = .next t) : Kept s t := by
  have h0 := Kept.refl s
  unfold execUpdateRateTick at hx
  (repeat' split at hx) <;> grind [kept_doneUpd, kept_putPiece, kept_failUpd, kept_putUpd, kept_sendBegin, kept_sendPiece, kept_parts]

end Sys2Proof.Machine
end

