-- ==== Sys2Proof/Laws/Kept5.lean ====
section
/-! SUPPORT. What the functions of these files keep of a state (Laws/Kept): WorkOps, WorkCmd, CfgCmd, DevCmd, FabPorts, FabCmd, PairCmd. -/

namespace Sys2Proof.Machine

theorem kept_failStart {s0 : State} (i : Item) (status : Nat) (reason : Nat) (b : Option Bad) {s : State} (hkp : Kept s0 s) : Kept s0 (failStart i status reason b s) := by
  unfold failStart
  (repeat' split) <;> grind [kept_keepDetail, kept_raiseBad, kept_activateTables, kept_failItem, kept_parts]

theorem kept_placeStripe {s0 : State} (i : Item) (h : SHdr) (stripe : Nat) (resume : Bool) {s : State} (hkp : Kept s0 s) : Kept s0 (placeStripe i h stripe resume s) := by
  grind [placeStripe, kept_setStripe, kept_stripeDone, kept_enterFilling, kept_parts, kept_upd]

theorem kept_runItem {s0 : State} (i : Item) {s : State} (hkp : Kept s0 s) : Kept s0 (runItem i s) := by
  grind [runItem, kept_writeRec, kept_putItem, kept_parts]

theorem kept_startStripe {s0 : State} (i : Item) (j : StripeJob) {s : State} (hkp : Kept s0 s) : Kept s0 (startStripe i j s) := by
  grind [startStripe, kept_failStart, kept_placeStripe, kept_runItem, kept_parts, kept_upd]

theorem kept_resumeRebuilt {s0 : State} (i : Item) (j : StripeJob) {s : State} (hkp : Kept s0 s) : Kept s0 (resumeRebuilt i j s) := by
  grind [resumeRebuilt, kept_placeStripe, kept_parts, kept_upd]

theorem kept_registerRegion {s0 : State} (j : IngestJob) {s : State} (hkp : Kept s0 s) : Kept s0 (registerRegion j s) := by
  grind [registerRegion, kept_parts]

theorem kept_startSealed {s0 : State} (i : Item) (j : IngestJob) (fresh : State → State) {s : State} (hkp : Kept s0 s) (hfresh : ∀ x0, Kept s0 x0 → Kept s0 (fresh x0)) : Kept s0 (startSealed i j fresh s) := by
  grind [startSealed, kept_failStart, kept_registerRegion, kept_failIngest, kept_parts, kept_upd]

theorem kept_startIngest {s0 : State} (i : Item) (p : List Byte) (fresh : State → State) {s : State} (hkp : Kept s0 s) (hfresh : ∀ x0, Kept s0 x0 → Kept s0 (fresh x0)) : Kept s0 (startIngest i p fresh s) := by
  grind [startIngest, kept_startSealed, kept_parts]

theorem kept_startCopyItem {s0 : State} (i : Item) (p : List Byte) (fresh : State → State) {s : State} (hkp : Kept s0 s) (hfresh : ∀ x0, Kept s0 x0 → Kept s0 (fresh x0)) : Kept s0 (startCopyItem i p fresh s) := by
  grind [startCopyItem, kept_failStart, kept_startCopy, kept_parts]

theorem kept_startCal {s0 : State} (i : Item) (p : List Byte) (fresh : State → State) {s : State} (hkp : Kept s0 s) (hfresh : ∀ x0, Kept s0 x0 → Kept s0 (fresh x0)) : Kept s0 (startCal i p fresh s) := by
  grind [startCal, kept_parts]

theorem kept_startKind {s0 : State} (i : Item) (p : List Byte) (fresh : State → State) {s : State} (hkp : Kept s0 s) (hfresh : ∀ x0, Kept s0 x0 → Kept s0 (fresh x0)) : Kept s0 (startKind i p fresh s) := by
  unfold startKind
  split
  · split
    · exact kept_startIngest _ _ _ hkp hfresh
    · exact hkp
  · split
    · exact kept_startCensus _ _ _ (hfresh _ hkp)
    · exact hkp
  · split
    · exact kept_startBin _ _ _ (hfresh _ hkp)
    · exact hkp
  · exact kept_startCopyItem _ _ _ hkp hfresh
  · split
    · exact kept_startCal _ _ _ hkp hfresh
    · exact hkp
  · cases e : startUpdate i.flow i.seq p (fresh s) with
    | none => exact hkp
    | some v => exact kept_startUpdate _ _ _ (hfresh _ hkp) e
  · exact hkp

theorem kept_startHead {s0 : State} (i : Item) (p : List Byte) {s : State} (hkp : Kept s0 s) : Kept s0 (startHead i p s) := by
  grind [startHead, kept_startStripe, kept_resumeRebuilt, kept_startKind, kept_runItem, kept_parts]

theorem kept_execWorkItemStart (f : BitVec 8) {s : State} {t : State} (hx : (execWorkItemStart f s) = .next t) : Kept s t := by
  have h0 := Kept.refl s
  grind [execWorkItemStart, kept_startHead, kept_parts]

theorem kept_cancelStripe {s0 : State} {s : State} (hkp : Kept s0 s) : Kept s0 (cancelStripe s) := by
  grind [cancelStripe, kept_addCause, kept_endStripe, kept_boundaryStop, kept_parts]

theorem kept_cancelRunning {s0 : State} (i : Item) {s : State} (hkp : Kept s0 s) : Kept s0 (cancelRunning i s) := by
  grind [cancelRunning, kept_activateTables, kept_failItem, kept_dropIngest, kept_failCensus, kept_stopBin, kept_cancelStripe, kept_failCopy, kept_putItem, kept_failUpd, kept_parts]

theorem kept_cancelItem {s0 : State} (i : Item) {s : State} (hkp : Kept s0 s) : Kept s0 (cancelItem i s) := by
  grind [cancelItem, kept_activateTables, kept_failItem, kept_cancelRunning, kept_parts]

theorem kept_duplicate {s0 : State} (w : Waiting) (words : List W128) {s : State} (hkp : Kept s0 s) : Kept s0 (duplicate w words s) := by
  grind [duplicate, kept_finish, kept_raise, kept_stat, kept_parts]

theorem kept_mapAperture {s0 : State} (object : Nat) (b : List Byte) {s : State} (hkp : Kept s0 s) : Kept s0 (mapAperture object b s) := by
  grind [mapAperture, kept_emit, kept_parts]

theorem kept_execFlowOpen (e : Entry) {s : State} {t : State} (hx : (execFlowOpen e s) = .next t) : Kept s t := by
  have h0 := Kept.refl s
  grind [execFlowOpen, kept_takeUp, kept_finish, kept_writeRec, kept_wait, kept_parts]

theorem kept_execFlowClose (e : Entry) {s : State} {t : State} (hx : (execFlowClose e s) = .next t) : Kept s t := by
  have h0 := Kept.refl s
  grind [execFlowClose, kept_takeUp, kept_finish, kept_writeRec, kept_wait, kept_parts]

theorem kept_refuse {s0 : State} (w : Waiting) (x : Submit) (status : Nat) (code : Nat) {s : State} (hkp : Kept s0 s) : Kept s0 (refuse w x status code s) := by
  grind [refuse, kept_raise, kept_stat, kept_finish, kept_parts]

theorem kept_submitNew {s0 : State} (w : Waiting) (x : Submit) {s : State} (hkp : Kept s0 s) : Kept s0 (submitNew w x s) := by
  grind [submitNew, kept_writeRec, kept_wait, kept_addItem, kept_stat, kept_parts]

theorem kept_judgeNew {s0 : State} (w : Waiting) (x : Submit) {s : State} (hkp : Kept s0 s) : Kept s0 (judgeNew w x s) := by
  grind [judgeNew, kept_refuse, kept_raiseBad, kept_submitNew, kept_parts]

theorem kept_resumeWaiting {s0 : State} (w : Waiting) (x : Submit) (i : Item) {s : State} (hkp : Kept s0 s) : Kept s0 (resumeWaiting w x i s) := by
  grind [resumeWaiting, kept_refuse, kept_raiseBad, kept_finish, kept_putItem, kept_parts]

theorem kept_resumeStopped {s0 : State} (w : Waiting) (x : Submit) (i : Item) {s : State} (hkp : Kept s0 s) : Kept s0 (resumeStopped w x i s) := by
  grind [resumeStopped, kept_progressRec, kept_finish, kept_parts, kept_upd]

theorem kept_supplyBlock {s0 : State} (i : Item) (x : Submit) {s : State} (hkp : Kept s0 s) : Kept s0 (supplyBlock i x s) := by
  grind [supplyBlock, kept_putItem, kept_parts]

theorem kept_judgeOld {s0 : State} (w : Waiting) (x : Submit) (i : Item) {s : State} (hkp : Kept s0 s) : Kept s0 (judgeOld w x i s) := by
  grind [judgeOld, kept_finish, kept_raise, kept_stat, kept_resumeWaiting, kept_resumeStopped, kept_duplicate, kept_supplyBlock, kept_parts]

theorem kept_judgeUnknown {s0 : State} (w : Waiting) (x : Submit) {s : State} (hkp : Kept s0 s) : Kept s0 (judgeUnknown w x s) := by
  grind [judgeUnknown, kept_takeFree, kept_finish, kept_parts]

theorem kept_judgeSubmit {s0 : State} (w : Waiting) (x : Submit) {s : State} (hkp : Kept s0 s) : Kept s0 (judgeSubmit w x s) := by
  grind [judgeSubmit, kept_refuse, kept_judgeNew, kept_finish, kept_stat, kept_judgeOld, kept_duplicate, kept_judgeUnknown, kept_parts]

theorem kept_execWorkSubmit (e : Entry) {s : State} {t : State} (hx : (execWorkSubmit e s) = .next t) : Kept s t := by
  have h0 := Kept.refl s
  grind [execWorkSubmit, kept_takeUp, kept_readBuffer, kept_finish, kept_judgeSubmit, kept_parts]

theorem kept_execWorkCancel (e : Entry) {s : State} {t : State} (hx : (execWorkCancel e s) = .next t) : Kept s t := by
  have h0 := Kept.refl s
  grind [execWorkCancel, kept_takeUp, kept_finish, kept_wait, kept_cancelItem, kept_judgeUnknown, kept_parts]

theorem kept_execWorkQuery (e : Entry) {s : State} {t : State} (hx : (execWorkQuery e s) = .next t) : Kept s t := by
  have h0 := Kept.refl s
  grind [execWorkQuery, kept_takeUp, kept_finish, kept_judgeUnknown, kept_parts]

theorem kept_refinal {s0 : State} (a0 : List Item) {a1 : State} (hkp : Kept s0 a1) : Kept s0 (refinal a0 a1) := by
  fun_induction refinal a0 a1 <;> grind [kept_writeRec, kept_putItem, kept_parts]

theorem kept_witnessCopied {s0 : State} {s : State} (hkp : Kept s0 s) : Kept s0 (witnessCopied s) := by
  grind [witnessCopied, kept_settle, kept_storeWitness, kept_raise, kept_refinal, kept_parts]

theorem kept_execLedgerSetWitness (e : Entry) (stored : Bool) {s : State} {t : State} (hx : (execLedgerSetWitness e stored s) = .next t) : Kept s t := by
  have h0 := Kept.refl s
  grind [execLedgerSetWitness, kept_takeUp, kept_finish, kept_resendTo, kept_wait, kept_witnessCopied, kept_parts]

theorem kept_execLedgerCheckpoint (e : Entry) {s : State} {t : State} (hx : (execLedgerCheckpoint e s) = .next t) : Kept s t := by
  have h0 := Kept.refl s
  grind [execLedgerCheckpoint, kept_takeUp, kept_finish, kept_writeRec, kept_applyFloor, kept_wait, kept_parts]

theorem kept_execLedgerRead (e : Entry) {s : State} {t : State} (hx : (execLedgerRead e s) = .next t) : Kept s t := by
  have h0 := Kept.refl s
  grind [execLedgerRead, kept_takeUp, kept_finish, kept_mapAperture, kept_parts]

theorem kept_execAcceptTimeout (f : BitVec 8) {s : State} {t : State} (hx : (execAcceptTimeout f s) = .next t) : Kept s t := by
  have h0 := Kept.refl s
  grind [execAcceptTimeout, kept_withdraw, kept_refuseSubmitted, kept_stat, kept_settle, kept_parts]

theorem kept_execWitnessReadbackDone (unchanged : Bool) {s : State} {t : State} (hx : (execWitnessReadbackDone unchanged s) = .next t) : Kept s t := by
  have h0 := Kept.refl s
  grind [execWitnessReadbackDone, kept_activateTables, kept_handoverStep, kept_ackUpTo, kept_witnessCopied, kept_parts]

theorem kept_execWitnessResendTimeout {s : State} {t : State} (hx : (execWitnessResendTimeout s) = .next t) : Kept s t := by
  have h0 := Kept.refl s
  grind [execWitnessResendTimeout, kept_sendAlternate, kept_stat, kept_parts]

theorem kept_witnessRefused {s0 : State} {s : State} (hkp : Kept s0 s) : Kept s0 (witnessRefused s) := by
  grind [witnessRefused, kept_settle, kept_parts]

theorem kept_execWitnessLost {s : State} {t : State} (hx : (execWitnessLost s) = .next t) : Kept s t := by
  have h0 := Kept.refl s
  grind [execWitnessLost, kept_witnessRefused, kept_loseWitness, kept_parts]

theorem kept_execWitnessRetry (answered : Bool) {s : State} {t : State} (hx : (execWitnessRetry answered s) = .next t) : Kept s t := by
  have h0 := Kept.refl s
  grind [execWitnessRetry, kept_restoreWitness, kept_parts]

theorem kept_execProgressTimer {s : State} {t : State} (hx : (execProgressTimer s) = .next t) : Kept s t := by
  have h0 := Kept.refl s
  grind [execProgressTimer, kept_progressRec, kept_parts]

theorem kept_execLedgerRebuild (recs : List (BitVec 512)) {s : State} {t : State} (hx : (execLedgerRebuild recs s) = .next t) : Kept s t := by
  have h0 := Kept.refl s
  grind [execLedgerRebuild, kept_rebuildLedger, kept_parts]

theorem kept_posCfgChanged {s0 : State} (idx : Nat) (v : W128) (old : State) {s : State} (hkp : Kept s0 s) : Kept s0 (posCfgChanged idx v old s) := by
  grind [posCfgChanged, kept_loseHome, kept_parts]

theorem kept_applyItem {s0 : State} (item : Nat) (idx : Nat) (v : W128) {s : State} (hkp : Kept s0 s) : Kept s0 (applyItem item idx v s) := by
  grind [applyItem, kept_activateTables, kept_stageItem, kept_raise, kept_posCfgChanged, kept_setItem, kept_offloadStep, kept_parts]

theorem kept_setRenderParams {s0 : State} (w : Waiting) (l : List Byte) {s : State} (hkp : Kept s0 s) : Kept s0 (setRenderParams w l s) := by
  grind [setRenderParams, kept_finish, kept_raise, kept_activateTables, kept_parts]

theorem kept_setInline {s0 : State} (w : Waiting) (item : Nat) (idx : Nat) (v : W128) {s : State} (hkp : Kept s0 s) : Kept s0 (setInline w item idx v s) := by
  grind [setInline, kept_applyItem, kept_finish, kept_parts]

theorem kept_execCfgSet (e : Entry) {s : State} {t : State} (hx : (execCfgSet e s) = .next t) : Kept s t := by
  have h0 := Kept.refl s
  grind [execCfgSet, kept_takeUp, kept_finish, kept_readBuffer, kept_setRenderParams, kept_setInline, kept_parts]

theorem kept_execCfgGet (e : Entry) {s : State} {t : State} (hx : (execCfgGet e s) = .next t) : Kept s t := by
  have h0 := Kept.refl s
  grind [execCfgGet, kept_takeUp, kept_finish, kept_parts]

theorem kept_execCfgCommit (e : Entry) (verified : Bool) {s : State} {t : State} (hx : (execCfgCommit e verified s) = .next t) : Kept s t := by
  have h0 := Kept.refl s
  grind [execCfgCommit, kept_takeUp, kept_finish, kept_raise, kept_parts]

theorem kept_loadBeamTable {s0 : State} (w : Waiting) (l : List Byte) (crc : BitVec 32) {s : State} (hkp : Kept s0 s) : Kept s0 (loadBeamTable w l crc s) := by
  grind [loadBeamTable, kept_finish, kept_raise, kept_activateTables, kept_parts]

theorem kept_execCfgLoadBeamTable (e : Entry) {s : State} {t : State} (hx : (execCfgLoadBeamTable e s) = .next t) : Kept s t := by
  have h0 := Kept.refl s
  grind [execCfgLoadBeamTable, kept_takeUp, kept_readBuffer, kept_finish, kept_loadBeamTable, kept_parts]

theorem kept_loadLayerMap {s0 : State} (w : Waiting) (l : List Byte) (crc : BitVec 32) {s : State} (hkp : Kept s0 s) : Kept s0 (loadLayerMap w l crc s) := by
  grind [loadLayerMap, kept_finish, kept_raise, kept_activateTables, kept_parts]

theorem kept_execCfgLoadLayerMap (e : Entry) {s : State} {t : State} (hx : (execCfgLoadLayerMap e s) = .next t) : Kept s t := by
  have h0 := Kept.refl s
  grind [execCfgLoadLayerMap, kept_takeUp, kept_readBuffer, kept_finish, kept_loadLayerMap, kept_parts]

theorem kept_execDevIdentify (e : Entry) {s : State} {t : State} (hx : (execDevIdentify e s) = .next t) : Kept s t := by
  have h0 := Kept.refl s
  grind [execDevIdentify, kept_takeUp, kept_finish, kept_parts]

theorem kept_execDevSetMode (e : Entry) {s : State} {t : State} (hx : (execDevSetMode e s) = .next t) : Kept s t := by
  have h0 := Kept.refl s
  grind [execDevSetMode, kept_takeUp, kept_finish, kept_beginChange, kept_wait, kept_parts]

theorem kept_execDevGetStatus (e : Entry) {s : State} {t : State} (hx : (execDevGetStatus e s) = .next t) : Kept s t := by
  have h0 := Kept.refl s
  grind [execDevGetStatus, kept_takeUp, kept_finish, kept_parts]

theorem kept_giveReadback {s0 : State} (w : Waiting) (obj : Nat) (size : Nat) (b : List Byte) {s : State} (hkp : Kept s0 s) : Kept s0 (giveReadback w obj size b s) := by
  grind [giveReadback, kept_emit, kept_finish, kept_mapAperture, kept_parts]

theorem kept_execDevReadback (e : Entry) {s : State} {t : State} (hx : (execDevReadback e s) = .next t) : Kept s t := by
  have h0 := Kept.refl s
  grind [execDevReadback, kept_takeUp, kept_finish, kept_giveReadback, kept_parts]

theorem kept_execDevReset (e : Entry) {s : State} {t : State} (hx : (execDevReset e s) = .next t) : Kept s t := by
  have h0 := Kept.refl s
  grind [execDevReset, kept_takeUp, kept_finish, kept_raise, kept_parts, kept_upd]

theorem kept_sourceLost {s0 : State} (b : Fin 4) {s : State} (hkp : Kept s0 s) : Kept s0 (sourceLost b s) := by
  grind [sourceLost, kept_deriveSt, kept_raise, kept_setBase, kept_parts]

theorem kept_afterPort {s0 : State} (p : Fin 8) (was : State) {s : State} (hkp : Kept s0 s) : Kept s0 (afterPort p was s) := by
  grind [afterPort, kept_sourceLost, kept_parts]

theorem kept_sendHello {s0 : State} (p : Fin 8) {s : State} (hkp : Kept s0 s) : Kept s0 (sendHello p s) := by
  grind [sendHello, kept_emit, kept_parts]

theorem kept_sendTrain {s0 : State} (p : Fin 8) (a1 : List Nat) {a2 : State} (hkp : Kept s0 a2) : Kept s0 (sendTrain p a1 a2) := by
  fun_induction sendTrain p a1 a2 <;> grind [kept_emit, kept_parts]

theorem kept_startTraining {s0 : State} (p : Fin 8) {s : State} (hkp : Kept s0 s) : Kept s0 (startTraining p s) := by
  grind [startTraining, kept_sendHello, kept_sendTrain, kept_setPort, kept_parts]

theorem kept_portGone {s0 : State} (p : Fin 8) {s : State} (hkp : Kept s0 s) : Kept s0 (portGone p s) := by
  grind [portGone, kept_portDown, kept_sourceLost, kept_parts]

theorem kept_execPortTrainStart (p : Fin 8) {s : State} {t : State} (hx : (execPortTrainStart p s) = .next t) : Kept s t := by
  have h0 := Kept.refl s
  grind [execPortTrainStart, kept_startTraining, kept_parts]

theorem kept_execPortTrainingTimeout (p : Fin 8) {s : State} {t : State} (hx : (execPortTrainingTimeout p s) = .next t) : Kept s t := by
  have h0 := Kept.refl s
  grind [execPortTrainingTimeout, kept_setPort, kept_parts]

theorem kept_execPortRetry (p : Fin 8) {s : State} {t : State} (hx : (execPortRetry p s) = .next t) : Kept s t := by
  have h0 := Kept.refl s
  grind [execPortRetry, kept_startTraining, kept_parts]

theorem kept_execFabPortDown (p : Fin 8) {s : State} {t : State} (hx : (execFabPortDown p s) = .next t) : Kept s t := by
  have h0 := Kept.refl s
  grind [execFabPortDown, kept_portGone, kept_parts]

theorem kept_takeLinkAck {s0 : State} (p : Fin 8) (c : Fin 4) (seq : Nat) (code : Nat) {s : State} (hkp : Kept s0 s) : Kept s0 (takeLinkAck p c seq code s) := by
  grind [takeLinkAck, kept_afterPort, kept_violationAck, kept_setPClass, kept_retransmit, kept_parts, kept_upd]

theorem kept_execLinkAck (p : Fin 8) (block : BitVec 64) {s : State} {t : State} (hx : (execLinkAck p block s) = .next t) : Kept s t := by
  have h0 := Kept.refl s
  grind [execLinkAck, kept_afterPort, kept_violationAck, kept_takeLinkAck, kept_parts, kept_upd]

theorem kept_execCredit (p : Fin 8) (block : BitVec 64) {s : State} {t : State} (hx : (execCredit p block s) = .next t) : Kept s t := by
  have h0 := Kept.refl s
  unfold execCredit at hx
  (repeat' split at hx) <;> grind [kept_afterPort, kept_violationAck, kept_drainQueue, kept_setPort, kept_parts]

theorem kept_execSporeAckTimeout (p : Fin 8) (cls : Fin 4) {s : State} {t : State} (hx : (execSporeAckTimeout p cls s) = .next t) : Kept s t := by
  have h0 := Kept.refl s
  grind [execSporeAckTimeout, kept_afterPort, kept_retransmit, kept_parts]

theorem kept_execCreditReturnTimer (p : Fin 8) {s : State} {t : State} (hx : (execCreditReturnTimer p s) = .next t) : Kept s t := by
  have h0 := Kept.refl s
  grind [execCreditReturnTimer, kept_sendCredit, kept_parts]

theorem kept_execLinkAckTimer (p : Fin 8) (cls : Fin 4) {s : State} {t : State} (hx : (execLinkAckTimer p cls s) = .next t) : Kept s t := by
  have h0 := Kept.refl s
  grind [execLinkAckTimer, kept_sendLinkAck, kept_setPClass, kept_parts]

theorem kept_execSporeForward (p : Fin 8) (sp : Spore) {s : State} {t : State} (hx : (execSporeForward p sp s) = .next t) : Kept s t := by
  have h0 := Kept.refl s
  grind [execSporeForward, kept_rxSpore, kept_parts]

theorem kept_portComesUp {s0 : State} (p : Fin 8) (b : List Byte) {s : State} (hkp : Kept s0 s) : Kept s0 (portComesUp p b s) := by
  grind [portComesUp, kept_refreshRoutes, kept_raise, kept_setPort, kept_parts]

theorem kept_setPartner {s0 : State} (p : Fin 8) (b : List Byte) {s : State} (hkp : Kept s0 s) : Kept s0 (setPartner p b s) := by
  grind [setPartner, kept_setPort, kept_parts]

theorem kept_execHello (p : Fin 8) (sp : Spore) {s : State} {t : State} (hx : (execHello p sp s) = .next t) : Kept s t := by
  have h0 := Kept.refl s
  grind [execHello, kept_violation, kept_portComesUp, kept_rxSpore, kept_setPartner, kept_parts]

theorem kept_rememberFlood {s0 : State} (o : BitVec 64) (id : BitVec 32) {s : State} (hkp : Kept s0 s) : Kept s0 (rememberFlood o id s) := by
  grind [rememberFlood, kept_parts]

theorem kept_floodOwn {s0 : State} (typ : Nat) (id : BitVec 32) (b : List Byte) {s : State} (hkp : Kept s0 s) : Kept s0 (floodOwn typ id b s) := by
  grind [floodOwn, kept_floodFrom, kept_rememberFlood, kept_parts]

theorem kept_answerTopo {s0 : State} (o : BitVec 64) (id : BitVec 32) {s : State} (hkp : Kept s0 s) : Kept s0 (answerTopo o id s) := by
  grind [answerTopo, kept_floodOwn, kept_parts]

theorem kept_collect {s0 : State} (f : Found) {s : State} (hkp : Kept s0 s) : Kept s0 (collect f s) := by
  grind [collect, kept_parts]

theorem kept_newFlood {s0 : State} {s : State} (hkp : Kept s0 s) : Kept s0 (newFlood s) := by
  grind [newFlood, kept_parts]

theorem kept_trainPorts {s0 : State} (mask : Nat) (a1 : List (Fin 8)) {a2 : State} (hkp : Kept s0 a2) : Kept s0 (trainPorts mask a1 a2) := by
  fun_induction trainPorts mask a1 a2 <;> grind [kept_startTraining, kept_parts]

theorem kept_execFabDiscover (e : Entry) {s : State} {t : State} (hx : (execFabDiscover e s) = .next t) : Kept s t := by
  have h0 := Kept.refl s
  grind [execFabDiscover, kept_takeUp, kept_newFlood, kept_trainPorts, kept_wait, kept_floodOwn, kept_parts, kept_upd]

theorem kept_nodeAnswered {s0 : State} (serial : BitVec 64) (node : BitVec 12) {s : State} (hkp : Kept s0 s) : Kept s0 (nodeAnswered serial node s) := by
  grind [nodeAnswered, kept_settle, kept_parts]

theorem kept_takeNode {s0 : State} (n : BitVec 12) {s : State} (hkp : Kept s0 s) : Kept s0 (takeNode n s) := by
  grind [takeNode, kept_raise, kept_parts]

theorem kept_execFabAssignNode (e : Entry) {s : State} {t : State} (hx : (execFabAssignNode e s) = .next t) : Kept s t := by
  have h0 := Kept.refl s
  grind [execFabAssignNode, kept_takeUp, kept_finish, kept_newFlood, kept_wait, kept_floodOwn, kept_nodeAnswered, kept_takeNode, kept_parts]

theorem kept_execFabSetRoute (e : Entry) {s : State} {t : State} (hx : (execFabSetRoute e s) = .next t) : Kept s t := by
  have h0 := Kept.refl s
  grind [execFabSetRoute, kept_takeUp, kept_finish, kept_refreshRoutes, kept_parts]

theorem kept_rxFlood {s0 : State} (typ : Nat) (p : Fin 8) (sp : Spore) (act : State → State) {s : State} (hkp : Kept s0 s) (hact : ∀ x0, Kept s0 x0 → Kept s0 (act x0)) : Kept s0 (rxFlood typ p sp act s) := by
  unfold rxFlood
  (repeat' split) <;> grind [kept_rxSpore, kept_linkTake, kept_violationAck, kept_violation, kept_rememberFlood, kept_forwardFlood, kept_parts]

theorem kept_execTopo (p : Fin 8) (sp : Spore) {s : State} {t : State} (hx : (execTopo p sp s) = .next t) : Kept s t := by
  have h0 := Kept.refl s
  grind [execTopo, kept_rxFlood, kept_answerTopo, kept_collect, kept_parts]

theorem kept_execAssign (p : Fin 8) (sp : Spore) {s : State} {t : State} (hx : (execAssign p sp s) = .next t) : Kept s t := by
  have h0 := Kept.refl s
  grind [execAssign, kept_rxFlood, kept_send, kept_takeNode, kept_parts]

theorem kept_execAssignAck (p : Fin 8) (sp : Spore) {s : State} {t : State} (hx : (execAssignAck p sp s) = .next t) : Kept s t := by
  have h0 := Kept.refl s
  grind [execAssignAck, kept_rxSpore, kept_nodeAnswered, kept_parts]

theorem kept_execDiscoveryCollectTimeout {s : State} {t : State} (hx : (execDiscoveryCollectTimeout s) = .next t) : Kept s t := by
  have h0 := Kept.refl s
  grind [execDiscoveryCollectTimeout, kept_settle, kept_raise, kept_parts]

theorem kept_execAssignTimeout {s : State} {t : State} (hx : (execAssignTimeout s) = .next t) : Kept s t := by
  have h0 := Kept.refl s
  grind [execAssignTimeout, kept_settle, kept_parts]

theorem kept_compareBeat {s0 : State} (x : Beat) {s : State} (hkp : Kept s0 s) : Kept s0 (compareBeat x s) := by
  grind [compareBeat, kept_raise, kept_parts, kept_upd]

theorem kept_endPair {s0 : State} {s : State} (hkp : Kept s0 s) : Kept s0 (endPair s) := by
  grind [endPair, kept_failHandover, kept_unpair, kept_sendPairFail, kept_parts]

theorem kept_formIfReady {s0 : State} {s : State} (hkp : Kept s0 s) : Kept s0 (formIfReady s) := by
  grind [formIfReady, kept_formPair, kept_parts]

theorem kept_pairTry {s0 : State} {s : State} (hkp : Kept s0 s) : Kept s0 (pairTry s) := by
  grind [pairTry, kept_formIfReady, kept_send, kept_failPair, kept_raise, kept_parts]

theorem kept_execFabPair (e : Entry) {s : State} {t : State} (hx : (execFabPair e s) = .next t) : Kept s t := by
  have h0 := Kept.refl s
  grind [execFabPair, kept_takeUp, kept_finish, kept_endPair, kept_wait, kept_pairTry, kept_send, kept_parts]

theorem kept_startHandover {s0 : State} (now : Bool) (region : Option (BitVec 8 × Nat × Nat)) {s : State} (hkp : Kept s0 s) : Kept s0 (startHandover now region s) := by
  grind [startHandover, kept_beginHandover, kept_send, kept_parts]

theorem kept_execFabHandover (e : Entry) {s : State} {t : State} (hx : (execFabHandover e s) = .next t) : Kept s t := by
  have h0 := Kept.refl s
  grind [execFabHandover, kept_takeUp, kept_finish, kept_wait, kept_startHandover, kept_parts, kept_upd]

theorem kept_outOfPair {s0 : State} (p : Fin 8) (sp : Spore) {s : State} (hkp : Kept s0 s) : Kept s0 (outOfPair p sp s) := by
  grind [outOfPair, kept_nackSpore, kept_violation, kept_parts]

theorem kept_execPairReq (p : Fin 8) (sp : Spore) {s : State} {t : State} (hx : (execPairReq p sp s) = .next t) : Kept s t := by
  have h0 := Kept.refl s
  grind [execPairReq, kept_rxSpore, kept_outOfPair, kept_pairTry, kept_parts]

theorem kept_execPairAck (p : Fin 8) (sp : Spore) {s : State} {t : State} (hx : (execPairAck p sp s) = .next t) : Kept s t := by
  have h0 := Kept.refl s
  grind [execPairAck, kept_rxSpore, kept_formIfReady, kept_outOfPair, kept_parts]

theorem kept_execPairBeat (p : Fin 8) (sp : Spore) {s : State} {t : State} (hx : (execPairBeat p sp s) = .next t) : Kept s t := by
  have h0 := Kept.refl s
  grind [execPairBeat, kept_rxSpore, kept_outOfPair, kept_compareBeat, kept_handoverStep, kept_parts, kept_upd]

theorem kept_execPairFail (p : Fin 8) (sp : Spore) {s : State} {t : State} (hx : (execPairFail p sp s) = .next t) : Kept s t := by
  have h0 := Kept.refl s
  grind [execPairFail, kept_rxSpore, kept_outOfPair, kept_unpair, kept_failHandover, kept_partnerLost, kept_parts]

theorem kept_execHandoverReq (p : Fin 8) (sp : Spore) {s : State} {t : State} (hx : (execHandoverReq p sp s) = .next t) : Kept s t := by
  have h0 := Kept.refl s
  grind [execHandoverReq, kept_rxSpore, kept_outOfPair, kept_beginHandover, kept_parts]

theorem kept_execHandoverGo (p : Fin 8) (sp : Spore) {s : State} {t : State} (hx : (execHandoverGo p sp s) = .next t) : Kept s t := by
  have h0 := Kept.refl s
  grind [execHandoverGo, kept_rxSpore, kept_handoverStep, kept_setStep, kept_outOfPair, kept_parts]

theorem kept_execHandoverDone (p : Fin 8) (sp : Spore) {s : State} {t : State} (hx : (execHandoverDone p sp s) = .next t) : Kept s t := by
  have h0 := Kept.refl s
  grind [execHandoverDone, kept_rxSpore, kept_handoverGiven, kept_outOfPair, kept_parts, kept_upd]

theorem kept_execPairTimeout {s : State} {t : State} (hx : (execPairTimeout s) = .next t) : Kept s t := by
  have h0 := Kept.refl s
  grind [execPairTimeout, kept_failPair, kept_parts]

theorem kept_execPairBeatTimer {s : State} {t : State} (hx : (execPairBeatTimer s) = .next t) : Kept s t := by
  have h0 := Kept.refl s
  grind [execPairBeatTimer, kept_handoverStep, kept_sendBoth, kept_parts, kept_upd]

theorem kept_execPartnerBeatTimeout {s : State} {t : State} (hx : (execPartnerBeatTimeout s) = .next t) : Kept s t := by
  have h0 := Kept.refl s
  grind [execPartnerBeatTimeout, kept_partnerLost, kept_parts]

theorem kept_execTakeoverRecheck {s : State} {t : State} (hx : (execTakeoverRecheck s) = .next t) : Kept s t := by
  have h0 := Kept.refl s
  grind [execTakeoverRecheck, kept_beginTakeover, kept_parts]

theorem kept_execHandoverShadowTimeout {s : State} {t : State} (hx : (execHandoverShadowTimeout s) = .next t) : Kept s t := by
  have h0 := Kept.refl s
  grind [execHandoverShadowTimeout, kept_failHandover, kept_parts, kept_upd]

end Sys2Proof.Machine
end

