-- ==== Sys2Proof/Laws/Kept6.lean ====
section
/-! SUPPORT. What the functions of these files keep of a state (Laws/Kept): FabMsgs, TimeCmd, DiagCmd, HostWin, HbmCmd, PowerCmd. -/

namespace Sys2Proof.Machine

theorem kept_ackClient {s0 : State} (n : BitVec 12) {s : State} (hkp : Kept s0 s) : Kept s0 (ackClient n s) := by
  grind [ackClient, kept_send, kept_parts]

theorem kept_badLedgerAck {s0 : State} (p : Fin 8) (sp : Spore) {s : State} (hkp : Kept s0 s) : Kept s0 (badLedgerAck p sp s) := by
  grind [badLedgerAck, kept_nackSpore, kept_violation, kept_parts]

theorem kept_writeBuffer {s0 : State} (b : BufRef) (l : List Byte) {s : State} (hkp : Kept s0 s) : Kept s0 (writeBuffer b l s).2 := by
  grind [writeBuffer, kept_hbmWrite, kept_vwrite, kept_hostWrite, kept_parts]

theorem kept_writeBuffer_eq {s0 : State} (b : BufRef) (l : List Byte) {s : State} {v : Nat} {t : State} (hev : (writeBuffer b l s) = (v, t)) (h : Kept s0 s) : Kept s0 t := by
  have k := @kept_writeBuffer s0 b l s h
  rw [hev] at k
  exact k

theorem kept_giveHost {s0 : State} (p : Fin 8) (sp : Spore) {s : State} (hkp : Kept s0 s) : Kept s0 (giveHost p sp s) := by
  grind [giveHost, kept_nackSpore, kept_raise, kept_writeBuffer, kept_setPort, kept_pushEntry, kept_parts]

theorem kept_execNack (p : Fin 8) (sp : Spore) {s : State} {t : State} (hx : (execNack p sp s) = .next t) : Kept s t := by
  have h0 := Kept.refl s
  grind [execNack, kept_rxSpore, kept_activateTables, kept_witnessRefused, kept_offloadOver, kept_giveHost, kept_relayNacked, kept_parts]

theorem kept_takeRecs {s0 : State} (n : BitVec 12) (l : List WRec) {s : State} (hkp : Kept s0 s) : Kept s0 (takeRecs n l s) := by
  grind [takeRecs, kept_ackClient, kept_parts]

theorem kept_execLedgerRec (p : Fin 8) (sp : Spore) {s : State} {t : State} (hx : (execLedgerRec p sp s) = .next t) : Kept s t := by
  have h0 := Kept.refl s
  grind [execLedgerRec, kept_rxSpore, kept_takeRecs, kept_outOfPair, kept_parts]

theorem kept_witnessAck {s0 : State} (p : Fin 8) (sp : Spore) {s : State} (hkp : Kept s0 s) : Kept s0 (witnessAck p sp s) := by
  grind [witnessAck, kept_outOfPair, kept_badLedgerAck, kept_activateTables, kept_handoverStep, kept_ackUpTo, kept_ackMirror, kept_parts]

theorem kept_execLedgerAck (p : Fin 8) (sp : Spore) {s : State} {t : State} (hx : (execLedgerAck p sp s) = .next t) : Kept s t := by
  have h0 := Kept.refl s
  grind [execLedgerAck, kept_rxSpore, kept_badLedgerAck, kept_activateTables, kept_witnessCopied, kept_witnessAck, kept_parts]

theorem kept_execOffloadReq (p : Fin 8) (sp : Spore) {s : State} {t : State} (hx : (execOffloadReq p sp s) = .next t) : Kept s t := by
  have h0 := Kept.refl s
  grind [execOffloadReq, kept_rxSpore, kept_takeOffload, kept_parts]

theorem kept_execOffloadDone (p : Fin 8) (sp : Spore) {s : State} {t : State} (hx : (execOffloadDone p sp s) = .next t) : Kept s t := by
  have h0 := Kept.refl s
  grind [execOffloadDone, kept_rxSpore, kept_offloadOver, kept_nackSpore, kept_violation, kept_parts]

theorem kept_execSegments (p : Fin 8) (sp : Spore) {s : State} {t : State} (hx : (execSegments p sp s) = .next t) : Kept s t := by
  have h0 := Kept.refl s
  grind [execSegments, kept_rxSpore, kept_admitSegs, kept_parts]

theorem kept_execHost (p : Fin 8) (sp : Spore) {s : State} {t : State} (hx : (execHost p sp s) = .next t) : Kept s t := by
  have h0 := Kept.refl s
  grind [execHost, kept_rxSpore, kept_giveHost, kept_parts]

theorem kept_releaseTx {s0 : State} (p : Fin 8) (status : Nat) (reason : Nat) (e : BitVec 512) {s : State} (hkp : Kept s0 s) : Kept s0 (releaseTx p status reason e s) := by
  grind [releaseTx, kept_stopRing, kept_advance, kept_hostWrite, kept_parts]

theorem kept_txBytes {s0 : State} {s : State} (b : BufRef) (hkp : Kept s0 s) : Kept s0 (txBytes s b).2 := by
  grind [txBytes, kept_vread, kept_parts]

theorem kept_txBytes_eq {s0 : State} {s : State} (b : BufRef) {v : Except (Nat × Nat) (List Byte)} {t : State} (hev : (txBytes s b) = (v, t)) (h : Kept s0 s) : Kept s0 t := by
  have k := @kept_txBytes s0 s b h
  rw [hev] at k
  exact k

theorem kept_sendHost {s0 : State} (p : Fin 8) (e : BitVec 512) (dst : Nat) (l : List Byte) {s : State} (hkp : Kept s0 s) : Kept s0 (sendHost p e dst l s) := by
  grind [sendHost, kept_releaseTx, kept_send, kept_takeFree, kept_undeliverable, kept_parts]

theorem kept_execHostSporeSend (p : Fin 8) (entry : BitVec 512) {s : State} {t : State} (hx : (execHostSporeSend p entry s) = .next t) : Kept s t := by
  have h0 := Kept.refl s
  grind [execHostSporeSend, kept_releaseTx, kept_txBytes, kept_sendHost, kept_parts]

theorem kept_execRxBufferPost (p : Fin 8) (entry : BitVec 512) {s : State} {t : State} (hx : (execRxBufferPost p entry s) = .next t) : Kept s t := by
  have h0 := Kept.refl s
  grind [execRxBufferPost, kept_releaseTx, kept_setPort, kept_parts]

theorem kept_chooseMaster {s0 : State} {s : State} (hkp : Kept s0 s) : Kept s0 (chooseMaster s) := by
  grind [chooseMaster, kept_raise, kept_setBase, kept_parts]

theorem kept_setSourceFields {s0 : State} (b : Fin 4) (a : W128) {s : State} (hkp : Kept s0 s) : Kept s0 (setSourceFields b a s) := by
  unfold setSourceFields
  (repeat' split) <;> grind [kept_parts]

theorem kept_execTimeSetSource (e : Entry) {s : State} {t : State} (hx : (execTimeSetSource e s) = .next t) : Kept s t := by
  have h0 := Kept.refl s
  grind [execTimeSetSource, kept_takeUp, kept_finish, kept_applySource, kept_setSourceFields, kept_parts]

theorem kept_execTimeGet (e : Entry) {s : State} {t : State} (hx : (execTimeGet e s) = .next t) : Kept s t := by
  have h0 := Kept.refl s
  grind [execTimeGet, kept_takeUp, kept_finish, kept_parts]

theorem kept_setRate {s0 : State} (b : Fin 4) (r : Int) {s : State} (hkp : Kept s0 s) : Kept s0 (setRate b r s) := by
  grind [setRate, kept_deriveSt, kept_setBase, kept_stat, kept_parts]

theorem kept_stepBase {s0 : State} (b : Fin 4) (d : Int) {s : State} (hkp : Kept s0 s) : Kept s0 (stepBase b d s) := by
  grind [stepBase, kept_deriveSt, kept_raise, kept_setBase, kept_parts]

theorem kept_execTimeAdjust (e : Entry) {s : State} {t : State} (hx : (execTimeAdjust e s) = .next t) : Kept s t := by
  have h0 := Kept.refl s
  grind [execTimeAdjust, kept_takeUp, kept_finish, kept_setRate, kept_stepBase, kept_parts]

theorem kept_masterConflict {s0 : State} (m : BitVec 12) {s : State} (hkp : Kept s0 s) : Kept s0 (masterConflict m s) := by
  grind [masterConflict, kept_raise, kept_parts]

theorem kept_takeOffset {s0 : State} (b : Fin 4) (offset : Int) (delay : Int) (bound : Nat) (n : Nat) {s : State} (hkp : Kept s0 s) : Kept s0 (takeOffset b offset delay bound n s) := by
  grind [takeOffset, kept_setBase, kept_stepBase, kept_raise, kept_deriveSt, kept_parts]

theorem kept_followTime {s0 : State} (b : List Byte) (arrived : BitVec 48) {s : State} (hkp : Kept s0 s) : Kept s0 (followTime b arrived s) := by
  grind [followTime, kept_takeOffset, kept_parts]

theorem kept_execTime (p : Fin 8) (sp : Spore) {s : State} {t : State} (hx : (execTime p sp s) = .next t) : Kept s t := by
  have h0 := Kept.refl s
  grind [execTime, kept_rxSpore, kept_masterConflict, kept_followTime, kept_parts]

theorem kept_sendTime {s0 : State} (p : Fin 8) {s : State} (hkp : Kept s0 s) : Kept s0 (sendTime p s) := by
  grind [sendTime, kept_originateOn, kept_parts]

theorem kept_execTimeSporeTimer {s : State} {t : State} (hx : (execTimeSporeTimer s) = .next t) : Kept s t := by
  have h0 := Kept.refl s
  unfold execTimeSporeTimer at hx
  (repeat' split at hx) <;> grind [kept_sendTime, kept_parts, kept_foldl]

theorem kept_execTimeSourceTimeout (base : Fin 4) {s : State} {t : State} (hx : (execTimeSourceTimeout base s) = .next t) : Kept s t := by
  have h0 := Kept.refl s
  grind [execTimeSourceTimeout, kept_sourceLost, kept_parts]

theorem kept_execPtpAnnounce (m : PtpMsg) {s : State} {t : State} (hx : (execPtpAnnounce m s) = .next t) : Kept s t := by
  have h0 := Kept.refl s
  grind [execPtpAnnounce, kept_chooseMaster, kept_stat, kept_parts]

theorem kept_syncTime {s0 : State} (origin : Int) (received : Int) {s : State} (hkp : Kept s0 s) : Kept s0 (syncTime origin received s) := by
  unfold syncTime
  (repeat' split) <;> grind [kept_takeOffset, kept_emit, kept_stat, kept_parts, kept_upd]

theorem kept_execPtpSync (m : PtpMsg) {s : State} {t : State} (hx : (execPtpSync m s) = .next t) : Kept s t := by
  have h0 := Kept.refl s
  grind [execPtpSync, kept_stat, kept_syncTime, kept_parts, kept_upd]

theorem kept_execPtpFollowUp (m : PtpMsg) {s : State} {t : State} (hx : (execPtpFollowUp m s) = .next t) : Kept s t := by
  have h0 := Kept.refl s
  grind [execPtpFollowUp, kept_stat, kept_syncTime, kept_parts]

theorem kept_execPtpDelayResp (m : PtpMsg) {s : State} {t : State} (hx : (execPtpDelayResp m s) = .next t) : Kept s t := by
  have h0 := Kept.refl s
  grind [execPtpDelayResp, kept_stat, kept_setBase, kept_parts, kept_upd]

theorem kept_execPtpMasterTimeout {s : State} {t : State} (hx : (execPtpMasterTimeout s) = .next t) : Kept s t := by
  have h0 := Kept.refl s
  grind [execPtpMasterTimeout, kept_sourceLost, kept_parts]

theorem kept_tick {s0 : State} {s : State} (hkp : Kept s0 s) : Kept s0 (tick s) := by
  grind [tick, kept_parts]

theorem kept_finishOpen {s0 : State} (w : Waiting) (status : Nat) {s : State} (hkp : Kept s0 s) : Kept s0 (finishOpen w status s) := by
  grind [finishOpen, kept_takeFree, kept_finish, kept_parts]

theorem kept_loopDown {s0 : State} (path : Nat) (unit : Nat) {s : State} (hkp : Kept s0 s) : Kept s0 (loopDown path unit s) := by
  grind [loopDown, kept_portGone, kept_setPort, kept_linkFails, kept_parts]

theorem kept_execDiagLoopback (e : Entry) {s : State} {t : State} (hx : (execDiagLoopback e s) = .next t) : Kept s t := by
  have h0 := Kept.refl s
  grind [execDiagLoopback, kept_takeUp, kept_finishOpen, kept_finish, kept_loopDown, kept_wait, kept_parts, kept_upd]

theorem kept_place {s0 : State} (fault : Nat) (count : Nat) (param : BitVec 32) {s : State} (hkp : Kept s0 s) : Kept s0 (place fault count param s) := by
  unfold place
  (repeat' split) <;> grind [kept_laneLost, kept_parts]

theorem kept_execDiagInject (e : Entry) {s : State} {t : State} (hx : (execDiagInject e s) = .next t) : Kept s t := by
  have h0 := Kept.refl s
  grind [execDiagInject, kept_takeUp, kept_finish, kept_finishOpen, kept_place, kept_raise, kept_parts]

theorem kept_execDiagCounters (e : Entry) {s : State} {t : State} (hx : (execDiagCounters e s) = .next t) : Kept s t := by
  have h0 := Kept.refl s
  grind [execDiagCounters, kept_takeUp, kept_finishOpen, kept_mapAperture, kept_finish, kept_parts]

theorem kept_execLoopbackDurationEnd (n : BitVec 64) (errors : BitVec 64) (losses : BitVec 32) {s : State} {t : State} (hx : (execLoopbackDurationEnd n errors losses s) = .next t) : Kept s t := by
  have h0 := Kept.refl s
  grind [execLoopbackDurationEnd, kept_settle, kept_parts]

theorem kept_execAckWithholdEnd {s : State} {t : State} (hx : (execAckWithholdEnd s) = .next t) : Kept s t := by
  have h0 := Kept.refl s
  grind [execAckWithholdEnd, kept_parts]

theorem kept_flushKept {s0 : State} (m : Nat) (i : Fin 64) (a2 : List (Nat × Completion)) {a3 : State} (hkp : Kept s0 a3) : Kept s0 (flushKept m i a2 a3) := by
  fun_induction flushKept m i a2 a3 <;> grind [kept_pushEntry, kept_parts]

theorem kept_ringSpace {s0 : State} (i : Fin 64) {s : State} (hkp : Kept s0 s) : Kept s0 (ringSpace i s) := by
  grind [ringSpace, kept_serveResults, kept_parts]

theorem kept_ringUp {s0 : State} (i : Fin 64) {s : State} (hkp : Kept s0 s) : Kept s0 (ringUp i s) := by
  grind [ringUp, kept_flushKept, kept_setCh, kept_ringSpace, kept_parts]

theorem kept_activate {s0 : State} (i : Fin 64) (cfg : BitVec 64) {s : State} (hkp : Kept s0 s) : Kept s0 (activate i cfg s) := by
  grind [activate, kept_ringUp, kept_writeShadow, kept_setRing, kept_parts]

theorem kept_doorbell {s0 : State} (i : Fin 64) (new : BitVec 32) {s : State} (hkp : Kept s0 s) : Kept s0 (doorbell i new s) := by
  grind [doorbell, kept_writeRefused, kept_ringSpace, kept_setRing, kept_raise, kept_parts]

theorem kept_execDoorbellWrite (i : Fin 64) (v : BitVec 64) {s : State} {t : State} (hx : (execDoorbellWrite i v s) = .next t) : Kept s t := by
  have h0 := Kept.refl s
  grind [execDoorbellWrite, kept_doorbell, kept_parts]

theorem kept_stopping {s0 : State} (i : Fin 64) (cfg : BitVec 64) {s : State} (hkp : Kept s0 s) : Kept s0 (stopping i cfg s) := by
  grind [stopping, kept_setRing, kept_stopRing, kept_parts]

theorem kept_writeRingCfg {s0 : State} (i : Fin 64) (en : Bool) (v : BitVec 64) {s : State} (hkp : Kept s0 s) : Kept s0 (writeRingCfg i en v s) := by
  grind [writeRingCfg, kept_activate, kept_setRing, kept_writeRefused, kept_stopping, kept_parts]

theorem kept_execRingEnable (i : Fin 64) (v : BitVec 64) {s : State} {t : State} (hx : (execRingEnable i v s) = .next t) : Kept s t := by
  have h0 := Kept.refl s
  grind [execRingEnable, kept_writeRingCfg, kept_parts]

theorem kept_execRingDisable (i : Fin 64) (v : BitVec 64) {s : State} {t : State} (hx : (execRingDisable i v s) = .next t) : Kept s t := by
  have h0 := Kept.refl s
  grind [execRingDisable, kept_writeRingCfg, kept_parts]

theorem kept_writeWinStatus {s0 : State} (v : BitVec 32) {s : State} (hkp : Kept s0 s) : Kept s0 (writeWinStatus v s) := by
  grind [writeWinStatus, kept_parts]

theorem kept_execWinStatusClear (v : BitVec 32) {s : State} {t : State} (hx : (execWinStatusClear v s) = .next t) : Kept s t := by
  have h0 := Kept.refl s
  grind [execWinStatusClear, kept_writeWinStatus, kept_parts]

theorem kept_writeRingStatus {s0 : State} (i : Fin 64) (v : BitVec 32) {s : State} (hkp : Kept s0 s) : Kept s0 (writeRingStatus i v s) := by
  grind [writeRingStatus, kept_setRing, kept_parts]

theorem kept_execRingStatusClear (i : Fin 64) (v : BitVec 32) {s : State} {t : State} (hx : (execRingStatusClear i v s) = .next t) : Kept s t := by
  have h0 := Kept.refl s
  grind [execRingStatusClear, kept_writeRingStatus, kept_parts]

theorem kept_writeWinStage {s0 : State} (v : BitVec 32) {s : State} (hkp : Kept s0 s) : Kept s0 (writeWinStage v s) := by
  grind [writeWinStage, kept_writeRefused, kept_parts]

theorem kept_execWinStageWrite (v : BitVec 32) {s : State} {t : State} (hx : (execWinStageWrite v s) = .next t) : Kept s t := by
  have h0 := Kept.refl s
  grind [execWinStageWrite, kept_writeWinStage, kept_parts]

theorem kept_reservedWrite {s0 : State} (off : Nat) (size : Nat) {s : State} (hkp : Kept s0 s) : Kept s0 (reservedWrite off size s) := by
  grind [reservedWrite, kept_raiseLimited, kept_parts]

theorem kept_writeRingAddr {s0 : State} (i : Fin 64) (shadow : Bool) (v : BitVec 64) {s : State} (hkp : Kept s0 s) : Kept s0 (writeRingAddr i shadow v s) := by
  grind [writeRingAddr, kept_setRing, kept_writeRefused, kept_parts]

theorem kept_writeRingTable {s0 : State} (i : Fin 64) (k : Nat) (v : BitVec 64) {s : State} (hkp : Kept s0 s) : Kept s0 (writeRingTable i k v s) := by
  unfold writeRingTable
  (repeat' split) <;> grind [kept_writeRingAddr, kept_writeRingCfg, kept_writeRingStatus, kept_parts]

theorem kept_sendPending {s0 : State} (v : Fin 64) {s : State} (hkp : Kept s0 s) : Kept s0 (sendPending v s) := by
  grind [sendPending, kept_sendMsix, kept_parts]

theorem kept_writeMsix {s0 : State} (v : Fin 64) (k : Nat) (x : BitVec 32) {s : State} (hkp : Kept s0 s) : Kept s0 (writeMsix v k x s) := by
  grind [writeMsix, kept_sendPending, kept_parts]

theorem kept_writeReg {s0 : State} (off : Nat) (v : BitVec 64) {s : State} (hkp : Kept s0 s) : Kept s0 (writeReg off v s) := by
  grind [writeReg, kept_writeWinStatus, kept_writeWinStage, kept_writeRingTable, kept_doorbell, kept_writeMsix, kept_reservedWrite, kept_parts]

theorem kept_execRegisterWrite (off : BitVec 24) (wide : Bool) (v : BitVec 64) {s : State} {t : State} (hx : (execRegisterWrite off wide v s) = .next t) : Kept s t := by
  have h0 := Kept.refl s
  grind [execRegisterWrite, kept_reservedWrite, kept_writeReg, kept_parts]

theorem kept_execWinReservedWrite (off : BitVec 24) (size : Nat) {s : State} {t : State} (hx : (execWinReservedWrite off size s) = .next t) : Kept s t := by
  have h0 := Kept.refl s
  grind [execWinReservedWrite, kept_reservedWrite, kept_parts]

theorem kept_execBar4Access (addr : BitVec 28) (write : Bool) (len : Nat) (data : List Byte) {s : State} {t : State} (hx : (execBar4Access addr write len data s) = .next t) : Kept s t := by
  have h0 := Kept.refl s
  grind [execBar4Access, kept_raise, kept_emit, kept_hbmWrite, kept_parts]

theorem kept_execMsixVectorUnmask (v : Fin 64) {s : State} {t : State} (hx : (execMsixVectorUnmask v s) = .next t) : Kept s t := by
  have h0 := Kept.refl s
  grind [execMsixVectorUnmask, kept_sendPending, kept_parts]

theorem kept_execMsixCoalesceTimeout (i : Fin 64) {s : State} {t : State} (hx : (execMsixCoalesceTimeout i s) = .next t) : Kept s t := by
  have h0 := Kept.refl s
  grind [execMsixCoalesceTimeout, kept_sendMsix, kept_setRing, kept_parts]

theorem kept_execRingBusError (i : Fin 64) (addr : BitVec 64) {s : State} {t : State} (hx : (execRingBusError i addr s) = .next t) : Kept s t := by
  have h0 := Kept.refl s
  grind [execRingBusError, kept_setFlag, kept_raise, kept_setRing, kept_parts]

theorem kept_resetFunction {s0 : State} {s : State} (hkp : Kept s0 s) : Kept s0 (resetFunction s) := by
  grind [resetFunction, kept_parts]

theorem kept_interruptDesc {s0 : State} (c : Nat) (d : Desc) {s : State} (hkp : Kept s0 s) : Kept s0 (interruptDesc c d s) := by
  grind [interruptDesc, kept_raise, kept_parts]

theorem kept_interruptDescs {s0 : State} (c : Nat) (a1 : List Desc) {a2 : State} (hkp : Kept s0 a2) : Kept s0 (interruptDescs c a1 a2) := by
  fun_induction interruptDescs c a1 a2 <;> grind [kept_interruptDesc, kept_parts]

theorem kept_stopChannels {s0 : State} (a0 : List Nat) {a1 : State} (hkp : Kept s0 a1) : Kept s0 (stopChannels a0 a1) := by
  fun_induction stopChannels a0 a1 <;> grind [kept_interruptDescs, kept_parts]

theorem kept_stopDma {s0 : State} {s : State} (hkp : Kept s0 s) : Kept s0 (stopDma s) := by
  grind [stopDma, kept_stopChannels, kept_parts]

theorem kept_execFunctionLevelReset {s : State} {t : State} (hx : (execFunctionLevelReset s) = .next t) : Kept s t := by
  have h0 := Kept.refl s
  grind [execFunctionLevelReset, kept_resetOccurred, kept_recordReset, kept_stat, kept_resetFunction, kept_stopDma, kept_parts]

theorem kept_execPerst {s : State} {t : State} (hx : (execPerst s) = .next t) : Kept s t := by
  have h0 := Kept.refl s
  grind [execPerst, kept_stopDma, kept_resetOccurred, kept_recordReset, kept_parts, kept_upd]

theorem kept_setPc {s0 : State} (p : Fin 64) (x : PseudoCh) {s : State} (hkp : Kept s0 s) : Kept s0 (setPc p x s) := by
  grind [setPc, kept_parts]

theorem kept_activateRow {s0 : State} (p : Fin 64) (r : Nat) {s : State} (hkp : Kept s0 s) : Kept s0 (activateRow p r s) := by
  grind [activateRow, kept_stat, kept_setPc, kept_statAdd, kept_parts]

theorem kept_corrected {s0 : State} (p : Fin 64) (kind : Fin 6) (rec : BitVec 256) {s : State} (hkp : Kept s0 s) : Kept s0 (corrected p kind rec s) := by
  grind [corrected, kept_raiseLimited, kept_stat, kept_parts]

theorem kept_countKind {s0 : State} (kind : Fin 6) {s : State} (hkp : Kept s0 s) : Kept s0 (countKind kind s) := by
  grind [countKind, kept_parts]

theorem kept_uncorrectable {s0 : State} (rec : BitVec 256) {s : State} (hkp : Kept s0 s) : Kept s0 (uncorrectable rec s) := by
  grind [uncorrectable, kept_enterHold, kept_raise, kept_parts]

theorem kept_enterError {s0 : State} (off : Nat) (kind : Fin 6) (sev : Nat) (syndrome : Nat) (req : Nat) (rmw : Bool) {s : State} (hkp : Kept s0 s) : Kept s0 (enterError off kind sev syndrome req rmw s) := by
  grind [enterError, kept_countKind, kept_corrected, kept_uncorrectable, kept_parts]

theorem kept_execHbmRefresh (a0 : Fin 64) {s : State} {t : State} (hx : (execHbmRefresh a0 s) = .next t) : Kept s t := by
  have h0 := Kept.refl s
  grind [execHbmRefresh, kept_parts]

theorem kept_markDue {s0 : State} {s : State} (hkp : Kept s0 s) : Kept s0 (markDue s) := by
  grind [markDue, kept_parts]

theorem kept_stackTemp {s0 : State} (k : Fin 2) (t : BitVec 16) {s : State} (hkp : Kept s0 s) : Kept s0 (stackTemp k t s) := by
  grind [stackTemp, kept_raise, kept_parts]

theorem kept_execHbmTempRead (t0 : BitVec 16) (t1 : BitVec 16) {s : State} {t : State} (hx : (execHbmTempRead t0 t1 s) = .next t) : Kept s t := by
  have h0 := Kept.refl s
  grind [execHbmTempRead, kept_markDue, kept_stackTemp, kept_parts]

theorem kept_readKind {s0 : State} (kind : Fin 6) {s : State} (hkp : Kept s0 s) : Kept s0 (readKind kind s).2 := by
  grind [readKind, kept_injected, kept_parts]

theorem kept_readKind_eq {s0 : State} (kind : Fin 6) {s : State} {v : Fin 6} {t : State} (hev : (readKind kind s) = (v, t)) (h : Kept s0 s) : Kept s0 t := by
  have k := @kept_readKind s0 kind s h
  rw [hev] at k
  exact k

theorem kept_execHbmReadComplete (off : BitVec 36) (kind : Fin 6) (sev : BitVec 3) (syndrome : BitVec 9) (req : BitVec 8) (rmw : Bool) {s : State} {t : State} (hx : (execHbmReadComplete off kind sev syndrome req rmw s) = .next t) : Kept s t := by
  have h0 := Kept.refl s
  grind [execHbmReadComplete, kept_activateRow, kept_stat, kept_readKind, kept_enterError, kept_parts]

theorem kept_execHbmRetrainSliceStart (p : Fin 64) {s : State} {t : State} (hx : (execHbmRetrainSliceStart p s) = .next t) : Kept s t := by
  have h0 := Kept.refl s
  grind [execHbmRetrainSliceStart, kept_setPc, kept_parts]

theorem kept_execHbmRetrainSliceEnd (p : Fin 64) (eye : BitVec 16) {s : State} {t : State} (hx : (execHbmRetrainSliceEnd p eye s) = .next t) : Kept s t := by
  have h0 := Kept.refl s
  grind [execHbmRetrainSliceEnd, kept_stat, kept_setPc, kept_raise, kept_parts]

theorem kept_execHbmRetrainForced (p : Fin 64) {s : State} {t : State} (hx : (execHbmRetrainForced p s) = .next t) : Kept s t := by
  have h0 := Kept.refl s
  grind [execHbmRetrainForced, kept_raise, kept_stat, kept_setPc, kept_parts]

theorem kept_endHeldReset {s0 : State} (b : BootIn) {s : State} (hkp : Kept s0 s) : Kept s0 (endHeldReset b s) := by
  grind [endHeldReset, kept_startUp, kept_raise, kept_parts]

theorem kept_execModeChangeDone (failed : Bool) (bad : BitVec 6) (tUs : BitVec 32) {s : State} {t : State} (hx : (execModeChangeDone failed bad tUs s) = .next t) : Kept s t := by
  have h0 := Kept.refl s
  grind [execModeChangeDone, kept_failMode, kept_completeChange, kept_parts]

theorem kept_execHeartbeatTick {s : State} {t : State} (hx : (execHeartbeatTick s) = .next t) : Kept s t := by
  have h0 := Kept.refl s
  grind [execHeartbeatTick, kept_parts]

theorem kept_railDrops {s0 : State} (rail : Fin 9) (mv : BitVec 16) {s : State} (hkp : Kept s0 s) : Kept s0 (railDrops rail mv s) := by
  grind [railDrops, kept_parts]

theorem kept_failLowSupply {s0 : State} {s : State} (hkp : Kept s0 s) : Kept s0 (failLowSupply s) := by
  grind [failLowSupply, kept_failMode, kept_parts]

theorem kept_railWarns {s0 : State} (rail : Fin 9) (mv : BitVec 16) {s : State} (hkp : Kept s0 s) : Kept s0 (railWarns rail mv s) := by
  unfold railWarns
  have h1 := kept_railDrops rail mv hkp
  have h2 := kept_setSmb 1 (show Kept s0 { railDrops rail mv s with
    pm := { (railDrops rail mv s).pm with warnings := (railDrops rail mv s).pm.warnings + 1 } } from ⟨h1.1, h1.2, h1.3, h1.4, h1.5, h1.6⟩)
  dsimp only
  split
  · exact h2
  · exact kept_failLowSupply (kept_abortCal (kept_boundaryStop _ (kept_setFlag _ (kept_raise _ _ _ h2))))

theorem kept_execSupplyWarning (rail : Fin 9) (mv : BitVec 16) {s : State} {t : State} (hx : (execSupplyWarning rail mv s) = .next t) : Kept s t := by
  have h0 := Kept.refl s
  grind [execSupplyWarning, kept_railDrops, kept_railWarns, kept_parts]

theorem kept_recoverRails {s0 : State} {s : State} (hkp : Kept s0 s) : Kept s0 (recoverRails s) := by
  grind [recoverRails, kept_parts]

theorem kept_execSupplyRecovered (b : BootIn) {s : State} {t : State} (hx : (execSupplyRecovered b s) = .next t) : Kept s t := by
  have h0 := Kept.refl s
  grind [execSupplyRecovered, kept_recoverRails, kept_raise, kept_endHeldReset, kept_parts]

theorem kept_execRailResetTrip (rail : Fin 9) (mv : BitVec 16) {s : State} {t : State} (hx : (execRailResetTrip rail mv s) = .next t) : Kept s t := by
  have h0 := Kept.refl s
  grind [execRailResetTrip, kept_railDrops, kept_holdReset, kept_parts, kept_upd]

theorem kept_execThermalTrip {s : State} {t : State} (hx : (execThermalTrip s) = .next t) : Kept s t := by
  have h0 := Kept.refl s
  grind [execThermalTrip, kept_holdReset, kept_parts, kept_upd]

theorem kept_execWatchdogReset {s : State} {t : State} (hx : (execWatchdogReset s) = .next t) : Kept s t := by
  have h0 := Kept.refl s
  grind [execWatchdogReset, kept_resetFirmware, kept_raise, kept_parts, kept_upd]

theorem kept_execPowerOnReset (testEn : Bool) (b : BootIn) {s : State} {t : State} (hx : (execPowerOnReset testEn b s) = .next t) : Kept s t := by
  have h0 := Kept.refl s
  grind [execPowerOnReset, kept_startUp, kept_recordReset, kept_parts]

theorem kept_execTableArrayUncorrectable (a : Fin 4) {s : State} {t : State} (hx : (execTableArrayUncorrectable a s) = .next t) : Kept s t := by
  have h0 := Kept.refl s
  grind [execTableArrayUncorrectable, kept_enterHold, kept_parts]

theorem kept_execDomainPowerLoss (d : Fin 12) {s : State} {t : State} (hx : (execDomainPowerLoss d s) = .next t) : Kept s t := by
  have h0 := Kept.refl s
  grind [execDomainPowerLoss, kept_enterHold, kept_parts]

theorem kept_execResetNAsserted {s : State} {t : State} (hx : (execResetNAsserted s) = .next t) : Kept s t := by
  have h0 := Kept.refl s
  grind [execResetNAsserted, kept_holdReset, kept_parts, kept_upd]

theorem kept_execCommandedResetStart (b : BootIn) {s : State} {t : State} (hx : (execCommandedResetStart b s) = .next t) : Kept s t := by
  have h0 := Kept.refl s
  grind [execCommandedResetStart, kept_resetFirmware, kept_resetDatapath, kept_resetDevice, kept_parts]

theorem kept_execThermalResetRelease (b : BootIn) {s : State} {t : State} (hx : (execThermalResetRelease b s) = .next t) : Kept s t := by
  have h0 := Kept.refl s
  grind [execThermalResetRelease, kept_endHeldReset, kept_parts]

end Sys2Proof.Machine
end

