-- ==== Sys2Proof/Laws/Kept7.lean ====
section
/-! SUPPORT. What the functions of these files keep of a state (Laws/Kept): CalCmd, Track, TrackCmd, ScanCmd, KeeperCmd, UpdCmd. -/

namespace Sys2Proof.Machine

theorem kept_acceptTarget {s0 : State} (l : List CalMeas) (target : Nat) {s : State} (hkp : Kept s0 s) : Kept s0 (acceptTarget l target s) := by
  grind [acceptTarget, kept_parts]

theorem kept_closeRun {s0 : State} (l : List CalMeas) (acc : Nat) (bad : Nat) {s : State} (hkp : Kept s0 s) : Kept s0 (closeRun l acc bad s) := by
  grind [closeRun, kept_raise, kept_showDacs, kept_parts]

theorem kept_execCalRun (e : Entry) {s : State} {t : State} (hx : (execCalRun e s) = .next t) : Kept s t := by
  have h0 := Kept.refl s
  grind [execCalRun, kept_takeUp, kept_finish, kept_wait, kept_parts]

theorem kept_execCalStatus (e : Entry) {s : State} {t : State} (hx : (execCalStatus e s) = .next t) : Kept s t := by
  have h0 := Kept.refl s
  grind [execCalStatus, kept_takeUp, kept_finish, kept_parts]

theorem kept_execCalSetLimits (e : Entry) {s : State} {t : State} (hx : (execCalSetLimits e s) = .next t) : Kept s t := by
  have h0 := Kept.refl s
  grind [execCalSetLimits, kept_takeUp, kept_readBuffer, kept_finish, kept_raise, → kept_readBuffer_eq, kept_parts]

theorem kept_zeroDacs {s0 : State} {s : State} (hkp : Kept s0 s) : Kept s0 (zeroDacs s) := by
  grind [zeroDacs, kept_emit, kept_parts, kept_foldl]

theorem kept_execCalRunStart (na : Nat) {s : State} {t : State} (hx : (execCalRunStart na s) = .next t) : Kept s t := by
  have h0 := Kept.refl s
  grind [execCalRunStart, kept_zeroDacs, kept_raise, kept_parts]

theorem kept_settleRun {s0 : State} (item : Option (BitVec 8 × BitVec 64)) (bad : Nat) {s : State} (hkp : Kept s0 s) : Kept s0 (settleRun item bad s) := by
  unfold settleRun
  (repeat' split) <;> grind [kept_activateTables, kept_doneItem, kept_failItem, kept_settle, kept_parts]

theorem kept_raiseTarget {s0 : State} (target : Nat) (f : CalFail) {s : State} (hkp : Kept s0 s) : Kept s0 (raiseTarget target f s) := by
  grind [raiseTarget, kept_raise, kept_parts]

theorem kept_judgeTargets {s0 : State} (l : List CalMeas) (ts : List Nat) (s : State) (acc bad : Nat) (hkp : Kept s0 s) :
    Kept s0 (judgeTargets l ts (s, acc, bad)).1 := by
  induction ts generalizing s acc bad with
  | nil => unfold judgeTargets; exact hkp
  | cons t ts ih =>
    unfold judgeTargets
    split
    · exact ih s acc bad hkp
    · cases targetFail s l t with
      | some f => exact ih _ _ _ (kept_raiseTarget _ _ hkp)
      | none => exact ih _ _ _ (kept_acceptTarget _ _ hkp)

theorem kept_execCalDone (l : List CalMeas) {s : State} {t : State} (hx : (execCalDone l s) = .next t) : Kept s t := by
  unfold execCalDone at hx
  simp only [Host.Outcome.next.injEq] at hx
  subst hx
  split
  · exact Kept.refl s
  · exact kept_settleRun _ _ (kept_closeRun _ _ _ (kept_judgeTargets _ _ _ _ _ (Kept.refl s)))

theorem kept_execMonitorAdcSample (ch : Fin 8) (rawCode : BitVec 16) {s : State} {t : State} (hx : (execMonitorAdcSample ch rawCode s) = .next t) : Kept s t := by
  have h0 := Kept.refl s
  grind [execMonitorAdcSample, kept_parts]

theorem kept_setStage {s0 : State} (i : Fin 16) (st : Stage) {s : State} (hkp : Kept s0 s) : Kept s0 (setStage i st s) := by
  grind [setStage, kept_stat, kept_raise, kept_parts]

theorem kept_runSection {s0 : State} (bank : List Byte) (i : Fin 16) (x : Dy) {s : State} (hkp : Kept s0 s) : Kept s0 (runSection bank i x s).2 := by
  grind [runSection, kept_setStage, kept_parts]

theorem kept_runSection_eq {s0 : State} (bank : List Byte) (i : Fin 16) (x : Dy) {s : State} {v : Dy} {t : State} (hev : (runSection bank i x s) = (v, t)) (h : Kept s0 s) : Kept s0 t := by
  have k := @kept_runSection s0 bank i x s h
  rw [hev] at k
  exact k

theorem kept_runChain {s0 : State} (bank : List Byte) (i : Nat) (x : Dy) {s : State} (hkp : Kept s0 s) : Kept s0 (runChain bank i x s).2 := by
  grind [runChain, kept_runSection, kept_parts]

theorem kept_runChain_eq {s0 : State} (bank : List Byte) (i : Nat) (x : Dy) {s : State} {v : Dy} {t : State} (hev : (runChain bank i x s) = (v, t)) (h : Kept s0 s) : Kept s0 t := by
  have k := @kept_runChain s0 bank i x s h
  rw [hev] at k
  exact k

theorem kept_swapBank {s0 : State} (b : Nat) {s : State} (hkp : Kept s0 s) : Kept s0 (swapBank b s) := by
  grind [swapBank, kept_raise, kept_stat, kept_settle, kept_parts]

theorem kept_swapNow {s0 : State} {s : State} (hkp : Kept s0 s) : Kept s0 (swapNow s) := by
  grind [swapNow, kept_swapBank, kept_parts]

theorem kept_integrate {s0 : State} (bank : List Byte) (ef : Dy) {s : State} (hkp : Kept s0 s) : Kept s0 (integrate bank ef s) := by
  grind [integrate, kept_setStage, kept_parts]

theorem kept_armSample {s0 : State} (c : Fin 4) {s : State} (hkp : Kept s0 s) : Kept s0 (armSample c s) := by
  grind [armSample, kept_parts]

theorem kept_armTracking {s0 : State} {s : State} (hkp : Kept s0 s) : Kept s0 (armTracking s) := by
  grind [armTracking, kept_parts]

theorem kept_setChan {s0 : State} (c : Fin 4) (x : Channel) {s : State} (hkp : Kept s0 s) : Kept s0 (setChan c x s) := by
  grind [setChan, kept_parts]

theorem kept_tripHome {s0 : State} (reason : Nat) (c : Fin 4) {s : State} (hkp : Kept s0 s) : Kept s0 (tripHome reason c s) := by
  grind [tripHome, kept_abortHoming, kept_loseHome, kept_parts]

theorem kept_lose {s0 : State} (reason : Nat) (c : Fin 4) {s : State} (hkp : Kept s0 s) : Kept s0 (lose reason c s) := by
  grind [lose, kept_raise, kept_stat, kept_parts]

theorem kept_trip {s0 : State} (reason : Nat) (c : Fin 4) {s : State} (hkp : Kept s0 s) : Kept s0 (trip reason c s) := by
  grind [trip, kept_tripHome, kept_lose, kept_rampStop, kept_stopStripe, kept_parts]

theorem kept_inputFault {s0 : State} (reason : Nat) (c : Fin 4) {s : State} (hkp : Kept s0 s) : Kept s0 (inputFault reason c s) := by
  grind [inputFault, kept_trip, kept_parts]

theorem kept_badFrame {s0 : State} (c : Fin 4) (why : Nat) {s : State} (hkp : Kept s0 s) : Kept s0 (badFrame c why s) := by
  grind [badFrame, kept_stat, kept_setChan, kept_inputFault, kept_parts]

theorem kept_clampDac {s0 : State} (d : Fin 4) {s : State} (hkp : Kept s0 s) : Kept s0 (clampDac d s) := by
  grind [clampDac, kept_stat, kept_raise, kept_parts, kept_upd]

theorem kept_countSample {s0 : State} {s : State} (hkp : Kept s0 s) : Kept s0 (countSample s) := by
  grind [countSample, kept_stat, kept_parts, kept_upd]

theorem kept_openSource {s0 : State} {s : State} (hkp : Kept s0 s) : Kept s0 (openSource s).2 := by
  grind [openSource, kept_takeFree, kept_parts]

theorem kept_openSource_eq {s0 : State} {s : State} {v : Dy} {t : State} (hev : (openSource s) = (v, t)) (h : Kept s0 s) : Kept s0 t := by
  have k := @kept_openSource s0 s h
  rw [hev] at k
  exact k

theorem kept_dacSource {s0 : State} (d : Fin 4) {s : State} (hkp : Kept s0 s) : Kept s0 (dacSource d s).2 := by
  grind [dacSource, kept_openSource, kept_parts]

theorem kept_dacSource_eq {s0 : State} (d : Fin 4) {s : State} {v : Dy} {t : State} (hev : (dacSource d s) = (v, t)) (h : Kept s0 s) : Kept s0 t := by
  have k := @kept_dacSource s0 d s h
  rw [hev] at k
  exact k

theorem kept_dacSample {s0 : State} (d : Fin 4) {s : State} (hkp : Kept s0 s) : Kept s0 (dacSample d s) := by
  grind [dacSample, kept_setDac, kept_dacSource, kept_runChain, kept_clampDac, kept_parts]

theorem kept_dacSamples {s0 : State} {s : State} (hkp : Kept s0 s) : Kept s0 (dacSamples s) := by
  grind [dacSamples, kept_dacSample, kept_parkDacs, kept_parts]

theorem kept_swapOrDone {s0 : State} (w : Waiting) (bank : Nat) (swap : Bool) {s : State} (hkp : Kept s0 s) : Kept s0 (swapOrDone w bank swap s) := by
  grind [swapOrDone, kept_wait, kept_finish, kept_parts]

theorem kept_loadBank {s0 : State} (w : Waiting) (e : Entry) (bank : Fin 2) (swap : Bool) {s : State} (hkp : Kept s0 s) : Kept s0 (loadBank w e bank swap s) := by
  grind [loadBank, kept_readBuffer, kept_finish, kept_raise, kept_swapOrDone, → kept_readBuffer_eq, kept_parts]

theorem kept_execTrackSetCoeffs (e : Entry) {s : State} {t : State} (hx : (execTrackSetCoeffs e s) = .next t) : Kept s t := by
  have h0 := Kept.refl s
  grind [execTrackSetCoeffs, kept_takeUp, kept_finish, kept_swapOrDone, kept_loadBank, kept_parts]

theorem kept_execTrackArm (e : Entry) {s : State} {t : State} (hx : (execTrackArm e s) = .next t) : Kept s t := by
  have h0 := Kept.refl s
  grind [execTrackArm, kept_takeUp, kept_finish, kept_trackOff, kept_armTracking, kept_parts]

theorem kept_takeFrame {s0 : State} {s : State} (hkp : Kept s0 s) : Kept s0 (takeFrame s) := by
  grind [takeFrame, kept_parts]

theorem kept_feStep {s0 : State} {s : State} (hkp : Kept s0 s) : Kept s0 (feStep s) := by
  grind [feStep, kept_parts]

theorem kept_jitter {s0 : State} (c : Fin 4) {s : State} (hkp : Kept s0 s) : Kept s0 (jitter c s) := by
  grind [jitter, kept_stat, kept_parts, kept_upd]

theorem kept_lockSample {s0 : State} {s : State} (hkp : Kept s0 s) : Kept s0 (lockSample s) := by
  grind [lockSample, kept_raise, kept_parts]

theorem kept_missApproach {s0 : State} (phn : Int) {s : State} (hkp : Kept s0 s) : Kept s0 (missApproach phn s) := by
  grind [missApproach, kept_approachPast, kept_parts]

theorem kept_fireFlash {s0 : State} (phn : Int) {s : State} (hkp : Kept s0 s) : Kept s0 (fireFlash phn s) := by
  grind [fireFlash, kept_stat, kept_parts]

theorem kept_phaseSample {s0 : State} {s : State} (hkp : Kept s0 s) : Kept s0 (phaseSample s) := by
  grind [phaseSample, kept_stat, kept_missApproach, kept_fireFlash, kept_parts, kept_upd]

theorem kept_loopSample {s0 : State} {s : State} (hkp : Kept s0 s) : Kept s0 (loopSample s) := by
  grind [loopSample, kept_runChain, kept_integrate, → kept_runChain_eq, kept_parts, kept_upd]

theorem kept_runSample {s0 : State} (c : Fin 4) {s : State} (hkp : Kept s0 s) : Kept s0 (runSample c s) := by
  unfold runSample
  have h1 := kept_feStep (kept_jitter c (kept_armSample c hkp))
  dsimp only
  split
  · exact kept_trip _ _ h1
  · exact kept_dacSamples (kept_lockSample (kept_phaseSample (kept_loopSample h1)))

theorem kept_execPositionSample {s : State} {t : State} (hx : (execPositionSample s) = .next t) : Kept s t := by
  have h0 := Kept.refl s
  grind [execPositionSample, kept_takeFrame, kept_swapNow, kept_countSample, kept_runSample, kept_dacSamples, kept_parts]

theorem kept_goodFrame {s0 : State} (c : Fin 4) (f : BitVec 80) {s : State} (hkp : Kept s0 s) : Kept s0 (goodFrame c f s) := by
  grind [goodFrame, kept_stat, kept_setChan, kept_parts]

theorem kept_execSerialPositionFrame (c : Fin 4) (f : BitVec 80) {s : State} {t : State} (hx : (execSerialPositionFrame c f s) = .next t) : Kept s t := by
  have h0 := Kept.refl s
  grind [execSerialPositionFrame, kept_injected, kept_badFrame, kept_goodFrame, kept_parts]

theorem kept_execSerialFrameTimeout (c : Fin 4) {s : State} {t : State} (hx : (execSerialFrameTimeout c s) = .next t) : Kept s t := by
  have h0 := Kept.refl s
  grind [execSerialFrameTimeout, kept_inputFault, kept_stat, kept_parts]

theorem kept_execQuadratureIllegalTransition (c : Fin 4) {s : State} {t : State} (hx : (execQuadratureIllegalTransition c s) = .next t) : Kept s t := by
  have h0 := Kept.refl s
  grind [execQuadratureIllegalTransition, kept_inputFault, kept_stat, kept_parts]

theorem kept_foundIndex {s0 : State} (c : Fin 4) {s : State} (hkp : Kept s0 s) : Kept s0 (foundIndex c s) := by
  grind [foundIndex, kept_parts]

theorem kept_execIndexPulse (c : Fin 4) {s : State} {t : State} (hx : (execIndexPulse c s) = .next t) : Kept s t := by
  have h0 := Kept.refl s
  grind [execIndexPulse, kept_foundIndex, kept_setChan, kept_parts]

theorem kept_execAcquireTimeout {s : State} {t : State} (hx : (execAcquireTimeout s) = .next t) : Kept s t := by
  have h0 := Kept.refl s
  grind [execAcquireTimeout, kept_trip, kept_parts]

theorem kept_execQuadratureEdge (c : Fin 4) (up : Bool) {s : State} {t : State} (hx : (execQuadratureEdge c up s) = .next t) : Kept s t := by
  have h0 := Kept.refl s
  grind [execQuadratureEdge, kept_setChan, kept_parts]

theorem kept_startSearch {s0 : State} (h : Homing) {s : State} (hkp : Kept s0 s) : Kept s0 (startSearch h s) := by
  grind [startSearch, kept_stat, kept_parts, kept_upd]

theorem kept_startTarget {s0 : State} {s : State} (hkp : Kept s0 s) : Kept s0 (startTarget s) := by
  grind [startTarget, kept_stat, kept_parts]

theorem kept_settleHome {s0 : State} (status : Nat) (reason : Nat) (res : List W128) {s : State} (hkp : Kept s0 s) : Kept s0 (settleHome status reason res s) := by
  grind [settleHome, kept_settle, kept_parts]

theorem kept_homeFailed {s0 : State} (h : Homing) {s : State} (hkp : Kept s0 s) : Kept s0 (homeFailed h s) := by
  grind [homeFailed, kept_settleHome, kept_stat, kept_parts, kept_upd]

theorem kept_afterStop {s0 : State} {s : State} (hkp : Kept s0 s) : Kept s0 (afterStop s) := by
  grind [afterStop, kept_startSearch, kept_startTarget, kept_homeFailed, kept_parts, kept_upd]

theorem kept_clearItems {s0 : State} (items : Nat) {s : State} (hkp : Kept s0 s) : Kept s0 (clearItems items s) := by
  grind [clearItems, kept_parts, kept_upd]

theorem kept_homeSearch {s0 : State} (w : Waiting) (h : Homing) {s : State} (hkp : Kept s0 s) : Kept s0 (homeSearch w h s) := by
  grind [homeSearch, kept_finish, kept_finishOpen, kept_becomeHolder, kept_wait, kept_startSearch, kept_parts, kept_upd]

theorem kept_setHome {s0 : State} (p : Int) {s : State} (hkp : Kept s0 s) : Kept s0 (setHome p s) := by
  grind [setHome, kept_raise, kept_stat, kept_parts]

theorem kept_execScanHome (e : Entry) {s : State} {t : State} (hx : (execScanHome e s) = .next t) : Kept s t := by
  have h0 := Kept.refl s
  grind [execScanHome, kept_takeUp, kept_finish, kept_homeSearch, kept_tryApproach, kept_setHome, kept_parts, kept_upd]

theorem kept_execScanSetProfile (e : Entry) {s : State} {t : State} (hx : (execScanSetProfile e s) = .next t) : Kept s t := by
  have h0 := Kept.refl s
  grind [execScanSetProfile, kept_takeUp, kept_finish, kept_raise, kept_tryApproach, kept_parts]

theorem kept_scanStopNow {s0 : State} {s : State} (hkp : Kept s0 s) : Kept s0 (scanStopNow s) := by
  grind [scanStopNow, kept_rampStop, kept_stopStripe, kept_abortHoming, kept_parts]

theorem kept_takeTarget {s0 : State} (x : Int) {s : State} (hkp : Kept s0 s) : Kept s0 (takeTarget x s) := by
  grind [takeTarget, kept_becomeHolder, kept_startTarget, kept_parts, kept_upd]

theorem kept_execScanStop (e : Entry) {s : State} {t : State} (hx : (execScanStop e s) = .next t) : Kept s t := by
  have h0 := Kept.refl s
  grind [execScanStop, kept_takeUp, kept_scanStopNow, kept_finish, kept_takeTarget, kept_parts, kept_upd]

theorem kept_execIlkConfigure (e : Entry) {s : State} {t : State} (hx : (execIlkConfigure e s) = .next t) : Kept s t := by
  have h0 := Kept.refl s
  grind [execIlkConfigure, kept_takeUp, kept_finish, kept_parts]

theorem kept_execIlkClear (e : Entry) (steady : BitVec 8) {s : State} {t : State} (hx : (execIlkClear e steady s) = .next t) : Kept s t := by
  have h0 := Kept.refl s
  grind [execIlkClear, kept_takeUp, kept_finish, kept_raise, kept_clearItems, kept_tryApproach, kept_parts]

theorem kept_sendSpo {s0 : State} {s : State} (hkp : Kept s0 s) : Kept s0 (sendSpo s) := by
  grind [sendSpo, kept_emit, kept_stat, kept_parts]

theorem kept_execSpoFrame {s : State} {t : State} (hx : (execSpoFrame s) = .next t) : Kept s t := by
  have h0 := Kept.refl s
  grind [execSpoFrame, kept_sendSpo, kept_releaseSpo, kept_parts, kept_upd]

theorem kept_restAt {s0 : State} (x : Int) {s : State} (hkp : Kept s0 s) : Kept s0 (restAt x s) := by
  grind [restAt, kept_parts]

theorem kept_startReturn {s0 : State} (h : Homing) {s : State} (hkp : Kept s0 s) : Kept s0 (startReturn h s) := by
  grind [startReturn, kept_parts, kept_upd]

theorem kept_homeFound {s0 : State} (h : Homing) {s : State} (hkp : Kept s0 s) : Kept s0 (homeFound h s) := by
  grind [homeFound, kept_restAt, kept_settleHome, kept_setHome, kept_parts, kept_upd]

theorem kept_homingRest {s0 : State} {s : State} (hkp : Kept s0 s) : Kept s0 (homingRest s) := by
  grind [homingRest, kept_startReturn, kept_homeFound, kept_startTarget, kept_homeFailed, kept_restAt, kept_parts, kept_upd]

theorem kept_execMoveComplete {s : State} {t : State} (hx : (execMoveComplete s) = .next t) : Kept s t := by
  have h0 := Kept.refl s
  grind [execMoveComplete, kept_restAt, kept_tryApproach, kept_afterStop, kept_homingRest, kept_parts, kept_upd]

theorem kept_execSpoReleaseTimeout {s : State} {t : State} (hx : (execSpoReleaseTimeout s) = .next t) : Kept s t := by
  have h0 := Kept.refl s
  grind [execSpoReleaseTimeout, kept_releaseSpo, kept_parts]

theorem kept_execHomingTravelLimit {s : State} {t : State} (hx : (execHomingTravelLimit s) = .next t) : Kept s t := by
  have h0 := Kept.refl s
  grind [execHomingTravelLimit, kept_parts]

theorem kept_setIlk {s0 : State} (i : Fin 8) (x : Ilk) {s : State} (hkp : Kept s0 s) : Kept s0 (setIlk i x s) := by
  grind [setIlk, kept_parts]

theorem kept_latchIlk {s0 : State} (i : Fin 8) (ft : BitVec 32) (lt : BitVec 32) {s : State} (hkp : Kept s0 s) : Kept s0 (latchIlk i ft lt s) := by
  grind [latchIlk, kept_setIlk, kept_parts]

theorem kept_tripActs {s0 : State} (i : Fin 8) (hard : Bool) {s : State} (hkp : Kept s0 s) : Kept s0 (tripActs i hard s) := by
  grind [tripActs, kept_rampStop, kept_abortHoming, kept_stopStripe, kept_parts, kept_upd]

theorem kept_execIlkTrip (i : Fin 8) (ft : BitVec 32) (lt : BitVec 32) {s : State} {t : State} (hx : (execIlkTrip i ft lt s) = .next t) : Kept s t := by
  have h0 := Kept.refl s
  grind [execIlkTrip, kept_latchIlk, kept_setFlag, kept_raise, kept_tripActs, kept_parts]

theorem kept_execIlkChatter (i : Fin 8) {s : State} {t : State} (hx : (execIlkChatter i s) = .next t) : Kept s t := by
  have h0 := Kept.refl s
  grind [execIlkChatter, kept_setIlk, kept_raise, kept_parts]

theorem kept_keysLost {s0 : State} {s : State} (hkp : Kept s0 s) : Kept s0 (keysLost s) := by
  refine ⟨hkp.1, hkp.2, hkp.3, hkp.4, fun _ i => ?_, hkp.6⟩
  intro _
  simp [keysLost, KeySlot.empty]

theorem kept_batteryCheck {s0 : State} {s : State} (hkp : Kept s0 s) : Kept s0 (batteryCheck s) := by
  grind [batteryCheck, kept_keysLost, kept_eraseAll, kept_parts, kept_upd]

theorem kept_tamperTrip {s0 : State} {s : State} (hkp : Kept s0 s) : Kept s0 (tamperTrip s) := by
  grind [tamperTrip, kept_eraseAll, kept_keeperRaise, kept_parts]

theorem kept_checkFailed {s0 : State} {s : State} (hkp : Kept s0 s) : Kept s0 (checkFailed s) := by
  grind [checkFailed, kept_tamperTrip, kept_parts]

theorem kept_fillSlot {s0 : State} (slot : Fin 64) (keyId : Nat) (key : BitVec 256) {s : State} (hkp : Kept s0 s) : Kept s0 (fillSlot slot keyId key s) := by
  unfold fillSlot
  apply kept_raise
  refine ⟨hkp.1, hkp.2, hkp.3, hkp.4, fun x i => ?_, hkp.6⟩
  intro h0
  have y := hkp.5 x i
  simp only [Fin.getElem_fin, Vector.getElem_set] at h0 ⊢
  split at h0
  · simp at h0
  · simp_all [KeySlot.blankIfFree]

theorem kept_importKey {s0 : State} (w : Waiting) (e : Entry) (slot : Fin 64) (keyId : Nat) {s : State} (hkp : Kept s0 s) : Kept s0 (importKey w e slot keyId s) := by
  grind [importKey, kept_readBuffer, kept_finish, kept_raise, kept_fillSlot, kept_parts]

theorem kept_execSecImportKey (e : Entry) {s : State} {t : State} (hx : (execSecImportKey e s) = .next t) : Kept s t := by
  have h0 := Kept.refl s
  grind [execSecImportKey, kept_takeUp, kept_finish, kept_importKey, kept_parts]

theorem kept_execSecEraseKey (e : Entry) {s : State} {t : State} (hx : (execSecEraseKey e s) = .next t) : Kept s t := by
  have h0 := Kept.refl s
  grind [execSecEraseKey, kept_takeUp, kept_erase, kept_finish, kept_parts]

theorem kept_execSecStatus (e : Entry) {s : State} {t : State} (hx : (execSecStatus e s) = .next t) : Kept s t := by
  have h0 := Kept.refl s
  grind [execSecStatus, kept_takeUp, kept_finish, kept_parts]

theorem kept_execSecUnlockDebug (e : Entry) {s : State} {t : State} (hx : (execSecUnlockDebug e s) = .next t) : Kept s t := by
  have h0 := Kept.refl s
  grind [execSecUnlockDebug, kept_takeUp, kept_finish, kept_openDebug, kept_parts]

theorem kept_execTamperCheck (pass : Bool) {s : State} {t : State} (hx : (execTamperCheck pass s) = .next t) : Kept s t := by
  have h0 := Kept.refl s
  grind [execTamperCheck, kept_checkFailed, kept_parts]

theorem kept_execTamperCleared {s : State} {t : State} (hx : (execTamperCleared s) = .next t) : Kept s t := by
  have h0 := Kept.refl s
  grind [execTamperCleared, kept_keeperTell, kept_parts]

theorem kept_vbatFlag {s0 : State} {s : State} (hkp : Kept s0 s) : Kept s0 (vbatFlag s) := by
  grind [vbatFlag, kept_keeperRaise, kept_parts]

theorem kept_execVbatThreshold (mv : BitVec 16) {s : State} {t : State} (hx : (execVbatThreshold mv s) = .next t) : Kept s t := by
  have h0 := Kept.refl s
  grind [execVbatThreshold, kept_keysLost, kept_batteryCheck, kept_vbatFlag, kept_parts]

theorem kept_execKeeperSupplySwitch (onBattery : Bool) {s : State} {t : State} (hx : (execKeeperSupplySwitch onBattery s) = .next t) : Kept s t := by
  have h0 := Kept.refl s
  grind [execKeeperSupplySwitch, kept_batteryCheck, kept_keeperPowered, kept_parts]

theorem kept_execDbgRequest {s : State} {t : State} (hx : (execDbgRequest s) = .next t) : Kept s t := by
  have h0 := Kept.refl s
  grind [execDbgRequest, kept_openDebug, kept_parts]

theorem kept_tellRunning {s0 : State} (code : Nat) (d : Domain) (det : W128) {s : State} (hkp : Kept s0 s) : Kept s0 (tellRunning code d det s) := by
  grind [tellRunning, kept_raise, kept_parts]

theorem kept_logEdge {s0 : State} (kind : Nat) {s : State} (hkp : Kept s0 s) : Kept s0 (logEdge kind s) := by
  grind [logEdge, kept_parts]

theorem kept_execSvcAttached {s : State} {t : State} (hx : (execSvcAttached s) = .next t) : Kept s t := by
  have h0 := Kept.refl s
  grind [execSvcAttached, kept_tellRunning, kept_logEdge, kept_parts]

theorem kept_execSvcDetached {s : State} {t : State} (hx : (execSvcDetached s) = .next t) : Kept s t := by
  have h0 := Kept.refl s
  grind [execSvcDetached, kept_tellRunning, kept_logEdge, kept_parts]

theorem kept_serviceMark {s0 : State} {s : State} (hkp : Kept s0 s) : Kept s0 (serviceMark s) := by
  grind [serviceMark, kept_parts]

theorem kept_execIdentPressed (ms : BitVec 32) {s : State} {t : State} (hx : (execIdentPressed ms s) = .next t) : Kept s t := by
  have h0 := Kept.refl s
  grind [execIdentPressed, kept_tellRunning, kept_logEdge, kept_serviceMark, kept_parts, kept_upd]

theorem kept_execIdentStuck {s : State} {t : State} (hx : (execIdentStuck s) = .next t) : Kept s t := by
  have h0 := Kept.refl s
  grind [execIdentStuck, kept_tellRunning, kept_logEdge, kept_parts]

theorem kept_execSmbStatusClear (v : BitVec 16) {s : State} {t : State} (hx : (execSmbStatusClear v s) = .next t) : Kept s t := by
  have h0 := Kept.refl s
  grind [execSmbStatusClear, kept_parts]

theorem kept_execSmbAlertEnWrite (v : BitVec 16) {s : State} {t : State} (hx : (execSmbAlertEnWrite v s) = .next t) : Kept s t := by
  have h0 := Kept.refl s
  grind [execSmbAlertEnWrite, kept_parts]

theorem kept_execSmbAlertResponse {s : State} {t : State} (hx : (execSmbAlertResponse s) = .next t) : Kept s t := by
  have h0 := Kept.refl s
  grind [execSmbAlertResponse, kept_emit, kept_parts]

theorem kept_execErasureZeroingDone {s : State} {t : State} (hx : (execErasureZeroingDone s) = .next t) : Kept s t := by
  have h0 := Kept.refl s
  grind [execErasureZeroingDone, kept_finishErasure, kept_memStops, kept_parts]

theorem kept_execIdentFlashEnd {s : State} {t : State} (hx : (execIdentFlashEnd s) = .next t) : Kept s t := by
  have h0 := Kept.refl s
  grind [execIdentFlashEnd, kept_parts]

theorem kept_armUpdate {s0 : State} (w : Waiting) (now : Bool) {s : State} (hkp : Kept s0 s) : Kept s0 (armUpdate w now s) := by
  grind [armUpdate, kept_finish, kept_raise, kept_parts, kept_upd]

theorem kept_checkPieces {s0 : State} {s : State} (hkp : Kept s0 s) : Kept s0 (checkPieces s) := by
  grind [checkPieces, kept_parts]

theorem kept_execUpdBegin (e : Entry) {s : State} {t : State} (hx : (execUpdBegin e s) = .next t) : Kept s t := by
  have h0 := Kept.refl s
  grind [execUpdBegin, kept_takeUp, kept_beginUpdate, kept_finish, kept_parts]

theorem kept_execUpdPutPiece (e : Entry) (readBackOk : Bool) {s : State} {t : State} (hx : (execUpdPutPiece e readBackOk s) = .next t) : Kept s t := by
  have h0 := Kept.refl s
  unfold execUpdPutPiece at hx
  (repeat' split at hx) <;> grind [kept_takeUp, kept_readBuffer, kept_finish, kept_putPiece, kept_parts]

theorem kept_execUpdStatus (e : Entry) {s : State} {t : State} (hx : (execUpdStatus e s) = .next t) : Kept s t := by
  have h0 := Kept.refl s
  grind [execUpdStatus, kept_takeUp, kept_finish, kept_parts]

theorem kept_execUpdArm (e : Entry) {s : State} {t : State} (hx : (execUpdArm e s) = .next t) : Kept s t := by
  have h0 := Kept.refl s
  grind [execUpdArm, kept_takeUp, kept_finish, kept_checkPieces, kept_eraseUpdate, kept_armUpdate, kept_parts, kept_upd]

theorem kept_sendReport {s0 : State} (dst : Nat) {s : State} (hkp : Kept s0 s) : Kept s0 (sendReport dst s) := by
  grind [sendReport, kept_send, kept_parts]

theorem kept_relayBegin {s0 : State} (sp : Spore) {s : State} (hkp : Kept s0 s) : Kept s0 (relayBegin sp s) := by
  grind [relayBegin, kept_beginUpdate, kept_nackSpore, kept_sendReport, kept_parts]

theorem kept_relayWhole {s0 : State} (sp : Spore) (id : BitVec 32) (i : Nat) (c : BitVec 32) (b : List Byte) {s : State} (hkp : Kept s0 s) : Kept s0 (relayWhole sp id i c b s) := by
  grind [relayWhole, kept_putPiece, kept_nackSpore, kept_sendReport, kept_parts]

theorem kept_relayPiece {s0 : State} (sp : Spore) {s : State} (hkp : Kept s0 s) : Kept s0 (relayPiece sp s) := by
  grind [relayPiece, kept_relayWhole, kept_parts]

theorem kept_relayReported {s0 : State} (sp : Spore) {s : State} (hkp : Kept s0 s) : Kept s0 (relayReported sp s) := by
  grind [relayReported, kept_relayReport, kept_parts]

theorem kept_execUpdRelay (p : Fin 8) (sp : Spore) {s : State} {t : State} (hx : (execUpdRelay p sp s) = .next t) : Kept s t := by
  have h0 := Kept.refl s
  grind [execUpdRelay, kept_rxSpore, kept_nackSpore, kept_relayBegin, kept_relayPiece, kept_relayReported, kept_parts]

theorem kept_execRelayHalfTimeout {s : State} {t : State} (hx : (execRelayHalfTimeout s) = .next t) : Kept s t := by
  have h0 := Kept.refl s
  grind [execRelayHalfTimeout, kept_parts]

end Sys2Proof.Machine
end

