-- ==== Sys2Proof/Laws/Kept8.lean ====
section
/-! SUPPORT. What the functions of these files keep of a state (Laws/Kept): Dispatch. -/

namespace Sys2Proof.Machine

theorem kept_exec (i : Instr) {s : State} {t : State} (hx : (exec i s) = .next t) : Kept s t := by
  cases i with
  | devIdentify e => exact kept_execDevIdentify e hx
  | devSetMode e => exact kept_execDevSetMode e hx
  | devGetStatus e => exact kept_execDevGetStatus e hx
  | devReadback e => exact kept_execDevReadback e hx
  | devReset e => exact kept_execDevReset e hx
  | cfgSet e => exact kept_execCfgSet e hx
  | cfgGet e => exact kept_execCfgGet e hx
  | cfgCommit e verified => exact kept_execCfgCommit e verified hx
  | cfgLoadBeamTable e => exact kept_execCfgLoadBeamTable e hx
  | cfgLoadLayerMap e => exact kept_execCfgLoadLayerMap e hx
  | flowOpen e => exact kept_execFlowOpen e hx
  | flowClose e => exact kept_execFlowClose e hx
  | workSubmit e => exact kept_execWorkSubmit e hx
  | workCancel e => exact kept_execWorkCancel e hx
  | workQuery e => exact kept_execWorkQuery e hx
  | ledgerSetWitness e stored => exact kept_execLedgerSetWitness e stored hx
  | ledgerCheckpoint e => exact kept_execLedgerCheckpoint e hx
  | ledgerRead e => exact kept_execLedgerRead e hx
  | dmaChannelSetup e => exact kept_execDmaChannelSetup e hx
  | dtuSetRoot e => exact kept_execDtuSetRoot e hx
  | dtuInvalidate e => exact kept_execDtuInvalidate e hx
  | dtuResumeFault e => exact kept_execDtuResumeFault e hx
  | fabDiscover e => exact kept_execFabDiscover e hx
  | fabAssignNode e => exact kept_execFabAssignNode e hx
  | fabSetRoute e => exact kept_execFabSetRoute e hx
  | fabPair e => exact kept_execFabPair e hx
  | fabHandover e => exact kept_execFabHandover e hx
  | timeSetSource e => exact kept_execTimeSetSource e hx
  | timeGet e => exact kept_execTimeGet e hx
  | timeAdjust e => exact kept_execTimeAdjust e hx
  | calRun e => exact kept_execCalRun e hx
  | calStatus e => exact kept_execCalStatus e hx
  | calSetLimits e => exact kept_execCalSetLimits e hx
  | trackSetCoeffs e => exact kept_execTrackSetCoeffs e hx
  | trackArm e => exact kept_execTrackArm e hx
  | scanHome e => exact kept_execScanHome e hx
  | scanSetProfile e => exact kept_execScanSetProfile e hx
  | scanStop e => exact kept_execScanStop e hx
  | ilkConfigure e => exact kept_execIlkConfigure e hx
  | ilkClear e steady => exact kept_execIlkClear e steady hx
  | secImportKey e => exact kept_execSecImportKey e hx
  | secEraseKey e => exact kept_execSecEraseKey e hx
  | secStatus e => exact kept_execSecStatus e hx
  | secUnlockDebug e => exact kept_execSecUnlockDebug e hx
  | updBegin e => exact kept_execUpdBegin e hx
  | updPutPiece e readBackOk => exact kept_execUpdPutPiece e readBackOk hx
  | updStatus e => exact kept_execUpdStatus e hx
  | updArm e => exact kept_execUpdArm e hx
  | diagLoopback e => exact kept_execDiagLoopback e hx
  | diagInject e => exact kept_execDiagInject e hx
  | diagCounters e => exact kept_execDiagCounters e hx
  | doorbellWrite ring value => exact kept_execDoorbellWrite ring value hx
  | ringEnable ring cfg => exact kept_execRingEnable ring cfg hx
  | ringDisable ring cfg => exact kept_execRingDisable ring cfg hx
  | winStatusClear v => exact kept_execWinStatusClear v hx
  | ringStatusClear ring v => exact kept_execRingStatusClear ring v hx
  | winStageWrite v => exact kept_execWinStageWrite v hx
  | registerWrite off wide v => exact kept_execRegisterWrite off wide v hx
  | winReservedWrite off size => exact kept_execWinReservedWrite off size hx
  | bar4Access addr write len data => exact kept_execBar4Access addr write len data hx
  | msixVectorUnmask vec => exact kept_execMsixVectorUnmask vec hx
  | msixCoalesceTimeout ring => exact kept_execMsixCoalesceTimeout ring hx
  | ringBusError ring addr => exact kept_execRingBusError ring addr hx
  | functionLevelReset => exact kept_execFunctionLevelReset hx
  | perst => exact kept_execPerst hx
  | workItemStart flow => exact kept_execWorkItemStart flow hx
  | acceptTimeout flow => exact kept_execAcceptTimeout flow hx
  | witnessReadbackDone unchanged => exact kept_execWitnessReadbackDone unchanged hx
  | witnessResendTimeout => exact kept_execWitnessResendTimeout hx
  | witnessLost => exact kept_execWitnessLost hx
  | witnessRetry answered => exact kept_execWitnessRetry answered hx
  | progressTimer => exact kept_execProgressTimer hx
  | ledgerRebuild recs => exact kept_execLedgerRebuild recs hx
  | ingestRecord flow r => exact kept_execIngestRecord flow r hx
  | containerRecordAuth flow => exact kept_execContainerRecordAuth flow hx
  | ingestComplete flow => exact kept_execIngestComplete flow hx
  | densitySweepDone flow => exact kept_execDensitySweepDone flow hx
  | censusStripeReady flow => exact kept_execCensusStripeReady flow hx
  | lineDispatch => exact kept_execLineDispatch hx
  | lineRendered core => exact kept_execLineRendered core hx
  | spillWriteAck slot => exact kept_execSpillWriteAck slot hx
  | spillReadReturn slot => exact kept_execSpillReadReturn slot hx
  | renderBinComplete flow => exact kept_execRenderBinComplete flow hx
  | copyComplete flow => exact kept_execCopyComplete flow hx
  | stripeArm => exact kept_execStripeArm hx
  | fireEvent n interval => exact kept_execFireEvent n interval hx
  | frameDeadlineMissed => exact kept_execFrameDeadlineMissed hx
  | gstrobeRise => exact kept_execGstrobeRise hx
  | gstrobeFall => exact kept_execGstrobeFall hx
  | strobeCut => exact kept_execStrobeCut hx
  | endingTimeout => exact kept_execEndingTimeout hx
  | highWaterTimeout => exact kept_execHighWaterTimeout hx
  | resumeConditionMet => exact kept_execResumeConditionMet hx
  | tempSample sensors cool => exact kept_execTempSample sensors cool hx
  | linkDownRetry => exact kept_execLinkDownRetry hx
  | lockingTimeout => exact kept_execLockingTimeout hx
  | degradedRetry => exact kept_execDegradedRetry hx
  | ctrlFrameResend => exact kept_execCtrlFrameResend hx
  | ctrlAck m => exact kept_execCtrlAck m hx
  | flashAck m => exact kept_execFlashAck m hx
  | status m => exact kept_execStatus m hx
  | error m => exact kept_execError m hx
  | portEvent m => exact kept_execPortEvent m hx
  | trainStatus m => exact kept_execTrainStatus m hx
  | returnLaneSwitched => exact kept_execReturnLaneSwitched hx
  | bsaStatusTimeout => exact kept_execBsaStatusTimeout hx
  | portClaimTimeout => exact kept_execPortClaimTimeout hx
  | positionSample => exact kept_execPositionSample hx
  | serialPositionFrame ch frame => exact kept_execSerialPositionFrame ch frame hx
  | serialFrameTimeout ch => exact kept_execSerialFrameTimeout ch hx
  | quadratureIllegalTransition ch => exact kept_execQuadratureIllegalTransition ch hx
  | indexPulse ch => exact kept_execIndexPulse ch hx
  | acquireTimeout => exact kept_execAcquireTimeout hx
  | spoFrame => exact kept_execSpoFrame hx
  | moveComplete => exact kept_execMoveComplete hx
  | spoReleaseTimeout => exact kept_execSpoReleaseTimeout hx
  | homingTravelLimit => exact kept_execHomingTravelLimit hx
  | ilkTrip input ft lt => exact kept_execIlkTrip input ft lt hx
  | ilkChatter input => exact kept_execIlkChatter input hx
  | portTrainStart p => exact kept_execPortTrainStart p hx
  | portTrainingTimeout p => exact kept_execPortTrainingTimeout p hx
  | portRetry p => exact kept_execPortRetry p hx
  | fabPortDown p => exact kept_execFabPortDown p hx
  | linkAck p block => exact kept_execLinkAck p block hx
  | credit p block => exact kept_execCredit p block hx
  | sporeAckTimeout p cls => exact kept_execSporeAckTimeout p cls hx
  | creditReturnTimer p => exact kept_execCreditReturnTimer p hx
  | linkAckTimer p cls => exact kept_execLinkAckTimer p cls hx
  | sporeForward p sp => exact kept_execSporeForward p sp hx
  | hello p sp => exact kept_execHello p sp hx
  | topo p sp => exact kept_execTopo p sp hx
  | assign p sp => exact kept_execAssign p sp hx
  | assignAck p sp => exact kept_execAssignAck p sp hx
  | nack p sp => exact kept_execNack p sp hx
  | pairReq p sp => exact kept_execPairReq p sp hx
  | pairAck p sp => exact kept_execPairAck p sp hx
  | pairBeat p sp => exact kept_execPairBeat p sp hx
  | pairFail p sp => exact kept_execPairFail p sp hx
  | handoverReq p sp => exact kept_execHandoverReq p sp hx
  | handoverGo p sp => exact kept_execHandoverGo p sp hx
  | handoverDone p sp => exact kept_execHandoverDone p sp hx
  | ledgerRec p sp => exact kept_execLedgerRec p sp hx
  | ledgerAck p sp => exact kept_execLedgerAck p sp hx
  | offloadReq p sp => exact kept_execOffloadReq p sp hx
  | offloadDone p sp => exact kept_execOffloadDone p sp hx
  | segments p sp => exact kept_execSegments p sp hx
  | time p sp => exact kept_execTime p sp hx
  | host p sp => exact kept_execHost p sp hx
  | updRelay p sp => exact kept_execUpdRelay p sp hx
  | hostSporeSend p entry => exact kept_execHostSporeSend p entry hx
  | rxBufferPost p entry => exact kept_execRxBufferPost p entry hx
  | discoveryCollectTimeout => exact kept_execDiscoveryCollectTimeout hx
  | assignTimeout => exact kept_execAssignTimeout hx
  | pairTimeout => exact kept_execPairTimeout hx
  | pairBeatTimer => exact kept_execPairBeatTimer hx
  | partnerBeatTimeout => exact kept_execPartnerBeatTimeout hx
  | takeoverRecheck => exact kept_execTakeoverRecheck hx
  | handoverShadowTimeout => exact kept_execHandoverShadowTimeout hx
  | timeSporeTimer => exact kept_execTimeSporeTimer hx
  | timeSourceTimeout base => exact kept_execTimeSourceTimeout base hx
  | relayHalfTimeout => exact kept_execRelayHalfTimeout hx
  | updateTargetTimeout flow => exact kept_execUpdateTargetTimeout flow hx
  | ptpAnnounce m => exact kept_execPtpAnnounce m hx
  | ptpSync m => exact kept_execPtpSync m hx
  | ptpFollowUp m => exact kept_execPtpFollowUp m hx
  | ptpDelayResp m => exact kept_execPtpDelayResp m hx
  | ptpMasterTimeout => exact kept_execPtpMasterTimeout hx
  | dmaDescriptorStart ch desc => exact kept_execDmaDescriptorStart ch desc hx
  | dmaDescriptorDone ch idx => exact kept_execDmaDescriptorDone ch idx hx
  | dmaBusError ctx idx arrived => exact kept_execDmaBusError ctx idx arrived hx
  | dmaReadTimeout ctx idx arrived => exact kept_execDmaReadTimeout ctx idx arrived hx
  | dmaRetry ctx idx => exact kept_execDmaRetry ctx idx hx
  | dtuFault ctx idx write va progress tableBusErr => exact kept_execDtuFault ctx idx write va progress tableBusErr hx
  | hbmRefresh pc => exact kept_execHbmRefresh pc hx
  | hbmTempRead t0 t1 => exact kept_execHbmTempRead t0 t1 hx
  | hbmReadComplete off kind sev syndrome req rmw => exact kept_execHbmReadComplete off kind sev syndrome req rmw hx
  | hbmRetrainSliceStart pc => exact kept_execHbmRetrainSliceStart pc hx
  | hbmRetrainSliceEnd pc eyeMilliUI => exact kept_execHbmRetrainSliceEnd pc eyeMilliUI hx
  | hbmRetrainForced pc => exact kept_execHbmRetrainForced pc hx
  | calRunStart iRefNa => exact kept_execCalRunStart iRefNa hx
  | calDone meas => exact kept_execCalDone meas hx
  | modeChangeDone failed badTables tUs => exact kept_execModeChangeDone failed badTables tUs hx
  | heartbeatTick => exact kept_execHeartbeatTick hx
  | supplyWarning rail mv => exact kept_execSupplyWarning rail mv hx
  | supplyRecovered boot => exact kept_execSupplyRecovered boot hx
  | railResetTrip rail mv => exact kept_execRailResetTrip rail mv hx
  | thermalTrip => exact kept_execThermalTrip hx
  | watchdogReset => exact kept_execWatchdogReset hx
  | powerOnReset testEn boot => exact kept_execPowerOnReset testEn boot hx
  | tableArrayUncorrectable array => exact kept_execTableArrayUncorrectable array hx
  | domainPowerLoss domain => exact kept_execDomainPowerLoss domain hx
  | tamperCheck pass => exact kept_execTamperCheck pass hx
  | tamperCleared => exact kept_execTamperCleared hx
  | vbatThreshold mv => exact kept_execVbatThreshold mv hx
  | keeperSupplySwitch onBattery => exact kept_execKeeperSupplySwitch onBattery hx
  | dbgRequest => exact kept_execDbgRequest hx
  | svcAttached => exact kept_execSvcAttached hx
  | svcDetached => exact kept_execSvcDetached hx
  | identPressed ms => exact kept_execIdentPressed ms hx
  | identStuck => exact kept_execIdentStuck hx
  | smbStatusClear v => exact kept_execSmbStatusClear v hx
  | smbAlertEnWrite v => exact kept_execSmbAlertEnWrite v hx
  | smbAlertResponse => exact kept_execSmbAlertResponse hx
  | resetNAsserted => exact kept_execResetNAsserted hx
  | quadratureEdge ch up => exact kept_execQuadratureEdge ch up hx
  | commandedResetStart boot => exact kept_execCommandedResetStart boot hx
  | erasureZeroingDone => exact kept_execErasureZeroingDone hx
  | thermalResetRelease boot => exact kept_execThermalResetRelease boot hx
  | monitorAdcSample ch raw => exact kept_execMonitorAdcSample ch raw hx
  | loopbackDurationEnd bits errors losses => exact kept_execLoopbackDurationEnd bits errors losses hx
  | ackWithholdEnd => exact kept_execAckWithholdEnd hx
  | updateRateTick flow => exact kept_execUpdateRateTick flow hx
  | identFlashEnd => exact kept_execIdentFlashEnd hx

end Sys2Proof.Machine
end

