-- ==== Sys2Proof/Laws/Only.lean ====
section
/-! SUPPORT. Frames: `Only bs s t` says that from `s` to `t` nothing changed but the parts in `bs`. The lemmas of the files Only1 …
say it of each operation. -/

namespace Sys2Proof.Machine

/-- Nothing changes from a state to itself. -/
theorem Only.refl (bs : List Block) (s : State) : Only bs s s := by
  refine ⟨rfl, fun b _ => ?_⟩
  cases b <;> rfl

/-- Frames compose. -/
theorem Only.trans {bs : List Block} {s t u : State} (h : Only bs s t) (k : Only bs t u) : Only bs s u := by
  refine ⟨k.1.trans h.1, fun b hb => ?_⟩
  have h1 := h.2 b hb
  have h2 := k.2 b hb
  cases b <;> exact Eq.trans h2 h1

/-- A frame is one for more parts. -/
theorem Only.mono {bs cs : List Block} {s t : State} (h : Only bs s t) (k : ∀ b, b ∈ bs → b ∈ cs) : Only cs s t :=
  ⟨h.1, fun b hb => h.2 b (fun x => hb (k b x))⟩

/-- An update of parts that the frame names. -/
theorem only_upd {bs : List Block} {s u : State}
    (out : List Output)
    (pm : Power)
    (time : Times)
    (win : Win)
    (mb : Mailboxes)
    (cfg : Config)
    (led : Ledger)
    (lay : Layout)
    (rnd : Render)
    (store : Store)
    (seq : Seq)
    (link : Link)
    (trk : Track)
    (scan : Scan)
    (ilk : Vector Ilk 8)
    (dma : Dma)
    (fab : Fabric)
    (hbm : Hbm)
    (cal : Cal)
    (keep : Keeper)
    (upd : Update)
    (nor : Nor)
    (svc : Service)
    (smb : Smb)
    (diag : Diag)
    (aper : Aperture)
    (evt : Events)
    (stats : Tbl (BitVec 64))
    (hbmMem : Memory)
    (hostMem : Memory)
    (free : Nat)
    (h : Only bs s u)
    (h_out : out = u.out ∨ Block.out ∈ bs)
    (h_pm : pm = u.pm ∨ Block.pm ∈ bs)
    (h_time : time = u.time ∨ Block.time ∈ bs)
    (h_win : win = u.win ∨ Block.win ∈ bs)
    (h_mb : mb = u.mb ∨ Block.mb ∈ bs)
    (h_cfg : cfg = u.cfg ∨ Block.cfg ∈ bs)
    (h_led : led = u.led ∨ Block.led ∈ bs)
    (h_lay : lay = u.lay ∨ Block.lay ∈ bs)
    (h_rnd : rnd = u.rnd ∨ Block.rnd ∈ bs)
    (h_store : store = u.store ∨ Block.store ∈ bs)
    (h_seq : seq = u.seq ∨ Block.seq ∈ bs)
    (h_link : link = u.link ∨ Block.link ∈ bs)
    (h_trk : trk = u.trk ∨ Block.trk ∈ bs)
    (h_scan : scan = u.scan ∨ Block.scan ∈ bs)
    (h_ilk : ilk = u.ilk ∨ Block.ilk ∈ bs)
    (h_dma : dma = u.dma ∨ Block.dma ∈ bs)
    (h_fab : fab = u.fab ∨ Block.fab ∈ bs)
    (h_hbm : hbm = u.hbm ∨ Block.hbm ∈ bs)
    (h_cal : cal = u.cal ∨ Block.cal ∈ bs)
    (h_keep : keep = u.keep ∨ Block.keep ∈ bs)
    (h_upd : upd = u.upd ∨ Block.upd ∈ bs)
    (h_nor : nor = u.nor ∨ Block.nor ∈ bs)
    (h_svc : svc = u.svc ∨ Block.svc ∈ bs)
    (h_smb : smb = u.smb ∨ Block.smb ∈ bs)
    (h_diag : diag = u.diag ∨ Block.diag ∈ bs)
    (h_aper : aper = u.aper ∨ Block.aper ∈ bs)
    (h_evt : evt = u.evt ∨ Block.evt ∈ bs)
    (h_stats : stats = u.stats ∨ Block.stats ∈ bs)
    (h_hbmMem : hbmMem = u.hbmMem ∨ Block.hbmMem ∈ bs)
    (h_hostMem : hostMem = u.hostMem ∨ Block.hostMem ∈ bs)
    (h_free : free = u.free ∨ Block.free ∈ bs)
    : Only bs s (State.mk u.pending out pm time win mb cfg led lay rnd store seq link trk scan ilk dma fab hbm cal keep upd nor svc smb diag aper evt stats hbmMem hostMem free) := by
  refine ⟨h.1, fun b hb => ?_⟩
  have h1 := h.2 b hb
  cases b
  · exact (h_out.resolve_right hb).trans h1
  · exact (h_pm.resolve_right hb).trans h1
  · exact (h_time.resolve_right hb).trans h1
  · exact (h_win.resolve_right hb).trans h1
  · exact (h_mb.resolve_right hb).trans h1
  · exact (h_cfg.resolve_right hb).trans h1
  · exact (h_led.resolve_right hb).trans h1
  · exact (h_lay.resolve_right hb).trans h1
  · exact (h_rnd.resolve_right hb).trans h1
  · exact (h_store.resolve_right hb).trans h1
  · exact (h_seq.resolve_right hb).trans h1
  · exact (h_link.resolve_right hb).trans h1
  · exact (h_trk.resolve_right hb).trans h1
  · exact (h_scan.resolve_right hb).trans h1
  · exact (h_ilk.resolve_right hb).trans h1
  · exact (h_dma.resolve_right hb).trans h1
  · exact (h_fab.resolve_right hb).trans h1
  · exact (h_hbm.resolve_right hb).trans h1
  · exact (h_cal.resolve_right hb).trans h1
  · exact (h_keep.resolve_right hb).trans h1
  · exact (h_upd.resolve_right hb).trans h1
  · exact (h_nor.resolve_right hb).trans h1
  · exact (h_svc.resolve_right hb).trans h1
  · exact (h_smb.resolve_right hb).trans h1
  · exact (h_diag.resolve_right hb).trans h1
  · exact (h_aper.resolve_right hb).trans h1
  · exact (h_evt.resolve_right hb).trans h1
  · exact (h_stats.resolve_right hb).trans h1
  · exact (h_hbmMem.resolve_right hb).trans h1
  · exact (h_hostMem.resolve_right hb).trans h1
  · exact (h_free.resolve_right hb).trans h1

/-- A fold touches what its steps touch. -/
theorem only_foldl {α : Type} {bs : List Block} {s0 : State} (f : State → α → State)
    (hf : ∀ t x, Only bs s0 t → Only bs s0 (f t x)) : ∀ (l : List α) (s : State), Only bs s0 s → Only bs s0 (l.foldl f s) := by
  intro l
  induction l with
  | nil => intro s h; exact h
  | cons x t ih => intro s h; exact ih _ (hf s x h)

end Sys2Proof.Machine
end

