-- ==== Sys2Proof/Laws/Only1.lean ====
section
/-! SUPPORT. What the functions of these files keep of a state (Laws.Only): Ops, Dtu, Operands, Flags, FabricOps, LedgerOps, ScanOps, CtrlOps. -/

namespace Sys2Proof.Machine

theorem only_hbmWrite {fr : List Block} {s0 : State} (a : Nat) (b : List Byte) {s : State} (h_hbmMem : Block.hbmMem ∈ fr) (hkp : Only fr s0 s) : Only fr s0 (hbmWrite a b s) := by
  grind [hbmWrite, only_upd]

theorem only_statAdd {fr : List Block} {s0 : State} (key : Nat) (n : Nat) {s : State} (h_stats : Block.stats ∈ fr) (hkp : Only fr s0 s) : Only fr s0 (statAdd key n s) := by
  grind [statAdd, only_upd]

theorem only_stat {fr : List Block} {s0 : State} (key : Nat) {s : State} (h_stats : Block.stats ∈ fr) (hkp : Only fr s0 s) : Only fr s0 (stat key s) := by
  grind [stat, only_statAdd]

theorem only_hostWrite {fr : List Block} {s0 : State} (a : Nat) (b : List Byte) {s : State} (h_hostMem : Block.hostMem ∈ fr) (hkp : Only fr s0 s) : Only fr s0 (hostWrite a b s) := by
  grind [hostWrite, only_upd]

theorem only_emit {fr : List Block} {s0 : State} (o : Output) {s : State} (h_out : Block.out ∈ fr) (hkp : Only fr s0 s) : Only fr s0 (emit o s) := by
  grind [emit, only_upd]

theorem only_sendMsix {fr : List Block} {s0 : State} (v : Nat) {s : State} (h_out : Block.out ∈ fr) (h_win : Block.win ∈ fr) (h_stats : Block.stats ∈ fr) (hkp : Only fr s0 s) : Only fr s0 (sendMsix v s) := by
  grind [sendMsix, only_stat, only_emit, only_upd]

theorem only_setRing {fr : List Block} {s0 : State} (i : Fin 64) (r : Ring) {s : State} (h_win : Block.win ∈ fr) (hkp : Only fr s0 s) : Only fr s0 (setRing i r s) := by
  grind [setRing, only_upd]

theorem only_coalesce {fr : List Block} {s0 : State} (i : Fin 64) {s : State} (h_out : Block.out ∈ fr) (h_win : Block.win ∈ fr) (h_stats : Block.stats ∈ fr) (hkp : Only fr s0 s) : Only fr s0 (coalesce i s) := by
  grind [coalesce, only_sendMsix, only_setRing]

theorem only_writeShadow {fr : List Block} {s0 : State} (i : Fin 64) {s : State} (h_out : Block.out ∈ fr) (h_hostMem : Block.hostMem ∈ fr) (hkp : Only fr s0 s) : Only fr s0 (writeShadow i s) := by
  grind [writeShadow, only_emit, only_hostWrite]

theorem only_advance {fr : List Block} {s0 : State} (i : Fin 64) {s : State} (h_out : Block.out ∈ fr) (h_win : Block.win ∈ fr) (h_stats : Block.stats ∈ fr) (h_hostMem : Block.hostMem ∈ fr) (hkp : Only fr s0 s) : Only fr s0 (advance i s) := by
  grind [advance, only_coalesce, only_writeShadow, only_stat, only_setRing]

theorem only_pushEntry {fr : List Block} {s0 : State} (i : Fin 64) (b : List Byte) {s : State} (h_out : Block.out ∈ fr) (h_win : Block.win ∈ fr) (h_stats : Block.stats ∈ fr) (h_hostMem : Block.hostMem ∈ fr) (hkp : Only fr s0 s) : Only fr s0 (pushEntry i b s) := by
  grind [pushEntry, only_advance, only_emit, only_hostWrite]

theorem only_setFlag {fr : List Block} {s0 : State} (b : Fin 11) {s : State} (h_out : Block.out ∈ fr) (h_win : Block.win ∈ fr) (h_stats : Block.stats ∈ fr) (hkp : Only fr s0 s) : Only fr s0 (setFlag b s) := by
  grind [setFlag, only_sendMsix, only_upd]

theorem only_countEvent {fr : List Block} {s0 : State} (code : Nat) {s : State} (h_evt : Block.evt ∈ fr) (hkp : Only fr s0 s) : Only fr s0 (countEvent code s) := by
  grind [countEvent, only_upd]

theorem only_eventToRing {fr : List Block} {s0 : State} (i : Fin 64) (r : EventRec) {s : State} (h_out : Block.out ∈ fr) (h_win : Block.win ∈ fr) (h_evt : Block.evt ∈ fr) (h_stats : Block.stats ∈ fr) (h_hostMem : Block.hostMem ∈ fr) (hkp : Only fr s0 s) : Only fr s0 (eventToRing i r s) := by
  grind [eventToRing, only_pushEntry, only_setFlag, only_countEvent]

theorem only_eventToRings {fr : List Block} {s0 : State} (r : EventRec) (a1 : List (Fin 64)) {a2 : State} (h_out : Block.out ∈ fr) (h_win : Block.win ∈ fr) (h_evt : Block.evt ∈ fr) (h_stats : Block.stats ∈ fr) (h_hostMem : Block.hostMem ∈ fr) (hkp : Only fr s0 a2) : Only fr s0 (eventToRings r a1 a2) := by
  fun_induction eventToRings r a1 a2 <;> grind [only_eventToRing, only_upd]

theorem only_recordEvent {fr : List Block} {s0 : State} (code : Nat) (d : Domain) (det : W128) {s : State} (h_out : Block.out ∈ fr) (h_win : Block.win ∈ fr) (h_nor : Block.nor ∈ fr) (h_evt : Block.evt ∈ fr) (h_stats : Block.stats ∈ fr) (h_hostMem : Block.hostMem ∈ fr) (hkp : Only fr s0 s) : Only fr s0 (recordEvent code d det s) := by
  grind [recordEvent, only_eventToRings, only_upd]

theorem only_raise {fr : List Block} {s0 : State} (code : Nat) (d : Domain) (det : W128) {s : State} (h_out : Block.out ∈ fr) (h_win : Block.win ∈ fr) (h_nor : Block.nor ∈ fr) (h_evt : Block.evt ∈ fr) (h_stats : Block.stats ∈ fr) (h_hostMem : Block.hostMem ∈ fr) (hkp : Only fr s0 s) : Only fr s0 (raise code d det s) := by
  grind [raise, only_recordEvent, only_countEvent]

theorem only_complete {fr : List Block} {s0 : State} (src : Src) (c : Completion) {s : State} (h_out : Block.out ∈ fr) (h_win : Block.win ∈ fr) (h_mb : Block.mb ∈ fr) (h_svc : Block.svc ∈ fr) (h_stats : Block.stats ∈ fr) (h_hostMem : Block.hostMem ∈ fr) (hkp : Only fr s0 s) : Only fr s0 (complete src c s) := by
  unfold complete
  (repeat' split) <;> grind [only_emit, only_pushEntry, only_stat, only_upd]

theorem only_stopRing {fr : List Block} {s0 : State} (i : Fin 64) {s : State} (h_out : Block.out ∈ fr) (h_win : Block.win ∈ fr) (h_hostMem : Block.hostMem ∈ fr) (hkp : Only fr s0 s) : Only fr s0 (stopRing i s) := by
  grind [stopRing, only_writeShadow, only_setRing]

theorem only_finish {fr : List Block} {s0 : State} (w : Waiting) (status : Nat) (reason : Nat) (results : List W128) {s : State} (h_out : Block.out ∈ fr) (h_win : Block.win ∈ fr) (h_mb : Block.mb ∈ fr) (h_svc : Block.svc ∈ fr) (h_stats : Block.stats ∈ fr) (h_hostMem : Block.hostMem ∈ fr) (hkp : Only fr s0 s) : Only fr s0 (finish w status reason results s) := by
  grind [finish, only_complete, only_stopRing]

theorem only_finishAll {fr : List Block} {s0 : State} (p : Waiting → Option (Nat × Nat × List W128)) (a1 : List Waiting) {a2 : State} (h_out : Block.out ∈ fr) (h_win : Block.win ∈ fr) (h_mb : Block.mb ∈ fr) (h_svc : Block.svc ∈ fr) (h_stats : Block.stats ∈ fr) (h_hostMem : Block.hostMem ∈ fr) (hkp : Only fr s0 a2) : Only fr s0 (finishAll p a1 a2) := by
  fun_induction finishAll p a1 a2 <;> grind [only_finish, only_upd]

theorem only_settle {fr : List Block} {s0 : State} (p : Waiting → Option (Nat × Nat × List W128)) {s : State} (h_out : Block.out ∈ fr) (h_win : Block.win ∈ fr) (h_mb : Block.mb ∈ fr) (h_svc : Block.svc ∈ fr) (h_stats : Block.stats ∈ fr) (h_hostMem : Block.hostMem ∈ fr) (hkp : Only fr s0 s) : Only fr s0 (settle p s) := by
  grind [settle, only_finishAll, only_upd]

theorem only_raiseLimited {fr : List Block} {s0 : State} (key : Nat) (code : Nat) (d : Domain) (det : W128) {s : State} (h_out : Block.out ∈ fr) (h_win : Block.win ∈ fr) (h_nor : Block.nor ∈ fr) (h_evt : Block.evt ∈ fr) (h_stats : Block.stats ∈ fr) (h_hostMem : Block.hostMem ∈ fr) (hkp : Only fr s0 s) : Only fr s0 (raiseLimited key code d det s) := by
  grind [raiseLimited, only_countEvent, only_recordEvent, only_upd]

theorem only_writeRefused {fr : List Block} {s0 : State} (det : W128) {s : State} (h_out : Block.out ∈ fr) (h_win : Block.win ∈ fr) (h_nor : Block.nor ∈ fr) (h_evt : Block.evt ∈ fr) (h_stats : Block.stats ∈ fr) (h_hostMem : Block.hostMem ∈ fr) (hkp : Only fr s0 s) : Only fr s0 (writeRefused det s) := by
  grind [writeRefused, only_raise]

theorem only_injected {fr : List Block} {s0 : State} (fault : Nat) (p : BitVec 32 → Bool) {s : State} (h_diag : Block.diag ∈ fr) (hkp : Only fr s0 s) : Only fr s0 (injected fault p s).2 := by
  grind [injected, only_upd]

theorem only_injected_eq {fr : List Block} {s0 : State} (fault : Nat) (p : BitVec 32 → Bool) {s : State} {v : Bool} {t : State} (h_diag : Block.diag ∈ fr) (hev : (injected fault p s) = (v, t)) (h : Only fr s0 s) : Only fr s0 t := by
  have k := only_injected fault p h_diag h
  rw [hev] at k
  exact k

theorem only_takeFree {fr : List Block} {s0 : State} {s : State} (h_free : Block.free ∈ fr) (hkp : Only fr s0 s) : Only fr s0 (takeFree s).2 := by
  grind [takeFree, only_upd]

theorem only_takeFree_eq {fr : List Block} {s0 : State} {s : State} {v : BitVec 128} {t : State} (h_free : Block.free ∈ fr) (hev : (takeFree s) = (v, t)) (h : Only fr s0 s) : Only fr s0 t := by
  have k := only_takeFree  h_free h
  rw [hev] at k
  exact k

theorem only_cacheFill {fr : List Block} {s0 : State} (flow : Nat) (va : Nat) (pg : Bool × Nat × Bool) {s : State} (h_dma : Block.dma ∈ fr) (hkp : Only fr s0 s) : Only fr s0 (cacheFill flow va pg s) := by
  grind [cacheFill, only_upd]

theorem only_translate {fr : List Block} {s0 : State} (flow : Nat) (write : Bool) (va : Nat) {s : State} (h_dma : Block.dma ∈ fr) (h_diag : Block.diag ∈ fr) (h_stats : Block.stats ∈ fr) (h_free : Block.free ∈ fr) (hkp : Only fr s0 s) : Only fr s0 (translate flow write va s).2 := by
  unfold translate
  (repeat' split) <;> grind [only_injected, only_takeFree, only_stat, only_statAdd, only_cacheFill, → only_injected_eq, → only_takeFree_eq, only_upd]

theorem only_translate_eq {fr : List Block} {s0 : State} (flow : Nat) (write : Bool) (va : Nat) {s : State} {v : Except Nat Nat} {t : State} (h_dma : Block.dma ∈ fr) (h_diag : Block.diag ∈ fr) (h_stats : Block.stats ∈ fr) (h_free : Block.free ∈ fr) (hev : (translate flow write va s) = (v, t)) (h : Only fr s0 s) : Only fr s0 t := by
  have k := only_translate flow write va h_dma h_diag h_stats h_free h
  rw [hev] at k
  exact k

theorem only_vwriteFuel {fr : List Block} {s0 : State} (a0 : Nat) (a1 : Nat) (a2 : Nat) (a3 : List Byte) (a4 : Nat) {a5 : State} (h_dma : Block.dma ∈ fr) (h_diag : Block.diag ∈ fr) (h_stats : Block.stats ∈ fr) (h_hostMem : Block.hostMem ∈ fr) (h_free : Block.free ∈ fr) (hkp : Only fr s0 a5) : Only fr s0 (vwriteFuel a0 a1 a2 a3 a4 a5).2 := by
  fun_induction vwriteFuel a0 a1 a2 a3 a4 a5 <;> grind [only_translate, only_hostWrite, → only_translate_eq, only_upd]

theorem only_vwriteFuel_eq {fr : List Block} {s0 : State} (a0 : Nat) (a1 : Nat) (a2 : Nat) (a3 : List Byte) (a4 : Nat) {a5 : State} {v : (Option (Nat × Nat) × Nat)} {t : State} (h_dma : Block.dma ∈ fr) (h_diag : Block.diag ∈ fr) (h_stats : Block.stats ∈ fr) (h_hostMem : Block.hostMem ∈ fr) (h_free : Block.free ∈ fr) (hev : (vwriteFuel a0 a1 a2 a3 a4 a5) = (v, t)) (h : Only fr s0 a5) : Only fr s0 t := by
  have k := only_vwriteFuel a0 a1 a2 a3 a4 h_dma h_diag h_stats h_hostMem h_free h
  rw [hev] at k
  exact k

theorem only_vwrite {fr : List Block} {s0 : State} (flow : Nat) (va : Nat) (b : List Byte) {s : State} (h_dma : Block.dma ∈ fr) (h_diag : Block.diag ∈ fr) (h_stats : Block.stats ∈ fr) (h_hostMem : Block.hostMem ∈ fr) (h_free : Block.free ∈ fr) (hkp : Only fr s0 s) : Only fr s0 (vwrite flow va b s).2 := by
  grind [vwrite, only_vwriteFuel, → only_vwriteFuel_eq]

theorem only_vwrite_eq {fr : List Block} {s0 : State} (flow : Nat) (va : Nat) (b : List Byte) {s : State} {v : (Option (Nat × Nat) × Nat)} {t : State} (h_dma : Block.dma ∈ fr) (h_diag : Block.diag ∈ fr) (h_stats : Block.stats ∈ fr) (h_hostMem : Block.hostMem ∈ fr) (h_free : Block.free ∈ fr) (hev : (vwrite flow va b s) = (v, t)) (h : Only fr s0 s) : Only fr s0 t := by
  have k := only_vwrite flow va b h_dma h_diag h_stats h_hostMem h_free h
  rw [hev] at k
  exact k

theorem only_recordFault {fr : List Block} {s0 : State} (f : DFault) {s : State} (h_out : Block.out ∈ fr) (h_win : Block.win ∈ fr) (h_dma : Block.dma ∈ fr) (h_nor : Block.nor ∈ fr) (h_evt : Block.evt ∈ fr) (h_stats : Block.stats ∈ fr) (h_hostMem : Block.hostMem ∈ fr) (hkp : Only fr s0 s) : Only fr s0 (recordFault f s) := by
  grind [recordFault, only_raise, only_upd]

theorem only_promoteFault {fr : List Block} {s0 : State} {s : State} (h_out : Block.out ∈ fr) (h_win : Block.win ∈ fr) (h_dma : Block.dma ∈ fr) (h_nor : Block.nor ∈ fr) (h_evt : Block.evt ∈ fr) (h_stats : Block.stats ∈ fr) (h_hostMem : Block.hostMem ∈ fr) (hkp : Only fr s0 s) : Only fr s0 (promoteFault s) := by
  grind [promoteFault, only_recordFault, only_upd]

theorem only_vreadFuel {fr : List Block} {s0 : State} (a0 : Nat) (a1 : Nat) (a2 : Nat) (a3 : Nat) (a4 : List Byte) {a5 : State} (h_dma : Block.dma ∈ fr) (h_diag : Block.diag ∈ fr) (h_stats : Block.stats ∈ fr) (h_free : Block.free ∈ fr) (hkp : Only fr s0 a5) : Only fr s0 (vreadFuel a0 a1 a2 a3 a4 a5).2 := by
  fun_induction vreadFuel a0 a1 a2 a3 a4 a5 <;> grind [only_translate, → only_translate_eq, only_upd]

theorem only_vreadFuel_eq {fr : List Block} {s0 : State} (a0 : Nat) (a1 : Nat) (a2 : Nat) (a3 : Nat) (a4 : List Byte) {a5 : State} {v : Except (Nat × Nat × List Byte) (List Byte)} {t : State} (h_dma : Block.dma ∈ fr) (h_diag : Block.diag ∈ fr) (h_stats : Block.stats ∈ fr) (h_free : Block.free ∈ fr) (hev : (vreadFuel a0 a1 a2 a3 a4 a5) = (v, t)) (h : Only fr s0 a5) : Only fr s0 t := by
  have k := only_vreadFuel a0 a1 a2 a3 a4 h_dma h_diag h_stats h_free h
  rw [hev] at k
  exact k

theorem only_vread {fr : List Block} {s0 : State} (flow : Nat) (va : Nat) (n : Nat) {s : State} (h_dma : Block.dma ∈ fr) (h_diag : Block.diag ∈ fr) (h_stats : Block.stats ∈ fr) (h_free : Block.free ∈ fr) (hkp : Only fr s0 s) : Only fr s0 (vread flow va n s).2 := by
  grind [vread, only_vreadFuel, → only_vreadFuel_eq]

theorem only_vread_eq {fr : List Block} {s0 : State} (flow : Nat) (va : Nat) (n : Nat) {s : State} {v : Except (Nat × Nat × List Byte) (List Byte)} {t : State} (h_dma : Block.dma ∈ fr) (h_diag : Block.diag ∈ fr) (h_stats : Block.stats ∈ fr) (h_free : Block.free ∈ fr) (hev : (vread flow va n s) = (v, t)) (h : Only fr s0 s) : Only fr s0 t := by
  have k := only_vread flow va n h_dma h_diag h_stats h_free h
  rw [hev] at k
  exact k

theorem only_readSpace {fr : List Block} {s0 : State} (space : Nat) (flow : Nat) (a : Nat) (n : Nat) {s : State} (h_dma : Block.dma ∈ fr) (h_diag : Block.diag ∈ fr) (h_stats : Block.stats ∈ fr) (h_free : Block.free ∈ fr) (hkp : Only fr s0 s) : Only fr s0 (readSpace space flow a n s).2 := by
  grind [readSpace, only_vread, → only_vread_eq]

theorem only_readSpace_eq {fr : List Block} {s0 : State} (space : Nat) (flow : Nat) (a : Nat) (n : Nat) {s : State} {v : Except (Nat × Nat × List Byte) (List Byte)} {t : State} (h_dma : Block.dma ∈ fr) (h_diag : Block.diag ∈ fr) (h_stats : Block.stats ∈ fr) (h_free : Block.free ∈ fr) (hev : (readSpace space flow a n s) = (v, t)) (h : Only fr s0 s) : Only fr s0 t := by
  have k := only_readSpace space flow a n h_dma h_diag h_stats h_free h
  rw [hev] at k
  exact k

theorem only_consume {fr : List Block} {s0 : State} (src : Src) {s : State} (h_out : Block.out ∈ fr) (h_win : Block.win ∈ fr) (h_stats : Block.stats ∈ fr) (h_hostMem : Block.hostMem ∈ fr) (hkp : Only fr s0 s) : Only fr s0 (consume src s) := by
  unfold consume
  (repeat' split) <;> grind [only_setRing, only_advance, only_upd]

theorem only_stallCheck {fr : List Block} {s0 : State} (i : Fin 8) {s : State} (h_out : Block.out ∈ fr) (h_win : Block.win ∈ fr) (h_nor : Block.nor ∈ fr) (h_evt : Block.evt ∈ fr) (h_stats : Block.stats ∈ fr) (h_hostMem : Block.hostMem ∈ fr) (hkp : Only fr s0 s) : Only fr s0 (stallCheck i s) := by
  grind [stallCheck, only_raise, only_stat, only_setRing]

theorem only_refuseInMode {fr : List Block} {s0 : State} (c : Cmd) (r : Nat × Nat) {s : State} (h_out : Block.out ∈ fr) (h_win : Block.win ∈ fr) (h_nor : Block.nor ∈ fr) (h_evt : Block.evt ∈ fr) (h_stats : Block.stats ∈ fr) (h_hostMem : Block.hostMem ∈ fr) (hkp : Only fr s0 s) : Only fr s0 (refuseInMode c r s) := by
  grind [refuseInMode, only_raiseLimited]

theorem only_takeUp {fr : List Block} {s0 : State} (c : Cmd) (e : Entry) (hold : Bool) (act : Waiting → State → State) {s : State} (h_out : Block.out ∈ fr) (h_win : Block.win ∈ fr) (h_mb : Block.mb ∈ fr) (h_nor : Block.nor ∈ fr) (h_svc : Block.svc ∈ fr) (h_evt : Block.evt ∈ fr) (h_stats : Block.stats ∈ fr) (h_hostMem : Block.hostMem ∈ fr) (hkp : Only fr s0 s) (hact : ∀ x0 x1, Only fr s0 x1 → Only fr s0 (act x0 x1)) : Only fr s0 (takeUp c e hold act s) := by
  grind [takeUp, only_stallCheck, only_consume, only_finish, only_refuseInMode]

theorem only_wait {fr : List Block} {s0 : State} (w : Waiting) (on : WaitOn) {s : State} (h_mb : Block.mb ∈ fr) (hkp : Only fr s0 s) : Only fr s0 (wait w on s) := by
  grind [wait, only_upd]

theorem only_readBuffer {fr : List Block} {s0 : State} (e : Entry) (w : W128) (lenOk : Nat → Bool) {s : State} (h_dma : Block.dma ∈ fr) (h_diag : Block.diag ∈ fr) (h_stats : Block.stats ∈ fr) (h_free : Block.free ∈ fr) (hkp : Only fr s0 s) : Only fr s0 (readBuffer e w lenOk s).2 := by
  grind [readBuffer, only_vread, → only_vread_eq]

theorem only_readBuffer_eq {fr : List Block} {s0 : State} (e : Entry) (w : W128) (lenOk : Nat → Bool) {s : State} {v : Except (Nat × Nat) (List Byte)} {t : State} (h_dma : Block.dma ∈ fr) (h_diag : Block.diag ∈ fr) (h_stats : Block.stats ∈ fr) (h_free : Block.free ∈ fr) (hev : (readBuffer e w lenOk s) = (v, t)) (h : Only fr s0 s) : Only fr s0 t := by
  have k := only_readBuffer e w lenOk h_dma h_diag h_stats h_free h
  rw [hev] at k
  exact k

theorem only_setSmb {fr : List Block} {s0 : State} (m : BitVec 4) {s : State} (h_smb : Block.smb ∈ fr) (hkp : Only fr s0 s) : Only fr s0 (setSmb m s) := by
  grind [setSmb, only_upd]

theorem only_setPort {fr : List Block} {s0 : State} (p : Fin 8) (q : Port) {s : State} (h_fab : Block.fab ∈ fr) (hkp : Only fr s0 s) : Only fr s0 (setPort p q s) := by
  grind [setPort, only_upd]

theorem only_setPClass {fr : List Block} {s0 : State} (p : Fin 8) (c : Fin 4) (k : PClass) {s : State} (h_fab : Block.fab ∈ fr) (hkp : Only fr s0 s) : Only fr s0 (setPClass p c k s) := by
  grind [setPClass, only_setPort]

theorem only_transmit {fr : List Block} {s0 : State} (p : Fin 8) (c : Fin 4) (t : TxSpore) {s : State} (h_out : Block.out ∈ fr) (h_fab : Block.fab ∈ fr) (h_diag : Block.diag ∈ fr) (h_stats : Block.stats ∈ fr) (hkp : Only fr s0 s) : Only fr s0 (transmit p c t s) := by
  grind [transmit, only_injected, only_stat, only_setPClass, only_emit, → only_injected_eq]

theorem only_sendOn {fr : List Block} {s0 : State} (p : Fin 8) (c : Fin 4) (t : TxSpore) {s : State} (h_out : Block.out ∈ fr) (h_fab : Block.fab ∈ fr) (h_diag : Block.diag ∈ fr) (h_stats : Block.stats ∈ fr) (hkp : Only fr s0 s) : Only fr s0 (sendOn p c t s) := by
  grind [sendOn, only_transmit, only_setPClass]

theorem only_originateOn {fr : List Block} {s0 : State} (p : Fin 8) (dst : Nat) (typ : Nat) (c : Fin 4) (payload : List Byte) {s : State} (h_out : Block.out ∈ fr) (h_fab : Block.fab ∈ fr) (h_diag : Block.diag ∈ fr) (h_stats : Block.stats ∈ fr) (hkp : Only fr s0 s) : Only fr s0 (originateOn p dst typ c payload s) := by
  grind [originateOn, only_sendOn, only_upd]

theorem only_undeliverable {fr : List Block} {s0 : State} (reason : Nat) {s : State} (h_out : Block.out ∈ fr) (h_win : Block.win ∈ fr) (h_nor : Block.nor ∈ fr) (h_evt : Block.evt ∈ fr) (h_stats : Block.stats ∈ fr) (h_hostMem : Block.hostMem ∈ fr) (hkp : Only fr s0 s) : Only fr s0 (undeliverable reason s) := by
  grind [undeliverable, only_raise, only_stat]

theorem only_send {fr : List Block} {s0 : State} (dst : Nat) (typ : Nat) (c : Fin 4) (payload : List Byte) {s : State} (h_out : Block.out ∈ fr) (h_win : Block.win ∈ fr) (h_fab : Block.fab ∈ fr) (h_nor : Block.nor ∈ fr) (h_diag : Block.diag ∈ fr) (h_evt : Block.evt ∈ fr) (h_stats : Block.stats ∈ fr) (h_hostMem : Block.hostMem ∈ fr) (hkp : Only fr s0 s) : Only fr s0 (send dst typ c payload s) := by
  grind [send, only_originateOn, only_undeliverable]

theorem only_nackSpore {fr : List Block} {s0 : State} (w : W128) (reason : Nat) (sub : Nat) {s : State} (h_out : Block.out ∈ fr) (h_win : Block.win ∈ fr) (h_fab : Block.fab ∈ fr) (h_nor : Block.nor ∈ fr) (h_diag : Block.diag ∈ fr) (h_evt : Block.evt ∈ fr) (h_stats : Block.stats ∈ fr) (h_hostMem : Block.hostMem ∈ fr) (hkp : Only fr s0 s) : Only fr s0 (nackSpore w reason sub s) := by
  grind [nackSpore, only_undeliverable, only_send]

theorem only_sendLinkAck {fr : List Block} {s0 : State} (p : Fin 8) (c : Fin 4) (code : Nat) (viol : Nat) {s : State} (h_out : Block.out ∈ fr) (hkp : Only fr s0 s) : Only fr s0 (sendLinkAck p c code viol s) := by
  grind [sendLinkAck, only_emit]

theorem only_ackIfEight {fr : List Block} {s0 : State} (p : Fin 8) (c : Fin 4) {s : State} (h_out : Block.out ∈ fr) (h_fab : Block.fab ∈ fr) (hkp : Only fr s0 s) : Only fr s0 (ackIfEight p c s) := by
  grind [ackIfEight, only_sendLinkAck, only_setPClass]

theorem only_floodFrom {fr : List Block} {s0 : State} (except : Option (Fin 8)) (typ : Nat) (payload : List Byte) (a3 : List (Fin 8)) {a4 : State} (h_out : Block.out ∈ fr) (h_fab : Block.fab ∈ fr) (h_diag : Block.diag ∈ fr) (h_stats : Block.stats ∈ fr) (hkp : Only fr s0 a4) : Only fr s0 (floodFrom except typ payload a3 a4) := by
  fun_induction floodFrom except typ payload a3 a4 <;> grind [only_originateOn, only_upd]

theorem only_updateRoutes {fr : List Block} {s0 : State} (a0 : List (Nat × BitVec 32)) {a1 : State} (h_out : Block.out ∈ fr) (h_win : Block.win ∈ fr) (h_fab : Block.fab ∈ fr) (h_nor : Block.nor ∈ fr) (h_evt : Block.evt ∈ fr) (h_stats : Block.stats ∈ fr) (h_hostMem : Block.hostMem ∈ fr) (hkp : Only fr s0 a1) : Only fr s0 (updateRoutes a0 a1) := by
  fun_induction updateRoutes a0 a1 <;> grind [only_raise, only_upd]

theorem only_refreshRoutes {fr : List Block} {s0 : State} {s : State} (h_out : Block.out ∈ fr) (h_win : Block.win ∈ fr) (h_fab : Block.fab ∈ fr) (h_nor : Block.nor ∈ fr) (h_evt : Block.evt ∈ fr) (h_stats : Block.stats ∈ fr) (h_hostMem : Block.hostMem ∈ fr) (hkp : Only fr s0 s) : Only fr s0 (refreshRoutes s) := by
  grind [refreshRoutes, only_updateRoutes]

theorem only_violation {fr : List Block} {s0 : State} (p : Fin 8) (code : Nat) (src : Nat) (typ : Nat) {s : State} (h_out : Block.out ∈ fr) (h_win : Block.win ∈ fr) (h_fab : Block.fab ∈ fr) (h_nor : Block.nor ∈ fr) (h_evt : Block.evt ∈ fr) (h_stats : Block.stats ∈ fr) (h_hostMem : Block.hostMem ∈ fr) (hkp : Only fr s0 s) : Only fr s0 (violation p code src typ s) := by
  have h1 : Only fr s0 (raiseLimited (0x060300 + p.val) 0x0603 .fab (detail [du 8 p.val, du 8 code, du 16 src, du 8 typ])
      (stat (sk 0x06010001 (0x200 + p.val * 16 + code)) s)) := by
    grind [only_raiseLimited, only_stat]
  rw [violation]
  generalize raiseLimited _ _ _ _ _ = s1 at h1
  split
  · generalize { port s1 p with viol := _, st := _ } = q
    grind [only_refreshRoutes, only_raise, only_setPort]
  · generalize { port s1 p with viol := _ } = q
    grind [only_setPort]

theorem only_sendAlternate {fr : List Block} {s0 : State} (dst : Nat) (typ : Nat) (c : Fin 4) (payload : List Byte) {s : State} (h_out : Block.out ∈ fr) (h_fab : Block.fab ∈ fr) (h_diag : Block.diag ∈ fr) (h_stats : Block.stats ∈ fr) (hkp : Only fr s0 s) : Only fr s0 (sendAlternate dst typ c payload s) := by
  grind [sendAlternate, only_originateOn]

theorem only_sendBoth {fr : List Block} {s0 : State} (dst : Nat) (typ : Nat) (c : Fin 4) (payload : List Byte) {s : State} (h_out : Block.out ∈ fr) (h_win : Block.win ∈ fr) (h_fab : Block.fab ∈ fr) (h_nor : Block.nor ∈ fr) (h_diag : Block.diag ∈ fr) (h_evt : Block.evt ∈ fr) (h_stats : Block.stats ∈ fr) (h_hostMem : Block.hostMem ∈ fr) (hkp : Only fr s0 s) : Only fr s0 (sendBoth dst typ c payload s) := by
  grind [sendBoth, only_sendAlternate, only_send]

theorem only_dropPorts {fr : List Block} {s0 : State} {s : State} (h_fab : Block.fab ∈ fr) (hkp : Only fr s0 s) : Only fr s0 (dropPorts s) := by
  grind [dropPorts, only_upd]

theorem only_drainQueue {fr : List Block} {s0 : State} (p : Fin 8) (c : Fin 4) (a2 : Nat) {a3 : State} (h_out : Block.out ∈ fr) (h_fab : Block.fab ∈ fr) (h_diag : Block.diag ∈ fr) (h_stats : Block.stats ∈ fr) (hkp : Only fr s0 a3) : Only fr s0 (drainQueue p c a2 a3) := by
  fun_induction drainQueue p c a2 a3 <;> grind [only_transmit, only_setPClass, only_upd]

theorem only_rerouteAll {fr : List Block} {s0 : State} (a0 : List (Fin 4 × TxSpore)) {a1 : State} (h_out : Block.out ∈ fr) (h_win : Block.win ∈ fr) (h_fab : Block.fab ∈ fr) (h_nor : Block.nor ∈ fr) (h_diag : Block.diag ∈ fr) (h_evt : Block.evt ∈ fr) (h_stats : Block.stats ∈ fr) (h_hostMem : Block.hostMem ∈ fr) (hkp : Only fr s0 a1) : Only fr s0 (rerouteAll a0 a1) := by
  fun_induction rerouteAll a0 a1 <;> grind [only_sendOn, only_nackSpore, only_upd]

theorem only_portDown {fr : List Block} {s0 : State} (p : Fin 8) {s : State} (h_out : Block.out ∈ fr) (h_win : Block.win ∈ fr) (h_fab : Block.fab ∈ fr) (h_nor : Block.nor ∈ fr) (h_diag : Block.diag ∈ fr) (h_evt : Block.evt ∈ fr) (h_stats : Block.stats ∈ fr) (h_hostMem : Block.hostMem ∈ fr) (hkp : Only fr s0 s) : Only fr s0 (portDown p s) := by
  grind [portDown, only_rerouteAll, only_refreshRoutes, only_raise, only_setPort]

theorem only_violationAck {fr : List Block} {s0 : State} (p : Fin 8) (c : Fin 4) (code : Nat) (src : Nat) (typ : Nat) {s : State} (h_out : Block.out ∈ fr) (h_win : Block.win ∈ fr) (h_fab : Block.fab ∈ fr) (h_nor : Block.nor ∈ fr) (h_evt : Block.evt ∈ fr) (h_stats : Block.stats ∈ fr) (h_hostMem : Block.hostMem ∈ fr) (hkp : Only fr s0 s) : Only fr s0 (violationAck p c code src typ s) := by
  grind [violationAck, only_sendLinkAck, only_violation]

theorem only_resendAll {fr : List Block} {s0 : State} (p : Fin 8) (c : Fin 4) (a2 : List TxSpore) {a3 : State} (h_out : Block.out ∈ fr) (hkp : Only fr s0 a3) : Only fr s0 (resendAll p c a2 a3) := by
  fun_induction resendAll p c a2 a3 <;> grind [only_emit, only_upd]

theorem only_retransmit {fr : List Block} {s0 : State} (p : Fin 8) (c : Fin 4) {s : State} (h_out : Block.out ∈ fr) (h_win : Block.win ∈ fr) (h_fab : Block.fab ∈ fr) (h_nor : Block.nor ∈ fr) (h_diag : Block.diag ∈ fr) (h_evt : Block.evt ∈ fr) (h_stats : Block.stats ∈ fr) (h_hostMem : Block.hostMem ∈ fr) (hkp : Only fr s0 s) : Only fr s0 (retransmit p c s) := by
  grind [retransmit, only_raiseLimited, only_stat, only_setPClass, only_portDown, only_resendAll]

theorem only_sendCredit {fr : List Block} {s0 : State} (p : Fin 8) {s : State} (h_out : Block.out ∈ fr) (h_fab : Block.fab ∈ fr) (hkp : Only fr s0 s) : Only fr s0 (sendCredit p s) := by
  grind [sendCredit, only_emit, only_setPort]

theorem only_linkTake {fr : List Block} {s0 : State} (p : Fin 8) (sp : Spore) {s : State} (h_out : Block.out ∈ fr) (h_win : Block.win ∈ fr) (h_fab : Block.fab ∈ fr) (h_nor : Block.nor ∈ fr) (h_evt : Block.evt ∈ fr) (h_stats : Block.stats ∈ fr) (h_hostMem : Block.hostMem ∈ fr) (hkp : Only fr s0 s) : Only fr s0 (linkTake p sp s).2 := by
  unfold linkTake
  dsimp only
  (repeat' split) <;> grind [only_violationAck, only_setPClass, only_ackIfEight, only_sendLinkAck, only_stat, only_upd]

theorem only_linkTake_eq {fr : List Block} {s0 : State} (p : Fin 8) (sp : Spore) {s : State} {v : Bool} {t : State} (h_out : Block.out ∈ fr) (h_win : Block.win ∈ fr) (h_fab : Block.fab ∈ fr) (h_nor : Block.nor ∈ fr) (h_evt : Block.evt ∈ fr) (h_stats : Block.stats ∈ fr) (h_hostMem : Block.hostMem ∈ fr) (hev : (linkTake p sp s) = (v, t)) (h : Only fr s0 s) : Only fr s0 t := by
  have k := only_linkTake p sp h_out h_win h_fab h_nor h_evt h_stats h_hostMem h
  rw [hev] at k
  exact k

theorem only_forward {fr : List Block} {s0 : State} (sp : Spore) {s : State} (h_out : Block.out ∈ fr) (h_win : Block.win ∈ fr) (h_fab : Block.fab ∈ fr) (h_nor : Block.nor ∈ fr) (h_diag : Block.diag ∈ fr) (h_evt : Block.evt ∈ fr) (h_stats : Block.stats ∈ fr) (h_hostMem : Block.hostMem ∈ fr) (hkp : Only fr s0 s) : Only fr s0 (forward sp s) := by
  grind [forward, only_nackSpore, only_sendOn]

theorem only_rxSpore {fr : List Block} {s0 : State} (typ : Nat) (p : Fin 8) (sp : Spore) (deliver : State → State) {s : State} (h_out : Block.out ∈ fr) (h_win : Block.win ∈ fr) (h_fab : Block.fab ∈ fr) (h_nor : Block.nor ∈ fr) (h_diag : Block.diag ∈ fr) (h_evt : Block.evt ∈ fr) (h_stats : Block.stats ∈ fr) (h_hostMem : Block.hostMem ∈ fr) (hkp : Only fr s0 s) (hdeliver : ∀ x0, Only fr s0 x0 → Only fr s0 (deliver x0)) : Only fr s0 (rxSpore typ p sp deliver s) := by
  grind [rxSpore, only_linkTake, only_violationAck, only_nackSpore, only_violation, only_forward, → only_linkTake_eq]

theorem only_forwardFlood {fr : List Block} {s0 : State} (p : Fin 8) (sp : Spore) (a2 : List (Fin 8)) {a3 : State} (h_out : Block.out ∈ fr) (h_fab : Block.fab ∈ fr) (h_diag : Block.diag ∈ fr) (h_stats : Block.stats ∈ fr) (hkp : Only fr s0 a3) : Only fr s0 (forwardFlood p sp a2 a3) := by
  fun_induction forwardFlood p sp a2 a3 <;> grind [only_sendOn, only_upd]

theorem only_sendRecs {fr : List Block} {s0 : State} (node : BitVec 12) (rs : List WRec) {s : State} (h_out : Block.out ∈ fr) (h_win : Block.win ∈ fr) (h_fab : Block.fab ∈ fr) (h_nor : Block.nor ∈ fr) (h_diag : Block.diag ∈ fr) (h_evt : Block.evt ∈ fr) (h_stats : Block.stats ∈ fr) (h_hostMem : Block.hostMem ∈ fr) (hkp : Only fr s0 s) : Only fr s0 (sendRecs node rs s) := by
  grind [sendRecs, only_send]

theorem only_writeRegion {fr : List Block} {s0 : State} (f : BitVec 8) (a : Nat) (n : Nat) (r : WRec) {s : State} (h_out : Block.out ∈ fr) (h_win : Block.win ∈ fr) (h_dma : Block.dma ∈ fr) (h_nor : Block.nor ∈ fr) (h_diag : Block.diag ∈ fr) (h_evt : Block.evt ∈ fr) (h_stats : Block.stats ∈ fr) (h_hostMem : Block.hostMem ∈ fr) (h_free : Block.free ∈ fr) (hkp : Only fr s0 s) : Only fr s0 (writeRegion f a n r s) := by
  grind [writeRegion, only_vwrite, only_recordFault, → only_vwrite_eq]

theorem only_sendTo {fr : List Block} {s0 : State} (w : WitnessKind) (r : WRec) {s : State} (h_out : Block.out ∈ fr) (h_win : Block.win ∈ fr) (h_dma : Block.dma ∈ fr) (h_fab : Block.fab ∈ fr) (h_nor : Block.nor ∈ fr) (h_diag : Block.diag ∈ fr) (h_evt : Block.evt ∈ fr) (h_stats : Block.stats ∈ fr) (h_hostMem : Block.hostMem ∈ fr) (h_free : Block.free ∈ fr) (hkp : Only fr s0 s) : Only fr s0 (sendTo w r s) := by
  unfold sendTo
  (repeat' split) <;> grind [only_sendRecs, only_writeRegion, only_upd]

theorem only_sendRec {fr : List Block} {s0 : State} (r : WRec) {s : State} (h_out : Block.out ∈ fr) (h_win : Block.win ∈ fr) (h_dma : Block.dma ∈ fr) (h_fab : Block.fab ∈ fr) (h_nor : Block.nor ∈ fr) (h_diag : Block.diag ∈ fr) (h_evt : Block.evt ∈ fr) (h_stats : Block.stats ∈ fr) (h_hostMem : Block.hostMem ∈ fr) (h_free : Block.free ∈ fr) (hkp : Only fr s0 s) : Only fr s0 (sendRec r s) := by
  grind [sendRec, only_sendTo, only_sendRecs]

theorem only_appendRec {fr : List Block} {s0 : State} (mk : State → WRec) {s : State} (h_out : Block.out ∈ fr) (h_win : Block.win ∈ fr) (h_led : Block.led ∈ fr) (h_dma : Block.dma ∈ fr) (h_fab : Block.fab ∈ fr) (h_nor : Block.nor ∈ fr) (h_diag : Block.diag ∈ fr) (h_evt : Block.evt ∈ fr) (h_stats : Block.stats ∈ fr) (h_hostMem : Block.hostMem ∈ fr) (h_free : Block.free ∈ fr) (hkp : Only fr s0 s) : Only fr s0 (appendRec mk s) := by
  grind [appendRec, only_stat, only_sendRec, only_upd]

theorem only_checkpointItems {fr : List Block} {s0 : State} (a0 : List Item) {a1 : State} (h_out : Block.out ∈ fr) (h_win : Block.win ∈ fr) (h_led : Block.led ∈ fr) (h_dma : Block.dma ∈ fr) (h_fab : Block.fab ∈ fr) (h_nor : Block.nor ∈ fr) (h_diag : Block.diag ∈ fr) (h_evt : Block.evt ∈ fr) (h_stats : Block.stats ∈ fr) (h_hostMem : Block.hostMem ∈ fr) (h_free : Block.free ∈ fr) (hkp : Only fr s0 a1) : Only fr s0 (checkpointItems a0 a1) := by
  fun_induction checkpointItems a0 a1 <;> grind [only_appendRec, only_upd]

theorem only_checkpointFlows {fr : List Block} {s0 : State} (a0 : List (Nat × Flow)) {a1 : State} (h_out : Block.out ∈ fr) (h_win : Block.win ∈ fr) (h_led : Block.led ∈ fr) (h_dma : Block.dma ∈ fr) (h_fab : Block.fab ∈ fr) (h_nor : Block.nor ∈ fr) (h_diag : Block.diag ∈ fr) (h_evt : Block.evt ∈ fr) (h_stats : Block.stats ∈ fr) (h_hostMem : Block.hostMem ∈ fr) (h_free : Block.free ∈ fr) (hkp : Only fr s0 a1) : Only fr s0 (checkpointFlows a0 a1) := by
  fun_induction checkpointFlows a0 a1 <;> grind [only_appendRec, only_upd]

theorem only_regionCheckpoint {fr : List Block} {s0 : State} {s : State} (h_out : Block.out ∈ fr) (h_win : Block.win ∈ fr) (h_led : Block.led ∈ fr) (h_dma : Block.dma ∈ fr) (h_fab : Block.fab ∈ fr) (h_nor : Block.nor ∈ fr) (h_diag : Block.diag ∈ fr) (h_evt : Block.evt ∈ fr) (h_stats : Block.stats ∈ fr) (h_hostMem : Block.hostMem ∈ fr) (h_free : Block.free ∈ fr) (hkp : Only fr s0 s) : Only fr s0 (regionCheckpoint s) := by
  grind [regionCheckpoint, only_checkpointItems, only_checkpointFlows]

theorem only_writeRec {fr : List Block} {s0 : State} (mk : State → WRec) {s : State} (h_out : Block.out ∈ fr) (h_win : Block.win ∈ fr) (h_led : Block.led ∈ fr) (h_dma : Block.dma ∈ fr) (h_fab : Block.fab ∈ fr) (h_nor : Block.nor ∈ fr) (h_diag : Block.diag ∈ fr) (h_evt : Block.evt ∈ fr) (h_stats : Block.stats ∈ fr) (h_hostMem : Block.hostMem ∈ fr) (h_free : Block.free ∈ fr) (hkp : Only fr s0 s) : Only fr s0 (writeRec mk s) := by
  grind [writeRec, only_appendRec, only_regionCheckpoint]

theorem only_putItem {fr : List Block} {s0 : State} (x : Item) {s : State} (h_led : Block.led ∈ fr) (hkp : Only fr s0 s) : Only fr s0 (putItem x s) := by
  grind [putItem, only_upd]

theorem only_endItem {fr : List Block} {s0 : State} (i : Item) (st : ItemSt) (status : Nat) (reason : Nat) {s : State} (h_out : Block.out ∈ fr) (h_win : Block.win ∈ fr) (h_led : Block.led ∈ fr) (h_dma : Block.dma ∈ fr) (h_fab : Block.fab ∈ fr) (h_nor : Block.nor ∈ fr) (h_diag : Block.diag ∈ fr) (h_evt : Block.evt ∈ fr) (h_stats : Block.stats ∈ fr) (h_hostMem : Block.hostMem ∈ fr) (h_free : Block.free ∈ fr) (hkp : Only fr s0 s) : Only fr s0 (endItem i st status reason s) := by
  grind [endItem, only_writeRec, only_putItem, only_raise]

theorem only_failItem {fr : List Block} {s0 : State} (f : BitVec 8) (q : BitVec 64) (status : Nat) (reason : Nat) {s : State} (h_out : Block.out ∈ fr) (h_win : Block.win ∈ fr) (h_led : Block.led ∈ fr) (h_dma : Block.dma ∈ fr) (h_fab : Block.fab ∈ fr) (h_nor : Block.nor ∈ fr) (h_diag : Block.diag ∈ fr) (h_evt : Block.evt ∈ fr) (h_stats : Block.stats ∈ fr) (h_hostMem : Block.hostMem ∈ fr) (h_free : Block.free ∈ fr) (hkp : Only fr s0 s) : Only fr s0 (failItem f q status reason s) := by
  grind [failItem, only_endItem]

theorem only_doneItem {fr : List Block} {s0 : State} (f : BitVec 8) (q : BitVec 64) (result : Nat) {s : State} (h_out : Block.out ∈ fr) (h_win : Block.win ∈ fr) (h_led : Block.led ∈ fr) (h_dma : Block.dma ∈ fr) (h_fab : Block.fab ∈ fr) (h_nor : Block.nor ∈ fr) (h_diag : Block.diag ∈ fr) (h_evt : Block.evt ∈ fr) (h_stats : Block.stats ∈ fr) (h_hostMem : Block.hostMem ∈ fr) (h_free : Block.free ∈ fr) (hkp : Only fr s0 s) : Only fr s0 (doneItem f q result s) := by
  grind [doneItem, only_endItem]

theorem only_setFlow {fr : List Block} {s0 : State} (f : BitVec 8) (x : Flow) {s : State} (h_led : Block.led ∈ fr) (hkp : Only fr s0 s) : Only fr s0 (setFlow f x s) := by
  grind [setFlow, only_upd]

theorem only_acceptItem {fr : List Block} {s0 : State} (i : Item) {s : State} (h_led : Block.led ∈ fr) (hkp : Only fr s0 s) : Only fr s0 (acceptItem i s) := by
  grind [acceptItem, only_setFlow, only_putItem]

theorem only_retireFlow {fr : List Block} {s0 : State} (f : BitVec 8) {s : State} (h_led : Block.led ∈ fr) (hkp : Only fr s0 s) : Only fr s0 (retireFlow f s) := by
  grind [retireFlow, only_upd]

theorem only_applyFloor {fr : List Block} {s0 : State} (f : BitVec 8) (floor : BitVec 64) {s : State} (h_led : Block.led ∈ fr) (hkp : Only fr s0 s) : Only fr s0 (applyFloor f floor s) := by
  grind [applyFloor, only_setFlow, only_upd]

theorem only_ackEffect {fr : List Block} {s0 : State} (a : Nat) (w : Waiting) {s : State} (h_led : Block.led ∈ fr) (hkp : Only fr s0 s) : Only fr s0 (ackEffect a w s) := by
  grind [ackEffect, only_setFlow, only_retireFlow, only_applyFloor]

theorem only_ackEffects {fr : List Block} {s0 : State} (a : Nat) (a1 : List Waiting) {a2 : State} (h_led : Block.led ∈ fr) (hkp : Only fr s0 a2) : Only fr s0 (ackEffects a a1 a2) := by
  fun_induction ackEffects a a1 a2 <;> grind [only_ackEffect, only_upd]

theorem only_drainResults {fr : List Block} {s0 : State} (j : Fin 8) (a1 : Nat) {a2 : State} (h_out : Block.out ∈ fr) (h_win : Block.win ∈ fr) (h_stats : Block.stats ∈ fr) (h_hostMem : Block.hostMem ∈ fr) (hkp : Only fr s0 a2) : Only fr s0 (drainResults j a1 a2) := by
  fun_induction drainResults j a1 a2 <;> grind [only_setRing, only_pushEntry, only_upd]

theorem only_serveResults {fr : List Block} {s0 : State} (j : Fin 8) {s : State} (h_out : Block.out ∈ fr) (h_win : Block.win ∈ fr) (h_stats : Block.stats ∈ fr) (h_hostMem : Block.hostMem ∈ fr) (hkp : Only fr s0 s) : Only fr s0 (serveResults j s) := by
  grind [serveResults, only_drainResults]

theorem only_publish {fr : List Block} {s0 : State} (i : Item) {s : State} (h_out : Block.out ∈ fr) (h_win : Block.win ∈ fr) (h_led : Block.led ∈ fr) (h_stats : Block.stats ∈ fr) (h_hostMem : Block.hostMem ∈ fr) (hkp : Only fr s0 s) : Only fr s0 (publish i s) := by
  grind [publish, only_serveResults, only_putItem, only_upd]

theorem only_settleItem {fr : List Block} {s0 : State} (a : Nat) (i : Item) {s : State} (h_out : Block.out ∈ fr) (h_win : Block.win ∈ fr) (h_led : Block.led ∈ fr) (h_stats : Block.stats ∈ fr) (h_hostMem : Block.hostMem ∈ fr) (hkp : Only fr s0 s) : Only fr s0 (settleItem a i s) := by
  grind [settleItem, only_acceptItem, only_publish]

theorem only_settleItems {fr : List Block} {s0 : State} (a : Nat) (a1 : List Item) {a2 : State} (h_out : Block.out ∈ fr) (h_win : Block.win ∈ fr) (h_led : Block.led ∈ fr) (h_stats : Block.stats ∈ fr) (h_hostMem : Block.hostMem ∈ fr) (hkp : Only fr s0 a2) : Only fr s0 (settleItems a a1 a2) := by
  fun_induction settleItems a a1 a2 <;> grind [only_settleItem, only_upd]

theorem only_settleAcks {fr : List Block} {s0 : State} {s : State} (h_out : Block.out ∈ fr) (h_win : Block.win ∈ fr) (h_mb : Block.mb ∈ fr) (h_led : Block.led ∈ fr) (h_svc : Block.svc ∈ fr) (h_stats : Block.stats ∈ fr) (h_hostMem : Block.hostMem ∈ fr) (hkp : Only fr s0 s) : Only fr s0 (settleAcks s) := by
  grind [settleAcks, only_settleItems, only_ackEffects, only_settle, only_upd]

theorem only_ackMirror {fr : List Block} {s0 : State} (a : Nat) {s : State} (h_out : Block.out ∈ fr) (h_win : Block.win ∈ fr) (h_mb : Block.mb ∈ fr) (h_led : Block.led ∈ fr) (h_svc : Block.svc ∈ fr) (h_stats : Block.stats ∈ fr) (h_hostMem : Block.hostMem ∈ fr) (hkp : Only fr s0 s) : Only fr s0 (ackMirror a s) := by
  grind [ackMirror, only_settleAcks, only_upd]

theorem only_ackUpTo {fr : List Block} {s0 : State} (a : Nat) {s : State} (h_out : Block.out ∈ fr) (h_win : Block.win ∈ fr) (h_mb : Block.mb ∈ fr) (h_led : Block.led ∈ fr) (h_svc : Block.svc ∈ fr) (h_stats : Block.stats ∈ fr) (h_hostMem : Block.hostMem ∈ fr) (hkp : Only fr s0 s) : Only fr s0 (ackUpTo a s) := by
  grind [ackUpTo, only_settleAcks, only_upd]

theorem only_addItem {fr : List Block} {s0 : State} (x : Item) {s : State} (h_led : Block.led ∈ fr) (hkp : Only fr s0 s) : Only fr s0 (addItem x s) := by
  grind [addItem, only_upd]

theorem only_progressRec {fr : List Block} {s0 : State} {s : State} (h_out : Block.out ∈ fr) (h_win : Block.win ∈ fr) (h_led : Block.led ∈ fr) (h_dma : Block.dma ∈ fr) (h_fab : Block.fab ∈ fr) (h_nor : Block.nor ∈ fr) (h_diag : Block.diag ∈ fr) (h_evt : Block.evt ∈ fr) (h_stats : Block.stats ∈ fr) (h_hostMem : Block.hostMem ∈ fr) (h_free : Block.free ∈ fr) (hkp : Only fr s0 s) : Only fr s0 (progressRec s) := by
  grind [progressRec, only_writeRec, only_putItem]

theorem only_dropItem {fr : List Block} {s0 : State} (f : BitVec 8) (q : BitVec 64) {s : State} (h_led : Block.led ∈ fr) (hkp : Only fr s0 s) : Only fr s0 (dropItem f q s) := by
  grind [dropItem, only_upd]

theorem only_restoreFlow {fr : List Block} {s0 : State} (w : Waiting) {s : State} (h_out : Block.out ∈ fr) (h_win : Block.win ∈ fr) (h_led : Block.led ∈ fr) (h_dma : Block.dma ∈ fr) (h_fab : Block.fab ∈ fr) (h_nor : Block.nor ∈ fr) (h_diag : Block.diag ∈ fr) (h_evt : Block.evt ∈ fr) (h_stats : Block.stats ∈ fr) (h_hostMem : Block.hostMem ∈ fr) (h_free : Block.free ∈ fr) (hkp : Only fr s0 s) : Only fr s0 (restoreFlow w s) := by
  grind [restoreFlow, only_writeRec]

theorem only_restoreFlows {fr : List Block} {s0 : State} (a0 : List Waiting) {a1 : State} (h_out : Block.out ∈ fr) (h_win : Block.win ∈ fr) (h_led : Block.led ∈ fr) (h_dma : Block.dma ∈ fr) (h_fab : Block.fab ∈ fr) (h_nor : Block.nor ∈ fr) (h_diag : Block.diag ∈ fr) (h_evt : Block.evt ∈ fr) (h_stats : Block.stats ∈ fr) (h_hostMem : Block.hostMem ∈ fr) (h_free : Block.free ∈ fr) (hkp : Only fr s0 a1) : Only fr s0 (restoreFlows a0 a1) := by
  fun_induction restoreFlows a0 a1 <;> grind [only_restoreFlow, only_upd]

theorem only_withdraw {fr : List Block} {s0 : State} (i : Item) {s : State} (h_out : Block.out ∈ fr) (h_win : Block.win ∈ fr) (h_led : Block.led ∈ fr) (h_dma : Block.dma ∈ fr) (h_fab : Block.fab ∈ fr) (h_nor : Block.nor ∈ fr) (h_diag : Block.diag ∈ fr) (h_evt : Block.evt ∈ fr) (h_stats : Block.stats ∈ fr) (h_hostMem : Block.hostMem ∈ fr) (h_free : Block.free ∈ fr) (hkp : Only fr s0 s) : Only fr s0 (withdraw i s) := by
  grind [withdraw, only_dropItem, only_writeRec, only_upd]

theorem only_withdrawAll {fr : List Block} {s0 : State} (a0 : List Item) {a1 : State} (h_out : Block.out ∈ fr) (h_win : Block.win ∈ fr) (h_led : Block.led ∈ fr) (h_dma : Block.dma ∈ fr) (h_fab : Block.fab ∈ fr) (h_nor : Block.nor ∈ fr) (h_diag : Block.diag ∈ fr) (h_evt : Block.evt ∈ fr) (h_stats : Block.stats ∈ fr) (h_hostMem : Block.hostMem ∈ fr) (h_free : Block.free ∈ fr) (hkp : Only fr s0 a1) : Only fr s0 (withdrawAll a0 a1) := by
  fun_induction withdrawAll a0 a1 <;> grind [only_withdraw, only_upd]

theorem only_refuseSubmitted {fr : List Block} {s0 : State} (a0 : List Item) {a1 : State} (h_out : Block.out ∈ fr) (h_win : Block.win ∈ fr) (h_nor : Block.nor ∈ fr) (h_evt : Block.evt ∈ fr) (h_stats : Block.stats ∈ fr) (h_hostMem : Block.hostMem ∈ fr) (hkp : Only fr s0 a1) : Only fr s0 (refuseSubmitted a0 a1) := by
  fun_induction refuseSubmitted a0 a1 <;> grind [only_raise, only_upd]

theorem only_loseWitness {fr : List Block} {s0 : State} {s : State} (h_out : Block.out ∈ fr) (h_win : Block.win ∈ fr) (h_mb : Block.mb ∈ fr) (h_led : Block.led ∈ fr) (h_dma : Block.dma ∈ fr) (h_fab : Block.fab ∈ fr) (h_nor : Block.nor ∈ fr) (h_svc : Block.svc ∈ fr) (h_diag : Block.diag ∈ fr) (h_evt : Block.evt ∈ fr) (h_stats : Block.stats ∈ fr) (h_hostMem : Block.hostMem ∈ fr) (h_free : Block.free ∈ fr) (hkp : Only fr s0 s) : Only fr s0 (loseWitness s) := by
  unfold loseWitness
  split
  · exact hkp
  · exact only_settle _ ‹_› ‹_› ‹_› ‹_› ‹_› ‹_› (only_restoreFlows _ ‹_› ‹_› ‹_› ‹_› ‹_› ‹_› ‹_› ‹_› ‹_› ‹_› ‹_› (only_withdrawAll _ ‹_› ‹_› ‹_› ‹_› ‹_› ‹_› ‹_› ‹_› ‹_› ‹_› ‹_› (only_refuseSubmitted _ ‹_› ‹_› ‹_› ‹_› ‹_› ‹_› (only_setFlag _ ‹_› ‹_› ‹_›
      (only_raise _ _ _ ‹_› ‹_› ‹_› ‹_› ‹_› ‹_› (only_stat _ ‹_› (by grind [only_upd])))))))

theorem only_sendBatches {fr : List Block} {s0 : State} (node : BitVec 12) (a1 : Nat) (a2 : List WRec) {a3 : State} (h_out : Block.out ∈ fr) (h_win : Block.win ∈ fr) (h_fab : Block.fab ∈ fr) (h_nor : Block.nor ∈ fr) (h_diag : Block.diag ∈ fr) (h_evt : Block.evt ∈ fr) (h_stats : Block.stats ∈ fr) (h_hostMem : Block.hostMem ∈ fr) (hkp : Only fr s0 a3) : Only fr s0 (sendBatches node a1 a2 a3) := by
  fun_induction sendBatches node a1 a2 a3 <;> grind [only_sendRecs, only_upd]

theorem only_sendRegion {fr : List Block} {s0 : State} (f : BitVec 8) (a : Nat) (n : Nat) (a3 : List WRec) {a4 : State} (h_out : Block.out ∈ fr) (h_win : Block.win ∈ fr) (h_dma : Block.dma ∈ fr) (h_nor : Block.nor ∈ fr) (h_diag : Block.diag ∈ fr) (h_evt : Block.evt ∈ fr) (h_stats : Block.stats ∈ fr) (h_hostMem : Block.hostMem ∈ fr) (h_free : Block.free ∈ fr) (hkp : Only fr s0 a4) : Only fr s0 (sendRegion f a n a3 a4) := by
  fun_induction sendRegion f a n a3 a4 <;> grind [only_writeRegion, only_upd]

theorem only_resendTo {fr : List Block} {s0 : State} (w : WitnessKind) (l : List WRec) {s : State} (h_out : Block.out ∈ fr) (h_win : Block.win ∈ fr) (h_dma : Block.dma ∈ fr) (h_fab : Block.fab ∈ fr) (h_nor : Block.nor ∈ fr) (h_diag : Block.diag ∈ fr) (h_evt : Block.evt ∈ fr) (h_stats : Block.stats ∈ fr) (h_hostMem : Block.hostMem ∈ fr) (h_free : Block.free ∈ fr) (hkp : Only fr s0 s) : Only fr s0 (resendTo w l s) := by
  unfold resendTo
  (repeat' split) <;> grind [only_sendBatches, only_sendRegion, only_upd]

theorem only_storeWitness {fr : List Block} {s0 : State} (w : WitnessKind) (epoch : BitVec 32) {s : State} (h_nor : Block.nor ∈ fr) (hkp : Only fr s0 s) : Only fr s0 (storeWitness w epoch s) := by
  grind [storeWitness, only_upd]

theorem only_restoreWitness {fr : List Block} {s0 : State} {s : State} (h_out : Block.out ∈ fr) (h_win : Block.win ∈ fr) (h_led : Block.led ∈ fr) (h_dma : Block.dma ∈ fr) (h_fab : Block.fab ∈ fr) (h_nor : Block.nor ∈ fr) (h_diag : Block.diag ∈ fr) (h_evt : Block.evt ∈ fr) (h_stats : Block.stats ∈ fr) (h_hostMem : Block.hostMem ∈ fr) (h_free : Block.free ∈ fr) (hkp : Only fr s0 s) : Only fr s0 (restoreWitness s) := by
  grind [restoreWitness, only_raise, only_resendTo, only_upd]

theorem only_abortHoming {fr : List Block} {s0 : State} (reason : Nat) (input : Nat) {s : State} (h_out : Block.out ∈ fr) (h_win : Block.win ∈ fr) (h_scan : Block.scan ∈ fr) (h_nor : Block.nor ∈ fr) (h_evt : Block.evt ∈ fr) (h_stats : Block.stats ∈ fr) (h_hostMem : Block.hostMem ∈ fr) (hkp : Only fr s0 s) : Only fr s0 (abortHoming reason input s) := by
  grind [abortHoming, only_raise, only_stat, only_upd]

theorem only_rampStop {fr : List Block} {s0 : State} (origin : Nat) (cause : Nat) (input : Nat) {s : State} (h_out : Block.out ∈ fr) (h_win : Block.win ∈ fr) (h_scan : Block.scan ∈ fr) (h_nor : Block.nor ∈ fr) (h_evt : Block.evt ∈ fr) (h_stats : Block.stats ∈ fr) (h_hostMem : Block.hostMem ∈ fr) (hkp : Only fr s0 s) : Only fr s0 (rampStop origin cause input s) := by
  grind [rampStop, only_raise, only_stat, only_upd]

theorem only_loseHome {fr : List Block} {s0 : State} {s : State} (h_scan : Block.scan ∈ fr) (hkp : Only fr s0 s) : Only fr s0 (loseHome s) := by
  grind [loseHome, only_upd]

theorem only_becomeHolder {fr : List Block} {s0 : State} {s : State} (h_scan : Block.scan ∈ fr) (h_free : Block.free ∈ fr) (hkp : Only fr s0 s) : Only fr s0 (becomeHolder s) := by
  grind [becomeHolder, only_takeFree, → only_takeFree_eq, only_upd]

theorem only_releaseSpo {fr : List Block} {s0 : State} {s : State} (h_scan : Block.scan ∈ fr) (hkp : Only fr s0 s) : Only fr s0 (releaseSpo s) := by
  grind [releaseSpo, only_upd]

theorem only_sendCtrl {fr : List Block} {s0 : State} (op : Nat) (arg : Nat) (body : List W128) {s : State} (h_out : Block.out ∈ fr) (h_link : Block.link ∈ fr) (h_stats : Block.stats ∈ fr) (hkp : Only fr s0 s) : Only fr s0 (sendCtrl op arg body s) := by
  grind [sendCtrl, only_emit, only_stat, only_upd]

theorem only_sendChunk {fr : List Block} {s0 : State} (i : Nat) {s : State} (h_out : Block.out ∈ fr) (h_link : Block.link ∈ fr) (h_stats : Block.stats ∈ fr) (hkp : Only fr s0 s) : Only fr s0 (sendChunk i s) := by
  grind [sendChunk, only_sendCtrl]

theorem only_sendChunks {fr : List Block} {s0 : State} (a0 : List Nat) {a1 : State} (h_out : Block.out ∈ fr) (h_link : Block.link ∈ fr) (h_stats : Block.stats ∈ fr) (hkp : Only fr s0 a1) : Only fr s0 (sendChunks a0 a1) := by
  fun_induction sendChunks a0 a1 <;> grind [only_sendChunk, only_upd]

theorem only_sendBeamConfig {fr : List Block} {s0 : State} {s : State} (h_out : Block.out ∈ fr) (h_link : Block.link ∈ fr) (h_stats : Block.stats ∈ fr) (hkp : Only fr s0 s) : Only fr s0 (sendBeamConfig s) := by
  grind [sendBeamConfig, only_sendChunks, only_upd]

theorem only_reconfigure {fr : List Block} {s0 : State} {s : State} (h_out : Block.out ∈ fr) (h_link : Block.link ∈ fr) (h_stats : Block.stats ∈ fr) (hkp : Only fr s0 s) : Only fr s0 (reconfigure s) := by
  grind [reconfigure, only_sendBeamConfig]

theorem only_sendStripeClose {fr : List Block} {s0 : State} {s : State} (h_out : Block.out ∈ fr) (h_link : Block.link ∈ fr) (h_stats : Block.stats ∈ fr) (hkp : Only fr s0 s) : Only fr s0 (sendStripeClose s) := by
  grind [sendStripeClose, only_sendCtrl]

theorem only_sendStripeOpen {fr : List Block} {s0 : State} (f : BitVec 8) (q : BitVec 64) {s : State} (h_out : Block.out ∈ fr) (h_link : Block.link ∈ fr) (h_stats : Block.stats ∈ fr) (hkp : Only fr s0 s) : Only fr s0 (sendStripeOpen f q s) := by
  grind [sendStripeOpen, only_sendCtrl]

theorem only_sendRelease {fr : List Block} {s0 : State} {s : State} (h_out : Block.out ∈ fr) (h_link : Block.link ∈ fr) (h_stats : Block.stats ∈ fr) (hkp : Only fr s0 s) : Only fr s0 (sendRelease s) := by
  grind [sendRelease, only_sendCtrl]

theorem only_sendClaim {fr : List Block} {s0 : State} (force : Bool) {s : State} (h_out : Block.out ∈ fr) (h_link : Block.link ∈ fr) (h_stats : Block.stats ∈ fr) (hkp : Only fr s0 s) : Only fr s0 (sendClaim force s) := by
  grind [sendClaim, only_sendCtrl, only_upd]

theorem only_blankHigh {fr : List Block} {s0 : State} {s : State} (h_seq : Block.seq ∈ fr) (hkp : Only fr s0 s) : Only fr s0 (blankHigh s) := by
  grind [blankHigh, only_upd]

theorem only_sendCommit {fr : List Block} {s0 : State} {s : State} (h_out : Block.out ∈ fr) (h_link : Block.link ∈ fr) (h_stats : Block.stats ∈ fr) (hkp : Only fr s0 s) : Only fr s0 (sendCommit s) := by
  grind [sendCommit, only_sendCtrl, only_upd]

theorem only_sendLaneMap {fr : List Block} {s0 : State} {s : State} (h_out : Block.out ∈ fr) (h_link : Block.link ∈ fr) (h_stats : Block.stats ∈ fr) (hkp : Only fr s0 s) : Only fr s0 (sendLaneMap s) := by
  grind [sendLaneMap, only_sendCtrl]

theorem only_strobeLow {fr : List Block} {s0 : State} {s : State} (h_seq : Block.seq ∈ fr) (hkp : Only fr s0 s) : Only fr s0 (strobeLow s) := by
  grind [strobeLow, only_upd]

end Sys2Proof.Machine
end

