-- ==== Sys2Proof/Laws/Only2.lean ====
section
/-! SUPPORT. What the functions of these files keep of a state (Laws.Only): SlotOps, SeqOps, Tables, Stream, ScanPlan, StoreOps, SeqEnd, Sequencer, Ingest, Census, Render. -/

namespace Sys2Proof.Machine

theorem only_releaseSlot {fr : List Block} {s0 : State} (n : Nat) {s : State} (h_store : Block.store ∈ fr) (hkp : Only fr s0 s) : Only fr s0 (releaseSlot n s) := by
  grind [releaseSlot, only_foldl, only_upd]

theorem only_releaseSlots {fr : List Block} {s0 : State} (a0 : List Nat) {a1 : State} (h_store : Block.store ∈ fr) (hkp : Only fr s0 a1) : Only fr s0 (releaseSlots a0 a1) := by
  fun_induction releaseSlots a0 a1 <;> grind [only_releaseSlot, only_upd]

theorem only_releaseAll {fr : List Block} {s0 : State} {s : State} (h_store : Block.store ∈ fr) (hkp : Only fr s0 s) : Only fr s0 (releaseAll s) := by
  grind [releaseAll, only_releaseSlots]

theorem only_endFill {fr : List Block} {s0 : State} {s : State} (h_rnd : Block.rnd ∈ fr) (h_store : Block.store ∈ fr) (hkp : Only fr s0 s) : Only fr s0 (endFill s) := by
  grind [endFill, only_releaseAll, only_upd]

theorem only_releaseRow {fr : List Block} {s0 : State} (line : Nat) {s : State} (h_store : Block.store ∈ fr) (hkp : Only fr s0 s) : Only fr s0 (releaseRow line s) := by
  grind [releaseRow, only_releaseSlots]

theorem only_setSlot {fr : List Block} {s0 : State} (n : Nat) (x : Slot) {s : State} (h_store : Block.store ∈ fr) (hkp : Only fr s0 s) : Only fr s0 (setSlot n x s) := by
  grind [setSlot, only_upd]

theorem only_takeBlocks {fr : List Block} {s0 : State} (a0 : Nat) {a1 : State} (h_store : Block.store ∈ fr) (hkp : Only fr s0 a1) : Only fr s0 (takeBlocks a0 a1).2 := by
  fun_induction takeBlocks a0 a1 <;> grind [only_upd]

theorem only_takeBlocks_eq {fr : List Block} {s0 : State} (a0 : Nat) {a1 : State} {v : List Nat} {t : State} (h_store : Block.store ∈ fr) (hev : (takeBlocks a0 a1) = (v, t)) (h : Only fr s0 a1) : Only fr s0 t := by
  have k := only_takeBlocks a0 h_store h
  rw [hev] at k
  exact k

theorem only_putBlocks {fr : List Block} {s0 : State} (a0 : List Nat) (a1 : List Byte) {a2 : State} (h_store : Block.store ∈ fr) (hkp : Only fr s0 a2) : Only fr s0 (putBlocks a0 a1 a2) := by
  fun_induction putBlocks a0 a1 a2 <;> grind [only_upd]

theorem only_cutNow {fr : List Block} {s0 : State} {s : State} (h_out : Block.out ∈ fr) (h_win : Block.win ∈ fr) (h_seq : Block.seq ∈ fr) (h_nor : Block.nor ∈ fr) (h_evt : Block.evt ∈ fr) (h_stats : Block.stats ∈ fr) (h_hostMem : Block.hostMem ∈ fr) (h_free : Block.free ∈ fr) (hkp : Only fr s0 s) : Only fr s0 (cutNow s) := by
  grind [cutNow, only_takeFree, only_raise, only_stat, → only_takeFree_eq, only_upd]

theorem only_countCause {fr : List Block} {s0 : State} (c : Nat) {s : State} (h_stats : Block.stats ∈ fr) (hkp : Only fr s0 s) : Only fr s0 (countCause c s) := by
  grind [countCause, only_stat]

theorem only_stopAt {fr : List Block} {s0 : State} (c : Nat) (imm : Bool) (m : Int) {s : State} (h_out : Block.out ∈ fr) (h_win : Block.win ∈ fr) (h_rnd : Block.rnd ∈ fr) (h_store : Block.store ∈ fr) (h_seq : Block.seq ∈ fr) (h_trk : Block.trk ∈ fr) (h_nor : Block.nor ∈ fr) (h_evt : Block.evt ∈ fr) (h_stats : Block.stats ∈ fr) (h_hostMem : Block.hostMem ∈ fr) (h_free : Block.free ∈ fr) (hkp : Only fr s0 s) : Only fr s0 (stopAt c imm m s) := by
  grind [stopAt, only_endFill, only_cutNow, only_countCause, only_upd]

theorem only_addCause {fr : List Block} {s0 : State} (c : Nat) {s : State} (h_seq : Block.seq ∈ fr) (h_stats : Block.stats ∈ fr) (hkp : Only fr s0 s) : Only fr s0 (addCause c s) := by
  grind [addCause, only_countCause, only_upd]

theorem only_stopStripe {fr : List Block} {s0 : State} (c : Nat) (imm : Bool) (org : Nat) (input : Nat) {s : State} (h_out : Block.out ∈ fr) (h_win : Block.win ∈ fr) (h_rnd : Block.rnd ∈ fr) (h_store : Block.store ∈ fr) (h_seq : Block.seq ∈ fr) (h_trk : Block.trk ∈ fr) (h_scan : Block.scan ∈ fr) (h_nor : Block.nor ∈ fr) (h_evt : Block.evt ∈ fr) (h_stats : Block.stats ∈ fr) (h_hostMem : Block.hostMem ∈ fr) (h_free : Block.free ∈ fr) (hkp : Only fr s0 s) : Only fr s0 (stopStripe c imm org input s) := by
  grind [stopStripe, only_rampStop, only_stopAt, only_addCause, only_cutNow]

theorem only_boundaryStop {fr : List Block} {s0 : State} (c : Nat) {s : State} (h_out : Block.out ∈ fr) (h_win : Block.win ∈ fr) (h_rnd : Block.rnd ∈ fr) (h_store : Block.store ∈ fr) (h_seq : Block.seq ∈ fr) (h_trk : Block.trk ∈ fr) (h_scan : Block.scan ∈ fr) (h_nor : Block.nor ∈ fr) (h_evt : Block.evt ∈ fr) (h_stats : Block.stats ∈ fr) (h_hostMem : Block.hostMem ∈ fr) (h_free : Block.free ∈ fr) (hkp : Only fr s0 s) : Only fr s0 (boundaryStop c s) := by
  grind [boundaryStop, only_stopStripe]

theorem only_setItem {fr : List Block} {s0 : State} (item : Nat) (idx : Nat) (v : W128) {s : State} (h_cfg : Block.cfg ∈ fr) (hkp : Only fr s0 s) : Only fr s0 (setItem item idx v s) := by
  grind [setItem, only_upd]

theorem only_applyStaged {fr : List Block} {s0 : State} (p : Nat → Bool) (a1 : List (Nat × Nat × W128)) {a2 : State} (h_cfg : Block.cfg ∈ fr) (hkp : Only fr s0 a2) : Only fr s0 (applyStaged p a1 a2) := by
  fun_induction applyStaged p a1 a2 <;> grind [only_setItem, only_upd]

theorem only_activateItems {fr : List Block} {s0 : State} (p : Nat → Bool) {s : State} (h_cfg : Block.cfg ∈ fr) (hkp : Only fr s0 s) : Only fr s0 (activateItems p s) := by
  grind [activateItems, only_applyStaged, only_upd]

theorem only_activateRender {fr : List Block} {s0 : State} {s : State} (h_out : Block.out ∈ fr) (h_win : Block.win ∈ fr) (h_cfg : Block.cfg ∈ fr) (h_nor : Block.nor ∈ fr) (h_evt : Block.evt ∈ fr) (h_stats : Block.stats ∈ fr) (h_hostMem : Block.hostMem ∈ fr) (hkp : Only fr s0 s) : Only fr s0 (activateRender s) := by
  grind [activateRender, only_raise, only_activateItems, only_upd]

theorem only_activateLmap {fr : List Block} {s0 : State} {s : State} (h_out : Block.out ∈ fr) (h_win : Block.win ∈ fr) (h_cfg : Block.cfg ∈ fr) (h_nor : Block.nor ∈ fr) (h_evt : Block.evt ∈ fr) (h_stats : Block.stats ∈ fr) (h_hostMem : Block.hostMem ∈ fr) (hkp : Only fr s0 s) : Only fr s0 (activateLmap s) := by
  grind [activateLmap, only_raise, only_upd]

theorem only_activateBtab {fr : List Block} {s0 : State} {s : State} (h_out : Block.out ∈ fr) (h_win : Block.win ∈ fr) (h_cfg : Block.cfg ∈ fr) (h_nor : Block.nor ∈ fr) (h_evt : Block.evt ∈ fr) (h_stats : Block.stats ∈ fr) (h_hostMem : Block.hostMem ∈ fr) (hkp : Only fr s0 s) : Only fr s0 (activateBtab s) := by
  grind [activateBtab, only_raise, only_upd]

theorem only_activateBoundary {fr : List Block} {s0 : State} {s : State} (h_out : Block.out ∈ fr) (h_win : Block.win ∈ fr) (h_cfg : Block.cfg ∈ fr) (h_link : Block.link ∈ fr) (h_nor : Block.nor ∈ fr) (h_evt : Block.evt ∈ fr) (h_stats : Block.stats ∈ fr) (h_hostMem : Block.hostMem ∈ fr) (hkp : Only fr s0 s) : Only fr s0 (activateBoundary s) := by
  grind [activateBoundary, only_reconfigure, only_activateBtab, only_activateItems]

theorem only_activateTables {fr : List Block} {s0 : State} {s : State} (h_out : Block.out ∈ fr) (h_win : Block.win ∈ fr) (h_cfg : Block.cfg ∈ fr) (h_link : Block.link ∈ fr) (h_nor : Block.nor ∈ fr) (h_evt : Block.evt ∈ fr) (h_stats : Block.stats ∈ fr) (h_hostMem : Block.hostMem ∈ fr) (hkp : Only fr s0 s) : Only fr s0 (activateTables s) := by
  grind [activateTables, only_activateRender, only_activateLmap, only_activateBoundary]

theorem only_stageItem {fr : List Block} {s0 : State} (item : Nat) (idx : Nat) (v : W128) {s : State} (h_cfg : Block.cfg ∈ fr) (hkp : Only fr s0 s) : Only fr s0 (stageItem item idx v s) := by
  grind [stageItem, only_upd]

theorem only_raiseBad {fr : List Block} {s0 : State} (b : Bad) {s : State} (h_out : Block.out ∈ fr) (h_win : Block.win ∈ fr) (h_nor : Block.nor ∈ fr) (h_evt : Block.evt ∈ fr) (h_stats : Block.stats ∈ fr) (h_hostMem : Block.hostMem ∈ fr) (hkp : Only fr s0 s) : Only fr s0 (raiseBad b s) := by
  unfold raiseBad
  (repeat' split) <;> grind [only_raise, only_upd]

theorem only_jwrite {fr : List Block} {s0 : State} (j : JobRef) (off : Nat) (b : List Byte) {s : State} (h_dma : Block.dma ∈ fr) (h_diag : Block.diag ∈ fr) (h_stats : Block.stats ∈ fr) (h_hbmMem : Block.hbmMem ∈ fr) (h_hostMem : Block.hostMem ∈ fr) (h_free : Block.free ∈ fr) (hkp : Only fr s0 s) : Only fr s0 (jwrite j off b s) := by
  grind [jwrite, only_hbmWrite, only_vwrite, → only_vwrite_eq]

theorem only_stopBad {fr : List Block} {s0 : State} (b : Bad) {s : State} (h_out : Block.out ∈ fr) (h_win : Block.win ∈ fr) (h_led : Block.led ∈ fr) (h_rnd : Block.rnd ∈ fr) (h_store : Block.store ∈ fr) (h_seq : Block.seq ∈ fr) (h_trk : Block.trk ∈ fr) (h_scan : Block.scan ∈ fr) (h_nor : Block.nor ∈ fr) (h_evt : Block.evt ∈ fr) (h_stats : Block.stats ∈ fr) (h_hostMem : Block.hostMem ∈ fr) (h_free : Block.free ∈ fr) (hkp : Only fr s0 s) : Only fr s0 (stopBad b s) := by
  unfold stopBad
  (repeat' split) <;> grind [only_raiseBad, only_putItem, only_boundaryStop, only_upd]

theorem only_raiseOnce {fr : List Block} {s0 : State} (done : Bool) (code : Nat) (mark : Scan → Scan) {s : State} (h_out : Block.out ∈ fr) (h_win : Block.win ∈ fr) (h_scan : Block.scan ∈ fr) (h_nor : Block.nor ∈ fr) (h_evt : Block.evt ∈ fr) (h_stats : Block.stats ∈ fr) (h_hostMem : Block.hostMem ∈ fr) (hkp : Only fr s0 s) : Only fr s0 (raiseOnce done code mark s) := by
  grind [raiseOnce, only_raise, only_upd]

theorem only_tryApproach {fr : List Block} {s0 : State} {s : State} (h_out : Block.out ∈ fr) (h_win : Block.win ∈ fr) (h_led : Block.led ∈ fr) (h_rnd : Block.rnd ∈ fr) (h_store : Block.store ∈ fr) (h_seq : Block.seq ∈ fr) (h_trk : Block.trk ∈ fr) (h_scan : Block.scan ∈ fr) (h_nor : Block.nor ∈ fr) (h_evt : Block.evt ∈ fr) (h_stats : Block.stats ∈ fr) (h_hostMem : Block.hostMem ∈ fr) (h_free : Block.free ∈ fr) (hkp : Only fr s0 s) : Only fr s0 (tryApproach s) := by
  grind [tryApproach, only_raiseOnce, only_stopBad, only_stat, only_upd]

theorem only_fillStep {fr : List Block} {s0 : State} (n : Int) {s : State} (h_rnd : Block.rnd ∈ fr) (h_store : Block.store ∈ fr) (hkp : Only fr s0 s) : Only fr s0 (fillStep n s) := by
  grind [fillStep, only_releaseRow, only_upd]

theorem only_noteFailure {fr : List Block} {s0 : State} (line : Nat) (k : Nat) (b : ReadBad) {s : State} (h_seq : Block.seq ∈ fr) (hkp : Only fr s0 s) : Only fr s0 (noteFailure line k b s) := by
  grind [noteFailure, only_upd]

theorem only_countRead {fr : List Block} {s0 : State} (n : Nat) {s : State} (h_store : Block.store ∈ fr) (hkp : Only fr s0 s) : Only fr s0 (countRead n s) := by
  grind [countRead, only_setSlot, only_upd]

theorem only_readRows {fr : List Block} {s0 : State} (n : Int) (a1 : List Nat) (a2 : List Frame) {a3 : State} (h_out : Block.out ∈ fr) (h_win : Block.win ∈ fr) (h_store : Block.store ∈ fr) (h_seq : Block.seq ∈ fr) (h_nor : Block.nor ∈ fr) (h_diag : Block.diag ∈ fr) (h_evt : Block.evt ∈ fr) (h_stats : Block.stats ∈ fr) (h_hostMem : Block.hostMem ∈ fr) (hkp : Only fr s0 a3) : Only fr s0 (readRows n a1 a2 a3).2 := by
  fun_induction readRows n a1 a2 a3 <;> grind [only_injected, only_stat, only_noteFailure, only_raise, only_countRead, → only_injected_eq, only_upd]

theorem only_readRows_eq {fr : List Block} {s0 : State} (n : Int) (a1 : List Nat) (a2 : List Frame) {a3 : State} {v : Option (List Frame)} {t : State} (h_out : Block.out ∈ fr) (h_win : Block.win ∈ fr) (h_store : Block.store ∈ fr) (h_seq : Block.seq ∈ fr) (h_nor : Block.nor ∈ fr) (h_diag : Block.diag ∈ fr) (h_evt : Block.evt ∈ fr) (h_stats : Block.stats ∈ fr) (h_hostMem : Block.hostMem ∈ fr) (hev : (readRows n a1 a2 a3) = (v, t)) (h : Only fr s0 a3) : Only fr s0 t := by
  have k := only_readRows n a1 a2 h_out h_win h_store h_seq h_nor h_diag h_evt h_stats h_hostMem h
  rw [hev] at k
  exact k

theorem only_flashReads {fr : List Block} {s0 : State} (n : Int) {s : State} (h_out : Block.out ∈ fr) (h_win : Block.win ∈ fr) (h_rnd : Block.rnd ∈ fr) (h_store : Block.store ∈ fr) (h_seq : Block.seq ∈ fr) (h_trk : Block.trk ∈ fr) (h_scan : Block.scan ∈ fr) (h_nor : Block.nor ∈ fr) (h_diag : Block.diag ∈ fr) (h_evt : Block.evt ∈ fr) (h_stats : Block.stats ∈ fr) (h_hostMem : Block.hostMem ∈ fr) (h_free : Block.free ∈ fr) (hkp : Only fr s0 s) : Only fr s0 (flashReads n s) := by
  grind [flashReads, only_boundaryStop, only_readRows, only_emit, only_statAdd, → only_readRows_eq, only_upd]

theorem only_offloadIssue {fr : List Block} {s0 : State} {s : State} (h_out : Block.out ∈ fr) (h_win : Block.win ∈ fr) (h_rnd : Block.rnd ∈ fr) (h_fab : Block.fab ∈ fr) (h_nor : Block.nor ∈ fr) (h_diag : Block.diag ∈ fr) (h_evt : Block.evt ∈ fr) (h_stats : Block.stats ∈ fr) (h_hostMem : Block.hostMem ∈ fr) (hkp : Only fr s0 s) : Only fr s0 (offloadIssue s) := by
  grind [offloadIssue, only_send, only_statAdd, only_upd]

theorem only_expireOffloads {fr : List Block} {s0 : State} (a0 : List OffloadReq) {a1 : State} (h_out : Block.out ∈ fr) (h_win : Block.win ∈ fr) (h_rnd : Block.rnd ∈ fr) (h_nor : Block.nor ∈ fr) (h_evt : Block.evt ∈ fr) (h_stats : Block.stats ∈ fr) (h_hostMem : Block.hostMem ∈ fr) (hkp : Only fr s0 a1) : Only fr s0 (expireOffloads a0 a1) := by
  fun_induction expireOffloads a0 a1 <;> grind [only_raise, only_stat, only_upd]

theorem only_offloadStep {fr : List Block} {s0 : State} {s : State} (h_out : Block.out ∈ fr) (h_win : Block.win ∈ fr) (h_rnd : Block.rnd ∈ fr) (h_fab : Block.fab ∈ fr) (h_nor : Block.nor ∈ fr) (h_diag : Block.diag ∈ fr) (h_evt : Block.evt ∈ fr) (h_stats : Block.stats ∈ fr) (h_hostMem : Block.hostMem ∈ fr) (hkp : Only fr s0 s) : Only fr s0 (offloadStep s) := by
  grind [offloadStep, only_offloadIssue, only_expireOffloads]

theorem only_checkReady {fr : List Block} {s0 : State} {s : State} (h_rnd : Block.rnd ∈ fr) (hkp : Only fr s0 s) : Only fr s0 (checkReady s) := by
  grind [checkReady, only_upd]

theorem only_spillSeg {fr : List Block} {s0 : State} (n : Nat) (line : Nat) (kind : Nat) (check : BitVec 32) (coded : List Byte) {s : State} (h_out : Block.out ∈ fr) (h_win : Block.win ∈ fr) (h_store : Block.store ∈ fr) (h_nor : Block.nor ∈ fr) (h_evt : Block.evt ∈ fr) (h_stats : Block.stats ∈ fr) (h_hbmMem : Block.hbmMem ∈ fr) (h_hostMem : Block.hostMem ∈ fr) (hkp : Only fr s0 s) : Only fr s0 (spillSeg n line kind check coded s) := by
  grind [spillSeg, only_hbmWrite, only_statAdd, only_setSlot, only_raise, only_upd]

theorem only_writeSeg {fr : List Block} {s0 : State} (line : Nat) (k : Nat) (kind : Nat) (check : BitVec 32) (coded : List Byte) (peer : Bool) {s : State} (h_out : Block.out ∈ fr) (h_win : Block.win ∈ fr) (h_store : Block.store ∈ fr) (h_nor : Block.nor ∈ fr) (h_evt : Block.evt ∈ fr) (h_stats : Block.stats ∈ fr) (h_hbmMem : Block.hbmMem ∈ fr) (h_hostMem : Block.hostMem ∈ fr) (hkp : Only fr s0 s) : Only fr s0 (writeSeg line k kind check coded peer s) := by
  grind [writeSeg, only_stat, only_setSlot, only_takeBlocks, only_putBlocks, only_spillSeg, → only_takeBlocks_eq]

theorem only_beginFill {fr : List Block} {s0 : State} (f : BitVec 8) (q : BitVec 64) {s : State} (h_rnd : Block.rnd ∈ fr) (hkp : Only fr s0 s) : Only fr s0 (beginFill f q s) := by
  grind [beginFill, only_checkReady, only_upd]

theorem only_assign {fr : List Block} {s0 : State} (r : RLine) (c : Fin 32) {s : State} (h_rnd : Block.rnd ∈ fr) (hkp : Only fr s0 s) : Only fr s0 (assign r c s) := by
  grind [assign, only_upd]

theorem only_dropLine {fr : List Block} {s0 : State} (r : RLine) {s : State} (h_rnd : Block.rnd ∈ fr) (hkp : Only fr s0 s) : Only fr s0 (dropLine r s) := by
  grind [dropLine, only_upd]

theorem only_writeLine {fr : List Block} {s0 : State} (line : Nat) (a1 : Nat) (a2 : List (List Nat)) {a3 : State} (h_out : Block.out ∈ fr) (h_win : Block.win ∈ fr) (h_store : Block.store ∈ fr) (h_nor : Block.nor ∈ fr) (h_evt : Block.evt ∈ fr) (h_stats : Block.stats ∈ fr) (h_hbmMem : Block.hbmMem ∈ fr) (h_hostMem : Block.hostMem ∈ fr) (hkp : Only fr s0 a3) : Only fr s0 (writeLine line a1 a2 a3) := by
  fun_induction writeLine line a1 a2 a3 <;> grind [only_writeSeg, only_upd]

theorem only_seqIdle {fr : List Block} {s0 : State} {s : State} (h_out : Block.out ∈ fr) (h_win : Block.win ∈ fr) (h_cfg : Block.cfg ∈ fr) (h_rnd : Block.rnd ∈ fr) (h_store : Block.store ∈ fr) (h_seq : Block.seq ∈ fr) (h_link : Block.link ∈ fr) (h_nor : Block.nor ∈ fr) (h_evt : Block.evt ∈ fr) (h_stats : Block.stats ∈ fr) (h_hostMem : Block.hostMem ∈ fr) (hkp : Only fr s0 s) : Only fr s0 (seqIdle s) := by
  grind [seqIdle, only_endFill, only_activateTables, only_upd]

theorem only_endStripe {fr : List Block} {s0 : State} (st : ItemSt) (status : Nat) {s : State} (h_out : Block.out ∈ fr) (h_win : Block.win ∈ fr) (h_cfg : Block.cfg ∈ fr) (h_led : Block.led ∈ fr) (h_rnd : Block.rnd ∈ fr) (h_store : Block.store ∈ fr) (h_seq : Block.seq ∈ fr) (h_link : Block.link ∈ fr) (h_dma : Block.dma ∈ fr) (h_fab : Block.fab ∈ fr) (h_nor : Block.nor ∈ fr) (h_diag : Block.diag ∈ fr) (h_evt : Block.evt ∈ fr) (h_stats : Block.stats ∈ fr) (h_hostMem : Block.hostMem ∈ fr) (h_free : Block.free ∈ fr) (hkp : Only fr s0 s) : Only fr s0 (endStripe st status s) := by
  grind [endStripe, only_sendStripeClose, only_seqIdle, only_endItem]

theorem only_loadCtab {fr : List Block} {s0 : State} {s : State} (h_out : Block.out ∈ fr) (h_win : Block.win ∈ fr) (h_led : Block.led ∈ fr) (h_rnd : Block.rnd ∈ fr) (h_store : Block.store ∈ fr) (h_seq : Block.seq ∈ fr) (h_trk : Block.trk ∈ fr) (h_scan : Block.scan ∈ fr) (h_nor : Block.nor ∈ fr) (h_evt : Block.evt ∈ fr) (h_stats : Block.stats ∈ fr) (h_hostMem : Block.hostMem ∈ fr) (h_free : Block.free ∈ fr) (hkp : Only fr s0 s) : Only fr s0 (loadCtab s) := by
  grind [loadCtab, only_stopBad, only_boundaryStop, only_raise, only_upd]

theorem only_enterFilling {fr : List Block} {s0 : State} (f : BitVec 8) (q : BitVec 64) (n0 : Int) {s : State} (h_out : Block.out ∈ fr) (h_win : Block.win ∈ fr) (h_led : Block.led ∈ fr) (h_rnd : Block.rnd ∈ fr) (h_store : Block.store ∈ fr) (h_seq : Block.seq ∈ fr) (h_trk : Block.trk ∈ fr) (h_scan : Block.scan ∈ fr) (h_nor : Block.nor ∈ fr) (h_evt : Block.evt ∈ fr) (h_stats : Block.stats ∈ fr) (h_hostMem : Block.hostMem ∈ fr) (h_free : Block.free ∈ fr) (hkp : Only fr s0 s) : Only fr s0 (enterFilling f q n0 s) := by
  grind [enterFilling, only_loadCtab, only_tryApproach, only_beginFill, only_upd]

theorem only_resumeStripe {fr : List Block} {s0 : State} {s : State} (h_out : Block.out ∈ fr) (h_win : Block.win ∈ fr) (h_led : Block.led ∈ fr) (h_rnd : Block.rnd ∈ fr) (h_store : Block.store ∈ fr) (h_seq : Block.seq ∈ fr) (h_trk : Block.trk ∈ fr) (h_scan : Block.scan ∈ fr) (h_nor : Block.nor ∈ fr) (h_evt : Block.evt ∈ fr) (h_stats : Block.stats ∈ fr) (h_hostMem : Block.hostMem ∈ fr) (h_free : Block.free ∈ fr) (hkp : Only fr s0 s) : Only fr s0 (resumeStripe s) := by
  grind [resumeStripe, only_enterFilling, only_upd]

theorem only_stripeDone {fr : List Block} {s0 : State} {s : State} (h_out : Block.out ∈ fr) (h_win : Block.win ∈ fr) (h_cfg : Block.cfg ∈ fr) (h_led : Block.led ∈ fr) (h_rnd : Block.rnd ∈ fr) (h_store : Block.store ∈ fr) (h_seq : Block.seq ∈ fr) (h_link : Block.link ∈ fr) (h_dma : Block.dma ∈ fr) (h_fab : Block.fab ∈ fr) (h_nor : Block.nor ∈ fr) (h_diag : Block.diag ∈ fr) (h_evt : Block.evt ∈ fr) (h_stats : Block.stats ∈ fr) (h_hostMem : Block.hostMem ∈ fr) (h_free : Block.free ∈ fr) (hkp : Only fr s0 s) : Only fr s0 (stripeDone s) := by
  grind [stripeDone, only_endStripe, only_raise, only_upd]

theorem only_linkDown {fr : List Block} {s0 : State} (lane : Nat) {s : State} (h_out : Block.out ∈ fr) (h_win : Block.win ∈ fr) (h_rnd : Block.rnd ∈ fr) (h_store : Block.store ∈ fr) (h_seq : Block.seq ∈ fr) (h_link : Block.link ∈ fr) (h_trk : Block.trk ∈ fr) (h_scan : Block.scan ∈ fr) (h_nor : Block.nor ∈ fr) (h_evt : Block.evt ∈ fr) (h_stats : Block.stats ∈ fr) (h_hostMem : Block.hostMem ∈ fr) (h_free : Block.free ∈ fr) (hkp : Only fr s0 s) : Only fr s0 (linkDown lane s) := by
  grind [linkDown, only_raise, only_boundaryStop, only_upd]

theorem only_raiseStopped {fr : List Block} {s0 : State} {s : State} (h_out : Block.out ∈ fr) (h_win : Block.win ∈ fr) (h_nor : Block.nor ∈ fr) (h_evt : Block.evt ∈ fr) (h_stats : Block.stats ∈ fr) (h_hostMem : Block.hostMem ∈ fr) (hkp : Only fr s0 s) : Only fr s0 (raiseStopped s) := by
  grind [raiseStopped, only_raise]

theorem only_lowerRate {fr : List Block} {s0 : State} {s : State} (h_out : Block.out ∈ fr) (h_win : Block.win ∈ fr) (h_dma : Block.dma ∈ fr) (h_nor : Block.nor ∈ fr) (h_diag : Block.diag ∈ fr) (h_evt : Block.evt ∈ fr) (h_stats : Block.stats ∈ fr) (h_hbmMem : Block.hbmMem ∈ fr) (h_hostMem : Block.hostMem ∈ fr) (h_free : Block.free ∈ fr) (hkp : Only fr s0 s) : Only fr s0 (lowerRate s) := by
  grind [lowerRate, only_raise, only_jwrite]

theorem only_decideStop {fr : List Block} {s0 : State} {s : State} (h_out : Block.out ∈ fr) (h_win : Block.win ∈ fr) (h_cfg : Block.cfg ∈ fr) (h_led : Block.led ∈ fr) (h_rnd : Block.rnd ∈ fr) (h_store : Block.store ∈ fr) (h_seq : Block.seq ∈ fr) (h_link : Block.link ∈ fr) (h_dma : Block.dma ∈ fr) (h_fab : Block.fab ∈ fr) (h_nor : Block.nor ∈ fr) (h_diag : Block.diag ∈ fr) (h_evt : Block.evt ∈ fr) (h_stats : Block.stats ∈ fr) (h_hbmMem : Block.hbmMem ∈ fr) (h_hostMem : Block.hostMem ∈ fr) (h_free : Block.free ∈ fr) (hkp : Only fr s0 s) : Only fr s0 (decideStop s) := by
  grind [decideStop, only_endStripe, only_raiseStopped, only_stripeDone, only_lowerRate, only_upd]

theorem only_settleH {fr : List Block} {s0 : State} (h : Int) {s : State} (h_out : Block.out ∈ fr) (h_win : Block.win ∈ fr) (h_cfg : Block.cfg ∈ fr) (h_led : Block.led ∈ fr) (h_rnd : Block.rnd ∈ fr) (h_store : Block.store ∈ fr) (h_seq : Block.seq ∈ fr) (h_link : Block.link ∈ fr) (h_dma : Block.dma ∈ fr) (h_fab : Block.fab ∈ fr) (h_nor : Block.nor ∈ fr) (h_diag : Block.diag ∈ fr) (h_evt : Block.evt ∈ fr) (h_stats : Block.stats ∈ fr) (h_hbmMem : Block.hbmMem ∈ fr) (h_hostMem : Block.hostMem ∈ fr) (h_free : Block.free ∈ fr) (hkp : Only fr s0 s) : Only fr s0 (settleH h s) := by
  grind [settleH, only_raise, only_stat, only_decideStop, only_progressRec, only_upd]

theorem only_failLane {fr : List Block} {s0 : State} (p : Nat) {s : State} (h_out : Block.out ∈ fr) (h_win : Block.win ∈ fr) (h_link : Block.link ∈ fr) (h_nor : Block.nor ∈ fr) (h_evt : Block.evt ∈ fr) (h_stats : Block.stats ∈ fr) (h_hostMem : Block.hostMem ∈ fr) (hkp : Only fr s0 s) : Only fr s0 (failLane p s) := by
  grind [failLane, only_raise, only_upd]

theorem only_stamp {fr : List Block} {s0 : State} (i : Fin 3) {s : State} (h_time : Block.time ∈ fr) (hkp : Only fr s0 s) : Only fr s0 (stamp i s) := by
  grind [stamp, only_upd]

theorem only_startRun {fr : List Block} {s0 : State} {s : State} (h_out : Block.out ∈ fr) (h_time : Block.time ∈ fr) (h_win : Block.win ∈ fr) (h_seq : Block.seq ∈ fr) (h_nor : Block.nor ∈ fr) (h_evt : Block.evt ∈ fr) (h_stats : Block.stats ∈ fr) (h_hostMem : Block.hostMem ∈ fr) (hkp : Only fr s0 s) : Only fr s0 (startRun s) := by
  grind [startRun, only_stamp, only_raise, only_upd]

theorem only_acceptFire {fr : List Block} {s0 : State} (n : Int) {s : State} (h_out : Block.out ∈ fr) (h_time : Block.time ∈ fr) (h_win : Block.win ∈ fr) (h_rnd : Block.rnd ∈ fr) (h_store : Block.store ∈ fr) (h_seq : Block.seq ∈ fr) (h_trk : Block.trk ∈ fr) (h_scan : Block.scan ∈ fr) (h_fab : Block.fab ∈ fr) (h_nor : Block.nor ∈ fr) (h_diag : Block.diag ∈ fr) (h_evt : Block.evt ∈ fr) (h_stats : Block.stats ∈ fr) (h_hostMem : Block.hostMem ∈ fr) (h_free : Block.free ∈ fr) (hkp : Only fr s0 s) : Only fr s0 (acceptFire n s) := by
  grind [acceptFire, only_stamp, only_fillStep, only_stat, only_startRun, only_flashReads, only_offloadStep, only_upd]

theorem only_approachPast {fr : List Block} {s0 : State} {s : State} (h_out : Block.out ∈ fr) (h_win : Block.win ∈ fr) (h_rnd : Block.rnd ∈ fr) (h_store : Block.store ∈ fr) (h_seq : Block.seq ∈ fr) (h_trk : Block.trk ∈ fr) (h_scan : Block.scan ∈ fr) (h_nor : Block.nor ∈ fr) (h_evt : Block.evt ∈ fr) (h_stats : Block.stats ∈ fr) (h_hostMem : Block.hostMem ∈ fr) (h_free : Block.free ∈ fr) (hkp : Only fr s0 s) : Only fr s0 (approachPast s) := by
  grind [approachPast, only_boundaryStop, only_raise]

theorem only_armStripe {fr : List Block} {s0 : State} {s : State} (h_out : Block.out ∈ fr) (h_win : Block.win ∈ fr) (h_rnd : Block.rnd ∈ fr) (h_store : Block.store ∈ fr) (h_seq : Block.seq ∈ fr) (h_link : Block.link ∈ fr) (h_trk : Block.trk ∈ fr) (h_scan : Block.scan ∈ fr) (h_nor : Block.nor ∈ fr) (h_diag : Block.diag ∈ fr) (h_evt : Block.evt ∈ fr) (h_stats : Block.stats ∈ fr) (h_hostMem : Block.hostMem ∈ fr) (h_free : Block.free ∈ fr) (hkp : Only fr s0 s) : Only fr s0 (armStripe s) := by
  grind [armStripe, only_sendStripeOpen, only_approachPast, only_flashReads, only_upd]

theorem only_dieLimit {fr : List Block} {s0 : State} (sensor : Nat) (t : Int) {s : State} (h_out : Block.out ∈ fr) (h_win : Block.win ∈ fr) (h_rnd : Block.rnd ∈ fr) (h_store : Block.store ∈ fr) (h_seq : Block.seq ∈ fr) (h_trk : Block.trk ∈ fr) (h_scan : Block.scan ∈ fr) (h_nor : Block.nor ∈ fr) (h_evt : Block.evt ∈ fr) (h_stats : Block.stats ∈ fr) (h_hostMem : Block.hostMem ∈ fr) (h_free : Block.free ∈ fr) (hkp : Only fr s0 s) : Only fr s0 (dieLimit sensor t s) := by
  grind [dieLimit, only_boundaryStop, only_setFlag, only_raise, only_upd]

theorem only_dieWarning {fr : List Block} {s0 : State} (sensor : Nat) (t : Int) {s : State} (h_out : Block.out ∈ fr) (h_win : Block.win ∈ fr) (h_seq : Block.seq ∈ fr) (h_nor : Block.nor ∈ fr) (h_smb : Block.smb ∈ fr) (h_evt : Block.evt ∈ fr) (h_stats : Block.stats ∈ fr) (h_hostMem : Block.hostMem ∈ fr) (hkp : Only fr s0 s) : Only fr s0 (dieWarning sensor t s) := by
  grind [dieWarning, only_setSmb, only_setFlag, only_raise, only_upd]

theorem only_execStripeArm {fr : List Block} {s : State} {t : State} (h_out : Block.out ∈ fr) (h_win : Block.win ∈ fr) (h_rnd : Block.rnd ∈ fr) (h_store : Block.store ∈ fr) (h_seq : Block.seq ∈ fr) (h_link : Block.link ∈ fr) (h_trk : Block.trk ∈ fr) (h_scan : Block.scan ∈ fr) (h_nor : Block.nor ∈ fr) (h_diag : Block.diag ∈ fr) (h_evt : Block.evt ∈ fr) (h_stats : Block.stats ∈ fr) (h_hostMem : Block.hostMem ∈ fr) (h_free : Block.free ∈ fr) (hx : (execStripeArm s) = .next t) : Only fr s t := by
  have h0 := Only.refl fr s
  grind [execStripeArm, only_armStripe]

theorem only_overrun {fr : List Block} {s0 : State} (n : Int) (interval : Nat) {s : State} (h_out : Block.out ∈ fr) (h_win : Block.win ∈ fr) (h_rnd : Block.rnd ∈ fr) (h_store : Block.store ∈ fr) (h_seq : Block.seq ∈ fr) (h_trk : Block.trk ∈ fr) (h_scan : Block.scan ∈ fr) (h_nor : Block.nor ∈ fr) (h_evt : Block.evt ∈ fr) (h_stats : Block.stats ∈ fr) (h_hostMem : Block.hostMem ∈ fr) (h_free : Block.free ∈ fr) (hkp : Only fr s0 s) : Only fr s0 (overrun n interval s) := by
  grind [overrun, only_boundaryStop, only_raise, only_stat]

theorem only_execFireEvent {fr : List Block} (n : Int) (interval : Nat) {s : State} {t : State} (h_out : Block.out ∈ fr) (h_time : Block.time ∈ fr) (h_win : Block.win ∈ fr) (h_rnd : Block.rnd ∈ fr) (h_store : Block.store ∈ fr) (h_seq : Block.seq ∈ fr) (h_trk : Block.trk ∈ fr) (h_scan : Block.scan ∈ fr) (h_fab : Block.fab ∈ fr) (h_nor : Block.nor ∈ fr) (h_diag : Block.diag ∈ fr) (h_evt : Block.evt ∈ fr) (h_stats : Block.stats ∈ fr) (h_hostMem : Block.hostMem ∈ fr) (h_free : Block.free ∈ fr) (hx : (execFireEvent n interval s) = .next t) : Only fr s t := by
  have h0 := Only.refl fr s
  grind [execFireEvent, only_acceptFire, only_overrun]

theorem only_execFrameDeadlineMissed {fr : List Block} {s : State} {t : State} (h_out : Block.out ∈ fr) (h_win : Block.win ∈ fr) (h_rnd : Block.rnd ∈ fr) (h_store : Block.store ∈ fr) (h_seq : Block.seq ∈ fr) (h_trk : Block.trk ∈ fr) (h_scan : Block.scan ∈ fr) (h_nor : Block.nor ∈ fr) (h_evt : Block.evt ∈ fr) (h_stats : Block.stats ∈ fr) (h_hostMem : Block.hostMem ∈ fr) (h_free : Block.free ∈ fr) (hx : (execFrameDeadlineMissed s) = .next t) : Only fr s t := by
  have h0 := Only.refl fr s
  grind [execFrameDeadlineMissed, only_rampStop, only_stopAt, only_stat]

theorem only_execGstrobeRise {fr : List Block} {s : State} {t : State} (h_seq : Block.seq ∈ fr) (hx : (execGstrobeRise s) = .next t) : Only fr s t := by
  have h0 := Only.refl fr s
  grind [execGstrobeRise, only_upd]

theorem only_execGstrobeFall {fr : List Block} {s : State} {t : State} (h_seq : Block.seq ∈ fr) (hx : (execGstrobeFall s) = .next t) : Only fr s t := by
  have h0 := Only.refl fr s
  grind [execGstrobeFall, only_upd]

theorem only_execStrobeCut {fr : List Block} {s : State} {t : State} (h_out : Block.out ∈ fr) (h_win : Block.win ∈ fr) (h_rnd : Block.rnd ∈ fr) (h_store : Block.store ∈ fr) (h_seq : Block.seq ∈ fr) (h_trk : Block.trk ∈ fr) (h_scan : Block.scan ∈ fr) (h_nor : Block.nor ∈ fr) (h_evt : Block.evt ∈ fr) (h_stats : Block.stats ∈ fr) (h_hostMem : Block.hostMem ∈ fr) (h_free : Block.free ∈ fr) (hx : (execStrobeCut s) = .next t) : Only fr s t := by
  have h0 := Only.refl fr s
  grind [execStrobeCut, only_stopStripe, only_setFlag, only_raise, only_stat, only_upd]

theorem only_execEndingTimeout {fr : List Block} {s : State} {t : State} (h_out : Block.out ∈ fr) (h_win : Block.win ∈ fr) (h_rnd : Block.rnd ∈ fr) (h_store : Block.store ∈ fr) (h_seq : Block.seq ∈ fr) (h_trk : Block.trk ∈ fr) (h_scan : Block.scan ∈ fr) (h_nor : Block.nor ∈ fr) (h_evt : Block.evt ∈ fr) (h_stats : Block.stats ∈ fr) (h_hostMem : Block.hostMem ∈ fr) (h_free : Block.free ∈ fr) (hx : (execEndingTimeout s) = .next t) : Only fr s t := by
  have h0 := Only.refl fr s
  grind [execEndingTimeout, only_boundaryStop]

theorem only_execHighWaterTimeout {fr : List Block} {s : State} {t : State} (h_out : Block.out ∈ fr) (h_win : Block.win ∈ fr) (h_cfg : Block.cfg ∈ fr) (h_led : Block.led ∈ fr) (h_rnd : Block.rnd ∈ fr) (h_store : Block.store ∈ fr) (h_seq : Block.seq ∈ fr) (h_link : Block.link ∈ fr) (h_dma : Block.dma ∈ fr) (h_fab : Block.fab ∈ fr) (h_nor : Block.nor ∈ fr) (h_diag : Block.diag ∈ fr) (h_evt : Block.evt ∈ fr) (h_stats : Block.stats ∈ fr) (h_hbmMem : Block.hbmMem ∈ fr) (h_hostMem : Block.hostMem ∈ fr) (h_free : Block.free ∈ fr) (hx : (execHighWaterTimeout s) = .next t) : Only fr s t := by
  have h0 := Only.refl fr s
  grind [execHighWaterTimeout, only_settleH, only_raise, only_stat]

theorem only_execResumeConditionMet {fr : List Block} {s : State} {t : State} (h_out : Block.out ∈ fr) (h_win : Block.win ∈ fr) (h_led : Block.led ∈ fr) (h_rnd : Block.rnd ∈ fr) (h_store : Block.store ∈ fr) (h_seq : Block.seq ∈ fr) (h_trk : Block.trk ∈ fr) (h_scan : Block.scan ∈ fr) (h_nor : Block.nor ∈ fr) (h_evt : Block.evt ∈ fr) (h_stats : Block.stats ∈ fr) (h_hostMem : Block.hostMem ∈ fr) (h_free : Block.free ∈ fr) (hx : (execResumeConditionMet s) = .next t) : Only fr s t := by
  have h0 := Only.refl fr s
  grind [execResumeConditionMet, only_resumeStripe]

theorem only_execTempSample {fr : List Block} (raw : Vector (BitVec 16) 16) (cool : Bool) {s : State} {t : State} (h_out : Block.out ∈ fr) (h_win : Block.win ∈ fr) (h_rnd : Block.rnd ∈ fr) (h_store : Block.store ∈ fr) (h_seq : Block.seq ∈ fr) (h_trk : Block.trk ∈ fr) (h_scan : Block.scan ∈ fr) (h_nor : Block.nor ∈ fr) (h_smb : Block.smb ∈ fr) (h_evt : Block.evt ∈ fr) (h_stats : Block.stats ∈ fr) (h_hostMem : Block.hostMem ∈ fr) (h_free : Block.free ∈ fr) (hx : (execTempSample raw cool s) = .next t) : Only fr s t := by
  have h0 := Only.refl fr s
  grind [execTempSample, only_dieLimit, only_dieWarning, only_upd]

theorem only_dropIngest {fr : List Block} {s0 : State} (f : BitVec 8) (sealed_ : Bool) {s : State} (h_lay : Block.lay ∈ fr) (hkp : Only fr s0 s) : Only fr s0 (dropIngest f sealed_ s) := by
  grind [dropIngest, only_upd]

theorem only_failIngest {fr : List Block} {s0 : State} (r : IngestRun) (reason : Nat) (off : Nat) (recNo : Nat) {s : State} (h_out : Block.out ∈ fr) (h_win : Block.win ∈ fr) (h_cfg : Block.cfg ∈ fr) (h_led : Block.led ∈ fr) (h_lay : Block.lay ∈ fr) (h_link : Block.link ∈ fr) (h_dma : Block.dma ∈ fr) (h_fab : Block.fab ∈ fr) (h_nor : Block.nor ∈ fr) (h_diag : Block.diag ∈ fr) (h_evt : Block.evt ∈ fr) (h_stats : Block.stats ∈ fr) (h_hostMem : Block.hostMem ∈ fr) (h_free : Block.free ∈ fr) (hkp : Only fr s0 s) : Only fr s0 (failIngest r reason off recNo s) := by
  unfold failIngest
  (repeat' split) <;> grind [only_raise, only_stat, only_dropIngest, only_activateTables, only_failItem, only_upd]

theorem only_putIngest {fr : List Block} {s0 : State} (r : IngestRun) {s : State} (h_lay : Block.lay ∈ fr) (hkp : Only fr s0 s) : Only fr s0 (putIngest r s) := by
  grind [putIngest, only_upd]

theorem only_authStep {fr : List Block} {s0 : State} (r : IngestRun) (j : IngestJob) (key : BitVec 256) {s : State} (h_out : Block.out ∈ fr) (h_win : Block.win ∈ fr) (h_cfg : Block.cfg ∈ fr) (h_led : Block.led ∈ fr) (h_lay : Block.lay ∈ fr) (h_link : Block.link ∈ fr) (h_dma : Block.dma ∈ fr) (h_fab : Block.fab ∈ fr) (h_nor : Block.nor ∈ fr) (h_diag : Block.diag ∈ fr) (h_evt : Block.evt ∈ fr) (h_stats : Block.stats ∈ fr) (h_hostMem : Block.hostMem ∈ fr) (h_free : Block.free ∈ fr) (hkp : Only fr s0 s) : Only fr s0 (authStep r j key s) := by
  unfold authStep
  (repeat' split) <;> grind [only_failIngest, only_putIngest, only_stat, only_upd]

theorem only_jput {fr : List Block} {s0 : State} (j : JobRef) (off : Nat) (b : List Byte) {s : State} {t : State} (h_dma : Block.dma ∈ fr) (h_diag : Block.diag ∈ fr) (h_stats : Block.stats ∈ fr) (h_hbmMem : Block.hbmMem ∈ fr) (h_hostMem : Block.hostMem ∈ fr) (h_free : Block.free ∈ fr) (hkp : Only fr s0 s) (e : (jput j off b s) = some t) : Only fr s0 t := by
  grind [jput, only_hbmWrite, only_vwrite, → only_vwrite_eq]

theorem only_skip {fr : List Block} {s0 : State} (kind off layer dt n : Nat) (p : IngestRun × State) (h_out : Block.out ∈ fr) (h_win : Block.win ∈ fr) (h_nor : Block.nor ∈ fr) (h_evt : Block.evt ∈ fr) (h_stats : Block.stats ∈ fr) (h_hostMem : Block.hostMem ∈ fr) (hkp : Only fr s0 p.2) :
    Only fr s0 (skip kind off layer dt n p).2 := by
  unfold skip
  dsimp only
  (repeat' split) <;> grind [only_statAdd, only_raise]

theorem only_decompose {fr : List Block} {s0 : State} (lm : List Byte) (j : IngestJob) (n : Nat) (l : List FShape) (acc : List Trap)
    (p : IngestRun × State) (h_out : Block.out ∈ fr) (h_win : Block.win ∈ fr) (h_nor : Block.nor ∈ fr) (h_evt : Block.evt ∈ fr) (h_stats : Block.stats ∈ fr) (h_hostMem : Block.hostMem ∈ fr) (hkp : Only fr s0 p.2) : Only fr s0 (decompose lm j n l acc p).2.2 := by
  induction l generalizing acc p with
  | nil => exact hkp
  | cons sh t ih =>
    unfold decompose
    split
    · exact ih _ _ (only_skip _ _ _ _ _ _ ‹_› ‹_› ‹_› ‹_› ‹_› ‹_› hkp)
    · split
      · exact ih _ _ hkp
      · exact ih _ _ (only_skip _ _ _ _ _ _ ‹_› ‹_› ‹_› ‹_› ‹_› ‹_› (only_skip _ _ _ _ _ _ ‹_› ‹_› ‹_› ‹_› ‹_› ‹_› (only_skip _ _ _ _ _ _ ‹_› ‹_› ‹_› ‹_› ‹_› ‹_› hkp)))

theorem only_writeStream {fr : List Block} {s0 : State} (r : IngestRun) (j : IngestJob) (steps : Nat) (ts : List Trap) (sB : State) {s : State} (h_out : Block.out ∈ fr) (h_win : Block.win ∈ fr) (h_cfg : Block.cfg ∈ fr) (h_led : Block.led ∈ fr) (h_lay : Block.lay ∈ fr) (h_link : Block.link ∈ fr) (h_dma : Block.dma ∈ fr) (h_fab : Block.fab ∈ fr) (h_nor : Block.nor ∈ fr) (h_diag : Block.diag ∈ fr) (h_evt : Block.evt ∈ fr) (h_stats : Block.stats ∈ fr) (h_hbmMem : Block.hbmMem ∈ fr) (h_hostMem : Block.hostMem ∈ fr) (h_free : Block.free ∈ fr) (hkp : Only fr s0 s) (hx : Only fr s0 sB) : Only fr s0 (writeStream r j steps ts sB s) := by
  unfold writeStream
  (repeat' split) <;> grind [only_failIngest, only_jput, only_activateTables, only_doneItem, only_dropIngest, only_statAdd, only_upd]

theorem only_completeIngest {fr : List Block} {s0 : State} (r : IngestRun) (j : IngestJob) (steps : Nat) {s : State} (h_out : Block.out ∈ fr) (h_win : Block.win ∈ fr) (h_cfg : Block.cfg ∈ fr) (h_led : Block.led ∈ fr) (h_lay : Block.lay ∈ fr) (h_link : Block.link ∈ fr) (h_dma : Block.dma ∈ fr) (h_fab : Block.fab ∈ fr) (h_nor : Block.nor ∈ fr) (h_diag : Block.diag ∈ fr) (h_evt : Block.evt ∈ fr) (h_stats : Block.stats ∈ fr) (h_hbmMem : Block.hbmMem ∈ fr) (h_hostMem : Block.hostMem ∈ fr) (h_free : Block.free ∈ fr) (hkp : Only fr s0 s) : Only fr s0 (completeIngest r j steps s) := by
  unfold completeIngest
  split
  · exact only_failIngest _ _ _ _ ‹_› ‹_› ‹_› ‹_› ‹_› ‹_› ‹_› ‹_› ‹_› ‹_› ‹_› ‹_› ‹_› ‹_› hkp
  · exact only_writeStream _ _ _ _ _ ‹_› ‹_› ‹_› ‹_› ‹_› ‹_› ‹_› ‹_› ‹_› ‹_› ‹_› ‹_› ‹_› ‹_› ‹_› (only_decompose _ _ _ _ _ _ ‹_› ‹_› ‹_› ‹_› ‹_› ‹_› hkp) hkp

theorem only_ingestStep {fr : List Block} {s0 : State} (r : IngestRun) (j : IngestJob) (x : OasisRec) {s : State} (h_out : Block.out ∈ fr) (h_win : Block.win ∈ fr) (h_cfg : Block.cfg ∈ fr) (h_led : Block.led ∈ fr) (h_lay : Block.lay ∈ fr) (h_link : Block.link ∈ fr) (h_dma : Block.dma ∈ fr) (h_fab : Block.fab ∈ fr) (h_nor : Block.nor ∈ fr) (h_diag : Block.diag ∈ fr) (h_evt : Block.evt ∈ fr) (h_stats : Block.stats ∈ fr) (h_hostMem : Block.hostMem ∈ fr) (h_free : Block.free ∈ fr) (hkp : Only fr s0 s) : Only fr s0 (ingestStep r j x s) := by
  unfold ingestStep
  dsimp only
  split
  · exact only_failIngest _ _ _ _ ‹_› ‹_› ‹_› ‹_› ‹_› ‹_› ‹_› ‹_› ‹_› ‹_› ‹_› ‹_› ‹_› ‹_› (only_stat _ ‹_› hkp)
  · exact only_putIngest _ ‹_› (only_skip _ _ _ _ _ _ ‹_› ‹_› ‹_› ‹_› ‹_› ‹_› (only_stat _ ‹_› hkp))

theorem only_execIngestRecord {fr : List Block} (f : BitVec 8) (x : OasisRec) {s : State} {t : State} (h_out : Block.out ∈ fr) (h_win : Block.win ∈ fr) (h_cfg : Block.cfg ∈ fr) (h_led : Block.led ∈ fr) (h_lay : Block.lay ∈ fr) (h_link : Block.link ∈ fr) (h_dma : Block.dma ∈ fr) (h_fab : Block.fab ∈ fr) (h_nor : Block.nor ∈ fr) (h_diag : Block.diag ∈ fr) (h_evt : Block.evt ∈ fr) (h_stats : Block.stats ∈ fr) (h_hostMem : Block.hostMem ∈ fr) (h_free : Block.free ∈ fr) (hx : (execIngestRecord f x s) = .next t) : Only fr s t := by
  have h0 := Only.refl fr s
  grind [execIngestRecord, only_ingestStep]

theorem only_execContainerRecordAuth {fr : List Block} (f : BitVec 8) {s : State} {t : State} (h_out : Block.out ∈ fr) (h_win : Block.win ∈ fr) (h_cfg : Block.cfg ∈ fr) (h_led : Block.led ∈ fr) (h_lay : Block.lay ∈ fr) (h_link : Block.link ∈ fr) (h_dma : Block.dma ∈ fr) (h_fab : Block.fab ∈ fr) (h_nor : Block.nor ∈ fr) (h_diag : Block.diag ∈ fr) (h_evt : Block.evt ∈ fr) (h_stats : Block.stats ∈ fr) (h_hostMem : Block.hostMem ∈ fr) (h_free : Block.free ∈ fr) (hx : (execContainerRecordAuth f s) = .next t) : Only fr s t := by
  have h0 := Only.refl fr s
  grind [execContainerRecordAuth, only_authStep]

theorem only_execIngestComplete {fr : List Block} (f : BitVec 8) {s : State} {t : State} (h_out : Block.out ∈ fr) (h_win : Block.win ∈ fr) (h_cfg : Block.cfg ∈ fr) (h_led : Block.led ∈ fr) (h_lay : Block.lay ∈ fr) (h_link : Block.link ∈ fr) (h_dma : Block.dma ∈ fr) (h_fab : Block.fab ∈ fr) (h_nor : Block.nor ∈ fr) (h_diag : Block.diag ∈ fr) (h_evt : Block.evt ∈ fr) (h_stats : Block.stats ∈ fr) (h_hbmMem : Block.hbmMem ∈ fr) (h_hostMem : Block.hostMem ∈ fr) (h_free : Block.free ∈ fr) (hx : (execIngestComplete f s) = .next t) : Only fr s t := by
  have h0 := Only.refl fr s
  grind [execIngestComplete, only_completeIngest]

theorem only_dropCensus {fr : List Block} {s0 : State} (f : BitVec 8) {s : State} (h_lay : Block.lay ∈ fr) (h_rnd : Block.rnd ∈ fr) (hkp : Only fr s0 s) : Only fr s0 (dropCensus f s) := by
  grind [dropCensus, only_upd]

theorem only_keepDetail {fr : List Block} {s0 : State} (f : BitVec 8) (q : BitVec 64) (b : Bad) {s : State} (h_led : Block.led ∈ fr) (hkp : Only fr s0 s) : Only fr s0 (keepDetail f q b s) := by
  grind [keepDetail, only_putItem]

theorem only_failCensus {fr : List Block} {s0 : State} (f : BitVec 8) (q : BitVec 64) (reason : Nat) {s : State} (h_out : Block.out ∈ fr) (h_win : Block.win ∈ fr) (h_cfg : Block.cfg ∈ fr) (h_led : Block.led ∈ fr) (h_lay : Block.lay ∈ fr) (h_rnd : Block.rnd ∈ fr) (h_link : Block.link ∈ fr) (h_dma : Block.dma ∈ fr) (h_fab : Block.fab ∈ fr) (h_nor : Block.nor ∈ fr) (h_diag : Block.diag ∈ fr) (h_evt : Block.evt ∈ fr) (h_stats : Block.stats ∈ fr) (h_hostMem : Block.hostMem ∈ fr) (h_free : Block.free ∈ fr) (hkp : Only fr s0 s) : Only fr s0 (failCensus f q reason s) := by
  grind [failCensus, only_activateTables, only_failItem, only_raise, only_dropCensus]

theorem only_censusBad {fr : List Block} {s0 : State} (f : BitVec 8) (q : BitVec 64) (b : Bad) {s : State} (h_out : Block.out ∈ fr) (h_win : Block.win ∈ fr) (h_cfg : Block.cfg ∈ fr) (h_led : Block.led ∈ fr) (h_lay : Block.lay ∈ fr) (h_rnd : Block.rnd ∈ fr) (h_link : Block.link ∈ fr) (h_dma : Block.dma ∈ fr) (h_fab : Block.fab ∈ fr) (h_nor : Block.nor ∈ fr) (h_diag : Block.diag ∈ fr) (h_evt : Block.evt ∈ fr) (h_stats : Block.stats ∈ fr) (h_hostMem : Block.hostMem ∈ fr) (h_free : Block.free ∈ fr) (hkp : Only fr s0 s) : Only fr s0 (censusBad f q b s) := by
  grind [censusBad, only_failCensus, only_keepDetail, only_raiseBad]

theorem only_writeCtab {fr : List Block} {s0 : State} (i : Nat) (stripe : Nat) (t : List CEntry) {s : State} (h_hbmMem : Block.hbmMem ∈ fr) (hkp : Only fr s0 s) : Only fr s0 (writeCtab i stripe t s) := by
  grind [writeCtab, only_hbmWrite]

theorem only_queueTrials {fr : List Block} {s0 : State} (r : CensusRun) (h : SHdr) {s : State} (h_rnd : Block.rnd ∈ fr) (hkp : Only fr s0 s) : Only fr s0 (queueTrials r h s) := by
  grind [queueTrials, only_upd]

theorem only_putCensus {fr : List Block} {s0 : State} (r : CensusRun) {s : State} (h_lay : Block.lay ∈ fr) (hkp : Only fr s0 s) : Only fr s0 (putCensus r s) := by
  grind [putCensus, only_upd]

theorem only_stripeCensused {fr : List Block} {s0 : State} (r : CensusRun) (h : SHdr) (stripe : Nat) (fs : Nat) {s : State} (h_out : Block.out ∈ fr) (h_win : Block.win ∈ fr) (h_cfg : Block.cfg ∈ fr) (h_led : Block.led ∈ fr) (h_lay : Block.lay ∈ fr) (h_rnd : Block.rnd ∈ fr) (h_link : Block.link ∈ fr) (h_dma : Block.dma ∈ fr) (h_fab : Block.fab ∈ fr) (h_nor : Block.nor ∈ fr) (h_diag : Block.diag ∈ fr) (h_evt : Block.evt ∈ fr) (h_stats : Block.stats ∈ fr) (h_hostMem : Block.hostMem ∈ fr) (h_free : Block.free ∈ fr) (hkp : Only fr s0 s) : Only fr s0 (stripeCensused r h stripe fs s) := by
  grind [stripeCensused, only_raise, only_queueTrials, only_putCensus, only_activateTables, only_doneItem, only_dropCensus]

theorem only_forecastStripe {fr : List Block} {s0 : State} (r : CensusRun) (c : CensusJob) (h : SHdr) (t : Strp) (bs : List (List Trap)) {s : State} (h_out : Block.out ∈ fr) (h_win : Block.win ∈ fr) (h_cfg : Block.cfg ∈ fr) (h_led : Block.led ∈ fr) (h_lay : Block.lay ∈ fr) (h_rnd : Block.rnd ∈ fr) (h_link : Block.link ∈ fr) (h_dma : Block.dma ∈ fr) (h_fab : Block.fab ∈ fr) (h_nor : Block.nor ∈ fr) (h_diag : Block.diag ∈ fr) (h_evt : Block.evt ∈ fr) (h_stats : Block.stats ∈ fr) (h_hbmMem : Block.hbmMem ∈ fr) (h_hostMem : Block.hostMem ∈ fr) (h_free : Block.free ∈ fr) (hkp : Only fr s0 s) : Only fr s0 (forecastStripe r c h t bs s) := by
  unfold forecastStripe
  dsimp only
  split
  · exact hkp
  · exact only_stripeCensused _ _ _ _ ‹_› ‹_› ‹_› ‹_› ‹_› ‹_› ‹_› ‹_› ‹_› ‹_› ‹_› ‹_› ‹_› ‹_› ‹_› (only_jput _ _ _ ‹_› ‹_› ‹_› ‹_› ‹_› ‹_› (only_writeCtab _ _ _ ‹_› hkp) (by assumption))

theorem only_censusStep {fr : List Block} {s0 : State} (r : CensusRun) (c : CensusJob) {s : State} (h_out : Block.out ∈ fr) (h_win : Block.win ∈ fr) (h_cfg : Block.cfg ∈ fr) (h_led : Block.led ∈ fr) (h_lay : Block.lay ∈ fr) (h_rnd : Block.rnd ∈ fr) (h_link : Block.link ∈ fr) (h_dma : Block.dma ∈ fr) (h_fab : Block.fab ∈ fr) (h_nor : Block.nor ∈ fr) (h_diag : Block.diag ∈ fr) (h_evt : Block.evt ∈ fr) (h_stats : Block.stats ∈ fr) (h_hbmMem : Block.hbmMem ∈ fr) (h_hostMem : Block.hostMem ∈ fr) (h_free : Block.free ∈ fr) (hkp : Only fr s0 s) : Only fr s0 (censusStep r c s) := by
  grind [censusStep, only_censusBad, only_forecastStripe]

theorem only_startCensus {fr : List Block} {s0 : State} (f : BitVec 8) (q : BitVec 64) (c : CensusJob) {s : State} (h_out : Block.out ∈ fr) (h_win : Block.win ∈ fr) (h_cfg : Block.cfg ∈ fr) (h_led : Block.led ∈ fr) (h_lay : Block.lay ∈ fr) (h_rnd : Block.rnd ∈ fr) (h_link : Block.link ∈ fr) (h_dma : Block.dma ∈ fr) (h_fab : Block.fab ∈ fr) (h_nor : Block.nor ∈ fr) (h_diag : Block.diag ∈ fr) (h_evt : Block.evt ∈ fr) (h_stats : Block.stats ∈ fr) (h_hostMem : Block.hostMem ∈ fr) (h_free : Block.free ∈ fr) (hkp : Only fr s0 s) : Only fr s0 (startCensus f q c s) := by
  grind [startCensus, only_censusBad, only_failCensus, only_upd]

theorem only_startCtab {fr : List Block} {s0 : State} (h : SHdr) {s : State} (h_hbmMem : Block.hbmMem ∈ fr) (hkp : Only fr s0 s) : Only fr s0 (startCtab h s) := by
  grind [startCtab, only_hbmWrite]

theorem only_sweepDone {fr : List Block} {s0 : State} (r : CensusRun) (c : CensusJob) {s : State} (h_out : Block.out ∈ fr) (h_win : Block.win ∈ fr) (h_cfg : Block.cfg ∈ fr) (h_led : Block.led ∈ fr) (h_lay : Block.lay ∈ fr) (h_rnd : Block.rnd ∈ fr) (h_link : Block.link ∈ fr) (h_dma : Block.dma ∈ fr) (h_fab : Block.fab ∈ fr) (h_nor : Block.nor ∈ fr) (h_diag : Block.diag ∈ fr) (h_evt : Block.evt ∈ fr) (h_stats : Block.stats ∈ fr) (h_hbmMem : Block.hbmMem ∈ fr) (h_hostMem : Block.hostMem ∈ fr) (h_free : Block.free ∈ fr) (hkp : Only fr s0 s) : Only fr s0 (sweepDone r c s) := by
  unfold sweepDone
  (repeat' split) <;> grind [only_censusBad, only_failCensus, only_queueTrials, only_startCtab, only_hbmWrite, only_putCensus, only_upd]

theorem only_execDensitySweepDone {fr : List Block} (f : BitVec 8) {s : State} {t : State} (h_out : Block.out ∈ fr) (h_win : Block.win ∈ fr) (h_cfg : Block.cfg ∈ fr) (h_led : Block.led ∈ fr) (h_lay : Block.lay ∈ fr) (h_rnd : Block.rnd ∈ fr) (h_link : Block.link ∈ fr) (h_dma : Block.dma ∈ fr) (h_fab : Block.fab ∈ fr) (h_nor : Block.nor ∈ fr) (h_diag : Block.diag ∈ fr) (h_evt : Block.evt ∈ fr) (h_stats : Block.stats ∈ fr) (h_hbmMem : Block.hbmMem ∈ fr) (h_hostMem : Block.hostMem ∈ fr) (h_free : Block.free ∈ fr) (hx : (execDensitySweepDone f s) = .next t) : Only fr s t := by
  have h0 := Only.refl fr s
  grind [execDensitySweepDone, only_sweepDone]

theorem only_execCensusStripeReady {fr : List Block} (f : BitVec 8) {s : State} {t : State} (h_out : Block.out ∈ fr) (h_win : Block.win ∈ fr) (h_cfg : Block.cfg ∈ fr) (h_led : Block.led ∈ fr) (h_lay : Block.lay ∈ fr) (h_rnd : Block.rnd ∈ fr) (h_link : Block.link ∈ fr) (h_dma : Block.dma ∈ fr) (h_fab : Block.fab ∈ fr) (h_nor : Block.nor ∈ fr) (h_diag : Block.diag ∈ fr) (h_evt : Block.evt ∈ fr) (h_stats : Block.stats ∈ fr) (h_hbmMem : Block.hbmMem ∈ fr) (h_hostMem : Block.hostMem ∈ fr) (h_free : Block.free ∈ fr) (hx : (execCensusStripeReady f s) = .next t) : Only fr s t := by
  have h0 := Only.refl fr s
  grind [execCensusStripeReady, only_censusStep]

theorem only_dropBinLines {fr : List Block} {s0 : State} (b : BinRun) {s : State} (h_rnd : Block.rnd ∈ fr) (hkp : Only fr s0 s) : Only fr s0 (dropBinLines b s) := by
  grind [dropBinLines, only_upd]

theorem only_raiseBinFailed {fr : List Block} {s0 : State} (reason : Nat) (j : BinJob) (line : Nat) {s : State} (h_out : Block.out ∈ fr) (h_win : Block.win ∈ fr) (h_nor : Block.nor ∈ fr) (h_evt : Block.evt ∈ fr) (h_stats : Block.stats ∈ fr) (h_hostMem : Block.hostMem ∈ fr) (hkp : Only fr s0 s) : Only fr s0 (raiseBinFailed reason j line s) := by
  grind [raiseBinFailed, only_raise, only_stat]

theorem only_answerOffload {fr : List Block} {s0 : State} (b : BinRun) (node : BitVec 12) (msgId : BitVec 32) {s : State} (h_out : Block.out ∈ fr) (h_win : Block.win ∈ fr) (h_fab : Block.fab ∈ fr) (h_nor : Block.nor ∈ fr) (h_diag : Block.diag ∈ fr) (h_evt : Block.evt ∈ fr) (h_stats : Block.stats ∈ fr) (h_hostMem : Block.hostMem ∈ fr) (hkp : Only fr s0 s) : Only fr s0 (answerOffload b node msgId s) := by
  grind [answerOffload, only_nackSpore, only_send]

theorem only_endBin {fr : List Block} {s0 : State} (b : BinRun) {s : State} (h_out : Block.out ∈ fr) (h_win : Block.win ∈ fr) (h_cfg : Block.cfg ∈ fr) (h_led : Block.led ∈ fr) (h_rnd : Block.rnd ∈ fr) (h_link : Block.link ∈ fr) (h_dma : Block.dma ∈ fr) (h_fab : Block.fab ∈ fr) (h_nor : Block.nor ∈ fr) (h_diag : Block.diag ∈ fr) (h_evt : Block.evt ∈ fr) (h_stats : Block.stats ∈ fr) (h_hostMem : Block.hostMem ∈ fr) (h_free : Block.free ∈ fr) (hkp : Only fr s0 s) : Only fr s0 (endBin b s) := by
  unfold endBin
  have h1 := only_dropBinLines b ‹_› (show Only fr s0 { s with rnd := { s.rnd with
    bins := s.rnd.bins.filter (fun x => !(x.req == b.req && x.flow == b.flow && x.seq == b.seq)) } } from
      (by grind [only_upd]))
  dsimp only
  (repeat' split) <;> grind [only_stat, only_raiseBinFailed, only_answerOffload, only_activateTables, only_doneItem,
    only_failItem, only_putItem]

theorem only_admitSeg {fr : List Block} {s0 : State} (x : Nat × Nat × BitVec 32 × List Byte) {s : State} (h_out : Block.out ∈ fr) (h_win : Block.win ∈ fr) (h_rnd : Block.rnd ∈ fr) (h_store : Block.store ∈ fr) (h_nor : Block.nor ∈ fr) (h_evt : Block.evt ∈ fr) (h_stats : Block.stats ∈ fr) (h_hbmMem : Block.hbmMem ∈ fr) (h_hostMem : Block.hostMem ∈ fr) (hkp : Only fr s0 s) : Only fr s0 (admitSeg x s) := by
  grind [admitSeg, only_stat, only_checkReady, only_writeSeg]

theorem only_admitSegs {fr : List Block} {s0 : State} (a0 : List (Nat × Nat × BitVec 32 × List Byte)) {a1 : State} (h_out : Block.out ∈ fr) (h_win : Block.win ∈ fr) (h_rnd : Block.rnd ∈ fr) (h_store : Block.store ∈ fr) (h_nor : Block.nor ∈ fr) (h_evt : Block.evt ∈ fr) (h_stats : Block.stats ∈ fr) (h_hbmMem : Block.hbmMem ∈ fr) (h_hostMem : Block.hostMem ∈ fr) (hkp : Only fr s0 a1) : Only fr s0 (admitSegs a0 a1) := by
  fun_induction admitSegs a0 a1 <;> grind [only_admitSeg, only_upd]

theorem only_putBin {fr : List Block} {s0 : State} (b : BinRun) {s : State} (h_rnd : Block.rnd ∈ fr) (hkp : Only fr s0 s) : Only fr s0 (putBin b s) := by
  grind [putBin, only_upd]

theorem only_stopBin {fr : List Block} {s0 : State} (b : BinRun) (reason : Nat) {s : State} (h_rnd : Block.rnd ∈ fr) (hkp : Only fr s0 s) : Only fr s0 (stopBin b reason s) := by
  grind [stopBin, only_dropBinLines, only_putBin]

theorem only_binBad {fr : List Block} {s0 : State} (b : BinRun) (x : Bad) {s : State} (h_out : Block.out ∈ fr) (h_win : Block.win ∈ fr) (h_led : Block.led ∈ fr) (h_rnd : Block.rnd ∈ fr) (h_nor : Block.nor ∈ fr) (h_evt : Block.evt ∈ fr) (h_stats : Block.stats ∈ fr) (h_hostMem : Block.hostMem ∈ fr) (hkp : Only fr s0 s) : Only fr s0 (binBad b x s) := by
  unfold binBad
  (repeat' split) <;> grind [only_stopBin, only_keepDetail, only_raiseBad, only_upd]

theorem only_sendSegs {fr : List Block} {s0 : State} (node : Nat) (cls : Fin 4) (a2 : List (List Byte)) {a3 : State} (h_out : Block.out ∈ fr) (h_win : Block.win ∈ fr) (h_fab : Block.fab ∈ fr) (h_nor : Block.nor ∈ fr) (h_diag : Block.diag ∈ fr) (h_evt : Block.evt ∈ fr) (h_stats : Block.stats ∈ fr) (h_hostMem : Block.hostMem ∈ fr) (hkp : Only fr s0 a3) : Only fr s0 (sendSegs node cls a2 a3) := by
  fun_induction sendSegs node cls a2 a3 <;> grind [only_send, only_upd]

theorem only_deliverLine {fr : List Block} {s0 : State} (b : BinRun) (fs : List (List Byte)) {s : State} {t : State} (h_out : Block.out ∈ fr) (h_win : Block.win ∈ fr) (h_rnd : Block.rnd ∈ fr) (h_dma : Block.dma ∈ fr) (h_fab : Block.fab ∈ fr) (h_nor : Block.nor ∈ fr) (h_diag : Block.diag ∈ fr) (h_evt : Block.evt ∈ fr) (h_stats : Block.stats ∈ fr) (h_hbmMem : Block.hbmMem ∈ fr) (h_hostMem : Block.hostMem ∈ fr) (h_free : Block.free ∈ fr) (hkp : Only fr s0 s) (e : (deliverLine b fs s) = some t) : Only fr s0 t := by
  unfold deliverLine at e
  dsimp only at e
  (repeat' split at e)
  · simp only [Option.some.injEq] at e
    subst e
    exact only_stopBin _ _ ‹_› hkp
  · simp only [Option.map_eq_some_iff] at e
    obtain ⟨v, hv, rfl⟩ := e
    exact only_putBin _ ‹_› (only_jput _ _ _ ‹_› ‹_› ‹_› ‹_› ‹_› ‹_› hkp hv)
  all_goals
    simp only [Option.some.injEq] at e
    subst e
    exact only_sendSegs _ _ _ ‹_› ‹_› ‹_› ‹_› ‹_› ‹_› ‹_› ‹_› (only_putBin _ ‹_› hkp)

theorem only_deliver {fr : List Block} {s0 : State} (a0 : Nat) (a1 : BinRun) {a2 : State} (h_out : Block.out ∈ fr) (h_win : Block.win ∈ fr) (h_rnd : Block.rnd ∈ fr) (h_dma : Block.dma ∈ fr) (h_fab : Block.fab ∈ fr) (h_nor : Block.nor ∈ fr) (h_diag : Block.diag ∈ fr) (h_evt : Block.evt ∈ fr) (h_stats : Block.stats ∈ fr) (h_hbmMem : Block.hbmMem ∈ fr) (h_hostMem : Block.hostMem ∈ fr) (h_free : Block.free ∈ fr) (hkp : Only fr s0 a2) : Only fr s0 (deliver a0 a1 a2) := by
  fun_induction deliver a0 a1 a2 <;> grind [only_deliverLine, only_upd]

theorem only_binRendered {fr : List Block} {s0 : State} (b : BinRun) (line : Nat) (segs : List (List Nat)) {s : State} (h_out : Block.out ∈ fr) (h_win : Block.win ∈ fr) (h_led : Block.led ∈ fr) (h_rnd : Block.rnd ∈ fr) (h_dma : Block.dma ∈ fr) (h_fab : Block.fab ∈ fr) (h_nor : Block.nor ∈ fr) (h_diag : Block.diag ∈ fr) (h_evt : Block.evt ∈ fr) (h_stats : Block.stats ∈ fr) (h_hbmMem : Block.hbmMem ∈ fr) (h_hostMem : Block.hostMem ∈ fr) (h_free : Block.free ∈ fr) (hkp : Only fr s0 s) : Only fr s0 (binRendered b line segs s) := by
  grind [binRendered, only_binBad, only_stopBin, only_raise, only_deliver, only_putBin]

theorem only_queueBin {fr : List Block} {s0 : State} (b : BinRun) (linesM1 : Nat) {s : State} (h_rnd : Block.rnd ∈ fr) (hkp : Only fr s0 s) : Only fr s0 (queueBin b linesM1 s) := by
  grind [queueBin, only_upd]

theorem only_startBin {fr : List Block} {s0 : State} (f : BitVec 8) (q : BitVec 64) (p : List Byte) {s : State} (h_out : Block.out ∈ fr) (h_win : Block.win ∈ fr) (h_cfg : Block.cfg ∈ fr) (h_led : Block.led ∈ fr) (h_rnd : Block.rnd ∈ fr) (h_link : Block.link ∈ fr) (h_dma : Block.dma ∈ fr) (h_fab : Block.fab ∈ fr) (h_nor : Block.nor ∈ fr) (h_diag : Block.diag ∈ fr) (h_evt : Block.evt ∈ fr) (h_stats : Block.stats ∈ fr) (h_hostMem : Block.hostMem ∈ fr) (h_free : Block.free ∈ fr) (hkp : Only fr s0 s) : Only fr s0 (startBin f q p s) := by
  grind [startBin, only_keepDetail, only_raiseBad, only_activateTables, only_failItem, only_raiseBinFailed, only_queueBin]

theorem only_xBad {fr : List Block} {s0 : State} (line : Nat) (b : Bad) {s : State} (h_out : Block.out ∈ fr) (h_win : Block.win ∈ fr) (h_led : Block.led ∈ fr) (h_rnd : Block.rnd ∈ fr) (h_store : Block.store ∈ fr) (h_seq : Block.seq ∈ fr) (h_trk : Block.trk ∈ fr) (h_scan : Block.scan ∈ fr) (h_nor : Block.nor ∈ fr) (h_evt : Block.evt ∈ fr) (h_stats : Block.stats ∈ fr) (h_hostMem : Block.hostMem ∈ fr) (h_free : Block.free ∈ fr) (hkp : Only fr s0 s) : Only fr s0 (xBad line b s) := by
  grind [xBad, only_raiseBad, only_keepDetail, only_boundaryStop, only_upd]

theorem only_lineBad {fr : List Block} {s0 : State} (r : RLine) (x : LineLook) {s : State} (h_out : Block.out ∈ fr) (h_win : Block.win ∈ fr) (h_cfg : Block.cfg ∈ fr) (h_led : Block.led ∈ fr) (h_lay : Block.lay ∈ fr) (h_rnd : Block.rnd ∈ fr) (h_store : Block.store ∈ fr) (h_seq : Block.seq ∈ fr) (h_link : Block.link ∈ fr) (h_trk : Block.trk ∈ fr) (h_scan : Block.scan ∈ fr) (h_dma : Block.dma ∈ fr) (h_fab : Block.fab ∈ fr) (h_nor : Block.nor ∈ fr) (h_diag : Block.diag ∈ fr) (h_evt : Block.evt ∈ fr) (h_stats : Block.stats ∈ fr) (h_hostMem : Block.hostMem ∈ fr) (h_free : Block.free ∈ fr) (hkp : Only fr s0 s) : Only fr s0 (lineBad r x s) := by
  unfold lineBad
  (repeat' split) <;> grind [only_xBad, only_binBad, only_censusBad, only_stopBin, only_dropLine, only_upd]

theorem only_execLineDispatch {fr : List Block} {s : State} {t : State} (h_out : Block.out ∈ fr) (h_win : Block.win ∈ fr) (h_cfg : Block.cfg ∈ fr) (h_led : Block.led ∈ fr) (h_lay : Block.lay ∈ fr) (h_rnd : Block.rnd ∈ fr) (h_store : Block.store ∈ fr) (h_seq : Block.seq ∈ fr) (h_link : Block.link ∈ fr) (h_trk : Block.trk ∈ fr) (h_scan : Block.scan ∈ fr) (h_dma : Block.dma ∈ fr) (h_fab : Block.fab ∈ fr) (h_nor : Block.nor ∈ fr) (h_diag : Block.diag ∈ fr) (h_evt : Block.evt ∈ fr) (h_stats : Block.stats ∈ fr) (h_hostMem : Block.hostMem ∈ fr) (h_free : Block.free ∈ fr) (hx : (execLineDispatch s) = .next t) : Only fr s t := by
  have h0 := Only.refl fr s
  grind [execLineDispatch, only_assign, only_lineBad]

theorem only_lineDone {fr : List Block} {s0 : State} (r : RLine) (segs : List (List Nat)) {s : State} (h_out : Block.out ∈ fr) (h_win : Block.win ∈ fr) (h_led : Block.led ∈ fr) (h_lay : Block.lay ∈ fr) (h_rnd : Block.rnd ∈ fr) (h_store : Block.store ∈ fr) (h_dma : Block.dma ∈ fr) (h_fab : Block.fab ∈ fr) (h_nor : Block.nor ∈ fr) (h_diag : Block.diag ∈ fr) (h_evt : Block.evt ∈ fr) (h_stats : Block.stats ∈ fr) (h_hbmMem : Block.hbmMem ∈ fr) (h_hostMem : Block.hostMem ∈ fr) (h_free : Block.free ∈ fr) (hkp : Only fr s0 s) : Only fr s0 (lineDone r segs s) := by
  grind [lineDone, only_checkReady, only_writeLine, only_binRendered, only_putCensus]

theorem only_execLineRendered {fr : List Block} (core : Fin 32) {s : State} {t : State} (h_out : Block.out ∈ fr) (h_win : Block.win ∈ fr) (h_cfg : Block.cfg ∈ fr) (h_led : Block.led ∈ fr) (h_lay : Block.lay ∈ fr) (h_rnd : Block.rnd ∈ fr) (h_store : Block.store ∈ fr) (h_seq : Block.seq ∈ fr) (h_link : Block.link ∈ fr) (h_trk : Block.trk ∈ fr) (h_scan : Block.scan ∈ fr) (h_dma : Block.dma ∈ fr) (h_fab : Block.fab ∈ fr) (h_nor : Block.nor ∈ fr) (h_diag : Block.diag ∈ fr) (h_evt : Block.evt ∈ fr) (h_stats : Block.stats ∈ fr) (h_hbmMem : Block.hbmMem ∈ fr) (h_hostMem : Block.hostMem ∈ fr) (h_free : Block.free ∈ fr) (hx : (execLineRendered core s) = .next t) : Only fr s t := by
  have h0 := Only.refl fr s
  grind [execLineRendered, only_lineDone, only_stat, only_lineBad, only_upd]

theorem only_execSpillWriteAck {fr : List Block} (n : Nat) {s : State} {t : State} (h_rnd : Block.rnd ∈ fr) (h_store : Block.store ∈ fr) (hx : (execSpillWriteAck n s) = .next t) : Only fr s t := by
  have h0 := Only.refl fr s
  grind [execSpillWriteAck, only_checkReady, only_setSlot]

theorem only_execSpillReadReturn {fr : List Block} (n : Nat) {s : State} {t : State} (h_store : Block.store ∈ fr) (h_stats : Block.stats ∈ fr) (hx : (execSpillReadReturn n s) = .next t) : Only fr s t := by
  have h0 := Only.refl fr s
  grind [execSpillReadReturn, only_statAdd, only_upd]

theorem only_execRenderBinComplete {fr : List Block} (f : BitVec 8) {s : State} {t : State} (h_out : Block.out ∈ fr) (h_win : Block.win ∈ fr) (h_cfg : Block.cfg ∈ fr) (h_led : Block.led ∈ fr) (h_rnd : Block.rnd ∈ fr) (h_link : Block.link ∈ fr) (h_dma : Block.dma ∈ fr) (h_fab : Block.fab ∈ fr) (h_nor : Block.nor ∈ fr) (h_diag : Block.diag ∈ fr) (h_evt : Block.evt ∈ fr) (h_stats : Block.stats ∈ fr) (h_hbmMem : Block.hbmMem ∈ fr) (h_hostMem : Block.hostMem ∈ fr) (h_free : Block.free ∈ fr) (hx : (execRenderBinComplete f s) = .next t) : Only fr s t := by
  have h0 := Only.refl fr s
  grind [execRenderBinComplete, only_deliver, only_endBin]

theorem only_offloadOver {fr : List Block} {s0 : State} (node : BitVec 12) (id : BitVec 32) (refused : Bool) {s : State} (h_out : Block.out ∈ fr) (h_win : Block.win ∈ fr) (h_rnd : Block.rnd ∈ fr) (h_nor : Block.nor ∈ fr) (h_evt : Block.evt ∈ fr) (h_stats : Block.stats ∈ fr) (h_hostMem : Block.hostMem ∈ fr) (hkp : Only fr s0 s) : Only fr s0 (offloadOver node id refused s) := by
  grind [offloadOver, only_raise, only_upd]

theorem only_takeOffload {fr : List Block} {s0 : State} (w : W128) (p : List Byte) {s : State} (h_out : Block.out ∈ fr) (h_win : Block.win ∈ fr) (h_rnd : Block.rnd ∈ fr) (h_fab : Block.fab ∈ fr) (h_nor : Block.nor ∈ fr) (h_diag : Block.diag ∈ fr) (h_evt : Block.evt ∈ fr) (h_stats : Block.stats ∈ fr) (h_hostMem : Block.hostMem ∈ fr) (hkp : Only fr s0 s) : Only fr s0 (takeOffload w p s) := by
  grind [takeOffload, only_nackSpore, only_raiseBad, only_raiseBinFailed, only_queueBin]

end Sys2Proof.Machine
end

