-- ==== Sys2Proof/Laws/Only3.lean ====
section
/-! SUPPORT. What the functions of these files keep of a state (Laws.Only): KeeperOps, PowerBase, PowerOps, PairOps. -/

namespace Sys2Proof.Machine

theorem only_recordErasure {fr : List Block} {s0 : State} (e : Erasure) (bytes : Nat) {s : State} (h_out : Block.out ∈ fr) (h_win : Block.win ∈ fr) (h_keep : Block.keep ∈ fr) (h_nor : Block.nor ∈ fr) (h_smb : Block.smb ∈ fr) (h_evt : Block.evt ∈ fr) (h_stats : Block.stats ∈ fr) (h_hostMem : Block.hostMem ∈ fr) (hkp : Only fr s0 s) : Only fr s0 (recordErasure e bytes s) := by
  grind [recordErasure, only_setSmb, only_setFlag, only_raise, only_upd]

theorem only_zeroRegions {fr : List Block} {s0 : State} (a0 : List Region) {a1 : State} (h_hbmMem : Block.hbmMem ∈ fr) (hkp : Only fr s0 a1) : Only fr s0 (zeroRegions a0 a1) := by
  fun_induction zeroRegions a0 a1 <;> grind [only_upd]

theorem only_finishErasure {fr : List Block} {s0 : State} (e : Erasure) {s : State} (h_out : Block.out ∈ fr) (h_win : Block.win ∈ fr) (h_keep : Block.keep ∈ fr) (h_nor : Block.nor ∈ fr) (h_smb : Block.smb ∈ fr) (h_evt : Block.evt ∈ fr) (h_stats : Block.stats ∈ fr) (h_hbmMem : Block.hbmMem ∈ fr) (h_hostMem : Block.hostMem ∈ fr) (hkp : Only fr s0 s) : Only fr s0 (finishErasure e s) := by
  grind [finishErasure, only_recordErasure, only_zeroRegions, only_upd]

theorem only_finishErasures {fr : List Block} {s0 : State} (a0 : List Erasure) {a1 : State} (h_out : Block.out ∈ fr) (h_win : Block.win ∈ fr) (h_keep : Block.keep ∈ fr) (h_nor : Block.nor ∈ fr) (h_smb : Block.smb ∈ fr) (h_evt : Block.evt ∈ fr) (h_stats : Block.stats ∈ fr) (h_hbmMem : Block.hbmMem ∈ fr) (h_hostMem : Block.hostMem ∈ fr) (hkp : Only fr s0 a1) : Only fr s0 (finishErasures a0 a1) := by
  fun_induction finishErasures a0 a1 <;> grind [only_finishErasure, only_upd]

theorem only_scrubRegions {fr : List Block} {s0 : State} {s : State} (h_out : Block.out ∈ fr) (h_win : Block.win ∈ fr) (h_keep : Block.keep ∈ fr) (h_nor : Block.nor ∈ fr) (h_smb : Block.smb ∈ fr) (h_evt : Block.evt ∈ fr) (h_stats : Block.stats ∈ fr) (h_hbmMem : Block.hbmMem ∈ fr) (h_hostMem : Block.hostMem ∈ fr) (hkp : Only fr s0 s) : Only fr s0 (scrubRegions s) := by
  grind [scrubRegions, only_finishErasures, only_upd]

theorem only_eraseIngests {fr : List Block} {s0 : State} (mask : BitVec 64) (a1 : List IngestRun) {a2 : State} (h_out : Block.out ∈ fr) (h_win : Block.win ∈ fr) (h_cfg : Block.cfg ∈ fr) (h_led : Block.led ∈ fr) (h_lay : Block.lay ∈ fr) (h_link : Block.link ∈ fr) (h_dma : Block.dma ∈ fr) (h_fab : Block.fab ∈ fr) (h_nor : Block.nor ∈ fr) (h_diag : Block.diag ∈ fr) (h_evt : Block.evt ∈ fr) (h_stats : Block.stats ∈ fr) (h_hostMem : Block.hostMem ∈ fr) (h_free : Block.free ∈ fr) (hkp : Only fr s0 a2) : Only fr s0 (eraseIngests mask a1 a2) := by
  fun_induction eraseIngests mask a1 a2 <;> grind [only_failIngest, only_upd]

theorem only_eraseDecryptor {fr : List Block} {s0 : State} (mask : BitVec 64) {s : State} (h_lay : Block.lay ∈ fr) (hkp : Only fr s0 s) : Only fr s0 (eraseDecryptor mask s) := by
  grind [eraseDecryptor, only_upd]

theorem only_eraseSlots {fr : List Block} {s0 : State} (e : Erasure) {s : State} (h_keep : Block.keep ∈ fr) (hkp : Only fr s0 s) : Only fr s0 (eraseSlots e s) := by
  grind [eraseSlots, only_upd]

theorem only_erase {fr : List Block} {s0 : State} (e : Erasure) {s : State} (h_out : Block.out ∈ fr) (h_win : Block.win ∈ fr) (h_cfg : Block.cfg ∈ fr) (h_led : Block.led ∈ fr) (h_lay : Block.lay ∈ fr) (h_link : Block.link ∈ fr) (h_dma : Block.dma ∈ fr) (h_fab : Block.fab ∈ fr) (h_keep : Block.keep ∈ fr) (h_nor : Block.nor ∈ fr) (h_smb : Block.smb ∈ fr) (h_diag : Block.diag ∈ fr) (h_evt : Block.evt ∈ fr) (h_stats : Block.stats ∈ fr) (h_hostMem : Block.hostMem ∈ fr) (h_free : Block.free ∈ fr) (hkp : Only fr s0 s) : Only fr s0 (erase e s) := by
  grind [erase, only_eraseIngests, only_eraseDecryptor, only_eraseSlots, only_recordErasure, only_upd]

theorem only_eraseAll {fr : List Block} {s0 : State} (cause : Nat) {s : State} (h_out : Block.out ∈ fr) (h_win : Block.win ∈ fr) (h_cfg : Block.cfg ∈ fr) (h_led : Block.led ∈ fr) (h_lay : Block.lay ∈ fr) (h_link : Block.link ∈ fr) (h_dma : Block.dma ∈ fr) (h_fab : Block.fab ∈ fr) (h_keep : Block.keep ∈ fr) (h_nor : Block.nor ∈ fr) (h_smb : Block.smb ∈ fr) (h_diag : Block.diag ∈ fr) (h_evt : Block.evt ∈ fr) (h_stats : Block.stats ∈ fr) (h_hostMem : Block.hostMem ∈ fr) (h_free : Block.free ∈ fr) (hkp : Only fr s0 s) : Only fr s0 (eraseAll cause s) := by
  grind [eraseAll, only_erase]

theorem only_keeperTell {fr : List Block} {s0 : State} (code : Nat) (det : W128) {s : State} (h_out : Block.out ∈ fr) (h_win : Block.win ∈ fr) (h_keep : Block.keep ∈ fr) (h_nor : Block.nor ∈ fr) (h_evt : Block.evt ∈ fr) (h_stats : Block.stats ∈ fr) (h_hostMem : Block.hostMem ∈ fr) (hkp : Only fr s0 s) : Only fr s0 (keeperTell code det s) := by
  grind [keeperTell, only_raise, only_upd]

theorem only_keeperRaise {fr : List Block} {s0 : State} (code : Nat) {s : State} (h_out : Block.out ∈ fr) (h_win : Block.win ∈ fr) (h_keep : Block.keep ∈ fr) (h_nor : Block.nor ∈ fr) (h_evt : Block.evt ∈ fr) (h_stats : Block.stats ∈ fr) (h_hostMem : Block.hostMem ∈ fr) (hkp : Only fr s0 s) : Only fr s0 (keeperRaise code s) := by
  grind [keeperRaise, only_keeperTell]

theorem only_openDebug {fr : List Block} {s0 : State} {s : State} (h_out : Block.out ∈ fr) (h_win : Block.win ∈ fr) (h_cfg : Block.cfg ∈ fr) (h_led : Block.led ∈ fr) (h_lay : Block.lay ∈ fr) (h_link : Block.link ∈ fr) (h_dma : Block.dma ∈ fr) (h_fab : Block.fab ∈ fr) (h_keep : Block.keep ∈ fr) (h_nor : Block.nor ∈ fr) (h_smb : Block.smb ∈ fr) (h_diag : Block.diag ∈ fr) (h_evt : Block.evt ∈ fr) (h_stats : Block.stats ∈ fr) (h_hostMem : Block.hostMem ∈ fr) (h_free : Block.free ∈ fr) (hkp : Only fr s0 s) : Only fr s0 (openDebug s) := by
  grind [openDebug, only_eraseAll, only_raise, only_upd]

theorem only_heldDebug {fr : List Block} {s0 : State} (m : Mode) {s : State} (h_out : Block.out ∈ fr) (h_win : Block.win ∈ fr) (h_cfg : Block.cfg ∈ fr) (h_led : Block.led ∈ fr) (h_lay : Block.lay ∈ fr) (h_link : Block.link ∈ fr) (h_dma : Block.dma ∈ fr) (h_fab : Block.fab ∈ fr) (h_keep : Block.keep ∈ fr) (h_nor : Block.nor ∈ fr) (h_smb : Block.smb ∈ fr) (h_diag : Block.diag ∈ fr) (h_evt : Block.evt ∈ fr) (h_stats : Block.stats ∈ fr) (h_hostMem : Block.hostMem ∈ fr) (h_free : Block.free ∈ fr) (hkp : Only fr s0 s) : Only fr s0 (heldDebug m s) := by
  grind [heldDebug, only_openDebug]

theorem only_memStops {fr : List Block} {s0 : State} {s : State} (h_keep : Block.keep ∈ fr) (hkp : Only fr s0 s) : Only fr s0 (memStops s) := by
  grind [memStops, only_upd]

theorem only_raiseLater {fr : List Block} {s0 : State} (a0 : List (Nat × W128)) {a1 : State} (h_out : Block.out ∈ fr) (h_win : Block.win ∈ fr) (h_nor : Block.nor ∈ fr) (h_evt : Block.evt ∈ fr) (h_stats : Block.stats ∈ fr) (h_hostMem : Block.hostMem ∈ fr) (hkp : Only fr s0 a1) : Only fr s0 (raiseLater a0 a1) := by
  fun_induction raiseLater a0 a1 <;> grind [only_raise, only_upd]

theorem only_flushKeeper {fr : List Block} {s0 : State} {s : State} (h_out : Block.out ∈ fr) (h_win : Block.win ∈ fr) (h_keep : Block.keep ∈ fr) (h_nor : Block.nor ∈ fr) (h_evt : Block.evt ∈ fr) (h_stats : Block.stats ∈ fr) (h_hostMem : Block.hostMem ∈ fr) (hkp : Only fr s0 s) : Only fr s0 (flushKeeper s) := by
  grind [flushKeeper, only_raiseLater, only_upd]

theorem only_keeperPowered {fr : List Block} {s0 : State} {s : State} (h_out : Block.out ∈ fr) (h_win : Block.win ∈ fr) (h_keep : Block.keep ∈ fr) (h_nor : Block.nor ∈ fr) (h_evt : Block.evt ∈ fr) (h_stats : Block.stats ∈ fr) (h_hostMem : Block.hostMem ∈ fr) (hkp : Only fr s0 s) : Only fr s0 (keeperPowered s) := by
  grind [keeperPowered, only_flushKeeper, only_upd]

theorem only_showDacs {fr : List Block} {s0 : State} {s : State} (h_out : Block.out ∈ fr) (hkp : Only fr s0 s) : Only fr s0 (showDacs s) := by
  grind [showDacs, only_emit, only_foldl]

theorem only_abortCal {fr : List Block} {s0 : State} {s : State} (h_out : Block.out ∈ fr) (h_win : Block.win ∈ fr) (h_mb : Block.mb ∈ fr) (h_cfg : Block.cfg ∈ fr) (h_led : Block.led ∈ fr) (h_link : Block.link ∈ fr) (h_dma : Block.dma ∈ fr) (h_fab : Block.fab ∈ fr) (h_cal : Block.cal ∈ fr) (h_nor : Block.nor ∈ fr) (h_svc : Block.svc ∈ fr) (h_diag : Block.diag ∈ fr) (h_evt : Block.evt ∈ fr) (h_stats : Block.stats ∈ fr) (h_hostMem : Block.hostMem ∈ fr) (h_free : Block.free ∈ fr) (hkp : Only fr s0 s) : Only fr s0 (abortCal s) := by
  grind [abortCal, only_raise, only_showDacs, only_activateTables, only_failItem, only_settle, only_upd]

theorem only_setBase {fr : List Block} {s0 : State} (b : Fin 4) (x : TimeBase) {s : State} (h_time : Block.time ∈ fr) (hkp : Only fr s0 s) : Only fr s0 (setBase b x s) := by
  grind [setBase, only_upd]

theorem only_deriveSt {fr : List Block} {s0 : State} {s : State} (h_time : Block.time ∈ fr) (hkp : Only fr s0 s) : Only fr s0 (deriveSt s) := by
  grind [deriveSt, only_setBase]

theorem only_applySource {fr : List Block} {s0 : State} (b : Fin 4) (src : Nat) {s : State} (h_time : Block.time ∈ fr) (hkp : Only fr s0 s) : Only fr s0 (applySource b src s) := by
  grind [applySource, only_deriveSt, only_setBase]

theorem only_trainHbm {fr : List Block} {s0 : State} {s : State} (h_hbm : Block.hbm ∈ fr) (hkp : Only fr s0 s) : Only fr s0 (trainHbm s) := by
  grind [trainHbm, only_upd]

theorem only_memUp {fr : List Block} {s0 : State} {s : State} (h_out : Block.out ∈ fr) (h_win : Block.win ∈ fr) (h_hbm : Block.hbm ∈ fr) (h_keep : Block.keep ∈ fr) (h_nor : Block.nor ∈ fr) (h_smb : Block.smb ∈ fr) (h_evt : Block.evt ∈ fr) (h_stats : Block.stats ∈ fr) (h_hbmMem : Block.hbmMem ∈ fr) (h_hostMem : Block.hostMem ∈ fr) (hkp : Only fr s0 s) : Only fr s0 (memUp s) := by
  grind [memUp, only_scrubRegions, only_trainHbm]

theorem only_resumeBases {fr : List Block} {s0 : State} {s : State} (h_time : Block.time ∈ fr) (hkp : Only fr s0 s) : Only fr s0 (resumeBases s) := by
  grind [resumeBases, only_applySource]

theorem only_sendPairFail {fr : List Block} {s0 : State} (cause : Nat) {s : State} (h_out : Block.out ∈ fr) (h_win : Block.win ∈ fr) (h_fab : Block.fab ∈ fr) (h_nor : Block.nor ∈ fr) (h_diag : Block.diag ∈ fr) (h_evt : Block.evt ∈ fr) (h_stats : Block.stats ∈ fr) (h_hostMem : Block.hostMem ∈ fr) (hkp : Only fr s0 s) : Only fr s0 (sendPairFail cause s) := by
  grind [sendPairFail, only_sendBoth]

theorem only_haltStripe {fr : List Block} {s0 : State} {s : State} (h_rnd : Block.rnd ∈ fr) (h_store : Block.store ∈ fr) (h_seq : Block.seq ∈ fr) (h_trk : Block.trk ∈ fr) (hkp : Only fr s0 s) : Only fr s0 (haltStripe s) := by
  grind [haltStripe, only_endFill, only_upd]

theorem only_storeLost {fr : List Block} {s0 : State} {s : State} (h_store : Block.store ∈ fr) (hkp : Only fr s0 s) : Only fr s0 (storeLost s) := by
  grind [storeLost, only_upd]

theorem only_linkReset {fr : List Block} {s0 : State} {s : State} (h_link : Block.link ∈ fr) (hkp : Only fr s0 s) : Only fr s0 (linkReset s) := by
  grind [linkReset, only_upd]

theorem only_loseBase {fr : List Block} {s0 : State} (b : Fin 4) {s : State} (h_time : Block.time ∈ fr) (hkp : Only fr s0 s) : Only fr s0 (loseBase b s) := by
  grind [loseBase, only_setBase]

theorem only_loseQuadratureHome {fr : List Block} {s0 : State} {s : State} (h_scan : Block.scan ∈ fr) (hkp : Only fr s0 s) : Only fr s0 (loseQuadratureHome s) := by
  grind [loseQuadratureHome, only_loseHome]

theorem only_setDac {fr : List Block} {s0 : State} (d : Fin 4) (code : Int) {s : State} (h_out : Block.out ∈ fr) (h_trk : Block.trk ∈ fr) (hkp : Only fr s0 s) : Only fr s0 (setDac d code s) := by
  grind [setDac, only_emit, only_upd]

theorem only_parkDacs {fr : List Block} {s0 : State} {s : State} (h_out : Block.out ∈ fr) (h_trk : Block.trk ∈ fr) (hkp : Only fr s0 s) : Only fr s0 (parkDacs s) := by
  grind [parkDacs, only_setDac, only_foldl]

theorem only_trackOff {fr : List Block} {s0 : State} {s : State} (h_out : Block.out ∈ fr) (h_trk : Block.trk ∈ fr) (hkp : Only fr s0 s) : Only fr s0 (trackOff s) := by
  grind [trackOff, only_parkDacs, only_upd]

theorem only_seedHbm {fr : List Block} {s0 : State} {s : State} (h_hbm : Block.hbm ∈ fr) (hkp : Only fr s0 s) : Only fr s0 (seedHbm s) := by
  grind [seedHbm, only_upd]

theorem only_unpair {fr : List Block} {s0 : State} {s : State} (h_out : Block.out ∈ fr) (h_win : Block.win ∈ fr) (h_mb : Block.mb ∈ fr) (h_led : Block.led ∈ fr) (h_dma : Block.dma ∈ fr) (h_fab : Block.fab ∈ fr) (h_nor : Block.nor ∈ fr) (h_svc : Block.svc ∈ fr) (h_diag : Block.diag ∈ fr) (h_evt : Block.evt ∈ fr) (h_stats : Block.stats ∈ fr) (h_hostMem : Block.hostMem ∈ fr) (h_free : Block.free ∈ fr) (hkp : Only fr s0 s) : Only fr s0 (unpair s) := by
  grind [unpair, only_loseWitness, only_settleAcks, only_upd]

theorem only_abortOffloads {fr : List Block} {s0 : State} (a0 : List BinRun) {a1 : State} (h_out : Block.out ∈ fr) (h_win : Block.win ∈ fr) (h_cfg : Block.cfg ∈ fr) (h_led : Block.led ∈ fr) (h_rnd : Block.rnd ∈ fr) (h_link : Block.link ∈ fr) (h_dma : Block.dma ∈ fr) (h_fab : Block.fab ∈ fr) (h_nor : Block.nor ∈ fr) (h_diag : Block.diag ∈ fr) (h_evt : Block.evt ∈ fr) (h_stats : Block.stats ∈ fr) (h_hostMem : Block.hostMem ∈ fr) (h_free : Block.free ∈ fr) (hkp : Only fr s0 a1) : Only fr s0 (abortOffloads a0 a1) := by
  fun_induction abortOffloads a0 a1 <;> grind [only_endBin, only_upd]

theorem only_applySources {fr : List Block} {s0 : State} {s : State} (h_time : Block.time ∈ fr) (hkp : Only fr s0 s) : Only fr s0 (applySources s) := by
  grind [applySources, only_applySource]

theorem only_applyStore {fr : List Block} {s0 : State} {s : State} (h_time : Block.time ∈ fr) (h_cfg : Block.cfg ∈ fr) (h_led : Block.led ∈ fr) (h_trk : Block.trk ∈ fr) (h_scan : Block.scan ∈ fr) (h_ilk : Block.ilk ∈ fr) (h_fab : Block.fab ∈ fr) (h_cal : Block.cal ∈ fr) (hkp : Only fr s0 s) : Only fr s0 (applyStore s) := by
  grind [applyStore, only_upd]

theorem only_retentionFailed {fr : List Block} {s0 : State} (n : Nat) {s : State} (h_out : Block.out ∈ fr) (h_win : Block.win ∈ fr) (h_nor : Block.nor ∈ fr) (h_evt : Block.evt ∈ fr) (h_stats : Block.stats ∈ fr) (h_hostMem : Block.hostMem ∈ fr) (hkp : Only fr s0 s) : Only fr s0 (retentionFailed n s) := by
  grind [retentionFailed, only_raise]

theorem only_dropBank {fr : List Block} {s0 : State} (b : Fin 2) {s : State} (h_trk : Block.trk ∈ fr) (hkp : Only fr s0 s) : Only fr s0 (dropBank b s) := by
  grind [dropBank, only_upd]

theorem only_clearTable {fr : List Block} {s0 : State} (n : Nat) {s : State} (h_cfg : Block.cfg ∈ fr) (h_trk : Block.trk ∈ fr) (h_scan : Block.scan ∈ fr) (hkp : Only fr s0 s) : Only fr s0 (clearTable n s) := by
  grind [clearTable, only_dropBank, only_upd]

theorem only_dropTable {fr : List Block} {s0 : State} (n : Nat) {s : State} (h_out : Block.out ∈ fr) (h_win : Block.win ∈ fr) (h_cfg : Block.cfg ∈ fr) (h_trk : Block.trk ∈ fr) (h_scan : Block.scan ∈ fr) (h_nor : Block.nor ∈ fr) (h_evt : Block.evt ∈ fr) (h_stats : Block.stats ∈ fr) (h_hostMem : Block.hostMem ∈ fr) (hkp : Only fr s0 s) : Only fr s0 (dropTable n s) := by
  grind [dropTable, only_retentionFailed, only_clearTable]

theorem only_dropTables {fr : List Block} {s0 : State} (bad : BitVec 6) (a1 : List Nat) {a2 : State} (h_out : Block.out ∈ fr) (h_win : Block.win ∈ fr) (h_cfg : Block.cfg ∈ fr) (h_trk : Block.trk ∈ fr) (h_scan : Block.scan ∈ fr) (h_nor : Block.nor ∈ fr) (h_evt : Block.evt ∈ fr) (h_stats : Block.stats ∈ fr) (h_hostMem : Block.hostMem ∈ fr) (hkp : Only fr s0 a2) : Only fr s0 (dropTables bad a1 a2) := by
  fun_induction dropTables bad a1 a2 <;> grind [only_dropTable, only_upd]

theorem only_arrive {fr : List Block} {s0 : State} (old : Mode) (new : Mode) (bad : BitVec 6) {s : State} (h_out : Block.out ∈ fr) (h_time : Block.time ∈ fr) (h_win : Block.win ∈ fr) (h_cfg : Block.cfg ∈ fr) (h_led : Block.led ∈ fr) (h_rnd : Block.rnd ∈ fr) (h_store : Block.store ∈ fr) (h_seq : Block.seq ∈ fr) (h_link : Block.link ∈ fr) (h_trk : Block.trk ∈ fr) (h_scan : Block.scan ∈ fr) (h_hbm : Block.hbm ∈ fr) (h_keep : Block.keep ∈ fr) (h_nor : Block.nor ∈ fr) (h_smb : Block.smb ∈ fr) (h_evt : Block.evt ∈ fr) (h_stats : Block.stats ∈ fr) (h_hbmMem : Block.hbmMem ∈ fr) (h_hostMem : Block.hostMem ∈ fr) (h_free : Block.free ∈ fr) (hkp : Only fr s0 s) : Only fr s0 (arrive old new bad s) := by
  unfold arrive
  (repeat' split) <;> grind [only_dropTables, only_memUp, only_resumeBases, only_resumeStripe, only_becomeHolder, only_upd]

theorem only_settleMode {fr : List Block} {s0 : State} (status : Nat) (reason : Nat) (results : Mode → List W128) {s : State} (h_out : Block.out ∈ fr) (h_win : Block.win ∈ fr) (h_mb : Block.mb ∈ fr) (h_svc : Block.svc ∈ fr) (h_stats : Block.stats ∈ fr) (h_hostMem : Block.hostMem ∈ fr) (hkp : Only fr s0 s) : Only fr s0 (settleMode status reason results s) := by
  grind [settleMode, only_settle]

theorem only_failMode {fr : List Block} {s0 : State} (status : Nat) (reason : Nat) {s : State} (h_out : Block.out ∈ fr) (h_pm : Block.pm ∈ fr) (h_win : Block.win ∈ fr) (h_mb : Block.mb ∈ fr) (h_link : Block.link ∈ fr) (h_nor : Block.nor ∈ fr) (h_svc : Block.svc ∈ fr) (h_evt : Block.evt ∈ fr) (h_stats : Block.stats ∈ fr) (h_hostMem : Block.hostMem ∈ fr) (hkp : Only fr s0 s) : Only fr s0 (failMode status reason s) := by
  grind [failMode, only_sendRelease, only_settleMode, only_raise, only_upd]

theorem only_beginChange {fr : List Block} {s0 : State} (m : Mode) (trigger : Nat) {s : State} (h_out : Block.out ∈ fr) (h_pm : Block.pm ∈ fr) (h_win : Block.win ∈ fr) (h_mb : Block.mb ∈ fr) (h_link : Block.link ∈ fr) (h_nor : Block.nor ∈ fr) (h_svc : Block.svc ∈ fr) (h_evt : Block.evt ∈ fr) (h_stats : Block.stats ∈ fr) (h_hostMem : Block.hostMem ∈ fr) (hkp : Only fr s0 s) : Only fr s0 (beginChange m trigger s) := by
  grind [beginChange, only_failMode, only_sendClaim, only_sendRelease, only_upd]

theorem only_fwReady {fr : List Block} {s0 : State} {s : State} (h_out : Block.out ∈ fr) (h_pm : Block.pm ∈ fr) (h_win : Block.win ∈ fr) (h_stats : Block.stats ∈ fr) (hkp : Only fr s0 s) : Only fr s0 (fwReady s) := by
  grind [fwReady, only_setFlag, only_upd]

theorem only_beginRebuild {fr : List Block} {s0 : State} {s : State} (h_out : Block.out ∈ fr) (h_pm : Block.pm ∈ fr) (h_win : Block.win ∈ fr) (h_led : Block.led ∈ fr) (h_stats : Block.stats ∈ fr) (hkp : Only fr s0 s) : Only fr s0 (beginRebuild s) := by
  grind [beginRebuild, only_fwReady, only_upd]

theorem only_recordReset {fr : List Block} {s0 : State} (kind : Nat) (trigger : Nat) (rail : Nat) {s : State} (h_pm : Block.pm ∈ fr) (hkp : Only fr s0 s) : Only fr s0 (recordReset kind trigger rail s) := by
  grind [recordReset, only_upd]

theorem only_resetCal {fr : List Block} {s0 : State} {s : State} (h_out : Block.out ∈ fr) (h_win : Block.win ∈ fr) (h_cal : Block.cal ∈ fr) (h_nor : Block.nor ∈ fr) (h_evt : Block.evt ∈ fr) (h_stats : Block.stats ∈ fr) (h_hostMem : Block.hostMem ∈ fr) (hkp : Only fr s0 s) : Only fr s0 (resetCal s) := by
  grind [resetCal, only_showDacs, only_raise, only_upd]

theorem only_beginReset {fr : List Block} {s0 : State} (kind : Nat) (trigger : Nat) (rail : Nat) {s : State} (h_out : Block.out ∈ fr) (h_pm : Block.pm ∈ fr) (h_win : Block.win ∈ fr) (h_rnd : Block.rnd ∈ fr) (h_store : Block.store ∈ fr) (h_seq : Block.seq ∈ fr) (h_trk : Block.trk ∈ fr) (h_scan : Block.scan ∈ fr) (h_fab : Block.fab ∈ fr) (h_cal : Block.cal ∈ fr) (h_nor : Block.nor ∈ fr) (h_smb : Block.smb ∈ fr) (h_diag : Block.diag ∈ fr) (h_evt : Block.evt ∈ fr) (h_stats : Block.stats ∈ fr) (h_hostMem : Block.hostMem ∈ fr) (hkp : Only fr s0 s) : Only fr s0 (beginReset kind trigger rail s) := by
  grind [beginReset, only_setSmb, only_recordReset, only_sendPairFail, only_resetCal, only_releaseSpo, only_haltStripe]

theorem only_eraseUpdate {fr : List Block} {s0 : State} {s : State} (h_upd : Block.upd ∈ fr) (hkp : Only fr s0 s) : Only fr s0 (eraseUpdate s) := by
  grind [eraseUpdate, only_upd]

theorem only_bootRom {fr : List Block} {s0 : State} (b : BootIn) {s : State} (h_win : Block.win ∈ fr) (h_upd : Block.upd ∈ fr) (hkp : Only fr s0 s) : Only fr s0 (bootRom b s) := by
  grind [bootRom, only_eraseUpdate, only_upd]

theorem only_reenterMode {fr : List Block} {s0 : State} {s : State} (h_out : Block.out ∈ fr) (h_pm : Block.pm ∈ fr) (h_win : Block.win ∈ fr) (h_mb : Block.mb ∈ fr) (h_link : Block.link ∈ fr) (h_nor : Block.nor ∈ fr) (h_svc : Block.svc ∈ fr) (h_evt : Block.evt ∈ fr) (h_stats : Block.stats ∈ fr) (h_hostMem : Block.hostMem ∈ fr) (hkp : Only fr s0 s) : Only fr s0 (reenterMode s) := by
  grind [reenterMode, only_beginChange, only_upd]

theorem only_enterMode {fr : List Block} {s0 : State} (m : Mode) (trigger : Nat) {s : State} (h_out : Block.out ∈ fr) (h_pm : Block.pm ∈ fr) (h_win : Block.win ∈ fr) (h_cfg : Block.cfg ∈ fr) (h_led : Block.led ∈ fr) (h_lay : Block.lay ∈ fr) (h_link : Block.link ∈ fr) (h_dma : Block.dma ∈ fr) (h_fab : Block.fab ∈ fr) (h_keep : Block.keep ∈ fr) (h_nor : Block.nor ∈ fr) (h_smb : Block.smb ∈ fr) (h_diag : Block.diag ∈ fr) (h_evt : Block.evt ∈ fr) (h_stats : Block.stats ∈ fr) (h_hostMem : Block.hostMem ∈ fr) (h_free : Block.free ∈ fr) (hkp : Only fr s0 s) : Only fr s0 (enterMode m trigger s) := by
  grind [enterMode, only_heldDebug, only_setFlag, only_raise, only_upd]

theorem only_trackDown {fr : List Block} {s0 : State} {s : State} (h_trk : Block.trk ∈ fr) (h_scan : Block.scan ∈ fr) (hkp : Only fr s0 s) : Only fr s0 (trackDown s) := by
  grind [trackDown, only_loseQuadratureHome, only_releaseSpo, only_upd]

theorem only_leaveMode {fr : List Block} {s0 : State} (old : Mode) (new : Mode) {s : State} (h_out : Block.out ∈ fr) (h_time : Block.time ∈ fr) (h_win : Block.win ∈ fr) (h_cfg : Block.cfg ∈ fr) (h_led : Block.led ∈ fr) (h_rnd : Block.rnd ∈ fr) (h_store : Block.store ∈ fr) (h_link : Block.link ∈ fr) (h_trk : Block.trk ∈ fr) (h_scan : Block.scan ∈ fr) (h_dma : Block.dma ∈ fr) (h_fab : Block.fab ∈ fr) (h_keep : Block.keep ∈ fr) (h_nor : Block.nor ∈ fr) (h_diag : Block.diag ∈ fr) (h_evt : Block.evt ∈ fr) (h_stats : Block.stats ∈ fr) (h_hostMem : Block.hostMem ∈ fr) (h_free : Block.free ∈ fr) (hkp : Only fr s0 s) : Only fr s0 (leaveMode old new s) := by
  unfold leaveMode
  split
  · have h0 : Only fr s0 { s with rnd := Render.init } := (by grind [only_upd])
    exact only_memStops ‹_› (only_storeLost ‹_› (only_linkReset ‹_› (only_dropPorts ‹_› (only_loseBase _ ‹_› (only_loseBase _ ‹_› (only_trackDown ‹_› ‹_›
      (only_trackOff ‹_› ‹_› h0)))))))
  · exact only_storeLost ‹_› (only_linkReset ‹_› (only_loseBase _ ‹_› (only_trackDown ‹_› ‹_› hkp)))
  · exact only_storeLost ‹_› (only_trackOff ‹_› ‹_› hkp)
  · exact only_abortOffloads _ ‹_› ‹_› ‹_› ‹_› ‹_› ‹_› ‹_› ‹_› ‹_› ‹_› ‹_› ‹_› ‹_› ‹_› hkp
  · exact hkp

theorem only_completeChange {fr : List Block} {s0 : State} (bad : BitVec 6) (tUs : Nat) {s : State} (h_out : Block.out ∈ fr) (h_pm : Block.pm ∈ fr) (h_time : Block.time ∈ fr) (h_win : Block.win ∈ fr) (h_mb : Block.mb ∈ fr) (h_cfg : Block.cfg ∈ fr) (h_led : Block.led ∈ fr) (h_lay : Block.lay ∈ fr) (h_rnd : Block.rnd ∈ fr) (h_store : Block.store ∈ fr) (h_seq : Block.seq ∈ fr) (h_link : Block.link ∈ fr) (h_trk : Block.trk ∈ fr) (h_scan : Block.scan ∈ fr) (h_dma : Block.dma ∈ fr) (h_fab : Block.fab ∈ fr) (h_hbm : Block.hbm ∈ fr) (h_keep : Block.keep ∈ fr) (h_nor : Block.nor ∈ fr) (h_svc : Block.svc ∈ fr) (h_smb : Block.smb ∈ fr) (h_diag : Block.diag ∈ fr) (h_evt : Block.evt ∈ fr) (h_stats : Block.stats ∈ fr) (h_hbmMem : Block.hbmMem ∈ fr) (h_hostMem : Block.hostMem ∈ fr) (h_free : Block.free ∈ fr) (hkp : Only fr s0 s) : Only fr s0 (completeChange bad tUs s) := by
  grind [completeChange, only_enterMode, only_leaveMode, only_settleMode, only_arrive]

theorem only_resetOccurred {fr : List Block} {s0 : State} (kind : Nat) (trigger : Nat) (lt : BitVec 32) {s : State} (h_out : Block.out ∈ fr) (h_win : Block.win ∈ fr) (h_nor : Block.nor ∈ fr) (h_evt : Block.evt ∈ fr) (h_stats : Block.stats ∈ fr) (h_hostMem : Block.hostMem ∈ fr) (hkp : Only fr s0 s) : Only fr s0 (resetOccurred kind trigger lt s) := by
  grind [resetOccurred, only_raise]

theorem only_enterRecovery {fr : List Block} {s0 : State} (prev : Mode) {s : State} (h_out : Block.out ∈ fr) (h_pm : Block.pm ∈ fr) (h_win : Block.win ∈ fr) (h_cfg : Block.cfg ∈ fr) (h_led : Block.led ∈ fr) (h_lay : Block.lay ∈ fr) (h_link : Block.link ∈ fr) (h_dma : Block.dma ∈ fr) (h_fab : Block.fab ∈ fr) (h_keep : Block.keep ∈ fr) (h_nor : Block.nor ∈ fr) (h_smb : Block.smb ∈ fr) (h_diag : Block.diag ∈ fr) (h_evt : Block.evt ∈ fr) (h_stats : Block.stats ∈ fr) (h_hostMem : Block.hostMem ∈ fr) (h_free : Block.free ∈ fr) (hkp : Only fr s0 s) : Only fr s0 (enterRecovery prev s) := by
  grind [enterRecovery, only_enterMode, only_upd]

theorem only_reportBoot {fr : List Block} {s0 : State} (code : Option Nat) {s : State} (h_out : Block.out ∈ fr) (h_win : Block.win ∈ fr) (h_nor : Block.nor ∈ fr) (h_evt : Block.evt ∈ fr) (h_stats : Block.stats ∈ fr) (h_hostMem : Block.hostMem ∈ fr) (hkp : Only fr s0 s) : Only fr s0 (reportBoot code s) := by
  unfold reportBoot
  (repeat' split) <;> grind [only_raise, only_upd]

theorem only_powerDomains {fr : List Block} {s0 : State} {s : State} (h_out : Block.out ∈ fr) (h_pm : Block.pm ∈ fr) (h_time : Block.time ∈ fr) (h_win : Block.win ∈ fr) (h_cfg : Block.cfg ∈ fr) (h_led : Block.led ∈ fr) (h_lay : Block.lay ∈ fr) (h_link : Block.link ∈ fr) (h_trk : Block.trk ∈ fr) (h_dma : Block.dma ∈ fr) (h_fab : Block.fab ∈ fr) (h_hbm : Block.hbm ∈ fr) (h_keep : Block.keep ∈ fr) (h_nor : Block.nor ∈ fr) (h_smb : Block.smb ∈ fr) (h_diag : Block.diag ∈ fr) (h_evt : Block.evt ∈ fr) (h_stats : Block.stats ∈ fr) (h_hbmMem : Block.hbmMem ∈ fr) (h_hostMem : Block.hostMem ∈ fr) (h_free : Block.free ∈ fr) (hkp : Only fr s0 s) : Only fr s0 (powerDomains s) := by
  exact only_applySources ‹_› (only_parkDacs ‹_› ‹_› (only_scrubRegions ‹_› ‹_› ‹_› ‹_› ‹_› ‹_› ‹_› ‹_› ‹_› (only_trainHbm ‹_› (only_seedHbm ‹_› (only_enterMode _ _ ‹_› ‹_› ‹_› ‹_› ‹_› ‹_› ‹_› ‹_› ‹_› ‹_› ‹_› ‹_› ‹_› ‹_› ‹_› ‹_› ‹_› hkp)))))

theorem only_loadStore {fr : List Block} {s0 : State} {s : State} (h_out : Block.out ∈ fr) (h_time : Block.time ∈ fr) (h_win : Block.win ∈ fr) (h_cfg : Block.cfg ∈ fr) (h_led : Block.led ∈ fr) (h_trk : Block.trk ∈ fr) (h_scan : Block.scan ∈ fr) (h_ilk : Block.ilk ∈ fr) (h_fab : Block.fab ∈ fr) (h_cal : Block.cal ∈ fr) (h_nor : Block.nor ∈ fr) (h_evt : Block.evt ∈ fr) (h_stats : Block.stats ∈ fr) (h_hostMem : Block.hostMem ∈ fr) (hkp : Only fr s0 s) : Only fr s0 (loadStore s) := by
  grind [loadStore, only_applyStore, only_raise, only_upd]

theorem only_firmwareStart {fr : List Block} {s0 : State} (kind : Nat) (trigger : Nat) (code : Option Nat) {s : State} (h_out : Block.out ∈ fr) (h_pm : Block.pm ∈ fr) (h_time : Block.time ∈ fr) (h_win : Block.win ∈ fr) (h_cfg : Block.cfg ∈ fr) (h_led : Block.led ∈ fr) (h_lay : Block.lay ∈ fr) (h_link : Block.link ∈ fr) (h_trk : Block.trk ∈ fr) (h_scan : Block.scan ∈ fr) (h_ilk : Block.ilk ∈ fr) (h_dma : Block.dma ∈ fr) (h_fab : Block.fab ∈ fr) (h_hbm : Block.hbm ∈ fr) (h_cal : Block.cal ∈ fr) (h_keep : Block.keep ∈ fr) (h_nor : Block.nor ∈ fr) (h_smb : Block.smb ∈ fr) (h_diag : Block.diag ∈ fr) (h_evt : Block.evt ∈ fr) (h_stats : Block.stats ∈ fr) (h_hbmMem : Block.hbmMem ∈ fr) (h_hostMem : Block.hostMem ∈ fr) (h_free : Block.free ∈ fr) (hkp : Only fr s0 s) : Only fr s0 (firmwareStart kind trigger code s) := by
  exact only_beginRebuild ‹_› ‹_› ‹_› ‹_› ‹_› (only_reportBoot _ ‹_› ‹_› ‹_› ‹_› ‹_› ‹_› (only_resetOccurred _ _ _ ‹_› ‹_› ‹_› ‹_› ‹_› ‹_› (only_powerDomains ‹_› ‹_› ‹_› ‹_› ‹_› ‹_› ‹_› ‹_› ‹_› ‹_› ‹_› ‹_› ‹_› ‹_› ‹_› ‹_› ‹_› ‹_› ‹_› ‹_› ‹_› (only_loadStore ‹_› ‹_› ‹_› ‹_› ‹_› ‹_› ‹_› ‹_› ‹_› ‹_› ‹_› ‹_› ‹_› ‹_›
    (by grind [only_upd])))))

theorem only_startUp {fr : List Block} {s0 : State} (kind : Nat) (trigger : Nat) (prev : Mode) (b : BootIn) {s : State} (h_out : Block.out ∈ fr) (h_pm : Block.pm ∈ fr) (h_time : Block.time ∈ fr) (h_win : Block.win ∈ fr) (h_cfg : Block.cfg ∈ fr) (h_led : Block.led ∈ fr) (h_lay : Block.lay ∈ fr) (h_link : Block.link ∈ fr) (h_trk : Block.trk ∈ fr) (h_scan : Block.scan ∈ fr) (h_ilk : Block.ilk ∈ fr) (h_dma : Block.dma ∈ fr) (h_fab : Block.fab ∈ fr) (h_hbm : Block.hbm ∈ fr) (h_cal : Block.cal ∈ fr) (h_keep : Block.keep ∈ fr) (h_upd : Block.upd ∈ fr) (h_nor : Block.nor ∈ fr) (h_smb : Block.smb ∈ fr) (h_diag : Block.diag ∈ fr) (h_evt : Block.evt ∈ fr) (h_stats : Block.stats ∈ fr) (h_hbmMem : Block.hbmMem ∈ fr) (h_hostMem : Block.hostMem ∈ fr) (h_free : Block.free ∈ fr) (hkp : Only fr s0 s) : Only fr s0 (startUp kind trigger prev b s) := by
  grind [startUp, only_flushKeeper, only_resetOccurred, only_enterRecovery, only_bootRom, only_firmwareStart, only_raise]

theorem only_enterHold {fr : List Block} {s0 : State} (cause : Nat) (rec : Nat) {s : State} (h_out : Block.out ∈ fr) (h_pm : Block.pm ∈ fr) (h_win : Block.win ∈ fr) (h_mb : Block.mb ∈ fr) (h_cfg : Block.cfg ∈ fr) (h_led : Block.led ∈ fr) (h_lay : Block.lay ∈ fr) (h_rnd : Block.rnd ∈ fr) (h_store : Block.store ∈ fr) (h_seq : Block.seq ∈ fr) (h_link : Block.link ∈ fr) (h_trk : Block.trk ∈ fr) (h_scan : Block.scan ∈ fr) (h_dma : Block.dma ∈ fr) (h_fab : Block.fab ∈ fr) (h_cal : Block.cal ∈ fr) (h_keep : Block.keep ∈ fr) (h_nor : Block.nor ∈ fr) (h_svc : Block.svc ∈ fr) (h_smb : Block.smb ∈ fr) (h_diag : Block.diag ∈ fr) (h_evt : Block.evt ∈ fr) (h_stats : Block.stats ∈ fr) (h_hostMem : Block.hostMem ∈ fr) (h_free : Block.free ∈ fr) (hkp : Only fr s0 s) : Only fr s0 (enterHold cause rec s) := by
  unfold enterHold
  split
  · exact hkp
  · have h0 : Only fr s0 (if s.pm.changing then failMode stFault 11 s else s) := by
      split
      · exact only_failMode _ _ ‹_› ‹_› ‹_› ‹_› ‹_› ‹_› ‹_› ‹_› ‹_› ‹_› hkp
      · exact hkp
    have h1 := only_abortCal ‹_› ‹_› ‹_› ‹_› ‹_› ‹_› ‹_› ‹_› ‹_› ‹_› ‹_› ‹_› ‹_› ‹_› ‹_› ‹_› (only_trackOff ‹_› ‹_› (only_haltStripe ‹_› ‹_› ‹_› ‹_› (only_memStops ‹_› (only_sendPairFail 1 ‹_› ‹_› ‹_› ‹_› ‹_› ‹_› ‹_› ‹_› h0))))
    dsimp only
    generalize (if s.pm.changing then failMode stFault 11 s else s) = u at h0 h1 ⊢
    generalize abortCal (trackOff (haltStripe (memStops (sendPairFail 1 u)))) = v at h1 ⊢
    have h2 : Only fr s0 { v with
        scan := { v.scan with faultFrames := if scanHolder u then 100 else 0 }
        pm := { v.pm with reenter := none } } := (by grind [only_upd])
    exact only_setFlag _ ‹_› ‹_› ‹_› (only_raise _ _ _ ‹_› ‹_› ‹_› ‹_› ‹_› ‹_› (only_enterMode _ _ ‹_› ‹_› ‹_› ‹_› ‹_› ‹_› ‹_› ‹_› ‹_› ‹_› ‹_› ‹_› ‹_› ‹_› ‹_› ‹_› ‹_› h2))

theorem only_resetState {fr : List Block} {s0 : State} (por : Bool) (keepHbm : Bool) {s : State} (h_pm : Block.pm ∈ fr) (h_time : Block.time ∈ fr) (h_win : Block.win ∈ fr) (h_mb : Block.mb ∈ fr) (h_cfg : Block.cfg ∈ fr) (h_led : Block.led ∈ fr) (h_lay : Block.lay ∈ fr) (h_rnd : Block.rnd ∈ fr) (h_store : Block.store ∈ fr) (h_seq : Block.seq ∈ fr) (h_link : Block.link ∈ fr) (h_trk : Block.trk ∈ fr) (h_scan : Block.scan ∈ fr) (h_ilk : Block.ilk ∈ fr) (h_dma : Block.dma ∈ fr) (h_fab : Block.fab ∈ fr) (h_hbm : Block.hbm ∈ fr) (h_cal : Block.cal ∈ fr) (h_keep : Block.keep ∈ fr) (h_upd : Block.upd ∈ fr) (h_smb : Block.smb ∈ fr) (h_diag : Block.diag ∈ fr) (h_aper : Block.aper ∈ fr) (h_evt : Block.evt ∈ fr) (h_stats : Block.stats ∈ fr) (h_hbmMem : Block.hbmMem ∈ fr) (h_free : Block.free ∈ fr) (hkp : Only fr s0 s) : Only fr s0 (resetState por keepHbm s) := by
  grind [resetState, only_upd]

theorem only_holdReset {fr : List Block} {s0 : State} (kind : Nat) (trigger : Nat) (rail : Nat) (h : Held) {s : State} (h_out : Block.out ∈ fr) (h_pm : Block.pm ∈ fr) (h_time : Block.time ∈ fr) (h_win : Block.win ∈ fr) (h_mb : Block.mb ∈ fr) (h_cfg : Block.cfg ∈ fr) (h_led : Block.led ∈ fr) (h_lay : Block.lay ∈ fr) (h_rnd : Block.rnd ∈ fr) (h_store : Block.store ∈ fr) (h_seq : Block.seq ∈ fr) (h_link : Block.link ∈ fr) (h_trk : Block.trk ∈ fr) (h_scan : Block.scan ∈ fr) (h_ilk : Block.ilk ∈ fr) (h_dma : Block.dma ∈ fr) (h_fab : Block.fab ∈ fr) (h_hbm : Block.hbm ∈ fr) (h_cal : Block.cal ∈ fr) (h_keep : Block.keep ∈ fr) (h_upd : Block.upd ∈ fr) (h_nor : Block.nor ∈ fr) (h_smb : Block.smb ∈ fr) (h_diag : Block.diag ∈ fr) (h_aper : Block.aper ∈ fr) (h_evt : Block.evt ∈ fr) (h_stats : Block.stats ∈ fr) (h_hbmMem : Block.hbmMem ∈ fr) (h_hostMem : Block.hostMem ∈ fr) (h_free : Block.free ∈ fr) (hkp : Only fr s0 s) : Only fr s0 (holdReset kind trigger rail h s) := by
  grind [holdReset, only_resetState, only_beginReset, only_upd]

theorem only_restart {fr : List Block} {s0 : State} (kind : Nat) (trigger : Nat) {s : State} (h_out : Block.out ∈ fr) (h_pm : Block.pm ∈ fr) (h_win : Block.win ∈ fr) (h_mb : Block.mb ∈ fr) (h_cfg : Block.cfg ∈ fr) (h_led : Block.led ∈ fr) (h_lay : Block.lay ∈ fr) (h_link : Block.link ∈ fr) (h_dma : Block.dma ∈ fr) (h_fab : Block.fab ∈ fr) (h_keep : Block.keep ∈ fr) (h_nor : Block.nor ∈ fr) (h_svc : Block.svc ∈ fr) (h_smb : Block.smb ∈ fr) (h_diag : Block.diag ∈ fr) (h_evt : Block.evt ∈ fr) (h_stats : Block.stats ∈ fr) (h_hostMem : Block.hostMem ∈ fr) (h_free : Block.free ∈ fr) (hkp : Only fr s0 s) : Only fr s0 (restart kind trigger s) := by
  grind [restart, only_resetOccurred, only_enterMode, only_reenterMode, only_fwReady, only_upd]

theorem only_resetFirmware {fr : List Block} {s0 : State} (trigger : Nat) {s : State} (h_out : Block.out ∈ fr) (h_pm : Block.pm ∈ fr) (h_win : Block.win ∈ fr) (h_mb : Block.mb ∈ fr) (h_cfg : Block.cfg ∈ fr) (h_led : Block.led ∈ fr) (h_lay : Block.lay ∈ fr) (h_rnd : Block.rnd ∈ fr) (h_store : Block.store ∈ fr) (h_seq : Block.seq ∈ fr) (h_link : Block.link ∈ fr) (h_trk : Block.trk ∈ fr) (h_scan : Block.scan ∈ fr) (h_dma : Block.dma ∈ fr) (h_fab : Block.fab ∈ fr) (h_cal : Block.cal ∈ fr) (h_keep : Block.keep ∈ fr) (h_nor : Block.nor ∈ fr) (h_svc : Block.svc ∈ fr) (h_smb : Block.smb ∈ fr) (h_diag : Block.diag ∈ fr) (h_evt : Block.evt ∈ fr) (h_stats : Block.stats ∈ fr) (h_hostMem : Block.hostMem ∈ fr) (h_free : Block.free ∈ fr) (hkp : Only fr s0 s) : Only fr s0 (resetFirmware trigger s) := by
  grind [resetFirmware, only_restart, only_beginReset]

theorem only_loseDatapath {fr : List Block} {s0 : State} {s : State} (h_out : Block.out ∈ fr) (h_time : Block.time ∈ fr) (h_win : Block.win ∈ fr) (h_mb : Block.mb ∈ fr) (h_cfg : Block.cfg ∈ fr) (h_led : Block.led ∈ fr) (h_lay : Block.lay ∈ fr) (h_rnd : Block.rnd ∈ fr) (h_store : Block.store ∈ fr) (h_link : Block.link ∈ fr) (h_trk : Block.trk ∈ fr) (h_scan : Block.scan ∈ fr) (h_dma : Block.dma ∈ fr) (h_fab : Block.fab ∈ fr) (h_nor : Block.nor ∈ fr) (h_svc : Block.svc ∈ fr) (h_diag : Block.diag ∈ fr) (h_evt : Block.evt ∈ fr) (h_stats : Block.stats ∈ fr) (h_hostMem : Block.hostMem ∈ fr) (h_free : Block.free ∈ fr) (hkp : Only fr s0 s) : Only fr s0 (loseDatapath s) := by
  exact only_applySource _ _ ‹_› (only_loseBase _ ‹_› (only_unpair ‹_› ‹_› ‹_› ‹_› ‹_› ‹_› ‹_› ‹_› ‹_› ‹_› ‹_› ‹_› ‹_› (only_linkReset ‹_› (only_storeLost ‹_› (only_trackDown ‹_› ‹_›
    (by grind [only_upd]))))))

theorem only_resetDatapath {fr : List Block} {s0 : State} {s : State} (h_out : Block.out ∈ fr) (h_pm : Block.pm ∈ fr) (h_time : Block.time ∈ fr) (h_win : Block.win ∈ fr) (h_mb : Block.mb ∈ fr) (h_cfg : Block.cfg ∈ fr) (h_led : Block.led ∈ fr) (h_lay : Block.lay ∈ fr) (h_rnd : Block.rnd ∈ fr) (h_store : Block.store ∈ fr) (h_seq : Block.seq ∈ fr) (h_link : Block.link ∈ fr) (h_trk : Block.trk ∈ fr) (h_scan : Block.scan ∈ fr) (h_dma : Block.dma ∈ fr) (h_fab : Block.fab ∈ fr) (h_hbm : Block.hbm ∈ fr) (h_cal : Block.cal ∈ fr) (h_keep : Block.keep ∈ fr) (h_nor : Block.nor ∈ fr) (h_svc : Block.svc ∈ fr) (h_smb : Block.smb ∈ fr) (h_diag : Block.diag ∈ fr) (h_evt : Block.evt ∈ fr) (h_stats : Block.stats ∈ fr) (h_hbmMem : Block.hbmMem ∈ fr) (h_hostMem : Block.hostMem ∈ fr) (h_free : Block.free ∈ fr) (hkp : Only fr s0 s) : Only fr s0 (resetDatapath s) := by
  exact only_scrubRegions ‹_› ‹_› ‹_› ‹_› ‹_› ‹_› ‹_› ‹_› ‹_› (only_trainHbm ‹_› (only_seedHbm ‹_› (only_restart _ _ ‹_› ‹_› ‹_› ‹_› ‹_› ‹_› ‹_› ‹_› ‹_› ‹_› ‹_› ‹_› ‹_› ‹_› ‹_› ‹_› ‹_› ‹_› ‹_› (only_loseDatapath ‹_› ‹_› ‹_› ‹_› ‹_› ‹_› ‹_› ‹_› ‹_› ‹_› ‹_› ‹_› ‹_› ‹_› ‹_› ‹_› ‹_› ‹_› ‹_› ‹_› ‹_› (only_beginReset _ _ _ ‹_› ‹_› ‹_› ‹_› ‹_› ‹_› ‹_› ‹_› ‹_› ‹_› ‹_› ‹_› ‹_› ‹_› ‹_› ‹_› hkp)))))

theorem only_resetDevice {fr : List Block} {s0 : State} (kind : Nat) (b : BootIn) {s : State} (h_out : Block.out ∈ fr) (h_pm : Block.pm ∈ fr) (h_time : Block.time ∈ fr) (h_win : Block.win ∈ fr) (h_mb : Block.mb ∈ fr) (h_cfg : Block.cfg ∈ fr) (h_led : Block.led ∈ fr) (h_lay : Block.lay ∈ fr) (h_rnd : Block.rnd ∈ fr) (h_store : Block.store ∈ fr) (h_seq : Block.seq ∈ fr) (h_link : Block.link ∈ fr) (h_trk : Block.trk ∈ fr) (h_scan : Block.scan ∈ fr) (h_ilk : Block.ilk ∈ fr) (h_dma : Block.dma ∈ fr) (h_fab : Block.fab ∈ fr) (h_hbm : Block.hbm ∈ fr) (h_cal : Block.cal ∈ fr) (h_keep : Block.keep ∈ fr) (h_upd : Block.upd ∈ fr) (h_nor : Block.nor ∈ fr) (h_smb : Block.smb ∈ fr) (h_diag : Block.diag ∈ fr) (h_aper : Block.aper ∈ fr) (h_evt : Block.evt ∈ fr) (h_stats : Block.stats ∈ fr) (h_hbmMem : Block.hbmMem ∈ fr) (h_hostMem : Block.hostMem ∈ fr) (h_free : Block.free ∈ fr) (hkp : Only fr s0 s) : Only fr s0 (resetDevice kind b s) := by
  grind [resetDevice, only_beginReset, only_startUp, only_resetState]

theorem only_writeOwners {fr : List Block} {s0 : State} (a0 : List (Nat × Flow)) {a1 : State} (h_out : Block.out ∈ fr) (h_win : Block.win ∈ fr) (h_led : Block.led ∈ fr) (h_dma : Block.dma ∈ fr) (h_fab : Block.fab ∈ fr) (h_nor : Block.nor ∈ fr) (h_diag : Block.diag ∈ fr) (h_evt : Block.evt ∈ fr) (h_stats : Block.stats ∈ fr) (h_hostMem : Block.hostMem ∈ fr) (h_free : Block.free ∈ fr) (hkp : Only fr s0 a1) : Only fr s0 (writeOwners a0 a1) := by
  fun_induction writeOwners a0 a1 <;> grind [only_writeRec, only_upd]

theorem only_adoptFlows {fr : List Block} {s0 : State} {s : State} (h_out : Block.out ∈ fr) (h_win : Block.win ∈ fr) (h_led : Block.led ∈ fr) (h_dma : Block.dma ∈ fr) (h_fab : Block.fab ∈ fr) (h_nor : Block.nor ∈ fr) (h_diag : Block.diag ∈ fr) (h_evt : Block.evt ∈ fr) (h_stats : Block.stats ∈ fr) (h_hostMem : Block.hostMem ∈ fr) (h_free : Block.free ∈ fr) (hkp : Only fr s0 s) : Only fr s0 (adoptFlows s) := by
  grind [adoptFlows, only_writeOwners, only_foldl, only_upd]

theorem only_setStripe {fr : List Block} {s0 : State} (f : BitVec 8) (q : BitVec 64) (stripe : Nat) (linesM1 : Nat) {s : State} (h_seq : Block.seq ∈ fr) (hkp : Only fr s0 s) : Only fr s0 (setStripe f q stripe linesM1 s) := by
  grind [setStripe, only_upd]

theorem only_adoptStripe {fr : List Block} {s0 : State} (sb : Nat) (hb : Int) (i : Item) {s : State} (h_seq : Block.seq ∈ fr) (hkp : Only fr s0 s) : Only fr s0 (adoptStripe sb hb i s) := by
  grind [adoptStripe, only_setStripe, only_upd]

theorem only_setStep {fr : List Block} {s0 : State} (n : Nat) {s : State} (h_fab : Block.fab ∈ fr) (hkp : Only fr s0 s) : Only fr s0 (setStep n s) := by
  grind [setStep, only_upd]

theorem only_releaseColumn {fr : List Block} {s0 : State} {s : State} (h_out : Block.out ∈ fr) (h_win : Block.win ∈ fr) (h_link : Block.link ∈ fr) (h_scan : Block.scan ∈ fr) (h_fab : Block.fab ∈ fr) (h_nor : Block.nor ∈ fr) (h_evt : Block.evt ∈ fr) (h_stats : Block.stats ∈ fr) (h_hostMem : Block.hostMem ∈ fr) (hkp : Only fr s0 s) : Only fr s0 (releaseColumn s) := by
  grind [releaseColumn, only_setStep, only_sendRelease, only_releaseSpo, only_rampStop]

theorem only_handoverStep {fr : List Block} {s0 : State} {s : State} (h_out : Block.out ∈ fr) (h_win : Block.win ∈ fr) (h_link : Block.link ∈ fr) (h_scan : Block.scan ∈ fr) (h_fab : Block.fab ∈ fr) (h_nor : Block.nor ∈ fr) (h_evt : Block.evt ∈ fr) (h_stats : Block.stats ∈ fr) (h_hostMem : Block.hostMem ∈ fr) (hkp : Only fr s0 s) : Only fr s0 (handoverStep s) := by
  grind [handoverStep, only_releaseColumn, only_setStep, only_sendClaim]

theorem only_beginHandover {fr : List Block} {s0 : State} (now : Bool) (issuer : Bool) (region : Option (BitVec 8 × Nat × Nat)) {s : State} (h_out : Block.out ∈ fr) (h_win : Block.win ∈ fr) (h_rnd : Block.rnd ∈ fr) (h_store : Block.store ∈ fr) (h_seq : Block.seq ∈ fr) (h_link : Block.link ∈ fr) (h_trk : Block.trk ∈ fr) (h_scan : Block.scan ∈ fr) (h_fab : Block.fab ∈ fr) (h_nor : Block.nor ∈ fr) (h_evt : Block.evt ∈ fr) (h_stats : Block.stats ∈ fr) (h_hostMem : Block.hostMem ∈ fr) (h_free : Block.free ∈ fr) (hkp : Only fr s0 s) : Only fr s0 (beginHandover now issuer region s) := by
  grind [beginHandover, only_handoverStep, only_boundaryStop, only_upd]

theorem only_beginTakeover {fr : List Block} {s0 : State} {s : State} (h_out : Block.out ∈ fr) (h_link : Block.link ∈ fr) (h_fab : Block.fab ∈ fr) (h_stats : Block.stats ∈ fr) (hkp : Only fr s0 s) : Only fr s0 (beginTakeover s) := by
  grind [beginTakeover, only_sendClaim, only_upd]

theorem only_takeoverRefused {fr : List Block} {s0 : State} {s : State} (h_fab : Block.fab ∈ fr) (hkp : Only fr s0 s) : Only fr s0 (takeoverRefused s) := by
  grind [takeoverRefused, only_upd]

theorem only_continueColumn {fr : List Block} {s0 : State} (sb : Nat) (hb : Int) (trigger : Nat) {s : State} (h_out : Block.out ∈ fr) (h_pm : Block.pm ∈ fr) (h_win : Block.win ∈ fr) (h_cfg : Block.cfg ∈ fr) (h_led : Block.led ∈ fr) (h_lay : Block.lay ∈ fr) (h_rnd : Block.rnd ∈ fr) (h_store : Block.store ∈ fr) (h_seq : Block.seq ∈ fr) (h_link : Block.link ∈ fr) (h_trk : Block.trk ∈ fr) (h_scan : Block.scan ∈ fr) (h_dma : Block.dma ∈ fr) (h_fab : Block.fab ∈ fr) (h_keep : Block.keep ∈ fr) (h_nor : Block.nor ∈ fr) (h_smb : Block.smb ∈ fr) (h_diag : Block.diag ∈ fr) (h_evt : Block.evt ∈ fr) (h_stats : Block.stats ∈ fr) (h_hostMem : Block.hostMem ∈ fr) (h_free : Block.free ∈ fr) (hkp : Only fr s0 s) : Only fr s0 (continueColumn sb hb trigger s) := by
  grind [continueColumn, only_adoptFlows, only_progressRec, only_adoptStripe, only_resumeStripe, only_becomeHolder, only_enterMode]

theorem only_copyLedger {fr : List Block} {s0 : State} {s : State} (h_out : Block.out ∈ fr) (h_win : Block.win ∈ fr) (h_led : Block.led ∈ fr) (h_dma : Block.dma ∈ fr) (h_fab : Block.fab ∈ fr) (h_nor : Block.nor ∈ fr) (h_diag : Block.diag ∈ fr) (h_evt : Block.evt ∈ fr) (h_stats : Block.stats ∈ fr) (h_hostMem : Block.hostMem ∈ fr) (h_free : Block.free ∈ fr) (hkp : Only fr s0 s) : Only fr s0 (copyLedger s) := by
  grind [copyLedger, only_checkpointItems, only_checkpointFlows]

theorem only_disownFlows {fr : List Block} {s0 : State} {s : State} (h_led : Block.led ∈ fr) (hkp : Only fr s0 s) : Only fr s0 (disownFlows s) := by
  grind [disownFlows, only_upd]

theorem only_keepColumn {fr : List Block} {s0 : State} {s : State} (h_out : Block.out ∈ fr) (h_win : Block.win ∈ fr) (h_cfg : Block.cfg ∈ fr) (h_led : Block.led ∈ fr) (h_rnd : Block.rnd ∈ fr) (h_store : Block.store ∈ fr) (h_seq : Block.seq ∈ fr) (h_link : Block.link ∈ fr) (h_trk : Block.trk ∈ fr) (h_scan : Block.scan ∈ fr) (h_dma : Block.dma ∈ fr) (h_fab : Block.fab ∈ fr) (h_nor : Block.nor ∈ fr) (h_diag : Block.diag ∈ fr) (h_evt : Block.evt ∈ fr) (h_stats : Block.stats ∈ fr) (h_hostMem : Block.hostMem ∈ fr) (h_free : Block.free ∈ fr) (hkp : Only fr s0 s) : Only fr s0 (keepColumn s) := by
  grind [keepColumn, only_sendClaim, only_endStripe, only_resumeStripe, only_upd]

theorem only_failHandover {fr : List Block} {s0 : State} {s : State} (h_out : Block.out ∈ fr) (h_win : Block.win ∈ fr) (h_mb : Block.mb ∈ fr) (h_cfg : Block.cfg ∈ fr) (h_led : Block.led ∈ fr) (h_rnd : Block.rnd ∈ fr) (h_store : Block.store ∈ fr) (h_seq : Block.seq ∈ fr) (h_link : Block.link ∈ fr) (h_trk : Block.trk ∈ fr) (h_scan : Block.scan ∈ fr) (h_dma : Block.dma ∈ fr) (h_fab : Block.fab ∈ fr) (h_nor : Block.nor ∈ fr) (h_svc : Block.svc ∈ fr) (h_diag : Block.diag ∈ fr) (h_evt : Block.evt ∈ fr) (h_stats : Block.stats ∈ fr) (h_hostMem : Block.hostMem ∈ fr) (h_free : Block.free ∈ fr) (hkp : Only fr s0 s) : Only fr s0 (failHandover s) := by
  grind [failHandover, only_keepColumn, only_settle, only_upd]

theorem only_takeWitness {fr : List Block} {s0 : State} (p : BitVec 12) {s : State} (h_out : Block.out ∈ fr) (h_win : Block.win ∈ fr) (h_led : Block.led ∈ fr) (h_dma : Block.dma ∈ fr) (h_fab : Block.fab ∈ fr) (h_nor : Block.nor ∈ fr) (h_diag : Block.diag ∈ fr) (h_evt : Block.evt ∈ fr) (h_stats : Block.stats ∈ fr) (h_hostMem : Block.hostMem ∈ fr) (h_free : Block.free ∈ fr) (hkp : Only fr s0 s) : Only fr s0 (takeWitness p s) := by
  unfold takeWitness
  (repeat' split) <;> grind [only_raise, only_storeWitness, only_copyLedger, only_resendTo, only_upd]

theorem only_pairWitness {fr : List Block} {s0 : State} (p : BitVec 12) {s : State} (h_out : Block.out ∈ fr) (h_win : Block.win ∈ fr) (h_led : Block.led ∈ fr) (h_dma : Block.dma ∈ fr) (h_fab : Block.fab ∈ fr) (h_nor : Block.nor ∈ fr) (h_diag : Block.diag ∈ fr) (h_evt : Block.evt ∈ fr) (h_stats : Block.stats ∈ fr) (h_hostMem : Block.hostMem ∈ fr) (h_free : Block.free ∈ fr) (hkp : Only fr s0 s) : Only fr s0 (pairWitness p s) := by
  grind [pairWitness, only_takeWitness, only_copyLedger, only_upd]

theorem only_formPair {fr : List Block} {s0 : State} {s : State} (h_out : Block.out ∈ fr) (h_win : Block.win ∈ fr) (h_mb : Block.mb ∈ fr) (h_led : Block.led ∈ fr) (h_dma : Block.dma ∈ fr) (h_fab : Block.fab ∈ fr) (h_nor : Block.nor ∈ fr) (h_svc : Block.svc ∈ fr) (h_diag : Block.diag ∈ fr) (h_evt : Block.evt ∈ fr) (h_stats : Block.stats ∈ fr) (h_hostMem : Block.hostMem ∈ fr) (h_free : Block.free ∈ fr) (hkp : Only fr s0 s) : Only fr s0 (formPair s) := by
  grind [formPair, only_raise, only_settle, only_pairWitness, only_upd]

theorem only_failPair {fr : List Block} {s0 : State} (status : Nat) (reason : Nat) {s : State} (h_out : Block.out ∈ fr) (h_win : Block.win ∈ fr) (h_mb : Block.mb ∈ fr) (h_fab : Block.fab ∈ fr) (h_svc : Block.svc ∈ fr) (h_stats : Block.stats ∈ fr) (h_hostMem : Block.hostMem ∈ fr) (hkp : Only fr s0 s) : Only fr s0 (failPair status reason s) := by
  grind [failPair, only_settle, only_upd]

theorem only_rebuildLedger {fr : List Block} {s0 : State} (l : List WRec) {s : State} (h_out : Block.out ∈ fr) (h_pm : Block.pm ∈ fr) (h_win : Block.win ∈ fr) (h_led : Block.led ∈ fr) (h_nor : Block.nor ∈ fr) (h_evt : Block.evt ∈ fr) (h_stats : Block.stats ∈ fr) (h_hostMem : Block.hostMem ∈ fr) (hkp : Only fr s0 s) : Only fr s0 (rebuildLedger l s) := by
  grind [rebuildLedger, only_fwReady, only_raise, only_foldl, only_upd]

theorem only_takeoverGranted {fr : List Block} {s0 : State} (sb : Nat) (hb : Int) {s : State} (h_out : Block.out ∈ fr) (h_pm : Block.pm ∈ fr) (h_win : Block.win ∈ fr) (h_mb : Block.mb ∈ fr) (h_cfg : Block.cfg ∈ fr) (h_led : Block.led ∈ fr) (h_lay : Block.lay ∈ fr) (h_rnd : Block.rnd ∈ fr) (h_store : Block.store ∈ fr) (h_seq : Block.seq ∈ fr) (h_link : Block.link ∈ fr) (h_trk : Block.trk ∈ fr) (h_scan : Block.scan ∈ fr) (h_dma : Block.dma ∈ fr) (h_fab : Block.fab ∈ fr) (h_keep : Block.keep ∈ fr) (h_nor : Block.nor ∈ fr) (h_svc : Block.svc ∈ fr) (h_smb : Block.smb ∈ fr) (h_diag : Block.diag ∈ fr) (h_evt : Block.evt ∈ fr) (h_stats : Block.stats ∈ fr) (h_hostMem : Block.hostMem ∈ fr) (h_free : Block.free ∈ fr) (hkp : Only fr s0 s) : Only fr s0 (takeoverGranted sb hb s) := by
  grind [takeoverGranted, only_raise, only_continueColumn, only_loseWitness, only_upd]

theorem only_handoverDone {fr : List Block} {s0 : State} (role : Nat) (stripe : Nat) (h : Int) {s : State} (h_out : Block.out ∈ fr) (h_win : Block.win ∈ fr) (h_mb : Block.mb ∈ fr) (h_fab : Block.fab ∈ fr) (h_nor : Block.nor ∈ fr) (h_svc : Block.svc ∈ fr) (h_evt : Block.evt ∈ fr) (h_stats : Block.stats ∈ fr) (h_hostMem : Block.hostMem ∈ fr) (hkp : Only fr s0 s) : Only fr s0 (handoverDone role stripe h s) := by
  grind [handoverDone, only_settle, only_raise, only_upd]

theorem only_handoverGranted {fr : List Block} {s0 : State} (sb : Nat) (hb : Int) {s : State} (h_out : Block.out ∈ fr) (h_pm : Block.pm ∈ fr) (h_win : Block.win ∈ fr) (h_mb : Block.mb ∈ fr) (h_cfg : Block.cfg ∈ fr) (h_led : Block.led ∈ fr) (h_lay : Block.lay ∈ fr) (h_rnd : Block.rnd ∈ fr) (h_store : Block.store ∈ fr) (h_seq : Block.seq ∈ fr) (h_link : Block.link ∈ fr) (h_trk : Block.trk ∈ fr) (h_scan : Block.scan ∈ fr) (h_dma : Block.dma ∈ fr) (h_fab : Block.fab ∈ fr) (h_keep : Block.keep ∈ fr) (h_nor : Block.nor ∈ fr) (h_svc : Block.svc ∈ fr) (h_smb : Block.smb ∈ fr) (h_diag : Block.diag ∈ fr) (h_evt : Block.evt ∈ fr) (h_stats : Block.stats ∈ fr) (h_hostMem : Block.hostMem ∈ fr) (h_free : Block.free ∈ fr) (hkp : Only fr s0 s) : Only fr s0 (handoverGranted sb hb s) := by
  grind [handoverGranted, only_raise, only_storeWitness, only_continueColumn, only_handoverDone, only_send, only_upd]

theorem only_partnerLost {fr : List Block} {s0 : State} {s : State} (h_out : Block.out ∈ fr) (h_win : Block.win ∈ fr) (h_mb : Block.mb ∈ fr) (h_cfg : Block.cfg ∈ fr) (h_led : Block.led ∈ fr) (h_rnd : Block.rnd ∈ fr) (h_store : Block.store ∈ fr) (h_seq : Block.seq ∈ fr) (h_link : Block.link ∈ fr) (h_trk : Block.trk ∈ fr) (h_scan : Block.scan ∈ fr) (h_dma : Block.dma ∈ fr) (h_fab : Block.fab ∈ fr) (h_nor : Block.nor ∈ fr) (h_svc : Block.svc ∈ fr) (h_diag : Block.diag ∈ fr) (h_evt : Block.evt ∈ fr) (h_stats : Block.stats ∈ fr) (h_hostMem : Block.hostMem ∈ fr) (h_free : Block.free ∈ fr) (hkp : Only fr s0 s) : Only fr s0 (partnerLost s) := by
  grind [partnerLost, only_failHandover, only_raise, only_beginTakeover, only_upd]

theorem only_handoverGiven {fr : List Block} {s0 : State} (stripe : Nat) (h : Int) {s : State} (h_out : Block.out ∈ fr) (h_pm : Block.pm ∈ fr) (h_win : Block.win ∈ fr) (h_mb : Block.mb ∈ fr) (h_cfg : Block.cfg ∈ fr) (h_led : Block.led ∈ fr) (h_lay : Block.lay ∈ fr) (h_seq : Block.seq ∈ fr) (h_link : Block.link ∈ fr) (h_dma : Block.dma ∈ fr) (h_fab : Block.fab ∈ fr) (h_keep : Block.keep ∈ fr) (h_nor : Block.nor ∈ fr) (h_svc : Block.svc ∈ fr) (h_smb : Block.smb ∈ fr) (h_diag : Block.diag ∈ fr) (h_evt : Block.evt ∈ fr) (h_stats : Block.stats ∈ fr) (h_hostMem : Block.hostMem ∈ fr) (h_free : Block.free ∈ fr) (hkp : Only fr s0 s) : Only fr s0 (handoverGiven stripe h s) := by
  unfold handoverGiven
  (repeat' split) <;> grind [only_disownFlows, only_activateTables, only_handoverDone, only_enterMode, only_upd]

end Sys2Proof.Machine
end

