-- ==== Sys2Proof/Laws/Only4.lean ====
section
/-! SUPPORT. What the functions of these files keep of a state (Laws.Only): LinkMsgs, DmaOps, DmaCmd, UpdOps. -/

namespace Sys2Proof.Machine

theorem only_applySwing {fr : List Block} {s0 : State} {s : State} (h_cal : Block.cal ∈ fr) (hkp : Only fr s0 s) : Only fr s0 (applySwing s) := by
  grind [applySwing, only_upd]

theorem only_bsaLimitFlag {fr : List Block} {s0 : State} (on : Bool) (temp : Int) {s : State} (h_out : Block.out ∈ fr) (h_win : Block.win ∈ fr) (h_rnd : Block.rnd ∈ fr) (h_store : Block.store ∈ fr) (h_seq : Block.seq ∈ fr) (h_trk : Block.trk ∈ fr) (h_scan : Block.scan ∈ fr) (h_nor : Block.nor ∈ fr) (h_evt : Block.evt ∈ fr) (h_stats : Block.stats ∈ fr) (h_hostMem : Block.hostMem ∈ fr) (h_free : Block.free ∈ fr) (hkp : Only fr s0 s) : Only fr s0 (bsaLimitFlag on temp s) := by
  grind [bsaLimitFlag, only_boundaryStop, only_setFlag, only_raise, only_upd]

theorem only_bsaViolation {fr : List Block} {s0 : State} (code : Nat) (flash : Int) {s : State} (h_out : Block.out ∈ fr) (h_win : Block.win ∈ fr) (h_nor : Block.nor ∈ fr) (h_evt : Block.evt ∈ fr) (h_stats : Block.stats ∈ fr) (h_hostMem : Block.hostMem ∈ fr) (hkp : Only fr s0 s) : Only fr s0 (bsaViolation code flash s) := by
  grind [bsaViolation, only_raise, only_stat]

theorem only_bsaWarning {fr : List Block} {s0 : State} (on : Bool) (temp : Int) {s : State} (h_out : Block.out ∈ fr) (h_win : Block.win ∈ fr) (h_seq : Block.seq ∈ fr) (h_nor : Block.nor ∈ fr) (h_evt : Block.evt ∈ fr) (h_stats : Block.stats ∈ fr) (h_hostMem : Block.hostMem ∈ fr) (hkp : Only fr s0 s) : Only fr s0 (bsaWarning on temp s) := by
  grind [bsaWarning, only_setFlag, only_raise, only_upd]

theorem only_checkDone {fr : List Block} {s0 : State} {s : State} (h_out : Block.out ∈ fr) (h_win : Block.win ∈ fr) (h_cfg : Block.cfg ∈ fr) (h_led : Block.led ∈ fr) (h_rnd : Block.rnd ∈ fr) (h_store : Block.store ∈ fr) (h_seq : Block.seq ∈ fr) (h_link : Block.link ∈ fr) (h_dma : Block.dma ∈ fr) (h_fab : Block.fab ∈ fr) (h_nor : Block.nor ∈ fr) (h_diag : Block.diag ∈ fr) (h_evt : Block.evt ∈ fr) (h_stats : Block.stats ∈ fr) (h_hostMem : Block.hostMem ∈ fr) (h_free : Block.free ∈ fr) (hkp : Only fr s0 s) : Only fr s0 (checkDone s) := by
  grind [checkDone, only_stripeDone, only_progressRec]

theorem only_linkTrained {fr : List Block} {s0 : State} {s : State} (h_out : Block.out ∈ fr) (h_pm : Block.pm ∈ fr) (h_win : Block.win ∈ fr) (h_mb : Block.mb ∈ fr) (h_link : Block.link ∈ fr) (h_nor : Block.nor ∈ fr) (h_svc : Block.svc ∈ fr) (h_evt : Block.evt ∈ fr) (h_stats : Block.stats ∈ fr) (h_hostMem : Block.hostMem ∈ fr) (hkp : Only fr s0 s) : Only fr s0 (linkTrained s) := by
  grind [linkTrained, only_reenterMode, only_raise, only_upd]

theorem only_checkTrained {fr : List Block} {s0 : State} {s : State} (h_out : Block.out ∈ fr) (h_pm : Block.pm ∈ fr) (h_win : Block.win ∈ fr) (h_mb : Block.mb ∈ fr) (h_link : Block.link ∈ fr) (h_nor : Block.nor ∈ fr) (h_svc : Block.svc ∈ fr) (h_evt : Block.evt ∈ fr) (h_stats : Block.stats ∈ fr) (h_hostMem : Block.hostMem ∈ fr) (hkp : Only fr s0 s) : Only fr s0 (checkTrained s) := by
  grind [checkTrained, only_linkTrained]

theorem only_claimRefused {fr : List Block} {s0 : State} {s : State} (h_out : Block.out ∈ fr) (h_pm : Block.pm ∈ fr) (h_win : Block.win ∈ fr) (h_mb : Block.mb ∈ fr) (h_link : Block.link ∈ fr) (h_fab : Block.fab ∈ fr) (h_nor : Block.nor ∈ fr) (h_svc : Block.svc ∈ fr) (h_evt : Block.evt ∈ fr) (h_stats : Block.stats ∈ fr) (h_hostMem : Block.hostMem ∈ fr) (hkp : Only fr s0 s) : Only fr s0 (claimRefused s) := by
  grind [claimRefused, only_failMode, only_takeoverRefused, only_upd]

theorem only_linkFails {fr : List Block} {s0 : State} (lane : Nat) {s : State} (h_out : Block.out ∈ fr) (h_pm : Block.pm ∈ fr) (h_win : Block.win ∈ fr) (h_rnd : Block.rnd ∈ fr) (h_store : Block.store ∈ fr) (h_seq : Block.seq ∈ fr) (h_link : Block.link ∈ fr) (h_trk : Block.trk ∈ fr) (h_scan : Block.scan ∈ fr) (h_nor : Block.nor ∈ fr) (h_evt : Block.evt ∈ fr) (h_stats : Block.stats ∈ fr) (h_hostMem : Block.hostMem ∈ fr) (h_free : Block.free ∈ fr) (hkp : Only fr s0 s) : Only fr s0 (linkFails lane s) := by
  grind [linkFails, only_linkDown, only_upd]

theorem only_openHopeless {fr : List Block} {s0 : State} {s : State} (h_out : Block.out ∈ fr) (h_win : Block.win ∈ fr) (h_rnd : Block.rnd ∈ fr) (h_store : Block.store ∈ fr) (h_seq : Block.seq ∈ fr) (h_trk : Block.trk ∈ fr) (h_scan : Block.scan ∈ fr) (h_nor : Block.nor ∈ fr) (h_evt : Block.evt ∈ fr) (h_stats : Block.stats ∈ fr) (h_hostMem : Block.hostMem ∈ fr) (h_free : Block.free ∈ fr) (hkp : Only fr s0 s) : Only fr s0 (openHopeless s) := by
  grind [openHopeless, only_bsaViolation, only_boundaryStop, only_upd]

theorem only_openBehind {fr : List Block} {s0 : State} (hb : Int) {s : State} (h_out : Block.out ∈ fr) (h_win : Block.win ∈ fr) (h_cfg : Block.cfg ∈ fr) (h_led : Block.led ∈ fr) (h_rnd : Block.rnd ∈ fr) (h_store : Block.store ∈ fr) (h_seq : Block.seq ∈ fr) (h_link : Block.link ∈ fr) (h_trk : Block.trk ∈ fr) (h_scan : Block.scan ∈ fr) (h_dma : Block.dma ∈ fr) (h_fab : Block.fab ∈ fr) (h_nor : Block.nor ∈ fr) (h_diag : Block.diag ∈ fr) (h_evt : Block.evt ∈ fr) (h_stats : Block.stats ∈ fr) (h_hostMem : Block.hostMem ∈ fr) (h_free : Block.free ∈ fr) (hkp : Only fr s0 s) : Only fr s0 (openBehind hb s) := by
  grind [openBehind, only_stripeDone, only_progressRec, only_enterFilling, only_endFill, only_rampStop, only_upd]

theorem only_openAnswered {fr : List Block} {s0 : State} (status : Nat) (hb : Int) {s : State} (h_out : Block.out ∈ fr) (h_win : Block.win ∈ fr) (h_cfg : Block.cfg ∈ fr) (h_led : Block.led ∈ fr) (h_rnd : Block.rnd ∈ fr) (h_store : Block.store ∈ fr) (h_seq : Block.seq ∈ fr) (h_link : Block.link ∈ fr) (h_trk : Block.trk ∈ fr) (h_scan : Block.scan ∈ fr) (h_dma : Block.dma ∈ fr) (h_fab : Block.fab ∈ fr) (h_nor : Block.nor ∈ fr) (h_diag : Block.diag ∈ fr) (h_evt : Block.evt ∈ fr) (h_stats : Block.stats ∈ fr) (h_hostMem : Block.hostMem ∈ fr) (h_free : Block.free ∈ fr) (hkp : Only fr s0 s) : Only fr s0 (openAnswered status hb s) := by
  grind [openAnswered, only_openHopeless, only_openBehind, only_upd]

theorem only_releaseAnswered {fr : List Block} {s0 : State} {s : State} (h_out : Block.out ∈ fr) (h_pm : Block.pm ∈ fr) (h_win : Block.win ∈ fr) (h_link : Block.link ∈ fr) (h_fab : Block.fab ∈ fr) (h_nor : Block.nor ∈ fr) (h_diag : Block.diag ∈ fr) (h_evt : Block.evt ∈ fr) (h_stats : Block.stats ∈ fr) (h_hostMem : Block.hostMem ∈ fr) (hkp : Only fr s0 s) : Only fr s0 (releaseAnswered s) := by
  grind [releaseAnswered, only_raise, only_setStep, only_send, only_upd]

theorem only_ctrlAnswered {fr : List Block} {s0 : State} (op : Nat) (status : Nat) (hb : Int) {s : State} (h_out : Block.out ∈ fr) (h_pm : Block.pm ∈ fr) (h_win : Block.win ∈ fr) (h_mb : Block.mb ∈ fr) (h_cfg : Block.cfg ∈ fr) (h_led : Block.led ∈ fr) (h_rnd : Block.rnd ∈ fr) (h_store : Block.store ∈ fr) (h_seq : Block.seq ∈ fr) (h_link : Block.link ∈ fr) (h_trk : Block.trk ∈ fr) (h_scan : Block.scan ∈ fr) (h_dma : Block.dma ∈ fr) (h_fab : Block.fab ∈ fr) (h_nor : Block.nor ∈ fr) (h_svc : Block.svc ∈ fr) (h_diag : Block.diag ∈ fr) (h_evt : Block.evt ∈ fr) (h_stats : Block.stats ∈ fr) (h_hostMem : Block.hostMem ∈ fr) (h_free : Block.free ∈ fr) (hkp : Only fr s0 s) : Only fr s0 (ctrlAnswered op status hb s) := by
  unfold ctrlAnswered
  (repeat' split) <;> grind [only_linkFails, only_sendBeamConfig, only_sendCommit, only_checkTrained, only_openAnswered, only_claimRefused, only_releaseAnswered, only_upd]

theorem only_enterLocking {fr : List Block} {s0 : State} {s : State} (h_out : Block.out ∈ fr) (h_link : Block.link ∈ fr) (h_cal : Block.cal ∈ fr) (hkp : Only fr s0 s) : Only fr s0 (enterLocking s) := by
  grind [enterLocking, only_emit, only_applySwing, only_upd]

theorem only_moveLane {fr : List Block} {s0 : State} (l : Nat) (p : Nat) (q : Nat) {s : State} (h_out : Block.out ∈ fr) (h_win : Block.win ∈ fr) (h_link : Block.link ∈ fr) (h_nor : Block.nor ∈ fr) (h_evt : Block.evt ∈ fr) (h_stats : Block.stats ∈ fr) (h_hostMem : Block.hostMem ∈ fr) (hkp : Only fr s0 s) : Only fr s0 (moveLane l p q s) := by
  grind [moveLane, only_raise, only_upd]

theorem only_spareLanes {fr : List Block} {s0 : State} (a0 : List Nat) {a1 : State} {t : State} (h_out : Block.out ∈ fr) (h_win : Block.win ∈ fr) (h_link : Block.link ∈ fr) (h_nor : Block.nor ∈ fr) (h_evt : Block.evt ∈ fr) (h_stats : Block.stats ∈ fr) (h_hostMem : Block.hostMem ∈ fr) (hkp : Only fr s0 a1) (e : (spareLanes a0 a1) = some t) : Only fr s0 t := by
  fun_induction spareLanes a0 a1 with
  | case1 => simp only [Option.some.injEq] at e; subst e; exact hkp
  | case2 => rename_i ih; exact ih hkp e
  | case3 => simp at e
  | case4 => rename_i ih; exact ih (only_moveLane _ _ _ ‹_› ‹_› ‹_› ‹_› ‹_› ‹_› ‹_› hkp) e
  | case5 => rename_i ih; exact ih hkp e

theorem only_enterMapping {fr : List Block} {s0 : State} {s : State} (h_out : Block.out ∈ fr) (h_win : Block.win ∈ fr) (h_link : Block.link ∈ fr) (h_nor : Block.nor ∈ fr) (h_evt : Block.evt ∈ fr) (h_stats : Block.stats ∈ fr) (h_hostMem : Block.hostMem ∈ fr) (hkp : Only fr s0 s) : Only fr s0 (enterMapping s) := by
  grind [enterMapping, only_spareLanes, only_sendLaneMap, only_raise, only_upd]

theorem only_laneLost {fr : List Block} {s0 : State} {s : State} (h_out : Block.out ∈ fr) (h_pm : Block.pm ∈ fr) (h_win : Block.win ∈ fr) (h_rnd : Block.rnd ∈ fr) (h_store : Block.store ∈ fr) (h_seq : Block.seq ∈ fr) (h_link : Block.link ∈ fr) (h_trk : Block.trk ∈ fr) (h_scan : Block.scan ∈ fr) (h_nor : Block.nor ∈ fr) (h_evt : Block.evt ∈ fr) (h_stats : Block.stats ∈ fr) (h_hostMem : Block.hostMem ∈ fr) (h_free : Block.free ∈ fr) (hkp : Only fr s0 s) : Only fr s0 (laneLost s) := by
  grind [laneLost, only_raise, only_linkFails, only_upd]

theorem only_execLinkDownRetry {fr : List Block} {s : State} {t : State} (h_out : Block.out ∈ fr) (h_link : Block.link ∈ fr) (h_cal : Block.cal ∈ fr) (hx : (execLinkDownRetry s) = .next t) : Only fr s t := by
  have h0 := Only.refl fr s
  grind [execLinkDownRetry, only_enterLocking]

theorem only_failUnlocked {fr : List Block} {s0 : State} (a0 : List Nat) {a1 : State} (h_out : Block.out ∈ fr) (h_win : Block.win ∈ fr) (h_link : Block.link ∈ fr) (h_nor : Block.nor ∈ fr) (h_evt : Block.evt ∈ fr) (h_stats : Block.stats ∈ fr) (h_hostMem : Block.hostMem ∈ fr) (hkp : Only fr s0 a1) : Only fr s0 (failUnlocked a0 a1) := by
  fun_induction failUnlocked a0 a1 <;> grind [only_failLane, only_upd]

theorem only_execLockingTimeout {fr : List Block} {s : State} {t : State} (h_out : Block.out ∈ fr) (h_pm : Block.pm ∈ fr) (h_win : Block.win ∈ fr) (h_rnd : Block.rnd ∈ fr) (h_store : Block.store ∈ fr) (h_seq : Block.seq ∈ fr) (h_link : Block.link ∈ fr) (h_trk : Block.trk ∈ fr) (h_scan : Block.scan ∈ fr) (h_nor : Block.nor ∈ fr) (h_evt : Block.evt ∈ fr) (h_stats : Block.stats ∈ fr) (h_hostMem : Block.hostMem ∈ fr) (h_free : Block.free ∈ fr) (hx : (execLockingTimeout s) = .next t) : Only fr s t := by
  have h0 := Only.refl fr s
  grind [execLockingTimeout, only_enterMapping, only_failUnlocked, only_linkFails]

theorem only_execDegradedRetry {fr : List Block} {s : State} {t : State} (h_link : Block.link ∈ fr) (hx : (execDegradedRetry s) = .next t) : Only fr s t := by
  have h0 := Only.refl fr s
  grind [execDegradedRetry, only_upd]

theorem only_execCtrlFrameResend {fr : List Block} {s : State} {t : State} (h_out : Block.out ∈ fr) (h_pm : Block.pm ∈ fr) (h_win : Block.win ∈ fr) (h_rnd : Block.rnd ∈ fr) (h_store : Block.store ∈ fr) (h_seq : Block.seq ∈ fr) (h_link : Block.link ∈ fr) (h_trk : Block.trk ∈ fr) (h_scan : Block.scan ∈ fr) (h_nor : Block.nor ∈ fr) (h_evt : Block.evt ∈ fr) (h_stats : Block.stats ∈ fr) (h_hostMem : Block.hostMem ∈ fr) (h_free : Block.free ∈ fr) (hx : (execCtrlFrameResend s) = .next t) : Only fr s t := by
  have h0 := Only.refl fr s
  grind [execCtrlFrameResend, only_linkFails, only_emit, only_stat, only_upd]

theorem only_takeMsg {fr : List Block} {s0 : State} (typ : Nat) (words : Nat) (m : RetMsg) (act : State → State) {s : State} (h_out : Block.out ∈ fr) (h_win : Block.win ∈ fr) (h_link : Block.link ∈ fr) (h_nor : Block.nor ∈ fr) (h_evt : Block.evt ∈ fr) (h_stats : Block.stats ∈ fr) (h_hostMem : Block.hostMem ∈ fr) (hkp : Only fr s0 s) (hact : ∀ x0, Only fr s0 x0 → Only fr s0 (act x0)) : Only fr s0 (takeMsg typ words m act s) := by
  grind [takeMsg, only_bsaViolation, only_statAdd, only_upd]

theorem only_execCtrlAck {fr : List Block} (m : RetMsg) {s : State} {t : State} (h_out : Block.out ∈ fr) (h_pm : Block.pm ∈ fr) (h_win : Block.win ∈ fr) (h_mb : Block.mb ∈ fr) (h_cfg : Block.cfg ∈ fr) (h_led : Block.led ∈ fr) (h_rnd : Block.rnd ∈ fr) (h_store : Block.store ∈ fr) (h_seq : Block.seq ∈ fr) (h_link : Block.link ∈ fr) (h_trk : Block.trk ∈ fr) (h_scan : Block.scan ∈ fr) (h_dma : Block.dma ∈ fr) (h_fab : Block.fab ∈ fr) (h_nor : Block.nor ∈ fr) (h_svc : Block.svc ∈ fr) (h_diag : Block.diag ∈ fr) (h_evt : Block.evt ∈ fr) (h_stats : Block.stats ∈ fr) (h_hostMem : Block.hostMem ∈ fr) (h_free : Block.free ∈ fr) (hx : (execCtrlAck m s) = .next t) : Only fr s t := by
  have h0 := Only.refl fr s
  grind [execCtrlAck, only_takeMsg, only_bsaViolation, only_ctrlAnswered, only_upd]

theorem only_violateStripe {fr : List Block} {s0 : State} (code : Nat) (flash : Int) {s : State} (h_out : Block.out ∈ fr) (h_win : Block.win ∈ fr) (h_rnd : Block.rnd ∈ fr) (h_store : Block.store ∈ fr) (h_seq : Block.seq ∈ fr) (h_trk : Block.trk ∈ fr) (h_scan : Block.scan ∈ fr) (h_nor : Block.nor ∈ fr) (h_evt : Block.evt ∈ fr) (h_stats : Block.stats ∈ fr) (h_hostMem : Block.hostMem ∈ fr) (h_free : Block.free ∈ fr) (hkp : Only fr s0 s) : Only fr s0 (violateStripe code flash s) := by
  grind [violateStripe, only_bsaViolation, only_boundaryStop, only_upd]

theorem only_heedHigh {fr : List Block} {s0 : State} (sb : Nat) (hb : Int) {s : State} (h_out : Block.out ∈ fr) (h_win : Block.win ∈ fr) (h_rnd : Block.rnd ∈ fr) (h_store : Block.store ∈ fr) (h_seq : Block.seq ∈ fr) (h_link : Block.link ∈ fr) (h_trk : Block.trk ∈ fr) (h_scan : Block.scan ∈ fr) (h_nor : Block.nor ∈ fr) (h_evt : Block.evt ∈ fr) (h_stats : Block.stats ∈ fr) (h_hostMem : Block.hostMem ∈ fr) (h_free : Block.free ∈ fr) (hkp : Only fr s0 s) : Only fr s0 (heedHigh sb hb s) := by
  grind [heedHigh, only_violateStripe, only_upd]

theorem only_ownAck {fr : List Block} {s0 : State} (n : Int) (hb : Int) (executed : Bool) (rows : Nat) {s : State} (h_out : Block.out ∈ fr) (h_win : Block.win ∈ fr) (h_cfg : Block.cfg ∈ fr) (h_led : Block.led ∈ fr) (h_rnd : Block.rnd ∈ fr) (h_store : Block.store ∈ fr) (h_seq : Block.seq ∈ fr) (h_link : Block.link ∈ fr) (h_trk : Block.trk ∈ fr) (h_scan : Block.scan ∈ fr) (h_dma : Block.dma ∈ fr) (h_fab : Block.fab ∈ fr) (h_nor : Block.nor ∈ fr) (h_diag : Block.diag ∈ fr) (h_evt : Block.evt ∈ fr) (h_stats : Block.stats ∈ fr) (h_hbmMem : Block.hbmMem ∈ fr) (h_hostMem : Block.hostMem ∈ fr) (h_free : Block.free ∈ fr) (hkp : Only fr s0 s) : Only fr s0 (ownAck n hb executed rows s) := by
  grind [ownAck, only_heedHigh, only_violateStripe, only_boundaryStop, only_raise, only_stat, only_settleH, only_checkDone]

theorem only_execFlashAck {fr : List Block} (m : RetMsg) {s : State} {t : State} (h_out : Block.out ∈ fr) (h_win : Block.win ∈ fr) (h_cfg : Block.cfg ∈ fr) (h_led : Block.led ∈ fr) (h_rnd : Block.rnd ∈ fr) (h_store : Block.store ∈ fr) (h_seq : Block.seq ∈ fr) (h_link : Block.link ∈ fr) (h_trk : Block.trk ∈ fr) (h_scan : Block.scan ∈ fr) (h_dma : Block.dma ∈ fr) (h_fab : Block.fab ∈ fr) (h_nor : Block.nor ∈ fr) (h_diag : Block.diag ∈ fr) (h_evt : Block.evt ∈ fr) (h_stats : Block.stats ∈ fr) (h_hbmMem : Block.hbmMem ∈ fr) (h_hostMem : Block.hostMem ∈ fr) (h_free : Block.free ∈ fr) (hx : (execFlashAck m s) = .next t) : Only fr s t := by
  have h0 := Only.refl fr s
  grind [execFlashAck, only_takeMsg, only_heedHigh, only_bsaViolation, only_ownAck]

theorem only_statusBlocked {fr : List Block} {s0 : State} (was : Bool) {s : State} (h_out : Block.out ∈ fr) (h_win : Block.win ∈ fr) (h_rnd : Block.rnd ∈ fr) (h_store : Block.store ∈ fr) (h_seq : Block.seq ∈ fr) (h_trk : Block.trk ∈ fr) (h_scan : Block.scan ∈ fr) (h_nor : Block.nor ∈ fr) (h_evt : Block.evt ∈ fr) (h_stats : Block.stats ∈ fr) (h_hostMem : Block.hostMem ∈ fr) (h_free : Block.free ∈ fr) (hkp : Only fr s0 s) : Only fr s0 (statusBlocked was s) := by
  grind [statusBlocked, only_boundaryStop, only_raise, only_bsaViolation]

theorem only_statusCrc {fr : List Block} {s0 : State} {s : State} (h_out : Block.out ∈ fr) (h_pm : Block.pm ∈ fr) (h_win : Block.win ∈ fr) (h_mb : Block.mb ∈ fr) (h_rnd : Block.rnd ∈ fr) (h_store : Block.store ∈ fr) (h_seq : Block.seq ∈ fr) (h_link : Block.link ∈ fr) (h_trk : Block.trk ∈ fr) (h_scan : Block.scan ∈ fr) (h_nor : Block.nor ∈ fr) (h_svc : Block.svc ∈ fr) (h_evt : Block.evt ∈ fr) (h_stats : Block.stats ∈ fr) (h_hostMem : Block.hostMem ∈ fr) (h_free : Block.free ∈ fr) (hkp : Only fr s0 s) : Only fr s0 (statusCrc s) := by
  grind [statusCrc, only_boundaryStop, only_raise, only_bsaViolation, only_sendBeamConfig, only_checkTrained, only_upd]

theorem only_statusStripe {fr : List Block} {s0 : State} (m : RetMsg) (was : Bool) {s : State} (h_out : Block.out ∈ fr) (h_pm : Block.pm ∈ fr) (h_win : Block.win ∈ fr) (h_mb : Block.mb ∈ fr) (h_cfg : Block.cfg ∈ fr) (h_led : Block.led ∈ fr) (h_rnd : Block.rnd ∈ fr) (h_store : Block.store ∈ fr) (h_seq : Block.seq ∈ fr) (h_link : Block.link ∈ fr) (h_trk : Block.trk ∈ fr) (h_scan : Block.scan ∈ fr) (h_dma : Block.dma ∈ fr) (h_fab : Block.fab ∈ fr) (h_nor : Block.nor ∈ fr) (h_svc : Block.svc ∈ fr) (h_diag : Block.diag ∈ fr) (h_evt : Block.evt ∈ fr) (h_stats : Block.stats ∈ fr) (h_hbmMem : Block.hbmMem ∈ fr) (h_hostMem : Block.hostMem ∈ fr) (h_free : Block.free ∈ fr) (hkp : Only fr s0 s) : Only fr s0 (statusStripe m was s) := by
  grind [statusStripe, only_checkDone, only_heedHigh, only_statusBlocked, only_statusCrc, only_settleH]

theorem only_statusTemp {fr : List Block} {s0 : State} (w : W128) {s : State} (h_out : Block.out ∈ fr) (h_win : Block.win ∈ fr) (h_rnd : Block.rnd ∈ fr) (h_store : Block.store ∈ fr) (h_seq : Block.seq ∈ fr) (h_trk : Block.trk ∈ fr) (h_scan : Block.scan ∈ fr) (h_nor : Block.nor ∈ fr) (h_evt : Block.evt ∈ fr) (h_stats : Block.stats ∈ fr) (h_hostMem : Block.hostMem ∈ fr) (h_free : Block.free ∈ fr) (hkp : Only fr s0 s) : Only fr s0 (statusTemp w s) := by
  grind [statusTemp, only_bsaViolation, only_bsaLimitFlag, only_bsaWarning]

theorem only_statusFields {fr : List Block} {s0 : State} (w : W128) {s : State} (h_link : Block.link ∈ fr) (hkp : Only fr s0 s) : Only fr s0 (statusFields w s) := by
  grind [statusFields, only_upd]

theorem only_execStatus {fr : List Block} (m : RetMsg) {s : State} {t : State} (h_out : Block.out ∈ fr) (h_pm : Block.pm ∈ fr) (h_win : Block.win ∈ fr) (h_mb : Block.mb ∈ fr) (h_cfg : Block.cfg ∈ fr) (h_led : Block.led ∈ fr) (h_rnd : Block.rnd ∈ fr) (h_store : Block.store ∈ fr) (h_seq : Block.seq ∈ fr) (h_link : Block.link ∈ fr) (h_trk : Block.trk ∈ fr) (h_scan : Block.scan ∈ fr) (h_dma : Block.dma ∈ fr) (h_fab : Block.fab ∈ fr) (h_nor : Block.nor ∈ fr) (h_svc : Block.svc ∈ fr) (h_diag : Block.diag ∈ fr) (h_evt : Block.evt ∈ fr) (h_stats : Block.stats ∈ fr) (h_hbmMem : Block.hbmMem ∈ fr) (h_hostMem : Block.hostMem ∈ fr) (h_free : Block.free ∈ fr) (hx : (execStatus m s) = .next t) : Only fr s t := by
  have h0 := Only.refl fr s
  grind [execStatus, only_takeMsg, only_statusStripe, only_statusTemp, only_statusFields]

theorem only_frameError {fr : List Block} {s0 : State} (p : Nat) {s : State} (h_out : Block.out ∈ fr) (h_pm : Block.pm ∈ fr) (h_win : Block.win ∈ fr) (h_rnd : Block.rnd ∈ fr) (h_store : Block.store ∈ fr) (h_seq : Block.seq ∈ fr) (h_link : Block.link ∈ fr) (h_trk : Block.trk ∈ fr) (h_scan : Block.scan ∈ fr) (h_nor : Block.nor ∈ fr) (h_evt : Block.evt ∈ fr) (h_stats : Block.stats ∈ fr) (h_hostMem : Block.hostMem ∈ fr) (h_free : Block.free ∈ fr) (hkp : Only fr s0 s) : Only fr s0 (frameError p s) := by
  grind [frameError, only_linkFails, only_failLane, only_upd]

theorem only_execError {fr : List Block} (m : RetMsg) {s : State} {t : State} (h_out : Block.out ∈ fr) (h_pm : Block.pm ∈ fr) (h_win : Block.win ∈ fr) (h_rnd : Block.rnd ∈ fr) (h_store : Block.store ∈ fr) (h_seq : Block.seq ∈ fr) (h_link : Block.link ∈ fr) (h_trk : Block.trk ∈ fr) (h_scan : Block.scan ∈ fr) (h_nor : Block.nor ∈ fr) (h_evt : Block.evt ∈ fr) (h_stats : Block.stats ∈ fr) (h_hostMem : Block.hostMem ∈ fr) (h_free : Block.free ∈ fr) (hx : (execError m s) = .next t) : Only fr s t := by
  have h0 := Only.refl fr s
  grind [execError, only_takeMsg, only_stat, only_frameError, only_linkFails, only_failLane]

theorem only_portGranted {fr : List Block} {s0 : State} (sb : Nat) (hb : Int) {s : State} (h_out : Block.out ∈ fr) (h_pm : Block.pm ∈ fr) (h_win : Block.win ∈ fr) (h_mb : Block.mb ∈ fr) (h_cfg : Block.cfg ∈ fr) (h_led : Block.led ∈ fr) (h_lay : Block.lay ∈ fr) (h_rnd : Block.rnd ∈ fr) (h_store : Block.store ∈ fr) (h_seq : Block.seq ∈ fr) (h_link : Block.link ∈ fr) (h_trk : Block.trk ∈ fr) (h_scan : Block.scan ∈ fr) (h_dma : Block.dma ∈ fr) (h_fab : Block.fab ∈ fr) (h_keep : Block.keep ∈ fr) (h_nor : Block.nor ∈ fr) (h_svc : Block.svc ∈ fr) (h_smb : Block.smb ∈ fr) (h_diag : Block.diag ∈ fr) (h_evt : Block.evt ∈ fr) (h_stats : Block.stats ∈ fr) (h_hostMem : Block.hostMem ∈ fr) (h_free : Block.free ∈ fr) (hkp : Only fr s0 s) : Only fr s0 (portGranted sb hb s) := by
  grind [portGranted, only_sendRelease, only_bsaViolation, only_raise, only_takeoverGranted, only_handoverGranted, only_upd]

theorem only_portLost {fr : List Block} {s0 : State} (sb : Nat) (hb : Int) {s : State} (h_out : Block.out ∈ fr) (h_pm : Block.pm ∈ fr) (h_win : Block.win ∈ fr) (h_cfg : Block.cfg ∈ fr) (h_led : Block.led ∈ fr) (h_lay : Block.lay ∈ fr) (h_rnd : Block.rnd ∈ fr) (h_store : Block.store ∈ fr) (h_seq : Block.seq ∈ fr) (h_link : Block.link ∈ fr) (h_trk : Block.trk ∈ fr) (h_scan : Block.scan ∈ fr) (h_dma : Block.dma ∈ fr) (h_fab : Block.fab ∈ fr) (h_keep : Block.keep ∈ fr) (h_nor : Block.nor ∈ fr) (h_smb : Block.smb ∈ fr) (h_diag : Block.diag ∈ fr) (h_evt : Block.evt ∈ fr) (h_stats : Block.stats ∈ fr) (h_hbmMem : Block.hbmMem ∈ fr) (h_hostMem : Block.hostMem ∈ fr) (h_free : Block.free ∈ fr) (hkp : Only fr s0 s) : Only fr s0 (portLost sb hb s) := by
  unfold portLost
  have h0 := only_heedHigh sb hb ‹_› ‹_› ‹_› ‹_› ‹_› ‹_› ‹_› ‹_› ‹_› ‹_› ‹_› ‹_› ‹_› hkp
  have h1 := only_boundaryStop 14 ‹_› ‹_› ‹_› ‹_› ‹_› ‹_› ‹_› ‹_› ‹_› ‹_› ‹_› ‹_› (only_raise 0x0379 .seq (detail [du 8 0, du 16 sb, ds 32 hb]) ‹_› ‹_› ‹_› ‹_› ‹_› ‹_›
    (show Only fr s0 { heedHigh sb hb s with link := { (heedHigh sb hb s).link with held := false, lost := true } } from
      (by grind [only_upd])))
  dsimp only
  generalize boundaryStop 14 _ = s1 at h1 ⊢
  have h2 : Only fr s0 (if s1.seq.st = .stopping then settleH s1.seq.h s1 else s1) := by
    split
    · exact only_settleH _ ‹_› ‹_› ‹_› ‹_› ‹_› ‹_› ‹_› ‹_› ‹_› ‹_› ‹_› ‹_› ‹_› ‹_› ‹_› ‹_› ‹_› h1
    · exact h1
  generalize (if s1.seq.st = .stopping then settleH s1.seq.h s1 else s1) = s2 at h2 ⊢
  split
  · exact h2
  · have h3 := only_disownFlows ‹_› (show Only fr s0 { s2 with
      seq := s2.seq.toIdle
      fab := { s2.fab with pair := { s2.fab.pair with st := .partnerLost, role := 2, step := 0 } } } from
        (by grind [only_upd]))
    split
    · exact only_enterMode _ _ ‹_› ‹_› ‹_› ‹_› ‹_› ‹_› ‹_› ‹_› ‹_› ‹_› ‹_› ‹_› ‹_› ‹_› ‹_› ‹_› ‹_› (only_endFill ‹_› ‹_› h3)
    · exact h3

theorem only_execPortEvent {fr : List Block} (m : RetMsg) {s : State} {t : State} (h_out : Block.out ∈ fr) (h_pm : Block.pm ∈ fr) (h_win : Block.win ∈ fr) (h_mb : Block.mb ∈ fr) (h_cfg : Block.cfg ∈ fr) (h_led : Block.led ∈ fr) (h_lay : Block.lay ∈ fr) (h_rnd : Block.rnd ∈ fr) (h_store : Block.store ∈ fr) (h_seq : Block.seq ∈ fr) (h_link : Block.link ∈ fr) (h_trk : Block.trk ∈ fr) (h_scan : Block.scan ∈ fr) (h_dma : Block.dma ∈ fr) (h_fab : Block.fab ∈ fr) (h_keep : Block.keep ∈ fr) (h_nor : Block.nor ∈ fr) (h_svc : Block.svc ∈ fr) (h_smb : Block.smb ∈ fr) (h_diag : Block.diag ∈ fr) (h_evt : Block.evt ∈ fr) (h_stats : Block.stats ∈ fr) (h_hbmMem : Block.hbmMem ∈ fr) (h_hostMem : Block.hostMem ∈ fr) (h_free : Block.free ∈ fr) (hx : (execPortEvent m s) = .next t) : Only fr s t := by
  have h0 := Only.refl fr s
  grind [execPortEvent, only_takeMsg, only_portGranted, only_portLost]

theorem only_execTrainStatus {fr : List Block} (m : RetMsg) {s : State} {t : State} (h_out : Block.out ∈ fr) (h_win : Block.win ∈ fr) (h_link : Block.link ∈ fr) (h_nor : Block.nor ∈ fr) (h_evt : Block.evt ∈ fr) (h_stats : Block.stats ∈ fr) (h_hostMem : Block.hostMem ∈ fr) (hx : (execTrainStatus m s) = .next t) : Only fr s t := by
  have h0 := Only.refl fr s
  grind [execTrainStatus, only_takeMsg, only_upd]

theorem only_execReturnLaneSwitched {fr : List Block} {s : State} {t : State} (h_out : Block.out ∈ fr) (h_pm : Block.pm ∈ fr) (h_win : Block.win ∈ fr) (h_rnd : Block.rnd ∈ fr) (h_store : Block.store ∈ fr) (h_seq : Block.seq ∈ fr) (h_link : Block.link ∈ fr) (h_trk : Block.trk ∈ fr) (h_scan : Block.scan ∈ fr) (h_nor : Block.nor ∈ fr) (h_evt : Block.evt ∈ fr) (h_stats : Block.stats ∈ fr) (h_hostMem : Block.hostMem ∈ fr) (h_free : Block.free ∈ fr) (hx : (execReturnLaneSwitched s) = .next t) : Only fr s t := by
  have h0 := Only.refl fr s
  grind [execReturnLaneSwitched, only_laneLost]

theorem only_execBsaStatusTimeout {fr : List Block} {s : State} {t : State} (h_out : Block.out ∈ fr) (h_pm : Block.pm ∈ fr) (h_win : Block.win ∈ fr) (h_rnd : Block.rnd ∈ fr) (h_store : Block.store ∈ fr) (h_seq : Block.seq ∈ fr) (h_link : Block.link ∈ fr) (h_trk : Block.trk ∈ fr) (h_scan : Block.scan ∈ fr) (h_nor : Block.nor ∈ fr) (h_evt : Block.evt ∈ fr) (h_stats : Block.stats ∈ fr) (h_hostMem : Block.hostMem ∈ fr) (h_free : Block.free ∈ fr) (hx : (execBsaStatusTimeout s) = .next t) : Only fr s t := by
  have h0 := Only.refl fr s
  grind [execBsaStatusTimeout, only_linkFails, only_raise, only_bsaViolation]

theorem only_execPortClaimTimeout {fr : List Block} {s : State} {t : State} (h_out : Block.out ∈ fr) (h_pm : Block.pm ∈ fr) (h_win : Block.win ∈ fr) (h_mb : Block.mb ∈ fr) (h_link : Block.link ∈ fr) (h_fab : Block.fab ∈ fr) (h_nor : Block.nor ∈ fr) (h_svc : Block.svc ∈ fr) (h_evt : Block.evt ∈ fr) (h_stats : Block.stats ∈ fr) (h_hostMem : Block.hostMem ∈ fr) (hx : (execPortClaimTimeout s) = .next t) : Only fr s t := by
  have h0 := Only.refl fr s
  grind [execPortClaimTimeout, only_claimRefused, only_sendRelease]

theorem only_putSpace {fr : List Block} {s0 : State} (space : Nat) (flow : Nat) (a : Nat) (b : List Byte) {s : State} {t : State} (h_dma : Block.dma ∈ fr) (h_diag : Block.diag ∈ fr) (h_stats : Block.stats ∈ fr) (h_hbmMem : Block.hbmMem ∈ fr) (h_hostMem : Block.hostMem ∈ fr) (h_free : Block.free ∈ fr) (hkp : Only fr s0 s) (e : (putSpace space flow a b s) = some t) : Only fr s0 t := by
  grind [putSpace, only_hbmWrite, only_vwrite, → only_vwrite_eq]

theorem only_DescF_move {fr : List Block} {s0 : State} (d : DescF) (flow : Nat) (p : Nat) (q : Nat) {s : State} {t : State} (h_dma : Block.dma ∈ fr) (h_diag : Block.diag ∈ fr) (h_stats : Block.stats ∈ fr) (h_hbmMem : Block.hbmMem ∈ fr) (h_hostMem : Block.hostMem ∈ fr) (h_free : Block.free ∈ fr) (hkp : Only fr s0 s) (e : (DescF.move d flow p q s) = some t) : Only fr s0 t := by
  grind [DescF.move, only_putSpace]

theorem only_setCh {fr : List Block} {s0 : State} (c : Fin 16) (x : Channel16) {s : State} (h_dma : Block.dma ∈ fr) (hkp : Only fr s0 s) : Only fr s0 (setCh c x s) := by
  grind [setCh, only_upd]

theorem only_releaseDesc {fr : List Block} {s0 : State} (c : Fin 16) (d : Desc) (t : List Desc) {s : State} (h_out : Block.out ∈ fr) (h_win : Block.win ∈ fr) (h_dma : Block.dma ∈ fr) (h_nor : Block.nor ∈ fr) (h_evt : Block.evt ∈ fr) (h_stats : Block.stats ∈ fr) (h_hostMem : Block.hostMem ∈ fr) (hkp : Only fr s0 s) : Only fr s0 (releaseDesc c d t s) := by
  grind [releaseDesc, only_setCh, only_hostWrite, only_advance, only_stat, only_raise]

theorem only_releaseFinal {fr : List Block} {s0 : State} (c : Fin 16) (a1 : List Desc) {a2 : State} (h_out : Block.out ∈ fr) (h_win : Block.win ∈ fr) (h_dma : Block.dma ∈ fr) (h_nor : Block.nor ∈ fr) (h_evt : Block.evt ∈ fr) (h_stats : Block.stats ∈ fr) (h_hostMem : Block.hostMem ∈ fr) (hkp : Only fr s0 a2) : Only fr s0 (releaseFinal c a1 a2) := by
  fun_induction releaseFinal c a1 a2 <;> grind [only_stopRing, only_releaseDesc, only_upd]

theorem only_releaseDescs {fr : List Block} {s0 : State} (c : Fin 16) {s : State} (h_out : Block.out ∈ fr) (h_win : Block.win ∈ fr) (h_dma : Block.dma ∈ fr) (h_nor : Block.nor ∈ fr) (h_evt : Block.evt ∈ fr) (h_stats : Block.stats ∈ fr) (h_hostMem : Block.hostMem ∈ fr) (hkp : Only fr s0 s) : Only fr s0 (releaseDescs c s) := by
  grind [releaseDescs, only_releaseFinal]

theorem only_putDesc {fr : List Block} {s0 : State} (c : Fin 16) (d : Desc) {s : State} (h_dma : Block.dma ∈ fr) (hkp : Only fr s0 s) : Only fr s0 (putDesc c d s) := by
  grind [putDesc, only_setCh]

theorem only_finalDesc {fr : List Block} {s0 : State} (c : Fin 16) (d : Desc) (status : Nat) (reason : Nat) {s : State} (h_out : Block.out ∈ fr) (h_win : Block.win ∈ fr) (h_dma : Block.dma ∈ fr) (h_nor : Block.nor ∈ fr) (h_evt : Block.evt ∈ fr) (h_stats : Block.stats ∈ fr) (h_hostMem : Block.hostMem ∈ fr) (hkp : Only fr s0 s) : Only fr s0 (finalDesc c d status reason s) := by
  grind [finalDesc, only_releaseDescs, only_putDesc]

theorem only_dropCopy {fr : List Block} {s0 : State} (f : BitVec 8) {s : State} (h_dma : Block.dma ∈ fr) (hkp : Only fr s0 s) : Only fr s0 (dropCopy f s) := by
  grind [dropCopy, only_upd]

theorem only_failCopy {fr : List Block} {s0 : State} (r : CopyRun) (status : Nat) (reason : Nat) {s : State} (h_out : Block.out ∈ fr) (h_win : Block.win ∈ fr) (h_cfg : Block.cfg ∈ fr) (h_led : Block.led ∈ fr) (h_link : Block.link ∈ fr) (h_dma : Block.dma ∈ fr) (h_fab : Block.fab ∈ fr) (h_nor : Block.nor ∈ fr) (h_diag : Block.diag ∈ fr) (h_evt : Block.evt ∈ fr) (h_stats : Block.stats ∈ fr) (h_hostMem : Block.hostMem ∈ fr) (h_free : Block.free ∈ fr) (hkp : Only fr s0 s) : Only fr s0 (failCopy r status reason s) := by
  grind [failCopy, only_dropCopy, only_activateTables, only_failItem, only_putItem]

theorem only_copyStat {fr : List Block} {s0 : State} (k : Nat) {s : State} (h_stats : Block.stats ∈ fr) (hkp : Only fr s0 s) : Only fr s0 (copyStat k s) := by
  grind [copyStat, only_stat]

theorem only_putCopy {fr : List Block} {s0 : State} (r : CopyRun) {s : State} (h_dma : Block.dma ∈ fr) (hkp : Only fr s0 s) : Only fr s0 (putCopy r s) := by
  grind [putCopy, only_upd]

theorem only_startCopy {fr : List Block} {s0 : State} (f : BitVec 8) (q : BitVec 64) {s : State} (h_dma : Block.dma ∈ fr) (hkp : Only fr s0 s) : Only fr s0 (startCopy f q s) := by
  grind [startCopy, only_upd]

theorem only_execCopyComplete {fr : List Block} (f : BitVec 8) {s : State} {t : State} (h_out : Block.out ∈ fr) (h_win : Block.win ∈ fr) (h_cfg : Block.cfg ∈ fr) (h_led : Block.led ∈ fr) (h_link : Block.link ∈ fr) (h_dma : Block.dma ∈ fr) (h_fab : Block.fab ∈ fr) (h_nor : Block.nor ∈ fr) (h_diag : Block.diag ∈ fr) (h_evt : Block.evt ∈ fr) (h_stats : Block.stats ∈ fr) (h_hbmMem : Block.hbmMem ∈ fr) (h_hostMem : Block.hostMem ∈ fr) (h_free : Block.free ∈ fr) (hx : (execCopyComplete f s) = .next t) : Only fr s t := by
  have h0 := Only.refl fr s
  unfold execCopyComplete at hx
  (repeat' split at hx) <;> grind [only_DescF_move, only_activateTables, only_doneItem, only_copyStat, only_dropCopy, only_upd]

theorem only_pace {fr : List Block} {s0 : State} (c : Fin 16) {s : State} (h_dma : Block.dma ∈ fr) (h_stats : Block.stats ∈ fr) (hkp : Only fr s0 s) : Only fr s0 (pace c s) := by
  grind [pace, only_setCh, only_stat]

theorem only_abortStripe {fr : List Block} {s0 : State} {s : State} (h_out : Block.out ∈ fr) (h_win : Block.win ∈ fr) (h_cfg : Block.cfg ∈ fr) (h_led : Block.led ∈ fr) (h_rnd : Block.rnd ∈ fr) (h_store : Block.store ∈ fr) (h_seq : Block.seq ∈ fr) (h_link : Block.link ∈ fr) (h_trk : Block.trk ∈ fr) (h_scan : Block.scan ∈ fr) (h_dma : Block.dma ∈ fr) (h_fab : Block.fab ∈ fr) (h_nor : Block.nor ∈ fr) (h_diag : Block.diag ∈ fr) (h_evt : Block.evt ∈ fr) (h_stats : Block.stats ∈ fr) (h_hostMem : Block.hostMem ∈ fr) (h_free : Block.free ∈ fr) (hkp : Only fr s0 s) : Only fr s0 (abortStripe s) := by
  grind [abortStripe, only_endStripe, only_boundaryStop]

theorem only_abortUser {fr : List Block} {s0 : State} (f : DFault) {s : State} (h_out : Block.out ∈ fr) (h_win : Block.win ∈ fr) (h_cfg : Block.cfg ∈ fr) (h_led : Block.led ∈ fr) (h_lay : Block.lay ∈ fr) (h_rnd : Block.rnd ∈ fr) (h_store : Block.store ∈ fr) (h_seq : Block.seq ∈ fr) (h_link : Block.link ∈ fr) (h_trk : Block.trk ∈ fr) (h_scan : Block.scan ∈ fr) (h_dma : Block.dma ∈ fr) (h_fab : Block.fab ∈ fr) (h_nor : Block.nor ∈ fr) (h_diag : Block.diag ∈ fr) (h_evt : Block.evt ∈ fr) (h_stats : Block.stats ∈ fr) (h_hostMem : Block.hostMem ∈ fr) (h_free : Block.free ∈ fr) (hkp : Only fr s0 s) : Only fr s0 (abortUser f s) := by
  unfold abortUser
  (repeat' split) <;> grind [only_abortStripe, only_dropBinLines, only_activateTables, only_failItem, only_answerOffload, only_dropIngest, only_failCopy, only_dropCensus, only_upd]

theorem only_abortTransfer {fr : List Block} {s0 : State} (f : DFault) {s : State} (h_out : Block.out ∈ fr) (h_win : Block.win ∈ fr) (h_cfg : Block.cfg ∈ fr) (h_led : Block.led ∈ fr) (h_lay : Block.lay ∈ fr) (h_rnd : Block.rnd ∈ fr) (h_store : Block.store ∈ fr) (h_seq : Block.seq ∈ fr) (h_link : Block.link ∈ fr) (h_trk : Block.trk ∈ fr) (h_scan : Block.scan ∈ fr) (h_dma : Block.dma ∈ fr) (h_fab : Block.fab ∈ fr) (h_nor : Block.nor ∈ fr) (h_diag : Block.diag ∈ fr) (h_evt : Block.evt ∈ fr) (h_stats : Block.stats ∈ fr) (h_hostMem : Block.hostMem ∈ fr) (h_free : Block.free ∈ fr) (hkp : Only fr s0 s) : Only fr s0 (abortTransfer f s) := by
  grind [abortTransfer, only_finalDesc, only_abortUser]

theorem only_copyError {fr : List Block} {s0 : State} (r : CopyRun) {s : State} (h_out : Block.out ∈ fr) (h_win : Block.win ∈ fr) (h_cfg : Block.cfg ∈ fr) (h_led : Block.led ∈ fr) (h_link : Block.link ∈ fr) (h_dma : Block.dma ∈ fr) (h_fab : Block.fab ∈ fr) (h_nor : Block.nor ∈ fr) (h_diag : Block.diag ∈ fr) (h_evt : Block.evt ∈ fr) (h_stats : Block.stats ∈ fr) (h_hostMem : Block.hostMem ∈ fr) (h_free : Block.free ∈ fr) (hkp : Only fr s0 s) : Only fr s0 (copyError r s) := by
  grind [copyError, only_raise, only_copyStat, only_putCopy, only_failCopy]

theorem only_descError {fr : List Block} {s0 : State} (c : Fin 16) (d : Desc) {s : State} (h_out : Block.out ∈ fr) (h_win : Block.win ∈ fr) (h_dma : Block.dma ∈ fr) (h_nor : Block.nor ∈ fr) (h_evt : Block.evt ∈ fr) (h_stats : Block.stats ∈ fr) (h_hostMem : Block.hostMem ∈ fr) (hkp : Only fr s0 s) : Only fr s0 (descError c d s) := by
  grind [descError, only_raise, only_stat, only_putDesc, only_finalDesc]

theorem only_dropFault {fr : List Block} {s0 : State} (f : DFault) {s : State} (h_out : Block.out ∈ fr) (h_win : Block.win ∈ fr) (h_dma : Block.dma ∈ fr) (h_nor : Block.nor ∈ fr) (h_evt : Block.evt ∈ fr) (h_stats : Block.stats ∈ fr) (h_hostMem : Block.hostMem ∈ fr) (hkp : Only fr s0 s) : Only fr s0 (dropFault f s) := by
  grind [dropFault, only_promoteFault, only_upd]

theorem only_execDmaChannelSetup {fr : List Block} (e : Entry) {s : State} {t : State} (h_out : Block.out ∈ fr) (h_win : Block.win ∈ fr) (h_mb : Block.mb ∈ fr) (h_dma : Block.dma ∈ fr) (h_nor : Block.nor ∈ fr) (h_svc : Block.svc ∈ fr) (h_evt : Block.evt ∈ fr) (h_stats : Block.stats ∈ fr) (h_hostMem : Block.hostMem ∈ fr) (hx : (execDmaChannelSetup e s) = .next t) : Only fr s t := by
  have h0 := Only.refl fr s
  grind [execDmaChannelSetup, only_takeUp, only_finish, only_setCh]

theorem only_execDtuSetRoot {fr : List Block} (e : Entry) {s : State} {t : State} (h_out : Block.out ∈ fr) (h_win : Block.win ∈ fr) (h_mb : Block.mb ∈ fr) (h_dma : Block.dma ∈ fr) (h_nor : Block.nor ∈ fr) (h_svc : Block.svc ∈ fr) (h_evt : Block.evt ∈ fr) (h_stats : Block.stats ∈ fr) (h_hostMem : Block.hostMem ∈ fr) (hx : (execDtuSetRoot e s) = .next t) : Only fr s t := by
  have h0 := Only.refl fr s
  grind [execDtuSetRoot, only_takeUp, only_finish, only_upd]

theorem only_execDtuInvalidate {fr : List Block} (e : Entry) {s : State} {t : State} (h_out : Block.out ∈ fr) (h_win : Block.win ∈ fr) (h_mb : Block.mb ∈ fr) (h_dma : Block.dma ∈ fr) (h_nor : Block.nor ∈ fr) (h_svc : Block.svc ∈ fr) (h_evt : Block.evt ∈ fr) (h_stats : Block.stats ∈ fr) (h_hostMem : Block.hostMem ∈ fr) (hx : (execDtuInvalidate e s) = .next t) : Only fr s t := by
  have h0 := Only.refl fr s
  grind [execDtuInvalidate, only_takeUp, only_finish, only_upd]

theorem only_resumeTransfer {fr : List Block} {s0 : State} (f : DFault) {s : State} (h_lay : Block.lay ∈ fr) (h_dma : Block.dma ∈ fr) (hkp : Only fr s0 s) : Only fr s0 (resumeTransfer f s) := by
  grind [resumeTransfer, only_putDesc, only_putIngest, only_putCopy]

theorem only_execDtuResumeFault {fr : List Block} (e : Entry) {s : State} {t : State} (h_out : Block.out ∈ fr) (h_win : Block.win ∈ fr) (h_mb : Block.mb ∈ fr) (h_cfg : Block.cfg ∈ fr) (h_led : Block.led ∈ fr) (h_lay : Block.lay ∈ fr) (h_rnd : Block.rnd ∈ fr) (h_store : Block.store ∈ fr) (h_seq : Block.seq ∈ fr) (h_link : Block.link ∈ fr) (h_trk : Block.trk ∈ fr) (h_scan : Block.scan ∈ fr) (h_dma : Block.dma ∈ fr) (h_fab : Block.fab ∈ fr) (h_nor : Block.nor ∈ fr) (h_svc : Block.svc ∈ fr) (h_diag : Block.diag ∈ fr) (h_evt : Block.evt ∈ fr) (h_stats : Block.stats ∈ fr) (h_hostMem : Block.hostMem ∈ fr) (h_free : Block.free ∈ fr) (hx : (execDtuResumeFault e s) = .next t) : Only fr s t := by
  have h0 := Only.refl fr s
  grind [execDtuResumeFault, only_takeUp, only_finish, only_dropFault, only_abortTransfer, only_raise, only_resumeTransfer]

theorem only_execDmaDescriptorStart {fr : List Block} (c : Fin 16) (w : BitVec 512) {s : State} {t : State} (h_out : Block.out ∈ fr) (h_win : Block.win ∈ fr) (h_dma : Block.dma ∈ fr) (h_nor : Block.nor ∈ fr) (h_evt : Block.evt ∈ fr) (h_stats : Block.stats ∈ fr) (h_hostMem : Block.hostMem ∈ fr) (hx : (execDmaDescriptorStart c w s) = .next t) : Only fr s t := by
  have h0 := Only.refl fr s
  grind [execDmaDescriptorStart, only_pace, only_setCh, only_finalDesc]

theorem only_execDmaDescriptorDone {fr : List Block} (c : Fin 16) (idx : BitVec 32) {s : State} {t : State} (h_out : Block.out ∈ fr) (h_win : Block.win ∈ fr) (h_dma : Block.dma ∈ fr) (h_nor : Block.nor ∈ fr) (h_diag : Block.diag ∈ fr) (h_evt : Block.evt ∈ fr) (h_stats : Block.stats ∈ fr) (h_hbmMem : Block.hbmMem ∈ fr) (h_hostMem : Block.hostMem ∈ fr) (h_free : Block.free ∈ fr) (hx : (execDmaDescriptorDone c idx s) = .next t) : Only fr s t := by
  have h0 := Only.refl fr s
  unfold execDmaDescriptorDone at hx
  (repeat' split at hx) <;> grind [only_injected, only_descError, only_DescF_move, only_finalDesc, only_statAdd, → only_injected_eq, only_upd]

theorem only_readFails {fr : List Block} {s0 : State} (ctx : Fin 20) (idx : BitVec 32) (arrived : Nat) {s : State} (h_out : Block.out ∈ fr) (h_win : Block.win ∈ fr) (h_cfg : Block.cfg ∈ fr) (h_led : Block.led ∈ fr) (h_link : Block.link ∈ fr) (h_dma : Block.dma ∈ fr) (h_fab : Block.fab ∈ fr) (h_nor : Block.nor ∈ fr) (h_diag : Block.diag ∈ fr) (h_evt : Block.evt ∈ fr) (h_stats : Block.stats ∈ fr) (h_hbmMem : Block.hbmMem ∈ fr) (h_hostMem : Block.hostMem ∈ fr) (h_free : Block.free ∈ fr) (hkp : Only fr s0 s) : Only fr s0 (readFails ctx idx arrived s) := by
  unfold readFails
  (repeat' split) <;> grind [only_DescF_move, only_descError, only_copyError, only_putCopy, only_upd]

theorem only_execDmaBusError {fr : List Block} (ctx : Fin 20) (idx : BitVec 32) (arrived : Nat) {s : State} {t : State} (h_out : Block.out ∈ fr) (h_win : Block.win ∈ fr) (h_cfg : Block.cfg ∈ fr) (h_led : Block.led ∈ fr) (h_link : Block.link ∈ fr) (h_dma : Block.dma ∈ fr) (h_fab : Block.fab ∈ fr) (h_nor : Block.nor ∈ fr) (h_diag : Block.diag ∈ fr) (h_evt : Block.evt ∈ fr) (h_stats : Block.stats ∈ fr) (h_hbmMem : Block.hbmMem ∈ fr) (h_hostMem : Block.hostMem ∈ fr) (h_free : Block.free ∈ fr) (hx : (execDmaBusError ctx idx arrived s) = .next t) : Only fr s t := by
  have h0 := Only.refl fr s
  grind [execDmaBusError, only_readFails]

theorem only_execDmaReadTimeout {fr : List Block} (ctx : Fin 20) (idx : BitVec 32) (arrived : Nat) {s : State} {t : State} (h_out : Block.out ∈ fr) (h_win : Block.win ∈ fr) (h_cfg : Block.cfg ∈ fr) (h_led : Block.led ∈ fr) (h_link : Block.link ∈ fr) (h_dma : Block.dma ∈ fr) (h_fab : Block.fab ∈ fr) (h_nor : Block.nor ∈ fr) (h_diag : Block.diag ∈ fr) (h_evt : Block.evt ∈ fr) (h_stats : Block.stats ∈ fr) (h_hbmMem : Block.hbmMem ∈ fr) (h_hostMem : Block.hostMem ∈ fr) (h_free : Block.free ∈ fr) (hx : (execDmaReadTimeout ctx idx arrived s) = .next t) : Only fr s t := by
  have h0 := Only.refl fr s
  grind [execDmaReadTimeout, only_readFails]

theorem only_execDmaRetry {fr : List Block} (ctx : Fin 20) (idx : BitVec 32) {s : State} {t : State} (h_dma : Block.dma ∈ fr) (h_stats : Block.stats ∈ fr) (hx : (execDmaRetry ctx idx s) = .next t) : Only fr s t := by
  have h0 := Only.refl fr s
  grind [execDmaRetry, only_putDesc, only_stat, only_putCopy, only_copyStat]

theorem only_faultReason {fr : List Block} {s0 : State} (flow : Nat) (write : Bool) (va : Nat) (busErr : Bool) {s : State} (h_dma : Block.dma ∈ fr) (h_diag : Block.diag ∈ fr) (h_stats : Block.stats ∈ fr) (h_free : Block.free ∈ fr) (hkp : Only fr s0 s) : Only fr s0 (faultReason flow write va busErr s).2 := by
  grind [faultReason, only_translate, → only_translate_eq]

theorem only_faultReason_eq {fr : List Block} {s0 : State} (flow : Nat) (write : Bool) (va : Nat) (busErr : Bool) {s : State} {v : Option Nat} {t : State} (h_dma : Block.dma ∈ fr) (h_diag : Block.diag ∈ fr) (h_stats : Block.stats ∈ fr) (h_free : Block.free ∈ fr) (hev : (faultReason flow write va busErr s) = (v, t)) (h : Only fr s0 s) : Only fr s0 t := by
  have k := only_faultReason flow write va busErr h_dma h_diag h_stats h_free h
  rw [hev] at k
  exact k

theorem only_stallDesc {fr : List Block} {s0 : State} (c : Fin 16) (d : Desc) (write : Bool) (va : BitVec 64) (progress : Nat) (busErr : Bool) {s : State} (h_out : Block.out ∈ fr) (h_win : Block.win ∈ fr) (h_dma : Block.dma ∈ fr) (h_nor : Block.nor ∈ fr) (h_diag : Block.diag ∈ fr) (h_evt : Block.evt ∈ fr) (h_stats : Block.stats ∈ fr) (h_hbmMem : Block.hbmMem ∈ fr) (h_hostMem : Block.hostMem ∈ fr) (h_free : Block.free ∈ fr) (hkp : Only fr s0 s) : Only fr s0 (stallDesc c d write va progress busErr s) := by
  unfold stallDesc
  dsimp only
  (repeat' split) <;> grind [only_faultReason, only_DescF_move, only_recordFault, only_putDesc, → only_faultReason_eq, only_upd]

theorem only_stallCopy {fr : List Block} {s0 : State} (r : CopyRun) (d : DescF) (progress : Nat) {s : State} {t : State} (h_dma : Block.dma ∈ fr) (h_diag : Block.diag ∈ fr) (h_stats : Block.stats ∈ fr) (h_hbmMem : Block.hbmMem ∈ fr) (h_hostMem : Block.hostMem ∈ fr) (h_free : Block.free ∈ fr) (hkp : Only fr s0 s) (e : (stallCopy r d progress s) = some t) : Only fr s0 t := by
  unfold stallCopy at e
  split at e
  · simp at e
  · simp only [Option.map_eq_some_iff] at e
    obtain ⟨v, hv, rfl⟩ := e
    exact only_putCopy _ ‹_› (only_DescF_move _ _ _ _ ‹_› ‹_› ‹_› ‹_› ‹_› ‹_› hkp hv)

theorem only_stallUser {fr : List Block} {s0 : State} (ctx : Nat) (flow : BitVec 8) (progress : Nat) {s : State} {t : State} (h_lay : Block.lay ∈ fr) (h_dma : Block.dma ∈ fr) (h_diag : Block.diag ∈ fr) (h_stats : Block.stats ∈ fr) (h_hbmMem : Block.hbmMem ∈ fr) (h_hostMem : Block.hostMem ∈ fr) (h_free : Block.free ∈ fr) (hkp : Only fr s0 s) (e : (stallUser ctx flow progress s) = some t) : Only fr s0 t := by
  have hif : ∀ (c : Prop) [Decidable c], (if c then some s else none) = some t → Only fr s0 t := by
    intro c _ h
    split at h
    · cases h; exact hkp
    · cases h
  unfold stallUser at e
  split at e
  · exact hif _ e
  · split at e
    · exact hif _ e
    · cases e
  · exact hif _ e
  · generalize ingestOf s flow = a at e
    generalize copyOf s flow = b at e
    cases a with
    | some r =>
      dsimp only at e
      split at e
      · cases e
      · injection e with e
        rw [← e]
        exact only_putIngest _ ‹_› hkp
    | none =>
      cases b with
      | none => exact hif _ e
      | some r =>
        dsimp only at e
        cases h : CopyRun.f r s with
        | none => rw [h] at e; cases e
        | some d => rw [h] at e; exact only_stallCopy _ _ _ ‹_› ‹_› ‹_› ‹_› ‹_› ‹_› hkp e

theorem only_execDtuFault {fr : List Block} (ctx : Fin 20) (idx : BitVec 32) (write : Bool) (va : BitVec 64) (progress : Nat) (busErr : Bool) {s : State} {t : State} (h_out : Block.out ∈ fr) (h_win : Block.win ∈ fr) (h_lay : Block.lay ∈ fr) (h_dma : Block.dma ∈ fr) (h_nor : Block.nor ∈ fr) (h_diag : Block.diag ∈ fr) (h_evt : Block.evt ∈ fr) (h_stats : Block.stats ∈ fr) (h_hbmMem : Block.hbmMem ∈ fr) (h_hostMem : Block.hostMem ∈ fr) (h_free : Block.free ∈ fr) (hx : (execDtuFault ctx idx write va progress busErr s) = .next t) : Only fr s t := by
  have h0 := Only.refl fr s
  grind [execDtuFault, only_stallDesc, only_faultReason, only_stallUser, only_recordFault, → only_faultReason_eq]

theorem only_freshUpdate {fr : List Block} {s0 : State} (d : UpdDesc) {s : State} (h_upd : Block.upd ∈ fr) (hkp : Only fr s0 s) : Only fr s0 (freshUpdate d s) := by
  grind [freshUpdate, only_upd]

theorem only_beginUpdate {fr : List Block} {s0 : State} (d : UpdDesc) {s : State} {t : State} (h_out : Block.out ∈ fr) (h_win : Block.win ∈ fr) (h_upd : Block.upd ∈ fr) (h_nor : Block.nor ∈ fr) (h_evt : Block.evt ∈ fr) (h_stats : Block.stats ∈ fr) (h_hostMem : Block.hostMem ∈ fr) (hkp : Only fr s0 s) (e : (beginUpdate d s) = .ok t) : Only fr s0 t := by
  grind [beginUpdate, only_raise, only_freshUpdate]

theorem only_dropUpd {fr : List Block} {s0 : State} (f : BitVec 8) {s : State} (h_upd : Block.upd ∈ fr) (hkp : Only fr s0 s) : Only fr s0 (dropUpd f s) := by
  grind [dropUpd, only_upd]

theorem only_failUpd {fr : List Block} {s0 : State} (r : UpdRun) (status : Nat) (reason : Nat) {s : State} (h_out : Block.out ∈ fr) (h_win : Block.win ∈ fr) (h_cfg : Block.cfg ∈ fr) (h_led : Block.led ∈ fr) (h_link : Block.link ∈ fr) (h_dma : Block.dma ∈ fr) (h_fab : Block.fab ∈ fr) (h_upd : Block.upd ∈ fr) (h_nor : Block.nor ∈ fr) (h_diag : Block.diag ∈ fr) (h_evt : Block.evt ∈ fr) (h_stats : Block.stats ∈ fr) (h_hostMem : Block.hostMem ∈ fr) (h_free : Block.free ∈ fr) (hkp : Only fr s0 s) : Only fr s0 (failUpd r status reason s) := by
  grind [failUpd, only_dropUpd, only_activateTables, only_failItem, only_putItem]

theorem only_doneUpd {fr : List Block} {s0 : State} (r : UpdRun) {s : State} (h_out : Block.out ∈ fr) (h_win : Block.win ∈ fr) (h_cfg : Block.cfg ∈ fr) (h_led : Block.led ∈ fr) (h_link : Block.link ∈ fr) (h_dma : Block.dma ∈ fr) (h_fab : Block.fab ∈ fr) (h_upd : Block.upd ∈ fr) (h_nor : Block.nor ∈ fr) (h_diag : Block.diag ∈ fr) (h_evt : Block.evt ∈ fr) (h_stats : Block.stats ∈ fr) (h_hostMem : Block.hostMem ∈ fr) (h_free : Block.free ∈ fr) (hkp : Only fr s0 s) : Only fr s0 (doneUpd r s) := by
  grind [doneUpd, only_activateTables, only_doneItem, only_dropUpd]

theorem only_putUpd {fr : List Block} {s0 : State} (r : UpdRun) {s : State} (h_upd : Block.upd ∈ fr) (hkp : Only fr s0 s) : Only fr s0 (putUpd r s) := by
  grind [putUpd, only_upd]

theorem only_sendBegin {fr : List Block} {s0 : State} (r : UpdRun) (target : Nat) {s : State} (h_out : Block.out ∈ fr) (h_win : Block.win ∈ fr) (h_fab : Block.fab ∈ fr) (h_upd : Block.upd ∈ fr) (h_nor : Block.nor ∈ fr) (h_diag : Block.diag ∈ fr) (h_evt : Block.evt ∈ fr) (h_stats : Block.stats ∈ fr) (h_hostMem : Block.hostMem ∈ fr) (hkp : Only fr s0 s) : Only fr s0 (sendBegin r target s) := by
  grind [sendBegin, only_send, only_putUpd]

theorem only_beginRun {fr : List Block} {s0 : State} (r : UpdRun) (target : Nat) {s : State} (h_out : Block.out ∈ fr) (h_win : Block.win ∈ fr) (h_cfg : Block.cfg ∈ fr) (h_led : Block.led ∈ fr) (h_link : Block.link ∈ fr) (h_dma : Block.dma ∈ fr) (h_fab : Block.fab ∈ fr) (h_upd : Block.upd ∈ fr) (h_nor : Block.nor ∈ fr) (h_diag : Block.diag ∈ fr) (h_evt : Block.evt ∈ fr) (h_stats : Block.stats ∈ fr) (h_hostMem : Block.hostMem ∈ fr) (h_free : Block.free ∈ fr) (hkp : Only fr s0 s) : Only fr s0 (beginRun r target s) := by
  unfold beginRun
  have h1 : Only fr s0 { s with upd := { s.upd with items := s.upd.items ++ [r] } } := (by grind [only_upd])
  dsimp only
  split
  · split
    · exact only_failUpd _ _ _ ‹_› ‹_› ‹_› ‹_› ‹_› ‹_› ‹_› ‹_› ‹_› ‹_› ‹_› ‹_› ‹_› ‹_› h1
    · have h2 := only_beginUpdate _ ‹_› ‹_› ‹_› ‹_› ‹_› ‹_› ‹_› h1 (by assumption)
      split
      · exact only_doneUpd _ ‹_› ‹_› ‹_› ‹_› ‹_› ‹_› ‹_› ‹_› ‹_› ‹_› ‹_› ‹_› ‹_› ‹_› h2
      · exact only_putUpd _ ‹_› h2
  · exact only_sendBegin _ _ ‹_› ‹_› ‹_› ‹_› ‹_› ‹_› ‹_› ‹_› ‹_› h1

theorem only_holdPiece {fr : List Block} {s0 : State} (i : Nat) (pcrc : BitVec 32) (b : List Byte) {s : State} (h_out : Block.out ∈ fr) (h_win : Block.win ∈ fr) (h_upd : Block.upd ∈ fr) (h_nor : Block.nor ∈ fr) (h_evt : Block.evt ∈ fr) (h_stats : Block.stats ∈ fr) (h_hostMem : Block.hostMem ∈ fr) (hkp : Only fr s0 s) : Only fr s0 (holdPiece i pcrc b s) := by
  grind [holdPiece, only_raise, only_upd]

theorem only_putPiece {fr : List Block} {s0 : State} (id : BitVec 32) (i : Nat) (pcrc : BitVec 32) (b : List Byte) (readBackOk : Bool) {s : State} (h_out : Block.out ∈ fr) (h_win : Block.win ∈ fr) (h_upd : Block.upd ∈ fr) (h_nor : Block.nor ∈ fr) (h_evt : Block.evt ∈ fr) (h_stats : Block.stats ∈ fr) (h_hostMem : Block.hostMem ∈ fr) (hkp : Only fr s0 s) : Only fr s0 (putPiece id i pcrc b readBackOk s).2 := by
  grind [putPiece, only_raise, only_holdPiece]

theorem only_putPiece_eq {fr : List Block} {s0 : State} (id : BitVec 32) (i : Nat) (pcrc : BitVec 32) (b : List Byte) (readBackOk : Bool) {s : State} {v : Option (Nat × Nat)} {t : State} (h_out : Block.out ∈ fr) (h_win : Block.win ∈ fr) (h_upd : Block.upd ∈ fr) (h_nor : Block.nor ∈ fr) (h_evt : Block.evt ∈ fr) (h_stats : Block.stats ∈ fr) (h_hostMem : Block.hostMem ∈ fr) (hev : (putPiece id i pcrc b readBackOk s) = (v, t)) (h : Only fr s0 s) : Only fr s0 t := by
  have k := only_putPiece id i pcrc b readBackOk h_out h_win h_upd h_nor h_evt h_stats h_hostMem h
  rw [hev] at k
  exact k

theorem only_startUpdate {fr : List Block} {s0 : State} (f : BitVec 8) (q : BitVec 64) (p : List Byte) {s : State} {t : State} (h_out : Block.out ∈ fr) (h_win : Block.win ∈ fr) (h_cfg : Block.cfg ∈ fr) (h_led : Block.led ∈ fr) (h_link : Block.link ∈ fr) (h_dma : Block.dma ∈ fr) (h_fab : Block.fab ∈ fr) (h_upd : Block.upd ∈ fr) (h_nor : Block.nor ∈ fr) (h_diag : Block.diag ∈ fr) (h_evt : Block.evt ∈ fr) (h_stats : Block.stats ∈ fr) (h_hostMem : Block.hostMem ∈ fr) (h_free : Block.free ∈ fr) (hkp : Only fr s0 s) (e : (startUpdate f q p s) = some t) : Only fr s0 t := by
  grind [startUpdate, only_beginRun, only_failUpd]

theorem only_relayNacked {fr : List Block} {s0 : State} (r : UpdRun) (i : Nat) (reason : Nat) (sub : Nat) {s : State} (h_out : Block.out ∈ fr) (h_win : Block.win ∈ fr) (h_cfg : Block.cfg ∈ fr) (h_led : Block.led ∈ fr) (h_link : Block.link ∈ fr) (h_dma : Block.dma ∈ fr) (h_fab : Block.fab ∈ fr) (h_upd : Block.upd ∈ fr) (h_nor : Block.nor ∈ fr) (h_diag : Block.diag ∈ fr) (h_evt : Block.evt ∈ fr) (h_stats : Block.stats ∈ fr) (h_hostMem : Block.hostMem ∈ fr) (h_free : Block.free ∈ fr) (hkp : Only fr s0 s) : Only fr s0 (relayNacked r i reason sub s) := by
  grind [relayNacked, only_failUpd, only_putUpd]

theorem only_relayReport {fr : List Block} {s0 : State} (r : UpdRun) (complete : Bool) (bitmap : List Byte) {s : State} (h_out : Block.out ∈ fr) (h_win : Block.win ∈ fr) (h_cfg : Block.cfg ∈ fr) (h_led : Block.led ∈ fr) (h_link : Block.link ∈ fr) (h_dma : Block.dma ∈ fr) (h_fab : Block.fab ∈ fr) (h_upd : Block.upd ∈ fr) (h_nor : Block.nor ∈ fr) (h_diag : Block.diag ∈ fr) (h_evt : Block.evt ∈ fr) (h_stats : Block.stats ∈ fr) (h_hostMem : Block.hostMem ∈ fr) (h_free : Block.free ∈ fr) (hkp : Only fr s0 s) : Only fr s0 (relayReport r complete bitmap s) := by
  grind [relayReport, only_doneUpd, only_putUpd]

theorem only_execUpdateTargetTimeout {fr : List Block} (f : BitVec 8) {s : State} {t : State} (h_out : Block.out ∈ fr) (h_win : Block.win ∈ fr) (h_cfg : Block.cfg ∈ fr) (h_led : Block.led ∈ fr) (h_link : Block.link ∈ fr) (h_dma : Block.dma ∈ fr) (h_fab : Block.fab ∈ fr) (h_upd : Block.upd ∈ fr) (h_nor : Block.nor ∈ fr) (h_diag : Block.diag ∈ fr) (h_evt : Block.evt ∈ fr) (h_stats : Block.stats ∈ fr) (h_hostMem : Block.hostMem ∈ fr) (h_free : Block.free ∈ fr) (hx : (execUpdateTargetTimeout f s) = .next t) : Only fr s t := by
  have h0 := Only.refl fr s
  grind [execUpdateTargetTimeout, only_failUpd]

theorem only_sendPiece {fr : List Block} {s0 : State} (r : UpdRun) (target : Nat) (i : Nat) {s : State} (h_out : Block.out ∈ fr) (h_win : Block.win ∈ fr) (h_fab : Block.fab ∈ fr) (h_upd : Block.upd ∈ fr) (h_nor : Block.nor ∈ fr) (h_diag : Block.diag ∈ fr) (h_evt : Block.evt ∈ fr) (h_stats : Block.stats ∈ fr) (h_hostMem : Block.hostMem ∈ fr) (hkp : Only fr s0 s) : Only fr s0 (sendPiece r target i s) := by
  grind [sendPiece, only_send, only_putUpd]

theorem only_execUpdateRateTick {fr : List Block} (f : BitVec 8) {s : State} {t : State} (h_out : Block.out ∈ fr) (h_win : Block.win ∈ fr) (h_cfg : Block.cfg ∈ fr) (h_led : Block.led ∈ fr) (h_link : Block.link ∈ fr) (h_dma : Block.dma ∈ fr) (h_fab : Block.fab ∈ fr) (h_upd : Block.upd ∈ fr) (h_nor : Block.nor ∈ fr) (h_diag : Block.diag ∈ fr) (h_evt : Block.evt ∈ fr) (h_stats : Block.stats ∈ fr) (h_hostMem : Block.hostMem ∈ fr) (h_free : Block.free ∈ fr) (hx : (execUpdateRateTick f s) = .next t) : Only fr s t := by
  have h0 := Only.refl fr s
  unfold execUpdateRateTick at hx
  (repeat' split at hx) <;> grind [only_doneUpd, only_putPiece, only_failUpd, only_putUpd, only_sendBegin, only_sendPiece, → only_putPiece_eq, only_upd]

end Sys2Proof.Machine
end

