-- ==== Sys2Proof/Laws/Only5.lean ====
section
/-! SUPPORT. What the functions of these files keep of a state (Laws.Only): WorkOps, WorkCmd, CfgCmd, DevCmd, FabPorts, FabCmd. -/

namespace Sys2Proof.Machine

theorem only_failStart {fr : List Block} {s0 : State} (i : Item) (status : Nat) (reason : Nat) (b : Option Bad) {s : State} (h_out : Block.out ∈ fr) (h_win : Block.win ∈ fr) (h_cfg : Block.cfg ∈ fr) (h_led : Block.led ∈ fr) (h_link : Block.link ∈ fr) (h_dma : Block.dma ∈ fr) (h_fab : Block.fab ∈ fr) (h_nor : Block.nor ∈ fr) (h_diag : Block.diag ∈ fr) (h_evt : Block.evt ∈ fr) (h_stats : Block.stats ∈ fr) (h_hostMem : Block.hostMem ∈ fr) (h_free : Block.free ∈ fr) (hkp : Only fr s0 s) : Only fr s0 (failStart i status reason b s) := by
  unfold failStart
  (repeat' split) <;> grind [only_keepDetail, only_raiseBad, only_activateTables, only_failItem, only_upd]

theorem only_placeStripe {fr : List Block} {s0 : State} (i : Item) (h : SHdr) (stripe : Nat) (resume : Bool) {s : State} (h_out : Block.out ∈ fr) (h_win : Block.win ∈ fr) (h_cfg : Block.cfg ∈ fr) (h_led : Block.led ∈ fr) (h_rnd : Block.rnd ∈ fr) (h_store : Block.store ∈ fr) (h_seq : Block.seq ∈ fr) (h_link : Block.link ∈ fr) (h_trk : Block.trk ∈ fr) (h_scan : Block.scan ∈ fr) (h_dma : Block.dma ∈ fr) (h_fab : Block.fab ∈ fr) (h_nor : Block.nor ∈ fr) (h_diag : Block.diag ∈ fr) (h_evt : Block.evt ∈ fr) (h_stats : Block.stats ∈ fr) (h_hostMem : Block.hostMem ∈ fr) (h_free : Block.free ∈ fr) (hkp : Only fr s0 s) : Only fr s0 (placeStripe i h stripe resume s) := by
  grind [placeStripe, only_setStripe, only_stripeDone, only_enterFilling, only_upd]

theorem only_runItem {fr : List Block} {s0 : State} (i : Item) {s : State} (h_out : Block.out ∈ fr) (h_win : Block.win ∈ fr) (h_led : Block.led ∈ fr) (h_dma : Block.dma ∈ fr) (h_fab : Block.fab ∈ fr) (h_nor : Block.nor ∈ fr) (h_diag : Block.diag ∈ fr) (h_evt : Block.evt ∈ fr) (h_stats : Block.stats ∈ fr) (h_hostMem : Block.hostMem ∈ fr) (h_free : Block.free ∈ fr) (hkp : Only fr s0 s) : Only fr s0 (runItem i s) := by
  grind [runItem, only_writeRec, only_putItem]

theorem only_startStripe {fr : List Block} {s0 : State} (i : Item) (j : StripeJob) {s : State} (h_out : Block.out ∈ fr) (h_win : Block.win ∈ fr) (h_cfg : Block.cfg ∈ fr) (h_led : Block.led ∈ fr) (h_rnd : Block.rnd ∈ fr) (h_store : Block.store ∈ fr) (h_seq : Block.seq ∈ fr) (h_link : Block.link ∈ fr) (h_trk : Block.trk ∈ fr) (h_scan : Block.scan ∈ fr) (h_dma : Block.dma ∈ fr) (h_fab : Block.fab ∈ fr) (h_nor : Block.nor ∈ fr) (h_diag : Block.diag ∈ fr) (h_evt : Block.evt ∈ fr) (h_stats : Block.stats ∈ fr) (h_hostMem : Block.hostMem ∈ fr) (h_free : Block.free ∈ fr) (hkp : Only fr s0 s) : Only fr s0 (startStripe i j s) := by
  grind [startStripe, only_failStart, only_placeStripe, only_runItem, only_upd]

theorem only_resumeRebuilt {fr : List Block} {s0 : State} (i : Item) (j : StripeJob) {s : State} (h_out : Block.out ∈ fr) (h_win : Block.win ∈ fr) (h_cfg : Block.cfg ∈ fr) (h_led : Block.led ∈ fr) (h_rnd : Block.rnd ∈ fr) (h_store : Block.store ∈ fr) (h_seq : Block.seq ∈ fr) (h_link : Block.link ∈ fr) (h_trk : Block.trk ∈ fr) (h_scan : Block.scan ∈ fr) (h_dma : Block.dma ∈ fr) (h_fab : Block.fab ∈ fr) (h_nor : Block.nor ∈ fr) (h_diag : Block.diag ∈ fr) (h_evt : Block.evt ∈ fr) (h_stats : Block.stats ∈ fr) (h_hostMem : Block.hostMem ∈ fr) (h_free : Block.free ∈ fr) (hkp : Only fr s0 s) : Only fr s0 (resumeRebuilt i j s) := by
  grind [resumeRebuilt, only_placeStripe]

theorem only_registerRegion {fr : List Block} {s0 : State} (j : IngestJob) {s : State} (h_keep : Block.keep ∈ fr) (hkp : Only fr s0 s) : Only fr s0 (registerRegion j s) := by
  grind [registerRegion, only_upd]

theorem only_startSealed {fr : List Block} {s0 : State} (i : Item) (j : IngestJob) (fresh : State → State) {s : State} (h_out : Block.out ∈ fr) (h_win : Block.win ∈ fr) (h_cfg : Block.cfg ∈ fr) (h_led : Block.led ∈ fr) (h_lay : Block.lay ∈ fr) (h_link : Block.link ∈ fr) (h_dma : Block.dma ∈ fr) (h_fab : Block.fab ∈ fr) (h_keep : Block.keep ∈ fr) (h_nor : Block.nor ∈ fr) (h_diag : Block.diag ∈ fr) (h_evt : Block.evt ∈ fr) (h_stats : Block.stats ∈ fr) (h_hostMem : Block.hostMem ∈ fr) (h_free : Block.free ∈ fr) (hkp : Only fr s0 s) (hfresh : ∀ x0, Only fr s0 x0 → Only fr s0 (fresh x0)) : Only fr s0 (startSealed i j fresh s) := by
  grind [startSealed, only_failStart, only_registerRegion, only_failIngest, only_upd]

theorem only_startIngest {fr : List Block} {s0 : State} (i : Item) (p : List Byte) (fresh : State → State) {s : State} (h_out : Block.out ∈ fr) (h_win : Block.win ∈ fr) (h_cfg : Block.cfg ∈ fr) (h_led : Block.led ∈ fr) (h_lay : Block.lay ∈ fr) (h_link : Block.link ∈ fr) (h_dma : Block.dma ∈ fr) (h_fab : Block.fab ∈ fr) (h_keep : Block.keep ∈ fr) (h_nor : Block.nor ∈ fr) (h_diag : Block.diag ∈ fr) (h_evt : Block.evt ∈ fr) (h_stats : Block.stats ∈ fr) (h_hostMem : Block.hostMem ∈ fr) (h_free : Block.free ∈ fr) (hkp : Only fr s0 s) (hfresh : ∀ x0, Only fr s0 x0 → Only fr s0 (fresh x0)) : Only fr s0 (startIngest i p fresh s) := by
  grind [startIngest, only_startSealed, only_upd]

theorem only_startCopyItem {fr : List Block} {s0 : State} (i : Item) (p : List Byte) (fresh : State → State) {s : State} (h_out : Block.out ∈ fr) (h_win : Block.win ∈ fr) (h_cfg : Block.cfg ∈ fr) (h_led : Block.led ∈ fr) (h_link : Block.link ∈ fr) (h_dma : Block.dma ∈ fr) (h_fab : Block.fab ∈ fr) (h_nor : Block.nor ∈ fr) (h_diag : Block.diag ∈ fr) (h_evt : Block.evt ∈ fr) (h_stats : Block.stats ∈ fr) (h_hostMem : Block.hostMem ∈ fr) (h_free : Block.free ∈ fr) (hkp : Only fr s0 s) (hfresh : ∀ x0, Only fr s0 x0 → Only fr s0 (fresh x0)) : Only fr s0 (startCopyItem i p fresh s) := by
  grind [startCopyItem, only_failStart, only_startCopy]

theorem only_startCal {fr : List Block} {s0 : State} (i : Item) (p : List Byte) (fresh : State → State) {s : State} (h_cal : Block.cal ∈ fr) (hkp : Only fr s0 s) (hfresh : ∀ x0, Only fr s0 x0 → Only fr s0 (fresh x0)) : Only fr s0 (startCal i p fresh s) := by
  grind [startCal, only_upd]

theorem only_startKind {fr : List Block} {s0 : State} (i : Item) (p : List Byte) (fresh : State → State) {s : State} (h_out : Block.out ∈ fr) (h_win : Block.win ∈ fr) (h_cfg : Block.cfg ∈ fr) (h_led : Block.led ∈ fr) (h_lay : Block.lay ∈ fr) (h_rnd : Block.rnd ∈ fr) (h_link : Block.link ∈ fr) (h_dma : Block.dma ∈ fr) (h_fab : Block.fab ∈ fr) (h_cal : Block.cal ∈ fr) (h_keep : Block.keep ∈ fr) (h_upd : Block.upd ∈ fr) (h_nor : Block.nor ∈ fr) (h_diag : Block.diag ∈ fr) (h_evt : Block.evt ∈ fr) (h_stats : Block.stats ∈ fr) (h_hostMem : Block.hostMem ∈ fr) (h_free : Block.free ∈ fr) (hkp : Only fr s0 s) (hfresh : ∀ x0, Only fr s0 x0 → Only fr s0 (fresh x0)) : Only fr s0 (startKind i p fresh s) := by
  unfold startKind
  split
  · split
    · exact only_startIngest _ _ _ ‹_› ‹_› ‹_› ‹_› ‹_› ‹_› ‹_› ‹_› ‹_› ‹_› ‹_› ‹_› ‹_› ‹_› ‹_› hkp hfresh
    · exact hkp
  · split
    · exact only_startCensus _ _ _ ‹_› ‹_› ‹_› ‹_› ‹_› ‹_› ‹_› ‹_› ‹_› ‹_› ‹_› ‹_› ‹_› ‹_› ‹_› (hfresh _ hkp)
    · exact hkp
  · split
    · exact only_startBin _ _ _ ‹_› ‹_› ‹_› ‹_› ‹_› ‹_› ‹_› ‹_› ‹_› ‹_› ‹_› ‹_› ‹_› ‹_› (hfresh _ hkp)
    · exact hkp
  · exact only_startCopyItem _ _ _ ‹_› ‹_› ‹_› ‹_› ‹_› ‹_› ‹_› ‹_› ‹_› ‹_› ‹_› ‹_› ‹_› hkp hfresh
  · split
    · exact only_startCal _ _ _ ‹_› hkp hfresh
    · exact hkp
  · cases e : startUpdate i.flow i.seq p (fresh s) with
    | none => exact hkp
    | some v => exact only_startUpdate _ _ _ ‹_› ‹_› ‹_› ‹_› ‹_› ‹_› ‹_› ‹_› ‹_› ‹_› ‹_› ‹_› ‹_› ‹_› (hfresh _ hkp) e
  · exact hkp

theorem only_startHead {fr : List Block} {s0 : State} (i : Item) (p : List Byte) {s : State} (h_out : Block.out ∈ fr) (h_win : Block.win ∈ fr) (h_cfg : Block.cfg ∈ fr) (h_led : Block.led ∈ fr) (h_lay : Block.lay ∈ fr) (h_rnd : Block.rnd ∈ fr) (h_store : Block.store ∈ fr) (h_seq : Block.seq ∈ fr) (h_link : Block.link ∈ fr) (h_trk : Block.trk ∈ fr) (h_scan : Block.scan ∈ fr) (h_dma : Block.dma ∈ fr) (h_fab : Block.fab ∈ fr) (h_cal : Block.cal ∈ fr) (h_keep : Block.keep ∈ fr) (h_upd : Block.upd ∈ fr) (h_nor : Block.nor ∈ fr) (h_diag : Block.diag ∈ fr) (h_evt : Block.evt ∈ fr) (h_stats : Block.stats ∈ fr) (h_hostMem : Block.hostMem ∈ fr) (h_free : Block.free ∈ fr) (hkp : Only fr s0 s) : Only fr s0 (startHead i p s) := by
  grind [startHead, only_startStripe, only_resumeRebuilt, only_startKind, only_runItem]

theorem only_execWorkItemStart {fr : List Block} (f : BitVec 8) {s : State} {t : State} (h_out : Block.out ∈ fr) (h_win : Block.win ∈ fr) (h_cfg : Block.cfg ∈ fr) (h_led : Block.led ∈ fr) (h_lay : Block.lay ∈ fr) (h_rnd : Block.rnd ∈ fr) (h_store : Block.store ∈ fr) (h_seq : Block.seq ∈ fr) (h_link : Block.link ∈ fr) (h_trk : Block.trk ∈ fr) (h_scan : Block.scan ∈ fr) (h_dma : Block.dma ∈ fr) (h_fab : Block.fab ∈ fr) (h_cal : Block.cal ∈ fr) (h_keep : Block.keep ∈ fr) (h_upd : Block.upd ∈ fr) (h_nor : Block.nor ∈ fr) (h_diag : Block.diag ∈ fr) (h_evt : Block.evt ∈ fr) (h_stats : Block.stats ∈ fr) (h_hostMem : Block.hostMem ∈ fr) (h_free : Block.free ∈ fr) (hx : (execWorkItemStart f s) = .next t) : Only fr s t := by
  have h0 := Only.refl fr s
  grind [execWorkItemStart, only_startHead]

theorem only_cancelStripe {fr : List Block} {s0 : State} {s : State} (h_out : Block.out ∈ fr) (h_win : Block.win ∈ fr) (h_cfg : Block.cfg ∈ fr) (h_led : Block.led ∈ fr) (h_rnd : Block.rnd ∈ fr) (h_store : Block.store ∈ fr) (h_seq : Block.seq ∈ fr) (h_link : Block.link ∈ fr) (h_trk : Block.trk ∈ fr) (h_scan : Block.scan ∈ fr) (h_dma : Block.dma ∈ fr) (h_fab : Block.fab ∈ fr) (h_nor : Block.nor ∈ fr) (h_diag : Block.diag ∈ fr) (h_evt : Block.evt ∈ fr) (h_stats : Block.stats ∈ fr) (h_hostMem : Block.hostMem ∈ fr) (h_free : Block.free ∈ fr) (hkp : Only fr s0 s) : Only fr s0 (cancelStripe s) := by
  grind [cancelStripe, only_addCause, only_endStripe, only_boundaryStop]

theorem only_cancelRunning {fr : List Block} {s0 : State} (i : Item) {s : State} (h_out : Block.out ∈ fr) (h_win : Block.win ∈ fr) (h_cfg : Block.cfg ∈ fr) (h_led : Block.led ∈ fr) (h_lay : Block.lay ∈ fr) (h_rnd : Block.rnd ∈ fr) (h_store : Block.store ∈ fr) (h_seq : Block.seq ∈ fr) (h_link : Block.link ∈ fr) (h_trk : Block.trk ∈ fr) (h_scan : Block.scan ∈ fr) (h_dma : Block.dma ∈ fr) (h_fab : Block.fab ∈ fr) (h_cal : Block.cal ∈ fr) (h_upd : Block.upd ∈ fr) (h_nor : Block.nor ∈ fr) (h_diag : Block.diag ∈ fr) (h_evt : Block.evt ∈ fr) (h_stats : Block.stats ∈ fr) (h_hostMem : Block.hostMem ∈ fr) (h_free : Block.free ∈ fr) (hkp : Only fr s0 s) : Only fr s0 (cancelRunning i s) := by
  grind [cancelRunning, only_activateTables, only_failItem, only_dropIngest, only_failCensus, only_stopBin, only_cancelStripe, only_failCopy, only_putItem, only_failUpd, only_upd]

theorem only_cancelItem {fr : List Block} {s0 : State} (i : Item) {s : State} (h_out : Block.out ∈ fr) (h_win : Block.win ∈ fr) (h_cfg : Block.cfg ∈ fr) (h_led : Block.led ∈ fr) (h_lay : Block.lay ∈ fr) (h_rnd : Block.rnd ∈ fr) (h_store : Block.store ∈ fr) (h_seq : Block.seq ∈ fr) (h_link : Block.link ∈ fr) (h_trk : Block.trk ∈ fr) (h_scan : Block.scan ∈ fr) (h_dma : Block.dma ∈ fr) (h_fab : Block.fab ∈ fr) (h_cal : Block.cal ∈ fr) (h_upd : Block.upd ∈ fr) (h_nor : Block.nor ∈ fr) (h_diag : Block.diag ∈ fr) (h_evt : Block.evt ∈ fr) (h_stats : Block.stats ∈ fr) (h_hostMem : Block.hostMem ∈ fr) (h_free : Block.free ∈ fr) (hkp : Only fr s0 s) : Only fr s0 (cancelItem i s) := by
  grind [cancelItem, only_activateTables, only_failItem, only_cancelRunning]

theorem only_duplicate {fr : List Block} {s0 : State} (w : Waiting) (words : List W128) {s : State} (h_out : Block.out ∈ fr) (h_win : Block.win ∈ fr) (h_mb : Block.mb ∈ fr) (h_nor : Block.nor ∈ fr) (h_svc : Block.svc ∈ fr) (h_evt : Block.evt ∈ fr) (h_stats : Block.stats ∈ fr) (h_hostMem : Block.hostMem ∈ fr) (hkp : Only fr s0 s) : Only fr s0 (duplicate w words s) := by
  grind [duplicate, only_finish, only_raise, only_stat]

theorem only_mapAperture {fr : List Block} {s0 : State} (object : Nat) (b : List Byte) {s : State} (h_out : Block.out ∈ fr) (h_aper : Block.aper ∈ fr) (hkp : Only fr s0 s) : Only fr s0 (mapAperture object b s) := by
  grind [mapAperture, only_emit, only_upd]

theorem only_execFlowOpen {fr : List Block} (e : Entry) {s : State} {t : State} (h_out : Block.out ∈ fr) (h_win : Block.win ∈ fr) (h_mb : Block.mb ∈ fr) (h_led : Block.led ∈ fr) (h_dma : Block.dma ∈ fr) (h_fab : Block.fab ∈ fr) (h_nor : Block.nor ∈ fr) (h_svc : Block.svc ∈ fr) (h_diag : Block.diag ∈ fr) (h_evt : Block.evt ∈ fr) (h_stats : Block.stats ∈ fr) (h_hostMem : Block.hostMem ∈ fr) (h_free : Block.free ∈ fr) (hx : (execFlowOpen e s) = .next t) : Only fr s t := by
  have h0 := Only.refl fr s
  grind [execFlowOpen, only_takeUp, only_finish, only_writeRec, only_wait]

theorem only_execFlowClose {fr : List Block} (e : Entry) {s : State} {t : State} (h_out : Block.out ∈ fr) (h_win : Block.win ∈ fr) (h_mb : Block.mb ∈ fr) (h_led : Block.led ∈ fr) (h_dma : Block.dma ∈ fr) (h_fab : Block.fab ∈ fr) (h_nor : Block.nor ∈ fr) (h_svc : Block.svc ∈ fr) (h_diag : Block.diag ∈ fr) (h_evt : Block.evt ∈ fr) (h_stats : Block.stats ∈ fr) (h_hostMem : Block.hostMem ∈ fr) (h_free : Block.free ∈ fr) (hx : (execFlowClose e s) = .next t) : Only fr s t := by
  have h0 := Only.refl fr s
  grind [execFlowClose, only_takeUp, only_finish, only_writeRec, only_wait]

theorem only_refuse {fr : List Block} {s0 : State} (w : Waiting) (x : Submit) (status : Nat) (code : Nat) {s : State} (h_out : Block.out ∈ fr) (h_win : Block.win ∈ fr) (h_mb : Block.mb ∈ fr) (h_nor : Block.nor ∈ fr) (h_svc : Block.svc ∈ fr) (h_evt : Block.evt ∈ fr) (h_stats : Block.stats ∈ fr) (h_hostMem : Block.hostMem ∈ fr) (hkp : Only fr s0 s) : Only fr s0 (refuse w x status code s) := by
  grind [refuse, only_raise, only_stat, only_finish]

theorem only_submitNew {fr : List Block} {s0 : State} (w : Waiting) (x : Submit) {s : State} (h_out : Block.out ∈ fr) (h_win : Block.win ∈ fr) (h_mb : Block.mb ∈ fr) (h_led : Block.led ∈ fr) (h_dma : Block.dma ∈ fr) (h_fab : Block.fab ∈ fr) (h_nor : Block.nor ∈ fr) (h_diag : Block.diag ∈ fr) (h_evt : Block.evt ∈ fr) (h_stats : Block.stats ∈ fr) (h_hostMem : Block.hostMem ∈ fr) (h_free : Block.free ∈ fr) (hkp : Only fr s0 s) : Only fr s0 (submitNew w x s) := by
  grind [submitNew, only_writeRec, only_wait, only_addItem, only_stat]

theorem only_judgeNew {fr : List Block} {s0 : State} (w : Waiting) (x : Submit) {s : State} (h_out : Block.out ∈ fr) (h_win : Block.win ∈ fr) (h_mb : Block.mb ∈ fr) (h_led : Block.led ∈ fr) (h_dma : Block.dma ∈ fr) (h_fab : Block.fab ∈ fr) (h_nor : Block.nor ∈ fr) (h_svc : Block.svc ∈ fr) (h_diag : Block.diag ∈ fr) (h_evt : Block.evt ∈ fr) (h_stats : Block.stats ∈ fr) (h_hostMem : Block.hostMem ∈ fr) (h_free : Block.free ∈ fr) (hkp : Only fr s0 s) : Only fr s0 (judgeNew w x s) := by
  grind [judgeNew, only_refuse, only_raiseBad, only_submitNew]

theorem only_resumeWaiting {fr : List Block} {s0 : State} (w : Waiting) (x : Submit) (i : Item) {s : State} (h_out : Block.out ∈ fr) (h_win : Block.win ∈ fr) (h_mb : Block.mb ∈ fr) (h_led : Block.led ∈ fr) (h_nor : Block.nor ∈ fr) (h_svc : Block.svc ∈ fr) (h_evt : Block.evt ∈ fr) (h_stats : Block.stats ∈ fr) (h_hostMem : Block.hostMem ∈ fr) (hkp : Only fr s0 s) : Only fr s0 (resumeWaiting w x i s) := by
  grind [resumeWaiting, only_refuse, only_raiseBad, only_finish, only_putItem]

theorem only_resumeStopped {fr : List Block} {s0 : State} (w : Waiting) (x : Submit) (i : Item) {s : State} (h_out : Block.out ∈ fr) (h_win : Block.win ∈ fr) (h_mb : Block.mb ∈ fr) (h_led : Block.led ∈ fr) (h_seq : Block.seq ∈ fr) (h_dma : Block.dma ∈ fr) (h_fab : Block.fab ∈ fr) (h_nor : Block.nor ∈ fr) (h_svc : Block.svc ∈ fr) (h_diag : Block.diag ∈ fr) (h_evt : Block.evt ∈ fr) (h_stats : Block.stats ∈ fr) (h_hostMem : Block.hostMem ∈ fr) (h_free : Block.free ∈ fr) (hkp : Only fr s0 s) : Only fr s0 (resumeStopped w x i s) := by
  grind [resumeStopped, only_progressRec, only_finish, only_upd]

theorem only_supplyBlock {fr : List Block} {s0 : State} (i : Item) (x : Submit) {s : State} (h_led : Block.led ∈ fr) (hkp : Only fr s0 s) : Only fr s0 (supplyBlock i x s) := by
  grind [supplyBlock, only_putItem]

theorem only_judgeOld {fr : List Block} {s0 : State} (w : Waiting) (x : Submit) (i : Item) {s : State} (h_out : Block.out ∈ fr) (h_win : Block.win ∈ fr) (h_mb : Block.mb ∈ fr) (h_led : Block.led ∈ fr) (h_seq : Block.seq ∈ fr) (h_dma : Block.dma ∈ fr) (h_fab : Block.fab ∈ fr) (h_nor : Block.nor ∈ fr) (h_svc : Block.svc ∈ fr) (h_diag : Block.diag ∈ fr) (h_evt : Block.evt ∈ fr) (h_stats : Block.stats ∈ fr) (h_hostMem : Block.hostMem ∈ fr) (h_free : Block.free ∈ fr) (hkp : Only fr s0 s) : Only fr s0 (judgeOld w x i s) := by
  grind [judgeOld, only_finish, only_raise, only_stat, only_resumeWaiting, only_resumeStopped, only_duplicate, only_supplyBlock]

theorem only_judgeUnknown {fr : List Block} {s0 : State} (w : Waiting) (x : Submit) {s : State} (h_out : Block.out ∈ fr) (h_win : Block.win ∈ fr) (h_mb : Block.mb ∈ fr) (h_svc : Block.svc ∈ fr) (h_stats : Block.stats ∈ fr) (h_hostMem : Block.hostMem ∈ fr) (h_free : Block.free ∈ fr) (hkp : Only fr s0 s) : Only fr s0 (judgeUnknown w x s) := by
  grind [judgeUnknown, only_takeFree, only_finish, → only_takeFree_eq]

theorem only_judgeSubmit {fr : List Block} {s0 : State} (w : Waiting) (x : Submit) {s : State} (h_out : Block.out ∈ fr) (h_win : Block.win ∈ fr) (h_mb : Block.mb ∈ fr) (h_led : Block.led ∈ fr) (h_seq : Block.seq ∈ fr) (h_dma : Block.dma ∈ fr) (h_fab : Block.fab ∈ fr) (h_nor : Block.nor ∈ fr) (h_svc : Block.svc ∈ fr) (h_diag : Block.diag ∈ fr) (h_evt : Block.evt ∈ fr) (h_stats : Block.stats ∈ fr) (h_hostMem : Block.hostMem ∈ fr) (h_free : Block.free ∈ fr) (hkp : Only fr s0 s) : Only fr s0 (judgeSubmit w x s) := by
  grind [judgeSubmit, only_refuse, only_judgeNew, only_finish, only_stat, only_judgeOld, only_duplicate, only_judgeUnknown]

theorem only_execWorkSubmit {fr : List Block} (e : Entry) {s : State} {t : State} (h_out : Block.out ∈ fr) (h_win : Block.win ∈ fr) (h_mb : Block.mb ∈ fr) (h_led : Block.led ∈ fr) (h_seq : Block.seq ∈ fr) (h_dma : Block.dma ∈ fr) (h_fab : Block.fab ∈ fr) (h_nor : Block.nor ∈ fr) (h_svc : Block.svc ∈ fr) (h_diag : Block.diag ∈ fr) (h_evt : Block.evt ∈ fr) (h_stats : Block.stats ∈ fr) (h_hostMem : Block.hostMem ∈ fr) (h_free : Block.free ∈ fr) (hx : (execWorkSubmit e s) = .next t) : Only fr s t := by
  have h0 := Only.refl fr s
  grind [execWorkSubmit, only_takeUp, only_readBuffer, only_finish, only_judgeSubmit, → only_readBuffer_eq]

theorem only_execWorkCancel {fr : List Block} (e : Entry) {s : State} {t : State} (h_out : Block.out ∈ fr) (h_win : Block.win ∈ fr) (h_mb : Block.mb ∈ fr) (h_cfg : Block.cfg ∈ fr) (h_led : Block.led ∈ fr) (h_lay : Block.lay ∈ fr) (h_rnd : Block.rnd ∈ fr) (h_store : Block.store ∈ fr) (h_seq : Block.seq ∈ fr) (h_link : Block.link ∈ fr) (h_trk : Block.trk ∈ fr) (h_scan : Block.scan ∈ fr) (h_dma : Block.dma ∈ fr) (h_fab : Block.fab ∈ fr) (h_cal : Block.cal ∈ fr) (h_upd : Block.upd ∈ fr) (h_nor : Block.nor ∈ fr) (h_svc : Block.svc ∈ fr) (h_diag : Block.diag ∈ fr) (h_evt : Block.evt ∈ fr) (h_stats : Block.stats ∈ fr) (h_hostMem : Block.hostMem ∈ fr) (h_free : Block.free ∈ fr) (hx : (execWorkCancel e s) = .next t) : Only fr s t := by
  have h0 := Only.refl fr s
  grind [execWorkCancel, only_takeUp, only_finish, only_wait, only_cancelItem, only_judgeUnknown]

theorem only_execWorkQuery {fr : List Block} (e : Entry) {s : State} {t : State} (h_out : Block.out ∈ fr) (h_win : Block.win ∈ fr) (h_mb : Block.mb ∈ fr) (h_nor : Block.nor ∈ fr) (h_svc : Block.svc ∈ fr) (h_evt : Block.evt ∈ fr) (h_stats : Block.stats ∈ fr) (h_hostMem : Block.hostMem ∈ fr) (h_free : Block.free ∈ fr) (hx : (execWorkQuery e s) = .next t) : Only fr s t := by
  have h0 := Only.refl fr s
  grind [execWorkQuery, only_takeUp, only_finish, only_judgeUnknown]

theorem only_refinal {fr : List Block} {s0 : State} (a0 : List Item) {a1 : State} (h_out : Block.out ∈ fr) (h_win : Block.win ∈ fr) (h_led : Block.led ∈ fr) (h_dma : Block.dma ∈ fr) (h_fab : Block.fab ∈ fr) (h_nor : Block.nor ∈ fr) (h_diag : Block.diag ∈ fr) (h_evt : Block.evt ∈ fr) (h_stats : Block.stats ∈ fr) (h_hostMem : Block.hostMem ∈ fr) (h_free : Block.free ∈ fr) (hkp : Only fr s0 a1) : Only fr s0 (refinal a0 a1) := by
  fun_induction refinal a0 a1 <;> grind [only_writeRec, only_putItem, only_upd]

theorem only_witnessCopied {fr : List Block} {s0 : State} {s : State} (h_out : Block.out ∈ fr) (h_win : Block.win ∈ fr) (h_mb : Block.mb ∈ fr) (h_led : Block.led ∈ fr) (h_dma : Block.dma ∈ fr) (h_fab : Block.fab ∈ fr) (h_nor : Block.nor ∈ fr) (h_svc : Block.svc ∈ fr) (h_diag : Block.diag ∈ fr) (h_evt : Block.evt ∈ fr) (h_stats : Block.stats ∈ fr) (h_hostMem : Block.hostMem ∈ fr) (h_free : Block.free ∈ fr) (hkp : Only fr s0 s) : Only fr s0 (witnessCopied s) := by
  grind [witnessCopied, only_settle, only_storeWitness, only_raise, only_refinal, only_upd]

theorem only_execLedgerSetWitness {fr : List Block} (e : Entry) (stored : Bool) {s : State} {t : State} (h_out : Block.out ∈ fr) (h_win : Block.win ∈ fr) (h_mb : Block.mb ∈ fr) (h_led : Block.led ∈ fr) (h_dma : Block.dma ∈ fr) (h_fab : Block.fab ∈ fr) (h_nor : Block.nor ∈ fr) (h_svc : Block.svc ∈ fr) (h_diag : Block.diag ∈ fr) (h_evt : Block.evt ∈ fr) (h_stats : Block.stats ∈ fr) (h_hostMem : Block.hostMem ∈ fr) (h_free : Block.free ∈ fr) (hx : (execLedgerSetWitness e stored s) = .next t) : Only fr s t := by
  have h0 := Only.refl fr s
  grind [execLedgerSetWitness, only_takeUp, only_finish, only_resendTo, only_wait, only_witnessCopied, only_upd]

theorem only_execLedgerCheckpoint {fr : List Block} (e : Entry) {s : State} {t : State} (h_out : Block.out ∈ fr) (h_win : Block.win ∈ fr) (h_mb : Block.mb ∈ fr) (h_led : Block.led ∈ fr) (h_dma : Block.dma ∈ fr) (h_fab : Block.fab ∈ fr) (h_nor : Block.nor ∈ fr) (h_svc : Block.svc ∈ fr) (h_diag : Block.diag ∈ fr) (h_evt : Block.evt ∈ fr) (h_stats : Block.stats ∈ fr) (h_hostMem : Block.hostMem ∈ fr) (h_free : Block.free ∈ fr) (hx : (execLedgerCheckpoint e s) = .next t) : Only fr s t := by
  have h0 := Only.refl fr s
  grind [execLedgerCheckpoint, only_takeUp, only_finish, only_writeRec, only_applyFloor, only_wait]

theorem only_execLedgerRead {fr : List Block} (e : Entry) {s : State} {t : State} (h_out : Block.out ∈ fr) (h_win : Block.win ∈ fr) (h_mb : Block.mb ∈ fr) (h_nor : Block.nor ∈ fr) (h_svc : Block.svc ∈ fr) (h_aper : Block.aper ∈ fr) (h_evt : Block.evt ∈ fr) (h_stats : Block.stats ∈ fr) (h_hostMem : Block.hostMem ∈ fr) (hx : (execLedgerRead e s) = .next t) : Only fr s t := by
  have h0 := Only.refl fr s
  grind [execLedgerRead, only_takeUp, only_finish, only_mapAperture]

theorem only_execAcceptTimeout {fr : List Block} (f : BitVec 8) {s : State} {t : State} (h_out : Block.out ∈ fr) (h_win : Block.win ∈ fr) (h_mb : Block.mb ∈ fr) (h_led : Block.led ∈ fr) (h_dma : Block.dma ∈ fr) (h_fab : Block.fab ∈ fr) (h_nor : Block.nor ∈ fr) (h_svc : Block.svc ∈ fr) (h_diag : Block.diag ∈ fr) (h_evt : Block.evt ∈ fr) (h_stats : Block.stats ∈ fr) (h_hostMem : Block.hostMem ∈ fr) (h_free : Block.free ∈ fr) (hx : (execAcceptTimeout f s) = .next t) : Only fr s t := by
  have h0 := Only.refl fr s
  grind [execAcceptTimeout, only_withdraw, only_refuseSubmitted, only_stat, only_settle]

theorem only_execWitnessReadbackDone {fr : List Block} (unchanged : Bool) {s : State} {t : State} (h_out : Block.out ∈ fr) (h_win : Block.win ∈ fr) (h_mb : Block.mb ∈ fr) (h_cfg : Block.cfg ∈ fr) (h_led : Block.led ∈ fr) (h_link : Block.link ∈ fr) (h_scan : Block.scan ∈ fr) (h_dma : Block.dma ∈ fr) (h_fab : Block.fab ∈ fr) (h_nor : Block.nor ∈ fr) (h_svc : Block.svc ∈ fr) (h_diag : Block.diag ∈ fr) (h_evt : Block.evt ∈ fr) (h_stats : Block.stats ∈ fr) (h_hostMem : Block.hostMem ∈ fr) (h_free : Block.free ∈ fr) (hx : (execWitnessReadbackDone unchanged s) = .next t) : Only fr s t := by
  have h0 := Only.refl fr s
  grind [execWitnessReadbackDone, only_activateTables, only_handoverStep, only_ackUpTo, only_witnessCopied]

theorem only_execWitnessResendTimeout {fr : List Block} {s : State} {t : State} (h_out : Block.out ∈ fr) (h_fab : Block.fab ∈ fr) (h_diag : Block.diag ∈ fr) (h_stats : Block.stats ∈ fr) (hx : (execWitnessResendTimeout s) = .next t) : Only fr s t := by
  have h0 := Only.refl fr s
  grind [execWitnessResendTimeout, only_sendAlternate, only_stat]

theorem only_witnessRefused {fr : List Block} {s0 : State} {s : State} (h_out : Block.out ∈ fr) (h_win : Block.win ∈ fr) (h_mb : Block.mb ∈ fr) (h_led : Block.led ∈ fr) (h_svc : Block.svc ∈ fr) (h_stats : Block.stats ∈ fr) (h_hostMem : Block.hostMem ∈ fr) (hkp : Only fr s0 s) : Only fr s0 (witnessRefused s) := by
  grind [witnessRefused, only_settle, only_upd]

theorem only_execWitnessLost {fr : List Block} {s : State} {t : State} (h_out : Block.out ∈ fr) (h_win : Block.win ∈ fr) (h_mb : Block.mb ∈ fr) (h_led : Block.led ∈ fr) (h_dma : Block.dma ∈ fr) (h_fab : Block.fab ∈ fr) (h_nor : Block.nor ∈ fr) (h_svc : Block.svc ∈ fr) (h_diag : Block.diag ∈ fr) (h_evt : Block.evt ∈ fr) (h_stats : Block.stats ∈ fr) (h_hostMem : Block.hostMem ∈ fr) (h_free : Block.free ∈ fr) (hx : (execWitnessLost s) = .next t) : Only fr s t := by
  have h0 := Only.refl fr s
  grind [execWitnessLost, only_witnessRefused, only_loseWitness]

theorem only_execWitnessRetry {fr : List Block} (answered : Bool) {s : State} {t : State} (h_out : Block.out ∈ fr) (h_win : Block.win ∈ fr) (h_led : Block.led ∈ fr) (h_dma : Block.dma ∈ fr) (h_fab : Block.fab ∈ fr) (h_nor : Block.nor ∈ fr) (h_diag : Block.diag ∈ fr) (h_evt : Block.evt ∈ fr) (h_stats : Block.stats ∈ fr) (h_hostMem : Block.hostMem ∈ fr) (h_free : Block.free ∈ fr) (hx : (execWitnessRetry answered s) = .next t) : Only fr s t := by
  have h0 := Only.refl fr s
  grind [execWitnessRetry, only_restoreWitness]

theorem only_execProgressTimer {fr : List Block} {s : State} {t : State} (h_out : Block.out ∈ fr) (h_win : Block.win ∈ fr) (h_led : Block.led ∈ fr) (h_dma : Block.dma ∈ fr) (h_fab : Block.fab ∈ fr) (h_nor : Block.nor ∈ fr) (h_diag : Block.diag ∈ fr) (h_evt : Block.evt ∈ fr) (h_stats : Block.stats ∈ fr) (h_hostMem : Block.hostMem ∈ fr) (h_free : Block.free ∈ fr) (hx : (execProgressTimer s) = .next t) : Only fr s t := by
  have h0 := Only.refl fr s
  grind [execProgressTimer, only_progressRec]

theorem only_execLedgerRebuild {fr : List Block} (recs : List (BitVec 512)) {s : State} {t : State} (h_out : Block.out ∈ fr) (h_pm : Block.pm ∈ fr) (h_win : Block.win ∈ fr) (h_led : Block.led ∈ fr) (h_nor : Block.nor ∈ fr) (h_evt : Block.evt ∈ fr) (h_stats : Block.stats ∈ fr) (h_hostMem : Block.hostMem ∈ fr) (hx : (execLedgerRebuild recs s) = .next t) : Only fr s t := by
  have h0 := Only.refl fr s
  grind [execLedgerRebuild, only_rebuildLedger]

theorem only_posCfgChanged {fr : List Block} {s0 : State} (idx : Nat) (v : W128) (old : State) {s : State} (h_scan : Block.scan ∈ fr) (hkp : Only fr s0 s) : Only fr s0 (posCfgChanged idx v old s) := by
  grind [posCfgChanged, only_loseHome]

theorem only_applyItem {fr : List Block} {s0 : State} (item : Nat) (idx : Nat) (v : W128) {s : State} (h_out : Block.out ∈ fr) (h_win : Block.win ∈ fr) (h_cfg : Block.cfg ∈ fr) (h_rnd : Block.rnd ∈ fr) (h_link : Block.link ∈ fr) (h_scan : Block.scan ∈ fr) (h_fab : Block.fab ∈ fr) (h_nor : Block.nor ∈ fr) (h_diag : Block.diag ∈ fr) (h_evt : Block.evt ∈ fr) (h_stats : Block.stats ∈ fr) (h_hostMem : Block.hostMem ∈ fr) (hkp : Only fr s0 s) : Only fr s0 (applyItem item idx v s) := by
  grind [applyItem, only_activateTables, only_stageItem, only_raise, only_posCfgChanged, only_setItem, only_offloadStep]

theorem only_setRenderParams {fr : List Block} {s0 : State} (w : Waiting) (l : List Byte) {s : State} (h_out : Block.out ∈ fr) (h_win : Block.win ∈ fr) (h_mb : Block.mb ∈ fr) (h_cfg : Block.cfg ∈ fr) (h_link : Block.link ∈ fr) (h_nor : Block.nor ∈ fr) (h_svc : Block.svc ∈ fr) (h_evt : Block.evt ∈ fr) (h_stats : Block.stats ∈ fr) (h_hostMem : Block.hostMem ∈ fr) (hkp : Only fr s0 s) : Only fr s0 (setRenderParams w l s) := by
  grind [setRenderParams, only_finish, only_raise, only_activateTables, only_upd]

theorem only_setInline {fr : List Block} {s0 : State} (w : Waiting) (item : Nat) (idx : Nat) (v : W128) {s : State} (h_out : Block.out ∈ fr) (h_win : Block.win ∈ fr) (h_mb : Block.mb ∈ fr) (h_cfg : Block.cfg ∈ fr) (h_rnd : Block.rnd ∈ fr) (h_link : Block.link ∈ fr) (h_scan : Block.scan ∈ fr) (h_fab : Block.fab ∈ fr) (h_nor : Block.nor ∈ fr) (h_svc : Block.svc ∈ fr) (h_diag : Block.diag ∈ fr) (h_evt : Block.evt ∈ fr) (h_stats : Block.stats ∈ fr) (h_hostMem : Block.hostMem ∈ fr) (hkp : Only fr s0 s) : Only fr s0 (setInline w item idx v s) := by
  grind [setInline, only_applyItem, only_finish]

theorem only_execCfgSet {fr : List Block} (e : Entry) {s : State} {t : State} (h_out : Block.out ∈ fr) (h_win : Block.win ∈ fr) (h_mb : Block.mb ∈ fr) (h_cfg : Block.cfg ∈ fr) (h_rnd : Block.rnd ∈ fr) (h_link : Block.link ∈ fr) (h_scan : Block.scan ∈ fr) (h_dma : Block.dma ∈ fr) (h_fab : Block.fab ∈ fr) (h_nor : Block.nor ∈ fr) (h_svc : Block.svc ∈ fr) (h_diag : Block.diag ∈ fr) (h_evt : Block.evt ∈ fr) (h_stats : Block.stats ∈ fr) (h_hostMem : Block.hostMem ∈ fr) (h_free : Block.free ∈ fr) (hx : (execCfgSet e s) = .next t) : Only fr s t := by
  have h0 := Only.refl fr s
  grind [execCfgSet, only_takeUp, only_finish, only_readBuffer, only_setRenderParams, only_setInline, → only_readBuffer_eq]

theorem only_execCfgGet {fr : List Block} (e : Entry) {s : State} {t : State} (h_out : Block.out ∈ fr) (h_win : Block.win ∈ fr) (h_mb : Block.mb ∈ fr) (h_nor : Block.nor ∈ fr) (h_svc : Block.svc ∈ fr) (h_evt : Block.evt ∈ fr) (h_stats : Block.stats ∈ fr) (h_hostMem : Block.hostMem ∈ fr) (hx : (execCfgGet e s) = .next t) : Only fr s t := by
  have h0 := Only.refl fr s
  grind [execCfgGet, only_takeUp, only_finish]

theorem only_execCfgCommit {fr : List Block} (e : Entry) (verified : Bool) {s : State} {t : State} (h_out : Block.out ∈ fr) (h_win : Block.win ∈ fr) (h_mb : Block.mb ∈ fr) (h_nor : Block.nor ∈ fr) (h_svc : Block.svc ∈ fr) (h_evt : Block.evt ∈ fr) (h_stats : Block.stats ∈ fr) (h_hostMem : Block.hostMem ∈ fr) (hx : (execCfgCommit e verified s) = .next t) : Only fr s t := by
  have h0 := Only.refl fr s
  grind [execCfgCommit, only_takeUp, only_finish, only_raise, only_upd]

theorem only_loadBeamTable {fr : List Block} {s0 : State} (w : Waiting) (l : List Byte) (crc : BitVec 32) {s : State} (h_out : Block.out ∈ fr) (h_win : Block.win ∈ fr) (h_mb : Block.mb ∈ fr) (h_cfg : Block.cfg ∈ fr) (h_link : Block.link ∈ fr) (h_nor : Block.nor ∈ fr) (h_svc : Block.svc ∈ fr) (h_evt : Block.evt ∈ fr) (h_stats : Block.stats ∈ fr) (h_hostMem : Block.hostMem ∈ fr) (hkp : Only fr s0 s) : Only fr s0 (loadBeamTable w l crc s) := by
  grind [loadBeamTable, only_finish, only_raise, only_activateTables, only_upd]

theorem only_execCfgLoadBeamTable {fr : List Block} (e : Entry) {s : State} {t : State} (h_out : Block.out ∈ fr) (h_win : Block.win ∈ fr) (h_mb : Block.mb ∈ fr) (h_cfg : Block.cfg ∈ fr) (h_link : Block.link ∈ fr) (h_dma : Block.dma ∈ fr) (h_nor : Block.nor ∈ fr) (h_svc : Block.svc ∈ fr) (h_diag : Block.diag ∈ fr) (h_evt : Block.evt ∈ fr) (h_stats : Block.stats ∈ fr) (h_hostMem : Block.hostMem ∈ fr) (h_free : Block.free ∈ fr) (hx : (execCfgLoadBeamTable e s) = .next t) : Only fr s t := by
  have h0 := Only.refl fr s
  grind [execCfgLoadBeamTable, only_takeUp, only_readBuffer, only_finish, only_loadBeamTable, → only_readBuffer_eq]

theorem only_loadLayerMap {fr : List Block} {s0 : State} (w : Waiting) (l : List Byte) (crc : BitVec 32) {s : State} (h_out : Block.out ∈ fr) (h_win : Block.win ∈ fr) (h_mb : Block.mb ∈ fr) (h_cfg : Block.cfg ∈ fr) (h_link : Block.link ∈ fr) (h_nor : Block.nor ∈ fr) (h_svc : Block.svc ∈ fr) (h_evt : Block.evt ∈ fr) (h_stats : Block.stats ∈ fr) (h_hostMem : Block.hostMem ∈ fr) (hkp : Only fr s0 s) : Only fr s0 (loadLayerMap w l crc s) := by
  grind [loadLayerMap, only_finish, only_raise, only_activateTables, only_upd]

theorem only_execCfgLoadLayerMap {fr : List Block} (e : Entry) {s : State} {t : State} (h_out : Block.out ∈ fr) (h_win : Block.win ∈ fr) (h_mb : Block.mb ∈ fr) (h_cfg : Block.cfg ∈ fr) (h_link : Block.link ∈ fr) (h_dma : Block.dma ∈ fr) (h_nor : Block.nor ∈ fr) (h_svc : Block.svc ∈ fr) (h_diag : Block.diag ∈ fr) (h_evt : Block.evt ∈ fr) (h_stats : Block.stats ∈ fr) (h_hostMem : Block.hostMem ∈ fr) (h_free : Block.free ∈ fr) (hx : (execCfgLoadLayerMap e s) = .next t) : Only fr s t := by
  have h0 := Only.refl fr s
  grind [execCfgLoadLayerMap, only_takeUp, only_readBuffer, only_finish, only_loadLayerMap, → only_readBuffer_eq]

theorem only_execDevIdentify {fr : List Block} (e : Entry) {s : State} {t : State} (h_out : Block.out ∈ fr) (h_win : Block.win ∈ fr) (h_mb : Block.mb ∈ fr) (h_nor : Block.nor ∈ fr) (h_svc : Block.svc ∈ fr) (h_evt : Block.evt ∈ fr) (h_stats : Block.stats ∈ fr) (h_hostMem : Block.hostMem ∈ fr) (hx : (execDevIdentify e s) = .next t) : Only fr s t := by
  have h0 := Only.refl fr s
  grind [execDevIdentify, only_takeUp, only_finish]

theorem only_execDevSetMode {fr : List Block} (e : Entry) {s : State} {t : State} (h_out : Block.out ∈ fr) (h_pm : Block.pm ∈ fr) (h_win : Block.win ∈ fr) (h_mb : Block.mb ∈ fr) (h_link : Block.link ∈ fr) (h_nor : Block.nor ∈ fr) (h_svc : Block.svc ∈ fr) (h_evt : Block.evt ∈ fr) (h_stats : Block.stats ∈ fr) (h_hostMem : Block.hostMem ∈ fr) (hx : (execDevSetMode e s) = .next t) : Only fr s t := by
  have h0 := Only.refl fr s
  grind [execDevSetMode, only_takeUp, only_finish, only_beginChange, only_wait]

theorem only_execDevGetStatus {fr : List Block} (e : Entry) {s : State} {t : State} (h_out : Block.out ∈ fr) (h_win : Block.win ∈ fr) (h_mb : Block.mb ∈ fr) (h_nor : Block.nor ∈ fr) (h_svc : Block.svc ∈ fr) (h_evt : Block.evt ∈ fr) (h_stats : Block.stats ∈ fr) (h_hostMem : Block.hostMem ∈ fr) (hx : (execDevGetStatus e s) = .next t) : Only fr s t := by
  have h0 := Only.refl fr s
  grind [execDevGetStatus, only_takeUp, only_finish]

theorem only_giveReadback {fr : List Block} {s0 : State} (w : Waiting) (obj : Nat) (size : Nat) (b : List Byte) {s : State} (h_out : Block.out ∈ fr) (h_win : Block.win ∈ fr) (h_mb : Block.mb ∈ fr) (h_svc : Block.svc ∈ fr) (h_aper : Block.aper ∈ fr) (h_stats : Block.stats ∈ fr) (h_hostMem : Block.hostMem ∈ fr) (h_free : Block.free ∈ fr) (hkp : Only fr s0 s) : Only fr s0 (giveReadback w obj size b s) := by
  grind [giveReadback, only_emit, only_finish, only_mapAperture, only_upd]

theorem only_execDevReadback {fr : List Block} (e : Entry) {s : State} {t : State} (h_out : Block.out ∈ fr) (h_win : Block.win ∈ fr) (h_mb : Block.mb ∈ fr) (h_nor : Block.nor ∈ fr) (h_svc : Block.svc ∈ fr) (h_aper : Block.aper ∈ fr) (h_evt : Block.evt ∈ fr) (h_stats : Block.stats ∈ fr) (h_hostMem : Block.hostMem ∈ fr) (h_free : Block.free ∈ fr) (hx : (execDevReadback e s) = .next t) : Only fr s t := by
  have h0 := Only.refl fr s
  grind [execDevReadback, only_takeUp, only_finish, only_giveReadback]

theorem only_execDevReset {fr : List Block} (e : Entry) {s : State} {t : State} (h_out : Block.out ∈ fr) (h_pm : Block.pm ∈ fr) (h_win : Block.win ∈ fr) (h_mb : Block.mb ∈ fr) (h_nor : Block.nor ∈ fr) (h_svc : Block.svc ∈ fr) (h_evt : Block.evt ∈ fr) (h_stats : Block.stats ∈ fr) (h_hostMem : Block.hostMem ∈ fr) (hx : (execDevReset e s) = .next t) : Only fr s t := by
  have h0 := Only.refl fr s
  grind [execDevReset, only_takeUp, only_finish, only_raise, only_upd]

theorem only_sourceLost {fr : List Block} {s0 : State} (b : Fin 4) {s : State} (h_out : Block.out ∈ fr) (h_time : Block.time ∈ fr) (h_win : Block.win ∈ fr) (h_nor : Block.nor ∈ fr) (h_evt : Block.evt ∈ fr) (h_stats : Block.stats ∈ fr) (h_hostMem : Block.hostMem ∈ fr) (hkp : Only fr s0 s) : Only fr s0 (sourceLost b s) := by
  grind [sourceLost, only_deriveSt, only_raise, only_setBase]

theorem only_afterPort {fr : List Block} {s0 : State} (p : Fin 8) (was : State) {s : State} (h_out : Block.out ∈ fr) (h_time : Block.time ∈ fr) (h_win : Block.win ∈ fr) (h_nor : Block.nor ∈ fr) (h_evt : Block.evt ∈ fr) (h_stats : Block.stats ∈ fr) (h_hostMem : Block.hostMem ∈ fr) (hkp : Only fr s0 s) : Only fr s0 (afterPort p was s) := by
  grind [afterPort, only_sourceLost]

theorem only_sendHello {fr : List Block} {s0 : State} (p : Fin 8) {s : State} (h_out : Block.out ∈ fr) (h_fab : Block.fab ∈ fr) (hkp : Only fr s0 s) : Only fr s0 (sendHello p s) := by
  grind [sendHello, only_emit, only_upd]

theorem only_sendTrain {fr : List Block} {s0 : State} (p : Fin 8) (a1 : List Nat) {a2 : State} (h_out : Block.out ∈ fr) (hkp : Only fr s0 a2) : Only fr s0 (sendTrain p a1 a2) := by
  fun_induction sendTrain p a1 a2 <;> grind [only_emit, only_upd]

theorem only_startTraining {fr : List Block} {s0 : State} (p : Fin 8) {s : State} (h_out : Block.out ∈ fr) (h_fab : Block.fab ∈ fr) (hkp : Only fr s0 s) : Only fr s0 (startTraining p s) := by
  grind [startTraining, only_sendHello, only_sendTrain, only_setPort]

theorem only_portGone {fr : List Block} {s0 : State} (p : Fin 8) {s : State} (h_out : Block.out ∈ fr) (h_time : Block.time ∈ fr) (h_win : Block.win ∈ fr) (h_fab : Block.fab ∈ fr) (h_nor : Block.nor ∈ fr) (h_diag : Block.diag ∈ fr) (h_evt : Block.evt ∈ fr) (h_stats : Block.stats ∈ fr) (h_hostMem : Block.hostMem ∈ fr) (hkp : Only fr s0 s) : Only fr s0 (portGone p s) := by
  grind [portGone, only_portDown, only_sourceLost]

theorem only_execPortTrainStart {fr : List Block} (p : Fin 8) {s : State} {t : State} (h_out : Block.out ∈ fr) (h_fab : Block.fab ∈ fr) (hx : (execPortTrainStart p s) = .next t) : Only fr s t := by
  have h0 := Only.refl fr s
  grind [execPortTrainStart, only_startTraining]

theorem only_execPortTrainingTimeout {fr : List Block} (p : Fin 8) {s : State} {t : State} (h_fab : Block.fab ∈ fr) (hx : (execPortTrainingTimeout p s) = .next t) : Only fr s t := by
  have h0 := Only.refl fr s
  grind [execPortTrainingTimeout, only_setPort]

theorem only_execPortRetry {fr : List Block} (p : Fin 8) {s : State} {t : State} (h_out : Block.out ∈ fr) (h_fab : Block.fab ∈ fr) (hx : (execPortRetry p s) = .next t) : Only fr s t := by
  have h0 := Only.refl fr s
  grind [execPortRetry, only_startTraining]

theorem only_execFabPortDown {fr : List Block} (p : Fin 8) {s : State} {t : State} (h_out : Block.out ∈ fr) (h_time : Block.time ∈ fr) (h_win : Block.win ∈ fr) (h_fab : Block.fab ∈ fr) (h_nor : Block.nor ∈ fr) (h_diag : Block.diag ∈ fr) (h_evt : Block.evt ∈ fr) (h_stats : Block.stats ∈ fr) (h_hostMem : Block.hostMem ∈ fr) (hx : (execFabPortDown p s) = .next t) : Only fr s t := by
  have h0 := Only.refl fr s
  grind [execFabPortDown, only_portGone]

theorem only_takeLinkAck {fr : List Block} {s0 : State} (p : Fin 8) (c : Fin 4) (seq : Nat) (code : Nat) {s : State} (h_out : Block.out ∈ fr) (h_time : Block.time ∈ fr) (h_win : Block.win ∈ fr) (h_fab : Block.fab ∈ fr) (h_nor : Block.nor ∈ fr) (h_diag : Block.diag ∈ fr) (h_evt : Block.evt ∈ fr) (h_stats : Block.stats ∈ fr) (h_hostMem : Block.hostMem ∈ fr) (hkp : Only fr s0 s) : Only fr s0 (takeLinkAck p c seq code s) := by
  grind [takeLinkAck, only_afterPort, only_violationAck, only_setPClass, only_retransmit]

theorem only_execLinkAck {fr : List Block} (p : Fin 8) (block : BitVec 64) {s : State} {t : State} (h_out : Block.out ∈ fr) (h_time : Block.time ∈ fr) (h_win : Block.win ∈ fr) (h_fab : Block.fab ∈ fr) (h_nor : Block.nor ∈ fr) (h_diag : Block.diag ∈ fr) (h_evt : Block.evt ∈ fr) (h_stats : Block.stats ∈ fr) (h_hostMem : Block.hostMem ∈ fr) (hx : (execLinkAck p block s) = .next t) : Only fr s t := by
  have h0 := Only.refl fr s
  grind [execLinkAck, only_afterPort, only_violationAck, only_takeLinkAck]

theorem only_execCredit {fr : List Block} (p : Fin 8) (block : BitVec 64) {s : State} {t : State} (h_out : Block.out ∈ fr) (h_time : Block.time ∈ fr) (h_win : Block.win ∈ fr) (h_fab : Block.fab ∈ fr) (h_nor : Block.nor ∈ fr) (h_diag : Block.diag ∈ fr) (h_evt : Block.evt ∈ fr) (h_stats : Block.stats ∈ fr) (h_hostMem : Block.hostMem ∈ fr) (hx : (execCredit p block s) = .next t) : Only fr s t := by
  have h0 := Only.refl fr s
  unfold execCredit at hx
  (repeat' split at hx) <;> grind [only_afterPort, only_violationAck, only_drainQueue, only_setPort, only_upd]

theorem only_execSporeAckTimeout {fr : List Block} (p : Fin 8) (cls : Fin 4) {s : State} {t : State} (h_out : Block.out ∈ fr) (h_time : Block.time ∈ fr) (h_win : Block.win ∈ fr) (h_fab : Block.fab ∈ fr) (h_nor : Block.nor ∈ fr) (h_diag : Block.diag ∈ fr) (h_evt : Block.evt ∈ fr) (h_stats : Block.stats ∈ fr) (h_hostMem : Block.hostMem ∈ fr) (hx : (execSporeAckTimeout p cls s) = .next t) : Only fr s t := by
  have h0 := Only.refl fr s
  grind [execSporeAckTimeout, only_afterPort, only_retransmit]

theorem only_execCreditReturnTimer {fr : List Block} (p : Fin 8) {s : State} {t : State} (h_out : Block.out ∈ fr) (h_fab : Block.fab ∈ fr) (hx : (execCreditReturnTimer p s) = .next t) : Only fr s t := by
  have h0 := Only.refl fr s
  grind [execCreditReturnTimer, only_sendCredit]

theorem only_execLinkAckTimer {fr : List Block} (p : Fin 8) (cls : Fin 4) {s : State} {t : State} (h_out : Block.out ∈ fr) (h_fab : Block.fab ∈ fr) (hx : (execLinkAckTimer p cls s) = .next t) : Only fr s t := by
  have h0 := Only.refl fr s
  grind [execLinkAckTimer, only_sendLinkAck, only_setPClass]

theorem only_execSporeForward {fr : List Block} (p : Fin 8) (sp : Spore) {s : State} {t : State} (h_out : Block.out ∈ fr) (h_win : Block.win ∈ fr) (h_fab : Block.fab ∈ fr) (h_nor : Block.nor ∈ fr) (h_diag : Block.diag ∈ fr) (h_evt : Block.evt ∈ fr) (h_stats : Block.stats ∈ fr) (h_hostMem : Block.hostMem ∈ fr) (hx : (execSporeForward p sp s) = .next t) : Only fr s t := by
  have h0 := Only.refl fr s
  grind [execSporeForward, only_rxSpore]

theorem only_portComesUp {fr : List Block} {s0 : State} (p : Fin 8) (b : List Byte) {s : State} (h_out : Block.out ∈ fr) (h_win : Block.win ∈ fr) (h_fab : Block.fab ∈ fr) (h_nor : Block.nor ∈ fr) (h_evt : Block.evt ∈ fr) (h_stats : Block.stats ∈ fr) (h_hostMem : Block.hostMem ∈ fr) (hkp : Only fr s0 s) : Only fr s0 (portComesUp p b s) := by
  grind [portComesUp, only_refreshRoutes, only_raise, only_setPort]

theorem only_setPartner {fr : List Block} {s0 : State} (p : Fin 8) (b : List Byte) {s : State} (h_fab : Block.fab ∈ fr) (hkp : Only fr s0 s) : Only fr s0 (setPartner p b s) := by
  grind [setPartner, only_setPort]

theorem only_execHello {fr : List Block} (p : Fin 8) (sp : Spore) {s : State} {t : State} (h_out : Block.out ∈ fr) (h_win : Block.win ∈ fr) (h_fab : Block.fab ∈ fr) (h_nor : Block.nor ∈ fr) (h_diag : Block.diag ∈ fr) (h_evt : Block.evt ∈ fr) (h_stats : Block.stats ∈ fr) (h_hostMem : Block.hostMem ∈ fr) (hx : (execHello p sp s) = .next t) : Only fr s t := by
  have h0 := Only.refl fr s
  grind [execHello, only_violation, only_portComesUp, only_rxSpore, only_setPartner]

theorem only_rememberFlood {fr : List Block} {s0 : State} (o : BitVec 64) (id : BitVec 32) {s : State} (h_fab : Block.fab ∈ fr) (hkp : Only fr s0 s) : Only fr s0 (rememberFlood o id s) := by
  grind [rememberFlood, only_upd]

theorem only_floodOwn {fr : List Block} {s0 : State} (typ : Nat) (id : BitVec 32) (b : List Byte) {s : State} (h_out : Block.out ∈ fr) (h_fab : Block.fab ∈ fr) (h_diag : Block.diag ∈ fr) (h_stats : Block.stats ∈ fr) (hkp : Only fr s0 s) : Only fr s0 (floodOwn typ id b s) := by
  grind [floodOwn, only_floodFrom, only_rememberFlood]

theorem only_answerTopo {fr : List Block} {s0 : State} (o : BitVec 64) (id : BitVec 32) {s : State} (h_out : Block.out ∈ fr) (h_fab : Block.fab ∈ fr) (h_diag : Block.diag ∈ fr) (h_stats : Block.stats ∈ fr) (hkp : Only fr s0 s) : Only fr s0 (answerTopo o id s) := by
  grind [answerTopo, only_floodOwn, only_upd]

theorem only_collect {fr : List Block} {s0 : State} (f : Found) {s : State} (h_fab : Block.fab ∈ fr) (hkp : Only fr s0 s) : Only fr s0 (collect f s) := by
  grind [collect, only_upd]

theorem only_newFlood {fr : List Block} {s0 : State} {s : State} (h_fab : Block.fab ∈ fr) (hkp : Only fr s0 s) : Only fr s0 (newFlood s) := by
  grind [newFlood, only_upd]

theorem only_trainPorts {fr : List Block} {s0 : State} (mask : Nat) (a1 : List (Fin 8)) {a2 : State} (h_out : Block.out ∈ fr) (h_fab : Block.fab ∈ fr) (hkp : Only fr s0 a2) : Only fr s0 (trainPorts mask a1 a2) := by
  fun_induction trainPorts mask a1 a2 <;> grind [only_startTraining, only_upd]

theorem only_execFabDiscover {fr : List Block} (e : Entry) {s : State} {t : State} (h_out : Block.out ∈ fr) (h_win : Block.win ∈ fr) (h_mb : Block.mb ∈ fr) (h_fab : Block.fab ∈ fr) (h_nor : Block.nor ∈ fr) (h_svc : Block.svc ∈ fr) (h_diag : Block.diag ∈ fr) (h_evt : Block.evt ∈ fr) (h_stats : Block.stats ∈ fr) (h_hostMem : Block.hostMem ∈ fr) (hx : (execFabDiscover e s) = .next t) : Only fr s t := by
  have h0 := Only.refl fr s
  grind [execFabDiscover, only_takeUp, only_newFlood, only_trainPorts, only_wait, only_floodOwn, only_upd]

theorem only_nodeAnswered {fr : List Block} {s0 : State} (serial : BitVec 64) (node : BitVec 12) {s : State} (h_out : Block.out ∈ fr) (h_win : Block.win ∈ fr) (h_mb : Block.mb ∈ fr) (h_svc : Block.svc ∈ fr) (h_stats : Block.stats ∈ fr) (h_hostMem : Block.hostMem ∈ fr) (hkp : Only fr s0 s) : Only fr s0 (nodeAnswered serial node s) := by
  grind [nodeAnswered, only_settle]

theorem only_takeNode {fr : List Block} {s0 : State} (n : BitVec 12) {s : State} (h_out : Block.out ∈ fr) (h_win : Block.win ∈ fr) (h_fab : Block.fab ∈ fr) (h_nor : Block.nor ∈ fr) (h_evt : Block.evt ∈ fr) (h_stats : Block.stats ∈ fr) (h_hostMem : Block.hostMem ∈ fr) (hkp : Only fr s0 s) : Only fr s0 (takeNode n s) := by
  grind [takeNode, only_raise, only_upd]

theorem only_execFabAssignNode {fr : List Block} (e : Entry) {s : State} {t : State} (h_out : Block.out ∈ fr) (h_win : Block.win ∈ fr) (h_mb : Block.mb ∈ fr) (h_fab : Block.fab ∈ fr) (h_nor : Block.nor ∈ fr) (h_svc : Block.svc ∈ fr) (h_diag : Block.diag ∈ fr) (h_evt : Block.evt ∈ fr) (h_stats : Block.stats ∈ fr) (h_hostMem : Block.hostMem ∈ fr) (hx : (execFabAssignNode e s) = .next t) : Only fr s t := by
  have h0 := Only.refl fr s
  grind [execFabAssignNode, only_takeUp, only_finish, only_newFlood, only_wait, only_floodOwn, only_nodeAnswered, only_takeNode]

theorem only_execFabSetRoute {fr : List Block} (e : Entry) {s : State} {t : State} (h_out : Block.out ∈ fr) (h_win : Block.win ∈ fr) (h_mb : Block.mb ∈ fr) (h_fab : Block.fab ∈ fr) (h_nor : Block.nor ∈ fr) (h_svc : Block.svc ∈ fr) (h_evt : Block.evt ∈ fr) (h_stats : Block.stats ∈ fr) (h_hostMem : Block.hostMem ∈ fr) (hx : (execFabSetRoute e s) = .next t) : Only fr s t := by
  have h0 := Only.refl fr s
  grind [execFabSetRoute, only_takeUp, only_finish, only_refreshRoutes, only_upd]

theorem only_rxFlood {fr : List Block} {s0 : State} (typ : Nat) (p : Fin 8) (sp : Spore) (act : State → State) {s : State} (h_out : Block.out ∈ fr) (h_win : Block.win ∈ fr) (h_fab : Block.fab ∈ fr) (h_nor : Block.nor ∈ fr) (h_diag : Block.diag ∈ fr) (h_evt : Block.evt ∈ fr) (h_stats : Block.stats ∈ fr) (h_hostMem : Block.hostMem ∈ fr) (hkp : Only fr s0 s) (hact : ∀ x0, Only fr s0 x0 → Only fr s0 (act x0)) : Only fr s0 (rxFlood typ p sp act s) := by
  grind [rxFlood, only_rxSpore, only_linkTake, only_violationAck, only_violation, only_rememberFlood, only_forwardFlood, → only_linkTake_eq]

theorem only_execTopo {fr : List Block} (p : Fin 8) (sp : Spore) {s : State} {t : State} (h_out : Block.out ∈ fr) (h_win : Block.win ∈ fr) (h_fab : Block.fab ∈ fr) (h_nor : Block.nor ∈ fr) (h_diag : Block.diag ∈ fr) (h_evt : Block.evt ∈ fr) (h_stats : Block.stats ∈ fr) (h_hostMem : Block.hostMem ∈ fr) (hx : (execTopo p sp s) = .next t) : Only fr s t := by
  have h0 := Only.refl fr s
  grind [execTopo, only_rxFlood, only_answerTopo, only_collect]

theorem only_execAssign {fr : List Block} (p : Fin 8) (sp : Spore) {s : State} {t : State} (h_out : Block.out ∈ fr) (h_win : Block.win ∈ fr) (h_fab : Block.fab ∈ fr) (h_nor : Block.nor ∈ fr) (h_diag : Block.diag ∈ fr) (h_evt : Block.evt ∈ fr) (h_stats : Block.stats ∈ fr) (h_hostMem : Block.hostMem ∈ fr) (hx : (execAssign p sp s) = .next t) : Only fr s t := by
  have h0 := Only.refl fr s
  grind [execAssign, only_rxFlood, only_send, only_takeNode]

theorem only_execAssignAck {fr : List Block} (p : Fin 8) (sp : Spore) {s : State} {t : State} (h_out : Block.out ∈ fr) (h_win : Block.win ∈ fr) (h_mb : Block.mb ∈ fr) (h_fab : Block.fab ∈ fr) (h_nor : Block.nor ∈ fr) (h_svc : Block.svc ∈ fr) (h_diag : Block.diag ∈ fr) (h_evt : Block.evt ∈ fr) (h_stats : Block.stats ∈ fr) (h_hostMem : Block.hostMem ∈ fr) (hx : (execAssignAck p sp s) = .next t) : Only fr s t := by
  have h0 := Only.refl fr s
  grind [execAssignAck, only_rxSpore, only_nodeAnswered]

theorem only_execDiscoveryCollectTimeout {fr : List Block} {s : State} {t : State} (h_out : Block.out ∈ fr) (h_win : Block.win ∈ fr) (h_mb : Block.mb ∈ fr) (h_nor : Block.nor ∈ fr) (h_svc : Block.svc ∈ fr) (h_evt : Block.evt ∈ fr) (h_stats : Block.stats ∈ fr) (h_hostMem : Block.hostMem ∈ fr) (hx : (execDiscoveryCollectTimeout s) = .next t) : Only fr s t := by
  have h0 := Only.refl fr s
  grind [execDiscoveryCollectTimeout, only_settle, only_raise]

theorem only_execAssignTimeout {fr : List Block} {s : State} {t : State} (h_out : Block.out ∈ fr) (h_win : Block.win ∈ fr) (h_mb : Block.mb ∈ fr) (h_svc : Block.svc ∈ fr) (h_stats : Block.stats ∈ fr) (h_hostMem : Block.hostMem ∈ fr) (hx : (execAssignTimeout s) = .next t) : Only fr s t := by
  have h0 := Only.refl fr s
  grind [execAssignTimeout, only_settle]

end Sys2Proof.Machine
end

