-- ==== Sys2Proof/Laws/Only6.lean ====
section
/-! SUPPORT. What the functions of these files keep of a state (Laws.Only): PairCmd, FabMsgs, TimeCmd, DiagCmd, HostWin, HbmCmd. -/

namespace Sys2Proof.Machine

theorem only_compareBeat {fr : List Block} {s0 : State} (x : Beat) {s : State} (h_out : Block.out ∈ fr) (h_win : Block.win ∈ fr) (h_fab : Block.fab ∈ fr) (h_nor : Block.nor ∈ fr) (h_evt : Block.evt ∈ fr) (h_stats : Block.stats ∈ fr) (h_hostMem : Block.hostMem ∈ fr) (hkp : Only fr s0 s) : Only fr s0 (compareBeat x s) := by
  grind [compareBeat, only_raise, only_upd]

theorem only_endPair {fr : List Block} {s0 : State} {s : State} (h_out : Block.out ∈ fr) (h_win : Block.win ∈ fr) (h_mb : Block.mb ∈ fr) (h_cfg : Block.cfg ∈ fr) (h_led : Block.led ∈ fr) (h_rnd : Block.rnd ∈ fr) (h_store : Block.store ∈ fr) (h_seq : Block.seq ∈ fr) (h_link : Block.link ∈ fr) (h_trk : Block.trk ∈ fr) (h_scan : Block.scan ∈ fr) (h_dma : Block.dma ∈ fr) (h_fab : Block.fab ∈ fr) (h_nor : Block.nor ∈ fr) (h_svc : Block.svc ∈ fr) (h_diag : Block.diag ∈ fr) (h_evt : Block.evt ∈ fr) (h_stats : Block.stats ∈ fr) (h_hostMem : Block.hostMem ∈ fr) (h_free : Block.free ∈ fr) (hkp : Only fr s0 s) : Only fr s0 (endPair s) := by
  grind [endPair, only_failHandover, only_unpair, only_sendPairFail]

theorem only_formIfReady {fr : List Block} {s0 : State} {s : State} (h_out : Block.out ∈ fr) (h_win : Block.win ∈ fr) (h_mb : Block.mb ∈ fr) (h_led : Block.led ∈ fr) (h_dma : Block.dma ∈ fr) (h_fab : Block.fab ∈ fr) (h_nor : Block.nor ∈ fr) (h_svc : Block.svc ∈ fr) (h_diag : Block.diag ∈ fr) (h_evt : Block.evt ∈ fr) (h_stats : Block.stats ∈ fr) (h_hostMem : Block.hostMem ∈ fr) (h_free : Block.free ∈ fr) (hkp : Only fr s0 s) : Only fr s0 (formIfReady s) := by
  grind [formIfReady, only_formPair]

theorem only_pairTry {fr : List Block} {s0 : State} {s : State} (h_out : Block.out ∈ fr) (h_win : Block.win ∈ fr) (h_mb : Block.mb ∈ fr) (h_led : Block.led ∈ fr) (h_dma : Block.dma ∈ fr) (h_fab : Block.fab ∈ fr) (h_nor : Block.nor ∈ fr) (h_svc : Block.svc ∈ fr) (h_diag : Block.diag ∈ fr) (h_evt : Block.evt ∈ fr) (h_stats : Block.stats ∈ fr) (h_hostMem : Block.hostMem ∈ fr) (h_free : Block.free ∈ fr) (hkp : Only fr s0 s) : Only fr s0 (pairTry s) := by
  grind [pairTry, only_formIfReady, only_send, only_failPair, only_raise]

theorem only_execFabPair {fr : List Block} (e : Entry) {s : State} {t : State} (h_out : Block.out ∈ fr) (h_win : Block.win ∈ fr) (h_mb : Block.mb ∈ fr) (h_cfg : Block.cfg ∈ fr) (h_led : Block.led ∈ fr) (h_rnd : Block.rnd ∈ fr) (h_store : Block.store ∈ fr) (h_seq : Block.seq ∈ fr) (h_link : Block.link ∈ fr) (h_trk : Block.trk ∈ fr) (h_scan : Block.scan ∈ fr) (h_dma : Block.dma ∈ fr) (h_fab : Block.fab ∈ fr) (h_nor : Block.nor ∈ fr) (h_svc : Block.svc ∈ fr) (h_diag : Block.diag ∈ fr) (h_evt : Block.evt ∈ fr) (h_stats : Block.stats ∈ fr) (h_hostMem : Block.hostMem ∈ fr) (h_free : Block.free ∈ fr) (hx : (execFabPair e s) = .next t) : Only fr s t := by
  have h0 := Only.refl fr s
  grind [execFabPair, only_takeUp, only_finish, only_endPair, only_wait, only_pairTry, only_send, only_upd]

theorem only_startHandover {fr : List Block} {s0 : State} (now : Bool) (region : Option (BitVec 8 × Nat × Nat)) {s : State} (h_out : Block.out ∈ fr) (h_win : Block.win ∈ fr) (h_rnd : Block.rnd ∈ fr) (h_store : Block.store ∈ fr) (h_seq : Block.seq ∈ fr) (h_link : Block.link ∈ fr) (h_trk : Block.trk ∈ fr) (h_scan : Block.scan ∈ fr) (h_fab : Block.fab ∈ fr) (h_nor : Block.nor ∈ fr) (h_diag : Block.diag ∈ fr) (h_evt : Block.evt ∈ fr) (h_stats : Block.stats ∈ fr) (h_hostMem : Block.hostMem ∈ fr) (h_free : Block.free ∈ fr) (hkp : Only fr s0 s) : Only fr s0 (startHandover now region s) := by
  grind [startHandover, only_beginHandover, only_send]

theorem only_execFabHandover {fr : List Block} (e : Entry) {s : State} {t : State} (h_out : Block.out ∈ fr) (h_win : Block.win ∈ fr) (h_mb : Block.mb ∈ fr) (h_rnd : Block.rnd ∈ fr) (h_store : Block.store ∈ fr) (h_seq : Block.seq ∈ fr) (h_link : Block.link ∈ fr) (h_trk : Block.trk ∈ fr) (h_scan : Block.scan ∈ fr) (h_fab : Block.fab ∈ fr) (h_nor : Block.nor ∈ fr) (h_svc : Block.svc ∈ fr) (h_diag : Block.diag ∈ fr) (h_evt : Block.evt ∈ fr) (h_stats : Block.stats ∈ fr) (h_hostMem : Block.hostMem ∈ fr) (h_free : Block.free ∈ fr) (hx : (execFabHandover e s) = .next t) : Only fr s t := by
  have h0 := Only.refl fr s
  grind [execFabHandover, only_takeUp, only_finish, only_wait, only_startHandover, only_upd]

theorem only_outOfPair {fr : List Block} {s0 : State} (p : Fin 8) (sp : Spore) {s : State} (h_out : Block.out ∈ fr) (h_win : Block.win ∈ fr) (h_fab : Block.fab ∈ fr) (h_nor : Block.nor ∈ fr) (h_diag : Block.diag ∈ fr) (h_evt : Block.evt ∈ fr) (h_stats : Block.stats ∈ fr) (h_hostMem : Block.hostMem ∈ fr) (hkp : Only fr s0 s) : Only fr s0 (outOfPair p sp s) := by
  grind [outOfPair, only_nackSpore, only_violation]

theorem only_execPairReq {fr : List Block} (p : Fin 8) (sp : Spore) {s : State} {t : State} (h_out : Block.out ∈ fr) (h_win : Block.win ∈ fr) (h_mb : Block.mb ∈ fr) (h_led : Block.led ∈ fr) (h_dma : Block.dma ∈ fr) (h_fab : Block.fab ∈ fr) (h_nor : Block.nor ∈ fr) (h_svc : Block.svc ∈ fr) (h_diag : Block.diag ∈ fr) (h_evt : Block.evt ∈ fr) (h_stats : Block.stats ∈ fr) (h_hostMem : Block.hostMem ∈ fr) (h_free : Block.free ∈ fr) (hx : (execPairReq p sp s) = .next t) : Only fr s t := by
  have h0 := Only.refl fr s
  grind [execPairReq, only_rxSpore, only_outOfPair, only_pairTry, only_upd]

theorem only_execPairAck {fr : List Block} (p : Fin 8) (sp : Spore) {s : State} {t : State} (h_out : Block.out ∈ fr) (h_win : Block.win ∈ fr) (h_mb : Block.mb ∈ fr) (h_led : Block.led ∈ fr) (h_dma : Block.dma ∈ fr) (h_fab : Block.fab ∈ fr) (h_nor : Block.nor ∈ fr) (h_svc : Block.svc ∈ fr) (h_diag : Block.diag ∈ fr) (h_evt : Block.evt ∈ fr) (h_stats : Block.stats ∈ fr) (h_hostMem : Block.hostMem ∈ fr) (h_free : Block.free ∈ fr) (hx : (execPairAck p sp s) = .next t) : Only fr s t := by
  have h0 := Only.refl fr s
  grind [execPairAck, only_rxSpore, only_formIfReady, only_outOfPair, only_upd]

theorem only_execPairBeat {fr : List Block} (p : Fin 8) (sp : Spore) {s : State} {t : State} (h_out : Block.out ∈ fr) (h_win : Block.win ∈ fr) (h_link : Block.link ∈ fr) (h_scan : Block.scan ∈ fr) (h_fab : Block.fab ∈ fr) (h_nor : Block.nor ∈ fr) (h_diag : Block.diag ∈ fr) (h_evt : Block.evt ∈ fr) (h_stats : Block.stats ∈ fr) (h_hostMem : Block.hostMem ∈ fr) (hx : (execPairBeat p sp s) = .next t) : Only fr s t := by
  have h0 := Only.refl fr s
  grind [execPairBeat, only_rxSpore, only_outOfPair, only_compareBeat, only_handoverStep, only_upd]

theorem only_execPairFail {fr : List Block} (p : Fin 8) (sp : Spore) {s : State} {t : State} (h_out : Block.out ∈ fr) (h_win : Block.win ∈ fr) (h_mb : Block.mb ∈ fr) (h_cfg : Block.cfg ∈ fr) (h_led : Block.led ∈ fr) (h_rnd : Block.rnd ∈ fr) (h_store : Block.store ∈ fr) (h_seq : Block.seq ∈ fr) (h_link : Block.link ∈ fr) (h_trk : Block.trk ∈ fr) (h_scan : Block.scan ∈ fr) (h_dma : Block.dma ∈ fr) (h_fab : Block.fab ∈ fr) (h_nor : Block.nor ∈ fr) (h_svc : Block.svc ∈ fr) (h_diag : Block.diag ∈ fr) (h_evt : Block.evt ∈ fr) (h_stats : Block.stats ∈ fr) (h_hostMem : Block.hostMem ∈ fr) (h_free : Block.free ∈ fr) (hx : (execPairFail p sp s) = .next t) : Only fr s t := by
  have h0 := Only.refl fr s
  grind [execPairFail, only_rxSpore, only_outOfPair, only_unpair, only_failHandover, only_partnerLost]

theorem only_execHandoverReq {fr : List Block} (p : Fin 8) (sp : Spore) {s : State} {t : State} (h_out : Block.out ∈ fr) (h_win : Block.win ∈ fr) (h_rnd : Block.rnd ∈ fr) (h_store : Block.store ∈ fr) (h_seq : Block.seq ∈ fr) (h_link : Block.link ∈ fr) (h_trk : Block.trk ∈ fr) (h_scan : Block.scan ∈ fr) (h_fab : Block.fab ∈ fr) (h_nor : Block.nor ∈ fr) (h_diag : Block.diag ∈ fr) (h_evt : Block.evt ∈ fr) (h_stats : Block.stats ∈ fr) (h_hostMem : Block.hostMem ∈ fr) (h_free : Block.free ∈ fr) (hx : (execHandoverReq p sp s) = .next t) : Only fr s t := by
  have h0 := Only.refl fr s
  grind [execHandoverReq, only_rxSpore, only_outOfPair, only_beginHandover]

theorem only_execHandoverGo {fr : List Block} (p : Fin 8) (sp : Spore) {s : State} {t : State} (h_out : Block.out ∈ fr) (h_win : Block.win ∈ fr) (h_link : Block.link ∈ fr) (h_scan : Block.scan ∈ fr) (h_fab : Block.fab ∈ fr) (h_nor : Block.nor ∈ fr) (h_diag : Block.diag ∈ fr) (h_evt : Block.evt ∈ fr) (h_stats : Block.stats ∈ fr) (h_hostMem : Block.hostMem ∈ fr) (hx : (execHandoverGo p sp s) = .next t) : Only fr s t := by
  have h0 := Only.refl fr s
  grind [execHandoverGo, only_rxSpore, only_handoverStep, only_setStep, only_outOfPair]

theorem only_execHandoverDone {fr : List Block} (p : Fin 8) (sp : Spore) {s : State} {t : State} (h_out : Block.out ∈ fr) (h_pm : Block.pm ∈ fr) (h_win : Block.win ∈ fr) (h_mb : Block.mb ∈ fr) (h_cfg : Block.cfg ∈ fr) (h_led : Block.led ∈ fr) (h_lay : Block.lay ∈ fr) (h_seq : Block.seq ∈ fr) (h_link : Block.link ∈ fr) (h_dma : Block.dma ∈ fr) (h_fab : Block.fab ∈ fr) (h_keep : Block.keep ∈ fr) (h_nor : Block.nor ∈ fr) (h_svc : Block.svc ∈ fr) (h_smb : Block.smb ∈ fr) (h_diag : Block.diag ∈ fr) (h_evt : Block.evt ∈ fr) (h_stats : Block.stats ∈ fr) (h_hostMem : Block.hostMem ∈ fr) (h_free : Block.free ∈ fr) (hx : (execHandoverDone p sp s) = .next t) : Only fr s t := by
  have h0 := Only.refl fr s
  grind [execHandoverDone, only_rxSpore, only_handoverGiven, only_outOfPair]

theorem only_execPairTimeout {fr : List Block} {s : State} {t : State} (h_out : Block.out ∈ fr) (h_win : Block.win ∈ fr) (h_mb : Block.mb ∈ fr) (h_fab : Block.fab ∈ fr) (h_svc : Block.svc ∈ fr) (h_stats : Block.stats ∈ fr) (h_hostMem : Block.hostMem ∈ fr) (hx : (execPairTimeout s) = .next t) : Only fr s t := by
  have h0 := Only.refl fr s
  grind [execPairTimeout, only_failPair]

theorem only_execPairBeatTimer {fr : List Block} {s : State} {t : State} (h_out : Block.out ∈ fr) (h_win : Block.win ∈ fr) (h_link : Block.link ∈ fr) (h_scan : Block.scan ∈ fr) (h_fab : Block.fab ∈ fr) (h_nor : Block.nor ∈ fr) (h_diag : Block.diag ∈ fr) (h_evt : Block.evt ∈ fr) (h_stats : Block.stats ∈ fr) (h_hostMem : Block.hostMem ∈ fr) (hx : (execPairBeatTimer s) = .next t) : Only fr s t := by
  have h0 := Only.refl fr s
  grind [execPairBeatTimer, only_handoverStep, only_sendBoth, only_upd]

theorem only_execPartnerBeatTimeout {fr : List Block} {s : State} {t : State} (h_out : Block.out ∈ fr) (h_win : Block.win ∈ fr) (h_mb : Block.mb ∈ fr) (h_cfg : Block.cfg ∈ fr) (h_led : Block.led ∈ fr) (h_rnd : Block.rnd ∈ fr) (h_store : Block.store ∈ fr) (h_seq : Block.seq ∈ fr) (h_link : Block.link ∈ fr) (h_trk : Block.trk ∈ fr) (h_scan : Block.scan ∈ fr) (h_dma : Block.dma ∈ fr) (h_fab : Block.fab ∈ fr) (h_nor : Block.nor ∈ fr) (h_svc : Block.svc ∈ fr) (h_diag : Block.diag ∈ fr) (h_evt : Block.evt ∈ fr) (h_stats : Block.stats ∈ fr) (h_hostMem : Block.hostMem ∈ fr) (h_free : Block.free ∈ fr) (hx : (execPartnerBeatTimeout s) = .next t) : Only fr s t := by
  have h0 := Only.refl fr s
  grind [execPartnerBeatTimeout, only_partnerLost]

theorem only_execTakeoverRecheck {fr : List Block} {s : State} {t : State} (h_out : Block.out ∈ fr) (h_link : Block.link ∈ fr) (h_fab : Block.fab ∈ fr) (h_stats : Block.stats ∈ fr) (hx : (execTakeoverRecheck s) = .next t) : Only fr s t := by
  have h0 := Only.refl fr s
  grind [execTakeoverRecheck, only_beginTakeover]

theorem only_execHandoverShadowTimeout {fr : List Block} {s : State} {t : State} (h_out : Block.out ∈ fr) (h_win : Block.win ∈ fr) (h_mb : Block.mb ∈ fr) (h_cfg : Block.cfg ∈ fr) (h_led : Block.led ∈ fr) (h_rnd : Block.rnd ∈ fr) (h_store : Block.store ∈ fr) (h_seq : Block.seq ∈ fr) (h_link : Block.link ∈ fr) (h_trk : Block.trk ∈ fr) (h_scan : Block.scan ∈ fr) (h_dma : Block.dma ∈ fr) (h_fab : Block.fab ∈ fr) (h_nor : Block.nor ∈ fr) (h_svc : Block.svc ∈ fr) (h_diag : Block.diag ∈ fr) (h_evt : Block.evt ∈ fr) (h_stats : Block.stats ∈ fr) (h_hostMem : Block.hostMem ∈ fr) (h_free : Block.free ∈ fr) (hx : (execHandoverShadowTimeout s) = .next t) : Only fr s t := by
  have h0 := Only.refl fr s
  grind [execHandoverShadowTimeout, only_failHandover, only_upd]

theorem only_ackClient {fr : List Block} {s0 : State} (n : BitVec 12) {s : State} (h_out : Block.out ∈ fr) (h_win : Block.win ∈ fr) (h_fab : Block.fab ∈ fr) (h_nor : Block.nor ∈ fr) (h_diag : Block.diag ∈ fr) (h_evt : Block.evt ∈ fr) (h_stats : Block.stats ∈ fr) (h_hostMem : Block.hostMem ∈ fr) (hkp : Only fr s0 s) : Only fr s0 (ackClient n s) := by
  grind [ackClient, only_send]

theorem only_badLedgerAck {fr : List Block} {s0 : State} (p : Fin 8) (sp : Spore) {s : State} (h_out : Block.out ∈ fr) (h_win : Block.win ∈ fr) (h_fab : Block.fab ∈ fr) (h_nor : Block.nor ∈ fr) (h_diag : Block.diag ∈ fr) (h_evt : Block.evt ∈ fr) (h_stats : Block.stats ∈ fr) (h_hostMem : Block.hostMem ∈ fr) (hkp : Only fr s0 s) : Only fr s0 (badLedgerAck p sp s) := by
  grind [badLedgerAck, only_nackSpore, only_violation]

theorem only_writeBuffer {fr : List Block} {s0 : State} (b : BufRef) (l : List Byte) {s : State} (h_dma : Block.dma ∈ fr) (h_diag : Block.diag ∈ fr) (h_stats : Block.stats ∈ fr) (h_hbmMem : Block.hbmMem ∈ fr) (h_hostMem : Block.hostMem ∈ fr) (h_free : Block.free ∈ fr) (hkp : Only fr s0 s) : Only fr s0 (writeBuffer b l s).2 := by
  grind [writeBuffer, only_hbmWrite, only_vwrite, only_hostWrite, → only_vwrite_eq]

theorem only_writeBuffer_eq {fr : List Block} {s0 : State} (b : BufRef) (l : List Byte) {s : State} {v : Nat} {t : State} (h_dma : Block.dma ∈ fr) (h_diag : Block.diag ∈ fr) (h_stats : Block.stats ∈ fr) (h_hbmMem : Block.hbmMem ∈ fr) (h_hostMem : Block.hostMem ∈ fr) (h_free : Block.free ∈ fr) (hev : (writeBuffer b l s) = (v, t)) (h : Only fr s0 s) : Only fr s0 t := by
  have k := only_writeBuffer b l h_dma h_diag h_stats h_hbmMem h_hostMem h_free h
  rw [hev] at k
  exact k

theorem only_giveHost {fr : List Block} {s0 : State} (p : Fin 8) (sp : Spore) {s : State} (h_out : Block.out ∈ fr) (h_win : Block.win ∈ fr) (h_dma : Block.dma ∈ fr) (h_fab : Block.fab ∈ fr) (h_nor : Block.nor ∈ fr) (h_diag : Block.diag ∈ fr) (h_evt : Block.evt ∈ fr) (h_stats : Block.stats ∈ fr) (h_hbmMem : Block.hbmMem ∈ fr) (h_hostMem : Block.hostMem ∈ fr) (h_free : Block.free ∈ fr) (hkp : Only fr s0 s) : Only fr s0 (giveHost p sp s) := by
  grind [giveHost, only_nackSpore, only_raise, only_writeBuffer, only_setPort, only_pushEntry, → only_writeBuffer_eq]

theorem only_execNack {fr : List Block} (p : Fin 8) (sp : Spore) {s : State} {t : State} (h_out : Block.out ∈ fr) (h_win : Block.win ∈ fr) (h_mb : Block.mb ∈ fr) (h_cfg : Block.cfg ∈ fr) (h_led : Block.led ∈ fr) (h_rnd : Block.rnd ∈ fr) (h_link : Block.link ∈ fr) (h_dma : Block.dma ∈ fr) (h_fab : Block.fab ∈ fr) (h_upd : Block.upd ∈ fr) (h_nor : Block.nor ∈ fr) (h_svc : Block.svc ∈ fr) (h_diag : Block.diag ∈ fr) (h_evt : Block.evt ∈ fr) (h_stats : Block.stats ∈ fr) (h_hbmMem : Block.hbmMem ∈ fr) (h_hostMem : Block.hostMem ∈ fr) (h_free : Block.free ∈ fr) (hx : (execNack p sp s) = .next t) : Only fr s t := by
  have h0 := Only.refl fr s
  grind [execNack, only_rxSpore, only_activateTables, only_witnessRefused, only_offloadOver, only_giveHost, only_relayNacked, only_upd]

theorem only_takeRecs {fr : List Block} {s0 : State} (n : BitVec 12) (l : List WRec) {s : State} (h_out : Block.out ∈ fr) (h_win : Block.win ∈ fr) (h_fab : Block.fab ∈ fr) (h_nor : Block.nor ∈ fr) (h_diag : Block.diag ∈ fr) (h_evt : Block.evt ∈ fr) (h_stats : Block.stats ∈ fr) (h_hostMem : Block.hostMem ∈ fr) (hkp : Only fr s0 s) : Only fr s0 (takeRecs n l s) := by
  grind [takeRecs, only_ackClient, only_foldl, only_upd]

theorem only_execLedgerRec {fr : List Block} (p : Fin 8) (sp : Spore) {s : State} {t : State} (h_out : Block.out ∈ fr) (h_win : Block.win ∈ fr) (h_fab : Block.fab ∈ fr) (h_nor : Block.nor ∈ fr) (h_diag : Block.diag ∈ fr) (h_evt : Block.evt ∈ fr) (h_stats : Block.stats ∈ fr) (h_hostMem : Block.hostMem ∈ fr) (hx : (execLedgerRec p sp s) = .next t) : Only fr s t := by
  have h0 := Only.refl fr s
  grind [execLedgerRec, only_rxSpore, only_takeRecs, only_outOfPair]

theorem only_witnessAck {fr : List Block} {s0 : State} (p : Fin 8) (sp : Spore) {s : State} (h_out : Block.out ∈ fr) (h_win : Block.win ∈ fr) (h_mb : Block.mb ∈ fr) (h_cfg : Block.cfg ∈ fr) (h_led : Block.led ∈ fr) (h_link : Block.link ∈ fr) (h_scan : Block.scan ∈ fr) (h_fab : Block.fab ∈ fr) (h_nor : Block.nor ∈ fr) (h_svc : Block.svc ∈ fr) (h_diag : Block.diag ∈ fr) (h_evt : Block.evt ∈ fr) (h_stats : Block.stats ∈ fr) (h_hostMem : Block.hostMem ∈ fr) (hkp : Only fr s0 s) : Only fr s0 (witnessAck p sp s) := by
  grind [witnessAck, only_outOfPair, only_badLedgerAck, only_activateTables, only_handoverStep, only_ackUpTo, only_ackMirror]

theorem only_execLedgerAck {fr : List Block} (p : Fin 8) (sp : Spore) {s : State} {t : State} (h_out : Block.out ∈ fr) (h_win : Block.win ∈ fr) (h_mb : Block.mb ∈ fr) (h_cfg : Block.cfg ∈ fr) (h_led : Block.led ∈ fr) (h_link : Block.link ∈ fr) (h_scan : Block.scan ∈ fr) (h_dma : Block.dma ∈ fr) (h_fab : Block.fab ∈ fr) (h_nor : Block.nor ∈ fr) (h_svc : Block.svc ∈ fr) (h_diag : Block.diag ∈ fr) (h_evt : Block.evt ∈ fr) (h_stats : Block.stats ∈ fr) (h_hostMem : Block.hostMem ∈ fr) (h_free : Block.free ∈ fr) (hx : (execLedgerAck p sp s) = .next t) : Only fr s t := by
  have h0 := Only.refl fr s
  grind [execLedgerAck, only_rxSpore, only_badLedgerAck, only_activateTables, only_witnessCopied, only_witnessAck]

theorem only_execOffloadReq {fr : List Block} (p : Fin 8) (sp : Spore) {s : State} {t : State} (h_out : Block.out ∈ fr) (h_win : Block.win ∈ fr) (h_rnd : Block.rnd ∈ fr) (h_fab : Block.fab ∈ fr) (h_nor : Block.nor ∈ fr) (h_diag : Block.diag ∈ fr) (h_evt : Block.evt ∈ fr) (h_stats : Block.stats ∈ fr) (h_hostMem : Block.hostMem ∈ fr) (hx : (execOffloadReq p sp s) = .next t) : Only fr s t := by
  have h0 := Only.refl fr s
  grind [execOffloadReq, only_rxSpore, only_takeOffload]

theorem only_execOffloadDone {fr : List Block} (p : Fin 8) (sp : Spore) {s : State} {t : State} (h_out : Block.out ∈ fr) (h_win : Block.win ∈ fr) (h_rnd : Block.rnd ∈ fr) (h_fab : Block.fab ∈ fr) (h_nor : Block.nor ∈ fr) (h_diag : Block.diag ∈ fr) (h_evt : Block.evt ∈ fr) (h_stats : Block.stats ∈ fr) (h_hostMem : Block.hostMem ∈ fr) (hx : (execOffloadDone p sp s) = .next t) : Only fr s t := by
  have h0 := Only.refl fr s
  grind [execOffloadDone, only_rxSpore, only_offloadOver, only_nackSpore, only_violation]

theorem only_execSegments {fr : List Block} (p : Fin 8) (sp : Spore) {s : State} {t : State} (h_out : Block.out ∈ fr) (h_win : Block.win ∈ fr) (h_rnd : Block.rnd ∈ fr) (h_store : Block.store ∈ fr) (h_fab : Block.fab ∈ fr) (h_nor : Block.nor ∈ fr) (h_diag : Block.diag ∈ fr) (h_evt : Block.evt ∈ fr) (h_stats : Block.stats ∈ fr) (h_hbmMem : Block.hbmMem ∈ fr) (h_hostMem : Block.hostMem ∈ fr) (hx : (execSegments p sp s) = .next t) : Only fr s t := by
  have h0 := Only.refl fr s
  grind [execSegments, only_rxSpore, only_admitSegs]

theorem only_execHost {fr : List Block} (p : Fin 8) (sp : Spore) {s : State} {t : State} (h_out : Block.out ∈ fr) (h_win : Block.win ∈ fr) (h_dma : Block.dma ∈ fr) (h_fab : Block.fab ∈ fr) (h_nor : Block.nor ∈ fr) (h_diag : Block.diag ∈ fr) (h_evt : Block.evt ∈ fr) (h_stats : Block.stats ∈ fr) (h_hbmMem : Block.hbmMem ∈ fr) (h_hostMem : Block.hostMem ∈ fr) (h_free : Block.free ∈ fr) (hx : (execHost p sp s) = .next t) : Only fr s t := by
  have h0 := Only.refl fr s
  grind [execHost, only_rxSpore, only_giveHost]

theorem only_releaseTx {fr : List Block} {s0 : State} (p : Fin 8) (status : Nat) (reason : Nat) (e : BitVec 512) {s : State} (h_out : Block.out ∈ fr) (h_win : Block.win ∈ fr) (h_stats : Block.stats ∈ fr) (h_hostMem : Block.hostMem ∈ fr) (hkp : Only fr s0 s) : Only fr s0 (releaseTx p status reason e s) := by
  grind [releaseTx, only_stopRing, only_advance, only_hostWrite]

theorem only_txBytes {fr : List Block} {s0 : State} {s : State} (b : BufRef) (h_dma : Block.dma ∈ fr) (h_diag : Block.diag ∈ fr) (h_stats : Block.stats ∈ fr) (h_free : Block.free ∈ fr) (hkp : Only fr s0 s) : Only fr s0 (txBytes s b).2 := by
  grind [txBytes, only_vread, → only_vread_eq]

theorem only_txBytes_eq {fr : List Block} {s0 : State} {s : State} (b : BufRef) {v : Except (Nat × Nat) (List Byte)} {t : State} (h_dma : Block.dma ∈ fr) (h_diag : Block.diag ∈ fr) (h_stats : Block.stats ∈ fr) (h_free : Block.free ∈ fr) (hev : (txBytes s b) = (v, t)) (h : Only fr s0 s) : Only fr s0 t := by
  have k := only_txBytes b h_dma h_diag h_stats h_free h
  rw [hev] at k
  exact k

theorem only_sendHost {fr : List Block} {s0 : State} (p : Fin 8) (e : BitVec 512) (dst : Nat) (l : List Byte) {s : State} (h_out : Block.out ∈ fr) (h_win : Block.win ∈ fr) (h_fab : Block.fab ∈ fr) (h_nor : Block.nor ∈ fr) (h_diag : Block.diag ∈ fr) (h_evt : Block.evt ∈ fr) (h_stats : Block.stats ∈ fr) (h_hostMem : Block.hostMem ∈ fr) (h_free : Block.free ∈ fr) (hkp : Only fr s0 s) : Only fr s0 (sendHost p e dst l s) := by
  grind [sendHost, only_releaseTx, only_send, only_takeFree, only_undeliverable, → only_takeFree_eq, only_upd]

theorem only_execHostSporeSend {fr : List Block} (p : Fin 8) (entry : BitVec 512) {s : State} {t : State} (h_out : Block.out ∈ fr) (h_win : Block.win ∈ fr) (h_dma : Block.dma ∈ fr) (h_fab : Block.fab ∈ fr) (h_nor : Block.nor ∈ fr) (h_diag : Block.diag ∈ fr) (h_evt : Block.evt ∈ fr) (h_stats : Block.stats ∈ fr) (h_hostMem : Block.hostMem ∈ fr) (h_free : Block.free ∈ fr) (hx : (execHostSporeSend p entry s) = .next t) : Only fr s t := by
  have h0 := Only.refl fr s
  grind [execHostSporeSend, only_releaseTx, only_txBytes, only_sendHost, → only_txBytes_eq]

theorem only_execRxBufferPost {fr : List Block} (p : Fin 8) (entry : BitVec 512) {s : State} {t : State} (h_out : Block.out ∈ fr) (h_win : Block.win ∈ fr) (h_fab : Block.fab ∈ fr) (h_stats : Block.stats ∈ fr) (h_hostMem : Block.hostMem ∈ fr) (hx : (execRxBufferPost p entry s) = .next t) : Only fr s t := by
  have h0 := Only.refl fr s
  grind [execRxBufferPost, only_releaseTx, only_setPort]

theorem only_chooseMaster {fr : List Block} {s0 : State} {s : State} (h_out : Block.out ∈ fr) (h_time : Block.time ∈ fr) (h_win : Block.win ∈ fr) (h_nor : Block.nor ∈ fr) (h_evt : Block.evt ∈ fr) (h_stats : Block.stats ∈ fr) (h_hostMem : Block.hostMem ∈ fr) (hkp : Only fr s0 s) : Only fr s0 (chooseMaster s) := by
  grind [chooseMaster, only_raise, only_setBase, only_upd]

theorem only_setSourceFields {fr : List Block} {s0 : State} (b : Fin 4) (a : W128) {s : State} (h_time : Block.time ∈ fr) (hkp : Only fr s0 s) : Only fr s0 (setSourceFields b a s) := by
  unfold setSourceFields
  (repeat' split) <;> grind [only_upd]

theorem only_execTimeSetSource {fr : List Block} (e : Entry) {s : State} {t : State} (h_out : Block.out ∈ fr) (h_time : Block.time ∈ fr) (h_win : Block.win ∈ fr) (h_mb : Block.mb ∈ fr) (h_nor : Block.nor ∈ fr) (h_svc : Block.svc ∈ fr) (h_evt : Block.evt ∈ fr) (h_stats : Block.stats ∈ fr) (h_hostMem : Block.hostMem ∈ fr) (hx : (execTimeSetSource e s) = .next t) : Only fr s t := by
  have h0 := Only.refl fr s
  grind [execTimeSetSource, only_takeUp, only_finish, only_applySource, only_setSourceFields]

theorem only_execTimeGet {fr : List Block} (e : Entry) {s : State} {t : State} (h_out : Block.out ∈ fr) (h_win : Block.win ∈ fr) (h_mb : Block.mb ∈ fr) (h_nor : Block.nor ∈ fr) (h_svc : Block.svc ∈ fr) (h_evt : Block.evt ∈ fr) (h_stats : Block.stats ∈ fr) (h_hostMem : Block.hostMem ∈ fr) (hx : (execTimeGet e s) = .next t) : Only fr s t := by
  have h0 := Only.refl fr s
  grind [execTimeGet, only_takeUp, only_finish]

theorem only_setRate {fr : List Block} {s0 : State} (b : Fin 4) (r : Int) {s : State} (h_time : Block.time ∈ fr) (h_stats : Block.stats ∈ fr) (hkp : Only fr s0 s) : Only fr s0 (setRate b r s) := by
  grind [setRate, only_deriveSt, only_setBase, only_stat]

theorem only_stepBase {fr : List Block} {s0 : State} (b : Fin 4) (d : Int) {s : State} (h_out : Block.out ∈ fr) (h_time : Block.time ∈ fr) (h_win : Block.win ∈ fr) (h_nor : Block.nor ∈ fr) (h_evt : Block.evt ∈ fr) (h_stats : Block.stats ∈ fr) (h_hostMem : Block.hostMem ∈ fr) (hkp : Only fr s0 s) : Only fr s0 (stepBase b d s) := by
  grind [stepBase, only_deriveSt, only_raise, only_setBase]

theorem only_execTimeAdjust {fr : List Block} (e : Entry) {s : State} {t : State} (h_out : Block.out ∈ fr) (h_time : Block.time ∈ fr) (h_win : Block.win ∈ fr) (h_mb : Block.mb ∈ fr) (h_nor : Block.nor ∈ fr) (h_svc : Block.svc ∈ fr) (h_evt : Block.evt ∈ fr) (h_stats : Block.stats ∈ fr) (h_hostMem : Block.hostMem ∈ fr) (hx : (execTimeAdjust e s) = .next t) : Only fr s t := by
  have h0 := Only.refl fr s
  grind [execTimeAdjust, only_takeUp, only_finish, only_setRate, only_stepBase]

theorem only_masterConflict {fr : List Block} {s0 : State} (m : BitVec 12) {s : State} (h_out : Block.out ∈ fr) (h_time : Block.time ∈ fr) (h_win : Block.win ∈ fr) (h_nor : Block.nor ∈ fr) (h_evt : Block.evt ∈ fr) (h_stats : Block.stats ∈ fr) (h_hostMem : Block.hostMem ∈ fr) (hkp : Only fr s0 s) : Only fr s0 (masterConflict m s) := by
  grind [masterConflict, only_raise, only_upd]

theorem only_takeOffset {fr : List Block} {s0 : State} (b : Fin 4) (offset : Int) (delay : Int) (bound : Nat) (n : Nat) {s : State} (h_out : Block.out ∈ fr) (h_time : Block.time ∈ fr) (h_win : Block.win ∈ fr) (h_nor : Block.nor ∈ fr) (h_evt : Block.evt ∈ fr) (h_stats : Block.stats ∈ fr) (h_hostMem : Block.hostMem ∈ fr) (hkp : Only fr s0 s) : Only fr s0 (takeOffset b offset delay bound n s) := by
  grind [takeOffset, only_setBase, only_stepBase, only_raise, only_deriveSt]

theorem only_followTime {fr : List Block} {s0 : State} (b : List Byte) (arrived : BitVec 48) {s : State} (h_out : Block.out ∈ fr) (h_time : Block.time ∈ fr) (h_win : Block.win ∈ fr) (h_nor : Block.nor ∈ fr) (h_evt : Block.evt ∈ fr) (h_stats : Block.stats ∈ fr) (h_hostMem : Block.hostMem ∈ fr) (hkp : Only fr s0 s) : Only fr s0 (followTime b arrived s) := by
  grind [followTime, only_takeOffset, only_upd]

theorem only_execTime {fr : List Block} (p : Fin 8) (sp : Spore) {s : State} {t : State} (h_out : Block.out ∈ fr) (h_time : Block.time ∈ fr) (h_win : Block.win ∈ fr) (h_fab : Block.fab ∈ fr) (h_nor : Block.nor ∈ fr) (h_diag : Block.diag ∈ fr) (h_evt : Block.evt ∈ fr) (h_stats : Block.stats ∈ fr) (h_hostMem : Block.hostMem ∈ fr) (hx : (execTime p sp s) = .next t) : Only fr s t := by
  have h0 := Only.refl fr s
  grind [execTime, only_rxSpore, only_masterConflict, only_followTime, only_upd]

theorem only_sendTime {fr : List Block} {s0 : State} (p : Fin 8) {s : State} (h_out : Block.out ∈ fr) (h_time : Block.time ∈ fr) (h_fab : Block.fab ∈ fr) (h_diag : Block.diag ∈ fr) (h_stats : Block.stats ∈ fr) (hkp : Only fr s0 s) : Only fr s0 (sendTime p s) := by
  grind [sendTime, only_originateOn, only_upd]

theorem only_execTimeSporeTimer {fr : List Block} {s : State} {t : State} (h_out : Block.out ∈ fr) (h_time : Block.time ∈ fr) (h_fab : Block.fab ∈ fr) (h_diag : Block.diag ∈ fr) (h_stats : Block.stats ∈ fr) (hx : (execTimeSporeTimer s) = .next t) : Only fr s t := by
  have h0 := Only.refl fr s
  grind [execTimeSporeTimer, only_sendTime, only_foldl]

theorem only_execTimeSourceTimeout {fr : List Block} (base : Fin 4) {s : State} {t : State} (h_out : Block.out ∈ fr) (h_time : Block.time ∈ fr) (h_win : Block.win ∈ fr) (h_nor : Block.nor ∈ fr) (h_evt : Block.evt ∈ fr) (h_stats : Block.stats ∈ fr) (h_hostMem : Block.hostMem ∈ fr) (hx : (execTimeSourceTimeout base s) = .next t) : Only fr s t := by
  have h0 := Only.refl fr s
  grind [execTimeSourceTimeout, only_sourceLost]

theorem only_execPtpAnnounce {fr : List Block} (m : PtpMsg) {s : State} {t : State} (h_out : Block.out ∈ fr) (h_time : Block.time ∈ fr) (h_win : Block.win ∈ fr) (h_nor : Block.nor ∈ fr) (h_evt : Block.evt ∈ fr) (h_stats : Block.stats ∈ fr) (h_hostMem : Block.hostMem ∈ fr) (hx : (execPtpAnnounce m s) = .next t) : Only fr s t := by
  have h0 := Only.refl fr s
  grind [execPtpAnnounce, only_chooseMaster, only_stat, only_upd]

theorem only_syncTime {fr : List Block} {s0 : State} (origin : Int) (received : Int) {s : State} (h_out : Block.out ∈ fr) (h_time : Block.time ∈ fr) (h_win : Block.win ∈ fr) (h_nor : Block.nor ∈ fr) (h_evt : Block.evt ∈ fr) (h_stats : Block.stats ∈ fr) (h_hostMem : Block.hostMem ∈ fr) (hkp : Only fr s0 s) : Only fr s0 (syncTime origin received s) := by
  unfold syncTime
  (repeat' split) <;> grind [only_takeOffset, only_emit, only_stat, only_upd]

theorem only_execPtpSync {fr : List Block} (m : PtpMsg) {s : State} {t : State} (h_out : Block.out ∈ fr) (h_time : Block.time ∈ fr) (h_win : Block.win ∈ fr) (h_nor : Block.nor ∈ fr) (h_evt : Block.evt ∈ fr) (h_stats : Block.stats ∈ fr) (h_hostMem : Block.hostMem ∈ fr) (hx : (execPtpSync m s) = .next t) : Only fr s t := by
  have h0 := Only.refl fr s
  grind [execPtpSync, only_stat, only_syncTime, only_upd]

theorem only_execPtpFollowUp {fr : List Block} (m : PtpMsg) {s : State} {t : State} (h_out : Block.out ∈ fr) (h_time : Block.time ∈ fr) (h_win : Block.win ∈ fr) (h_nor : Block.nor ∈ fr) (h_evt : Block.evt ∈ fr) (h_stats : Block.stats ∈ fr) (h_hostMem : Block.hostMem ∈ fr) (hx : (execPtpFollowUp m s) = .next t) : Only fr s t := by
  have h0 := Only.refl fr s
  grind [execPtpFollowUp, only_stat, only_syncTime]

theorem only_execPtpDelayResp {fr : List Block} (m : PtpMsg) {s : State} {t : State} (h_time : Block.time ∈ fr) (h_stats : Block.stats ∈ fr) (hx : (execPtpDelayResp m s) = .next t) : Only fr s t := by
  have h0 := Only.refl fr s
  grind [execPtpDelayResp, only_stat, only_setBase, only_upd]

theorem only_execPtpMasterTimeout {fr : List Block} {s : State} {t : State} (h_out : Block.out ∈ fr) (h_time : Block.time ∈ fr) (h_win : Block.win ∈ fr) (h_nor : Block.nor ∈ fr) (h_evt : Block.evt ∈ fr) (h_stats : Block.stats ∈ fr) (h_hostMem : Block.hostMem ∈ fr) (hx : (execPtpMasterTimeout s) = .next t) : Only fr s t := by
  have h0 := Only.refl fr s
  grind [execPtpMasterTimeout, only_sourceLost, only_upd]

theorem only_tick {fr : List Block} {s0 : State} {s : State} (h_time : Block.time ∈ fr) (hkp : Only fr s0 s) : Only fr s0 (tick s) := by
  grind [tick, only_upd]

theorem only_finishOpen {fr : List Block} {s0 : State} (w : Waiting) (status : Nat) {s : State} (h_out : Block.out ∈ fr) (h_win : Block.win ∈ fr) (h_mb : Block.mb ∈ fr) (h_svc : Block.svc ∈ fr) (h_stats : Block.stats ∈ fr) (h_hostMem : Block.hostMem ∈ fr) (h_free : Block.free ∈ fr) (hkp : Only fr s0 s) : Only fr s0 (finishOpen w status s) := by
  grind [finishOpen, only_takeFree, only_finish, → only_takeFree_eq]

theorem only_loopDown {fr : List Block} {s0 : State} (path : Nat) (unit : Nat) {s : State} (h_out : Block.out ∈ fr) (h_pm : Block.pm ∈ fr) (h_time : Block.time ∈ fr) (h_win : Block.win ∈ fr) (h_rnd : Block.rnd ∈ fr) (h_store : Block.store ∈ fr) (h_seq : Block.seq ∈ fr) (h_link : Block.link ∈ fr) (h_trk : Block.trk ∈ fr) (h_scan : Block.scan ∈ fr) (h_fab : Block.fab ∈ fr) (h_nor : Block.nor ∈ fr) (h_diag : Block.diag ∈ fr) (h_evt : Block.evt ∈ fr) (h_stats : Block.stats ∈ fr) (h_hostMem : Block.hostMem ∈ fr) (h_free : Block.free ∈ fr) (hkp : Only fr s0 s) : Only fr s0 (loopDown path unit s) := by
  grind [loopDown, only_portGone, only_setPort, only_linkFails]

theorem only_execDiagLoopback {fr : List Block} (e : Entry) {s : State} {t : State} (h_out : Block.out ∈ fr) (h_pm : Block.pm ∈ fr) (h_time : Block.time ∈ fr) (h_win : Block.win ∈ fr) (h_mb : Block.mb ∈ fr) (h_rnd : Block.rnd ∈ fr) (h_store : Block.store ∈ fr) (h_seq : Block.seq ∈ fr) (h_link : Block.link ∈ fr) (h_trk : Block.trk ∈ fr) (h_scan : Block.scan ∈ fr) (h_fab : Block.fab ∈ fr) (h_nor : Block.nor ∈ fr) (h_svc : Block.svc ∈ fr) (h_diag : Block.diag ∈ fr) (h_evt : Block.evt ∈ fr) (h_stats : Block.stats ∈ fr) (h_hostMem : Block.hostMem ∈ fr) (h_free : Block.free ∈ fr) (hx : (execDiagLoopback e s) = .next t) : Only fr s t := by
  have h0 := Only.refl fr s
  grind [execDiagLoopback, only_takeUp, only_finishOpen, only_finish, only_loopDown, only_wait, only_upd]

theorem only_place {fr : List Block} {s0 : State} (fault : Nat) (count : Nat) (param : BitVec 32) {s : State} (h_out : Block.out ∈ fr) (h_pm : Block.pm ∈ fr) (h_win : Block.win ∈ fr) (h_rnd : Block.rnd ∈ fr) (h_store : Block.store ∈ fr) (h_seq : Block.seq ∈ fr) (h_link : Block.link ∈ fr) (h_trk : Block.trk ∈ fr) (h_scan : Block.scan ∈ fr) (h_nor : Block.nor ∈ fr) (h_diag : Block.diag ∈ fr) (h_evt : Block.evt ∈ fr) (h_stats : Block.stats ∈ fr) (h_hostMem : Block.hostMem ∈ fr) (h_free : Block.free ∈ fr) (hkp : Only fr s0 s) : Only fr s0 (place fault count param s) := by
  unfold place
  (repeat' split) <;> grind [only_laneLost, only_upd]

theorem only_execDiagInject {fr : List Block} (e : Entry) {s : State} {t : State} (h_out : Block.out ∈ fr) (h_pm : Block.pm ∈ fr) (h_win : Block.win ∈ fr) (h_mb : Block.mb ∈ fr) (h_rnd : Block.rnd ∈ fr) (h_store : Block.store ∈ fr) (h_seq : Block.seq ∈ fr) (h_link : Block.link ∈ fr) (h_trk : Block.trk ∈ fr) (h_scan : Block.scan ∈ fr) (h_nor : Block.nor ∈ fr) (h_svc : Block.svc ∈ fr) (h_diag : Block.diag ∈ fr) (h_evt : Block.evt ∈ fr) (h_stats : Block.stats ∈ fr) (h_hostMem : Block.hostMem ∈ fr) (h_free : Block.free ∈ fr) (hx : (execDiagInject e s) = .next t) : Only fr s t := by
  have h0 := Only.refl fr s
  grind [execDiagInject, only_takeUp, only_finish, only_finishOpen, only_place, only_raise]

theorem only_execDiagCounters {fr : List Block} (e : Entry) {s : State} {t : State} (h_out : Block.out ∈ fr) (h_win : Block.win ∈ fr) (h_mb : Block.mb ∈ fr) (h_nor : Block.nor ∈ fr) (h_svc : Block.svc ∈ fr) (h_aper : Block.aper ∈ fr) (h_evt : Block.evt ∈ fr) (h_stats : Block.stats ∈ fr) (h_hostMem : Block.hostMem ∈ fr) (h_free : Block.free ∈ fr) (hx : (execDiagCounters e s) = .next t) : Only fr s t := by
  have h0 := Only.refl fr s
  grind [execDiagCounters, only_takeUp, only_finishOpen, only_mapAperture, only_finish]

theorem only_execLoopbackDurationEnd {fr : List Block} (n : BitVec 64) (errors : BitVec 64) (losses : BitVec 32) {s : State} {t : State} (h_out : Block.out ∈ fr) (h_win : Block.win ∈ fr) (h_mb : Block.mb ∈ fr) (h_svc : Block.svc ∈ fr) (h_diag : Block.diag ∈ fr) (h_stats : Block.stats ∈ fr) (h_hostMem : Block.hostMem ∈ fr) (hx : (execLoopbackDurationEnd n errors losses s) = .next t) : Only fr s t := by
  have h0 := Only.refl fr s
  grind [execLoopbackDurationEnd, only_settle, only_upd]

theorem only_execAckWithholdEnd {fr : List Block} {s : State} {t : State} (h_diag : Block.diag ∈ fr) (hx : (execAckWithholdEnd s) = .next t) : Only fr s t := by
  have h0 := Only.refl fr s
  grind [execAckWithholdEnd, only_upd]

theorem only_flushKept {fr : List Block} {s0 : State} (m : Nat) (i : Fin 64) (a2 : List (Nat × Completion)) {a3 : State} (h_out : Block.out ∈ fr) (h_win : Block.win ∈ fr) (h_stats : Block.stats ∈ fr) (h_hostMem : Block.hostMem ∈ fr) (hkp : Only fr s0 a3) : Only fr s0 (flushKept m i a2 a3) := by
  fun_induction flushKept m i a2 a3 <;> grind [only_pushEntry, only_upd]

theorem only_ringSpace {fr : List Block} {s0 : State} (i : Fin 64) {s : State} (h_out : Block.out ∈ fr) (h_win : Block.win ∈ fr) (h_stats : Block.stats ∈ fr) (h_hostMem : Block.hostMem ∈ fr) (hkp : Only fr s0 s) : Only fr s0 (ringSpace i s) := by
  grind [ringSpace, only_serveResults]

theorem only_ringUp {fr : List Block} {s0 : State} (i : Fin 64) {s : State} (h_out : Block.out ∈ fr) (h_win : Block.win ∈ fr) (h_mb : Block.mb ∈ fr) (h_dma : Block.dma ∈ fr) (h_stats : Block.stats ∈ fr) (h_hostMem : Block.hostMem ∈ fr) (hkp : Only fr s0 s) : Only fr s0 (ringUp i s) := by
  grind [ringUp, only_flushKept, only_setCh, only_ringSpace, only_upd]

theorem only_activate {fr : List Block} {s0 : State} (i : Fin 64) (cfg : BitVec 64) {s : State} (h_out : Block.out ∈ fr) (h_win : Block.win ∈ fr) (h_mb : Block.mb ∈ fr) (h_dma : Block.dma ∈ fr) (h_stats : Block.stats ∈ fr) (h_hostMem : Block.hostMem ∈ fr) (hkp : Only fr s0 s) : Only fr s0 (activate i cfg s) := by
  grind [activate, only_ringUp, only_writeShadow, only_setRing]

theorem only_doorbell {fr : List Block} {s0 : State} (i : Fin 64) (new : BitVec 32) {s : State} (h_out : Block.out ∈ fr) (h_win : Block.win ∈ fr) (h_nor : Block.nor ∈ fr) (h_evt : Block.evt ∈ fr) (h_stats : Block.stats ∈ fr) (h_hostMem : Block.hostMem ∈ fr) (hkp : Only fr s0 s) : Only fr s0 (doorbell i new s) := by
  grind [doorbell, only_writeRefused, only_ringSpace, only_setRing, only_raise]

theorem only_execDoorbellWrite {fr : List Block} (i : Fin 64) (v : BitVec 64) {s : State} {t : State} (h_out : Block.out ∈ fr) (h_win : Block.win ∈ fr) (h_nor : Block.nor ∈ fr) (h_evt : Block.evt ∈ fr) (h_stats : Block.stats ∈ fr) (h_hostMem : Block.hostMem ∈ fr) (hx : (execDoorbellWrite i v s) = .next t) : Only fr s t := by
  have h0 := Only.refl fr s
  grind [execDoorbellWrite, only_doorbell]

theorem only_stopping {fr : List Block} {s0 : State} (i : Fin 64) (cfg : BitVec 64) {s : State} (h_out : Block.out ∈ fr) (h_win : Block.win ∈ fr) (h_hostMem : Block.hostMem ∈ fr) (hkp : Only fr s0 s) : Only fr s0 (stopping i cfg s) := by
  grind [stopping, only_setRing, only_stopRing]

theorem only_writeRingCfg {fr : List Block} {s0 : State} (i : Fin 64) (en : Bool) (v : BitVec 64) {s : State} (h_out : Block.out ∈ fr) (h_win : Block.win ∈ fr) (h_mb : Block.mb ∈ fr) (h_dma : Block.dma ∈ fr) (h_nor : Block.nor ∈ fr) (h_evt : Block.evt ∈ fr) (h_stats : Block.stats ∈ fr) (h_hostMem : Block.hostMem ∈ fr) (hkp : Only fr s0 s) : Only fr s0 (writeRingCfg i en v s) := by
  grind [writeRingCfg, only_activate, only_setRing, only_writeRefused, only_stopping]

theorem only_execRingEnable {fr : List Block} (i : Fin 64) (v : BitVec 64) {s : State} {t : State} (h_out : Block.out ∈ fr) (h_win : Block.win ∈ fr) (h_mb : Block.mb ∈ fr) (h_dma : Block.dma ∈ fr) (h_nor : Block.nor ∈ fr) (h_evt : Block.evt ∈ fr) (h_stats : Block.stats ∈ fr) (h_hostMem : Block.hostMem ∈ fr) (hx : (execRingEnable i v s) = .next t) : Only fr s t := by
  have h0 := Only.refl fr s
  grind [execRingEnable, only_writeRingCfg]

theorem only_execRingDisable {fr : List Block} (i : Fin 64) (v : BitVec 64) {s : State} {t : State} (h_out : Block.out ∈ fr) (h_win : Block.win ∈ fr) (h_mb : Block.mb ∈ fr) (h_dma : Block.dma ∈ fr) (h_nor : Block.nor ∈ fr) (h_evt : Block.evt ∈ fr) (h_stats : Block.stats ∈ fr) (h_hostMem : Block.hostMem ∈ fr) (hx : (execRingDisable i v s) = .next t) : Only fr s t := by
  have h0 := Only.refl fr s
  grind [execRingDisable, only_writeRingCfg]

theorem only_writeWinStatus {fr : List Block} {s0 : State} (v : BitVec 32) {s : State} (h_win : Block.win ∈ fr) (hkp : Only fr s0 s) : Only fr s0 (writeWinStatus v s) := by
  grind [writeWinStatus, only_upd]

theorem only_execWinStatusClear {fr : List Block} (v : BitVec 32) {s : State} {t : State} (h_win : Block.win ∈ fr) (hx : (execWinStatusClear v s) = .next t) : Only fr s t := by
  have h0 := Only.refl fr s
  grind [execWinStatusClear, only_writeWinStatus]

theorem only_writeRingStatus {fr : List Block} {s0 : State} (i : Fin 64) (v : BitVec 32) {s : State} (h_win : Block.win ∈ fr) (hkp : Only fr s0 s) : Only fr s0 (writeRingStatus i v s) := by
  grind [writeRingStatus, only_setRing]

theorem only_execRingStatusClear {fr : List Block} (i : Fin 64) (v : BitVec 32) {s : State} {t : State} (h_win : Block.win ∈ fr) (hx : (execRingStatusClear i v s) = .next t) : Only fr s t := by
  have h0 := Only.refl fr s
  grind [execRingStatusClear, only_writeRingStatus]

theorem only_writeWinStage {fr : List Block} {s0 : State} (v : BitVec 32) {s : State} (h_out : Block.out ∈ fr) (h_win : Block.win ∈ fr) (h_nor : Block.nor ∈ fr) (h_evt : Block.evt ∈ fr) (h_stats : Block.stats ∈ fr) (h_hostMem : Block.hostMem ∈ fr) (hkp : Only fr s0 s) : Only fr s0 (writeWinStage v s) := by
  grind [writeWinStage, only_writeRefused, only_upd]

theorem only_execWinStageWrite {fr : List Block} (v : BitVec 32) {s : State} {t : State} (h_out : Block.out ∈ fr) (h_win : Block.win ∈ fr) (h_nor : Block.nor ∈ fr) (h_evt : Block.evt ∈ fr) (h_stats : Block.stats ∈ fr) (h_hostMem : Block.hostMem ∈ fr) (hx : (execWinStageWrite v s) = .next t) : Only fr s t := by
  have h0 := Only.refl fr s
  grind [execWinStageWrite, only_writeWinStage]

theorem only_reservedWrite {fr : List Block} {s0 : State} (off : Nat) (size : Nat) {s : State} (h_out : Block.out ∈ fr) (h_win : Block.win ∈ fr) (h_nor : Block.nor ∈ fr) (h_evt : Block.evt ∈ fr) (h_stats : Block.stats ∈ fr) (h_hostMem : Block.hostMem ∈ fr) (hkp : Only fr s0 s) : Only fr s0 (reservedWrite off size s) := by
  grind [reservedWrite, only_raiseLimited]

theorem only_writeRingAddr {fr : List Block} {s0 : State} (i : Fin 64) (shadow : Bool) (v : BitVec 64) {s : State} (h_out : Block.out ∈ fr) (h_win : Block.win ∈ fr) (h_nor : Block.nor ∈ fr) (h_evt : Block.evt ∈ fr) (h_stats : Block.stats ∈ fr) (h_hostMem : Block.hostMem ∈ fr) (hkp : Only fr s0 s) : Only fr s0 (writeRingAddr i shadow v s) := by
  grind [writeRingAddr, only_setRing, only_writeRefused]

theorem only_writeRingTable {fr : List Block} {s0 : State} (i : Fin 64) (k : Nat) (v : BitVec 64) {s : State} (h_out : Block.out ∈ fr) (h_win : Block.win ∈ fr) (h_mb : Block.mb ∈ fr) (h_dma : Block.dma ∈ fr) (h_nor : Block.nor ∈ fr) (h_evt : Block.evt ∈ fr) (h_stats : Block.stats ∈ fr) (h_hostMem : Block.hostMem ∈ fr) (hkp : Only fr s0 s) : Only fr s0 (writeRingTable i k v s) := by
  unfold writeRingTable
  (repeat' split) <;> grind [only_writeRingAddr, only_writeRingCfg, only_writeRingStatus, only_upd]

theorem only_sendPending {fr : List Block} {s0 : State} (v : Fin 64) {s : State} (h_out : Block.out ∈ fr) (h_win : Block.win ∈ fr) (h_stats : Block.stats ∈ fr) (hkp : Only fr s0 s) : Only fr s0 (sendPending v s) := by
  grind [sendPending, only_sendMsix, only_upd]

theorem only_writeMsix {fr : List Block} {s0 : State} (v : Fin 64) (k : Nat) (x : BitVec 32) {s : State} (h_out : Block.out ∈ fr) (h_win : Block.win ∈ fr) (h_stats : Block.stats ∈ fr) (hkp : Only fr s0 s) : Only fr s0 (writeMsix v k x s) := by
  grind [writeMsix, only_sendPending, only_upd]

theorem only_writeReg {fr : List Block} {s0 : State} (off : Nat) (v : BitVec 64) {s : State} (h_out : Block.out ∈ fr) (h_win : Block.win ∈ fr) (h_mb : Block.mb ∈ fr) (h_dma : Block.dma ∈ fr) (h_nor : Block.nor ∈ fr) (h_evt : Block.evt ∈ fr) (h_stats : Block.stats ∈ fr) (h_hostMem : Block.hostMem ∈ fr) (hkp : Only fr s0 s) : Only fr s0 (writeReg off v s) := by
  grind [writeReg, only_writeWinStatus, only_writeWinStage, only_writeRingTable, only_doorbell, only_writeMsix, only_reservedWrite, only_upd]

theorem only_execRegisterWrite {fr : List Block} (off : BitVec 24) (wide : Bool) (v : BitVec 64) {s : State} {t : State} (h_out : Block.out ∈ fr) (h_win : Block.win ∈ fr) (h_mb : Block.mb ∈ fr) (h_dma : Block.dma ∈ fr) (h_nor : Block.nor ∈ fr) (h_evt : Block.evt ∈ fr) (h_stats : Block.stats ∈ fr) (h_hostMem : Block.hostMem ∈ fr) (hx : (execRegisterWrite off wide v s) = .next t) : Only fr s t := by
  have h0 := Only.refl fr s
  grind [execRegisterWrite, only_reservedWrite, only_writeReg]

theorem only_execWinReservedWrite {fr : List Block} (off : BitVec 24) (size : Nat) {s : State} {t : State} (h_out : Block.out ∈ fr) (h_win : Block.win ∈ fr) (h_nor : Block.nor ∈ fr) (h_evt : Block.evt ∈ fr) (h_stats : Block.stats ∈ fr) (h_hostMem : Block.hostMem ∈ fr) (hx : (execWinReservedWrite off size s) = .next t) : Only fr s t := by
  have h0 := Only.refl fr s
  grind [execWinReservedWrite, only_reservedWrite]

theorem only_execBar4Access {fr : List Block} (addr : BitVec 28) (write : Bool) (len : Nat) (data : List Byte) {s : State} {t : State} (h_out : Block.out ∈ fr) (h_win : Block.win ∈ fr) (h_nor : Block.nor ∈ fr) (h_evt : Block.evt ∈ fr) (h_stats : Block.stats ∈ fr) (h_hbmMem : Block.hbmMem ∈ fr) (h_hostMem : Block.hostMem ∈ fr) (hx : (execBar4Access addr write len data s) = .next t) : Only fr s t := by
  have h0 := Only.refl fr s
  grind [execBar4Access, only_raise, only_emit, only_hbmWrite]

theorem only_execMsixVectorUnmask {fr : List Block} (v : Fin 64) {s : State} {t : State} (h_out : Block.out ∈ fr) (h_win : Block.win ∈ fr) (h_stats : Block.stats ∈ fr) (hx : (execMsixVectorUnmask v s) = .next t) : Only fr s t := by
  have h0 := Only.refl fr s
  grind [execMsixVectorUnmask, only_sendPending, only_upd]

theorem only_execMsixCoalesceTimeout {fr : List Block} (i : Fin 64) {s : State} {t : State} (h_out : Block.out ∈ fr) (h_win : Block.win ∈ fr) (h_stats : Block.stats ∈ fr) (hx : (execMsixCoalesceTimeout i s) = .next t) : Only fr s t := by
  have h0 := Only.refl fr s
  grind [execMsixCoalesceTimeout, only_sendMsix, only_setRing]

theorem only_execRingBusError {fr : List Block} (i : Fin 64) (addr : BitVec 64) {s : State} {t : State} (h_out : Block.out ∈ fr) (h_win : Block.win ∈ fr) (h_nor : Block.nor ∈ fr) (h_evt : Block.evt ∈ fr) (h_stats : Block.stats ∈ fr) (h_hostMem : Block.hostMem ∈ fr) (hx : (execRingBusError i addr s) = .next t) : Only fr s t := by
  have h0 := Only.refl fr s
  grind [execRingBusError, only_setFlag, only_raise, only_setRing]

theorem only_resetFunction {fr : List Block} {s0 : State} {s : State} (h_win : Block.win ∈ fr) (hkp : Only fr s0 s) : Only fr s0 (resetFunction s) := by
  grind [resetFunction, only_upd]

theorem only_interruptDesc {fr : List Block} {s0 : State} (c : Nat) (d : Desc) {s : State} (h_out : Block.out ∈ fr) (h_win : Block.win ∈ fr) (h_dma : Block.dma ∈ fr) (h_nor : Block.nor ∈ fr) (h_evt : Block.evt ∈ fr) (h_stats : Block.stats ∈ fr) (h_hostMem : Block.hostMem ∈ fr) (hkp : Only fr s0 s) : Only fr s0 (interruptDesc c d s) := by
  grind [interruptDesc, only_raise, only_upd]

theorem only_interruptDescs {fr : List Block} {s0 : State} (c : Nat) (a1 : List Desc) {a2 : State} (h_out : Block.out ∈ fr) (h_win : Block.win ∈ fr) (h_dma : Block.dma ∈ fr) (h_nor : Block.nor ∈ fr) (h_evt : Block.evt ∈ fr) (h_stats : Block.stats ∈ fr) (h_hostMem : Block.hostMem ∈ fr) (hkp : Only fr s0 a2) : Only fr s0 (interruptDescs c a1 a2) := by
  fun_induction interruptDescs c a1 a2 <;> grind [only_interruptDesc, only_upd]

theorem only_stopChannels {fr : List Block} {s0 : State} (a0 : List Nat) {a1 : State} (h_out : Block.out ∈ fr) (h_win : Block.win ∈ fr) (h_dma : Block.dma ∈ fr) (h_nor : Block.nor ∈ fr) (h_evt : Block.evt ∈ fr) (h_stats : Block.stats ∈ fr) (h_hostMem : Block.hostMem ∈ fr) (hkp : Only fr s0 a1) : Only fr s0 (stopChannels a0 a1) := by
  fun_induction stopChannels a0 a1 <;> grind [only_interruptDescs, only_upd]

theorem only_stopDma {fr : List Block} {s0 : State} {s : State} (h_out : Block.out ∈ fr) (h_win : Block.win ∈ fr) (h_dma : Block.dma ∈ fr) (h_nor : Block.nor ∈ fr) (h_evt : Block.evt ∈ fr) (h_stats : Block.stats ∈ fr) (h_hostMem : Block.hostMem ∈ fr) (hkp : Only fr s0 s) : Only fr s0 (stopDma s) := by
  grind [stopDma, only_stopChannels, only_upd]

theorem only_execFunctionLevelReset {fr : List Block} {s : State} {t : State} (h_out : Block.out ∈ fr) (h_pm : Block.pm ∈ fr) (h_win : Block.win ∈ fr) (h_dma : Block.dma ∈ fr) (h_nor : Block.nor ∈ fr) (h_evt : Block.evt ∈ fr) (h_stats : Block.stats ∈ fr) (h_hostMem : Block.hostMem ∈ fr) (hx : (execFunctionLevelReset s) = .next t) : Only fr s t := by
  have h0 := Only.refl fr s
  grind [execFunctionLevelReset, only_resetOccurred, only_recordReset, only_stat, only_resetFunction, only_stopDma]

theorem only_execPerst {fr : List Block} {s : State} {t : State} (h_out : Block.out ∈ fr) (h_pm : Block.pm ∈ fr) (h_win : Block.win ∈ fr) (h_dma : Block.dma ∈ fr) (h_nor : Block.nor ∈ fr) (h_aper : Block.aper ∈ fr) (h_evt : Block.evt ∈ fr) (h_stats : Block.stats ∈ fr) (h_hostMem : Block.hostMem ∈ fr) (hx : (execPerst s) = .next t) : Only fr s t := by
  have h0 := Only.refl fr s
  grind [execPerst, only_stopDma, only_resetOccurred, only_recordReset, only_upd]

theorem only_setPc {fr : List Block} {s0 : State} (p : Fin 64) (x : PseudoCh) {s : State} (h_hbm : Block.hbm ∈ fr) (hkp : Only fr s0 s) : Only fr s0 (setPc p x s) := by
  grind [setPc, only_upd]

theorem only_activateRow {fr : List Block} {s0 : State} (p : Fin 64) (r : Nat) {s : State} (h_hbm : Block.hbm ∈ fr) (h_stats : Block.stats ∈ fr) (hkp : Only fr s0 s) : Only fr s0 (activateRow p r s) := by
  grind [activateRow, only_stat, only_setPc, only_statAdd]

theorem only_corrected {fr : List Block} {s0 : State} (p : Fin 64) (kind : Fin 6) (rec : BitVec 256) {s : State} (h_out : Block.out ∈ fr) (h_win : Block.win ∈ fr) (h_hbm : Block.hbm ∈ fr) (h_nor : Block.nor ∈ fr) (h_evt : Block.evt ∈ fr) (h_stats : Block.stats ∈ fr) (h_hostMem : Block.hostMem ∈ fr) (hkp : Only fr s0 s) : Only fr s0 (corrected p kind rec s) := by
  grind [corrected, only_raiseLimited, only_stat, only_upd]

theorem only_countKind {fr : List Block} {s0 : State} (kind : Fin 6) {s : State} (h_hbm : Block.hbm ∈ fr) (hkp : Only fr s0 s) : Only fr s0 (countKind kind s) := by
  grind [countKind, only_upd]

theorem only_uncorrectable {fr : List Block} {s0 : State} (rec : BitVec 256) {s : State} (h_out : Block.out ∈ fr) (h_pm : Block.pm ∈ fr) (h_win : Block.win ∈ fr) (h_mb : Block.mb ∈ fr) (h_cfg : Block.cfg ∈ fr) (h_led : Block.led ∈ fr) (h_lay : Block.lay ∈ fr) (h_rnd : Block.rnd ∈ fr) (h_store : Block.store ∈ fr) (h_seq : Block.seq ∈ fr) (h_link : Block.link ∈ fr) (h_trk : Block.trk ∈ fr) (h_scan : Block.scan ∈ fr) (h_dma : Block.dma ∈ fr) (h_fab : Block.fab ∈ fr) (h_hbm : Block.hbm ∈ fr) (h_cal : Block.cal ∈ fr) (h_keep : Block.keep ∈ fr) (h_nor : Block.nor ∈ fr) (h_svc : Block.svc ∈ fr) (h_smb : Block.smb ∈ fr) (h_diag : Block.diag ∈ fr) (h_evt : Block.evt ∈ fr) (h_stats : Block.stats ∈ fr) (h_hostMem : Block.hostMem ∈ fr) (h_free : Block.free ∈ fr) (hkp : Only fr s0 s) : Only fr s0 (uncorrectable rec s) := by
  grind [uncorrectable, only_enterHold, only_raise, only_upd]

theorem only_enterError {fr : List Block} {s0 : State} (off : Nat) (kind : Fin 6) (sev : Nat) (syndrome : Nat) (req : Nat) (rmw : Bool) {s : State} (h_out : Block.out ∈ fr) (h_pm : Block.pm ∈ fr) (h_win : Block.win ∈ fr) (h_mb : Block.mb ∈ fr) (h_cfg : Block.cfg ∈ fr) (h_led : Block.led ∈ fr) (h_lay : Block.lay ∈ fr) (h_rnd : Block.rnd ∈ fr) (h_store : Block.store ∈ fr) (h_seq : Block.seq ∈ fr) (h_link : Block.link ∈ fr) (h_trk : Block.trk ∈ fr) (h_scan : Block.scan ∈ fr) (h_dma : Block.dma ∈ fr) (h_fab : Block.fab ∈ fr) (h_hbm : Block.hbm ∈ fr) (h_cal : Block.cal ∈ fr) (h_keep : Block.keep ∈ fr) (h_nor : Block.nor ∈ fr) (h_svc : Block.svc ∈ fr) (h_smb : Block.smb ∈ fr) (h_diag : Block.diag ∈ fr) (h_evt : Block.evt ∈ fr) (h_stats : Block.stats ∈ fr) (h_hostMem : Block.hostMem ∈ fr) (h_free : Block.free ∈ fr) (hkp : Only fr s0 s) : Only fr s0 (enterError off kind sev syndrome req rmw s) := by
  grind [enterError, only_countKind, only_corrected, only_uncorrectable]

theorem only_execHbmRefresh {fr : List Block} (a0 : Fin 64) {s : State} {t : State}  (hx : (execHbmRefresh a0 s) = .next t) : Only fr s t := by
  have h0 := Only.refl fr s
  unfold execHbmRefresh at hx
  (repeat' split at hx) <;> grind [only_upd]

theorem only_markDue {fr : List Block} {s0 : State} {s : State} (h_hbm : Block.hbm ∈ fr) (hkp : Only fr s0 s) : Only fr s0 (markDue s) := by
  grind [markDue, only_upd]

theorem only_stackTemp {fr : List Block} {s0 : State} (k : Fin 2) (t : BitVec 16) {s : State} (h_out : Block.out ∈ fr) (h_win : Block.win ∈ fr) (h_hbm : Block.hbm ∈ fr) (h_nor : Block.nor ∈ fr) (h_evt : Block.evt ∈ fr) (h_stats : Block.stats ∈ fr) (h_hostMem : Block.hostMem ∈ fr) (hkp : Only fr s0 s) : Only fr s0 (stackTemp k t s) := by
  grind [stackTemp, only_raise, only_upd]

theorem only_execHbmTempRead {fr : List Block} (t0 : BitVec 16) (t1 : BitVec 16) {s : State} {t : State} (h_out : Block.out ∈ fr) (h_win : Block.win ∈ fr) (h_hbm : Block.hbm ∈ fr) (h_nor : Block.nor ∈ fr) (h_evt : Block.evt ∈ fr) (h_stats : Block.stats ∈ fr) (h_hostMem : Block.hostMem ∈ fr) (hx : (execHbmTempRead t0 t1 s) = .next t) : Only fr s t := by
  have h0 := Only.refl fr s
  grind [execHbmTempRead, only_markDue, only_stackTemp]

theorem only_readKind {fr : List Block} {s0 : State} (kind : Fin 6) {s : State} (h_diag : Block.diag ∈ fr) (hkp : Only fr s0 s) : Only fr s0 (readKind kind s).2 := by
  grind [readKind, only_injected, → only_injected_eq]

theorem only_readKind_eq {fr : List Block} {s0 : State} (kind : Fin 6) {s : State} {v : Fin 6} {t : State} (h_diag : Block.diag ∈ fr) (hev : (readKind kind s) = (v, t)) (h : Only fr s0 s) : Only fr s0 t := by
  have k := only_readKind kind h_diag h
  rw [hev] at k
  exact k

theorem only_execHbmReadComplete {fr : List Block} (off : BitVec 36) (kind : Fin 6) (sev : BitVec 3) (syndrome : BitVec 9) (req : BitVec 8) (rmw : Bool) {s : State} {t : State} (h_out : Block.out ∈ fr) (h_pm : Block.pm ∈ fr) (h_win : Block.win ∈ fr) (h_mb : Block.mb ∈ fr) (h_cfg : Block.cfg ∈ fr) (h_led : Block.led ∈ fr) (h_lay : Block.lay ∈ fr) (h_rnd : Block.rnd ∈ fr) (h_store : Block.store ∈ fr) (h_seq : Block.seq ∈ fr) (h_link : Block.link ∈ fr) (h_trk : Block.trk ∈ fr) (h_scan : Block.scan ∈ fr) (h_dma : Block.dma ∈ fr) (h_fab : Block.fab ∈ fr) (h_hbm : Block.hbm ∈ fr) (h_cal : Block.cal ∈ fr) (h_keep : Block.keep ∈ fr) (h_nor : Block.nor ∈ fr) (h_svc : Block.svc ∈ fr) (h_smb : Block.smb ∈ fr) (h_diag : Block.diag ∈ fr) (h_evt : Block.evt ∈ fr) (h_stats : Block.stats ∈ fr) (h_hostMem : Block.hostMem ∈ fr) (h_free : Block.free ∈ fr) (hx : (execHbmReadComplete off kind sev syndrome req rmw s) = .next t) : Only fr s t := by
  have h0 := Only.refl fr s
  grind [execHbmReadComplete, only_activateRow, only_stat, only_readKind, only_enterError, → only_readKind_eq]

theorem only_execHbmRetrainSliceStart {fr : List Block} (p : Fin 64) {s : State} {t : State} (h_hbm : Block.hbm ∈ fr) (hx : (execHbmRetrainSliceStart p s) = .next t) : Only fr s t := by
  have h0 := Only.refl fr s
  grind [execHbmRetrainSliceStart, only_setPc]

theorem only_execHbmRetrainSliceEnd {fr : List Block} (p : Fin 64) (eye : BitVec 16) {s : State} {t : State} (h_out : Block.out ∈ fr) (h_win : Block.win ∈ fr) (h_hbm : Block.hbm ∈ fr) (h_nor : Block.nor ∈ fr) (h_evt : Block.evt ∈ fr) (h_stats : Block.stats ∈ fr) (h_hostMem : Block.hostMem ∈ fr) (hx : (execHbmRetrainSliceEnd p eye s) = .next t) : Only fr s t := by
  have h0 := Only.refl fr s
  grind [execHbmRetrainSliceEnd, only_stat, only_setPc, only_raise]

theorem only_execHbmRetrainForced {fr : List Block} (p : Fin 64) {s : State} {t : State} (h_out : Block.out ∈ fr) (h_win : Block.win ∈ fr) (h_hbm : Block.hbm ∈ fr) (h_nor : Block.nor ∈ fr) (h_evt : Block.evt ∈ fr) (h_stats : Block.stats ∈ fr) (h_hostMem : Block.hostMem ∈ fr) (hx : (execHbmRetrainForced p s) = .next t) : Only fr s t := by
  have h0 := Only.refl fr s
  grind [execHbmRetrainForced, only_raise, only_stat, only_setPc]

end Sys2Proof.Machine
end

