-- ==== Sys2Proof/Laws/Only7.lean ====
section
/-! SUPPORT. What the functions of these files keep of a state (Laws.Only): PowerCmd, CalCmd, Track, TrackCmd, ScanCmd. -/

namespace Sys2Proof.Machine

theorem only_endHeldReset {fr : List Block} {s0 : State} (b : BootIn) {s : State} (h_out : Block.out ∈ fr) (h_pm : Block.pm ∈ fr) (h_time : Block.time ∈ fr) (h_win : Block.win ∈ fr) (h_cfg : Block.cfg ∈ fr) (h_led : Block.led ∈ fr) (h_lay : Block.lay ∈ fr) (h_link : Block.link ∈ fr) (h_trk : Block.trk ∈ fr) (h_scan : Block.scan ∈ fr) (h_ilk : Block.ilk ∈ fr) (h_dma : Block.dma ∈ fr) (h_fab : Block.fab ∈ fr) (h_hbm : Block.hbm ∈ fr) (h_cal : Block.cal ∈ fr) (h_keep : Block.keep ∈ fr) (h_upd : Block.upd ∈ fr) (h_nor : Block.nor ∈ fr) (h_smb : Block.smb ∈ fr) (h_diag : Block.diag ∈ fr) (h_evt : Block.evt ∈ fr) (h_stats : Block.stats ∈ fr) (h_hbmMem : Block.hbmMem ∈ fr) (h_hostMem : Block.hostMem ∈ fr) (h_free : Block.free ∈ fr) (hkp : Only fr s0 s) : Only fr s0 (endHeldReset b s) := by
  grind [endHeldReset, only_startUp, only_raise, only_upd]

theorem only_execModeChangeDone {fr : List Block} (failed : Bool) (bad : BitVec 6) (tUs : BitVec 32) {s : State} {t : State} (h_out : Block.out ∈ fr) (h_pm : Block.pm ∈ fr) (h_time : Block.time ∈ fr) (h_win : Block.win ∈ fr) (h_mb : Block.mb ∈ fr) (h_cfg : Block.cfg ∈ fr) (h_led : Block.led ∈ fr) (h_lay : Block.lay ∈ fr) (h_rnd : Block.rnd ∈ fr) (h_store : Block.store ∈ fr) (h_seq : Block.seq ∈ fr) (h_link : Block.link ∈ fr) (h_trk : Block.trk ∈ fr) (h_scan : Block.scan ∈ fr) (h_dma : Block.dma ∈ fr) (h_fab : Block.fab ∈ fr) (h_hbm : Block.hbm ∈ fr) (h_keep : Block.keep ∈ fr) (h_nor : Block.nor ∈ fr) (h_svc : Block.svc ∈ fr) (h_smb : Block.smb ∈ fr) (h_diag : Block.diag ∈ fr) (h_evt : Block.evt ∈ fr) (h_stats : Block.stats ∈ fr) (h_hbmMem : Block.hbmMem ∈ fr) (h_hostMem : Block.hostMem ∈ fr) (h_free : Block.free ∈ fr) (hx : (execModeChangeDone failed bad tUs s) = .next t) : Only fr s t := by
  have h0 := Only.refl fr s
  grind [execModeChangeDone, only_failMode, only_completeChange]

theorem only_execHeartbeatTick {fr : List Block} {s : State} {t : State} (h_win : Block.win ∈ fr) (hx : (execHeartbeatTick s) = .next t) : Only fr s t := by
  have h0 := Only.refl fr s
  grind [execHeartbeatTick, only_upd]

theorem only_railDrops {fr : List Block} {s0 : State} (rail : Fin 9) (mv : BitVec 16) {s : State} (h_pm : Block.pm ∈ fr) (hkp : Only fr s0 s) : Only fr s0 (railDrops rail mv s) := by
  grind [railDrops, only_upd]

theorem only_failLowSupply {fr : List Block} {s0 : State} {s : State} (h_out : Block.out ∈ fr) (h_pm : Block.pm ∈ fr) (h_win : Block.win ∈ fr) (h_mb : Block.mb ∈ fr) (h_link : Block.link ∈ fr) (h_nor : Block.nor ∈ fr) (h_svc : Block.svc ∈ fr) (h_evt : Block.evt ∈ fr) (h_stats : Block.stats ∈ fr) (h_hostMem : Block.hostMem ∈ fr) (hkp : Only fr s0 s) : Only fr s0 (failLowSupply s) := by
  grind [failLowSupply, only_failMode]

theorem only_railWarns {fr : List Block} {s0 : State} (rail : Fin 9) (mv : BitVec 16) {s : State} (h_out : Block.out ∈ fr) (h_pm : Block.pm ∈ fr) (h_win : Block.win ∈ fr) (h_mb : Block.mb ∈ fr) (h_cfg : Block.cfg ∈ fr) (h_led : Block.led ∈ fr) (h_rnd : Block.rnd ∈ fr) (h_store : Block.store ∈ fr) (h_seq : Block.seq ∈ fr) (h_link : Block.link ∈ fr) (h_trk : Block.trk ∈ fr) (h_scan : Block.scan ∈ fr) (h_dma : Block.dma ∈ fr) (h_fab : Block.fab ∈ fr) (h_cal : Block.cal ∈ fr) (h_nor : Block.nor ∈ fr) (h_svc : Block.svc ∈ fr) (h_smb : Block.smb ∈ fr) (h_diag : Block.diag ∈ fr) (h_evt : Block.evt ∈ fr) (h_stats : Block.stats ∈ fr) (h_hostMem : Block.hostMem ∈ fr) (h_free : Block.free ∈ fr) (hkp : Only fr s0 s) : Only fr s0 (railWarns rail mv s) := by
  unfold railWarns
  have h1 := only_railDrops rail mv ‹_› hkp
  have h2 := only_setSmb 1 ‹_› (show Only fr s0 { railDrops rail mv s with
    pm := { (railDrops rail mv s).pm with warnings := (railDrops rail mv s).pm.warnings + 1 } } from (by grind [only_upd]))
  dsimp only
  split
  · exact h2
  · exact only_failLowSupply ‹_› ‹_› ‹_› ‹_› ‹_› ‹_› ‹_› ‹_› ‹_› ‹_› (only_abortCal ‹_› ‹_› ‹_› ‹_› ‹_› ‹_› ‹_› ‹_› ‹_› ‹_› ‹_› ‹_› ‹_› ‹_› ‹_› ‹_› (only_boundaryStop _ ‹_› ‹_› ‹_› ‹_› ‹_› ‹_› ‹_› ‹_› ‹_› ‹_› ‹_› ‹_› (only_setFlag _ ‹_› ‹_› ‹_› (only_raise _ _ _ ‹_› ‹_› ‹_› ‹_› ‹_› ‹_› h2))))

theorem only_execSupplyWarning {fr : List Block} (rail : Fin 9) (mv : BitVec 16) {s : State} {t : State} (h_out : Block.out ∈ fr) (h_pm : Block.pm ∈ fr) (h_win : Block.win ∈ fr) (h_mb : Block.mb ∈ fr) (h_cfg : Block.cfg ∈ fr) (h_led : Block.led ∈ fr) (h_rnd : Block.rnd ∈ fr) (h_store : Block.store ∈ fr) (h_seq : Block.seq ∈ fr) (h_link : Block.link ∈ fr) (h_trk : Block.trk ∈ fr) (h_scan : Block.scan ∈ fr) (h_dma : Block.dma ∈ fr) (h_fab : Block.fab ∈ fr) (h_cal : Block.cal ∈ fr) (h_nor : Block.nor ∈ fr) (h_svc : Block.svc ∈ fr) (h_smb : Block.smb ∈ fr) (h_diag : Block.diag ∈ fr) (h_evt : Block.evt ∈ fr) (h_stats : Block.stats ∈ fr) (h_hostMem : Block.hostMem ∈ fr) (h_free : Block.free ∈ fr) (hx : (execSupplyWarning rail mv s) = .next t) : Only fr s t := by
  have h0 := Only.refl fr s
  grind [execSupplyWarning, only_railDrops, only_railWarns]

theorem only_recoverRails {fr : List Block} {s0 : State} {s : State} (h_pm : Block.pm ∈ fr) (h_free : Block.free ∈ fr) (hkp : Only fr s0 s) : Only fr s0 (recoverRails s) := by
  grind [recoverRails, only_upd]

theorem only_execSupplyRecovered {fr : List Block} (b : BootIn) {s : State} {t : State} (h_out : Block.out ∈ fr) (h_pm : Block.pm ∈ fr) (h_time : Block.time ∈ fr) (h_win : Block.win ∈ fr) (h_cfg : Block.cfg ∈ fr) (h_led : Block.led ∈ fr) (h_lay : Block.lay ∈ fr) (h_link : Block.link ∈ fr) (h_trk : Block.trk ∈ fr) (h_scan : Block.scan ∈ fr) (h_ilk : Block.ilk ∈ fr) (h_dma : Block.dma ∈ fr) (h_fab : Block.fab ∈ fr) (h_hbm : Block.hbm ∈ fr) (h_cal : Block.cal ∈ fr) (h_keep : Block.keep ∈ fr) (h_upd : Block.upd ∈ fr) (h_nor : Block.nor ∈ fr) (h_smb : Block.smb ∈ fr) (h_diag : Block.diag ∈ fr) (h_evt : Block.evt ∈ fr) (h_stats : Block.stats ∈ fr) (h_hbmMem : Block.hbmMem ∈ fr) (h_hostMem : Block.hostMem ∈ fr) (h_free : Block.free ∈ fr) (hx : (execSupplyRecovered b s) = .next t) : Only fr s t := by
  have h0 := Only.refl fr s
  grind [execSupplyRecovered, only_recoverRails, only_raise, only_endHeldReset]

theorem only_execRailResetTrip {fr : List Block} (rail : Fin 9) (mv : BitVec 16) {s : State} {t : State} (h_out : Block.out ∈ fr) (h_pm : Block.pm ∈ fr) (h_time : Block.time ∈ fr) (h_win : Block.win ∈ fr) (h_mb : Block.mb ∈ fr) (h_cfg : Block.cfg ∈ fr) (h_led : Block.led ∈ fr) (h_lay : Block.lay ∈ fr) (h_rnd : Block.rnd ∈ fr) (h_store : Block.store ∈ fr) (h_seq : Block.seq ∈ fr) (h_link : Block.link ∈ fr) (h_trk : Block.trk ∈ fr) (h_scan : Block.scan ∈ fr) (h_ilk : Block.ilk ∈ fr) (h_dma : Block.dma ∈ fr) (h_fab : Block.fab ∈ fr) (h_hbm : Block.hbm ∈ fr) (h_cal : Block.cal ∈ fr) (h_keep : Block.keep ∈ fr) (h_upd : Block.upd ∈ fr) (h_nor : Block.nor ∈ fr) (h_smb : Block.smb ∈ fr) (h_diag : Block.diag ∈ fr) (h_aper : Block.aper ∈ fr) (h_evt : Block.evt ∈ fr) (h_stats : Block.stats ∈ fr) (h_hbmMem : Block.hbmMem ∈ fr) (h_hostMem : Block.hostMem ∈ fr) (h_free : Block.free ∈ fr) (hx : (execRailResetTrip rail mv s) = .next t) : Only fr s t := by
  have h0 := Only.refl fr s
  grind [execRailResetTrip, only_railDrops, only_holdReset]

theorem only_execThermalTrip {fr : List Block} {s : State} {t : State} (h_out : Block.out ∈ fr) (h_pm : Block.pm ∈ fr) (h_time : Block.time ∈ fr) (h_win : Block.win ∈ fr) (h_mb : Block.mb ∈ fr) (h_cfg : Block.cfg ∈ fr) (h_led : Block.led ∈ fr) (h_lay : Block.lay ∈ fr) (h_rnd : Block.rnd ∈ fr) (h_store : Block.store ∈ fr) (h_seq : Block.seq ∈ fr) (h_link : Block.link ∈ fr) (h_trk : Block.trk ∈ fr) (h_scan : Block.scan ∈ fr) (h_ilk : Block.ilk ∈ fr) (h_dma : Block.dma ∈ fr) (h_fab : Block.fab ∈ fr) (h_hbm : Block.hbm ∈ fr) (h_cal : Block.cal ∈ fr) (h_keep : Block.keep ∈ fr) (h_upd : Block.upd ∈ fr) (h_nor : Block.nor ∈ fr) (h_smb : Block.smb ∈ fr) (h_diag : Block.diag ∈ fr) (h_aper : Block.aper ∈ fr) (h_evt : Block.evt ∈ fr) (h_stats : Block.stats ∈ fr) (h_hbmMem : Block.hbmMem ∈ fr) (h_hostMem : Block.hostMem ∈ fr) (h_free : Block.free ∈ fr) (hx : (execThermalTrip s) = .next t) : Only fr s t := by
  have h0 := Only.refl fr s
  grind [execThermalTrip, only_holdReset, only_upd]

theorem only_execWatchdogReset {fr : List Block} {s : State} {t : State} (h_out : Block.out ∈ fr) (h_pm : Block.pm ∈ fr) (h_win : Block.win ∈ fr) (h_mb : Block.mb ∈ fr) (h_cfg : Block.cfg ∈ fr) (h_led : Block.led ∈ fr) (h_lay : Block.lay ∈ fr) (h_rnd : Block.rnd ∈ fr) (h_store : Block.store ∈ fr) (h_seq : Block.seq ∈ fr) (h_link : Block.link ∈ fr) (h_trk : Block.trk ∈ fr) (h_scan : Block.scan ∈ fr) (h_dma : Block.dma ∈ fr) (h_fab : Block.fab ∈ fr) (h_cal : Block.cal ∈ fr) (h_keep : Block.keep ∈ fr) (h_nor : Block.nor ∈ fr) (h_svc : Block.svc ∈ fr) (h_smb : Block.smb ∈ fr) (h_diag : Block.diag ∈ fr) (h_evt : Block.evt ∈ fr) (h_stats : Block.stats ∈ fr) (h_hostMem : Block.hostMem ∈ fr) (h_free : Block.free ∈ fr) (hx : (execWatchdogReset s) = .next t) : Only fr s t := by
  have h0 := Only.refl fr s
  grind [execWatchdogReset, only_resetFirmware, only_raise, only_upd]

theorem only_execPowerOnReset {fr : List Block} (testEn : Bool) (b : BootIn) {s : State} {t : State} (h_out : Block.out ∈ fr) (h_pm : Block.pm ∈ fr) (h_time : Block.time ∈ fr) (h_win : Block.win ∈ fr) (h_cfg : Block.cfg ∈ fr) (h_led : Block.led ∈ fr) (h_lay : Block.lay ∈ fr) (h_link : Block.link ∈ fr) (h_trk : Block.trk ∈ fr) (h_scan : Block.scan ∈ fr) (h_ilk : Block.ilk ∈ fr) (h_dma : Block.dma ∈ fr) (h_fab : Block.fab ∈ fr) (h_hbm : Block.hbm ∈ fr) (h_cal : Block.cal ∈ fr) (h_keep : Block.keep ∈ fr) (h_upd : Block.upd ∈ fr) (h_nor : Block.nor ∈ fr) (h_smb : Block.smb ∈ fr) (h_diag : Block.diag ∈ fr) (h_evt : Block.evt ∈ fr) (h_stats : Block.stats ∈ fr) (h_hbmMem : Block.hbmMem ∈ fr) (h_hostMem : Block.hostMem ∈ fr) (h_free : Block.free ∈ fr) (hx : (execPowerOnReset testEn b s) = .next t) : Only fr s t := by
  have h0 := Only.refl fr s
  grind [execPowerOnReset, only_startUp, only_recordReset, only_upd]

theorem only_execTableArrayUncorrectable {fr : List Block} (a : Fin 4) {s : State} {t : State} (h_out : Block.out ∈ fr) (h_pm : Block.pm ∈ fr) (h_win : Block.win ∈ fr) (h_mb : Block.mb ∈ fr) (h_cfg : Block.cfg ∈ fr) (h_led : Block.led ∈ fr) (h_lay : Block.lay ∈ fr) (h_rnd : Block.rnd ∈ fr) (h_store : Block.store ∈ fr) (h_seq : Block.seq ∈ fr) (h_link : Block.link ∈ fr) (h_trk : Block.trk ∈ fr) (h_scan : Block.scan ∈ fr) (h_dma : Block.dma ∈ fr) (h_fab : Block.fab ∈ fr) (h_cal : Block.cal ∈ fr) (h_keep : Block.keep ∈ fr) (h_nor : Block.nor ∈ fr) (h_svc : Block.svc ∈ fr) (h_smb : Block.smb ∈ fr) (h_diag : Block.diag ∈ fr) (h_evt : Block.evt ∈ fr) (h_stats : Block.stats ∈ fr) (h_hostMem : Block.hostMem ∈ fr) (h_free : Block.free ∈ fr) (hx : (execTableArrayUncorrectable a s) = .next t) : Only fr s t := by
  have h0 := Only.refl fr s
  grind [execTableArrayUncorrectable, only_enterHold]

theorem only_execDomainPowerLoss {fr : List Block} (d : Fin 12) {s : State} {t : State} (h_out : Block.out ∈ fr) (h_pm : Block.pm ∈ fr) (h_win : Block.win ∈ fr) (h_mb : Block.mb ∈ fr) (h_cfg : Block.cfg ∈ fr) (h_led : Block.led ∈ fr) (h_lay : Block.lay ∈ fr) (h_rnd : Block.rnd ∈ fr) (h_store : Block.store ∈ fr) (h_seq : Block.seq ∈ fr) (h_link : Block.link ∈ fr) (h_trk : Block.trk ∈ fr) (h_scan : Block.scan ∈ fr) (h_dma : Block.dma ∈ fr) (h_fab : Block.fab ∈ fr) (h_cal : Block.cal ∈ fr) (h_keep : Block.keep ∈ fr) (h_nor : Block.nor ∈ fr) (h_svc : Block.svc ∈ fr) (h_smb : Block.smb ∈ fr) (h_diag : Block.diag ∈ fr) (h_evt : Block.evt ∈ fr) (h_stats : Block.stats ∈ fr) (h_hostMem : Block.hostMem ∈ fr) (h_free : Block.free ∈ fr) (hx : (execDomainPowerLoss d s) = .next t) : Only fr s t := by
  have h0 := Only.refl fr s
  grind [execDomainPowerLoss, only_enterHold]

theorem only_execResetNAsserted {fr : List Block} {s : State} {t : State} (h_out : Block.out ∈ fr) (h_pm : Block.pm ∈ fr) (h_time : Block.time ∈ fr) (h_win : Block.win ∈ fr) (h_mb : Block.mb ∈ fr) (h_cfg : Block.cfg ∈ fr) (h_led : Block.led ∈ fr) (h_lay : Block.lay ∈ fr) (h_rnd : Block.rnd ∈ fr) (h_store : Block.store ∈ fr) (h_seq : Block.seq ∈ fr) (h_link : Block.link ∈ fr) (h_trk : Block.trk ∈ fr) (h_scan : Block.scan ∈ fr) (h_ilk : Block.ilk ∈ fr) (h_dma : Block.dma ∈ fr) (h_fab : Block.fab ∈ fr) (h_hbm : Block.hbm ∈ fr) (h_cal : Block.cal ∈ fr) (h_keep : Block.keep ∈ fr) (h_upd : Block.upd ∈ fr) (h_nor : Block.nor ∈ fr) (h_smb : Block.smb ∈ fr) (h_diag : Block.diag ∈ fr) (h_aper : Block.aper ∈ fr) (h_evt : Block.evt ∈ fr) (h_stats : Block.stats ∈ fr) (h_hbmMem : Block.hbmMem ∈ fr) (h_hostMem : Block.hostMem ∈ fr) (h_free : Block.free ∈ fr) (hx : (execResetNAsserted s) = .next t) : Only fr s t := by
  have h0 := Only.refl fr s
  grind [execResetNAsserted, only_holdReset]

theorem only_execCommandedResetStart {fr : List Block} (b : BootIn) {s : State} {t : State} (h_out : Block.out ∈ fr) (h_pm : Block.pm ∈ fr) (h_time : Block.time ∈ fr) (h_win : Block.win ∈ fr) (h_mb : Block.mb ∈ fr) (h_cfg : Block.cfg ∈ fr) (h_led : Block.led ∈ fr) (h_lay : Block.lay ∈ fr) (h_rnd : Block.rnd ∈ fr) (h_store : Block.store ∈ fr) (h_seq : Block.seq ∈ fr) (h_link : Block.link ∈ fr) (h_trk : Block.trk ∈ fr) (h_scan : Block.scan ∈ fr) (h_ilk : Block.ilk ∈ fr) (h_dma : Block.dma ∈ fr) (h_fab : Block.fab ∈ fr) (h_hbm : Block.hbm ∈ fr) (h_cal : Block.cal ∈ fr) (h_keep : Block.keep ∈ fr) (h_upd : Block.upd ∈ fr) (h_nor : Block.nor ∈ fr) (h_svc : Block.svc ∈ fr) (h_smb : Block.smb ∈ fr) (h_diag : Block.diag ∈ fr) (h_aper : Block.aper ∈ fr) (h_evt : Block.evt ∈ fr) (h_stats : Block.stats ∈ fr) (h_hbmMem : Block.hbmMem ∈ fr) (h_hostMem : Block.hostMem ∈ fr) (h_free : Block.free ∈ fr) (hx : (execCommandedResetStart b s) = .next t) : Only fr s t := by
  have h0 := Only.refl fr s
  grind [execCommandedResetStart, only_resetFirmware, only_resetDatapath, only_resetDevice]

theorem only_execThermalResetRelease {fr : List Block} (b : BootIn) {s : State} {t : State} (h_out : Block.out ∈ fr) (h_pm : Block.pm ∈ fr) (h_time : Block.time ∈ fr) (h_win : Block.win ∈ fr) (h_cfg : Block.cfg ∈ fr) (h_led : Block.led ∈ fr) (h_lay : Block.lay ∈ fr) (h_link : Block.link ∈ fr) (h_trk : Block.trk ∈ fr) (h_scan : Block.scan ∈ fr) (h_ilk : Block.ilk ∈ fr) (h_dma : Block.dma ∈ fr) (h_fab : Block.fab ∈ fr) (h_hbm : Block.hbm ∈ fr) (h_cal : Block.cal ∈ fr) (h_keep : Block.keep ∈ fr) (h_upd : Block.upd ∈ fr) (h_nor : Block.nor ∈ fr) (h_smb : Block.smb ∈ fr) (h_diag : Block.diag ∈ fr) (h_evt : Block.evt ∈ fr) (h_stats : Block.stats ∈ fr) (h_hbmMem : Block.hbmMem ∈ fr) (h_hostMem : Block.hostMem ∈ fr) (h_free : Block.free ∈ fr) (hx : (execThermalResetRelease b s) = .next t) : Only fr s t := by
  have h0 := Only.refl fr s
  grind [execThermalResetRelease, only_endHeldReset, only_upd]

theorem only_acceptTarget {fr : List Block} {s0 : State} (l : List CalMeas) (target : Nat) {s : State} (h_cal : Block.cal ∈ fr) (hkp : Only fr s0 s) : Only fr s0 (acceptTarget l target s) := by
  grind [acceptTarget, only_upd]

theorem only_closeRun {fr : List Block} {s0 : State} (l : List CalMeas) (acc : Nat) (bad : Nat) {s : State} (h_out : Block.out ∈ fr) (h_win : Block.win ∈ fr) (h_cal : Block.cal ∈ fr) (h_nor : Block.nor ∈ fr) (h_evt : Block.evt ∈ fr) (h_stats : Block.stats ∈ fr) (h_hostMem : Block.hostMem ∈ fr) (hkp : Only fr s0 s) : Only fr s0 (closeRun l acc bad s) := by
  grind [closeRun, only_raise, only_showDacs, only_upd]

theorem only_execCalRun {fr : List Block} (e : Entry) {s : State} {t : State} (h_out : Block.out ∈ fr) (h_win : Block.win ∈ fr) (h_mb : Block.mb ∈ fr) (h_cal : Block.cal ∈ fr) (h_nor : Block.nor ∈ fr) (h_svc : Block.svc ∈ fr) (h_evt : Block.evt ∈ fr) (h_stats : Block.stats ∈ fr) (h_hostMem : Block.hostMem ∈ fr) (hx : (execCalRun e s) = .next t) : Only fr s t := by
  have h0 := Only.refl fr s
  grind [execCalRun, only_takeUp, only_finish, only_wait, only_upd]

theorem only_execCalStatus {fr : List Block} (e : Entry) {s : State} {t : State} (h_out : Block.out ∈ fr) (h_win : Block.win ∈ fr) (h_mb : Block.mb ∈ fr) (h_nor : Block.nor ∈ fr) (h_svc : Block.svc ∈ fr) (h_evt : Block.evt ∈ fr) (h_stats : Block.stats ∈ fr) (h_hostMem : Block.hostMem ∈ fr) (hx : (execCalStatus e s) = .next t) : Only fr s t := by
  have h0 := Only.refl fr s
  grind [execCalStatus, only_takeUp, only_finish]

theorem only_execCalSetLimits {fr : List Block} (e : Entry) {s : State} {t : State} (h_out : Block.out ∈ fr) (h_win : Block.win ∈ fr) (h_mb : Block.mb ∈ fr) (h_dma : Block.dma ∈ fr) (h_cal : Block.cal ∈ fr) (h_nor : Block.nor ∈ fr) (h_svc : Block.svc ∈ fr) (h_diag : Block.diag ∈ fr) (h_evt : Block.evt ∈ fr) (h_stats : Block.stats ∈ fr) (h_hostMem : Block.hostMem ∈ fr) (h_free : Block.free ∈ fr) (hx : (execCalSetLimits e s) = .next t) : Only fr s t := by
  have h0 := Only.refl fr s
  grind [execCalSetLimits, only_takeUp, only_readBuffer, only_finish, only_raise, → only_readBuffer_eq, only_upd]

theorem only_zeroDacs {fr : List Block} {s0 : State} {s : State} (h_out : Block.out ∈ fr) (hkp : Only fr s0 s) : Only fr s0 (zeroDacs s) := by
  grind [zeroDacs, only_emit, only_foldl]

theorem only_execCalRunStart {fr : List Block} (na : Nat) {s : State} {t : State} (h_out : Block.out ∈ fr) (h_win : Block.win ∈ fr) (h_cal : Block.cal ∈ fr) (h_nor : Block.nor ∈ fr) (h_evt : Block.evt ∈ fr) (h_stats : Block.stats ∈ fr) (h_hostMem : Block.hostMem ∈ fr) (hx : (execCalRunStart na s) = .next t) : Only fr s t := by
  have h0 := Only.refl fr s
  grind [execCalRunStart, only_zeroDacs, only_raise, only_upd]

theorem only_settleRun {fr : List Block} {s0 : State} (item : Option (BitVec 8 × BitVec 64)) (bad : Nat) {s : State} (h_out : Block.out ∈ fr) (h_win : Block.win ∈ fr) (h_mb : Block.mb ∈ fr) (h_cfg : Block.cfg ∈ fr) (h_led : Block.led ∈ fr) (h_link : Block.link ∈ fr) (h_dma : Block.dma ∈ fr) (h_fab : Block.fab ∈ fr) (h_nor : Block.nor ∈ fr) (h_svc : Block.svc ∈ fr) (h_diag : Block.diag ∈ fr) (h_evt : Block.evt ∈ fr) (h_stats : Block.stats ∈ fr) (h_hostMem : Block.hostMem ∈ fr) (h_free : Block.free ∈ fr) (hkp : Only fr s0 s) : Only fr s0 (settleRun item bad s) := by
  unfold settleRun
  (repeat' split) <;> grind [only_activateTables, only_doneItem, only_failItem, only_settle, only_upd]

theorem only_raiseTarget {fr : List Block} {s0 : State} (target : Nat) (f : CalFail) {s : State} (h_out : Block.out ∈ fr) (h_win : Block.win ∈ fr) (h_nor : Block.nor ∈ fr) (h_evt : Block.evt ∈ fr) (h_stats : Block.stats ∈ fr) (h_hostMem : Block.hostMem ∈ fr) (hkp : Only fr s0 s) : Only fr s0 (raiseTarget target f s) := by
  grind [raiseTarget, only_raise]

theorem only_judgeTargets {fr : List Block} {s0 : State} (l : List CalMeas) (ts : List Nat) (s : State) (acc bad : Nat) (h_out : Block.out ∈ fr) (h_win : Block.win ∈ fr) (h_cal : Block.cal ∈ fr) (h_nor : Block.nor ∈ fr) (h_evt : Block.evt ∈ fr) (h_stats : Block.stats ∈ fr) (h_hostMem : Block.hostMem ∈ fr) (hkp : Only fr s0 s) :
    Only fr s0 (judgeTargets l ts (s, acc, bad)).1 := by
  induction ts generalizing s acc bad with
  | nil => unfold judgeTargets; exact hkp
  | cons t ts ih =>
    unfold judgeTargets
    split
    · exact ih s acc bad hkp
    · cases targetFail s l t with
      | some f => exact ih _ _ _ (only_raiseTarget _ _ ‹_› ‹_› ‹_› ‹_› ‹_› ‹_› hkp)
      | none => exact ih _ _ _ (only_acceptTarget _ _ ‹_› hkp)

theorem only_execCalDone {fr : List Block} (l : List CalMeas) {s : State} {t : State} (h_out : Block.out ∈ fr) (h_win : Block.win ∈ fr) (h_mb : Block.mb ∈ fr) (h_cfg : Block.cfg ∈ fr) (h_led : Block.led ∈ fr) (h_link : Block.link ∈ fr) (h_dma : Block.dma ∈ fr) (h_fab : Block.fab ∈ fr) (h_cal : Block.cal ∈ fr) (h_nor : Block.nor ∈ fr) (h_svc : Block.svc ∈ fr) (h_diag : Block.diag ∈ fr) (h_evt : Block.evt ∈ fr) (h_stats : Block.stats ∈ fr) (h_hostMem : Block.hostMem ∈ fr) (h_free : Block.free ∈ fr) (hx : (execCalDone l s) = .next t) : Only fr s t := by
  unfold execCalDone at hx
  simp only [Host.Outcome.next.injEq] at hx
  subst hx
  split
  · exact Only.refl fr s
  · exact only_settleRun _ _ ‹_› ‹_› ‹_› ‹_› ‹_› ‹_› ‹_› ‹_› ‹_› ‹_› ‹_› ‹_› ‹_› ‹_› ‹_› (only_closeRun _ _ _ ‹_› ‹_› ‹_› ‹_› ‹_› ‹_› ‹_› (only_judgeTargets _ _ _ _ _ ‹_› ‹_› ‹_› ‹_› ‹_› ‹_› ‹_› (Only.refl fr s)))

theorem only_execMonitorAdcSample {fr : List Block} (ch : Fin 8) (rawCode : BitVec 16) {s : State} {t : State} (h_cal : Block.cal ∈ fr) (hx : (execMonitorAdcSample ch rawCode s) = .next t) : Only fr s t := by
  have h0 := Only.refl fr s
  grind [execMonitorAdcSample, only_upd]

theorem only_setStage {fr : List Block} {s0 : State} (i : Fin 16) (st : Stage) {s : State} (h_out : Block.out ∈ fr) (h_win : Block.win ∈ fr) (h_trk : Block.trk ∈ fr) (h_nor : Block.nor ∈ fr) (h_evt : Block.evt ∈ fr) (h_stats : Block.stats ∈ fr) (h_hostMem : Block.hostMem ∈ fr) (hkp : Only fr s0 s) : Only fr s0 (setStage i st s) := by
  grind [setStage, only_stat, only_raise, only_upd]

theorem only_runSection {fr : List Block} {s0 : State} (bank : List Byte) (i : Fin 16) (x : Dy) {s : State} (h_out : Block.out ∈ fr) (h_win : Block.win ∈ fr) (h_trk : Block.trk ∈ fr) (h_nor : Block.nor ∈ fr) (h_evt : Block.evt ∈ fr) (h_stats : Block.stats ∈ fr) (h_hostMem : Block.hostMem ∈ fr) (hkp : Only fr s0 s) : Only fr s0 (runSection bank i x s).2 := by
  grind [runSection, only_setStage]

theorem only_runSection_eq {fr : List Block} {s0 : State} (bank : List Byte) (i : Fin 16) (x : Dy) {s : State} {v : Dy} {t : State} (h_out : Block.out ∈ fr) (h_win : Block.win ∈ fr) (h_trk : Block.trk ∈ fr) (h_nor : Block.nor ∈ fr) (h_evt : Block.evt ∈ fr) (h_stats : Block.stats ∈ fr) (h_hostMem : Block.hostMem ∈ fr) (hev : (runSection bank i x s) = (v, t)) (h : Only fr s0 s) : Only fr s0 t := by
  have k := only_runSection bank i x h_out h_win h_trk h_nor h_evt h_stats h_hostMem h
  rw [hev] at k
  exact k

theorem only_runChain {fr : List Block} {s0 : State} (bank : List Byte) (i : Nat) (x : Dy) {s : State} (h_out : Block.out ∈ fr) (h_win : Block.win ∈ fr) (h_trk : Block.trk ∈ fr) (h_nor : Block.nor ∈ fr) (h_evt : Block.evt ∈ fr) (h_stats : Block.stats ∈ fr) (h_hostMem : Block.hostMem ∈ fr) (hkp : Only fr s0 s) : Only fr s0 (runChain bank i x s).2 := by
  grind [runChain, only_runSection, → only_runSection_eq]

theorem only_runChain_eq {fr : List Block} {s0 : State} (bank : List Byte) (i : Nat) (x : Dy) {s : State} {v : Dy} {t : State} (h_out : Block.out ∈ fr) (h_win : Block.win ∈ fr) (h_trk : Block.trk ∈ fr) (h_nor : Block.nor ∈ fr) (h_evt : Block.evt ∈ fr) (h_stats : Block.stats ∈ fr) (h_hostMem : Block.hostMem ∈ fr) (hev : (runChain bank i x s) = (v, t)) (h : Only fr s0 s) : Only fr s0 t := by
  have k := only_runChain bank i x h_out h_win h_trk h_nor h_evt h_stats h_hostMem h
  rw [hev] at k
  exact k

theorem only_swapBank {fr : List Block} {s0 : State} (b : Nat) {s : State} (h_out : Block.out ∈ fr) (h_win : Block.win ∈ fr) (h_mb : Block.mb ∈ fr) (h_trk : Block.trk ∈ fr) (h_nor : Block.nor ∈ fr) (h_svc : Block.svc ∈ fr) (h_evt : Block.evt ∈ fr) (h_stats : Block.stats ∈ fr) (h_hostMem : Block.hostMem ∈ fr) (hkp : Only fr s0 s) : Only fr s0 (swapBank b s) := by
  grind [swapBank, only_raise, only_stat, only_settle, only_upd]

theorem only_swapNow {fr : List Block} {s0 : State} {s : State} (h_out : Block.out ∈ fr) (h_win : Block.win ∈ fr) (h_mb : Block.mb ∈ fr) (h_trk : Block.trk ∈ fr) (h_nor : Block.nor ∈ fr) (h_svc : Block.svc ∈ fr) (h_evt : Block.evt ∈ fr) (h_stats : Block.stats ∈ fr) (h_hostMem : Block.hostMem ∈ fr) (hkp : Only fr s0 s) : Only fr s0 (swapNow s) := by
  grind [swapNow, only_swapBank]

theorem only_integrate {fr : List Block} {s0 : State} (bank : List Byte) (ef : Dy) {s : State} (h_out : Block.out ∈ fr) (h_win : Block.win ∈ fr) (h_trk : Block.trk ∈ fr) (h_nor : Block.nor ∈ fr) (h_evt : Block.evt ∈ fr) (h_stats : Block.stats ∈ fr) (h_hostMem : Block.hostMem ∈ fr) (hkp : Only fr s0 s) : Only fr s0 (integrate bank ef s) := by
  grind [integrate, only_setStage]

theorem only_armSample {fr : List Block} {s0 : State} (c : Fin 4) {s : State} (h_trk : Block.trk ∈ fr) (hkp : Only fr s0 s) : Only fr s0 (armSample c s) := by
  grind [armSample, only_upd]

theorem only_armTracking {fr : List Block} {s0 : State} {s : State} (h_trk : Block.trk ∈ fr) (hkp : Only fr s0 s) : Only fr s0 (armTracking s) := by
  grind [armTracking, only_upd]

theorem only_setChan {fr : List Block} {s0 : State} (c : Fin 4) (x : Channel) {s : State} (h_trk : Block.trk ∈ fr) (hkp : Only fr s0 s) : Only fr s0 (setChan c x s) := by
  grind [setChan, only_upd]

theorem only_tripHome {fr : List Block} {s0 : State} (reason : Nat) (c : Fin 4) {s : State} (h_out : Block.out ∈ fr) (h_win : Block.win ∈ fr) (h_scan : Block.scan ∈ fr) (h_nor : Block.nor ∈ fr) (h_evt : Block.evt ∈ fr) (h_stats : Block.stats ∈ fr) (h_hostMem : Block.hostMem ∈ fr) (hkp : Only fr s0 s) : Only fr s0 (tripHome reason c s) := by
  grind [tripHome, only_abortHoming, only_loseHome]

theorem only_lose {fr : List Block} {s0 : State} (reason : Nat) (c : Fin 4) {s : State} (h_out : Block.out ∈ fr) (h_win : Block.win ∈ fr) (h_trk : Block.trk ∈ fr) (h_nor : Block.nor ∈ fr) (h_evt : Block.evt ∈ fr) (h_stats : Block.stats ∈ fr) (h_hostMem : Block.hostMem ∈ fr) (hkp : Only fr s0 s) : Only fr s0 (lose reason c s) := by
  grind [lose, only_raise, only_stat, only_upd]

theorem only_trip {fr : List Block} {s0 : State} (reason : Nat) (c : Fin 4) {s : State} (h_out : Block.out ∈ fr) (h_win : Block.win ∈ fr) (h_rnd : Block.rnd ∈ fr) (h_store : Block.store ∈ fr) (h_seq : Block.seq ∈ fr) (h_trk : Block.trk ∈ fr) (h_scan : Block.scan ∈ fr) (h_nor : Block.nor ∈ fr) (h_evt : Block.evt ∈ fr) (h_stats : Block.stats ∈ fr) (h_hostMem : Block.hostMem ∈ fr) (h_free : Block.free ∈ fr) (hkp : Only fr s0 s) : Only fr s0 (trip reason c s) := by
  grind [trip, only_tripHome, only_lose, only_rampStop, only_stopStripe]

theorem only_inputFault {fr : List Block} {s0 : State} (reason : Nat) (c : Fin 4) {s : State} (h_out : Block.out ∈ fr) (h_win : Block.win ∈ fr) (h_rnd : Block.rnd ∈ fr) (h_store : Block.store ∈ fr) (h_seq : Block.seq ∈ fr) (h_trk : Block.trk ∈ fr) (h_scan : Block.scan ∈ fr) (h_nor : Block.nor ∈ fr) (h_evt : Block.evt ∈ fr) (h_stats : Block.stats ∈ fr) (h_hostMem : Block.hostMem ∈ fr) (h_free : Block.free ∈ fr) (hkp : Only fr s0 s) : Only fr s0 (inputFault reason c s) := by
  grind [inputFault, only_trip]

theorem only_badFrame {fr : List Block} {s0 : State} (c : Fin 4) (why : Nat) {s : State} (h_out : Block.out ∈ fr) (h_win : Block.win ∈ fr) (h_rnd : Block.rnd ∈ fr) (h_store : Block.store ∈ fr) (h_seq : Block.seq ∈ fr) (h_trk : Block.trk ∈ fr) (h_scan : Block.scan ∈ fr) (h_nor : Block.nor ∈ fr) (h_evt : Block.evt ∈ fr) (h_stats : Block.stats ∈ fr) (h_hostMem : Block.hostMem ∈ fr) (h_free : Block.free ∈ fr) (hkp : Only fr s0 s) : Only fr s0 (badFrame c why s) := by
  grind [badFrame, only_stat, only_setChan, only_inputFault]

theorem only_clampDac {fr : List Block} {s0 : State} (d : Fin 4) {s : State} (h_out : Block.out ∈ fr) (h_win : Block.win ∈ fr) (h_trk : Block.trk ∈ fr) (h_nor : Block.nor ∈ fr) (h_evt : Block.evt ∈ fr) (h_stats : Block.stats ∈ fr) (h_hostMem : Block.hostMem ∈ fr) (hkp : Only fr s0 s) : Only fr s0 (clampDac d s) := by
  grind [clampDac, only_stat, only_raise, only_upd]

theorem only_countSample {fr : List Block} {s0 : State} {s : State} (h_trk : Block.trk ∈ fr) (h_stats : Block.stats ∈ fr) (hkp : Only fr s0 s) : Only fr s0 (countSample s) := by
  grind [countSample, only_stat, only_upd]

theorem only_openSource {fr : List Block} {s0 : State} {s : State} (h_free : Block.free ∈ fr) (hkp : Only fr s0 s) : Only fr s0 (openSource s).2 := by
  grind [openSource, only_takeFree, → only_takeFree_eq]

theorem only_openSource_eq {fr : List Block} {s0 : State} {s : State} {v : Dy} {t : State} (h_free : Block.free ∈ fr) (hev : (openSource s) = (v, t)) (h : Only fr s0 s) : Only fr s0 t := by
  have k := only_openSource  h_free h
  rw [hev] at k
  exact k

theorem only_dacSource {fr : List Block} {s0 : State} (d : Fin 4) {s : State} (h_free : Block.free ∈ fr) (hkp : Only fr s0 s) : Only fr s0 (dacSource d s).2 := by
  grind [dacSource, only_openSource, → only_openSource_eq]

theorem only_dacSource_eq {fr : List Block} {s0 : State} (d : Fin 4) {s : State} {v : Dy} {t : State} (h_free : Block.free ∈ fr) (hev : (dacSource d s) = (v, t)) (h : Only fr s0 s) : Only fr s0 t := by
  have k := only_dacSource d h_free h
  rw [hev] at k
  exact k

theorem only_dacSample {fr : List Block} {s0 : State} (d : Fin 4) {s : State} (h_out : Block.out ∈ fr) (h_win : Block.win ∈ fr) (h_trk : Block.trk ∈ fr) (h_nor : Block.nor ∈ fr) (h_evt : Block.evt ∈ fr) (h_stats : Block.stats ∈ fr) (h_hostMem : Block.hostMem ∈ fr) (h_free : Block.free ∈ fr) (hkp : Only fr s0 s) : Only fr s0 (dacSample d s) := by
  grind [dacSample, only_setDac, only_dacSource, only_runChain, only_clampDac, → only_dacSource_eq, → only_runChain_eq]

theorem only_dacSamples {fr : List Block} {s0 : State} {s : State} (h_out : Block.out ∈ fr) (h_win : Block.win ∈ fr) (h_trk : Block.trk ∈ fr) (h_nor : Block.nor ∈ fr) (h_evt : Block.evt ∈ fr) (h_stats : Block.stats ∈ fr) (h_hostMem : Block.hostMem ∈ fr) (h_free : Block.free ∈ fr) (hkp : Only fr s0 s) : Only fr s0 (dacSamples s) := by
  grind [dacSamples, only_dacSample, only_parkDacs]

theorem only_swapOrDone {fr : List Block} {s0 : State} (w : Waiting) (bank : Nat) (swap : Bool) {s : State} (h_out : Block.out ∈ fr) (h_win : Block.win ∈ fr) (h_mb : Block.mb ∈ fr) (h_trk : Block.trk ∈ fr) (h_svc : Block.svc ∈ fr) (h_stats : Block.stats ∈ fr) (h_hostMem : Block.hostMem ∈ fr) (hkp : Only fr s0 s) : Only fr s0 (swapOrDone w bank swap s) := by
  grind [swapOrDone, only_wait, only_finish, only_upd]

theorem only_loadBank {fr : List Block} {s0 : State} (w : Waiting) (e : Entry) (bank : Fin 2) (swap : Bool) {s : State} (h_out : Block.out ∈ fr) (h_win : Block.win ∈ fr) (h_mb : Block.mb ∈ fr) (h_trk : Block.trk ∈ fr) (h_dma : Block.dma ∈ fr) (h_nor : Block.nor ∈ fr) (h_svc : Block.svc ∈ fr) (h_diag : Block.diag ∈ fr) (h_evt : Block.evt ∈ fr) (h_stats : Block.stats ∈ fr) (h_hostMem : Block.hostMem ∈ fr) (h_free : Block.free ∈ fr) (hkp : Only fr s0 s) : Only fr s0 (loadBank w e bank swap s) := by
  grind [loadBank, only_readBuffer, only_finish, only_raise, only_swapOrDone, → only_readBuffer_eq, only_upd]

theorem only_execTrackSetCoeffs {fr : List Block} (e : Entry) {s : State} {t : State} (h_out : Block.out ∈ fr) (h_win : Block.win ∈ fr) (h_mb : Block.mb ∈ fr) (h_trk : Block.trk ∈ fr) (h_dma : Block.dma ∈ fr) (h_nor : Block.nor ∈ fr) (h_svc : Block.svc ∈ fr) (h_diag : Block.diag ∈ fr) (h_evt : Block.evt ∈ fr) (h_stats : Block.stats ∈ fr) (h_hostMem : Block.hostMem ∈ fr) (h_free : Block.free ∈ fr) (hx : (execTrackSetCoeffs e s) = .next t) : Only fr s t := by
  have h0 := Only.refl fr s
  grind [execTrackSetCoeffs, only_takeUp, only_finish, only_swapOrDone, only_loadBank]

theorem only_execTrackArm {fr : List Block} (e : Entry) {s : State} {t : State} (h_out : Block.out ∈ fr) (h_win : Block.win ∈ fr) (h_mb : Block.mb ∈ fr) (h_trk : Block.trk ∈ fr) (h_nor : Block.nor ∈ fr) (h_svc : Block.svc ∈ fr) (h_evt : Block.evt ∈ fr) (h_stats : Block.stats ∈ fr) (h_hostMem : Block.hostMem ∈ fr) (hx : (execTrackArm e s) = .next t) : Only fr s t := by
  have h0 := Only.refl fr s
  grind [execTrackArm, only_takeUp, only_finish, only_trackOff, only_armTracking]

theorem only_takeFrame {fr : List Block} {s0 : State} {s : State} (h_trk : Block.trk ∈ fr) (hkp : Only fr s0 s) : Only fr s0 (takeFrame s) := by
  grind [takeFrame, only_upd]

theorem only_feStep {fr : List Block} {s0 : State} {s : State} (h_trk : Block.trk ∈ fr) (hkp : Only fr s0 s) : Only fr s0 (feStep s) := by
  grind [feStep, only_upd]

theorem only_jitter {fr : List Block} {s0 : State} (c : Fin 4) {s : State} (h_trk : Block.trk ∈ fr) (h_stats : Block.stats ∈ fr) (hkp : Only fr s0 s) : Only fr s0 (jitter c s) := by
  grind [jitter, only_stat, only_upd]

theorem only_lockSample {fr : List Block} {s0 : State} {s : State} (h_out : Block.out ∈ fr) (h_win : Block.win ∈ fr) (h_trk : Block.trk ∈ fr) (h_nor : Block.nor ∈ fr) (h_evt : Block.evt ∈ fr) (h_stats : Block.stats ∈ fr) (h_hostMem : Block.hostMem ∈ fr) (hkp : Only fr s0 s) : Only fr s0 (lockSample s) := by
  grind [lockSample, only_raise, only_upd]

theorem only_missApproach {fr : List Block} {s0 : State} (phn : Int) {s : State} (h_out : Block.out ∈ fr) (h_win : Block.win ∈ fr) (h_rnd : Block.rnd ∈ fr) (h_store : Block.store ∈ fr) (h_seq : Block.seq ∈ fr) (h_trk : Block.trk ∈ fr) (h_scan : Block.scan ∈ fr) (h_nor : Block.nor ∈ fr) (h_evt : Block.evt ∈ fr) (h_stats : Block.stats ∈ fr) (h_hostMem : Block.hostMem ∈ fr) (h_free : Block.free ∈ fr) (hkp : Only fr s0 s) : Only fr s0 (missApproach phn s) := by
  grind [missApproach, only_approachPast]

theorem only_fireFlash {fr : List Block} {s0 : State} (phn : Int) {s : State} (h_trk : Block.trk ∈ fr) (h_stats : Block.stats ∈ fr) (hkp : Only fr s0 s) : Only fr s0 (fireFlash phn s) := by
  grind [fireFlash, only_stat, only_upd]

theorem only_phaseSample {fr : List Block} {s0 : State} {s : State} (h_out : Block.out ∈ fr) (h_win : Block.win ∈ fr) (h_rnd : Block.rnd ∈ fr) (h_store : Block.store ∈ fr) (h_seq : Block.seq ∈ fr) (h_trk : Block.trk ∈ fr) (h_scan : Block.scan ∈ fr) (h_nor : Block.nor ∈ fr) (h_evt : Block.evt ∈ fr) (h_stats : Block.stats ∈ fr) (h_hostMem : Block.hostMem ∈ fr) (h_free : Block.free ∈ fr) (hkp : Only fr s0 s) : Only fr s0 (phaseSample s) := by
  grind [phaseSample, only_stat, only_missApproach, only_fireFlash, only_upd]

theorem only_loopSample {fr : List Block} {s0 : State} {s : State} (h_out : Block.out ∈ fr) (h_win : Block.win ∈ fr) (h_trk : Block.trk ∈ fr) (h_nor : Block.nor ∈ fr) (h_evt : Block.evt ∈ fr) (h_stats : Block.stats ∈ fr) (h_hostMem : Block.hostMem ∈ fr) (hkp : Only fr s0 s) : Only fr s0 (loopSample s) := by
  grind [loopSample, only_runChain, only_integrate, → only_runChain_eq, only_upd]

theorem only_runSample {fr : List Block} {s0 : State} (c : Fin 4) {s : State} (h_out : Block.out ∈ fr) (h_win : Block.win ∈ fr) (h_rnd : Block.rnd ∈ fr) (h_store : Block.store ∈ fr) (h_seq : Block.seq ∈ fr) (h_trk : Block.trk ∈ fr) (h_scan : Block.scan ∈ fr) (h_nor : Block.nor ∈ fr) (h_evt : Block.evt ∈ fr) (h_stats : Block.stats ∈ fr) (h_hostMem : Block.hostMem ∈ fr) (h_free : Block.free ∈ fr) (hkp : Only fr s0 s) : Only fr s0 (runSample c s) := by
  unfold runSample
  have h1 := only_feStep ‹_› (only_jitter c ‹_› ‹_› (only_armSample c ‹_› hkp))
  dsimp only
  split
  · exact only_trip _ _ ‹_› ‹_› ‹_› ‹_› ‹_› ‹_› ‹_› ‹_› ‹_› ‹_› ‹_› ‹_› h1
  · exact only_dacSamples ‹_› ‹_› ‹_› ‹_› ‹_› ‹_› ‹_› ‹_› (only_lockSample ‹_› ‹_› ‹_› ‹_› ‹_› ‹_› ‹_› (only_phaseSample ‹_› ‹_› ‹_› ‹_› ‹_› ‹_› ‹_› ‹_› ‹_› ‹_› ‹_› ‹_› (only_loopSample ‹_› ‹_› ‹_› ‹_› ‹_› ‹_› ‹_› h1)))

theorem only_execPositionSample {fr : List Block} {s : State} {t : State} (h_out : Block.out ∈ fr) (h_win : Block.win ∈ fr) (h_mb : Block.mb ∈ fr) (h_rnd : Block.rnd ∈ fr) (h_store : Block.store ∈ fr) (h_seq : Block.seq ∈ fr) (h_trk : Block.trk ∈ fr) (h_scan : Block.scan ∈ fr) (h_nor : Block.nor ∈ fr) (h_svc : Block.svc ∈ fr) (h_evt : Block.evt ∈ fr) (h_stats : Block.stats ∈ fr) (h_hostMem : Block.hostMem ∈ fr) (h_free : Block.free ∈ fr) (hx : (execPositionSample s) = .next t) : Only fr s t := by
  have h0 := Only.refl fr s
  grind [execPositionSample, only_takeFrame, only_swapNow, only_countSample, only_runSample, only_dacSamples]

theorem only_goodFrame {fr : List Block} {s0 : State} (c : Fin 4) (f : BitVec 80) {s : State} (h_trk : Block.trk ∈ fr) (h_stats : Block.stats ∈ fr) (hkp : Only fr s0 s) : Only fr s0 (goodFrame c f s) := by
  grind [goodFrame, only_stat, only_setChan]

theorem only_execSerialPositionFrame {fr : List Block} (c : Fin 4) (f : BitVec 80) {s : State} {t : State} (h_out : Block.out ∈ fr) (h_win : Block.win ∈ fr) (h_rnd : Block.rnd ∈ fr) (h_store : Block.store ∈ fr) (h_seq : Block.seq ∈ fr) (h_trk : Block.trk ∈ fr) (h_scan : Block.scan ∈ fr) (h_nor : Block.nor ∈ fr) (h_diag : Block.diag ∈ fr) (h_evt : Block.evt ∈ fr) (h_stats : Block.stats ∈ fr) (h_hostMem : Block.hostMem ∈ fr) (h_free : Block.free ∈ fr) (hx : (execSerialPositionFrame c f s) = .next t) : Only fr s t := by
  have h0 := Only.refl fr s
  grind [execSerialPositionFrame, only_injected, only_badFrame, only_goodFrame, → only_injected_eq]

theorem only_execSerialFrameTimeout {fr : List Block} (c : Fin 4) {s : State} {t : State} (h_out : Block.out ∈ fr) (h_win : Block.win ∈ fr) (h_rnd : Block.rnd ∈ fr) (h_store : Block.store ∈ fr) (h_seq : Block.seq ∈ fr) (h_trk : Block.trk ∈ fr) (h_scan : Block.scan ∈ fr) (h_nor : Block.nor ∈ fr) (h_evt : Block.evt ∈ fr) (h_stats : Block.stats ∈ fr) (h_hostMem : Block.hostMem ∈ fr) (h_free : Block.free ∈ fr) (hx : (execSerialFrameTimeout c s) = .next t) : Only fr s t := by
  have h0 := Only.refl fr s
  grind [execSerialFrameTimeout, only_inputFault, only_stat]

theorem only_execQuadratureIllegalTransition {fr : List Block} (c : Fin 4) {s : State} {t : State} (h_out : Block.out ∈ fr) (h_win : Block.win ∈ fr) (h_rnd : Block.rnd ∈ fr) (h_store : Block.store ∈ fr) (h_seq : Block.seq ∈ fr) (h_trk : Block.trk ∈ fr) (h_scan : Block.scan ∈ fr) (h_nor : Block.nor ∈ fr) (h_evt : Block.evt ∈ fr) (h_stats : Block.stats ∈ fr) (h_hostMem : Block.hostMem ∈ fr) (h_free : Block.free ∈ fr) (hx : (execQuadratureIllegalTransition c s) = .next t) : Only fr s t := by
  have h0 := Only.refl fr s
  grind [execQuadratureIllegalTransition, only_inputFault, only_stat]

theorem only_foundIndex {fr : List Block} {s0 : State} (c : Fin 4) {s : State} (h_scan : Block.scan ∈ fr) (hkp : Only fr s0 s) : Only fr s0 (foundIndex c s) := by
  grind [foundIndex, only_upd]

theorem only_execIndexPulse {fr : List Block} (c : Fin 4) {s : State} {t : State} (h_trk : Block.trk ∈ fr) (h_scan : Block.scan ∈ fr) (hx : (execIndexPulse c s) = .next t) : Only fr s t := by
  have h0 := Only.refl fr s
  grind [execIndexPulse, only_foundIndex, only_setChan]

theorem only_execAcquireTimeout {fr : List Block} {s : State} {t : State} (h_out : Block.out ∈ fr) (h_win : Block.win ∈ fr) (h_rnd : Block.rnd ∈ fr) (h_store : Block.store ∈ fr) (h_seq : Block.seq ∈ fr) (h_trk : Block.trk ∈ fr) (h_scan : Block.scan ∈ fr) (h_nor : Block.nor ∈ fr) (h_evt : Block.evt ∈ fr) (h_stats : Block.stats ∈ fr) (h_hostMem : Block.hostMem ∈ fr) (h_free : Block.free ∈ fr) (hx : (execAcquireTimeout s) = .next t) : Only fr s t := by
  have h0 := Only.refl fr s
  grind [execAcquireTimeout, only_trip]

theorem only_execQuadratureEdge {fr : List Block} (c : Fin 4) (up : Bool) {s : State} {t : State} (h_trk : Block.trk ∈ fr) (hx : (execQuadratureEdge c up s) = .next t) : Only fr s t := by
  have h0 := Only.refl fr s
  grind [execQuadratureEdge, only_setChan]

theorem only_startSearch {fr : List Block} {s0 : State} (h : Homing) {s : State} (h_scan : Block.scan ∈ fr) (h_stats : Block.stats ∈ fr) (hkp : Only fr s0 s) : Only fr s0 (startSearch h s) := by
  grind [startSearch, only_stat, only_upd]

theorem only_startTarget {fr : List Block} {s0 : State} {s : State} (h_scan : Block.scan ∈ fr) (h_stats : Block.stats ∈ fr) (hkp : Only fr s0 s) : Only fr s0 (startTarget s) := by
  grind [startTarget, only_stat, only_upd]

theorem only_settleHome {fr : List Block} {s0 : State} (status : Nat) (reason : Nat) (res : List W128) {s : State} (h_out : Block.out ∈ fr) (h_win : Block.win ∈ fr) (h_mb : Block.mb ∈ fr) (h_svc : Block.svc ∈ fr) (h_stats : Block.stats ∈ fr) (h_hostMem : Block.hostMem ∈ fr) (hkp : Only fr s0 s) : Only fr s0 (settleHome status reason res s) := by
  grind [settleHome, only_settle]

theorem only_homeFailed {fr : List Block} {s0 : State} (h : Homing) {s : State} (h_out : Block.out ∈ fr) (h_win : Block.win ∈ fr) (h_mb : Block.mb ∈ fr) (h_scan : Block.scan ∈ fr) (h_svc : Block.svc ∈ fr) (h_stats : Block.stats ∈ fr) (h_hostMem : Block.hostMem ∈ fr) (hkp : Only fr s0 s) : Only fr s0 (homeFailed h s) := by
  grind [homeFailed, only_settleHome, only_stat, only_upd]

theorem only_afterStop {fr : List Block} {s0 : State} {s : State} (h_out : Block.out ∈ fr) (h_win : Block.win ∈ fr) (h_mb : Block.mb ∈ fr) (h_scan : Block.scan ∈ fr) (h_svc : Block.svc ∈ fr) (h_stats : Block.stats ∈ fr) (h_hostMem : Block.hostMem ∈ fr) (hkp : Only fr s0 s) : Only fr s0 (afterStop s) := by
  grind [afterStop, only_startSearch, only_startTarget, only_homeFailed]

theorem only_clearItems {fr : List Block} {s0 : State} (items : Nat) {s : State} (h_seq : Block.seq ∈ fr) (h_ilk : Block.ilk ∈ fr) (hkp : Only fr s0 s) : Only fr s0 (clearItems items s) := by
  grind [clearItems, only_upd]

theorem only_homeSearch {fr : List Block} {s0 : State} (w : Waiting) (h : Homing) {s : State} (h_out : Block.out ∈ fr) (h_win : Block.win ∈ fr) (h_mb : Block.mb ∈ fr) (h_scan : Block.scan ∈ fr) (h_svc : Block.svc ∈ fr) (h_stats : Block.stats ∈ fr) (h_hostMem : Block.hostMem ∈ fr) (h_free : Block.free ∈ fr) (hkp : Only fr s0 s) : Only fr s0 (homeSearch w h s) := by
  grind [homeSearch, only_finish, only_finishOpen, only_becomeHolder, only_wait, only_startSearch, only_upd]

theorem only_setHome {fr : List Block} {s0 : State} (p : Int) {s : State} (h_out : Block.out ∈ fr) (h_win : Block.win ∈ fr) (h_scan : Block.scan ∈ fr) (h_nor : Block.nor ∈ fr) (h_evt : Block.evt ∈ fr) (h_stats : Block.stats ∈ fr) (h_hostMem : Block.hostMem ∈ fr) (hkp : Only fr s0 s) : Only fr s0 (setHome p s) := by
  grind [setHome, only_raise, only_stat, only_upd]

theorem only_execScanHome {fr : List Block} (e : Entry) {s : State} {t : State} (h_out : Block.out ∈ fr) (h_win : Block.win ∈ fr) (h_mb : Block.mb ∈ fr) (h_led : Block.led ∈ fr) (h_rnd : Block.rnd ∈ fr) (h_store : Block.store ∈ fr) (h_seq : Block.seq ∈ fr) (h_trk : Block.trk ∈ fr) (h_scan : Block.scan ∈ fr) (h_nor : Block.nor ∈ fr) (h_svc : Block.svc ∈ fr) (h_evt : Block.evt ∈ fr) (h_stats : Block.stats ∈ fr) (h_hostMem : Block.hostMem ∈ fr) (h_free : Block.free ∈ fr) (hx : (execScanHome e s) = .next t) : Only fr s t := by
  have h0 := Only.refl fr s
  grind [execScanHome, only_takeUp, only_finish, only_homeSearch, only_tryApproach, only_setHome]

theorem only_execScanSetProfile {fr : List Block} (e : Entry) {s : State} {t : State} (h_out : Block.out ∈ fr) (h_win : Block.win ∈ fr) (h_mb : Block.mb ∈ fr) (h_led : Block.led ∈ fr) (h_rnd : Block.rnd ∈ fr) (h_store : Block.store ∈ fr) (h_seq : Block.seq ∈ fr) (h_trk : Block.trk ∈ fr) (h_scan : Block.scan ∈ fr) (h_nor : Block.nor ∈ fr) (h_svc : Block.svc ∈ fr) (h_evt : Block.evt ∈ fr) (h_stats : Block.stats ∈ fr) (h_hostMem : Block.hostMem ∈ fr) (h_free : Block.free ∈ fr) (hx : (execScanSetProfile e s) = .next t) : Only fr s t := by
  have h0 := Only.refl fr s
  grind [execScanSetProfile, only_takeUp, only_finish, only_raise, only_tryApproach, only_upd]

theorem only_scanStopNow {fr : List Block} {s0 : State} {s : State} (h_out : Block.out ∈ fr) (h_win : Block.win ∈ fr) (h_rnd : Block.rnd ∈ fr) (h_store : Block.store ∈ fr) (h_seq : Block.seq ∈ fr) (h_trk : Block.trk ∈ fr) (h_scan : Block.scan ∈ fr) (h_nor : Block.nor ∈ fr) (h_evt : Block.evt ∈ fr) (h_stats : Block.stats ∈ fr) (h_hostMem : Block.hostMem ∈ fr) (h_free : Block.free ∈ fr) (hkp : Only fr s0 s) : Only fr s0 (scanStopNow s) := by
  grind [scanStopNow, only_rampStop, only_stopStripe, only_abortHoming]

theorem only_takeTarget {fr : List Block} {s0 : State} (x : Int) {s : State} (h_scan : Block.scan ∈ fr) (h_stats : Block.stats ∈ fr) (h_free : Block.free ∈ fr) (hkp : Only fr s0 s) : Only fr s0 (takeTarget x s) := by
  grind [takeTarget, only_becomeHolder, only_startTarget, only_upd]

theorem only_execScanStop {fr : List Block} (e : Entry) {s : State} {t : State} (h_out : Block.out ∈ fr) (h_win : Block.win ∈ fr) (h_mb : Block.mb ∈ fr) (h_rnd : Block.rnd ∈ fr) (h_store : Block.store ∈ fr) (h_seq : Block.seq ∈ fr) (h_trk : Block.trk ∈ fr) (h_scan : Block.scan ∈ fr) (h_nor : Block.nor ∈ fr) (h_svc : Block.svc ∈ fr) (h_evt : Block.evt ∈ fr) (h_stats : Block.stats ∈ fr) (h_hostMem : Block.hostMem ∈ fr) (h_free : Block.free ∈ fr) (hx : (execScanStop e s) = .next t) : Only fr s t := by
  have h0 := Only.refl fr s
  grind [execScanStop, only_takeUp, only_scanStopNow, only_finish, only_takeTarget, only_upd]

theorem only_execIlkConfigure {fr : List Block} (e : Entry) {s : State} {t : State} (h_out : Block.out ∈ fr) (h_win : Block.win ∈ fr) (h_mb : Block.mb ∈ fr) (h_ilk : Block.ilk ∈ fr) (h_nor : Block.nor ∈ fr) (h_svc : Block.svc ∈ fr) (h_evt : Block.evt ∈ fr) (h_stats : Block.stats ∈ fr) (h_hostMem : Block.hostMem ∈ fr) (hx : (execIlkConfigure e s) = .next t) : Only fr s t := by
  have h0 := Only.refl fr s
  grind [execIlkConfigure, only_takeUp, only_finish, only_upd]

theorem only_execIlkClear {fr : List Block} (e : Entry) (steady : BitVec 8) {s : State} {t : State} (h_out : Block.out ∈ fr) (h_win : Block.win ∈ fr) (h_mb : Block.mb ∈ fr) (h_led : Block.led ∈ fr) (h_rnd : Block.rnd ∈ fr) (h_store : Block.store ∈ fr) (h_seq : Block.seq ∈ fr) (h_trk : Block.trk ∈ fr) (h_scan : Block.scan ∈ fr) (h_ilk : Block.ilk ∈ fr) (h_nor : Block.nor ∈ fr) (h_svc : Block.svc ∈ fr) (h_evt : Block.evt ∈ fr) (h_stats : Block.stats ∈ fr) (h_hostMem : Block.hostMem ∈ fr) (h_free : Block.free ∈ fr) (hx : (execIlkClear e steady s) = .next t) : Only fr s t := by
  have h0 := Only.refl fr s
  grind [execIlkClear, only_takeUp, only_finish, only_raise, only_clearItems, only_tryApproach]

theorem only_sendSpo {fr : List Block} {s0 : State} {s : State} (h_out : Block.out ∈ fr) (h_scan : Block.scan ∈ fr) (h_stats : Block.stats ∈ fr) (hkp : Only fr s0 s) : Only fr s0 (sendSpo s) := by
  grind [sendSpo, only_emit, only_stat, only_upd]

theorem only_execSpoFrame {fr : List Block} {s : State} {t : State} (h_out : Block.out ∈ fr) (h_scan : Block.scan ∈ fr) (h_stats : Block.stats ∈ fr) (hx : (execSpoFrame s) = .next t) : Only fr s t := by
  have h0 := Only.refl fr s
  grind [execSpoFrame, only_sendSpo, only_releaseSpo, only_upd]

theorem only_restAt {fr : List Block} {s0 : State} (x : Int) {s : State} (h_scan : Block.scan ∈ fr) (hkp : Only fr s0 s) : Only fr s0 (restAt x s) := by
  grind [restAt, only_upd]

theorem only_startReturn {fr : List Block} {s0 : State} (h : Homing) {s : State} (h_scan : Block.scan ∈ fr) (hkp : Only fr s0 s) : Only fr s0 (startReturn h s) := by
  grind [startReturn, only_upd]

theorem only_homeFound {fr : List Block} {s0 : State} (h : Homing) {s : State} (h_out : Block.out ∈ fr) (h_win : Block.win ∈ fr) (h_mb : Block.mb ∈ fr) (h_scan : Block.scan ∈ fr) (h_nor : Block.nor ∈ fr) (h_svc : Block.svc ∈ fr) (h_evt : Block.evt ∈ fr) (h_stats : Block.stats ∈ fr) (h_hostMem : Block.hostMem ∈ fr) (hkp : Only fr s0 s) : Only fr s0 (homeFound h s) := by
  grind [homeFound, only_restAt, only_settleHome, only_setHome, only_upd]

theorem only_homingRest {fr : List Block} {s0 : State} {s : State} (h_out : Block.out ∈ fr) (h_win : Block.win ∈ fr) (h_mb : Block.mb ∈ fr) (h_scan : Block.scan ∈ fr) (h_nor : Block.nor ∈ fr) (h_svc : Block.svc ∈ fr) (h_evt : Block.evt ∈ fr) (h_stats : Block.stats ∈ fr) (h_hostMem : Block.hostMem ∈ fr) (hkp : Only fr s0 s) : Only fr s0 (homingRest s) := by
  grind [homingRest, only_startReturn, only_homeFound, only_startTarget, only_homeFailed, only_restAt]

theorem only_execMoveComplete {fr : List Block} {s : State} {t : State} (h_out : Block.out ∈ fr) (h_win : Block.win ∈ fr) (h_mb : Block.mb ∈ fr) (h_led : Block.led ∈ fr) (h_rnd : Block.rnd ∈ fr) (h_store : Block.store ∈ fr) (h_seq : Block.seq ∈ fr) (h_trk : Block.trk ∈ fr) (h_scan : Block.scan ∈ fr) (h_nor : Block.nor ∈ fr) (h_svc : Block.svc ∈ fr) (h_evt : Block.evt ∈ fr) (h_stats : Block.stats ∈ fr) (h_hostMem : Block.hostMem ∈ fr) (h_free : Block.free ∈ fr) (hx : (execMoveComplete s) = .next t) : Only fr s t := by
  have h0 := Only.refl fr s
  grind [execMoveComplete, only_restAt, only_tryApproach, only_afterStop, only_homingRest, only_upd]

theorem only_execSpoReleaseTimeout {fr : List Block} {s : State} {t : State} (h_scan : Block.scan ∈ fr) (hx : (execSpoReleaseTimeout s) = .next t) : Only fr s t := by
  have h0 := Only.refl fr s
  grind [execSpoReleaseTimeout, only_releaseSpo, only_upd]

theorem only_execHomingTravelLimit {fr : List Block} {s : State} {t : State} (h_scan : Block.scan ∈ fr) (hx : (execHomingTravelLimit s) = .next t) : Only fr s t := by
  have h0 := Only.refl fr s
  grind [execHomingTravelLimit, only_upd]

theorem only_setIlk {fr : List Block} {s0 : State} (i : Fin 8) (x : Ilk) {s : State} (h_ilk : Block.ilk ∈ fr) (hkp : Only fr s0 s) : Only fr s0 (setIlk i x s) := by
  grind [setIlk, only_upd]

theorem only_latchIlk {fr : List Block} {s0 : State} (i : Fin 8) (ft : BitVec 32) (lt : BitVec 32) {s : State} (h_ilk : Block.ilk ∈ fr) (hkp : Only fr s0 s) : Only fr s0 (latchIlk i ft lt s) := by
  grind [latchIlk, only_setIlk]

theorem only_tripActs {fr : List Block} {s0 : State} (i : Fin 8) (hard : Bool) {s : State} (h_out : Block.out ∈ fr) (h_win : Block.win ∈ fr) (h_rnd : Block.rnd ∈ fr) (h_store : Block.store ∈ fr) (h_seq : Block.seq ∈ fr) (h_trk : Block.trk ∈ fr) (h_scan : Block.scan ∈ fr) (h_nor : Block.nor ∈ fr) (h_evt : Block.evt ∈ fr) (h_stats : Block.stats ∈ fr) (h_hostMem : Block.hostMem ∈ fr) (h_free : Block.free ∈ fr) (hkp : Only fr s0 s) : Only fr s0 (tripActs i hard s) := by
  grind [tripActs, only_rampStop, only_abortHoming, only_stopStripe, only_upd]

theorem only_execIlkTrip {fr : List Block} (i : Fin 8) (ft : BitVec 32) (lt : BitVec 32) {s : State} {t : State} (h_out : Block.out ∈ fr) (h_win : Block.win ∈ fr) (h_rnd : Block.rnd ∈ fr) (h_store : Block.store ∈ fr) (h_seq : Block.seq ∈ fr) (h_trk : Block.trk ∈ fr) (h_scan : Block.scan ∈ fr) (h_ilk : Block.ilk ∈ fr) (h_nor : Block.nor ∈ fr) (h_evt : Block.evt ∈ fr) (h_stats : Block.stats ∈ fr) (h_hostMem : Block.hostMem ∈ fr) (h_free : Block.free ∈ fr) (hx : (execIlkTrip i ft lt s) = .next t) : Only fr s t := by
  have h0 := Only.refl fr s
  grind [execIlkTrip, only_latchIlk, only_setFlag, only_raise, only_tripActs]

theorem only_execIlkChatter {fr : List Block} (i : Fin 8) {s : State} {t : State} (h_out : Block.out ∈ fr) (h_win : Block.win ∈ fr) (h_ilk : Block.ilk ∈ fr) (h_nor : Block.nor ∈ fr) (h_evt : Block.evt ∈ fr) (h_stats : Block.stats ∈ fr) (h_hostMem : Block.hostMem ∈ fr) (hx : (execIlkChatter i s) = .next t) : Only fr s t := by
  have h0 := Only.refl fr s
  grind [execIlkChatter, only_setIlk, only_raise]

end Sys2Proof.Machine
end

