-- ==== Sys2Proof/Laws/Only8.lean ====
section
/-! SUPPORT. What the functions of these files keep of a state (Laws.Only): KeeperCmd, UpdCmd. -/

namespace Sys2Proof.Machine

theorem only_keysLost {fr : List Block} {s0 : State} {s : State} (h_keep : Block.keep ∈ fr) (hkp : Only fr s0 s) : Only fr s0 (keysLost s) := by
  grind [keysLost, only_upd]

theorem only_batteryCheck {fr : List Block} {s0 : State} {s : State} (h_out : Block.out ∈ fr) (h_win : Block.win ∈ fr) (h_cfg : Block.cfg ∈ fr) (h_led : Block.led ∈ fr) (h_lay : Block.lay ∈ fr) (h_link : Block.link ∈ fr) (h_dma : Block.dma ∈ fr) (h_fab : Block.fab ∈ fr) (h_keep : Block.keep ∈ fr) (h_nor : Block.nor ∈ fr) (h_smb : Block.smb ∈ fr) (h_diag : Block.diag ∈ fr) (h_evt : Block.evt ∈ fr) (h_stats : Block.stats ∈ fr) (h_hostMem : Block.hostMem ∈ fr) (h_free : Block.free ∈ fr) (hkp : Only fr s0 s) : Only fr s0 (batteryCheck s) := by
  grind [batteryCheck, only_keysLost, only_eraseAll, only_upd]

theorem only_tamperTrip {fr : List Block} {s0 : State} {s : State} (h_out : Block.out ∈ fr) (h_win : Block.win ∈ fr) (h_cfg : Block.cfg ∈ fr) (h_led : Block.led ∈ fr) (h_lay : Block.lay ∈ fr) (h_link : Block.link ∈ fr) (h_dma : Block.dma ∈ fr) (h_fab : Block.fab ∈ fr) (h_keep : Block.keep ∈ fr) (h_nor : Block.nor ∈ fr) (h_smb : Block.smb ∈ fr) (h_diag : Block.diag ∈ fr) (h_evt : Block.evt ∈ fr) (h_stats : Block.stats ∈ fr) (h_hostMem : Block.hostMem ∈ fr) (h_free : Block.free ∈ fr) (hkp : Only fr s0 s) : Only fr s0 (tamperTrip s) := by
  grind [tamperTrip, only_eraseAll, only_keeperRaise, only_upd]

theorem only_checkFailed {fr : List Block} {s0 : State} {s : State} (h_out : Block.out ∈ fr) (h_win : Block.win ∈ fr) (h_cfg : Block.cfg ∈ fr) (h_led : Block.led ∈ fr) (h_lay : Block.lay ∈ fr) (h_link : Block.link ∈ fr) (h_dma : Block.dma ∈ fr) (h_fab : Block.fab ∈ fr) (h_keep : Block.keep ∈ fr) (h_nor : Block.nor ∈ fr) (h_smb : Block.smb ∈ fr) (h_diag : Block.diag ∈ fr) (h_evt : Block.evt ∈ fr) (h_stats : Block.stats ∈ fr) (h_hostMem : Block.hostMem ∈ fr) (h_free : Block.free ∈ fr) (hkp : Only fr s0 s) : Only fr s0 (checkFailed s) := by
  grind [checkFailed, only_tamperTrip, only_upd]

theorem only_fillSlot {fr : List Block} {s0 : State} (slot : Fin 64) (keyId : Nat) (key : BitVec 256) {s : State} (h_out : Block.out ∈ fr) (h_win : Block.win ∈ fr) (h_keep : Block.keep ∈ fr) (h_nor : Block.nor ∈ fr) (h_evt : Block.evt ∈ fr) (h_stats : Block.stats ∈ fr) (h_hostMem : Block.hostMem ∈ fr) (hkp : Only fr s0 s) : Only fr s0 (fillSlot slot keyId key s) := by
  grind [fillSlot, only_raise, only_upd]

theorem only_importKey {fr : List Block} {s0 : State} (w : Waiting) (e : Entry) (slot : Fin 64) (keyId : Nat) {s : State} (h_out : Block.out ∈ fr) (h_win : Block.win ∈ fr) (h_mb : Block.mb ∈ fr) (h_dma : Block.dma ∈ fr) (h_keep : Block.keep ∈ fr) (h_nor : Block.nor ∈ fr) (h_svc : Block.svc ∈ fr) (h_diag : Block.diag ∈ fr) (h_evt : Block.evt ∈ fr) (h_stats : Block.stats ∈ fr) (h_hostMem : Block.hostMem ∈ fr) (h_free : Block.free ∈ fr) (hkp : Only fr s0 s) : Only fr s0 (importKey w e slot keyId s) := by
  grind [importKey, only_readBuffer, only_finish, only_raise, only_fillSlot, → only_readBuffer_eq]

theorem only_execSecImportKey {fr : List Block} (e : Entry) {s : State} {t : State} (h_out : Block.out ∈ fr) (h_win : Block.win ∈ fr) (h_mb : Block.mb ∈ fr) (h_dma : Block.dma ∈ fr) (h_keep : Block.keep ∈ fr) (h_nor : Block.nor ∈ fr) (h_svc : Block.svc ∈ fr) (h_diag : Block.diag ∈ fr) (h_evt : Block.evt ∈ fr) (h_stats : Block.stats ∈ fr) (h_hostMem : Block.hostMem ∈ fr) (h_free : Block.free ∈ fr) (hx : (execSecImportKey e s) = .next t) : Only fr s t := by
  have h0 := Only.refl fr s
  grind [execSecImportKey, only_takeUp, only_finish, only_importKey]

theorem only_execSecEraseKey {fr : List Block} (e : Entry) {s : State} {t : State} (h_out : Block.out ∈ fr) (h_win : Block.win ∈ fr) (h_mb : Block.mb ∈ fr) (h_cfg : Block.cfg ∈ fr) (h_led : Block.led ∈ fr) (h_lay : Block.lay ∈ fr) (h_link : Block.link ∈ fr) (h_dma : Block.dma ∈ fr) (h_fab : Block.fab ∈ fr) (h_keep : Block.keep ∈ fr) (h_nor : Block.nor ∈ fr) (h_svc : Block.svc ∈ fr) (h_smb : Block.smb ∈ fr) (h_diag : Block.diag ∈ fr) (h_evt : Block.evt ∈ fr) (h_stats : Block.stats ∈ fr) (h_hostMem : Block.hostMem ∈ fr) (h_free : Block.free ∈ fr) (hx : (execSecEraseKey e s) = .next t) : Only fr s t := by
  have h0 := Only.refl fr s
  grind [execSecEraseKey, only_takeUp, only_erase, only_finish]

theorem only_execSecStatus {fr : List Block} (e : Entry) {s : State} {t : State} (h_out : Block.out ∈ fr) (h_win : Block.win ∈ fr) (h_mb : Block.mb ∈ fr) (h_nor : Block.nor ∈ fr) (h_svc : Block.svc ∈ fr) (h_evt : Block.evt ∈ fr) (h_stats : Block.stats ∈ fr) (h_hostMem : Block.hostMem ∈ fr) (hx : (execSecStatus e s) = .next t) : Only fr s t := by
  have h0 := Only.refl fr s
  grind [execSecStatus, only_takeUp, only_finish]

theorem only_execSecUnlockDebug {fr : List Block} (e : Entry) {s : State} {t : State} (h_out : Block.out ∈ fr) (h_win : Block.win ∈ fr) (h_mb : Block.mb ∈ fr) (h_cfg : Block.cfg ∈ fr) (h_led : Block.led ∈ fr) (h_lay : Block.lay ∈ fr) (h_link : Block.link ∈ fr) (h_dma : Block.dma ∈ fr) (h_fab : Block.fab ∈ fr) (h_keep : Block.keep ∈ fr) (h_nor : Block.nor ∈ fr) (h_svc : Block.svc ∈ fr) (h_smb : Block.smb ∈ fr) (h_diag : Block.diag ∈ fr) (h_evt : Block.evt ∈ fr) (h_stats : Block.stats ∈ fr) (h_hostMem : Block.hostMem ∈ fr) (h_free : Block.free ∈ fr) (hx : (execSecUnlockDebug e s) = .next t) : Only fr s t := by
  have h0 := Only.refl fr s
  grind [execSecUnlockDebug, only_takeUp, only_finish, only_openDebug]

theorem only_execTamperCheck {fr : List Block} (pass : Bool) {s : State} {t : State} (h_out : Block.out ∈ fr) (h_win : Block.win ∈ fr) (h_cfg : Block.cfg ∈ fr) (h_led : Block.led ∈ fr) (h_lay : Block.lay ∈ fr) (h_link : Block.link ∈ fr) (h_dma : Block.dma ∈ fr) (h_fab : Block.fab ∈ fr) (h_keep : Block.keep ∈ fr) (h_nor : Block.nor ∈ fr) (h_smb : Block.smb ∈ fr) (h_diag : Block.diag ∈ fr) (h_evt : Block.evt ∈ fr) (h_stats : Block.stats ∈ fr) (h_hostMem : Block.hostMem ∈ fr) (h_free : Block.free ∈ fr) (hx : (execTamperCheck pass s) = .next t) : Only fr s t := by
  have h0 := Only.refl fr s
  grind [execTamperCheck, only_checkFailed, only_upd]

theorem only_execTamperCleared {fr : List Block} {s : State} {t : State} (h_out : Block.out ∈ fr) (h_win : Block.win ∈ fr) (h_keep : Block.keep ∈ fr) (h_nor : Block.nor ∈ fr) (h_evt : Block.evt ∈ fr) (h_stats : Block.stats ∈ fr) (h_hostMem : Block.hostMem ∈ fr) (hx : (execTamperCleared s) = .next t) : Only fr s t := by
  have h0 := Only.refl fr s
  grind [execTamperCleared, only_keeperTell, only_upd]

theorem only_vbatFlag {fr : List Block} {s0 : State} {s : State} (h_out : Block.out ∈ fr) (h_win : Block.win ∈ fr) (h_keep : Block.keep ∈ fr) (h_nor : Block.nor ∈ fr) (h_evt : Block.evt ∈ fr) (h_stats : Block.stats ∈ fr) (h_hostMem : Block.hostMem ∈ fr) (hkp : Only fr s0 s) : Only fr s0 (vbatFlag s) := by
  grind [vbatFlag, only_keeperRaise, only_upd]

theorem only_execVbatThreshold {fr : List Block} (mv : BitVec 16) {s : State} {t : State} (h_out : Block.out ∈ fr) (h_win : Block.win ∈ fr) (h_cfg : Block.cfg ∈ fr) (h_led : Block.led ∈ fr) (h_lay : Block.lay ∈ fr) (h_link : Block.link ∈ fr) (h_dma : Block.dma ∈ fr) (h_fab : Block.fab ∈ fr) (h_keep : Block.keep ∈ fr) (h_nor : Block.nor ∈ fr) (h_smb : Block.smb ∈ fr) (h_diag : Block.diag ∈ fr) (h_evt : Block.evt ∈ fr) (h_stats : Block.stats ∈ fr) (h_hostMem : Block.hostMem ∈ fr) (h_free : Block.free ∈ fr) (hx : (execVbatThreshold mv s) = .next t) : Only fr s t := by
  have h0 := Only.refl fr s
  grind [execVbatThreshold, only_keysLost, only_batteryCheck, only_vbatFlag, only_upd]

theorem only_execKeeperSupplySwitch {fr : List Block} (onBattery : Bool) {s : State} {t : State} (h_out : Block.out ∈ fr) (h_win : Block.win ∈ fr) (h_cfg : Block.cfg ∈ fr) (h_led : Block.led ∈ fr) (h_lay : Block.lay ∈ fr) (h_link : Block.link ∈ fr) (h_dma : Block.dma ∈ fr) (h_fab : Block.fab ∈ fr) (h_keep : Block.keep ∈ fr) (h_nor : Block.nor ∈ fr) (h_smb : Block.smb ∈ fr) (h_diag : Block.diag ∈ fr) (h_evt : Block.evt ∈ fr) (h_stats : Block.stats ∈ fr) (h_hostMem : Block.hostMem ∈ fr) (h_free : Block.free ∈ fr) (hx : (execKeeperSupplySwitch onBattery s) = .next t) : Only fr s t := by
  have h0 := Only.refl fr s
  grind [execKeeperSupplySwitch, only_batteryCheck, only_keeperPowered, only_upd]

theorem only_execDbgRequest {fr : List Block} {s : State} {t : State} (h_out : Block.out ∈ fr) (h_win : Block.win ∈ fr) (h_cfg : Block.cfg ∈ fr) (h_led : Block.led ∈ fr) (h_lay : Block.lay ∈ fr) (h_link : Block.link ∈ fr) (h_dma : Block.dma ∈ fr) (h_fab : Block.fab ∈ fr) (h_keep : Block.keep ∈ fr) (h_nor : Block.nor ∈ fr) (h_smb : Block.smb ∈ fr) (h_diag : Block.diag ∈ fr) (h_evt : Block.evt ∈ fr) (h_stats : Block.stats ∈ fr) (h_hostMem : Block.hostMem ∈ fr) (h_free : Block.free ∈ fr) (hx : (execDbgRequest s) = .next t) : Only fr s t := by
  have h0 := Only.refl fr s
  grind [execDbgRequest, only_openDebug, only_upd]

theorem only_tellRunning {fr : List Block} {s0 : State} (code : Nat) (d : Domain) (det : W128) {s : State} (h_out : Block.out ∈ fr) (h_win : Block.win ∈ fr) (h_nor : Block.nor ∈ fr) (h_evt : Block.evt ∈ fr) (h_stats : Block.stats ∈ fr) (h_hostMem : Block.hostMem ∈ fr) (hkp : Only fr s0 s) : Only fr s0 (tellRunning code d det s) := by
  grind [tellRunning, only_raise]

theorem only_logEdge {fr : List Block} {s0 : State} (kind : Nat) {s : State} (h_svc : Block.svc ∈ fr) (hkp : Only fr s0 s) : Only fr s0 (logEdge kind s) := by
  grind [logEdge, only_upd]

theorem only_execSvcAttached {fr : List Block} {s : State} {t : State} (h_out : Block.out ∈ fr) (h_win : Block.win ∈ fr) (h_nor : Block.nor ∈ fr) (h_svc : Block.svc ∈ fr) (h_evt : Block.evt ∈ fr) (h_stats : Block.stats ∈ fr) (h_hostMem : Block.hostMem ∈ fr) (hx : (execSvcAttached s) = .next t) : Only fr s t := by
  have h0 := Only.refl fr s
  grind [execSvcAttached, only_tellRunning, only_logEdge, only_upd]

theorem only_execSvcDetached {fr : List Block} {s : State} {t : State} (h_out : Block.out ∈ fr) (h_win : Block.win ∈ fr) (h_nor : Block.nor ∈ fr) (h_svc : Block.svc ∈ fr) (h_evt : Block.evt ∈ fr) (h_stats : Block.stats ∈ fr) (h_hostMem : Block.hostMem ∈ fr) (hx : (execSvcDetached s) = .next t) : Only fr s t := by
  have h0 := Only.refl fr s
  grind [execSvcDetached, only_tellRunning, only_logEdge, only_upd]

theorem only_serviceMark {fr : List Block} {s0 : State} {s : State} (h_nor : Block.nor ∈ fr) (hkp : Only fr s0 s) : Only fr s0 (serviceMark s) := by
  grind [serviceMark, only_upd]

theorem only_execIdentPressed {fr : List Block} (ms : BitVec 32) {s : State} {t : State} (h_out : Block.out ∈ fr) (h_win : Block.win ∈ fr) (h_nor : Block.nor ∈ fr) (h_svc : Block.svc ∈ fr) (h_evt : Block.evt ∈ fr) (h_stats : Block.stats ∈ fr) (h_hostMem : Block.hostMem ∈ fr) (hx : (execIdentPressed ms s) = .next t) : Only fr s t := by
  have h0 := Only.refl fr s
  grind [execIdentPressed, only_tellRunning, only_logEdge, only_serviceMark, only_upd]

theorem only_execIdentStuck {fr : List Block} {s : State} {t : State} (h_out : Block.out ∈ fr) (h_win : Block.win ∈ fr) (h_nor : Block.nor ∈ fr) (h_svc : Block.svc ∈ fr) (h_evt : Block.evt ∈ fr) (h_stats : Block.stats ∈ fr) (h_hostMem : Block.hostMem ∈ fr) (hx : (execIdentStuck s) = .next t) : Only fr s t := by
  have h0 := Only.refl fr s
  grind [execIdentStuck, only_tellRunning, only_logEdge, only_upd]

theorem only_execSmbStatusClear {fr : List Block} (v : BitVec 16) {s : State} {t : State} (h_smb : Block.smb ∈ fr) (hx : (execSmbStatusClear v s) = .next t) : Only fr s t := by
  have h0 := Only.refl fr s
  grind [execSmbStatusClear, only_upd]

theorem only_execSmbAlertEnWrite {fr : List Block} (v : BitVec 16) {s : State} {t : State} (h_smb : Block.smb ∈ fr) (hx : (execSmbAlertEnWrite v s) = .next t) : Only fr s t := by
  have h0 := Only.refl fr s
  grind [execSmbAlertEnWrite, only_upd]

theorem only_execSmbAlertResponse {fr : List Block} {s : State} {t : State} (h_out : Block.out ∈ fr) (hx : (execSmbAlertResponse s) = .next t) : Only fr s t := by
  have h0 := Only.refl fr s
  grind [execSmbAlertResponse, only_emit]

theorem only_execErasureZeroingDone {fr : List Block} {s : State} {t : State} (h_out : Block.out ∈ fr) (h_win : Block.win ∈ fr) (h_keep : Block.keep ∈ fr) (h_nor : Block.nor ∈ fr) (h_smb : Block.smb ∈ fr) (h_evt : Block.evt ∈ fr) (h_stats : Block.stats ∈ fr) (h_hbmMem : Block.hbmMem ∈ fr) (h_hostMem : Block.hostMem ∈ fr) (hx : (execErasureZeroingDone s) = .next t) : Only fr s t := by
  have h0 := Only.refl fr s
  grind [execErasureZeroingDone, only_finishErasure, only_memStops, only_upd]

theorem only_execIdentFlashEnd {fr : List Block} {s : State} {t : State} (h_svc : Block.svc ∈ fr) (hx : (execIdentFlashEnd s) = .next t) : Only fr s t := by
  have h0 := Only.refl fr s
  grind [execIdentFlashEnd, only_upd]

theorem only_armUpdate {fr : List Block} {s0 : State} (w : Waiting) (now : Bool) {s : State} (h_out : Block.out ∈ fr) (h_pm : Block.pm ∈ fr) (h_win : Block.win ∈ fr) (h_mb : Block.mb ∈ fr) (h_upd : Block.upd ∈ fr) (h_nor : Block.nor ∈ fr) (h_svc : Block.svc ∈ fr) (h_evt : Block.evt ∈ fr) (h_stats : Block.stats ∈ fr) (h_hostMem : Block.hostMem ∈ fr) (hkp : Only fr s0 s) : Only fr s0 (armUpdate w now s) := by
  grind [armUpdate, only_finish, only_raise, only_upd]

theorem only_checkPieces {fr : List Block} {s0 : State} {s : State} (h_upd : Block.upd ∈ fr) (hkp : Only fr s0 s) : Only fr s0 (checkPieces s) := by
  grind [checkPieces, only_upd]

theorem only_execUpdBegin {fr : List Block} (e : Entry) {s : State} {t : State} (h_out : Block.out ∈ fr) (h_win : Block.win ∈ fr) (h_mb : Block.mb ∈ fr) (h_upd : Block.upd ∈ fr) (h_nor : Block.nor ∈ fr) (h_svc : Block.svc ∈ fr) (h_evt : Block.evt ∈ fr) (h_stats : Block.stats ∈ fr) (h_hostMem : Block.hostMem ∈ fr) (hx : (execUpdBegin e s) = .next t) : Only fr s t := by
  have h0 := Only.refl fr s
  grind [execUpdBegin, only_takeUp, only_beginUpdate, only_finish]

theorem only_execUpdPutPiece {fr : List Block} (e : Entry) (readBackOk : Bool) {s : State} {t : State} (h_out : Block.out ∈ fr) (h_win : Block.win ∈ fr) (h_mb : Block.mb ∈ fr) (h_dma : Block.dma ∈ fr) (h_upd : Block.upd ∈ fr) (h_nor : Block.nor ∈ fr) (h_svc : Block.svc ∈ fr) (h_diag : Block.diag ∈ fr) (h_evt : Block.evt ∈ fr) (h_stats : Block.stats ∈ fr) (h_hostMem : Block.hostMem ∈ fr) (h_free : Block.free ∈ fr) (hx : (execUpdPutPiece e readBackOk s) = .next t) : Only fr s t := by
  have h0 := Only.refl fr s
  grind [execUpdPutPiece, only_takeUp, only_readBuffer, only_finish, only_putPiece, → only_readBuffer_eq, → only_putPiece_eq]

theorem only_execUpdStatus {fr : List Block} (e : Entry) {s : State} {t : State} (h_out : Block.out ∈ fr) (h_win : Block.win ∈ fr) (h_mb : Block.mb ∈ fr) (h_nor : Block.nor ∈ fr) (h_svc : Block.svc ∈ fr) (h_evt : Block.evt ∈ fr) (h_stats : Block.stats ∈ fr) (h_hostMem : Block.hostMem ∈ fr) (hx : (execUpdStatus e s) = .next t) : Only fr s t := by
  have h0 := Only.refl fr s
  grind [execUpdStatus, only_takeUp, only_finish]

theorem only_execUpdArm {fr : List Block} (e : Entry) {s : State} {t : State} (h_out : Block.out ∈ fr) (h_pm : Block.pm ∈ fr) (h_win : Block.win ∈ fr) (h_mb : Block.mb ∈ fr) (h_upd : Block.upd ∈ fr) (h_nor : Block.nor ∈ fr) (h_svc : Block.svc ∈ fr) (h_evt : Block.evt ∈ fr) (h_stats : Block.stats ∈ fr) (h_hostMem : Block.hostMem ∈ fr) (hx : (execUpdArm e s) = .next t) : Only fr s t := by
  have h0 := Only.refl fr s
  grind [execUpdArm, only_takeUp, only_finish, only_checkPieces, only_eraseUpdate, only_armUpdate, only_upd]

theorem only_sendReport {fr : List Block} {s0 : State} (dst : Nat) {s : State} (h_out : Block.out ∈ fr) (h_win : Block.win ∈ fr) (h_fab : Block.fab ∈ fr) (h_nor : Block.nor ∈ fr) (h_diag : Block.diag ∈ fr) (h_evt : Block.evt ∈ fr) (h_stats : Block.stats ∈ fr) (h_hostMem : Block.hostMem ∈ fr) (hkp : Only fr s0 s) : Only fr s0 (sendReport dst s) := by
  grind [sendReport, only_send]

theorem only_relayBegin {fr : List Block} {s0 : State} (sp : Spore) {s : State} (h_out : Block.out ∈ fr) (h_win : Block.win ∈ fr) (h_fab : Block.fab ∈ fr) (h_upd : Block.upd ∈ fr) (h_nor : Block.nor ∈ fr) (h_diag : Block.diag ∈ fr) (h_evt : Block.evt ∈ fr) (h_stats : Block.stats ∈ fr) (h_hostMem : Block.hostMem ∈ fr) (hkp : Only fr s0 s) : Only fr s0 (relayBegin sp s) := by
  grind [relayBegin, only_beginUpdate, only_nackSpore, only_sendReport]

theorem only_relayWhole {fr : List Block} {s0 : State} (sp : Spore) (id : BitVec 32) (i : Nat) (c : BitVec 32) (b : List Byte) {s : State} (h_out : Block.out ∈ fr) (h_win : Block.win ∈ fr) (h_fab : Block.fab ∈ fr) (h_upd : Block.upd ∈ fr) (h_nor : Block.nor ∈ fr) (h_diag : Block.diag ∈ fr) (h_evt : Block.evt ∈ fr) (h_stats : Block.stats ∈ fr) (h_hostMem : Block.hostMem ∈ fr) (hkp : Only fr s0 s) : Only fr s0 (relayWhole sp id i c b s) := by
  grind [relayWhole, only_putPiece, only_nackSpore, only_sendReport, → only_putPiece_eq]

theorem only_relayPiece {fr : List Block} {s0 : State} (sp : Spore) {s : State} (h_out : Block.out ∈ fr) (h_win : Block.win ∈ fr) (h_fab : Block.fab ∈ fr) (h_upd : Block.upd ∈ fr) (h_nor : Block.nor ∈ fr) (h_diag : Block.diag ∈ fr) (h_evt : Block.evt ∈ fr) (h_stats : Block.stats ∈ fr) (h_hostMem : Block.hostMem ∈ fr) (hkp : Only fr s0 s) : Only fr s0 (relayPiece sp s) := by
  grind [relayPiece, only_relayWhole, only_upd]

theorem only_relayReported {fr : List Block} {s0 : State} (sp : Spore) {s : State} (h_out : Block.out ∈ fr) (h_win : Block.win ∈ fr) (h_cfg : Block.cfg ∈ fr) (h_led : Block.led ∈ fr) (h_link : Block.link ∈ fr) (h_dma : Block.dma ∈ fr) (h_fab : Block.fab ∈ fr) (h_upd : Block.upd ∈ fr) (h_nor : Block.nor ∈ fr) (h_diag : Block.diag ∈ fr) (h_evt : Block.evt ∈ fr) (h_stats : Block.stats ∈ fr) (h_hostMem : Block.hostMem ∈ fr) (h_free : Block.free ∈ fr) (hkp : Only fr s0 s) : Only fr s0 (relayReported sp s) := by
  grind [relayReported, only_relayReport]

theorem only_execUpdRelay {fr : List Block} (p : Fin 8) (sp : Spore) {s : State} {t : State} (h_out : Block.out ∈ fr) (h_win : Block.win ∈ fr) (h_cfg : Block.cfg ∈ fr) (h_led : Block.led ∈ fr) (h_link : Block.link ∈ fr) (h_dma : Block.dma ∈ fr) (h_fab : Block.fab ∈ fr) (h_upd : Block.upd ∈ fr) (h_nor : Block.nor ∈ fr) (h_diag : Block.diag ∈ fr) (h_evt : Block.evt ∈ fr) (h_stats : Block.stats ∈ fr) (h_hostMem : Block.hostMem ∈ fr) (h_free : Block.free ∈ fr) (hx : (execUpdRelay p sp s) = .next t) : Only fr s t := by
  have h0 := Only.refl fr s
  grind [execUpdRelay, only_rxSpore, only_nackSpore, only_relayBegin, only_relayPiece, only_relayReported]

theorem only_execRelayHalfTimeout {fr : List Block} {s : State} {t : State} (h_fab : Block.fab ∈ fr) (hx : (execRelayHalfTimeout s) = .next t) : Only fr s t := by
  have h0 := Only.refl fr s
  grind [execRelayHalfTimeout, only_upd]

end Sys2Proof.Machine
end

