-- ==== Sys2Proof/Laws/State.lean ====
section
/-! SUPPORT. The parts of the state that the shared operations leave as they are, each as a simp lemma. -/

namespace Sys2Proof.Machine

/-! ### Parts outside a frame -/

theorem Only.out {fr : List Block} {s t : State} (h : Only fr s t) (hb : Block.out ∉ fr) : t.out = s.out := h.2 .out hb
theorem Only.pm {fr : List Block} {s t : State} (h : Only fr s t) (hb : Block.pm ∉ fr) : t.pm = s.pm := h.2 .pm hb
theorem Only.time {fr : List Block} {s t : State} (h : Only fr s t) (hb : Block.time ∉ fr) : t.time = s.time := h.2 .time hb
theorem Only.win {fr : List Block} {s t : State} (h : Only fr s t) (hb : Block.win ∉ fr) : t.win = s.win := h.2 .win hb
theorem Only.mb {fr : List Block} {s t : State} (h : Only fr s t) (hb : Block.mb ∉ fr) : t.mb = s.mb := h.2 .mb hb
theorem Only.cfg {fr : List Block} {s t : State} (h : Only fr s t) (hb : Block.cfg ∉ fr) : t.cfg = s.cfg := h.2 .cfg hb
theorem Only.led {fr : List Block} {s t : State} (h : Only fr s t) (hb : Block.led ∉ fr) : t.led = s.led := h.2 .led hb
theorem Only.lay {fr : List Block} {s t : State} (h : Only fr s t) (hb : Block.lay ∉ fr) : t.lay = s.lay := h.2 .lay hb
theorem Only.rnd {fr : List Block} {s t : State} (h : Only fr s t) (hb : Block.rnd ∉ fr) : t.rnd = s.rnd := h.2 .rnd hb
theorem Only.store {fr : List Block} {s t : State} (h : Only fr s t) (hb : Block.store ∉ fr) : t.store = s.store := h.2 .store hb
theorem Only.seq {fr : List Block} {s t : State} (h : Only fr s t) (hb : Block.seq ∉ fr) : t.seq = s.seq := h.2 .seq hb
theorem Only.link {fr : List Block} {s t : State} (h : Only fr s t) (hb : Block.link ∉ fr) : t.link = s.link := h.2 .link hb
theorem Only.trk {fr : List Block} {s t : State} (h : Only fr s t) (hb : Block.trk ∉ fr) : t.trk = s.trk := h.2 .trk hb
theorem Only.scan {fr : List Block} {s t : State} (h : Only fr s t) (hb : Block.scan ∉ fr) : t.scan = s.scan := h.2 .scan hb
theorem Only.ilk {fr : List Block} {s t : State} (h : Only fr s t) (hb : Block.ilk ∉ fr) : t.ilk = s.ilk := h.2 .ilk hb
theorem Only.dma {fr : List Block} {s t : State} (h : Only fr s t) (hb : Block.dma ∉ fr) : t.dma = s.dma := h.2 .dma hb
theorem Only.fab {fr : List Block} {s t : State} (h : Only fr s t) (hb : Block.fab ∉ fr) : t.fab = s.fab := h.2 .fab hb
theorem Only.hbm {fr : List Block} {s t : State} (h : Only fr s t) (hb : Block.hbm ∉ fr) : t.hbm = s.hbm := h.2 .hbm hb
theorem Only.cal {fr : List Block} {s t : State} (h : Only fr s t) (hb : Block.cal ∉ fr) : t.cal = s.cal := h.2 .cal hb
theorem Only.keep {fr : List Block} {s t : State} (h : Only fr s t) (hb : Block.keep ∉ fr) : t.keep = s.keep := h.2 .keep hb
theorem Only.upd {fr : List Block} {s t : State} (h : Only fr s t) (hb : Block.upd ∉ fr) : t.upd = s.upd := h.2 .upd hb
theorem Only.nor {fr : List Block} {s t : State} (h : Only fr s t) (hb : Block.nor ∉ fr) : t.nor = s.nor := h.2 .nor hb
theorem Only.svc {fr : List Block} {s t : State} (h : Only fr s t) (hb : Block.svc ∉ fr) : t.svc = s.svc := h.2 .svc hb
theorem Only.smb {fr : List Block} {s t : State} (h : Only fr s t) (hb : Block.smb ∉ fr) : t.smb = s.smb := h.2 .smb hb
theorem Only.diag {fr : List Block} {s t : State} (h : Only fr s t) (hb : Block.diag ∉ fr) : t.diag = s.diag := h.2 .diag hb
theorem Only.aper {fr : List Block} {s t : State} (h : Only fr s t) (hb : Block.aper ∉ fr) : t.aper = s.aper := h.2 .aper hb
theorem Only.evt {fr : List Block} {s t : State} (h : Only fr s t) (hb : Block.evt ∉ fr) : t.evt = s.evt := h.2 .evt hb
theorem Only.stats {fr : List Block} {s t : State} (h : Only fr s t) (hb : Block.stats ∉ fr) : t.stats = s.stats := h.2 .stats hb
theorem Only.hbmMem {fr : List Block} {s t : State} (h : Only fr s t) (hb : Block.hbmMem ∉ fr) : t.hbmMem = s.hbmMem := h.2 .hbmMem hb
theorem Only.hostMem {fr : List Block} {s t : State} (h : Only fr s t) (hb : Block.hostMem ∉ fr) : t.hostMem = s.hostMem := h.2 .hostMem hb
theorem Only.free {fr : List Block} {s t : State} (h : Only fr s t) (hb : Block.free ∉ fr) : t.free = s.free := h.2 .free hb

/-! ### Setting a part -/

theorem Only.set_out {fr : List Block} {s u : State} (h : Only fr s u) (x : List Output) (hb : Block.out ∈ fr) :
    Only fr s { u with out := x } := by
  refine ⟨h.1, fun b k => ?_⟩
  have y := h.2 b k
  cases b <;> first | exact y | exact absurd hb k

theorem Only.set_pm {fr : List Block} {s u : State} (h : Only fr s u) (x : Power) (hb : Block.pm ∈ fr) :
    Only fr s { u with pm := x } := by
  refine ⟨h.1, fun b k => ?_⟩
  have y := h.2 b k
  cases b <;> first | exact y | exact absurd hb k

theorem Only.set_time {fr : List Block} {s u : State} (h : Only fr s u) (x : Times) (hb : Block.time ∈ fr) :
    Only fr s { u with time := x } := by
  refine ⟨h.1, fun b k => ?_⟩
  have y := h.2 b k
  cases b <;> first | exact y | exact absurd hb k

theorem Only.set_win {fr : List Block} {s u : State} (h : Only fr s u) (x : Win) (hb : Block.win ∈ fr) :
    Only fr s { u with win := x } := by
  refine ⟨h.1, fun b k => ?_⟩
  have y := h.2 b k
  cases b <;> first | exact y | exact absurd hb k

theorem Only.set_mb {fr : List Block} {s u : State} (h : Only fr s u) (x : Mailboxes) (hb : Block.mb ∈ fr) :
    Only fr s { u with mb := x } := by
  refine ⟨h.1, fun b k => ?_⟩
  have y := h.2 b k
  cases b <;> first | exact y | exact absurd hb k

theorem Only.set_cfg {fr : List Block} {s u : State} (h : Only fr s u) (x : Config) (hb : Block.cfg ∈ fr) :
    Only fr s { u with cfg := x } := by
  refine ⟨h.1, fun b k => ?_⟩
  have y := h.2 b k
  cases b <;> first | exact y | exact absurd hb k

theorem Only.set_led {fr : List Block} {s u : State} (h : Only fr s u) (x : Ledger) (hb : Block.led ∈ fr) :
    Only fr s { u with led := x } := by
  refine ⟨h.1, fun b k => ?_⟩
  have y := h.2 b k
  cases b <;> first | exact y | exact absurd hb k

theorem Only.set_lay {fr : List Block} {s u : State} (h : Only fr s u) (x : Layout) (hb : Block.lay ∈ fr) :
    Only fr s { u with lay := x } := by
  refine ⟨h.1, fun b k => ?_⟩
  have y := h.2 b k
  cases b <;> first | exact y | exact absurd hb k

theorem Only.set_rnd {fr : List Block} {s u : State} (h : Only fr s u) (x : Render) (hb : Block.rnd ∈ fr) :
    Only fr s { u with rnd := x } := by
  refine ⟨h.1, fun b k => ?_⟩
  have y := h.2 b k
  cases b <;> first | exact y | exact absurd hb k

theorem Only.set_store {fr : List Block} {s u : State} (h : Only fr s u) (x : Store) (hb : Block.store ∈ fr) :
    Only fr s { u with store := x } := by
  refine ⟨h.1, fun b k => ?_⟩
  have y := h.2 b k
  cases b <;> first | exact y | exact absurd hb k

theorem Only.set_seq {fr : List Block} {s u : State} (h : Only fr s u) (x : Seq) (hb : Block.seq ∈ fr) :
    Only fr s { u with seq := x } := by
  refine ⟨h.1, fun b k => ?_⟩
  have y := h.2 b k
  cases b <;> first | exact y | exact absurd hb k

theorem Only.set_link {fr : List Block} {s u : State} (h : Only fr s u) (x : Link) (hb : Block.link ∈ fr) :
    Only fr s { u with link := x } := by
  refine ⟨h.1, fun b k => ?_⟩
  have y := h.2 b k
  cases b <;> first | exact y | exact absurd hb k

theorem Only.set_trk {fr : List Block} {s u : State} (h : Only fr s u) (x : Track) (hb : Block.trk ∈ fr) :
    Only fr s { u with trk := x } := by
  refine ⟨h.1, fun b k => ?_⟩
  have y := h.2 b k
  cases b <;> first | exact y | exact absurd hb k

theorem Only.set_scan {fr : List Block} {s u : State} (h : Only fr s u) (x : Scan) (hb : Block.scan ∈ fr) :
    Only fr s { u with scan := x } := by
  refine ⟨h.1, fun b k => ?_⟩
  have y := h.2 b k
  cases b <;> first | exact y | exact absurd hb k

theorem Only.set_ilk {fr : List Block} {s u : State} (h : Only fr s u) (x : Vector Ilk 8) (hb : Block.ilk ∈ fr) :
    Only fr s { u with ilk := x } := by
  refine ⟨h.1, fun b k => ?_⟩
  have y := h.2 b k
  cases b <;> first | exact y | exact absurd hb k

theorem Only.set_dma {fr : List Block} {s u : State} (h : Only fr s u) (x : Dma) (hb : Block.dma ∈ fr) :
    Only fr s { u with dma := x } := by
  refine ⟨h.1, fun b k => ?_⟩
  have y := h.2 b k
  cases b <;> first | exact y | exact absurd hb k

theorem Only.set_fab {fr : List Block} {s u : State} (h : Only fr s u) (x : Fabric) (hb : Block.fab ∈ fr) :
    Only fr s { u with fab := x } := by
  refine ⟨h.1, fun b k => ?_⟩
  have y := h.2 b k
  cases b <;> first | exact y | exact absurd hb k

theorem Only.set_hbm {fr : List Block} {s u : State} (h : Only fr s u) (x : Hbm) (hb : Block.hbm ∈ fr) :
    Only fr s { u with hbm := x } := by
  refine ⟨h.1, fun b k => ?_⟩
  have y := h.2 b k
  cases b <;> first | exact y | exact absurd hb k

theorem Only.set_cal {fr : List Block} {s u : State} (h : Only fr s u) (x : Cal) (hb : Block.cal ∈ fr) :
    Only fr s { u with cal := x } := by
  refine ⟨h.1, fun b k => ?_⟩
  have y := h.2 b k
  cases b <;> first | exact y | exact absurd hb k

theorem Only.set_keep {fr : List Block} {s u : State} (h : Only fr s u) (x : Keeper) (hb : Block.keep ∈ fr) :
    Only fr s { u with keep := x } := by
  refine ⟨h.1, fun b k => ?_⟩
  have y := h.2 b k
  cases b <;> first | exact y | exact absurd hb k

theorem Only.set_upd {fr : List Block} {s u : State} (h : Only fr s u) (x : Update) (hb : Block.upd ∈ fr) :
    Only fr s { u with upd := x } := by
  refine ⟨h.1, fun b k => ?_⟩
  have y := h.2 b k
  cases b <;> first | exact y | exact absurd hb k

theorem Only.set_nor {fr : List Block} {s u : State} (h : Only fr s u) (x : Nor) (hb : Block.nor ∈ fr) :
    Only fr s { u with nor := x } := by
  refine ⟨h.1, fun b k => ?_⟩
  have y := h.2 b k
  cases b <;> first | exact y | exact absurd hb k

theorem Only.set_svc {fr : List Block} {s u : State} (h : Only fr s u) (x : Service) (hb : Block.svc ∈ fr) :
    Only fr s { u with svc := x } := by
  refine ⟨h.1, fun b k => ?_⟩
  have y := h.2 b k
  cases b <;> first | exact y | exact absurd hb k

theorem Only.set_smb {fr : List Block} {s u : State} (h : Only fr s u) (x : Smb) (hb : Block.smb ∈ fr) :
    Only fr s { u with smb := x } := by
  refine ⟨h.1, fun b k => ?_⟩
  have y := h.2 b k
  cases b <;> first | exact y | exact absurd hb k

theorem Only.set_diag {fr : List Block} {s u : State} (h : Only fr s u) (x : Diag) (hb : Block.diag ∈ fr) :
    Only fr s { u with diag := x } := by
  refine ⟨h.1, fun b k => ?_⟩
  have y := h.2 b k
  cases b <;> first | exact y | exact absurd hb k

theorem Only.set_aper {fr : List Block} {s u : State} (h : Only fr s u) (x : Aperture) (hb : Block.aper ∈ fr) :
    Only fr s { u with aper := x } := by
  refine ⟨h.1, fun b k => ?_⟩
  have y := h.2 b k
  cases b <;> first | exact y | exact absurd hb k

theorem Only.set_evt {fr : List Block} {s u : State} (h : Only fr s u) (x : Events) (hb : Block.evt ∈ fr) :
    Only fr s { u with evt := x } := by
  refine ⟨h.1, fun b k => ?_⟩
  have y := h.2 b k
  cases b <;> first | exact y | exact absurd hb k

theorem Only.set_stats {fr : List Block} {s u : State} (h : Only fr s u) (x : Tbl (BitVec 64)) (hb : Block.stats ∈ fr) :
    Only fr s { u with stats := x } := by
  refine ⟨h.1, fun b k => ?_⟩
  have y := h.2 b k
  cases b <;> first | exact y | exact absurd hb k

theorem Only.set_hbmMem {fr : List Block} {s u : State} (h : Only fr s u) (x : Memory) (hb : Block.hbmMem ∈ fr) :
    Only fr s { u with hbmMem := x } := by
  refine ⟨h.1, fun b k => ?_⟩
  have y := h.2 b k
  cases b <;> first | exact y | exact absurd hb k

theorem Only.set_hostMem {fr : List Block} {s u : State} (h : Only fr s u) (x : Memory) (hb : Block.hostMem ∈ fr) :
    Only fr s { u with hostMem := x } := by
  refine ⟨h.1, fun b k => ?_⟩
  have y := h.2 b k
  cases b <;> first | exact y | exact absurd hb k

theorem Only.set_free {fr : List Block} {s u : State} (h : Only fr s u) (x : Nat) (hb : Block.free ∈ fr) :
    Only fr s { u with free := x } := by
  refine ⟨h.1, fun b k => ?_⟩
  have y := h.2 b k
  cases b <;> first | exact y | exact absurd hb k

theorem Kept.set_pm {s u : State} (h : Kept s u) (x : Power) : Kept s { u with pm := x } :=
  ⟨h.1, h.2, h.3, h.4, h.5, h.6⟩

theorem Kept.set_time {s u : State} (h : Kept s u) (x : Times) : Kept s { u with time := x } :=
  ⟨h.1, h.2, h.3, h.4, h.5, h.6⟩

theorem Kept.set_win {s u : State} (h : Kept s u) (x : Win) : Kept s { u with win := x } :=
  ⟨h.1, h.2, h.3, h.4, h.5, h.6⟩

theorem Kept.set_mb {s u : State} (h : Kept s u) (x : Mailboxes) : Kept s { u with mb := x } :=
  ⟨h.1, h.2, h.3, h.4, h.5, h.6⟩

theorem Kept.set_cfg {s u : State} (h : Kept s u) (x : Config) : Kept s { u with cfg := x } :=
  ⟨h.1, h.2, h.3, h.4, h.5, h.6⟩

theorem Kept.set_led {s u : State} (h : Kept s u) (x : Ledger) : Kept s { u with led := x } :=
  ⟨h.1, h.2, h.3, h.4, h.5, h.6⟩

theorem Kept.set_lay {s u : State} (h : Kept s u) (x : Layout) : Kept s { u with lay := x } :=
  ⟨h.1, h.2, h.3, h.4, h.5, h.6⟩

theorem Kept.set_rnd {s u : State} (h : Kept s u) (x : Render) : Kept s { u with rnd := x } :=
  ⟨h.1, h.2, h.3, h.4, h.5, h.6⟩

theorem Kept.set_store {s u : State} (h : Kept s u) (x : Store) : Kept s { u with store := x } :=
  ⟨h.1, h.2, h.3, h.4, h.5, h.6⟩

theorem Kept.set_link {s u : State} (h : Kept s u) (x : Link) : Kept s { u with link := x } :=
  ⟨h.1, h.2, h.3, h.4, h.5, h.6⟩

theorem Kept.set_trk {s u : State} (h : Kept s u) (x : Track) : Kept s { u with trk := x } :=
  ⟨h.1, h.2, h.3, h.4, h.5, h.6⟩

theorem Kept.set_scan {s u : State} (h : Kept s u) (x : Scan) : Kept s { u with scan := x } :=
  ⟨h.1, h.2, h.3, h.4, h.5, h.6⟩

theorem Kept.set_ilk {s u : State} (h : Kept s u) (x : Vector Ilk 8) : Kept s { u with ilk := x } :=
  ⟨h.1, h.2, h.3, h.4, h.5, h.6⟩

theorem Kept.set_dma {s u : State} (h : Kept s u) (x : Dma) : Kept s { u with dma := x } :=
  ⟨h.1, h.2, h.3, h.4, h.5, h.6⟩

theorem Kept.set_fab {s u : State} (h : Kept s u) (x : Fabric) : Kept s { u with fab := x } :=
  ⟨h.1, h.2, h.3, h.4, h.5, h.6⟩

theorem Kept.set_hbm {s u : State} (h : Kept s u) (x : Hbm) : Kept s { u with hbm := x } :=
  ⟨h.1, h.2, h.3, h.4, h.5, h.6⟩

theorem Kept.set_cal {s u : State} (h : Kept s u) (x : Cal) : Kept s { u with cal := x } :=
  ⟨h.1, h.2, h.3, h.4, h.5, h.6⟩

theorem Kept.set_upd {s u : State} (h : Kept s u) (x : Update) : Kept s { u with upd := x } :=
  ⟨h.1, h.2, h.3, h.4, h.5, h.6⟩

theorem Kept.set_svc {s u : State} (h : Kept s u) (x : Service) : Kept s { u with svc := x } :=
  ⟨h.1, h.2, h.3, h.4, h.5, h.6⟩

theorem Kept.set_smb {s u : State} (h : Kept s u) (x : Smb) : Kept s { u with smb := x } :=
  ⟨h.1, h.2, h.3, h.4, h.5, h.6⟩

theorem Kept.set_diag {s u : State} (h : Kept s u) (x : Diag) : Kept s { u with diag := x } :=
  ⟨h.1, h.2, h.3, h.4, h.5, h.6⟩

theorem Kept.set_aper {s u : State} (h : Kept s u) (x : Aperture) : Kept s { u with aper := x } :=
  ⟨h.1, h.2, h.3, h.4, h.5, h.6⟩

theorem Kept.set_evt {s u : State} (h : Kept s u) (x : Events) : Kept s { u with evt := x } :=
  ⟨h.1, h.2, h.3, h.4, h.5, h.6⟩

theorem Kept.set_stats {s u : State} (h : Kept s u) (x : Tbl (BitVec 64)) : Kept s { u with stats := x } :=
  ⟨h.1, h.2, h.3, h.4, h.5, h.6⟩

theorem Kept.set_free {s u : State} (h : Kept s u) (x : Nat) : Kept s { u with free := x } :=
  ⟨h.1, h.2, h.3, h.4, h.5, h.6⟩


/-! ### The shared operations -/

@[simp] theorem emit_parts (o : Output) (s : State) :
    (emit o s).pending = s.pending ∧
    (emit o s).pm = s.pm ∧
    (emit o s).time = s.time ∧
    (emit o s).win = s.win ∧
    (emit o s).mb = s.mb ∧
    (emit o s).cfg = s.cfg ∧
    (emit o s).led = s.led ∧
    (emit o s).lay = s.lay ∧
    (emit o s).rnd = s.rnd ∧
    (emit o s).store = s.store ∧
    (emit o s).seq = s.seq ∧
    (emit o s).link = s.link ∧
    (emit o s).trk = s.trk ∧
    (emit o s).scan = s.scan ∧
    (emit o s).ilk = s.ilk ∧
    (emit o s).dma = s.dma ∧
    (emit o s).fab = s.fab ∧
    (emit o s).hbm = s.hbm ∧
    (emit o s).cal = s.cal ∧
    (emit o s).keep = s.keep ∧
    (emit o s).upd = s.upd ∧
    (emit o s).nor = s.nor ∧
    (emit o s).svc = s.svc ∧
    (emit o s).smb = s.smb ∧
    (emit o s).diag = s.diag ∧
    (emit o s).aper = s.aper ∧
    (emit o s).evt = s.evt ∧
    (emit o s).stats = s.stats ∧
    (emit o s).hbmMem = s.hbmMem ∧
    (emit o s).hostMem = s.hostMem ∧
    (emit o s).free = s.free :=
  have h := only_emit (fr := [.out]) o (by decide) (Only.refl _ s)
  ⟨h.1, h.2 .pm (by decide), h.2 .time (by decide), h.2 .win (by decide), h.2 .mb (by decide), h.2 .cfg (by decide), h.2 .led (by decide), h.2 .lay (by decide), h.2 .rnd (by decide), h.2 .store (by decide), h.2 .seq (by decide), h.2 .link (by decide), h.2 .trk (by decide), h.2 .scan (by decide), h.2 .ilk (by decide), h.2 .dma (by decide), h.2 .fab (by decide), h.2 .hbm (by decide), h.2 .cal (by decide), h.2 .keep (by decide), h.2 .upd (by decide), h.2 .nor (by decide), h.2 .svc (by decide), h.2 .smb (by decide), h.2 .diag (by decide), h.2 .aper (by decide), h.2 .evt (by decide), h.2 .stats (by decide), h.2 .hbmMem (by decide), h.2 .hostMem (by decide), h.2 .free (by decide)⟩

@[simp] theorem statAdd_parts (key : Nat) (n : Nat) (s : State) :
    (statAdd key n s).pending = s.pending ∧
    (statAdd key n s).out = s.out ∧
    (statAdd key n s).pm = s.pm ∧
    (statAdd key n s).time = s.time ∧
    (statAdd key n s).win = s.win ∧
    (statAdd key n s).mb = s.mb ∧
    (statAdd key n s).cfg = s.cfg ∧
    (statAdd key n s).led = s.led ∧
    (statAdd key n s).lay = s.lay ∧
    (statAdd key n s).rnd = s.rnd ∧
    (statAdd key n s).store = s.store ∧
    (statAdd key n s).seq = s.seq ∧
    (statAdd key n s).link = s.link ∧
    (statAdd key n s).trk = s.trk ∧
    (statAdd key n s).scan = s.scan ∧
    (statAdd key n s).ilk = s.ilk ∧
    (statAdd key n s).dma = s.dma ∧
    (statAdd key n s).fab = s.fab ∧
    (statAdd key n s).hbm = s.hbm ∧
    (statAdd key n s).cal = s.cal ∧
    (statAdd key n s).keep = s.keep ∧
    (statAdd key n s).upd = s.upd ∧
    (statAdd key n s).nor = s.nor ∧
    (statAdd key n s).svc = s.svc ∧
    (statAdd key n s).smb = s.smb ∧
    (statAdd key n s).diag = s.diag ∧
    (statAdd key n s).aper = s.aper ∧
    (statAdd key n s).evt = s.evt ∧
    (statAdd key n s).hbmMem = s.hbmMem ∧
    (statAdd key n s).hostMem = s.hostMem ∧
    (statAdd key n s).free = s.free :=
  have h := only_statAdd (fr := [.stats]) key n (by decide) (Only.refl _ s)
  ⟨h.1, h.2 .out (by decide), h.2 .pm (by decide), h.2 .time (by decide), h.2 .win (by decide), h.2 .mb (by decide), h.2 .cfg (by decide), h.2 .led (by decide), h.2 .lay (by decide), h.2 .rnd (by decide), h.2 .store (by decide), h.2 .seq (by decide), h.2 .link (by decide), h.2 .trk (by decide), h.2 .scan (by decide), h.2 .ilk (by decide), h.2 .dma (by decide), h.2 .fab (by decide), h.2 .hbm (by decide), h.2 .cal (by decide), h.2 .keep (by decide), h.2 .upd (by decide), h.2 .nor (by decide), h.2 .svc (by decide), h.2 .smb (by decide), h.2 .diag (by decide), h.2 .aper (by decide), h.2 .evt (by decide), h.2 .hbmMem (by decide), h.2 .hostMem (by decide), h.2 .free (by decide)⟩

@[simp] theorem stat_parts (key : Nat) (s : State) :
    (stat key s).pending = s.pending ∧
    (stat key s).out = s.out ∧
    (stat key s).pm = s.pm ∧
    (stat key s).time = s.time ∧
    (stat key s).win = s.win ∧
    (stat key s).mb = s.mb ∧
    (stat key s).cfg = s.cfg ∧
    (stat key s).led = s.led ∧
    (stat key s).lay = s.lay ∧
    (stat key s).rnd = s.rnd ∧
    (stat key s).store = s.store ∧
    (stat key s).seq = s.seq ∧
    (stat key s).link = s.link ∧
    (stat key s).trk = s.trk ∧
    (stat key s).scan = s.scan ∧
    (stat key s).ilk = s.ilk ∧
    (stat key s).dma = s.dma ∧
    (stat key s).fab = s.fab ∧
    (stat key s).hbm = s.hbm ∧
    (stat key s).cal = s.cal ∧
    (stat key s).keep = s.keep ∧
    (stat key s).upd = s.upd ∧
    (stat key s).nor = s.nor ∧
    (stat key s).svc = s.svc ∧
    (stat key s).smb = s.smb ∧
    (stat key s).diag = s.diag ∧
    (stat key s).aper = s.aper ∧
    (stat key s).evt = s.evt ∧
    (stat key s).hbmMem = s.hbmMem ∧
    (stat key s).hostMem = s.hostMem ∧
    (stat key s).free = s.free :=
  have h := only_stat (fr := [.stats]) key (by decide) (Only.refl _ s)
  ⟨h.1, h.2 .out (by decide), h.2 .pm (by decide), h.2 .time (by decide), h.2 .win (by decide), h.2 .mb (by decide), h.2 .cfg (by decide), h.2 .led (by decide), h.2 .lay (by decide), h.2 .rnd (by decide), h.2 .store (by decide), h.2 .seq (by decide), h.2 .link (by decide), h.2 .trk (by decide), h.2 .scan (by decide), h.2 .ilk (by decide), h.2 .dma (by decide), h.2 .fab (by decide), h.2 .hbm (by decide), h.2 .cal (by decide), h.2 .keep (by decide), h.2 .upd (by decide), h.2 .nor (by decide), h.2 .svc (by decide), h.2 .smb (by decide), h.2 .diag (by decide), h.2 .aper (by decide), h.2 .evt (by decide), h.2 .hbmMem (by decide), h.2 .hostMem (by decide), h.2 .free (by decide)⟩

@[simp] theorem hostWrite_parts (a : Nat) (b : List Byte) (s : State) :
    (hostWrite a b s).pending = s.pending ∧
    (hostWrite a b s).out = s.out ∧
    (hostWrite a b s).pm = s.pm ∧
    (hostWrite a b s).time = s.time ∧
    (hostWrite a b s).win = s.win ∧
    (hostWrite a b s).mb = s.mb ∧
    (hostWrite a b s).cfg = s.cfg ∧
    (hostWrite a b s).led = s.led ∧
    (hostWrite a b s).lay = s.lay ∧
    (hostWrite a b s).rnd = s.rnd ∧
    (hostWrite a b s).store = s.store ∧
    (hostWrite a b s).seq = s.seq ∧
    (hostWrite a b s).link = s.link ∧
    (hostWrite a b s).trk = s.trk ∧
    (hostWrite a b s).scan = s.scan ∧
    (hostWrite a b s).ilk = s.ilk ∧
    (hostWrite a b s).dma = s.dma ∧
    (hostWrite a b s).fab = s.fab ∧
    (hostWrite a b s).hbm = s.hbm ∧
    (hostWrite a b s).cal = s.cal ∧
    (hostWrite a b s).keep = s.keep ∧
    (hostWrite a b s).upd = s.upd ∧
    (hostWrite a b s).nor = s.nor ∧
    (hostWrite a b s).svc = s.svc ∧
    (hostWrite a b s).smb = s.smb ∧
    (hostWrite a b s).diag = s.diag ∧
    (hostWrite a b s).aper = s.aper ∧
    (hostWrite a b s).evt = s.evt ∧
    (hostWrite a b s).stats = s.stats ∧
    (hostWrite a b s).hbmMem = s.hbmMem ∧
    (hostWrite a b s).free = s.free :=
  have h := only_hostWrite (fr := [.hostMem]) a b (by decide) (Only.refl _ s)
  ⟨h.1, h.2 .out (by decide), h.2 .pm (by decide), h.2 .time (by decide), h.2 .win (by decide), h.2 .mb (by decide), h.2 .cfg (by decide), h.2 .led (by decide), h.2 .lay (by decide), h.2 .rnd (by decide), h.2 .store (by decide), h.2 .seq (by decide), h.2 .link (by decide), h.2 .trk (by decide), h.2 .scan (by decide), h.2 .ilk (by decide), h.2 .dma (by decide), h.2 .fab (by decide), h.2 .hbm (by decide), h.2 .cal (by decide), h.2 .keep (by decide), h.2 .upd (by decide), h.2 .nor (by decide), h.2 .svc (by decide), h.2 .smb (by decide), h.2 .diag (by decide), h.2 .aper (by decide), h.2 .evt (by decide), h.2 .stats (by decide), h.2 .hbmMem (by decide), h.2 .free (by decide)⟩

@[simp] theorem hbmWrite_parts (a : Nat) (b : List Byte) (s : State) :
    (hbmWrite a b s).pending = s.pending ∧
    (hbmWrite a b s).out = s.out ∧
    (hbmWrite a b s).pm = s.pm ∧
    (hbmWrite a b s).time = s.time ∧
    (hbmWrite a b s).win = s.win ∧
    (hbmWrite a b s).mb = s.mb ∧
    (hbmWrite a b s).cfg = s.cfg ∧
    (hbmWrite a b s).led = s.led ∧
    (hbmWrite a b s).lay = s.lay ∧
    (hbmWrite a b s).rnd = s.rnd ∧
    (hbmWrite a b s).store = s.store ∧
    (hbmWrite a b s).seq = s.seq ∧
    (hbmWrite a b s).link = s.link ∧
    (hbmWrite a b s).trk = s.trk ∧
    (hbmWrite a b s).scan = s.scan ∧
    (hbmWrite a b s).ilk = s.ilk ∧
    (hbmWrite a b s).dma = s.dma ∧
    (hbmWrite a b s).fab = s.fab ∧
    (hbmWrite a b s).hbm = s.hbm ∧
    (hbmWrite a b s).cal = s.cal ∧
    (hbmWrite a b s).keep = s.keep ∧
    (hbmWrite a b s).upd = s.upd ∧
    (hbmWrite a b s).nor = s.nor ∧
    (hbmWrite a b s).svc = s.svc ∧
    (hbmWrite a b s).smb = s.smb ∧
    (hbmWrite a b s).diag = s.diag ∧
    (hbmWrite a b s).aper = s.aper ∧
    (hbmWrite a b s).evt = s.evt ∧
    (hbmWrite a b s).stats = s.stats ∧
    (hbmWrite a b s).hostMem = s.hostMem ∧
    (hbmWrite a b s).free = s.free :=
  have h := only_hbmWrite (fr := [.hbmMem]) a b (by decide) (Only.refl _ s)
  ⟨h.1, h.2 .out (by decide), h.2 .pm (by decide), h.2 .time (by decide), h.2 .win (by decide), h.2 .mb (by decide), h.2 .cfg (by decide), h.2 .led (by decide), h.2 .lay (by decide), h.2 .rnd (by decide), h.2 .store (by decide), h.2 .seq (by decide), h.2 .link (by decide), h.2 .trk (by decide), h.2 .scan (by decide), h.2 .ilk (by decide), h.2 .dma (by decide), h.2 .fab (by decide), h.2 .hbm (by decide), h.2 .cal (by decide), h.2 .keep (by decide), h.2 .upd (by decide), h.2 .nor (by decide), h.2 .svc (by decide), h.2 .smb (by decide), h.2 .diag (by decide), h.2 .aper (by decide), h.2 .evt (by decide), h.2 .stats (by decide), h.2 .hostMem (by decide), h.2 .free (by decide)⟩

@[simp] theorem setRing_parts (i : Fin 64) (r : Ring) (s : State) :
    (setRing i r s).pending = s.pending ∧
    (setRing i r s).out = s.out ∧
    (setRing i r s).pm = s.pm ∧
    (setRing i r s).time = s.time ∧
    (setRing i r s).mb = s.mb ∧
    (setRing i r s).cfg = s.cfg ∧
    (setRing i r s).led = s.led ∧
    (setRing i r s).lay = s.lay ∧
    (setRing i r s).rnd = s.rnd ∧
    (setRing i r s).store = s.store ∧
    (setRing i r s).seq = s.seq ∧
    (setRing i r s).link = s.link ∧
    (setRing i r s).trk = s.trk ∧
    (setRing i r s).scan = s.scan ∧
    (setRing i r s).ilk = s.ilk ∧
    (setRing i r s).dma = s.dma ∧
    (setRing i r s).fab = s.fab ∧
    (setRing i r s).hbm = s.hbm ∧
    (setRing i r s).cal = s.cal ∧
    (setRing i r s).keep = s.keep ∧
    (setRing i r s).upd = s.upd ∧
    (setRing i r s).nor = s.nor ∧
    (setRing i r s).svc = s.svc ∧
    (setRing i r s).smb = s.smb ∧
    (setRing i r s).diag = s.diag ∧
    (setRing i r s).aper = s.aper ∧
    (setRing i r s).evt = s.evt ∧
    (setRing i r s).stats = s.stats ∧
    (setRing i r s).hbmMem = s.hbmMem ∧
    (setRing i r s).hostMem = s.hostMem ∧
    (setRing i r s).free = s.free :=
  have h := only_setRing (fr := [.win]) i r (by decide) (Only.refl _ s)
  ⟨h.1, h.2 .out (by decide), h.2 .pm (by decide), h.2 .time (by decide), h.2 .mb (by decide), h.2 .cfg (by decide), h.2 .led (by decide), h.2 .lay (by decide), h.2 .rnd (by decide), h.2 .store (by decide), h.2 .seq (by decide), h.2 .link (by decide), h.2 .trk (by decide), h.2 .scan (by decide), h.2 .ilk (by decide), h.2 .dma (by decide), h.2 .fab (by decide), h.2 .hbm (by decide), h.2 .cal (by decide), h.2 .keep (by decide), h.2 .upd (by decide), h.2 .nor (by decide), h.2 .svc (by decide), h.2 .smb (by decide), h.2 .diag (by decide), h.2 .aper (by decide), h.2 .evt (by decide), h.2 .stats (by decide), h.2 .hbmMem (by decide), h.2 .hostMem (by decide), h.2 .free (by decide)⟩

@[simp] theorem countEvent_parts (code : Nat) (s : State) :
    (countEvent code s).pending = s.pending ∧
    (countEvent code s).out = s.out ∧
    (countEvent code s).pm = s.pm ∧
    (countEvent code s).time = s.time ∧
    (countEvent code s).win = s.win ∧
    (countEvent code s).mb = s.mb ∧
    (countEvent code s).cfg = s.cfg ∧
    (countEvent code s).led = s.led ∧
    (countEvent code s).lay = s.lay ∧
    (countEvent code s).rnd = s.rnd ∧
    (countEvent code s).store = s.store ∧
    (countEvent code s).seq = s.seq ∧
    (countEvent code s).link = s.link ∧
    (countEvent code s).trk = s.trk ∧
    (countEvent code s).scan = s.scan ∧
    (countEvent code s).ilk = s.ilk ∧
    (countEvent code s).dma = s.dma ∧
    (countEvent code s).fab = s.fab ∧
    (countEvent code s).hbm = s.hbm ∧
    (countEvent code s).cal = s.cal ∧
    (countEvent code s).keep = s.keep ∧
    (countEvent code s).upd = s.upd ∧
    (countEvent code s).nor = s.nor ∧
    (countEvent code s).svc = s.svc ∧
    (countEvent code s).smb = s.smb ∧
    (countEvent code s).diag = s.diag ∧
    (countEvent code s).aper = s.aper ∧
    (countEvent code s).stats = s.stats ∧
    (countEvent code s).hbmMem = s.hbmMem ∧
    (countEvent code s).hostMem = s.hostMem ∧
    (countEvent code s).free = s.free :=
  have h := only_countEvent (fr := [.evt]) code (by decide) (Only.refl _ s)
  ⟨h.1, h.2 .out (by decide), h.2 .pm (by decide), h.2 .time (by decide), h.2 .win (by decide), h.2 .mb (by decide), h.2 .cfg (by decide), h.2 .led (by decide), h.2 .lay (by decide), h.2 .rnd (by decide), h.2 .store (by decide), h.2 .seq (by decide), h.2 .link (by decide), h.2 .trk (by decide), h.2 .scan (by decide), h.2 .ilk (by decide), h.2 .dma (by decide), h.2 .fab (by decide), h.2 .hbm (by decide), h.2 .cal (by decide), h.2 .keep (by decide), h.2 .upd (by decide), h.2 .nor (by decide), h.2 .svc (by decide), h.2 .smb (by decide), h.2 .diag (by decide), h.2 .aper (by decide), h.2 .stats (by decide), h.2 .hbmMem (by decide), h.2 .hostMem (by decide), h.2 .free (by decide)⟩

@[simp] theorem sendMsix_parts (v : Nat) (s : State) :
    (sendMsix v s).pending = s.pending ∧
    (sendMsix v s).pm = s.pm ∧
    (sendMsix v s).time = s.time ∧
    (sendMsix v s).mb = s.mb ∧
    (sendMsix v s).cfg = s.cfg ∧
    (sendMsix v s).led = s.led ∧
    (sendMsix v s).lay = s.lay ∧
    (sendMsix v s).rnd = s.rnd ∧
    (sendMsix v s).store = s.store ∧
    (sendMsix v s).seq = s.seq ∧
    (sendMsix v s).link = s.link ∧
    (sendMsix v s).trk = s.trk ∧
    (sendMsix v s).scan = s.scan ∧
    (sendMsix v s).ilk = s.ilk ∧
    (sendMsix v s).dma = s.dma ∧
    (sendMsix v s).fab = s.fab ∧
    (sendMsix v s).hbm = s.hbm ∧
    (sendMsix v s).cal = s.cal ∧
    (sendMsix v s).keep = s.keep ∧
    (sendMsix v s).upd = s.upd ∧
    (sendMsix v s).nor = s.nor ∧
    (sendMsix v s).svc = s.svc ∧
    (sendMsix v s).smb = s.smb ∧
    (sendMsix v s).diag = s.diag ∧
    (sendMsix v s).aper = s.aper ∧
    (sendMsix v s).evt = s.evt ∧
    (sendMsix v s).hbmMem = s.hbmMem ∧
    (sendMsix v s).hostMem = s.hostMem ∧
    (sendMsix v s).free = s.free :=
  have h := only_sendMsix (fr := [.out, .win, .stats]) v (by decide) (by decide) (by decide) (Only.refl _ s)
  ⟨h.1, h.2 .pm (by decide), h.2 .time (by decide), h.2 .mb (by decide), h.2 .cfg (by decide), h.2 .led (by decide), h.2 .lay (by decide), h.2 .rnd (by decide), h.2 .store (by decide), h.2 .seq (by decide), h.2 .link (by decide), h.2 .trk (by decide), h.2 .scan (by decide), h.2 .ilk (by decide), h.2 .dma (by decide), h.2 .fab (by decide), h.2 .hbm (by decide), h.2 .cal (by decide), h.2 .keep (by decide), h.2 .upd (by decide), h.2 .nor (by decide), h.2 .svc (by decide), h.2 .smb (by decide), h.2 .diag (by decide), h.2 .aper (by decide), h.2 .evt (by decide), h.2 .hbmMem (by decide), h.2 .hostMem (by decide), h.2 .free (by decide)⟩

@[simp] theorem setFlag_parts (b : Fin 11) (s : State) :
    (setFlag b s).pending = s.pending ∧
    (setFlag b s).pm = s.pm ∧
    (setFlag b s).time = s.time ∧
    (setFlag b s).mb = s.mb ∧
    (setFlag b s).cfg = s.cfg ∧
    (setFlag b s).led = s.led ∧
    (setFlag b s).lay = s.lay ∧
    (setFlag b s).rnd = s.rnd ∧
    (setFlag b s).store = s.store ∧
    (setFlag b s).seq = s.seq ∧
    (setFlag b s).link = s.link ∧
    (setFlag b s).trk = s.trk ∧
    (setFlag b s).scan = s.scan ∧
    (setFlag b s).ilk = s.ilk ∧
    (setFlag b s).dma = s.dma ∧
    (setFlag b s).fab = s.fab ∧
    (setFlag b s).hbm = s.hbm ∧
    (setFlag b s).cal = s.cal ∧
    (setFlag b s).keep = s.keep ∧
    (setFlag b s).upd = s.upd ∧
    (setFlag b s).nor = s.nor ∧
    (setFlag b s).svc = s.svc ∧
    (setFlag b s).smb = s.smb ∧
    (setFlag b s).diag = s.diag ∧
    (setFlag b s).aper = s.aper ∧
    (setFlag b s).evt = s.evt ∧
    (setFlag b s).hbmMem = s.hbmMem ∧
    (setFlag b s).hostMem = s.hostMem ∧
    (setFlag b s).free = s.free :=
  have h := only_setFlag (fr := [.out, .win, .stats]) b (by decide) (by decide) (by decide) (Only.refl _ s)
  ⟨h.1, h.2 .pm (by decide), h.2 .time (by decide), h.2 .mb (by decide), h.2 .cfg (by decide), h.2 .led (by decide), h.2 .lay (by decide), h.2 .rnd (by decide), h.2 .store (by decide), h.2 .seq (by decide), h.2 .link (by decide), h.2 .trk (by decide), h.2 .scan (by decide), h.2 .ilk (by decide), h.2 .dma (by decide), h.2 .fab (by decide), h.2 .hbm (by decide), h.2 .cal (by decide), h.2 .keep (by decide), h.2 .upd (by decide), h.2 .nor (by decide), h.2 .svc (by decide), h.2 .smb (by decide), h.2 .diag (by decide), h.2 .aper (by decide), h.2 .evt (by decide), h.2 .hbmMem (by decide), h.2 .hostMem (by decide), h.2 .free (by decide)⟩

@[simp] theorem writeShadow_parts (i : Fin 64) (s : State) :
    (writeShadow i s).pending = s.pending ∧
    (writeShadow i s).pm = s.pm ∧
    (writeShadow i s).time = s.time ∧
    (writeShadow i s).win = s.win ∧
    (writeShadow i s).mb = s.mb ∧
    (writeShadow i s).cfg = s.cfg ∧
    (writeShadow i s).led = s.led ∧
    (writeShadow i s).lay = s.lay ∧
    (writeShadow i s).rnd = s.rnd ∧
    (writeShadow i s).store = s.store ∧
    (writeShadow i s).seq = s.seq ∧
    (writeShadow i s).link = s.link ∧
    (writeShadow i s).trk = s.trk ∧
    (writeShadow i s).scan = s.scan ∧
    (writeShadow i s).ilk = s.ilk ∧
    (writeShadow i s).dma = s.dma ∧
    (writeShadow i s).fab = s.fab ∧
    (writeShadow i s).hbm = s.hbm ∧
    (writeShadow i s).cal = s.cal ∧
    (writeShadow i s).keep = s.keep ∧
    (writeShadow i s).upd = s.upd ∧
    (writeShadow i s).nor = s.nor ∧
    (writeShadow i s).svc = s.svc ∧
    (writeShadow i s).smb = s.smb ∧
    (writeShadow i s).diag = s.diag ∧
    (writeShadow i s).aper = s.aper ∧
    (writeShadow i s).evt = s.evt ∧
    (writeShadow i s).stats = s.stats ∧
    (writeShadow i s).hbmMem = s.hbmMem ∧
    (writeShadow i s).free = s.free :=
  have h := only_writeShadow (fr := [.out, .hostMem]) i (by decide) (by decide) (Only.refl _ s)
  ⟨h.1, h.2 .pm (by decide), h.2 .time (by decide), h.2 .win (by decide), h.2 .mb (by decide), h.2 .cfg (by decide), h.2 .led (by decide), h.2 .lay (by decide), h.2 .rnd (by decide), h.2 .store (by decide), h.2 .seq (by decide), h.2 .link (by decide), h.2 .trk (by decide), h.2 .scan (by decide), h.2 .ilk (by decide), h.2 .dma (by decide), h.2 .fab (by decide), h.2 .hbm (by decide), h.2 .cal (by decide), h.2 .keep (by decide), h.2 .upd (by decide), h.2 .nor (by decide), h.2 .svc (by decide), h.2 .smb (by decide), h.2 .diag (by decide), h.2 .aper (by decide), h.2 .evt (by decide), h.2 .stats (by decide), h.2 .hbmMem (by decide), h.2 .free (by decide)⟩

@[simp] theorem coalesce_parts (i : Fin 64) (s : State) :
    (coalesce i s).pending = s.pending ∧
    (coalesce i s).pm = s.pm ∧
    (coalesce i s).time = s.time ∧
    (coalesce i s).mb = s.mb ∧
    (coalesce i s).cfg = s.cfg ∧
    (coalesce i s).led = s.led ∧
    (coalesce i s).lay = s.lay ∧
    (coalesce i s).rnd = s.rnd ∧
    (coalesce i s).store = s.store ∧
    (coalesce i s).seq = s.seq ∧
    (coalesce i s).link = s.link ∧
    (coalesce i s).trk = s.trk ∧
    (coalesce i s).scan = s.scan ∧
    (coalesce i s).ilk = s.ilk ∧
    (coalesce i s).dma = s.dma ∧
    (coalesce i s).fab = s.fab ∧
    (coalesce i s).hbm = s.hbm ∧
    (coalesce i s).cal = s.cal ∧
    (coalesce i s).keep = s.keep ∧
    (coalesce i s).upd = s.upd ∧
    (coalesce i s).nor = s.nor ∧
    (coalesce i s).svc = s.svc ∧
    (coalesce i s).smb = s.smb ∧
    (coalesce i s).diag = s.diag ∧
    (coalesce i s).aper = s.aper ∧
    (coalesce i s).evt = s.evt ∧
    (coalesce i s).hbmMem = s.hbmMem ∧
    (coalesce i s).hostMem = s.hostMem ∧
    (coalesce i s).free = s.free :=
  have h := only_coalesce (fr := [.out, .win, .stats]) i (by decide) (by decide) (by decide) (Only.refl _ s)
  ⟨h.1, h.2 .pm (by decide), h.2 .time (by decide), h.2 .mb (by decide), h.2 .cfg (by decide), h.2 .led (by decide), h.2 .lay (by decide), h.2 .rnd (by decide), h.2 .store (by decide), h.2 .seq (by decide), h.2 .link (by decide), h.2 .trk (by decide), h.2 .scan (by decide), h.2 .ilk (by decide), h.2 .dma (by decide), h.2 .fab (by decide), h.2 .hbm (by decide), h.2 .cal (by decide), h.2 .keep (by decide), h.2 .upd (by decide), h.2 .nor (by decide), h.2 .svc (by decide), h.2 .smb (by decide), h.2 .diag (by decide), h.2 .aper (by decide), h.2 .evt (by decide), h.2 .hbmMem (by decide), h.2 .hostMem (by decide), h.2 .free (by decide)⟩

@[simp] theorem advance_parts (i : Fin 64) (s : State) :
    (advance i s).pending = s.pending ∧
    (advance i s).pm = s.pm ∧
    (advance i s).time = s.time ∧
    (advance i s).mb = s.mb ∧
    (advance i s).cfg = s.cfg ∧
    (advance i s).led = s.led ∧
    (advance i s).lay = s.lay ∧
    (advance i s).rnd = s.rnd ∧
    (advance i s).store = s.store ∧
    (advance i s).seq = s.seq ∧
    (advance i s).link = s.link ∧
    (advance i s).trk = s.trk ∧
    (advance i s).scan = s.scan ∧
    (advance i s).ilk = s.ilk ∧
    (advance i s).dma = s.dma ∧
    (advance i s).fab = s.fab ∧
    (advance i s).hbm = s.hbm ∧
    (advance i s).cal = s.cal ∧
    (advance i s).keep = s.keep ∧
    (advance i s).upd = s.upd ∧
    (advance i s).nor = s.nor ∧
    (advance i s).svc = s.svc ∧
    (advance i s).smb = s.smb ∧
    (advance i s).diag = s.diag ∧
    (advance i s).aper = s.aper ∧
    (advance i s).evt = s.evt ∧
    (advance i s).hbmMem = s.hbmMem ∧
    (advance i s).free = s.free :=
  have h := only_advance (fr := [.out, .win, .stats, .hostMem]) i (by decide) (by decide) (by decide) (by decide) (Only.refl _ s)
  ⟨h.1, h.2 .pm (by decide), h.2 .time (by decide), h.2 .mb (by decide), h.2 .cfg (by decide), h.2 .led (by decide), h.2 .lay (by decide), h.2 .rnd (by decide), h.2 .store (by decide), h.2 .seq (by decide), h.2 .link (by decide), h.2 .trk (by decide), h.2 .scan (by decide), h.2 .ilk (by decide), h.2 .dma (by decide), h.2 .fab (by decide), h.2 .hbm (by decide), h.2 .cal (by decide), h.2 .keep (by decide), h.2 .upd (by decide), h.2 .nor (by decide), h.2 .svc (by decide), h.2 .smb (by decide), h.2 .diag (by decide), h.2 .aper (by decide), h.2 .evt (by decide), h.2 .hbmMem (by decide), h.2 .free (by decide)⟩

@[simp] theorem pushEntry_parts (i : Fin 64) (b : List Byte) (s : State) :
    (pushEntry i b s).pending = s.pending ∧
    (pushEntry i b s).pm = s.pm ∧
    (pushEntry i b s).time = s.time ∧
    (pushEntry i b s).mb = s.mb ∧
    (pushEntry i b s).cfg = s.cfg ∧
    (pushEntry i b s).led = s.led ∧
    (pushEntry i b s).lay = s.lay ∧
    (pushEntry i b s).rnd = s.rnd ∧
    (pushEntry i b s).store = s.store ∧
    (pushEntry i b s).seq = s.seq ∧
    (pushEntry i b s).link = s.link ∧
    (pushEntry i b s).trk = s.trk ∧
    (pushEntry i b s).scan = s.scan ∧
    (pushEntry i b s).ilk = s.ilk ∧
    (pushEntry i b s).dma = s.dma ∧
    (pushEntry i b s).fab = s.fab ∧
    (pushEntry i b s).hbm = s.hbm ∧
    (pushEntry i b s).cal = s.cal ∧
    (pushEntry i b s).keep = s.keep ∧
    (pushEntry i b s).upd = s.upd ∧
    (pushEntry i b s).nor = s.nor ∧
    (pushEntry i b s).svc = s.svc ∧
    (pushEntry i b s).smb = s.smb ∧
    (pushEntry i b s).diag = s.diag ∧
    (pushEntry i b s).aper = s.aper ∧
    (pushEntry i b s).evt = s.evt ∧
    (pushEntry i b s).hbmMem = s.hbmMem ∧
    (pushEntry i b s).free = s.free :=
  have h := only_pushEntry (fr := [.out, .win, .stats, .hostMem]) i b (by decide) (by decide) (by decide) (by decide) (Only.refl _ s)
  ⟨h.1, h.2 .pm (by decide), h.2 .time (by decide), h.2 .mb (by decide), h.2 .cfg (by decide), h.2 .led (by decide), h.2 .lay (by decide), h.2 .rnd (by decide), h.2 .store (by decide), h.2 .seq (by decide), h.2 .link (by decide), h.2 .trk (by decide), h.2 .scan (by decide), h.2 .ilk (by decide), h.2 .dma (by decide), h.2 .fab (by decide), h.2 .hbm (by decide), h.2 .cal (by decide), h.2 .keep (by decide), h.2 .upd (by decide), h.2 .nor (by decide), h.2 .svc (by decide), h.2 .smb (by decide), h.2 .diag (by decide), h.2 .aper (by decide), h.2 .evt (by decide), h.2 .hbmMem (by decide), h.2 .free (by decide)⟩

@[simp] theorem eventToRing_parts (i : Fin 64) (r : EventRec) (s : State) :
    (eventToRing i r s).pending = s.pending ∧
    (eventToRing i r s).pm = s.pm ∧
    (eventToRing i r s).time = s.time ∧
    (eventToRing i r s).mb = s.mb ∧
    (eventToRing i r s).cfg = s.cfg ∧
    (eventToRing i r s).led = s.led ∧
    (eventToRing i r s).lay = s.lay ∧
    (eventToRing i r s).rnd = s.rnd ∧
    (eventToRing i r s).store = s.store ∧
    (eventToRing i r s).seq = s.seq ∧
    (eventToRing i r s).link = s.link ∧
    (eventToRing i r s).trk = s.trk ∧
    (eventToRing i r s).scan = s.scan ∧
    (eventToRing i r s).ilk = s.ilk ∧
    (eventToRing i r s).dma = s.dma ∧
    (eventToRing i r s).fab = s.fab ∧
    (eventToRing i r s).hbm = s.hbm ∧
    (eventToRing i r s).cal = s.cal ∧
    (eventToRing i r s).keep = s.keep ∧
    (eventToRing i r s).upd = s.upd ∧
    (eventToRing i r s).nor = s.nor ∧
    (eventToRing i r s).svc = s.svc ∧
    (eventToRing i r s).smb = s.smb ∧
    (eventToRing i r s).diag = s.diag ∧
    (eventToRing i r s).aper = s.aper ∧
    (eventToRing i r s).hbmMem = s.hbmMem ∧
    (eventToRing i r s).free = s.free :=
  have h := only_eventToRing (fr := [.out, .win, .evt, .stats, .hostMem]) i r (by decide) (by decide) (by decide) (by decide) (by decide) (Only.refl _ s)
  ⟨h.1, h.2 .pm (by decide), h.2 .time (by decide), h.2 .mb (by decide), h.2 .cfg (by decide), h.2 .led (by decide), h.2 .lay (by decide), h.2 .rnd (by decide), h.2 .store (by decide), h.2 .seq (by decide), h.2 .link (by decide), h.2 .trk (by decide), h.2 .scan (by decide), h.2 .ilk (by decide), h.2 .dma (by decide), h.2 .fab (by decide), h.2 .hbm (by decide), h.2 .cal (by decide), h.2 .keep (by decide), h.2 .upd (by decide), h.2 .nor (by decide), h.2 .svc (by decide), h.2 .smb (by decide), h.2 .diag (by decide), h.2 .aper (by decide), h.2 .hbmMem (by decide), h.2 .free (by decide)⟩

@[simp] theorem eventToRings_parts (r : EventRec) (a1 : List (Fin 64)) (a2 : State) :
    (eventToRings r a1 a2).pending = a2.pending ∧
    (eventToRings r a1 a2).pm = a2.pm ∧
    (eventToRings r a1 a2).time = a2.time ∧
    (eventToRings r a1 a2).mb = a2.mb ∧
    (eventToRings r a1 a2).cfg = a2.cfg ∧
    (eventToRings r a1 a2).led = a2.led ∧
    (eventToRings r a1 a2).lay = a2.lay ∧
    (eventToRings r a1 a2).rnd = a2.rnd ∧
    (eventToRings r a1 a2).store = a2.store ∧
    (eventToRings r a1 a2).seq = a2.seq ∧
    (eventToRings r a1 a2).link = a2.link ∧
    (eventToRings r a1 a2).trk = a2.trk ∧
    (eventToRings r a1 a2).scan = a2.scan ∧
    (eventToRings r a1 a2).ilk = a2.ilk ∧
    (eventToRings r a1 a2).dma = a2.dma ∧
    (eventToRings r a1 a2).fab = a2.fab ∧
    (eventToRings r a1 a2).hbm = a2.hbm ∧
    (eventToRings r a1 a2).cal = a2.cal ∧
    (eventToRings r a1 a2).keep = a2.keep ∧
    (eventToRings r a1 a2).upd = a2.upd ∧
    (eventToRings r a1 a2).nor = a2.nor ∧
    (eventToRings r a1 a2).svc = a2.svc ∧
    (eventToRings r a1 a2).smb = a2.smb ∧
    (eventToRings r a1 a2).diag = a2.diag ∧
    (eventToRings r a1 a2).aper = a2.aper ∧
    (eventToRings r a1 a2).hbmMem = a2.hbmMem ∧
    (eventToRings r a1 a2).free = a2.free :=
  have h := only_eventToRings (fr := [.out, .win, .evt, .stats, .hostMem]) r a1 (by decide) (by decide) (by decide) (by decide) (by decide) (Only.refl _ a2)
  ⟨h.1, h.2 .pm (by decide), h.2 .time (by decide), h.2 .mb (by decide), h.2 .cfg (by decide), h.2 .led (by decide), h.2 .lay (by decide), h.2 .rnd (by decide), h.2 .store (by decide), h.2 .seq (by decide), h.2 .link (by decide), h.2 .trk (by decide), h.2 .scan (by decide), h.2 .ilk (by decide), h.2 .dma (by decide), h.2 .fab (by decide), h.2 .hbm (by decide), h.2 .cal (by decide), h.2 .keep (by decide), h.2 .upd (by decide), h.2 .nor (by decide), h.2 .svc (by decide), h.2 .smb (by decide), h.2 .diag (by decide), h.2 .aper (by decide), h.2 .hbmMem (by decide), h.2 .free (by decide)⟩

@[simp] theorem recordEvent_parts (code : Nat) (d : Domain) (det : W128) (s : State) :
    (recordEvent code d det s).pending = s.pending ∧
    (recordEvent code d det s).pm = s.pm ∧
    (recordEvent code d det s).time = s.time ∧
    (recordEvent code d det s).mb = s.mb ∧
    (recordEvent code d det s).cfg = s.cfg ∧
    (recordEvent code d det s).led = s.led ∧
    (recordEvent code d det s).lay = s.lay ∧
    (recordEvent code d det s).rnd = s.rnd ∧
    (recordEvent code d det s).store = s.store ∧
    (recordEvent code d det s).seq = s.seq ∧
    (recordEvent code d det s).link = s.link ∧
    (recordEvent code d det s).trk = s.trk ∧
    (recordEvent code d det s).scan = s.scan ∧
    (recordEvent code d det s).ilk = s.ilk ∧
    (recordEvent code d det s).dma = s.dma ∧
    (recordEvent code d det s).fab = s.fab ∧
    (recordEvent code d det s).hbm = s.hbm ∧
    (recordEvent code d det s).cal = s.cal ∧
    (recordEvent code d det s).keep = s.keep ∧
    (recordEvent code d det s).upd = s.upd ∧
    (recordEvent code d det s).svc = s.svc ∧
    (recordEvent code d det s).smb = s.smb ∧
    (recordEvent code d det s).diag = s.diag ∧
    (recordEvent code d det s).aper = s.aper ∧
    (recordEvent code d det s).hbmMem = s.hbmMem ∧
    (recordEvent code d det s).free = s.free :=
  have h := only_recordEvent (fr := [.out, .win, .nor, .evt, .stats, .hostMem]) code d det (by decide) (by decide) (by decide) (by decide) (by decide) (by decide) (Only.refl _ s)
  ⟨h.1, h.2 .pm (by decide), h.2 .time (by decide), h.2 .mb (by decide), h.2 .cfg (by decide), h.2 .led (by decide), h.2 .lay (by decide), h.2 .rnd (by decide), h.2 .store (by decide), h.2 .seq (by decide), h.2 .link (by decide), h.2 .trk (by decide), h.2 .scan (by decide), h.2 .ilk (by decide), h.2 .dma (by decide), h.2 .fab (by decide), h.2 .hbm (by decide), h.2 .cal (by decide), h.2 .keep (by decide), h.2 .upd (by decide), h.2 .svc (by decide), h.2 .smb (by decide), h.2 .diag (by decide), h.2 .aper (by decide), h.2 .hbmMem (by decide), h.2 .free (by decide)⟩

@[simp] theorem raise_parts (code : Nat) (d : Domain) (det : W128) (s : State) :
    (raise code d det s).pending = s.pending ∧
    (raise code d det s).pm = s.pm ∧
    (raise code d det s).time = s.time ∧
    (raise code d det s).mb = s.mb ∧
    (raise code d det s).cfg = s.cfg ∧
    (raise code d det s).led = s.led ∧
    (raise code d det s).lay = s.lay ∧
    (raise code d det s).rnd = s.rnd ∧
    (raise code d det s).store = s.store ∧
    (raise code d det s).seq = s.seq ∧
    (raise code d det s).link = s.link ∧
    (raise code d det s).trk = s.trk ∧
    (raise code d det s).scan = s.scan ∧
    (raise code d det s).ilk = s.ilk ∧
    (raise code d det s).dma = s.dma ∧
    (raise code d det s).fab = s.fab ∧
    (raise code d det s).hbm = s.hbm ∧
    (raise code d det s).cal = s.cal ∧
    (raise code d det s).keep = s.keep ∧
    (raise code d det s).upd = s.upd ∧
    (raise code d det s).svc = s.svc ∧
    (raise code d det s).smb = s.smb ∧
    (raise code d det s).diag = s.diag ∧
    (raise code d det s).aper = s.aper ∧
    (raise code d det s).hbmMem = s.hbmMem ∧
    (raise code d det s).free = s.free :=
  have h := only_raise (fr := [.out, .win, .nor, .evt, .stats, .hostMem]) code d det (by decide) (by decide) (by decide) (by decide) (by decide) (by decide) (Only.refl _ s)
  ⟨h.1, h.2 .pm (by decide), h.2 .time (by decide), h.2 .mb (by decide), h.2 .cfg (by decide), h.2 .led (by decide), h.2 .lay (by decide), h.2 .rnd (by decide), h.2 .store (by decide), h.2 .seq (by decide), h.2 .link (by decide), h.2 .trk (by decide), h.2 .scan (by decide), h.2 .ilk (by decide), h.2 .dma (by decide), h.2 .fab (by decide), h.2 .hbm (by decide), h.2 .cal (by decide), h.2 .keep (by decide), h.2 .upd (by decide), h.2 .svc (by decide), h.2 .smb (by decide), h.2 .diag (by decide), h.2 .aper (by decide), h.2 .hbmMem (by decide), h.2 .free (by decide)⟩

@[simp] theorem raiseLimited_parts (key : Nat) (code : Nat) (d : Domain) (det : W128) (s : State) :
    (raiseLimited key code d det s).pending = s.pending ∧
    (raiseLimited key code d det s).pm = s.pm ∧
    (raiseLimited key code d det s).time = s.time ∧
    (raiseLimited key code d det s).mb = s.mb ∧
    (raiseLimited key code d det s).cfg = s.cfg ∧
    (raiseLimited key code d det s).led = s.led ∧
    (raiseLimited key code d det s).lay = s.lay ∧
    (raiseLimited key code d det s).rnd = s.rnd ∧
    (raiseLimited key code d det s).store = s.store ∧
    (raiseLimited key code d det s).seq = s.seq ∧
    (raiseLimited key code d det s).link = s.link ∧
    (raiseLimited key code d det s).trk = s.trk ∧
    (raiseLimited key code d det s).scan = s.scan ∧
    (raiseLimited key code d det s).ilk = s.ilk ∧
    (raiseLimited key code d det s).dma = s.dma ∧
    (raiseLimited key code d det s).fab = s.fab ∧
    (raiseLimited key code d det s).hbm = s.hbm ∧
    (raiseLimited key code d det s).cal = s.cal ∧
    (raiseLimited key code d det s).keep = s.keep ∧
    (raiseLimited key code d det s).upd = s.upd ∧
    (raiseLimited key code d det s).svc = s.svc ∧
    (raiseLimited key code d det s).smb = s.smb ∧
    (raiseLimited key code d det s).diag = s.diag ∧
    (raiseLimited key code d det s).aper = s.aper ∧
    (raiseLimited key code d det s).hbmMem = s.hbmMem ∧
    (raiseLimited key code d det s).free = s.free :=
  have h := only_raiseLimited (fr := [.out, .win, .nor, .evt, .stats, .hostMem]) key code d det (by decide) (by decide) (by decide) (by decide) (by decide) (by decide) (Only.refl _ s)
  ⟨h.1, h.2 .pm (by decide), h.2 .time (by decide), h.2 .mb (by decide), h.2 .cfg (by decide), h.2 .led (by decide), h.2 .lay (by decide), h.2 .rnd (by decide), h.2 .store (by decide), h.2 .seq (by decide), h.2 .link (by decide), h.2 .trk (by decide), h.2 .scan (by decide), h.2 .ilk (by decide), h.2 .dma (by decide), h.2 .fab (by decide), h.2 .hbm (by decide), h.2 .cal (by decide), h.2 .keep (by decide), h.2 .upd (by decide), h.2 .svc (by decide), h.2 .smb (by decide), h.2 .diag (by decide), h.2 .aper (by decide), h.2 .hbmMem (by decide), h.2 .free (by decide)⟩

@[simp] theorem writeRefused_parts (det : W128) (s : State) :
    (writeRefused det s).pending = s.pending ∧
    (writeRefused det s).pm = s.pm ∧
    (writeRefused det s).time = s.time ∧
    (writeRefused det s).mb = s.mb ∧
    (writeRefused det s).cfg = s.cfg ∧
    (writeRefused det s).led = s.led ∧
    (writeRefused det s).lay = s.lay ∧
    (writeRefused det s).rnd = s.rnd ∧
    (writeRefused det s).store = s.store ∧
    (writeRefused det s).seq = s.seq ∧
    (writeRefused det s).link = s.link ∧
    (writeRefused det s).trk = s.trk ∧
    (writeRefused det s).scan = s.scan ∧
    (writeRefused det s).ilk = s.ilk ∧
    (writeRefused det s).dma = s.dma ∧
    (writeRefused det s).fab = s.fab ∧
    (writeRefused det s).hbm = s.hbm ∧
    (writeRefused det s).cal = s.cal ∧
    (writeRefused det s).keep = s.keep ∧
    (writeRefused det s).upd = s.upd ∧
    (writeRefused det s).svc = s.svc ∧
    (writeRefused det s).smb = s.smb ∧
    (writeRefused det s).diag = s.diag ∧
    (writeRefused det s).aper = s.aper ∧
    (writeRefused det s).hbmMem = s.hbmMem ∧
    (writeRefused det s).free = s.free :=
  have h := only_writeRefused (fr := [.out, .win, .nor, .evt, .stats, .hostMem]) det (by decide) (by decide) (by decide) (by decide) (by decide) (by decide) (Only.refl _ s)
  ⟨h.1, h.2 .pm (by decide), h.2 .time (by decide), h.2 .mb (by decide), h.2 .cfg (by decide), h.2 .led (by decide), h.2 .lay (by decide), h.2 .rnd (by decide), h.2 .store (by decide), h.2 .seq (by decide), h.2 .link (by decide), h.2 .trk (by decide), h.2 .scan (by decide), h.2 .ilk (by decide), h.2 .dma (by decide), h.2 .fab (by decide), h.2 .hbm (by decide), h.2 .cal (by decide), h.2 .keep (by decide), h.2 .upd (by decide), h.2 .svc (by decide), h.2 .smb (by decide), h.2 .diag (by decide), h.2 .aper (by decide), h.2 .hbmMem (by decide), h.2 .free (by decide)⟩

@[simp] theorem complete_parts (src : Src) (c : Completion) (s : State) :
    (complete src c s).pending = s.pending ∧
    (complete src c s).pm = s.pm ∧
    (complete src c s).time = s.time ∧
    (complete src c s).cfg = s.cfg ∧
    (complete src c s).led = s.led ∧
    (complete src c s).lay = s.lay ∧
    (complete src c s).rnd = s.rnd ∧
    (complete src c s).store = s.store ∧
    (complete src c s).seq = s.seq ∧
    (complete src c s).link = s.link ∧
    (complete src c s).trk = s.trk ∧
    (complete src c s).scan = s.scan ∧
    (complete src c s).ilk = s.ilk ∧
    (complete src c s).dma = s.dma ∧
    (complete src c s).fab = s.fab ∧
    (complete src c s).hbm = s.hbm ∧
    (complete src c s).cal = s.cal ∧
    (complete src c s).keep = s.keep ∧
    (complete src c s).upd = s.upd ∧
    (complete src c s).nor = s.nor ∧
    (complete src c s).smb = s.smb ∧
    (complete src c s).diag = s.diag ∧
    (complete src c s).aper = s.aper ∧
    (complete src c s).evt = s.evt ∧
    (complete src c s).hbmMem = s.hbmMem ∧
    (complete src c s).free = s.free :=
  have h := only_complete (fr := [.out, .win, .mb, .svc, .stats, .hostMem]) src c (by decide) (by decide) (by decide) (by decide) (by decide) (by decide) (Only.refl _ s)
  ⟨h.1, h.2 .pm (by decide), h.2 .time (by decide), h.2 .cfg (by decide), h.2 .led (by decide), h.2 .lay (by decide), h.2 .rnd (by decide), h.2 .store (by decide), h.2 .seq (by decide), h.2 .link (by decide), h.2 .trk (by decide), h.2 .scan (by decide), h.2 .ilk (by decide), h.2 .dma (by decide), h.2 .fab (by decide), h.2 .hbm (by decide), h.2 .cal (by decide), h.2 .keep (by decide), h.2 .upd (by decide), h.2 .nor (by decide), h.2 .smb (by decide), h.2 .diag (by decide), h.2 .aper (by decide), h.2 .evt (by decide), h.2 .hbmMem (by decide), h.2 .free (by decide)⟩

@[simp] theorem stopRing_parts (i : Fin 64) (s : State) :
    (stopRing i s).pending = s.pending ∧
    (stopRing i s).pm = s.pm ∧
    (stopRing i s).time = s.time ∧
    (stopRing i s).mb = s.mb ∧
    (stopRing i s).cfg = s.cfg ∧
    (stopRing i s).led = s.led ∧
    (stopRing i s).lay = s.lay ∧
    (stopRing i s).rnd = s.rnd ∧
    (stopRing i s).store = s.store ∧
    (stopRing i s).seq = s.seq ∧
    (stopRing i s).link = s.link ∧
    (stopRing i s).trk = s.trk ∧
    (stopRing i s).scan = s.scan ∧
    (stopRing i s).ilk = s.ilk ∧
    (stopRing i s).dma = s.dma ∧
    (stopRing i s).fab = s.fab ∧
    (stopRing i s).hbm = s.hbm ∧
    (stopRing i s).cal = s.cal ∧
    (stopRing i s).keep = s.keep ∧
    (stopRing i s).upd = s.upd ∧
    (stopRing i s).nor = s.nor ∧
    (stopRing i s).svc = s.svc ∧
    (stopRing i s).smb = s.smb ∧
    (stopRing i s).diag = s.diag ∧
    (stopRing i s).aper = s.aper ∧
    (stopRing i s).evt = s.evt ∧
    (stopRing i s).stats = s.stats ∧
    (stopRing i s).hbmMem = s.hbmMem ∧
    (stopRing i s).free = s.free :=
  have h := only_stopRing (fr := [.out, .win, .hostMem]) i (by decide) (by decide) (by decide) (Only.refl _ s)
  ⟨h.1, h.2 .pm (by decide), h.2 .time (by decide), h.2 .mb (by decide), h.2 .cfg (by decide), h.2 .led (by decide), h.2 .lay (by decide), h.2 .rnd (by decide), h.2 .store (by decide), h.2 .seq (by decide), h.2 .link (by decide), h.2 .trk (by decide), h.2 .scan (by decide), h.2 .ilk (by decide), h.2 .dma (by decide), h.2 .fab (by decide), h.2 .hbm (by decide), h.2 .cal (by decide), h.2 .keep (by decide), h.2 .upd (by decide), h.2 .nor (by decide), h.2 .svc (by decide), h.2 .smb (by decide), h.2 .diag (by decide), h.2 .aper (by decide), h.2 .evt (by decide), h.2 .stats (by decide), h.2 .hbmMem (by decide), h.2 .free (by decide)⟩

@[simp] theorem finish_parts (w : Waiting) (status : Nat) (reason : Nat) (results : List W128) (s : State) :
    (finish w status reason results s).pending = s.pending ∧
    (finish w status reason results s).pm = s.pm ∧
    (finish w status reason results s).time = s.time ∧
    (finish w status reason results s).cfg = s.cfg ∧
    (finish w status reason results s).led = s.led ∧
    (finish w status reason results s).lay = s.lay ∧
    (finish w status reason results s).rnd = s.rnd ∧
    (finish w status reason results s).store = s.store ∧
    (finish w status reason results s).seq = s.seq ∧
    (finish w status reason results s).link = s.link ∧
    (finish w status reason results s).trk = s.trk ∧
    (finish w status reason results s).scan = s.scan ∧
    (finish w status reason results s).ilk = s.ilk ∧
    (finish w status reason results s).dma = s.dma ∧
    (finish w status reason results s).fab = s.fab ∧
    (finish w status reason results s).hbm = s.hbm ∧
    (finish w status reason results s).cal = s.cal ∧
    (finish w status reason results s).keep = s.keep ∧
    (finish w status reason results s).upd = s.upd ∧
    (finish w status reason results s).nor = s.nor ∧
    (finish w status reason results s).smb = s.smb ∧
    (finish w status reason results s).diag = s.diag ∧
    (finish w status reason results s).aper = s.aper ∧
    (finish w status reason results s).evt = s.evt ∧
    (finish w status reason results s).hbmMem = s.hbmMem ∧
    (finish w status reason results s).free = s.free :=
  have h := only_finish (fr := [.out, .win, .mb, .svc, .stats, .hostMem]) w status reason results (by decide) (by decide) (by decide) (by decide) (by decide) (by decide) (Only.refl _ s)
  ⟨h.1, h.2 .pm (by decide), h.2 .time (by decide), h.2 .cfg (by decide), h.2 .led (by decide), h.2 .lay (by decide), h.2 .rnd (by decide), h.2 .store (by decide), h.2 .seq (by decide), h.2 .link (by decide), h.2 .trk (by decide), h.2 .scan (by decide), h.2 .ilk (by decide), h.2 .dma (by decide), h.2 .fab (by decide), h.2 .hbm (by decide), h.2 .cal (by decide), h.2 .keep (by decide), h.2 .upd (by decide), h.2 .nor (by decide), h.2 .smb (by decide), h.2 .diag (by decide), h.2 .aper (by decide), h.2 .evt (by decide), h.2 .hbmMem (by decide), h.2 .free (by decide)⟩

@[simp] theorem finishAll_parts (p : Waiting → Option (Nat × Nat × List W128)) (a1 : List Waiting) (a2 : State) :
    (finishAll p a1 a2).pending = a2.pending ∧
    (finishAll p a1 a2).pm = a2.pm ∧
    (finishAll p a1 a2).time = a2.time ∧
    (finishAll p a1 a2).cfg = a2.cfg ∧
    (finishAll p a1 a2).led = a2.led ∧
    (finishAll p a1 a2).lay = a2.lay ∧
    (finishAll p a1 a2).rnd = a2.rnd ∧
    (finishAll p a1 a2).store = a2.store ∧
    (finishAll p a1 a2).seq = a2.seq ∧
    (finishAll p a1 a2).link = a2.link ∧
    (finishAll p a1 a2).trk = a2.trk ∧
    (finishAll p a1 a2).scan = a2.scan ∧
    (finishAll p a1 a2).ilk = a2.ilk ∧
    (finishAll p a1 a2).dma = a2.dma ∧
    (finishAll p a1 a2).fab = a2.fab ∧
    (finishAll p a1 a2).hbm = a2.hbm ∧
    (finishAll p a1 a2).cal = a2.cal ∧
    (finishAll p a1 a2).keep = a2.keep ∧
    (finishAll p a1 a2).upd = a2.upd ∧
    (finishAll p a1 a2).nor = a2.nor ∧
    (finishAll p a1 a2).smb = a2.smb ∧
    (finishAll p a1 a2).diag = a2.diag ∧
    (finishAll p a1 a2).aper = a2.aper ∧
    (finishAll p a1 a2).evt = a2.evt ∧
    (finishAll p a1 a2).hbmMem = a2.hbmMem ∧
    (finishAll p a1 a2).free = a2.free :=
  have h := only_finishAll (fr := [.out, .win, .mb, .svc, .stats, .hostMem]) p a1 (by decide) (by decide) (by decide) (by decide) (by decide) (by decide) (Only.refl _ a2)
  ⟨h.1, h.2 .pm (by decide), h.2 .time (by decide), h.2 .cfg (by decide), h.2 .led (by decide), h.2 .lay (by decide), h.2 .rnd (by decide), h.2 .store (by decide), h.2 .seq (by decide), h.2 .link (by decide), h.2 .trk (by decide), h.2 .scan (by decide), h.2 .ilk (by decide), h.2 .dma (by decide), h.2 .fab (by decide), h.2 .hbm (by decide), h.2 .cal (by decide), h.2 .keep (by decide), h.2 .upd (by decide), h.2 .nor (by decide), h.2 .smb (by decide), h.2 .diag (by decide), h.2 .aper (by decide), h.2 .evt (by decide), h.2 .hbmMem (by decide), h.2 .free (by decide)⟩

@[simp] theorem settle_parts (p : Waiting → Option (Nat × Nat × List W128)) (s : State) :
    (settle p s).pending = s.pending ∧
    (settle p s).pm = s.pm ∧
    (settle p s).time = s.time ∧
    (settle p s).cfg = s.cfg ∧
    (settle p s).led = s.led ∧
    (settle p s).lay = s.lay ∧
    (settle p s).rnd = s.rnd ∧
    (settle p s).store = s.store ∧
    (settle p s).seq = s.seq ∧
    (settle p s).link = s.link ∧
    (settle p s).trk = s.trk ∧
    (settle p s).scan = s.scan ∧
    (settle p s).ilk = s.ilk ∧
    (settle p s).dma = s.dma ∧
    (settle p s).fab = s.fab ∧
    (settle p s).hbm = s.hbm ∧
    (settle p s).cal = s.cal ∧
    (settle p s).keep = s.keep ∧
    (settle p s).upd = s.upd ∧
    (settle p s).nor = s.nor ∧
    (settle p s).smb = s.smb ∧
    (settle p s).diag = s.diag ∧
    (settle p s).aper = s.aper ∧
    (settle p s).evt = s.evt ∧
    (settle p s).hbmMem = s.hbmMem ∧
    (settle p s).free = s.free :=
  have h := only_settle (fr := [.out, .win, .mb, .svc, .stats, .hostMem]) p (by decide) (by decide) (by decide) (by decide) (by decide) (by decide) (Only.refl _ s)
  ⟨h.1, h.2 .pm (by decide), h.2 .time (by decide), h.2 .cfg (by decide), h.2 .led (by decide), h.2 .lay (by decide), h.2 .rnd (by decide), h.2 .store (by decide), h.2 .seq (by decide), h.2 .link (by decide), h.2 .trk (by decide), h.2 .scan (by decide), h.2 .ilk (by decide), h.2 .dma (by decide), h.2 .fab (by decide), h.2 .hbm (by decide), h.2 .cal (by decide), h.2 .keep (by decide), h.2 .upd (by decide), h.2 .nor (by decide), h.2 .smb (by decide), h.2 .diag (by decide), h.2 .aper (by decide), h.2 .evt (by decide), h.2 .hbmMem (by decide), h.2 .free (by decide)⟩

@[simp] theorem consume_parts (src : Src) (s : State) :
    (consume src s).pending = s.pending ∧
    (consume src s).pm = s.pm ∧
    (consume src s).time = s.time ∧
    (consume src s).mb = s.mb ∧
    (consume src s).cfg = s.cfg ∧
    (consume src s).led = s.led ∧
    (consume src s).lay = s.lay ∧
    (consume src s).rnd = s.rnd ∧
    (consume src s).store = s.store ∧
    (consume src s).seq = s.seq ∧
    (consume src s).link = s.link ∧
    (consume src s).trk = s.trk ∧
    (consume src s).scan = s.scan ∧
    (consume src s).ilk = s.ilk ∧
    (consume src s).dma = s.dma ∧
    (consume src s).fab = s.fab ∧
    (consume src s).hbm = s.hbm ∧
    (consume src s).cal = s.cal ∧
    (consume src s).keep = s.keep ∧
    (consume src s).upd = s.upd ∧
    (consume src s).nor = s.nor ∧
    (consume src s).svc = s.svc ∧
    (consume src s).smb = s.smb ∧
    (consume src s).diag = s.diag ∧
    (consume src s).aper = s.aper ∧
    (consume src s).evt = s.evt ∧
    (consume src s).hbmMem = s.hbmMem ∧
    (consume src s).free = s.free :=
  have h := only_consume (fr := [.out, .win, .stats, .hostMem]) src (by decide) (by decide) (by decide) (by decide) (Only.refl _ s)
  ⟨h.1, h.2 .pm (by decide), h.2 .time (by decide), h.2 .mb (by decide), h.2 .cfg (by decide), h.2 .led (by decide), h.2 .lay (by decide), h.2 .rnd (by decide), h.2 .store (by decide), h.2 .seq (by decide), h.2 .link (by decide), h.2 .trk (by decide), h.2 .scan (by decide), h.2 .ilk (by decide), h.2 .dma (by decide), h.2 .fab (by decide), h.2 .hbm (by decide), h.2 .cal (by decide), h.2 .keep (by decide), h.2 .upd (by decide), h.2 .nor (by decide), h.2 .svc (by decide), h.2 .smb (by decide), h.2 .diag (by decide), h.2 .aper (by decide), h.2 .evt (by decide), h.2 .hbmMem (by decide), h.2 .free (by decide)⟩

@[simp] theorem wait_parts (w : Waiting) (on : WaitOn) (s : State) :
    (wait w on s).pending = s.pending ∧
    (wait w on s).out = s.out ∧
    (wait w on s).pm = s.pm ∧
    (wait w on s).time = s.time ∧
    (wait w on s).win = s.win ∧
    (wait w on s).cfg = s.cfg ∧
    (wait w on s).led = s.led ∧
    (wait w on s).lay = s.lay ∧
    (wait w on s).rnd = s.rnd ∧
    (wait w on s).store = s.store ∧
    (wait w on s).seq = s.seq ∧
    (wait w on s).link = s.link ∧
    (wait w on s).trk = s.trk ∧
    (wait w on s).scan = s.scan ∧
    (wait w on s).ilk = s.ilk ∧
    (wait w on s).dma = s.dma ∧
    (wait w on s).fab = s.fab ∧
    (wait w on s).hbm = s.hbm ∧
    (wait w on s).cal = s.cal ∧
    (wait w on s).keep = s.keep ∧
    (wait w on s).upd = s.upd ∧
    (wait w on s).nor = s.nor ∧
    (wait w on s).svc = s.svc ∧
    (wait w on s).smb = s.smb ∧
    (wait w on s).diag = s.diag ∧
    (wait w on s).aper = s.aper ∧
    (wait w on s).evt = s.evt ∧
    (wait w on s).stats = s.stats ∧
    (wait w on s).hbmMem = s.hbmMem ∧
    (wait w on s).hostMem = s.hostMem ∧
    (wait w on s).free = s.free :=
  have h := only_wait (fr := [.mb]) w on (by decide) (Only.refl _ s)
  ⟨h.1, h.2 .out (by decide), h.2 .pm (by decide), h.2 .time (by decide), h.2 .win (by decide), h.2 .cfg (by decide), h.2 .led (by decide), h.2 .lay (by decide), h.2 .rnd (by decide), h.2 .store (by decide), h.2 .seq (by decide), h.2 .link (by decide), h.2 .trk (by decide), h.2 .scan (by decide), h.2 .ilk (by decide), h.2 .dma (by decide), h.2 .fab (by decide), h.2 .hbm (by decide), h.2 .cal (by decide), h.2 .keep (by decide), h.2 .upd (by decide), h.2 .nor (by decide), h.2 .svc (by decide), h.2 .smb (by decide), h.2 .diag (by decide), h.2 .aper (by decide), h.2 .evt (by decide), h.2 .stats (by decide), h.2 .hbmMem (by decide), h.2 .hostMem (by decide), h.2 .free (by decide)⟩

@[simp] theorem setSmb_parts (m : BitVec 4) (s : State) :
    (setSmb m s).pending = s.pending ∧
    (setSmb m s).out = s.out ∧
    (setSmb m s).pm = s.pm ∧
    (setSmb m s).time = s.time ∧
    (setSmb m s).win = s.win ∧
    (setSmb m s).mb = s.mb ∧
    (setSmb m s).cfg = s.cfg ∧
    (setSmb m s).led = s.led ∧
    (setSmb m s).lay = s.lay ∧
    (setSmb m s).rnd = s.rnd ∧
    (setSmb m s).store = s.store ∧
    (setSmb m s).seq = s.seq ∧
    (setSmb m s).link = s.link ∧
    (setSmb m s).trk = s.trk ∧
    (setSmb m s).scan = s.scan ∧
    (setSmb m s).ilk = s.ilk ∧
    (setSmb m s).dma = s.dma ∧
    (setSmb m s).fab = s.fab ∧
    (setSmb m s).hbm = s.hbm ∧
    (setSmb m s).cal = s.cal ∧
    (setSmb m s).keep = s.keep ∧
    (setSmb m s).upd = s.upd ∧
    (setSmb m s).nor = s.nor ∧
    (setSmb m s).svc = s.svc ∧
    (setSmb m s).diag = s.diag ∧
    (setSmb m s).aper = s.aper ∧
    (setSmb m s).evt = s.evt ∧
    (setSmb m s).stats = s.stats ∧
    (setSmb m s).hbmMem = s.hbmMem ∧
    (setSmb m s).hostMem = s.hostMem ∧
    (setSmb m s).free = s.free :=
  have h := only_setSmb (fr := [.smb]) m (by decide) (Only.refl _ s)
  ⟨h.1, h.2 .out (by decide), h.2 .pm (by decide), h.2 .time (by decide), h.2 .win (by decide), h.2 .mb (by decide), h.2 .cfg (by decide), h.2 .led (by decide), h.2 .lay (by decide), h.2 .rnd (by decide), h.2 .store (by decide), h.2 .seq (by decide), h.2 .link (by decide), h.2 .trk (by decide), h.2 .scan (by decide), h.2 .ilk (by decide), h.2 .dma (by decide), h.2 .fab (by decide), h.2 .hbm (by decide), h.2 .cal (by decide), h.2 .keep (by decide), h.2 .upd (by decide), h.2 .nor (by decide), h.2 .svc (by decide), h.2 .diag (by decide), h.2 .aper (by decide), h.2 .evt (by decide), h.2 .stats (by decide), h.2 .hbmMem (by decide), h.2 .hostMem (by decide), h.2 .free (by decide)⟩

@[simp] theorem refuseInMode_parts (c : Cmd) (r : Nat × Nat) (s : State) :
    (refuseInMode c r s).pending = s.pending ∧
    (refuseInMode c r s).pm = s.pm ∧
    (refuseInMode c r s).time = s.time ∧
    (refuseInMode c r s).mb = s.mb ∧
    (refuseInMode c r s).cfg = s.cfg ∧
    (refuseInMode c r s).led = s.led ∧
    (refuseInMode c r s).lay = s.lay ∧
    (refuseInMode c r s).rnd = s.rnd ∧
    (refuseInMode c r s).store = s.store ∧
    (refuseInMode c r s).seq = s.seq ∧
    (refuseInMode c r s).link = s.link ∧
    (refuseInMode c r s).trk = s.trk ∧
    (refuseInMode c r s).scan = s.scan ∧
    (refuseInMode c r s).ilk = s.ilk ∧
    (refuseInMode c r s).dma = s.dma ∧
    (refuseInMode c r s).fab = s.fab ∧
    (refuseInMode c r s).hbm = s.hbm ∧
    (refuseInMode c r s).cal = s.cal ∧
    (refuseInMode c r s).keep = s.keep ∧
    (refuseInMode c r s).upd = s.upd ∧
    (refuseInMode c r s).svc = s.svc ∧
    (refuseInMode c r s).smb = s.smb ∧
    (refuseInMode c r s).diag = s.diag ∧
    (refuseInMode c r s).aper = s.aper ∧
    (refuseInMode c r s).hbmMem = s.hbmMem ∧
    (refuseInMode c r s).free = s.free :=
  have h := only_refuseInMode (fr := [.out, .win, .nor, .evt, .stats, .hostMem]) c r (by decide) (by decide) (by decide) (by decide) (by decide) (by decide) (Only.refl _ s)
  ⟨h.1, h.2 .pm (by decide), h.2 .time (by decide), h.2 .mb (by decide), h.2 .cfg (by decide), h.2 .led (by decide), h.2 .lay (by decide), h.2 .rnd (by decide), h.2 .store (by decide), h.2 .seq (by decide), h.2 .link (by decide), h.2 .trk (by decide), h.2 .scan (by decide), h.2 .ilk (by decide), h.2 .dma (by decide), h.2 .fab (by decide), h.2 .hbm (by decide), h.2 .cal (by decide), h.2 .keep (by decide), h.2 .upd (by decide), h.2 .svc (by decide), h.2 .smb (by decide), h.2 .diag (by decide), h.2 .aper (by decide), h.2 .hbmMem (by decide), h.2 .free (by decide)⟩

end Sys2Proof.Machine
end

