-- ==== Sys2Proof/Laws/Ops.lean ====
section
/-! SUPPORT. What the shared operations do: taking up an entry, completing it, waiting, raising an event. -/

namespace Sys2Proof.Machine

/-! ### Outputs and events seen from an earlier and at a later state -/

theorem Gives.later {o : Output} {s t u : State} (h : Gives o s t) (k : Kept t u) : Gives o s u := by
  obtain ⟨l, h1, h2⟩ := h
  obtain ⟨m, h3⟩ := k.out
  exact ⟨m ++ l, by rw [← h3, h1, List.append_assoc], List.mem_append_right _ h2⟩

theorem Gives.sooner {o : Output} {s t u : State} (h : Gives o t u) (k : Kept s t) : Gives o s u := by
  obtain ⟨l, h1, h2⟩ := h
  obtain ⟨m, h3⟩ := k.out
  exact ⟨l ++ m, by rw [h1, ← h3, List.append_assoc], List.mem_append_left _ h2⟩

theorem Raises.later {c : Nat} {d : W128} {s t u : State} (h : Raises c d s t) (k : Kept t u) : Raises c d s u := by
  obtain ⟨l, r, h1, h2, h3⟩ := h
  obtain ⟨m, h4⟩ := k.log
  exact ⟨m ++ l, r, by rw [← h4, h1, List.append_assoc], List.mem_append_right _ h2, h3⟩

theorem Raises.sooner {c : Nat} {d : W128} {s t u : State} (h : Raises c d t u) (k : Kept s t) : Raises c d s u := by
  obtain ⟨l, r, h1, h2, h3⟩ := h
  obtain ⟨m, h4⟩ := k.log
  exact ⟨l ++ m, r, by rw [h1, ← h4, List.append_assoc], List.mem_append_left _ h2, h3⟩

theorem Answers.later {c : Cmd} {e : Entry} {a b : Nat} {ws : List W128} {s t u : State} (h : Answers c e a b ws s t)
    (k : Kept t u) : Answers c e a b ws s u := by
  obtain ⟨l, x, h1, h2, h3⟩ := h
  obtain ⟨m, h4⟩ := k.out
  exact ⟨m ++ l, x, by rw [← h4, h1, List.append_assoc], List.mem_append_right _ h2, h3⟩

theorem Answers.sooner {c : Cmd} {e : Entry} {a b : Nat} {ws : List W128} {s t u : State} (h : Answers c e a b ws t u)
    (k : Kept s t) : Answers c e a b ws s u := by
  obtain ⟨l, x, h1, h2, h3⟩ := h
  obtain ⟨m, h4⟩ := k.out
  exact ⟨l ++ m, x, by rw [h1, ← h4, List.append_assoc], List.mem_append_left _ h2, h3⟩

theorem emit_gives (o : Output) (s : State) : Gives o s (emit o s) := ⟨[o], rfl, List.mem_singleton.mpr rfl⟩

/-- The log is not touched by giving a record to the event rings. -/
theorem eventToRings_log (r : EventRec) (l : List (Fin 64)) (s : State) : (eventToRings r l s).nor = s.nor :=
  (only_eventToRings (fr := [.out, .win, .evt, .stats, .hostMem]) r l (s0 := s) (by decide) (by decide) (by decide) (by decide)
    (by decide) (Only.refl _ _)).2 .nor (by decide)

theorem countEvent_nor (c : Nat) (s : State) : (countEvent c s).nor = s.nor := by
  unfold countEvent
  split <;> rfl

theorem recordEvent_log (code : Nat) (d : Domain) (det : W128) (s : State) :
    (recordEvent code d det s).nor.log = eventRec code d det s :: s.nor.log := by
  unfold recordEvent
  dsimp only
  rw [eventToRings_log]

theorem eventRec_fields (code : Nat) (d : Domain) (det : W128) (s : State) :
    (eventRec code d det s).code = BitVec.ofNat 16 code ∧ (eventRec code d det s).detail = det := by
  unfold eventRec
  exact ⟨rfl, rfl⟩

theorem recordEvent_raises (code : Nat) (d : Domain) (det : W128) (s : State) : Raises code det s (recordEvent code d det s) := by
  have h := recordEvent_log code d det s
  obtain ⟨h1, h2⟩ := eventRec_fields code d det s
  generalize eventRec code d det s = r at h h1 h2
  exact ⟨[r], r, h, List.mem_singleton.mpr rfl, h1, h2⟩

theorem raise_raises (code : Nat) (d : Domain) (det : W128) (s : State) : Raises code det s (raise code d det s) := by
  unfold raise
  exact (recordEvent_raises code d det _).sooner (kept_countEvent _ (Kept.refl _))

/-! ### Completing -/

/-- A completion to a mailbox is given; over the service port it is given while attached. -/
theorem complete_gives (src : Src) (c : Completion) (s : State) (h : src = .service → s.svc.attached = true) :
    Gives (.completion src c) s (complete src c s) := by
  cases src with
  | mailbox i =>
    have h0 := emit_gives (.completion (.mailbox i) c) s
    dsimp only [complete]
    split
    · exact h0.later (kept_pushEntry _ _ (Kept.refl _))
    · exact h0.later ⟨rfl, List.suffix_refl _, List.suffix_refl _, id, id, id⟩
  | service =>
    dsimp only [complete]
    have h1 : (stat (0x0A020000 * 0x10000 + c.status.toNat) s).svc.attached = true := h rfl
    rw [if_pos h1]
    exact (emit_gives _ _).sooner (kept_stat _ (Kept.refl _))

theorem finish_gives (w : Waiting) (a b : Nat) (ws : List W128) (s : State) (h : w.src = .service → s.svc.attached = true) :
    Gives (.completion w.src (completion w a b ws s)) s (finish w a b ws s) := by
  have h0 := complete_gives w.src (completion w a b ws s) s h
  unfold finish
  dsimp only
  split
  · exact h0.later (kept_stopRing _ (Kept.refl _))
  · exact h0

/-- What `finish` answers to the entry that started the command. -/
theorem finish_answers (c : Cmd) (e : Entry) (on : WaitOn) (a b : Nat) (ws : List W128) (s0 s : State)
    (h : e.src = .service → s.svc.attached = true) : Answers c e a b ws s (finish (started c e on s0) a b ws s) := by
  obtain ⟨l, h1, h2⟩ := finish_gives (started c e on s0) a b ws s h
  exact ⟨l, completion (started c e on s0) a b ws s, h1, h2, rfl, rfl, rfl, rfl, rfl, rfl⟩

/-! ### Taking up an entry -/

/-- An entry that can start and passes every check has its command's effect on the state with the entry consumed. -/
theorem takeUp_starts {c : Cmd} {e : Entry} {hold : Bool} {act : Waiting → State → State} {s : State} (h : Starts c e s)
    (hh : hold = false) : takeUp c e hold act s = act (started c e .loopback s) (consume e.src s) := by
  obtain ⟨h1, h2, h3, h4⟩ := h
  simp [takeUp, h1, h2, h3, h4, hh]

/-- An entry that can start and fails a check is answered so, and has no other effect. -/
theorem takeUp_refuses {c : Cmd} {e : Entry} {hold : Bool} {act : Waiting → State → State} {s : State} {r : Nat × Nat}
    (h1 : sourceReady s e.src = true) (h2 : sourceSpace s e.src = true) (h3 : modeHolds s c = false) (hh : hold = false)
    (h4 : c.judge e s = some r) :
    takeUp c e hold act s = finish (started c e .loopback s) r.1 r.2 [] (refuseInMode c r (consume e.src s)) := by
  simp [takeUp, h1, h2, h3, h4, hh]

/-- While the service port is the source it stays attached when its entry is consumed. -/
theorem consume_attached {c : Cmd} {e : Entry} {s : State} (h : Starts c e s) :
    e.src = .service → (consume e.src s).svc.attached = true := by
  intro k
  have h1 := h.1
  simp only [sourceReady, k, Bool.and_eq_true] at h1
  rw [k]
  exact h1.2

/-- Every mailbox command is taken up as `takeUp` says. -/
theorem exec_mailbox {s : State} {i : Instr} {c : Cmd} {e : Entry} {hold : Bool} (h : mailboxCommand s i = some (c, e, hold)) :
    ∃ act, exec i s = .next (takeUp c e hold act s) := by
  unfold mailboxCommand at h
  split at h <;> first
    | (cases h; done)
    | (simp only [Option.some.injEq, Prod.mk.injEq] at h; obtain ⟨rfl, rfl, rfl⟩ := h; exact ⟨_, rfl⟩)

/-- Every command answers with a next state. -/
theorem exec_next (i : Instr) (s : State) : ∃ t, exec i s = .next t := by
  cases i <;> exact ⟨_, rfl⟩

/-- The answer of a command whose effect left the service port as it was. -/
theorem answered {c : Cmd} {e : Entry} {on : WaitOn} {a b : Nat} {ws : List W128} {s u : State} (h : Starts c e s)
    (k : Kept s u) (hs : u.svc = (consume e.src s).svc) : Answers c e a b ws s (finish (started c e on s) a b ws u) :=
  (finish_answers c e on a b ws s u (fun x => by rw [hs]; exact consume_attached h x)).sooner k

end Sys2Proof.Machine
end

