-- ==== Sys2Proof/Laws/Ledger.lean ====
section
/-! SUPPORT. Records sent to the witness: what writing one changes in the ledger (11 R253). -/

namespace Sys2Proof.Machine

/-- Appending a record adds it to the unacknowledged ones and to the latest records, and advances `wseq`. -/
theorem appendRec_led (mk : State → WRec) (s : State) :
    (appendRec mk s).led = { s.led with
      wseq := s.led.wseq + 1
      unacked := s.led.unacked ++ [mk s]
      recs := latestWith (mk s) s.led.recs } := by
  unfold appendRec
  dsimp only
  rw [(only_sendRec (fr := [.out, .win, .fab, .dma, .diag, .evt, .nor, .stats, .hostMem, .free]) _ (by decide) (by decide)
    (by decide) (by decide) (by decide) (by decide) (by decide) (by decide) (by decide) (by decide) (Only.refl _ _)).led (by decide)]
  simp

/-- What copying the ledger into a full region leaves as it was. -/
structure SameBooks (s t : State) : Prop where
  items : t.led.items = s.led.items
  flows : t.led.flows = s.led.flows
  witness : t.led.witness = s.led.witness
  lost : t.led.lost = s.led.lost
  rebuilt : t.led.rebuilt = s.led.rebuilt
  rest : Only [.out, .win, .led, .fab, .dma, .diag, .evt, .nor, .stats, .hostMem, .free] s t

theorem SameBooks.refl (s : State) : SameBooks s s := ⟨rfl, rfl, rfl, rfl, rfl, Only.refl _ _⟩

theorem SameBooks.trans {s t u : State} (h : SameBooks s t) (k : SameBooks t u) : SameBooks s u :=
  ⟨k.1.trans h.1, k.2.trans h.2, k.3.trans h.3, k.4.trans h.4, k.5.trans h.5, h.6.trans k.6⟩

theorem appendRec_books (mk : State → WRec) (s : State) : SameBooks s (appendRec mk s) := by
  have h := appendRec_led mk s
  have k : Only [.out, .win, .led, .fab, .dma, .diag, .evt, .nor, .stats, .hostMem, .free] s (appendRec mk s) :=
    only_appendRec mk (by decide) (by decide) (by decide) (by decide) (by decide) (by decide) (by decide) (by decide) (by decide)
      (by decide) (by decide) (Only.refl _ _)
  exact ⟨by rw [h], by rw [h], by rw [h], by rw [h], by rw [h], k⟩

theorem checkpointItems_books (l : List Item) (s : State) : SameBooks s (checkpointItems l s) := by
  induction l generalizing s with
  | nil => exact SameBooks.refl s
  | cons i t ih => exact (appendRec_books _ _).trans (ih _)

theorem checkpointFlows_books (l : List (Nat × Flow)) (s : State) : SameBooks s (checkpointFlows l s) := by
  induction l generalizing s with
  | nil => exact SameBooks.refl s
  | cons p t ih =>
    obtain ⟨f, x⟩ := p
    refine SameBooks.trans ?_ (ih _)
    split
    · exact (appendRec_books _ _).trans (appendRec_books _ _)
    · exact SameBooks.refl s

theorem regionCheckpoint_books (s : State) : SameBooks s (regionCheckpoint s) := by
  unfold regionCheckpoint
  split
  · split
    · exact (checkpointFlows_books _ _).trans (checkpointItems_books _ _)
    · exact SameBooks.refl s
  · exact SameBooks.refl s

/-- Writing a record: the ledger holds what it held, and the record is sent and not yet acknowledged. -/
theorem writeRec_books (mk : State → WRec) (s : State) : SameBooks s (writeRec mk s) := by
  unfold writeRec
  split
  · exact (regionCheckpoint_books s).trans (appendRec_books _ _)
  · exact SameBooks.refl s

/-- With a witness, the record written is the last one not yet acknowledged, and carries the sequence number before the next. -/
theorem writeRec_sent (mk : State → WRec) (s : State) (h : hasWitness s = true) :
    ∃ u, SameBooks s u ∧ (writeRec mk s).led.unacked = u.led.unacked ++ [mk u] ∧
      (writeRec mk s).led.wseq = u.led.wseq + 1 := by
  refine ⟨regionCheckpoint s, regionCheckpoint_books s, ?_, ?_⟩ <;>
  · unfold writeRec
    rw [if_pos h, appendRec_led]

/-! ### Items -/

theorem findItem_names {s : State} {f : BitVec 8} {q : BitVec 64} {i : Item} (h : findItem s f q = some i) :
    i.flow = f ∧ i.seq = q := by
  have k := List.find?_some h
  simpa only [Bool.and_eq_true, beq_iff_eq] using k

/-- Items are found again after they are replaced by one of the same name. -/
theorem findItem_putItem {s : State} {f : BitVec 8} {q : BitVec 64} {i x : Item} (h : findItem s f q = some i)
    (hf : x.flow = f) (hq : x.seq = q) : findItem (putItem x s) f q = some x := by
  have hi := findItem_names h
  unfold findItem putItem
  dsimp only
  rw [List.find?_map]
  have e : ((fun j : Item => j.flow == f && j.seq == q) ∘ fun j => if j.flow = x.flow ∧ j.seq = x.seq then x else j) =
      fun j => j.flow == f && j.seq == q := by
    funext j
    simp only [Function.comp]
    split
    · rename_i hj
      rw [hj.1, hj.2]
    · rfl
  rw [e]
  have h' := h
  unfold findItem at h'
  rw [h']
  simp [hf, hq, hi.1, hi.2]

theorem findItem_led {s t : State} (h : t.led = s.led) (f : BitVec 8) (q : BitVec 64) : findItem t f q = findItem s f q := by
  unfold findItem
  rw [h]

theorem findItem_books {s t : State} (h : SameBooks s t) (f : BitVec 8) (q : BitVec 64) : findItem t f q = findItem s f q := by
  unfold findItem
  rw [h.items]

/-- Ending an item leaves it in the ledger with that state, status and reason. -/
theorem endItem_ended {s : State} {f : BitVec 8} {q : BitVec 64} {i j : Item} (h : findItem s f q = some j)
    (hf : i.flow = f) (hq : i.seq = q) (st : ItemSt) (a b : Nat) : Ended f q st a b (endItem i st a b s) := by
  unfold endItem
  dsimp only
  have key : ∀ (x : Item) (mk : State → WRec), x.flow = f → x.seq = q → x.st = st → x.status = BitVec.ofNat 16 a →
      x.reason = BitVec.ofNat 16 b → Ended f q st a b (putItem x (writeRec mk s)) := by
    intro x mk h1 h2 h3 h4 h5
    refine ⟨x, ?_, h3, h4, h5⟩
    exact findItem_putItem (by rw [findItem_books (writeRec_books mk s)]; exact h) h1 h2
  generalize hx : ({ i with
    st := st
    status := BitVec.ofNat 16 a
    reason := BitVec.ofNat 16 b
    finalWseq := _
    finalFt := _
    finalLt := _
    waitResume := false } : Item) = x
  generalize itemRec 4 _ = mk
  have k : Ended f q st a b (putItem x (writeRec mk s)) :=
    key x mk (by rw [← hx]; exact hf) (by rw [← hx]; exact hq) (by rw [← hx]) (by rw [← hx]) (by rw [← hx])
  split
  · obtain ⟨y, h1, h2⟩ := k
    exact ⟨y, by rw [← h1]; exact findItem_led (by simp) f q, h2⟩
  · exact k

theorem failItem_ended {s : State} {f : BitVec 8} {q : BitVec 64} {i : Item} (h : findItem s f q = some i) (hl : i.live = true)
    (a b : Nat) : Ended f q .failed a b (failItem f q a b s) := by
  have hi := findItem_names h
  unfold failItem
  rw [h]
  simp only [hl, if_true]
  exact endItem_ended h hi.1 hi.2 _ _ _

theorem doneItem_ended {s : State} {f : BitVec 8} {q : BitVec 64} {i : Item} (h : findItem s f q = some i) (hl : i.live = true)
    (n : Nat) : Ended f q .done 0 0 (doneItem f q n s) := by
  have hi := findItem_names h
  unfold doneItem
  rw [h]
  simp only [hl, if_true]
  generalize hx : ({ i with result := BitVec.ofNat 64 n } : Item) = x
  have h1 : x.flow = f := by rw [← hx]; exact hi.1
  have h2 : x.seq = q := by rw [← hx]; exact hi.2
  exact endItem_ended h h1 h2 .done 0 0

/-- Staged tables that become active leave the ledger as it was. -/
theorem activateTables_led (s : State) : (activateTables s).led = s.led :=
  (only_activateTables (fr := [.out, .win, .cfg, .link, .nor, .evt, .stats, .hostMem]) (by decide) (by decide) (by decide)
    (by decide) (by decide) (by decide) (by decide) (by decide) (Only.refl _ s)).led (by decide)

theorem Ended.of_led {s t : State} {f : BitVec 8} {q : BitVec 64} {st : ItemSt} {a b : Nat} (h : Ended f q st a b s)
    (k : t.led = s.led) : Ended f q st a b t := by
  obtain ⟨i, h1, h2⟩ := h
  exact ⟨i, by rw [findItem_led k]; exact h1, h2⟩

end Sys2Proof.Machine
end

