-- ==== Sys2Proof/WellFormed.lean ====
section
/-! DEFINITION. Well-formed commands: what the parts of a command's operands must agree on for it to be one that the outside
of the block can present. The meanings are total; these checks say which terms stand for something. -/

namespace Sys2Proof

/-- An entry carries at most seven argument words (12 R277), and bytes after it over the service port only (20 R449). -/
def Entry.wf (e : Entry) : Bool :=
  decide (e.argWords ≤ 7) &&
    match e.src with
    | .mailbox _ => e.follow.isEmpty
    | .service => true

/-- A spore is its header word and a payload of whole bytes that its length in words covers (15 R352, R356). -/
def Spore.wf (sp : Spore) : Bool := decide (sp.payload.length ≤ 16 * sp.words)

/-- A return message has at most sixteen words (08 R182). -/
def RetMsg.wf (m : RetMsg) : Bool := decide (m.body.length ≤ 15)

/-- A register write of 32 bits falls on a 32-bit boundary, one of 64 bits on a 64-bit boundary (12 R265). -/
def regWriteWf (off : BitVec 24) (wide : Bool) : Bool := off.toNat % (if wide then 8 else 4) == 0

/-- A BAR4 write brings as many bytes as it says; a read brings none (12 R270). -/
def bar4Wf (write : Bool) (len : Nat) (data : List Byte) : Bool :=
  decide (0 < len) && (if write then data.length == len else data.isEmpty)

/-- A measured pair names a unit of its target (18 R409). -/
def CalMeas.wf (m : CalMeas) : Bool :=
  match m.target with
  | 0 => decide (m.unit < 4)
  | 1 => decide (m.unit < 8)
  | 2 => decide (m.unit < 16)
  | 3 => decide (m.unit < 80)

/-- The checks on a command. -/
def Instr.wf (i : Instr) : Bool :=
  match i with
  | .devIdentify e | .devSetMode e | .devGetStatus e | .devReadback e | .devReset e | .cfgSet e | .cfgGet e
  | .cfgLoadBeamTable e | .cfgLoadLayerMap e | .flowOpen e | .flowClose e | .workSubmit e | .workCancel e | .workQuery e
  | .ledgerCheckpoint e | .ledgerRead e | .dmaChannelSetup e | .dtuSetRoot e | .dtuInvalidate e | .dtuResumeFault e
  | .fabDiscover e | .fabAssignNode e | .fabSetRoute e | .fabPair e | .fabHandover e | .timeSetSource e | .timeGet e
  | .timeAdjust e | .calRun e | .calStatus e | .calSetLimits e | .trackSetCoeffs e | .trackArm e | .scanHome e
  | .scanSetProfile e | .scanStop e | .ilkConfigure e | .secImportKey e | .secEraseKey e | .secStatus e
  | .secUnlockDebug e | .updBegin e | .updStatus e | .updArm e | .diagLoopback e | .diagInject e | .diagCounters e
  | .cfgCommit e _ | .ledgerSetWitness e _ | .ilkClear e _ | .updPutPiece e _ => Entry.wf e
  | .ctrlAck m | .flashAck m | .status m | .error m | .portEvent m | .trainStatus m => RetMsg.wf m
  | .sporeForward _ sp | .hello _ sp | .topo _ sp | .assign _ sp | .assignAck _ sp | .nack _ sp | .pairReq _ sp
  | .pairAck _ sp | .pairBeat _ sp | .pairFail _ sp | .handoverReq _ sp | .handoverGo _ sp | .handoverDone _ sp
  | .ledgerRec _ sp | .ledgerAck _ sp | .offloadReq _ sp | .offloadDone _ sp | .segments _ sp | .time _ sp | .host _ sp
  | .updRelay _ sp => Spore.wf sp
  | .registerWrite off wide _ => regWriteWf off wide
  | .winReservedWrite _ size => size == 1 || size == 2 || size == 4 || size == 8
  | .bar4Access _ write len data => bar4Wf write len data
  | .spillWriteAck slot | .spillReadReturn slot => decide (slot < 139264)
  | .calDone meas => meas.all CalMeas.wf
  | .doorbellWrite .. | .ringEnable .. | .ringDisable .. | .winStatusClear .. | .ringStatusClear .. | .winStageWrite ..
  | .msixVectorUnmask .. | .msixCoalesceTimeout .. | .ringBusError .. | .functionLevelReset | .perst | .workItemStart ..
  | .acceptTimeout .. | .witnessReadbackDone .. | .witnessResendTimeout | .witnessLost | .witnessRetry .. | .progressTimer
  | .ledgerRebuild .. | .ingestRecord .. | .containerRecordAuth .. | .ingestComplete .. | .densitySweepDone ..
  | .censusStripeReady .. | .lineDispatch | .lineRendered .. | .renderBinComplete .. | .copyComplete .. | .stripeArm
  | .fireEvent .. | .frameDeadlineMissed | .gstrobeRise | .gstrobeFall | .strobeCut | .endingTimeout | .highWaterTimeout
  | .resumeConditionMet | .tempSample .. | .linkDownRetry | .lockingTimeout | .degradedRetry | .ctrlFrameResend
  | .returnLaneSwitched | .bsaStatusTimeout | .portClaimTimeout | .positionSample | .serialPositionFrame ..
  | .serialFrameTimeout .. | .quadratureIllegalTransition .. | .indexPulse .. | .acquireTimeout | .spoFrame | .moveComplete
  | .spoReleaseTimeout | .homingTravelLimit | .ilkTrip .. | .ilkChatter .. | .portTrainStart .. | .portTrainingTimeout ..
  | .portRetry .. | .fabPortDown .. | .linkAck .. | .credit .. | .sporeAckTimeout .. | .creditReturnTimer ..
  | .linkAckTimer .. | .hostSporeSend .. | .rxBufferPost .. | .discoveryCollectTimeout | .assignTimeout | .pairTimeout
  | .pairBeatTimer | .partnerBeatTimeout | .takeoverRecheck | .handoverShadowTimeout | .timeSporeTimer
  | .timeSourceTimeout .. | .relayHalfTimeout | .updateTargetTimeout .. | .ptpAnnounce .. | .ptpSync .. | .ptpFollowUp ..
  | .ptpDelayResp .. | .ptpMasterTimeout | .dmaDescriptorStart .. | .dmaDescriptorDone .. | .dmaBusError ..
  | .dmaReadTimeout .. | .dmaRetry .. | .dtuFault .. | .hbmRefresh .. | .hbmTempRead .. | .hbmReadComplete ..
  | .hbmRetrainSliceStart .. | .hbmRetrainSliceEnd .. | .hbmRetrainForced .. | .calRunStart .. | .modeChangeDone ..
  | .heartbeatTick | .supplyWarning .. | .supplyRecovered .. | .railResetTrip .. | .thermalTrip | .watchdogReset
  | .powerOnReset .. | .tableArrayUncorrectable .. | .domainPowerLoss .. | .tamperCheck .. | .tamperCleared
  | .vbatThreshold .. | .keeperSupplySwitch .. | .dbgRequest | .svcAttached | .svcDetached | .identPressed .. | .identStuck
  | .smbStatusClear .. | .smbAlertEnWrite .. | .smbAlertResponse | .resetNAsserted | .quadratureEdge ..
  | .commandedResetStart .. | .erasureZeroingDone | .thermalResetRelease .. | .monitorAdcSample .. | .loopbackDurationEnd ..
  | .ackWithholdEnd | .updateRateTick .. | .identFlashEnd => true

end Sys2Proof
end

