-- ==== Sys2Proof/Tests/Slice0.lean ====
section
/-! SUPPORT. Tests of the model: small demonstration states, well-formed and ill-formed commands, single steps, and for every
statement of the certificate a state and operands that meet its hypotheses. -/

namespace Sys2Proof.Tests

open Sys2Proof Sys2Proof.Machine

set_option Elab.async false
set_option linter.unreachableTactic false
set_option linter.unusedTactic false
set_option linter.unusedVariables false

/-! ### Demonstration states and entries -/

/-- A ring that is ACTIVE, 16 entries, with a base and a shadow of its own, the host index at `h`. -/
def liveRing (i : Nat) (h : BitVec 32) : Ring :=
  { Ring.init i with base := BitVec.ofNat 64 (0x100000 + 0x1000 * i), shadow := BitVec.ofNat 64 (0x80000 + 8 * i), hostIdx := h, st := 1 }

/-- A device in mode `m` with its firmware running, mailbox 0 in use with an entry waiting, and event ring 48 ACTIVE. -/
def inMode (m : Mode) : State :=
  let s := State.reset
  { s with
    pm := { s.pm with mode := m, target := m, held := .no, fwState := 3 }
    led := { s.led with rebuilt := true }
    win := { s.win with rings := ((s.win.rings.set 0 (liveRing 0 1)).set 1 (liveRing 1 0)).set 48 (liveRing 48 0) } }

/-- The device in READY. -/
def ready : State := inMode .ready

/-- An entry in mailbox 0 with argument words `l`. -/
def ask (l : List W128) : Entry where
  src := .mailbox 0
  tag := 7
  argWords := l.length
  rsv := 0
  ctx := 9
  args := Vector.ofFn fun i => l.getD i.val 0
  busErr := false
  follow := []

/-- Nothing but zeros, as an item of kind `k` in state `st` with parameters `p`, on flow 3. -/
def itemOf (k : BitVec 8) (st : ItemSt) (p : List Byte) : Item where
  flow := 3
  seq := 5
  kind := k
  st := st
  params := some p
  paramCrc := 0
  status := 0
  reason := 0
  result := 0
  resumes := 0
  h := 0
  stripe := 0
  detail := 0
  acceptWseq := 1
  finalWseq := none
  finalFt := 0
  finalLt := 0
  published := false
  cancel := false
  waitResume := false

/-- Flow 3 is open here, its next item 6, and a peer is the witness; the items of the ledger are `l`. -/
def withItems (m : Mode) (l : List Item) : State :=
  let s := inMode m
  { s with led := { s.led with
      flows := [(3, { Flow.closed with isOpen := true, nextSeq := 6, floor := 5 })]
      witness := .peer 0x22
      items := l } }

/-- A record of an item for the witness. -/
def demoRec : WRec where
  rtype := 1
  flow := 3
  kind := 6
  st := 1
  status := 0
  stripe := 0
  seq := 5
  wseq := 4
  paramCrc := 0
  h := 0
  ft := 0
  lt := 0
  owner := 0
  result := 0
  epoch := 0

/-- With one record sent to the witness `w` and not acknowledged. -/
def owing (w : WitnessKind) : State :=
  let s := withItems .ready [itemOf 6 .submitted []]
  { s with led := { s.led with witness := w, unacked := [demoRec], lost := false } }

/-- A reference to a buffer of `n` bytes at host address `a`. -/
def buf (a n : Nat) : W128 := word [(0, 64, a), (64, 32, n)]

/-- The parameters of a CAL item: DACs. -/
def calParams : List Byte := leBytes 16 1

/-- The parameters of a CAL item wait in host memory. -/
def submitting : State := { withItems .ready [] with hostMem := [(0x2000, 1)] }

/-- WORK_SUBMIT of a CAL item. -/
def submitAsk : Entry := ask [word [(0, 8, 3), (8, 8, 6), (64, 64, 6)], buf 0x2000 16]

/-- Parameters of an ingest: one stripe of one line, flags of byte 32, room for the stream in HBM at 64 KiB. -/
def ingestParams (flags room : Nat) : List Byte :=
  leBytes 16 0 ++ (leBytes 8 0x10000 ++ leBytes 8 room) ++ ([BitVec.ofNat 8 flags] ++ [0, 0, 0, 1] ++ List.replicate 11 0) ++ List.replicate 80 0

/-- An ingest that has read its START and one empty cell. -/
def demoRun (ended : Bool) (cells : List Cell) : IngestRun :=
  { newIngest 3 5 with s := some 16, ended := ended, cells := cells }

/-- The ingest `r` runs. -/
def ingesting (flags room : Nat) (r : IngestRun) : State :=
  let s := withItems .ready [itemOf 1 .running (ingestParams flags room)]
  { s with lay := { s.lay with ingests := [r] } }

/-- The first 64 bytes of a container of one record of 16 bytes lie at host address 0, and its key is in use. -/
def sealedInput : State :=
  let s := ingesting 0x14 0x10000 (demoRun false [])
  { s with hostMem := [(24, 16), (32, 1)], lay := { s.lay with decryptor := some (0, 1) } }

/-- A cell that places a cell there is not. -/
def lostCell : Cell := { name := [65], elems := [(77, .inl { name := [66], x := 0, y := 0, quarter := 0, flip := false, rep := [] })] }

/-- An ingest of nothing, read through, with room `n` for its stream. -/
def emptyIngest (n : Nat) : State := ingesting 4 n (demoRun true [{ name := [65], elems := [] }])

/-- The stream it makes, and the number of its records. -/
def emptyStream : List Byte × Nat := streamOf (emptyIngest 400) (IngestJob.of 3 (ingestParams 4 400)) 16 []

/-- Bytes at consecutive addresses, zeros left out. -/
def cells (a : Nat) (l : List (Nat × Nat)) : List (Nat × Byte) := l.map fun p => (a + p.1, BitVec.ofNat 8 p.2)

/-- The stream of an empty layout of one stripe of one line, of 400 bytes, in HBM at 64 KiB. -/
def streamCells : List (Nat × Byte) := cells 0x10000
  [(0, 70), (1, 76), (2, 90), (3, 78), (4, 1), (6, 8), (10, 1), (16, 144), (17, 1), (28, 16), (124, 20), (125, 52),
    (126, 105), (127, 25), (128, 192), (136, 208), (192, 70), (193, 76), (194, 90), (195, 83), (201, 1), (208, 64),
    (216, 160), (252, 54), (253, 148), (254, 197), (255, 157), (352, 176), (360, 32), (368, 70), (369, 76), (370, 90),
    (371, 66), (396, 1), (397, 129), (398, 220), (399, 53)]

/-- Parameters of its census, the map to go to 128 KiB. -/
def censusParams : List Byte :=
  (leBytes 8 0x10000 ++ leBytes 8 1) ++ leBytes 16 (packFields [(0, 32, 2000000), (32, 8, 100), (64, 32, 1)]) ++
    (leBytes 8 0x20000 ++ leBytes 8 0x100000) ++ List.replicate 16 0

/-- Its census runs; the forecast of a stripe is next where `forecast`. -/
def censusing (forecast : Bool) : State :=
  let s := withItems .ready [itemOf 2 .running censusParams]
  { s with hbmMem := streamCells
           lay := { s.lay with censuses := [{ flow := 3, seq := 5, forecast := forecast, next := 0, values := [] }] } }

/-- The header that every stream above has. -/
def demoHdr : SHdr := { pitch := 0, sealed_ := false, first := 0, count := 1, linesM1 := 0, len := 400, lmapCrc := 0, crc := 0x19693414 }

/-- The density map of that job, in HBM at 128 KiB. -/
def mapCells : List (Nat × Byte) := cells 0x20000
  [(0, 70), (1, 76), (2, 90), (3, 68), (4, 1), (16, 26), (20, 1), (24, 64), (25, 1), (26, 1), (28, 1), (32, 128),
    (44, 20), (45, 52), (46, 105), (47, 25), (60, 52), (61, 251), (62, 135), (63, 207), (64, 35), (65, 70), (66, 68),
    (67, 144)]

/-- Line 0 of that stripe, for a stripe in the sequencer (class 0) or a census (class 3). -/
def demoLine (cls : Nat) : RLine := { cls := cls, flow := 3, seq := 5, req := none, stripe := 0, line := 0 }

/-- A census whose trial line waits, or is on core 31. -/
def trialling (onCore : Bool) : State :=
  let s := censusing true
  { s with hbmMem := streamCells ++ mapCells
           rnd := if onCore then { s.rnd with cores := s.rnd.cores.set 31 (some (demoLine 3)) }
             else { s.rnd with waiting := [demoLine 3] } }

/-- Parameters of the stripe of that job. -/
def stripeParams : List Byte :=
  (leBytes 8 0x10000 ++ leBytes 8 (packFields [(0, 2, 1), (32, 32, 2000000)])) ++ (leBytes 8 0 ++ leBytes 8 0x20000) ++ List.replicate 32 0

/-- The stripe renders line 0 on core 0 with nothing in its store. -/
def rendering : State :=
  let s := withItems .expose [itemOf 4 .running stripeParams]
  { s with hbmMem := streamCells ++ mapCells
           seq := { s.seq with st := .filling, item := some (3, 5) }
           rnd := { s.rnd with cores := s.rnd.cores.set 0 (some (demoLine 0)) } }

/-- The values a line renders to. -/
def segsOf (x : LineLook) : List (List Nat) := match x with | .ready l => l | _ => []

/-- A slot whose segment is in the spill area. -/
def spilt (st : Nat) : State :=
  let s := inMode .expose
  { s with store := { s.store with slots := [(139263, { len := 576, where_ := 2, kind := 0, check := 0, body := [], blocks := [], st := st, reads := 0, ecc := false })] } }

/-- A bin rendered to its last line, of a stream in HBM at 64 KiB. -/
def demoBin : BinRun where
  flow := 3
  seq := 5
  req := none
  params := leBytes 16 0x10000000000010000 ++ List.replicate 48 0
  next := 1
  written := 0
  held := []
  failed := 0

/-- It is over. -/
def binOver : State :=
  let s := withItems .render [itemOf 3 .running demoBin.params]
  { s with hbmMem := streamCells, rnd := { s.rnd with bins := [demoBin] } }

/-- Parameters of a COPY of `n` bytes from host address 0x3000 to HBM at 0x30000. -/
def copyParams (n : Nat) : List Byte :=
  leBytes 16 (packFields [(0, 4, 1), (6, 2, 1), (32, 32, n), (64, 64, 0x3000)]) ++ leBytes 16 0x30000 ++ List.replicate 32 0

/-- The COPY of an item. -/
def demoCopy (st : Nat) : CopyRun := { flow := 3, seq := 5, done := 0, attempts := 1, st := st }

/-- A COPY of 3 bytes runs. -/
def copying (st : Nat) : State :=
  let s := withItems .ready [itemOf 5 .running (copyParams 3)]
  { s with hostMem := [(0x3000, 1), (0x3002, 2)], dma := { s.dma with copies := [demoCopy st] } }

/-- The stripe of an item, of one line, in state `st`, its port held. -/
def exposing (st : SeqSt) : State :=
  let s := withItems .expose [itemOf 4 .running stripeParams]
  { s with seq := { s.seq with st := st, item := some (3, 5), nLast := 8176, opened := true }
           link := { s.link with st := .trained, held := true, cseq := 9 }
           scan := { s.scan with st := .atApproach } }

/-- It is ready to be armed at flash 0, with the stage at phase `phi`. -/
def arming (phi : Int) : State :=
  let s := exposing .filling
  { s with rnd := { s.rnd with ready := true }, trk := { s.trk with phi := phi } }

/-- Flash `f` was fired last and waits for its strobe. -/
def firing (f : Int) : State :=
  let s := exposing .running
  { s with seq := { s.seq with f := f, fired := [f], strobed := f - 1, gblank := false } }

/-- GSTROBE is high in it. -/
def strobing : State := { firing 8176 with seq := { (firing 8176).seq with gstrobe := true, fired := [], strobed := 8176 } }

/-- The strobe watchdog has cut. -/
def cut : State := { firing 4 with seq := { (firing 4).seq with wdLatch := true, gblank := true } }

/-- It stops after flash `m`, or has stopped, with cause `c`, the high-water at `h`. -/
def stopping (st : SeqSt) (c : Nat) (m h : Int) : State :=
  { exposing st with seq := { (exposing st).seq with causes := [c], m := m, h := h, hKnown := true, strobed := m } }

/-- A message of the BSA: its word 0, with the check of the whole in bits 127..96, and its other words. -/
def retMsg (w : W128) (l : List W128) : RetMsg := { word0 := w, body := l }

/-- The link in state `st` in READY, its frames outstanding `l`, 9 sent. -/
def linkIn (st : LinkSt) (l : List Ctrl) : State :=
  let s := inMode .ready
  { s with link := { s.link with st := st, out := l, cseq := 9 } }

/-- A control frame `op`, the newest sent. -/
def frame (op sends : Nat) : Ctrl := { op := op, arg := 0, cseq := 8, words := [], sends := sends }

/-- Channel 0 is the scan channel of mode `p` (1 quadrature, 2 serial), the engine in state `st`, bank 0 active. -/
def tracking (p : Nat) (st : TrkSt) : State :=
  let s := inMode .ready
  { s with cfg := { s.cfg with act := { s.cfg.act with posCfg := s.cfg.act.posCfg.set 0 (word [(0, 2, p), (32, 40, 1)]) } }
           trk := { s.trk with st := st, active := some 0, banks := s.trk.banks.set 0 (some []) } }

/-- A coefficient bank of zeros with `h` 1 and a right check. -/
def demoBank : List Byte :=
  let a := leBytes 12 (packFields [(0, 32, 0x434B5254), (32, 16, 1), (48, 7, 1)])
  let z := List.replicate 1024 0
  a ++ leBytes 4 0x9CBD0C04 ++ z

/-- TRACK_SET_COEFFS into bank 1, with a swap where `x` is 3. -/
def bankAsk (x : BitVec 128) : Entry := ask [buf 0x4000 1040, x]

/-- That bank waits in host memory. -/
def banking : State :=
  let s := tracking 1 .off
  { s with hostMem := Memory.writes [] 0x4000 demoBank }

/-- A scan profile as a number: limits of the slowest kind, the stage from -10 to 1,000,000 fine steps. -/
def profileBits : Nat :=
  0x2DCDF9CF000000000000000000000000000000000000000F4240FFFFFFFFFFF600000000000000000000004000000000000027100000064000000000504E4353

/-- Its bytes. -/
def demoProfile : List Byte := leBytes 64 profileBits

/-- SCAN_SET_PROFILE of it. -/
def profileAsk : Entry := ask ((List.range 4).map fun i => BitVec.ofNat 128 (profileBits >>> (128 * i)))

/-- The scan channel counts edges and the profile is active, the generator in state `st`. -/
def staged (st : GenSt) : State :=
  let s := tracking 1 .off
  { s with scan := { s.scan with st := st, profile := some (BitVec.ofNat 512 profileBits) } }

/-- A search in phase `p`, its index found at 77. -/
def demoSearch (p : Nat) : Homing := { neg := false, speed := 10, travel := 2 ^ 31, phase := p, index := 77, abort := 0 }

/-- Interlock `i` in use with action `a`. -/
def watching (i : Fin 8) (a : Nat) (latched : Bool) : State :=
  let s := firing 4
  { s with ilk := s.ilk.set i { s.ilk[i] with cfg := BitVec.ofNat _ (1 + 2 * a), latched := latched } }

/-- Slot 5 holds a key with id 77, a sealed region of it lies in HBM, and slot 63 holds another. -/
def keyed : State :=
  let s := inMode .ready
  { s with hbmMem := [(0x1000, 1), (0x10FF, 2), (0x1100, 3)]
           keep := { s.keep with
             slots := (s.keep.slots.set 5 { KeySlot.empty with key := 1, keyId := 77, occupied := true }).set 63
               { KeySlot.empty with key := 2, keyId := 78, occupied := true }
             regions := [{ slot := 5, start := 0x1000, len := 256 }] } }

/-- SEC_IMPORT_KEY of key 9 into slot `n`, the blob at 0x5000. -/
def importAsk (n : Nat) : Entry := ask [word [(0, 6, n), (64, 64, 9)], buf 0x5000 176]

/-- `keyed` while the zeroing of its region runs. -/
def scrubbing : State :=
  { keyed with keep := { keyed.keep with zeroing := [{ mask := 1 <<< 5, cause := 1, all := false }] } }

/-- `keyed` as the keeper `f`. -/
def keptAs (f : Keeper → Keeper) : State := { keyed with keep := f keyed.keep }

/-- A blob for slot 0 and key 9, its point and its text zeros. -/
def demoBlob : List Byte := leBytes 16 (packFields [(0, 32, 0x5052574B), (32, 16, 1), (64, 64, 9)]) ++ List.replicate 160 0

/-- It waits in host memory. -/
def blobbed : State := { keyed with hostMem := Memory.writes [] 0x5000 demoBlob }

/-- A piece of zeros. -/
def demoPiece : List Byte := List.replicate 4096 0

/-- The update buffer in state `st` for image 0 of one piece, with these pieces. -/
def staging (st : Nat) (held : List (Nat × BitVec 32 × List Byte)) : State :=
  { ready with upd := { ready.upd with st := st, imgLen := 4096, pieces := 1, held := held } }

/-- UPD_BEGIN of an image of `n` bytes. -/
def updAsk (n : Nat) : Entry := ask [word [(32, 32, n), (64, 32, (n + 4095) / 4096)], 0, 0, 1]

/-- `staging 2` with digest `d`. -/
def armed (d : BitVec 384) : State := let s := staging 2 []; { s with upd := { s.upd with pieces := 0, digest := d } }

/-- The UPDATE of an item for node `target`. -/
def demoUpd (have_ : List Nat) : UpdRun :=
  { flow := 3, seq := 5, image := demoPiece, sent := 0, nacks := [], begun := true, have_ := have_, msgs := [] }

/-- The item. -/
def updItem (target : Nat) : Item :=
  itemOf 8 .running (leBytes 16 (packFields [(68, 12, target), (96, 32, 1)]) ++ leBytes 16 4096)

/-- It runs, the buffer of this device being `s`. -/
def sending (s : State) (target : Nat) : State :=
  { s with
    led := { (withItems .ready [updItem target]).led with witness := .peer 0x22 }
    upd := { s.upd with items := [demoUpd []] } }

/-- Diagnostics are allowed. -/
def diagnosing : State := { ready with cfg := { ready.cfg with act := { ready.cfg.act with diagEnable := 1 } } }

/-- A set of calibration limits as a number, all 16 and 100. -/
def limitsBits : Nat :=
  0x1A4E6A9E00000000000000000000000000000000000000000000000000000000006400100064001000640010006400100064001000640010000000014C4C4143

/-- Its bytes. -/
def demoLimits : List Byte := leBytes 64 limitsBits

/-- A calibration of the DACs in step `st`, its limits all 16 and 100. -/
def calibrating (st : Nat) (ref : Nat) : State :=
  { ready with cal := { ready.cal with st := st, targets := 1, iRef := ref, limits := BitVec.ofNat 512 limitsBits } }

/-- Base 3 follows PTP, its master 5, and has been acquired. -/
def following : State :=
  { ready with time := { ready.time with
      base := ready.time.base.set 3 { ready.time.base[(3 : Fin 4)] with src := 3, acquired := true, state := 1, delay := 7 }
      ptpMaster := some 5, ptpMasters := [{ sender := 5, quality := 9 }], ptpSync := some (2, 2 ^ 48 - 1), ptpReq := some (2, -3) } }

/-- A PTP message of node `n`. -/
def ptpOf (n : BitVec 80) (q : Nat) (two : Bool) : PtpMsg :=
  { sender := n, seq := 2, quality := q, layer2 := false, domain := ready.time.ptpDomain, twoStep := two, origin := 1, received := 4 }

/-- Base 0 follows the tree. -/
def treed : State :=
  { ready with time := { ready.time with base := ready.time.base.set 0 { ready.time.base[(0 : Fin 4)] with src := 1, acquired := true, state := 1 } } }

/-- This device is node 0x10; port 0 is up, its next sequence number 2^24 - 1, and leads to node 0x20, as which mode `m`. -/
def meshed (m : Mode) : State :=
  let s := inMode m
  { s with fab := { s.fab with
      node := 0x10
      routes := [(0x20, 0x100)]
      ports := s.fab.ports.set 0 { s.fab.ports[(0 : Fin 8)] with
        st := .up, cls := Vector.replicate 4 { PClass.init with rx := 2 ^ 24 - 1, tx := 2 } } } }

/-- A spore of type `typ` in class `c` from node `src` to node `dst`. -/
def sporeTo (dst src typ : Nat) (c : Fin 4) (b : List Byte) : Spore where
  hopSeq := 0xFFFFFF
  cls := c
  ttl := 15
  words := sporeWords b.length
  header := header dst src typ b.length c.val 1 b
  payload := b
  startOk := true
  credOk := true
  arrived := 99

/-- A spore of node 0x20 to this node. -/
def spore (typ : Nat) (c : Fin 4) (b : List Byte) : Spore := sporeTo 0x10 0x20 typ c b

/-- A HELLO of the device `serial`. -/
def helloOf (serial : BitVec 64) : Spore :=
  sporeTo 0 0x20 1 1 (leBytes 8 serial.toNat ++ leBytes 8 (packFields [(0, 12, 0x20), (32, 32, 0x00010000)]))

/-- A spore in class `c` with the header `h`, its check in it. -/
def spored (h : BitVec 128) (c : Fin 4) (b : List Byte) : Spore where
  hopSeq := 0xFFFFFF
  cls := c
  ttl := 15
  words := sporeWords b.length
  header := h
  payload := b
  startOk := true
  credOk := true
  arrived := 99

/-- The HELLO of the device whose serial number is 0, from node 0x20. -/
def hello0 : Spore :=
  spored 0xA79E8C6C000000010000201001020000 1 [0, 0, 0, 0, 0, 0, 0, 0, 0x20, 0, 0, 0, 0, 0, 1, 0]

/-- `meshed` with its fabric changed. -/
def meshAs (m : Mode) (f : Fabric → Fabric) : State := { meshed m with fab := f (meshed m).fab }

/-- Port 0 is in state `st`. -/
def portIn (st : PortSt) : State :=
  meshAs .ready fun x => { x with ports := x.ports.set 0 { x.ports[(0 : Fin 8)] with st := st } }

/-- Class 3 of port 0 as `f` makes it. -/
def classAs (f : PClass → PClass) : State :=
  meshAs .ready fun x => { x with ports := x.ports.set 0 { x.ports[(0 : Fin 8)] with
    cls := (x.ports[(0 : Fin 8)]).cls.set 3 (f (x.ports[(0 : Fin 8)]).cls[(3 : Fin 4)]) } }

/-- A spore sent and not acknowledged. -/
def sentSpore (n : Nat) : TxSpore := { hopSeq := n, ttl := 15, header := 0x50, payload := [5] }

/-- `s` with the command `w` running. -/
def waitingOn (w : WaitOn) (s : State) : State :=
  { s with mb := { s.mb with running := [started cmdFabDiscover (ask [0]) w s] } }

/-- Paired with node 0x20 in role `r`, the pair in state `st`. -/
def pairedAs (m : Mode) (st : PairSt) (r : Nat) (f : Pair → Pair) : State :=
  meshAs m fun x => { x with pair := f { x.pair with st := st, role := r, partner := 0x20 } }

/-- A SHADOW that can take over. -/
def standingBy (st : PairSt) : State :=
  let s := pairedAs .shadow st 2 id
  { s with link := { s.link with st := .trained }, fab := { s.fab with mirror := { s.fab.mirror with client := some 0x20 } } }

/-- The header of a map with margin 1 over the job, its index zeros. -/
def wideMap : List Byte :=
  let m := mapGeo demoHdr 1
  let h := (m.header demoHdr).take 60
  h ++ leBytes 4 (crc32c (h ++ List.replicate (m.tileOff - 64) 0)).toNat

/-- A peer that renders, the job's stream and map in HBM. -/
def helping : State :=
  let s := meshed .render
  { s with hbmMem := Memory.writes streamCells 0x20000 wideMap
           cfg := { s.cfg with rp := some { bytes := [], crc := 0 }, lmap := some { bytes := [], crc := 0 } } }

/-- The parameters of a RENDER_BIN for a peer. -/
def peerParams : List Byte :=
  leBytes 16 (packFields [(0, 64, 0x10000), (64, 2, 1), (66, 1, 1), (68, 12, 0x20)]) ++ leBytes 16 0 ++ leBytes 16 0x20000 ++ leBytes 16 0

/-- A lead waits for peer 0x20. -/
def leading (m : Mode) : State :=
  let s := meshed m
  { s with rnd := { s.rnd with offloads := [{ node := 0x20, msgId := 1, lineFirst := 0, lineLast := 0, expired := false }] } }

/-- Ring `i` is ACTIVE with an entry, its port 0 up. -/
def ringed (i : Fin 64) (h : BitVec 32) (f : State → State) : State :=
  let s := f (meshed .ready)
  { s with win := { s.win with rings := s.win.rings.set i (liveRing i.val h) } }

/-- Port 0 has a receive buffer posted: 4096 bytes of HBM at 0x8000, tag 7. -/
def posted : State :=
  ringed 33 0 fun s => { s with fab := { s.fab with
    hostSent := [9]
    ports := s.fab.ports.set 0 { s.fab.ports[(0 : Fin 8)] with posted := [(7, word [(0, 64, 0x8000), (64, 32, 4096), (96, 2, 1)])] } } }

/-- Ring `i` as `f` makes it. -/
def ringAs (i : Fin 64) (f : Ring → Ring) : State :=
  { ready with win := { ready.win with rings := ready.win.rings.set i (f (liveRing i.val 1)) } }

/-- The staging window is open at its last window. -/
def windowed : State :=
  { ready with hbmMem := [(0xBE0000000, 5), (0xBEFFFFFFF, 6)], win := { ready.win with window := 190, stageEn := true } }

/-- A COPY of 3 bytes of host memory to HBM, with tag 7. -/
def copyWords : BitVec 512 := BitVec.ofNat 512 (packFields [(0, 4, 1), (6, 2, 1), (16, 16, 7), (32, 32, 3), (64, 64, 0x3000), (128, 64, 0x30000)])

/-- The descriptor of it at index 0. -/
def demoDesc (st : DescSt) (attempts : Nat) : Desc := { newDesc 0 copyWords with st := st, attempts := attempts }

/-- Channel 0 of flow 3 has the descriptors `l` of its one entry started, its ring ACTIVE. -/
def dmaing (l : List Desc) : State :=
  let s := withItems .ready []
  { s with
    hostMem := [(0x3000, 1), (0x3002, 2)]
    win := { s.win with rings := s.win.rings.set 16 (liveRing 16 1) }
    dma := { s.dma with ch := s.dma.ch.set 0 { Channel16.init with flow := 3, retries := 3, descs := l } } }

/-- After the descriptor moved its bytes `p` to `q`. -/
def movedTo (p q : Nat) (s : State) : State := ((demoDesc .active 1).f.move 3 p q s).getD s

/-- The page tables of flow 3 begin at host address 0x10000, and are empty; `n` translation faults are held. -/
def unmapped (n : Nat) (s : State) : State :=
  { s with dma := { s.dma with roots := [(3, 0x10000)], faults := List.replicate n (mkFault 3 1 false 15 9 0 0) } }

/-- A translation fault of channel 0's descriptor. -/
def demoFault : DFault := mkFault 3 1 false 0 0 0x3000 0

/-- After a walk for 0x3000 in it. -/
def dtuAfter (s : State) : State := (faultReason 3 false 0x3000 false s).2

/-- What the boot ROM finds: all well. -/
def demoBoot : BootIn :=
  { stagedDigestOk := true, stagedHeaderOk := true, stagedSigOk := true, slotOk := true, slotId := 1, slotFwVer := 1, slotCfgVer := 1, slotCfgMin := 1 }

/-- The power part of `ready` as `f` makes it. -/
def poweredAs (f : Power → Power) : State := { ready with pm := f ready.pm }

/-- A stripe runs, its first rail low; start-up is held as `h` says, by a reset of kind `k`. -/
def lowRail (h : Held) (k : Nat) : State :=
  { firing 4 with pm := { (firing 4).pm with railsLow := 1, held := h, heldKind := k } }

/-- The slice of pseudo-channel `p` retrains. -/
def slicing (p : Nat) : State :=
  { ready with hbm := { ready.hbm with pcs := Vector.ofFn fun q : Fin 64 => { ready.hbm.pcs[q] with slice := decide (q.val = p), due := true } } }

/-- Slot 0 of the store holds the coded segment of line 0, row class 0, no dose anywhere. -/
def oneSlot : State :=
  let s := inMode .expose
  let b := [0xD7, 0x3F]
  { s with store := { s.store with slots :=
      [(0, { len := 2, where_ := 0, kind := 1, check := segCheck (stripeTag s 0 0 1) b, body := b, blocks := [], st := 2, reads := 0, ecc := false })] } }

/-! ### Worked examples of the spec -/

/-- The slots of a class, those in `dead` disabled, of gain `g`. -/
def slotsOf (dead : List Nat) (g : Nat → Nat) : List CSlot :=
  (List.range 32).map fun j => { j := j, live := !dead.contains j, gain := g j }

/-- 02, the example under R31: slots 4 and 20 disabled, D = 203. -/
theorem test_redistribution :
    (slotsOf [4, 20] fun _ => 512).map (splitLevel (slotsOf [4, 20] fun _ => 512) 7 203) =
      [7, 7, 7, 6, 0, 7, 7, 6, 7, 7, 7, 6, 7, 7, 7, 6, 7, 7, 7, 6, 0, 7, 7, 6, 7, 7, 7, 7, 7, 7, 7, 6] := by decide +kernel

/-- 02, the example under R35: slot 16 of gain 540, slot 0 of gain 563. -/
theorem test_gain_trim :
    let l := slotsOf [] fun j => if j = 16 then 540 else if j = 0 then 563 else 512
    delivered l 7 203 16 = 7 ∧ delivered l 7 203 0 = 6 ∧ (l.map fun x => delivered l 7 203 x.j * x.gain).sum = 103926 := by
  decide +kernel

/-- 03, the example under R51: 3,200 and 1,000 units a micrometre at 10 nm, 1,000 at 16 nm. -/
theorem test_units : unitSteps 3200 1 1 = some 2 ∧ unitSteps 1000 1 1 = none ∧ unitSteps 1000 1 3 = some 1 := by decide +kernel

/-- 03, the example under R74: the flash rate that overflow allows. -/
theorem test_overflow_rate : fOvf 2000000 256000 278784 = 918273 := by decide +kernel

set_option maxRecDepth 100000 in
/-- 04, the example under R92: a short record of bin 3. -/
theorem test_record_bytes :
    Trap.bytes { cls := 5, y0 := 49608, y1 := 50240, xl0 := 6172, xr0 := 8192, xl1 := 6240, xr1 := 8192 } 3 =
      [0x14, 0x07, 0x06, 0x00, 0x80, 0x00, 0x18, 0x06, 0x00, 0x80, 0x00, 0x72, 0x00, 0xC0, 0x13, 0x00] := by decide +kernel

set_option maxRecDepth 100000 in
/-- 05, the example under R116: samples covered, node factors, interpolation, dose. -/
theorem test_pixel_dose :
    ((List.range 256).filter fun k =>
      Trap.covers { cls := 5, y0 := 49608, y1 := 50240, xl0 := 6172, xr0 := 8192, xl1 := 6240, xr1 := 8192 }
        (32 * 386 + 2 * (k % 16 : Nat) + 1) (32 * 3110 + 2 * (k / 16 : Nat) + 1)).length = 44 ∧
    nodeFactor [(3072, 16384)] = 14895 ∧ nodeFactor [(3072, 32768)] = 11703 ∧ interp 256 517 = (1, 640) ∧
    interp 256 5965 = (11, 42624) ∧ blend 640 42624 14895 14895 11703 11703 = 12819 ∧ finalDose 400 56320 12819 = 43 := by
  decide +kernel

/-- 06, the examples under R134 and R139: a tag, a segment of zeros, a busier one. -/
theorem test_segment_tag : segTag 7 1000000 7 1 3 0 = [0x07, 0x00, 0x40, 0x42, 0x0F, 0x17, 0x03, 0x00] := by decide +kernel

set_option maxRecDepth 100000 in
theorem test_segment_zeros : encodeSeg staticTable 1 (List.replicate 512 0) = (1, [0xD7, 0x3F]) := by decide +kernel

theorem test_segment_busy :
    encodeSeg staticTable 1 (List.replicate 200 0 ++ [43] ++ List.replicate 99 160 ++ [158] ++ List.replicate 211 0) =
      (1, [0xDF, 0xC7, 0x7F, 0xEA, 0x00, 0xF5, 0x15, 0x6E, 0xBE, 0xA3]) := by decide +kernel

theorem test_segment_read :
    decodeSeg staticTable 1 [0xDF, 0xC7, 0x7F, 0xEA, 0x00, 0xF5, 0x15, 0x6E, 0xBE, 0xA3] =
      some (List.replicate 200 0 ++ [43] ++ List.replicate 99 160 ++ [158] ++ List.replicate 211 0) := by decide +kernel

set_option maxRecDepth 1000000 in
/-- 08, the example under R195: the tag of the frame of row 7 at flash 1,000,112 of stripe 7. -/
theorem test_frame_tag :
    let s := { ready with seq := { ready.seq with stripe := 7 } }
    ((mkFrame s 1000112 7 [6] false).words.map fun w => (wordBytes w).take 8).take 2 =
      [[0x07, 0x00, 0xB0, 0x42, 0x0F, 0x00, 0x07, 0xA0], [0x06, 0, 0, 0, 0, 0, 0, 0]] := by decide +kernel

set_option maxRecDepth 100000 in
/-- 13, the example under R289: word 0 of a refused SCAN_HOME's completion. -/
theorem test_completion_bytes :
    (Completion.bytes ⟨0x0902, 0x31, 0x20, 0x8000, 3, 77, 0, 0, 0, []⟩).take 16 =
      [0x02, 0x09, 0x31, 0x00, 0x20, 0x00, 0x00, 0x80, 0x03, 0x00, 0x00, 0x00, 0x4D, 0x00, 0x00, 0x00] := by decide +kernel

/-- 17, the example under R392: the spill address of slot 123,911. -/
theorem test_hbm_location :
    hbmLoc 51527094208 = { bg := 1, bank := 0, col := 2, sid := 0, row := 16380, pc := 2 } := by decide +kernel

/-- 21, the example under R458: 5,127 pieces. -/
theorem test_pieces : (imageDesc (List.replicate 21000 0)).pieces = 6 ∧ (21000000 + 4095) / 4096 = 5127 := by decide +kernel

/-! ### Single steps -/

/-- The state after a command. -/
def after (i : Instr) (s : State) : State := match exec i s with | .next t => t | _ => s

/-- 12, the example under R286: mailbox 2 with its rings 4 and 5, entry 300 waiting; here the entry has an argument word too many. -/
def mailboxTwo : State :=
  let sub := { Ring.init 4 with base := 0x1040000000, cfg := 8 <<< 1, devIdx := 300, hostIdx := 301, st := 1, shadow := 0x80020 }
  let cpl := { Ring.init 5 with base := 0x1040008000, cfg := 8 <<< 1, devIdx := 300, hostIdx := 300, st := 1, shadow := 0x80028 }
  { ready with win := { ready.win with rings := (ready.win.rings.set 4 sub).set 5 cpl } }

theorem test_mailbox_two :
    let t := after (.devGetStatus { ask [0] with src := .mailbox 2, tag := 0x51 }) mailboxTwo
    (ring t 4).devIdx = 301 ∧ (ring t 5).devIdx = 301 ∧ Memory.reads t.hostMem 0x80028 2 = [0x2D, 0x01] ∧
    Memory.reads t.hostMem 0x1040009600 16 = [0x02, 0x01, 0x51, 0x00, 0x11, 0, 0, 0, 0x02, 0, 0, 0, 0x2C, 0x01, 0, 0] := by decide +kernel

/-- There, the doorbell values 556 and 558 of ring 4: 256 and 258 entries ahead. -/
theorem test_doorbell : (ring (after (.doorbellWrite 4 556) mailboxTwo) 4).hostIdx = 556 ∧
    (ring (after (.doorbellWrite 4 558) mailboxTwo) 4).hostIdx = 301 ∧
    (ring (after (.doorbellWrite 4 558) mailboxTwo) 4).dbBad = true := by decide +kernel

/-- 09, the worked example, steps 2 and 3: flash 1,000,112 fires 251 quarter nanoseconds after its sample. -/
def tracked (e : Int) : State :=
  { firing 5 with trk := { (firing 5).trk with
      st := .locked, active := some 0, banks := (firing 5).trk.banks.set 0 (some demoBank), f := 1000111, phi := 16779092951040,
      om := 3355443, e := e } }

set_option maxRecDepth 100000 in
theorem test_fire_event :
    (phaseSample (tracked (-2))).trk.fire = some (1000112, 251) ∧ (phaseSample (tracked (-2))).trk.phi = 16779092951040 + 3355443 := by
  decide +kernel

set_option maxRecDepth 100000 in
/-- Step 5: the stage jitters back, the next increment is 3,289,907. -/
theorem test_fire_back : (phaseSample (tracked (-67 * 65536))).trk.phi = 16779092951040 + 3289907 := by decide +kernel

/-- An entry with a reserved bit, in a mode the command does not run in, is BAD_ARG before BAD_STATE (13 R293). -/
theorem test_check_order :
    (after (.scanHome (ask [word [(127, 1, 1)], 0])) (inMode .standby)).out.filterMap
      (fun o => match o with | .completion _ c => some (c.status, c.reason) | _ => none) = [(0x0012, 0x8008)] := by decide +kernel

/-- The queue is first in, first out, and a step takes its front. -/
theorem test_queue : (match step { ready with pending := [.heartbeatTick, .spoReleaseTimeout] } with
    | .next t => (t.pending, t.win.heartbeat) | _ => ([], 0)) = ([.spoReleaseTimeout], ready.win.heartbeat + 1) := by decide +kernel

/-! ### Ill-formed commands -/

theorem wf_entry_long : Sys2Proof.Instr.wf (.devGetStatus { ask [] with argWords := 8 }) = false ∧
    Sys2Proof.Instr.wf (.devGetStatus { ask [] with argWords := 7 }) = true := by decide +kernel
theorem wf_entry_follow : Sys2Proof.Instr.wf (.cfgSet { ask [1] with follow := [0] }) = false ∧
    Sys2Proof.Instr.wf (.cfgSet { ask [1] with src := .service, follow := [0] }) = true := by decide +kernel
theorem wf_spore : Sys2Proof.Instr.wf (.hello 0 { helloOf 0 with words := 0 }) = false ∧ Sys2Proof.Instr.wf (.hello 0 (helloOf 0)) = true := by decide +kernel
theorem wf_message : Sys2Proof.Instr.wf (.status { (retMsg 0x27DD06BF000000000000000000010202 [0]) with body := List.replicate 16 0 }) = false ∧
    Sys2Proof.Instr.wf (.status (retMsg 0x27DD06BF000000000000000000010202 [0])) = true := by decide +kernel
theorem wf_register : Sys2Proof.Instr.wf (.registerWrite 0x1002 false 0) = false ∧ Sys2Proof.Instr.wf (.registerWrite 0x1004 true 0) = false ∧
    Sys2Proof.Instr.wf (.registerWrite 0x1004 false 0) = true := by decide +kernel
theorem wf_reserved_write : Sys2Proof.Instr.wf (.winReservedWrite 0 3) = false ∧ Sys2Proof.Instr.wf (.winReservedWrite 0 8) = true := by decide +kernel
theorem wf_stage_access : Sys2Proof.Instr.wf (.bar4Access 0 true 2 [1]) = false ∧ Sys2Proof.Instr.wf (.bar4Access 0 false 2 [1]) = false ∧
    Sys2Proof.Instr.wf (.bar4Access 0 true 0 []) = false ∧ Sys2Proof.Instr.wf (.bar4Access 0 true 1 [1]) = true := by decide +kernel
theorem wf_spill : Sys2Proof.Instr.wf (.spillWriteAck 139264) = false ∧ Sys2Proof.Instr.wf (.spillReadReturn 139264) = false ∧
    Sys2Proof.Instr.wf (.spillWriteAck 139263) = true := by decide +kernel
theorem wf_measured : Sys2Proof.Instr.wf (.calDone [⟨0, 4, 0, 0, 0⟩]) = false ∧ Sys2Proof.Instr.wf (.calDone [⟨1, 8, 0, 0, 0⟩]) = false ∧
    Sys2Proof.Instr.wf (.calDone [⟨2, 16, 0, 0, 0⟩]) = false ∧ Sys2Proof.Instr.wf (.calDone [⟨3, 80, 0, 0, 0⟩]) = false ∧
    Sys2Proof.Instr.wf (.calDone [⟨3, 79, 0, 0, 0⟩]) = true := by decide +kernel

/-! ### A command of each family has its effect -/

theorem test_decode_none : decodeTableWord 32 0 = none ∧ (State.reset.withFetchWord 32 0) = State.reset := ⟨rfl, rfl⟩

/-! ### States and operands that meet the hypotheses of the statements: one conjunct for each clause -/

theorem met_IdleStepCounts :
    (∃ (s : Machine.State), s.pending = []) := by
  refine ⟨ready, ?_⟩
  first | decide +kernel | rfl | exact Prod.ext (by decide +kernel) rfl

theorem met_BadEntriesAreAnsweredWaitingOnesKept :
    (∃ (i : Instr) (s : Machine.State) (c : Cmd) (e : Entry) (r : ℕ × ℕ), mailboxCommand s i = some (c, e, false) ∧
    sourceReady s e.src = true ∧ sourceSpace s e.src = true ∧ modeHolds s c = false ∧ c.judge e s = some r) ∧
    (∃ (i : Instr) (s : Machine.State) (c : Cmd) (e : Entry) (r : ℕ × ℕ), mailboxCommand s i = some (c, e, false) ∧
    sourceReady s e.src = true ∧ sourceSpace s e.src = true ∧ modeHolds s c = false ∧ c.judge e s = some r) ∧
    (∃ (i : Instr) (s : Machine.State) (c : Cmd) (e : Entry) (hold : Bool), mailboxCommand s i = some (c, e, hold) ∧
    (sourceReady s e.src = false ∨ sourceSpace s e.src = true ∧ (hold = true ∨ modeHolds s c = true))) ∧
    (∃ (i : Instr) (s : Machine.State) (c : Cmd) (e : Entry) (hold : Bool), mailboxCommand s i = some (c, e, hold) ∧
    (sourceReady s e.src = false ∨ sourceSpace s e.src = true ∧ (hold = true ∨ modeHolds s c = true))) := by
  refine ⟨?_, ?_, ?_, ?_⟩
  · refine ⟨.devGetStatus (ask [0]), ready, cmdDevGetStatus, ask [0], (stBadLength, 0), ?_⟩
    and_intros <;> first | decide +kernel | rfl | exact Prod.ext (by decide +kernel) rfl
  · refine ⟨.flowOpen (ask [0]), inMode .standby, cmdFlowOpen, ask [0], (stBadState, 0x8000), ?_⟩
    and_intros <;> first | decide +kernel | rfl | exact Prod.ext (by decide +kernel) rfl
  · refine ⟨.devGetStatus (ask []), State.reset, cmdDevGetStatus, ask [], false, ?_⟩
    and_intros <;> first | decide +kernel | rfl | exact Prod.ext (by decide +kernel) rfl
  · refine ⟨.flowOpen (ask [0]), { ready with pm := { ready.pm with changing := true, target := .standby } }, cmdFlowOpen, ask
  [0], false, ?_⟩
    and_intros <;> first | decide +kernel | rfl | exact Prod.ext (by decide +kernel) rfl

theorem met_ChecksComeInOrder :
    (∃ (c : Cmd) (e : Entry) (s : Machine.State), e.src = Src.service ∧ serviceServes c s = false) ∧
    (∃ (c : Cmd) (e : Entry) (s : Machine.State), (e.src ≠ Src.service ∨ serviceServes c s = true) ∧ e.argWords ≠
    c.masks.length) ∧
    (∃ (c : Cmd) (e : Entry) (s : Machine.State), (e.src ≠ Src.service ∨ serviceServes c s = true) ∧ e.argWords =
    c.masks.length ∧ e.rsv ≠ 0) ∧
    (∃ (c : Cmd) (e : Entry) (s : Machine.State), (e.src ≠ Src.service ∨ serviceServes c s = true) ∧ e.argWords =
    c.masks.length ∧ e.rsv = 0 ∧ argsOk c.masks e.args.toList = true ∧ s.pm.mode ∉ c.modes) ∧
    (∃ (c : Cmd) (e : Entry) (s : Machine.State), (e.src ≠ Src.service ∨ serviceServes c s = true) ∧ e.argWords =
    c.masks.length ∧ e.rsv = 0 ∧ argsOk c.masks e.args.toList = true ∧ s.pm.mode ∈ c.modes ∧ ∃ d ∈ c.needs, domOn s d = false)
    := by
  refine ⟨?_, ?_, ?_, ?_, ?_⟩
  · refine ⟨cmdFlowOpen, { ask [] with src := .service }, ready, ?_⟩
    and_intros <;> first | decide +kernel | rfl | exact Prod.ext (by decide +kernel) rfl
  · refine ⟨cmdFlowOpen, ask [], ready, ?_⟩
    and_intros <;> first | decide +kernel | rfl | exact Prod.ext (by decide +kernel) rfl
  · refine ⟨cmdFlowOpen, { ask [0] with rsv := 1 }, ready, ?_⟩
    and_intros <;> first | decide +kernel | rfl | exact Prod.ext (by decide +kernel) rfl
  · refine ⟨cmdFlowOpen, ask [0], inMode .standby, ?_⟩
    and_intros <;> first | decide +kernel | rfl | exact Prod.ext (by decide +kernel) rfl
  · refine ⟨cmdDmaChannelSetup, ask [0], { ready with pm := { ready.pm with held := .resetLow } }, ?_⟩
    and_intros <;> first | decide +kernel | rfl | exact Prod.ext (by decide +kernel) rfl

theorem met_StatusModesAndReadbackAreServed :
    (∃ (e : Entry) (s : Machine.State), Starts cmdDevIdentify e s) ∧
    (∃ (e : Entry) (s : Machine.State), Starts cmdDevGetStatus e s) ∧
    (∃ (e : Entry) (s : Machine.State) (m : Mode), Starts cmdDevSetMode e s ∧ s.pm.changing = false ∧ s.mb.running = [] ∧
    Mode.ofCode (bitsNat (Entry.arg e 0) 0 4) = some m ∧ m = s.pm.mode) ∧
    (∃ (e : Entry) (s : Machine.State) (m : Mode) (l : List ℕ), Starts cmdDevSetMode e s ∧ s.pm.changing = false ∧
    s.mb.running = [] ∧ Mode.ofCode (bitsNat (Entry.arg e 0) 0 4) = some m ∧ m ≠ s.pm.mode ∧ modePre s.pm.mode m = some l ∧ ∀
    r ∈ l, preHolds s m r = true) ∧
    (∃ (e : Entry) (s : Machine.State), Starts cmdDevReset e s ∧ resetBad s (bitsNat (Entry.arg e 0) 0 4) (bitsNat (Entry.arg
    e 0) 8 8) (bitAt (Entry.arg e 0) 16) = none) := by
  refine ⟨?_, ?_, ?_, ?_, ?_⟩
  · refine ⟨ask [], ready, ?_⟩
    first | decide +kernel | rfl | exact Prod.ext (by decide +kernel) rfl
  · refine ⟨ask [], inMode .hold, ?_⟩
    first | decide +kernel | rfl | exact Prod.ext (by decide +kernel) rfl
  · refine ⟨ask [2], ready, .ready, ?_⟩
    and_intros <;> first | decide +kernel | rfl | exact Prod.ext (by decide +kernel) rfl
  · refine ⟨ask [1], ready, .standby, [3, 8, 9], ?_⟩
    and_intros <;> first | decide +kernel | rfl | exact Prod.ext (by decide +kernel) rfl
  · refine ⟨ask [0xA504], ready, ?_⟩
    and_intros <;> first | decide +kernel | rfl | exact Prod.ext (by decide +kernel) rfl

theorem met_ConfigIsSetReadAndStored :
    (∃ (e : Entry) (s : Machine.State), Starts cmdCfgSet e s ∧ bitsNat (Entry.arg e 0) 0 16 ∈ [48, 65, 66, 67, 68, 69, 70, 71,
    80, 96, 97] ∧ cfgSetBad s (bitsNat (Entry.arg e 0) 0 16) (bitsNat (Entry.arg e 0) 16 8) (bitAt (Entry.arg e 0) 24)
    (Entry.arg e 1) = none) ∧
    (∃ (e : Entry) (s : Machine.State), Starts cmdCfgSet e s ∧ bitsNat (Entry.arg e 0) 0 16 ∈ [48, 65, 66, 67, 68, 69, 70, 71,
    80, 96, 97] ∧ cfgSetBad s (bitsNat (Entry.arg e 0) 0 16) (bitsNat (Entry.arg e 0) 16 8) (bitAt (Entry.arg e 0) 24)
    (Entry.arg e 1) = none) ∧
    (∃ (e : Entry) (s : Machine.State), Starts cmdCfgGet e s ∧ itemKnown (bitsNat (Entry.arg e 0) 0 16) (bitsNat (Entry.arg e
    0) 16 8) = true ∧ bitAt (Entry.arg e 0) 24 = false ∧ bitsNat (Entry.arg e 0) 0 16 ≠ 16) ∧
    (∃ (e : Entry) (s : Machine.State), Starts cmdCfgCommit e s) ∧
    (∃ (e : Entry) (s : Machine.State), Starts cmdCfgCommit e s) := by
  refine ⟨?_, ?_, ?_, ?_, ?_⟩
  · refine ⟨ask [0x60, 14], ready, ?_⟩
    and_intros <;> first | decide +kernel | rfl | exact Prod.ext (by decide +kernel) rfl
  · refine ⟨ask [0x30, 1], ready, ?_⟩
    and_intros <;> first | decide +kernel | rfl | exact Prod.ext (by decide +kernel) rfl
  · refine ⟨ask [0x60], ready, ?_⟩
    and_intros <;> first | decide +kernel | rfl | exact Prod.ext (by decide +kernel) rfl
  · refine ⟨ask [], ready, ?_⟩
    first | decide +kernel | rfl | exact Prod.ext (by decide +kernel) rfl
  · refine ⟨ask [], inMode .standby, ?_⟩
    first | decide +kernel | rfl | exact Prod.ext (by decide +kernel) rfl

theorem met_FlowsOpenTakeAndStartWork :
    (∃ (e : Entry) (s : Machine.State), objBusy s (flowObjs (argFlow e)) = false ∧ Starts cmdFlowOpen e s ∧ flowOpenBad s
    (argFlow e) (argSeq e) = none) ∧
    (∃ (e : Entry) (s : Machine.State), objBusy s (flowObjs (argFlow e)) = false ∧ Starts cmdFlowClose e s ∧ flowCloseBad s
    (argFlow e) = none) ∧
    (∃ (e : Entry) (s : Machine.State), objBusy s (flowObjs (argFlow e)) = false ∧ Starts cmdLedgerCheckpoint e s ∧ (flow s
    (argFlow e)).isOpen = true ∧ witnessOk s = true) ∧
    (∃ (e : Entry) (s : Machine.State) (u : Machine.State) (b : List Byte) (x : Submit), Starts cmdWorkSubmit e s ∧ objBusy s
    (itemObjs (argFlow e) (argSeq e)) = false ∧ stillSubmitted s (argFlow e) (argSeq e) = false ∧ submitStalls s e = false ∧
    readBuffer e (Entry.arg e 1) (fun (x : ℕ) => true) (consume e.src s) = (Except.ok b, u) ∧ x =
    { f := argFlow e, q := argSeq e, kind := bitsNat (Entry.arg e 0) 8 8, block := b } ∧ u.led.rebuilt = true ∧ (flow u
    x.f).isOpen = true ∧ (flow u x.f).owner = u.fab.node ∧ x.q = (flow u x.f).nextSeq ∧ plainChecks u x = none ∧ kindChecks
    x.kind u x.f x.block = none) ∧
    (∃ (s : Machine.State) (f : BitVec 8) (i : Item) (p : List Byte), running s = true ∧ s.led.rebuilt = true ∧ s.pm.mode ≠
    Mode.hold ∧ (flow s f).owner = s.fab.node ∧ headItem s f = some i ∧ i.params = some p ∧ i.st = ItemSt.accepted ∧ i.kind =
    1 ∧ domOn s Domain.ing = true ∧ (IngestJob.of i.flow p).sealed_ = false) := by
  refine ⟨?_, ?_, ?_, ?_, ?_⟩
  · refine ⟨ask [word [(0, 8, 255), (64, 64, 0xFFFFFFFFFFFFFFFE)]], withItems .ready [], ?_⟩
    and_intros <;> first | decide +kernel | rfl | exact Prod.ext (by decide +kernel) rfl
  · refine ⟨ask [3], withItems .ready [], ?_⟩
    and_intros <;> first | decide +kernel | rfl | exact Prod.ext (by decide +kernel) rfl
  · refine ⟨ask [word [(0, 8, 3), (64, 64, 9)]], withItems .ready [itemOf 6 .running calParams], ?_⟩
    and_intros <;> first | decide +kernel | rfl | exact Prod.ext (by decide +kernel) rfl
  · refine ⟨submitAsk, submitting, (readBuffer submitAsk (Entry.arg submitAsk 1) (fun _ => true) (consume (.mailbox 0)
  submitting)).2, calParams, { f := 3, q := 6, kind := 6, block := calParams }, ?_⟩
    and_intros <;> first | decide +kernel | rfl | exact Prod.ext (by decide +kernel) rfl
  · refine ⟨withItems .ready [itemOf 1 .accepted (List.replicate 128 0)], 3, itemOf 1 .accepted (List.replicate 128 0),
  List.replicate 128 0, ?_⟩
    and_intros <;> first | decide +kernel | rfl | exact Prod.ext (by decide +kernel) rfl

theorem met_FlowsOpenTakeAndStartWork_2 :
    (∃ (s : Machine.State) (f : BitVec 8) (i : Item) (p : List Byte), running s = true ∧ s.led.rebuilt = true ∧ s.pm.mode ≠
    Mode.hold ∧ (flow s f).owner = s.fab.node ∧ headItem s f = some i ∧ i.params = some p ∧ i.st = ItemSt.accepted ∧ i.kind =
    6 ∧ kindMode 6 s.pm.mode = true ∧ s.cal.st = 0) := by
  refine ⟨withItems .ready [itemOf 6 .accepted calParams], 3, itemOf 6 .accepted calParams, calParams, ?_⟩
  and_intros <;> first | decide +kernel | rfl | exact Prod.ext (by decide +kernel) rfl

theorem met_WorkAndLedgerAreReadAndMoved :
    (∃ (e : Entry) (s : Machine.State) (i : Item), seqUnknown s (argFlow e) (argSeq e) = false ∧ findItem s (argFlow e)
    (argSeq e) = some i ∧ Starts cmdWorkQuery e s ∧ objBusy s [(1, (argFlow e).toNat, (argSeq e).toNat)] = false) ∧
    (∃ (e : Entry) (s : Machine.State) (i : Item), seqUnknown s (argFlow e) (argSeq e) = false ∧ findItem s (argFlow e)
    (argSeq e) = some i ∧ Starts cmdWorkCancel e s ∧ objBusy s (itemObjs (argFlow e) (argSeq e)) = false ∧ i.st =
    ItemSt.accepted ∧ (flow s (argFlow e)).owner = s.fab.node) ∧
    (∃ (e : Entry) (s : Machine.State) (i : Item), seqUnknown s (argFlow e) (argSeq e) = false ∧ findItem s (argFlow e)
    (argSeq e) = some i ∧ Starts cmdWorkCancel e s ∧ objBusy s (itemObjs (argFlow e) (argSeq e)) = false ∧ i.live = false ∧
    i.st ≠ ItemSt.submitted) ∧
    (∃ (e : Entry) (s : Machine.State) (l : List WRec), Starts cmdLedgerRead e s ∧ bitsNat (Entry.arg e 1) 0 15 ≠ 0 ∧ bitsNat
    (Entry.arg e 1) 0 15 ≤ 16384 ∧ l = List.take (bitsNat (Entry.arg e 1) 0 15) (List.filter (fun (r : WRec) => decide (argSeq
    e ≤ r.seq)) (flowRecs s (argFlow e)))) ∧
    (∃ (e : Entry) (s : Machine.State) (node : BitVec 12) (stored : Bool), Starts cmdLedgerSetWitness e s ∧ ledgerWaits s =
    false ∧ witnessMayChange s = true ∧ newWitness s (Entry.arg e 0) (Entry.arg e 1) = Except.ok (WitnessKind.peer node) ∧
    copyRecs s (bitsOf (Entry.arg e 0) 64 32) ≠ []) := by
  refine ⟨?_, ?_, ?_, ?_, ?_⟩
  · refine ⟨ask [word [(0, 8, 3), (64, 64, 5)]], withItems .ready [itemOf 6 .running calParams], itemOf 6 .running calParams,
  ?_⟩
    and_intros <;> first | decide +kernel | rfl | exact Prod.ext (by decide +kernel) rfl
  · refine ⟨ask [word [(0, 8, 3), (64, 64, 5)]], withItems .ready [itemOf 6 .accepted calParams], itemOf 6 .accepted
  calParams, ?_⟩
    and_intros <;> first | decide +kernel | rfl | exact Prod.ext (by decide +kernel) rfl
  · refine ⟨ask [word [(0, 8, 3), (64, 64, 5)]], withItems .ready [itemOf 6 .done calParams], itemOf 6 .done calParams, ?_⟩
    and_intros <;> first | decide +kernel | rfl | exact Prod.ext (by decide +kernel) rfl
  · refine ⟨ask [word [(0, 8, 3), (64, 64, 5)], 16384], withItems .ready [itemOf 6 .done calParams], [], ?_⟩
    and_intros <;> first | decide +kernel | rfl | exact Prod.ext (by decide +kernel) rfl
  · refine ⟨ask [word [(0, 2, 1), (16, 12, 0x33), (64, 32, 2)], 0], withItems .ready [], 0x33, false, ?_⟩
    and_intros <;> first | decide +kernel | rfl | exact Prod.ext (by decide +kernel) rfl

theorem met_WitnessesAcknowledgeInTime :
    (∃ (s : Machine.State) (r : WRec) (rest : List WRec) (f : BitVec 8) (a : ℕ) (n : ℕ), s.diag.withhold = false ∧ s.led.lost
    = false ∧ s.led.witness = WitnessKind.region f a n ∧ s.led.unacked = r :: rest) ∧
    (∃ (s : Machine.State) (r : WRec) (rest : List WRec), True) ∧
    (∃ (s : Machine.State) (r : WRec) (rest : List WRec) (node : BitVec 12), s.led.lost = false ∧ s.led.witness =
    WitnessKind.peer node ∧ s.led.unacked = r :: rest) ∧
    (∃ (s : Machine.State) (r : WRec) (rest : List WRec), hasWitness s = true ∧ s.led.lost = false ∧ s.led.unacked = r ::
    rest) ∧
    (∃ (s : Machine.State) (r : WRec) (rest : List WRec), hasWitness s = true ∧ s.led.lost = true ∧ s.diag.withhold = false)
    := by
  refine ⟨?_, ?_, ?_, ?_, ?_⟩
  · refine ⟨owing (.region 3 0x4000 65536), demoRec, [], 3, 0x4000, 65536, ?_⟩
    and_intros <;> first | decide +kernel | rfl | exact Prod.ext (by decide +kernel) rfl
  · refine ⟨owing (.peer 0x22), demoRec, [], ?_⟩
    first | decide +kernel | rfl | exact Prod.ext (by decide +kernel) rfl
  · refine ⟨owing (.peer 0x22), demoRec, [], 0x22, ?_⟩
    and_intros <;> first | decide +kernel | rfl | exact Prod.ext (by decide +kernel) rfl
  · refine ⟨owing (.peer 0x22), demoRec, [], ?_⟩
    and_intros <;> first | decide +kernel | rfl | exact Prod.ext (by decide +kernel) rfl
  · refine ⟨{ owing (.peer 0x22) with led := { (owing (.peer 0x22)).led with lost := true } }, demoRec, [], ?_⟩
    and_intros <;> first | decide +kernel | rfl | exact Prod.ext (by decide +kernel) rfl

theorem met_WitnessesAcknowledgeInTime_2 :
    (∃ (s : Machine.State) (f : BitVec 8) (q : BitVec 64) (i : Item), running s = true ∧ s.seq.item = some (f, q) ∧ findItem s
    f q = some i ∧ i.st = ItemSt.running ∧ hasWitness s = true) ∧
    (∃ (s : Machine.State) (f : BitVec 8) (q : BitVec 64) (i : Item) (recs : List (BitVec 512)), running s = true ∧
    s.led.rebuilt = false ∧ hasWitness s = true) ∧
    (∃ (s : Machine.State) (f : BitVec 8) (q : BitVec 64) (i : Item), List.find? (fun (i : Item) => i.flow == f && i.st ==
    ItemSt.submitted) s.led.items = some i) := by
  refine ⟨?_, ?_, ?_⟩
  · refine ⟨{ withItems .expose [itemOf 4 .running []] with seq := { Seq.init with item := some (3, 5), h := 77 } }, 3, 5,
  itemOf 4 .running [], ?_⟩
    and_intros <;> first | decide +kernel | rfl | exact Prod.ext (by decide +kernel) rfl
  · refine ⟨{ owing (.peer 0x22) with led := { (owing (.peer 0x22)).led with rebuilt := false } }, 3, 5, itemOf 4 .running [],
  [0], ?_⟩
    and_intros <;> first | decide +kernel | rfl | exact Prod.ext (by decide +kernel) rfl
  · refine ⟨owing (.peer 0x22), 3, 5, itemOf 6 .submitted [], ?_⟩
    first | decide +kernel | rfl | exact Prod.ext (by decide +kernel) rfl

theorem met_IngestRunsToItsStream :
    (∃ (s : Machine.State) (f : BitVec 8) (r : IngestRun) (j : IngestJob) (x : OasisRec) (r1 : IngestRun), domOn s Domain.ing
    = true ∧ ingestOf s f = some r ∧ ingestJob s r = some j ∧ recordReady s r x.off = true ∧ indexRecord j.pitch x r =
    Except.ok r1 ∧ skipKind x.body = 0) ∧
    (∃ (s : Machine.State) (f : BitVec 8) (r : IngestRun) (j : IngestJob) (x : OasisRec) (reason : ℕ), domOn s Domain.ing =
    true ∧ ingestOf s f = some r ∧ ingestJob s r = some j ∧ recordReady s r x.off = true ∧ indexRecord j.pitch x r =
    Except.error reason) ∧
    (∃ (s : Machine.State) (f : BitVec 8) (r : IngestRun) (j : IngestJob) (steps : ℕ) (i : Item) (reason : ℕ) (off : ℕ),
    MemoryOk s ∧ domOn s Domain.ing = true ∧ ingestOf s f = some r ∧ ingestJob s r = some j ∧ r.s = some steps ∧ sourceRead s
    r j = true ∧ findItem s r.flow r.seq = some i ∧ i.live = true ∧ flattenJob j r = Except.error (reason, off)) ∧
    (∃ (s : Machine.State) (f : BitVec 8) (r : IngestRun) (j : IngestJob) (steps : ℕ) (i : Item) (shapes : List FShape) (ts :
    List Trap) (r1 : IngestRun) (s1 : Machine.State) (b : List Byte) (n : ℕ), MemoryOk s ∧ domOn s Domain.ing = true ∧
    ingestOf s f = some r ∧ ingestJob s r = some j ∧ r.s = some steps ∧ sourceRead s r j = true ∧ findItem s r.flow r.seq =
    some i ∧ i.live = true ∧ flattenJob j r = Except.ok shapes ∧ decompose (lmap s) j steps shapes [] (r, s) = (ts, r1, s1) ∧
    streamOf s1 j steps ts = (b, n) ∧ j.outCap < b.length) ∧
    (∃ (s : Machine.State) (f : BitVec 8) (r : IngestRun) (j : IngestJob) (steps : ℕ) (i : Item) (shapes : List FShape) (ts :
    List Trap) (r1 : IngestRun) (s1 : Machine.State) (b : List Byte) (n : ℕ), MemoryOk s ∧ domOn s Domain.ing = true ∧
    ingestOf s f = some r ∧ ingestJob s r = some j ∧ r.s = some steps ∧ sourceRead s r j = true ∧ findItem s r.flow r.seq =
    some i ∧ i.live = true ∧ flattenJob j r = Except.ok shapes ∧ decompose (lmap s) j steps shapes [] (r, s) = (ts, r1, s1) ∧
    streamOf s1 j steps ts = (b, n) ∧ b.length ≤ j.outCap ∧ j.out.space = 1) := by
  refine ⟨?_, ?_, ?_, ?_, ?_⟩
  · refine ⟨ingesting 4 0 (demoRun false []), 3, demoRun false [], IngestJob.of 3 (ingestParams 4 0),
  { off := 20, body := .cell [65] }, { demoRun false [{ name := [65], elems := [] }] with current := some [65] }, ?_⟩
    and_intros <;> first | decide +kernel | rfl | exact Prod.ext (by decide +kernel) rfl
  · refine ⟨ingesting 4 0 (demoRun false []), 3, demoRun false [], IngestJob.of 3 (ingestParams 4 0),
  { off := 20, body := .rejected }, 0x05, ?_⟩
    and_intros <;> first | decide +kernel | rfl | exact Prod.ext (by decide +kernel) rfl
  · refine ⟨ingesting 4 0 (demoRun true [lostCell]), 3, demoRun true [lostCell], IngestJob.of 3 (ingestParams 4 0), 16, itemOf
  1 .running (ingestParams 4 0), 0x0E, 77, ?_⟩
    unfold MemoryOk
    and_intros <;> first | decide +kernel | rfl | exact Prod.ext (by decide +kernel) rfl
  · refine ⟨emptyIngest 0, 3, demoRun true [{ name := [65], elems := [] }], IngestJob.of 3 (ingestParams 4 0), 16, itemOf 1
  .running (ingestParams 4 0), [], [], demoRun true [{ name := [65], elems := [] }], emptyIngest 0, (streamOf (emptyIngest 0)
  (IngestJob.of 3 (ingestParams 4 0)) 16 []).1, (streamOf (emptyIngest 0) (IngestJob.of 3 (ingestParams 4 0)) 16 []).2, ?_⟩
    unfold MemoryOk
    and_intros <;> first | decide +kernel | rfl | exact Prod.ext (by decide +kernel) rfl
  · refine ⟨emptyIngest 400, 3, demoRun true [{ name := [65], elems := [] }], IngestJob.of 3 (ingestParams 4 400), 16, itemOf
  1 .running (ingestParams 4 400), [], [], demoRun true [{ name := [65], elems := [] }], emptyIngest 400, emptyStream.1,
  emptyStream.2, ?_⟩
    unfold MemoryOk
    and_intros <;> first | decide +kernel | rfl | exact Prod.ext (by decide +kernel) rfl

set_option maxRecDepth 1000000 in
theorem met_CensusForecasts_bytes :
    (∃ (s : Machine.State) (f : BitVec 8) (r : CensusRun) (c : CensusJob) (h : SHdr) (ts : List (ℤ × Trap)), MemoryOk s ∧
    domOn s Domain.ing = true ∧ censusOf s f = some r ∧ censusJob s r = some c ∧ streamHdr s c.j = Except.ok h ∧ r.forecast =
    false ∧ s.cfg.act.segCode = 0 ∧ (mapGeo h c.dmargin).size ≤ c.dmapCap ∧ hbmFree c.dmap (mapGeo h c.dmargin).size = true ∧
    jobTraps s c.j h (List.range h.count) = Except.ok ts) ∧
    (∃ (s : Machine.State) (f : BitVec 8) (r : CensusRun) (c : CensusJob) (h : SHdr) (x : Strp) (bs : List (List Trap)) (l :
    List BinCast) (u : Machine.State), MemoryOk s ∧ domOn s Domain.ing = true ∧ censusOf s f = some r ∧ censusJob s r = some c
    ∧ streamHdr s c.j = Except.ok h ∧ r.forecast = true ∧ trialsDone r h.linesM1 = true ∧ stripeHdr s c.j h r.next = Except.ok
    x ∧ allBins s c.j x (List.range x.bins) = Except.ok bs ∧ l = binCasts c (binCounts x.linesM1 bs) (List.map (fun (b : ℕ) =>
    overflowOf c.margin (sigma138 (forecastCode s r).1 (forecastCode s r).2 r.values b)) (List.range x.bins)) ∧ jput c.j
    x.censusOff (censusBlock c x.num l) (writeCtab r.next x.num (forecastCode s r).1 s) = some u) := by
  refine ⟨?_, ?_⟩
  · refine ⟨censusing false, 3, { flow := 3, seq := 5, forecast := false, next := 0, values := [] }, CensusJob.of 3
  censusParams, demoHdr, [], ?_⟩
    unfold MemoryOk
    and_intros <;> first | decide +kernel | rfl | exact Prod.ext (by decide +kernel) rfl
  · refine ⟨censusing true, 3, { flow := 3, seq := 5, forecast := true, next := 0, values := [] }, CensusJob.of 3
  censusParams, demoHdr, { idx := 0, num := 0, off := 192, bins := 1, linesM1 := 0 }, [[]], binCasts (CensusJob.of 3
  censusParams) (binCounts 0 [[]]) ((List.range 1).map (fun b => (overflowOf 0 (sigma138 (forecastCode (censusing true)
  { flow := 3, seq := 5, forecast := true, next := 0, values := [] }).1 (forecastCode (censusing true)
  { flow := 3, seq := 5, forecast := true, next := 0, values := [] }).2 [] b)))), (jput (CensusJob.of 3 censusParams).j
  (Strp.censusOff { idx := 0, num := 0, off := 192, bins := 1, linesM1 := 0 }) (censusBlock (CensusJob.of 3 censusParams) 0
  (binCasts (CensusJob.of 3 censusParams) (binCounts 0 [[]]) ((List.range 1).map (fun b => (overflowOf 0 (sigma138
  (forecastCode (censusing true) { flow := 3, seq := 5, forecast := true, next := 0, values := [] }).1 (forecastCode
  (censusing true) { flow := 3, seq := 5, forecast := true, next := 0, values := [] }).2 [] b)))))) (censusing true)).getD
  State.reset, ?_⟩
    unfold MemoryOk
    and_intros <;> first | decide +kernel | rfl | exact Prod.ext (by decide +kernel) rfl

theorem met_RenderedLinesReachTheirPlace :
    (∃ (s : Machine.State) (n : ℕ) (x : Slot), slot s n = some x ∧ x.where_ = 2 ∧ domOn s Domain.store = true ∧ x.st = 1) ∧
    (∃ (s : Machine.State) (n : ℕ) (x : Slot), slot s n = some x ∧ x.where_ = 2 ∧ domOn s Domain.store = true ∧ x.st = 2 ∧
    s.store.spillReady.contains n = false) := by
  refine ⟨?_, ?_⟩
  · refine ⟨spilt 1, 139263,
  { len := 576, where_ := 2, kind := 0, check := 0, body := [], blocks := [], st := 1, reads := 0, ecc := false }, ?_⟩
    and_intros <;> first | decide +kernel | rfl | exact Prod.ext (by decide +kernel) rfl
  · refine ⟨spilt 2, 139263,
  { len := 576, where_ := 2, kind := 0, check := 0, body := [], blocks := [], st := 2, reads := 0, ecc := false }, ?_⟩
    and_intros <;> first | decide +kernel | rfl | exact Prod.ext (by decide +kernel) rfl

set_option maxRecDepth 1000000 in
theorem met_RenderedLinesReachTheirPlace_bytes :
    (∃ (s : Machine.State) (f : BitVec 8) (i : Item) (b : BinRun), domOn s Domain.rnd0 = true ∧ binOnFlow s f = some b ∧
    b.held = [] ∧ b.failed = 0 ∧ b.over s = true ∧ b.req = none ∧ findItem s b.flow b.seq = some i ∧ i.live = true) ∧
    (∃ (s : Machine.State) (f : BitVec 8) (i : Item) (r : CopyRun) (d : DescF) (u : Machine.State), copyOf s f = some r ∧ r.f
    s = some d ∧ d.alive s = true ∧ r.st = 0 ∧ d.move f.toNat r.done d.len s = some u ∧ findItem s f r.seq = some i ∧ i.live =
    true) := by
  refine ⟨?_, ?_⟩
  · refine ⟨binOver, 3, itemOf 3 .running demoBin.params, demoBin, ?_⟩
    and_intros <;> first | decide +kernel | rfl | exact Prod.ext (by decide +kernel) rfl
  · refine ⟨copying 0, 3, itemOf 5 .running (copyParams 3), demoCopy 0, DescF.of (copyParams 3), ((DescF.of (copyParams
  3)).move 3 0 3 (copying 0)).getD State.reset, ?_⟩
    and_intros <;> first | decide +kernel | rfl | exact Prod.ext (by decide +kernel) rfl

theorem met_StripesAreArmedAndFired :
    (∃ (s : Machine.State) (f : BitVec 8) (q : BitVec 64), armReady s = true ∧ s.seq.item = some (f, q)) ∧
    (∃ (s : Machine.State) (f : BitVec 8) (q : BitVec 64), armReady s = true ∧ s.seq.item = some (f, q)) ∧
    (∃ (s : Machine.State) (n : ℤ) (dt : ℕ), (s.seq.st = SeqSt.armed ∧ s.seq.f = s.seq.n0 - 1 ∨ s.seq.st = SeqSt.running) ∧ n
    = s.seq.f + 1 ∧ (n = s.seq.n0 ∨ curTmin s ≤ dt)) ∧
    (∃ (s : Machine.State) (n : ℤ) (dt : ℕ), (s.seq.st = SeqSt.armed ∧ s.seq.f = s.seq.n0 - 1 ∨ s.seq.st = SeqSt.running) ∧ n
    = s.seq.f + 1 ∧ (n = s.seq.n0 ∨ curTmin s ≤ dt)) ∧
    (∃ (s : Machine.State) (n : ℤ) (dt : ℕ), (s.seq.st = SeqSt.armed ∧ s.seq.f = s.seq.n0 - 1 ∨ s.seq.st = SeqSt.running) ∧
    ¬(n = s.seq.f + 1 ∧ (n = s.seq.n0 ∨ curTmin s ≤ dt))) := by
  refine ⟨?_, ?_, ?_, ?_, ?_⟩
  · refine ⟨arming (-16777216), 3, 5, ?_⟩
    and_intros <;> first | decide +kernel | rfl | exact Prod.ext (by decide +kernel) rfl
  · refine ⟨arming 0, 3, 5, ?_⟩
    and_intros <;> first | decide +kernel | rfl | exact Prod.ext (by decide +kernel) rfl
  · refine ⟨firing 8175, 8176, 100000, ?_⟩
    and_intros <;> first | decide +kernel | rfl | exact Prod.ext (by decide +kernel) rfl
  · refine ⟨{ exposing .armed with seq := { (exposing .armed).seq with f := -1 } }, 0, 0, ?_⟩
    and_intros <;> first | decide +kernel | rfl | exact Prod.ext (by decide +kernel) rfl
  · refine ⟨firing 5, 7, 100000, ?_⟩
    and_intros <;> first | decide +kernel | rfl | exact Prod.ext (by decide +kernel) rfl

theorem met_StripesAreArmedAndFired_2 :
    (∃ (s : Machine.State) (n : ℤ) (dt : ℕ), (s.seq.st = SeqSt.armed ∧ s.seq.f = s.seq.n0 - 1 ∨ s.seq.st = SeqSt.running) ∧
    ¬(n = s.seq.f + 1 ∧ (n = s.seq.n0 ∨ curTmin s ≤ dt))) := by
  refine ⟨firing 5, 6, 0, ?_⟩
  and_intros <;> first | decide +kernel | rfl | exact Prod.ext (by decide +kernel) rfl

theorem met_StrobesFollowFlashes :
    (∃ (s : Machine.State) (n : ℤ) (l : List ℤ), s.seq.fired = n :: l ∧ s.seq.wdLatch = false ∧ s.seq.gstrobe = false) ∧
    (∃ (s : Machine.State), s.seq.wdLatch = true) ∧
    (∃ (s : Machine.State), s.seq.gstrobe = true) ∧
    (∃ (s : Machine.State) (n : ℤ) (l : List ℤ), s.seq.fired = n :: l ∧ (s.seq.st = SeqSt.running ∨ s.seq.st = SeqSt.ending))
    ∧
    (∃ (s : Machine.State), s.seq.wdLatch = false) := by
  refine ⟨?_, ?_, ?_, ?_, ?_⟩
  · refine ⟨firing 4, 4, [], ?_⟩
    and_intros <;> first | decide +kernel | rfl | exact Prod.ext (by decide +kernel) rfl
  · refine ⟨cut, ?_⟩
    first | decide +kernel | rfl | exact Prod.ext (by decide +kernel) rfl
  · refine ⟨strobing, ?_⟩
    first | decide +kernel | rfl | exact Prod.ext (by decide +kernel) rfl
  · refine ⟨firing 4, 4, [], ?_⟩
    and_intros <;> first | decide +kernel | rfl | exact Prod.ext (by decide +kernel) rfl
  · refine ⟨strobing, ?_⟩
    first | decide +kernel | rfl | exact Prod.ext (by decide +kernel) rfl

theorem met_StopsSettleAndTemperaturesAreWatched :
    (∃ (s : Machine.State) (f : BitVec 8) (q : BitVec 64), s.seq.item = some (f, q) ∧ s.seq.st = SeqSt.ending) ∧
    (∃ (s : Machine.State) (f : BitVec 8) (q : BitVec 64), s.seq.item = some (f, q) ∧ s.seq.st = SeqSt.stopping) ∧
    (∃ (s : Machine.State) (x : Vector (BitVec 16) 16) (cool : Bool) (i : ℕ) (d : ℤ), hottest s x = (i, d)) ∧
    (∃ (s : Machine.State) (x : Vector (BitVec 16) 16) (cool : Bool) (i : ℕ) (d : ℤ), hottest s x = (i, d)) := by
  refine ⟨?_, ?_, ?_, ?_⟩
  · refine ⟨exposing .ending, 3, 5, ?_⟩
    and_intros <;> first | decide +kernel | rfl | exact Prod.ext (by decide +kernel) rfl
  · refine ⟨stopping .stopping 4 8176 8176, 3, 5, ?_⟩
    and_intros <;> first | decide +kernel | rfl | exact Prod.ext (by decide +kernel) rfl
  · refine ⟨firing 4, Vector.replicate 16 840, true, (hottest (firing 4) (Vector.replicate 16 840)).1, (hottest (firing 4)
  (Vector.replicate 16 840)).2, ?_⟩
    first | decide +kernel | rfl | exact Prod.ext (by decide +kernel) rfl
  · refine ⟨firing 4, Vector.replicate 16 720, true, (hottest (firing 4) (Vector.replicate 16 720)).1, (hottest (firing 4)
  (Vector.replicate 16 720)).2, ?_⟩
    first | decide +kernel | rfl | exact Prod.ext (by decide +kernel) rfl

set_option maxRecDepth 1000000 in
theorem met_StopsSettleAndTemperaturesAreWatched_bytes :
    (∃ (s : Machine.State) (f : BitVec 8) (q : BitVec 64), s.seq.item = some (f, q) ∧ s.seq.st = SeqSt.stopped ∧ resumeReady s
    = true ∧ s.seq.causes.contains 14 = false ∧ s.pm.mode = Mode.expose) := by
  refine ⟨stopping .stopped 12 6 6, 3, 5, ?_⟩
  and_intros <;> first | decide +kernel | rfl | exact Prod.ext (by decide +kernel) rfl

set_option maxRecDepth 1000000 in
theorem met_LinkTrains_bytes :
    (∃ (s : Machine.State) (m : RetMsg), domOn s Domain.seq = true ∧ s.link.st = LinkSt.down ∧ loopOnLink s = false) ∧
    (∃ (s : Machine.State) (m : RetMsg), domOn s Domain.seq = true ∧ s.link.st = LinkSt.locking ∧ MsgTaken 6 2 m s) := by
  refine ⟨?_, ?_⟩
  · refine ⟨linkIn .down [], retMsg 0xA453C78D000000000000000000010206 [0], ?_⟩
    and_intros <;> first | decide +kernel | rfl | exact Prod.ext (by decide +kernel) rfl
  · refine ⟨linkIn .locking [], retMsg 0xF05F4385FFFFFFFF0000000000010206 [0xFFFFFFFFFFFF], ?_⟩
    and_intros <;> first | (intro old h; cases h; done) | decide +kernel

set_option maxRecDepth 1000000 in
theorem met_LinkTrains_bytes_2 :
    (∃ (s : Machine.State) (m : RetMsg), domOn s Domain.seq = true ∧ s.link.st = LinkSt.locking ∧ s.link.trainSeen = true ∧
    (laneLock s 0 = true ∨ laneLock s 1 = true)) ∧
    (∃ (s : Machine.State) (m : RetMsg), domOn s Domain.seq = true ∧ s.link.st = LinkSt.locking ∧ s.link.trainSeen = true ∧
    (laneLock s 0 = true ∨ laneLock s 1 = true)) := by
  refine ⟨?_, ?_⟩
  · refine ⟨{ linkIn .locking [] with link := { (linkIn .locking []).link with trainSeen := true } }, retMsg
  0xA453C78D000000000000000000010206 [0], ?_⟩
    and_intros <;> first | decide +kernel | rfl | exact Prod.ext (by decide +kernel) rfl
  · refine ⟨{ linkIn .locking [] with link := { (linkIn .locking []).link with trainSeen := true, locks := -2 } }, retMsg
  0xA453C78D000000000000000000010206 [0], ?_⟩
    and_intros <;> first | decide +kernel | rfl | exact Prod.ext (by decide +kernel) rfl

set_option maxRecDepth 1000000 in
theorem met_LinkTrains_bytes_3 :
    (∃ (s : Machine.State) (m : RetMsg), domOn s Domain.seq = true ∧ s.link.st = LinkSt.locking ∧ s.link.trainSeen = false) ∧
    (∃ (s : Machine.State) (m : RetMsg), domOn s Domain.seq = true ∧ s.link.st = LinkSt.degraded) := by
  refine ⟨?_, ?_⟩
  · refine ⟨linkIn .locking [], retMsg 0xA453C78D000000000000000000010206 [0], ?_⟩
    and_intros <;> first | decide +kernel | rfl | exact Prod.ext (by decide +kernel) rfl
  · refine ⟨linkIn .degraded [], retMsg 0xA453C78D000000000000000000010206 [0], ?_⟩
    and_intros <;> first | decide +kernel | rfl | exact Prod.ext (by decide +kernel) rfl

set_option maxRecDepth 1000000 in
theorem met_ControlFramesAwaitTheirAnswer_bytes :
    (∃ (s : Machine.State) (x : Ctrl) (l : List Ctrl) (m : RetMsg), domOn s Domain.seq = true ∧ s.link.out = x :: l ∧ x.sends
    < 8) ∧
    (∃ (s : Machine.State) (x : Ctrl) (l : List Ctrl) (m : RetMsg), domOn s Domain.seq = true ∧ s.link.out = x :: l ∧ 8 ≤
    x.sends ∧ s.link.st ≠ LinkSt.down) := by
  refine ⟨?_, ?_⟩
  · refine ⟨linkIn .trained [frame 5 7], frame 5 7, [], retMsg 0x5A676C0D000000080000000000010204 [0], ?_⟩
    and_intros <;> first | decide +kernel | rfl | exact Prod.ext (by decide +kernel) rfl
  · refine ⟨linkIn .trained [frame 5 8], frame 5 8, [], retMsg 0x5A676C0D000000080000000000010204 [0], ?_⟩
    and_intros <;> first | decide +kernel | rfl | exact Prod.ext (by decide +kernel) rfl

set_option maxRecDepth 1000000 in
theorem met_ControlFramesAwaitTheirAnswer_bytes_2 :
    (∃ (s : Machine.State) (x : Ctrl) (l : List Ctrl) (m : RetMsg), domOn s Domain.seq = true ∧ MsgTaken 4 2 m s ∧ bitsNat
    m.word0 64 32 < s.link.cseq.toNat ∧ List.find? (fun (x : Ctrl) => x.cseq == bitsOf m.word0 64 32) s.link.out = some x ∧
    x.op = 5) ∧
    (∃ (s : Machine.State) (x : Ctrl) (l : List Ctrl) (m : RetMsg), domOn s Domain.seq = true ∧ MsgTaken 4 2 m s ∧ bitsNat
    m.word0 64 32 < s.link.cseq.toNat ∧ List.find? (fun (x : Ctrl) => x.cseq == bitsOf m.word0 64 32) s.link.out = some x ∧
    x.op = 4 ∧ s.seq.st.active = true ∧ bitsNat (msgW1 m) 0 16 = stOk) := by
  refine ⟨?_, ?_⟩
  · refine ⟨linkIn .trained [frame 5 1], frame 5 1, [], retMsg 0x5A676C0D000000080000000000010204 [0], ?_⟩
    and_intros <;> first | (intro old h; cases h; done) | decide +kernel
  · refine ⟨{ exposing .armed with link := { (exposing .armed).link with out := [frame 4 1] } }, frame 4 1, [], retMsg
  0x8EF826AF000000080000000000010204 [0xFFFFFFFF00000000], ?_⟩
    and_intros <;> first | (intro old h; cases h; done) | decide +kernel

set_option maxRecDepth 1000000 in
theorem met_ControlFramesAwaitTheirAnswer_bytes_3 :
    (∃ (s : Machine.State) (x : Ctrl) (l : List Ctrl) (m : RetMsg), domOn s Domain.seq = true ∧ MsgTaken 4 2 m s ∧ bitsNat
    m.word0 64 32 < s.link.cseq.toNat ∧ List.find? (fun (x : Ctrl) => x.cseq == bitsOf m.word0 64 32) s.link.out = some x ∧
    x.op = 1 ∧ bitsNat (msgW1 m) 0 16 = stOk ∧ s.link.st = LinkSt.mapping) ∧
    (∃ (s : Machine.State) (x : Ctrl) (l : List Ctrl) (m : RetMsg), domOn s Domain.seq = true ∧ MsgTaken 4 2 m s ∧
    s.link.cseq.toNat ≤ bitsNat m.word0 64 32) := by
  refine ⟨?_, ?_⟩
  · refine ⟨linkIn .mapping [frame 1 1], frame 1 1, [], retMsg 0x5A676C0D000000080000000000010204 [0], ?_⟩
    and_intros <;> first | (intro old h; cases h; done) | decide +kernel
  · refine ⟨linkIn .trained [frame 5 1], frame 5 1, [], retMsg 0x6D249BB0000000090000000000010204 [0], ?_⟩
    and_intros <;> first | (intro old h; cases h; done) | decide +kernel

set_option maxRecDepth 1000000 in
theorem met_FlashAcksAndReportsAreHeeded_bytes :
    (∃ (s : Machine.State) (m : RetMsg) (h : ℤ), MsgTaken 1 6 m s ∧ s.link.held = true ∧ strobedFlash s (msgStripe m)
    (msgValue m) = true ∧ h = signedNat 32 (bitsNat (msgW1 m) 0 32) ∧ s.seq.opened = true ∧ s.seq.h ≤ h ∧ bitAt (msgW1 m) 32 =
    true ∧ 512 ≤ bitsNat (msgW1 m) 33 10 ∧ s.seq.st = SeqSt.running) ∧
    (∃ (s : Machine.State) (m : RetMsg) (h : ℤ) (f : BitVec 8) (q : BitVec 64) (i : Item), MsgTaken 1 6 m s ∧ s.link.held =
    true ∧ strobedFlash s (msgStripe m) (msgValue m) = true ∧ h = signedNat 32 (bitsNat (msgW1 m) 0 32) ∧ s.seq.opened = true
    ∧ s.seq.h ≤ h ∧ bitAt (msgW1 m) 32 = true ∧ 512 ≤ bitsNat (msgW1 m) 33 10 ∧ s.seq.st = SeqSt.ending ∧ h = s.seq.nLast ∧
    s.seq.item = some (f, q) ∧ findItem s f q = some i ∧ i.live = true) := by
  refine ⟨?_, ?_⟩
  · refine ⟨firing 5, retMsg 0x9B73C574000000040000000000010601 [0x40100000004, 0, 0, 0, 0], 4, ?_⟩
    and_intros <;> first | (intro old h; cases h; done) | decide +kernel
  · refine ⟨{ exposing .ending with seq := { (exposing .ending).seq with f := 8176, strobed := 8176 } }, retMsg
  0x140E15FA00001FF00000000000010601 [0x40100001FF0, 0, 0, 0, 0], 8176, 3, 5, itemOf 4 .running stripeParams, ?_⟩
    and_intros <;> first | (intro old h; cases h; done) | decide +kernel

set_option maxRecDepth 1000000 in
theorem met_FlashAcksAndReportsAreHeeded_bytes_2 :
    (∃ (s : Machine.State) (m : RetMsg) (h : ℤ), MsgTaken 1 6 m s ∧ s.link.held = true ∧ strobedFlash s (msgStripe m)
    (msgValue m) = true ∧ h = signedNat 32 (bitsNat (msgW1 m) 0 32) ∧ s.seq.opened = true ∧ s.seq.h ≤ h ∧ bitAt (msgW1 m) 32 =
    false ∧ s.seq.st = SeqSt.running) ∧
    (∃ (s : Machine.State) (m : RetMsg), MsgTaken 2 2 m s) := by
  refine ⟨?_, ?_⟩
  · refine ⟨firing 5, retMsg 0x124C5D89000000040000000000010601 [3, 0, 0, 0, 0], 3, ?_⟩
    and_intros <;> first | (intro old h; cases h; done) | decide +kernel
  · refine ⟨firing 5, retMsg 0x9075D1E3000000040000000000010202 [0x3FFFF00000000FFFFFFFF00020400], ?_⟩
    and_intros <;> first | (intro old h; cases h; done) | decide +kernel

set_option maxRecDepth 1000000 in
theorem met_FlashAcksAndReportsAreHeeded_bytes_3 :
    (∃ (s : Machine.State) (m : RetMsg) (p : ℕ), MsgTaken 3 2 m s ∧ physOf s (bitsNat (msgW1 m) 8 8) = some p ∧ (bitsNat
    (msgW1 m) 0 8 = 4 ∨ bitsNat (msgW1 m) 0 8 = 5)) ∧
    (∃ (s : Machine.State) (m : RetMsg), domOn s Domain.seq = true ∧ s.link.st ≠ LinkSt.down ∧ s.link.rlane = 0 ∧ laneLock s 1
    = true) := by
  refine ⟨?_, ?_⟩
  · refine ⟨linkIn .trained [], retMsg 0xBCE7B6AF000000000000000000010203 [0x4B05], 75, ?_⟩
    and_intros <;> first | (intro old h; cases h; done) | decide +kernel
  · refine ⟨linkIn .trained [], retMsg 0x85C88D8B000000000000000000010203 [0], ?_⟩
    and_intros <;> first | decide +kernel | rfl | exact Prod.ext (by decide +kernel) rfl

set_option maxRecDepth 1000000 in
theorem met_FlashAcksAndReportsAreHeeded_bytes_4 :
    (∃ (s : Machine.State) (m : RetMsg), domOn s Domain.seq = true ∧ s.link.st = LinkSt.trained) := by
  refine ⟨linkIn .trained [], retMsg 0x85C88D8B000000000000000000010203 [0], ?_⟩
  and_intros <;> first | decide +kernel | rfl | exact Prod.ext (by decide +kernel) rfl

set_option maxRecDepth 1000000 in
theorem met_PortsAreClaimedAndLost_bytes :
    (∃ (s : Machine.State) (m : RetMsg) (sb : ℕ), sb = bitsNat (msgW1 m) 16 16 ∧ MsgTaken 5 2 m s ∧ bitsNat (msgW1 m) 0 2 = 1
    ∧ s.link.claim.isSome = true ∧ s.fab.pair.takeover = false ∧ s.fab.pair.st ≠ PairSt.handingOver) ∧
    (∃ (s : Machine.State) (m : RetMsg) (sb : ℕ), sb = bitsNat (msgW1 m) 16 16 ∧ MsgTaken 5 2 m s ∧ bitsNat (msgW1 m) 0 2 = 1
    ∧ s.link.claim = none) := by
  refine ⟨?_, ?_⟩
  · refine ⟨{ linkIn .trained [] with link := { (linkIn .trained []).link with claim := some false } }, retMsg
  0x3146E7ED000000070000000000010205 [1], 0, ?_⟩
    and_intros <;> first | (intro old h; cases h; done) | decide +kernel
  · refine ⟨linkIn .trained [], retMsg 0x3146E7ED000000070000000000010205 [1], 0, ?_⟩
    and_intros <;> first | (intro old h; cases h; done) | decide +kernel

set_option maxRecDepth 1000000 in
theorem met_PortsAreClaimedAndLost_bytes_2 :
    (∃ (s : Machine.State) (m : RetMsg) (sb : ℕ), sb = bitsNat (msgW1 m) 16 16 ∧ MsgTaken 5 2 m s ∧ bitsNat (msgW1 m) 0 2 = 2
    ∧ s.fab.pair.st = PairSt.unpaired) ∧
    (∃ (s : Machine.State) (m : RetMsg) (sb : ℕ), sb = bitsNat (msgW1 m) 16 16 ∧ s.pm.changing = true ∧ s.pm.claimWait = true
    ∧ s.pm.target = Mode.expose ∧ s.link.held = false ∧ s.link.st ≠ LinkSt.down) := by
  refine ⟨?_, ?_⟩
  · refine ⟨firing 5, retMsg 0x19307CC000000070000000000010205 [0xFFFF0002], 65535, ?_⟩
    and_intros <;> first | (intro old h; cases h; done) | decide +kernel
  · refine
  ⟨{ linkIn .trained [] with pm := { (linkIn .trained []).pm with changing := true, claimWait := true, target := .expose } },
  retMsg 0x3146E7ED000000070000000000010205 [1], 0, ?_⟩
    and_intros <;> first | decide +kernel | rfl | exact Prod.ext (by decide +kernel) rfl

theorem met_ChannelsBanksAndArming :
    (∃ (s : Machine.State) (c : Fin 4) (up : Bool), domOn s Domain.trk = true ∧ posMode s.cfg.act.posCfg[c] = 1) ∧
    (∃ (s : Machine.State) (c : Fin 4) (up : Bool), domOn s Domain.trk = true ∧ posMode s.cfg.act.posCfg[c] = 1) ∧
    (∃ (s : Machine.State) (c : Fin 4), domOn s Domain.trk = true ∧ posMode s.cfg.act.posCfg[c] = 1) ∧
    (∃ (s : Machine.State) (c : Fin 4) (f : BitVec 80), domOn s Domain.trk = true ∧ posMode s.cfg.act.posCfg[c] = 2 ∧ injected
    6 (fun (p : BitVec 32) => p.toNat == (↑c : ℕ)) s = (false, s) ∧ frameBad f = none) ∧
    (∃ (s : Machine.State) (c : Fin 4) (f : BitVec 80) (why : ℕ), domOn s Domain.trk = true ∧ posMode s.cfg.act.posCfg[c] = 2
    ∧ injected 6 (fun (p : BitVec 32) => p.toNat == (↑c : ℕ)) s = (false, s) ∧ frameBad f = some why ∧ s.trk.ch[c].bad < 2) :=
    by
  refine ⟨?_, ?_, ?_, ?_, ?_⟩
  · refine ⟨tracking 1 .off, 0, true, ?_⟩
    and_intros <;> first | decide +kernel | rfl | exact Prod.ext (by decide +kernel) rfl
  · refine ⟨tracking 1 .off, 0, false, ?_⟩
    and_intros <;> first | decide +kernel | rfl | exact Prod.ext (by decide +kernel) rfl
  · refine ⟨tracking 1 .off, 0, ?_⟩
    and_intros <;> first | decide +kernel | rfl | exact Prod.ext (by decide +kernel) rfl
  · refine ⟨tracking 2 .off, 0, 0xEB01FFFFFFFFFFFF01B5, ?_⟩
    and_intros <;> first | decide +kernel | rfl | exact Prod.ext (by decide +kernel) rfl
  · refine ⟨tracking 2 .off, 0, 0, 1, ?_⟩
    and_intros <;> first | decide +kernel | rfl | exact Prod.ext (by decide +kernel) rfl

theorem met_ChannelsBanksAndArming_2 :
    (∃ (e : Entry) (s : Machine.State) (bank : Fin 2), (bank = if bitAt (Entry.arg e 1) 0 = true then 1 else 0) ∧ Starts
    cmdTrackArm e s ∧ stripeFires s = false ∧ bitAt (Entry.arg e 0) 0 = true ∧ armOk s = true ∧ s.trk.st ≠ TrkSt.acquiring) ∧
    (∃ (e : Entry) (s : Machine.State) (bank : Fin 2), (bank = if bitAt (Entry.arg e 1) 0 = true then 1 else 0) ∧ Starts
    cmdTrackArm e s ∧ stripeFires s = false ∧ bitAt (Entry.arg e 0) 0 = false) := by
  refine ⟨?_, ?_⟩
  · refine ⟨ask [1], tracking 1 .off, 0, ?_⟩
    and_intros <;> first | decide +kernel | rfl | exact Prod.ext (by decide +kernel) rfl
  · refine ⟨ask [0], tracking 1 .locked, 0, ?_⟩
    and_intros <;> first | decide +kernel | rfl | exact Prod.ext (by decide +kernel) rfl

set_option maxRecDepth 1000000 in
theorem met_ChannelsBanksAndArming_bytes :
    (∃ (e : Entry) (s : Machine.State) (bank : Fin 2) (b : List Byte) (u : Machine.State) (n : ℕ), (bank = if bitAt (Entry.arg
    e 1) 0 = true then 1 else 0) ∧ Starts cmdTrackSetCoeffs e s ∧ objBusy s [(4, 0, 0), (4, 1, 0)] = false ∧ bitAt (Entry.arg
    e 1) 2 = false ∧ s.trk.active ≠ some (↑bank : ℕ) ∧ readBuffer e (Entry.arg e 0) (fun (n : ℕ) => n == 1040) (consume e.src
    s) = (Except.ok b, u) ∧ bankBad b = some n) := by
  refine ⟨bankAsk 1, { banking with hostMem := [] }, 1, List.replicate 1040 0, consume (.mailbox 0)
  { banking with hostMem := [] }, 1, ?_⟩
  and_intros <;> first | decide +kernel | rfl | exact Prod.ext (by decide +kernel) rfl

theorem met_PhaseIsKeptAndFaultsTrip :
    (∃ (s : Machine.State) (c : Fin 4), domOn s Domain.trk = true ∧ posMode s.cfg.act.posCfg[c] = 1 ∧ engineOn s = true ∧
    roleInUse s c = true) ∧
    (∃ (s : Machine.State) (c : Fin 4), domOn s Domain.trk = true ∧ posMode s.cfg.act.posCfg[c] = 1 ∧ (engineOn s && roleInUse
    s c) = false) ∧
    (∃ (s : Machine.State) (c : Fin 4), domOn s Domain.trk = true ∧ posMode s.cfg.act.posCfg[c] = 2 ∧ engineOn s = true ∧
    roleInUse s c = true) ∧
    (∃ (s : Machine.State) (c : Fin 4), domOn s Domain.trk = true ∧ posMode s.cfg.act.posCfg[c] = 2 ∧ (engineOn s && roleInUse
    s c) = false) ∧
    (∃ (s : Machine.State) (c : Fin 4), domOn s Domain.trk = true ∧ s.trk.st = TrkSt.acquiring) := by
  refine ⟨?_, ?_, ?_, ?_, ?_⟩
  · refine ⟨tracking 1 .locked, 0, ?_⟩
    and_intros <;> first | decide +kernel | rfl | exact Prod.ext (by decide +kernel) rfl
  · refine ⟨tracking 1 .off, 0, ?_⟩
    and_intros <;> first | decide +kernel | rfl | exact Prod.ext (by decide +kernel) rfl
  · refine ⟨tracking 2 .acquiring, 0, ?_⟩
    and_intros <;> first | decide +kernel | rfl | exact Prod.ext (by decide +kernel) rfl
  · refine ⟨tracking 2 .off, 0, ?_⟩
    and_intros <;> first | decide +kernel | rfl | exact Prod.ext (by decide +kernel) rfl
  · refine ⟨tracking 1 .acquiring, 0, ?_⟩
    and_intros <;> first | decide +kernel | rfl | exact Prod.ext (by decide +kernel) rfl

theorem met_PhaseIsKeptAndFaultsTrip_2 :
    (∃ (s : Machine.State), domOn s Domain.trk = true) ∧
    (∃ (s : Machine.State), domOn s Domain.trk = true) := by
  refine ⟨?_, ?_⟩
  · refine ⟨tracking 1 .locked, ?_⟩
    first | decide +kernel | rfl | exact Prod.ext (by decide +kernel) rfl
  · refine
  ⟨{ firing 5 with trk := { (firing 5).trk with st := .locked, swap := some 1, f := 3, phi := 4*2^24 - 1, step := 1 } }, ?_⟩
    first | decide +kernel | rfl | exact Prod.ext (by decide +kernel) rfl

theorem met_TheStageIsMovedAsCommanded :
    (∃ (s : Machine.State), s.scan.faultFrames = 0 ∧ s.scan.st ≠ GenSt.released ∧ domOn s Domain.trk = true) ∧
    (∃ (s : Machine.State), s.scan.faultFrames = 0 ∧ s.scan.st ≠ GenSt.released ∧ domOn s Domain.trk = true) ∧
    (∃ (s : Machine.State), s.scan.faultFrames = 0 ∧ s.scan.st = GenSt.idle ∧ s.pm.mode ≠ Mode.expose ∧ s.scan.target = none ∧
    s.scan.homing = none) ∧
    (∃ (s : Machine.State), s.scan.faultFrames = 0 ∧ domOn s Domain.trk = true ∧ s.scan.st = GenSt.moving ∧ toTarget s =
    false) ∧
    (∃ (s : Machine.State) (h : Homing), s.scan.faultFrames = 0 ∧ domOn s Domain.trk = true ∧ s.scan.st = GenSt.homing ∧
    s.scan.homing = some h ∧ h.phase = 2) := by
  refine ⟨?_, ?_, ?_, ?_, ?_⟩
  · refine ⟨staged .idle, ?_⟩
    and_intros <;> first | decide +kernel | rfl | exact Prod.ext (by decide +kernel) rfl
  · refine ⟨{ staged .moving with scan := { (staged .moving).scan with move := some ⟨[1], 5⟩ } }, ?_⟩
    and_intros <;> first | decide +kernel | rfl | exact Prod.ext (by decide +kernel) rfl
  · refine ⟨staged .idle, ?_⟩
    and_intros <;> first | decide +kernel | rfl | exact Prod.ext (by decide +kernel) rfl
  · refine ⟨{ staged .moving with scan := { (staged .moving).scan with move := some ⟨[1], 5⟩ } }, ?_⟩
    and_intros <;> first | decide +kernel | rfl | exact Prod.ext (by decide +kernel) rfl
  · refine ⟨{ staged .homing with scan := { (staged .homing).scan with homing := some (demoSearch 2) } }, demoSearch 2, ?_⟩
    and_intros <;> first | decide +kernel | rfl | exact Prod.ext (by decide +kernel) rfl

theorem met_TheStageIsMovedAsCommanded_2 :
    (∃ (s : Machine.State) (h : Homing), s.scan.faultFrames = 0 ∧ s.scan.st = GenSt.homing ∧ s.scan.homing = some h ∧ h.phase
    = 0) ∧
    (∃ (e : Entry) (s : Machine.State) (p : ℤ), Starts cmdScanHome e s ∧ homeHold e s = false ∧ isSearch e = false ∧ p =
    signedNat 48 (bitsNat (Entry.arg e 1) 0 48)) ∧
    (∃ (e : Entry) (s : Machine.State) (h : Homing), Starts cmdScanHome e s ∧ homeHold e s = false ∧ isSearch e = true ∧
    Entry.arg e 1 = 0 ∧ h = searchOf e ∧ s.scan.profile.isSome = true ∧ scanQuadrature s = true ∧ 10 ≤ h.speed ∧ h.speed ≤
    profV (profileBytes s) ∧ 1 ≤ h.travel ∧ h.travel ≤ 2 ^ 31 ∧ searchForbidden h s = false ∧ s.scan.st = GenSt.idle) ∧
    (∃ (e : Entry) (s : Machine.State), Starts cmdScanSetProfile e s ∧ profileBad (leBytes 64 (profileOf e).toNat) = none ∧
    (s.scan.st = GenSt.idle ∨ s.scan.st = GenSt.released)) ∧
    (∃ (e : Entry) (s : Machine.State) (n : ℕ), Starts cmdScanSetProfile e s ∧ profileBad (leBytes 64 (profileOf e).toNat) =
    some n) := by
  refine ⟨?_, ?_, ?_, ?_, ?_⟩
  · refine ⟨{ staged .homing with scan := { (staged .homing).scan with homing := some (demoSearch 0) } }, demoSearch 0, ?_⟩
    and_intros <;> first | decide +kernel | rfl | exact Prod.ext (by decide +kernel) rfl
  · refine ⟨ask [0, word [(0, 48, 2 ^ 48 - 1)]], staged .idle, -1, ?_⟩
    and_intros <;> first | decide +kernel | rfl | exact Prod.ext (by decide +kernel) rfl
  · refine ⟨ask [word [(0, 1, 1), (32, 32, 10), (64, 32, 2 ^ 31)], 0], staged .idle, demoSearch 4 |> fun h =>
  { h with index := 0 }, ?_⟩
    and_intros <;> first | decide +kernel | rfl | exact Prod.ext (by decide +kernel) rfl
  · refine ⟨profileAsk, staged .idle, ?_⟩
    and_intros <;> first | decide +kernel | rfl | exact Prod.ext (by decide +kernel) rfl
  · refine ⟨ask [1, 0, 0, 0], staged .idle, 1, ?_⟩
    and_intros <;> first | decide +kernel | rfl | exact Prod.ext (by decide +kernel) rfl

theorem met_TheStageIsMovedAsCommanded_3 :
    (∃ (e : Entry) (s : Machine.State), Starts cmdScanStop e s ∧ bitAt (Entry.arg e 0) 0 = false) := by
  refine ⟨ask [0], { firing 4 with scan := { (staged .moving).scan with st := .moving } }, ?_⟩
  and_intros <;> first | decide +kernel | rfl | exact Prod.ext (by decide +kernel) rfl

theorem met_InterlocksStopTheStripeUntilCleared :
    (∃ (e : Entry) (s : Machine.State), Starts cmdIlkConfigure e s ∧ ilkRefused e s = none) ∧
    (∃ (e : Entry) (s : Machine.State) (r : ℕ × ℕ), Starts cmdIlkConfigure e s ∧ ilkRefused e s = some r) ∧
    (∃ (e : Entry) (s : Machine.State) (steady : BitVec 8), Starts cmdIlkClear e s ∧ clearBlocked (bitsNat (Entry.arg e 0) 0
    9) steady s = 0) ∧
    (∃ (e : Entry) (s : Machine.State) (steady : BitVec 8), Starts cmdIlkClear e s ∧ clearBlocked (bitsNat (Entry.arg e 0) 0
    9) steady s ≠ 0) ∧
    (∃ (s : Machine.State) (i : Fin 8) (ft : BitVec 32) (lt : BitVec 32), aonAlive s = true ∧ bitAt s.ilk[i].cfg 0 = true ∧
    s.ilk[i].latched = false) := by
  refine ⟨?_, ?_, ?_, ?_, ?_⟩
  · refine ⟨ask [0xFF, 0xFF1F0100010001000100010001000100], ready, ?_⟩
    and_intros <;> first | decide +kernel | rfl | exact Prod.ext (by decide +kernel) rfl
  · refine ⟨ask [0, 1], ready, (stBadArg, 1), ?_⟩
    and_intros <;> first | decide +kernel | rfl | exact Prod.ext (by decide +kernel) rfl
  · refine ⟨ask [0x1FF], ready, 0xFF, ?_⟩
    and_intros <;> first | decide +kernel | rfl | exact Prod.ext (by decide +kernel) rfl
  · refine ⟨ask [0x1FF], ready, 0x7F, ?_⟩
    and_intros <;> first | decide +kernel | rfl | exact Prod.ext (by decide +kernel) rfl
  · refine ⟨watching 7 0 false, 7, 3, 4, ?_⟩
    and_intros <;> first | decide +kernel | rfl | exact Prod.ext (by decide +kernel) rfl

theorem met_InterlocksStopTheStripeUntilCleared_2 :
    (∃ (s : Machine.State) (i : Fin 8) (ft : BitVec 32) (lt : BitVec 32), aonAlive s = true ∧ bitAt s.ilk[i].cfg 0 = true ∧
    s.ilk[i].latched = false) ∧
    (∃ (s : Machine.State) (i : Fin 8) (ft : BitVec 32) (lt : BitVec 32), aonAlive s = true ∧ bitAt s.ilk[i].cfg 0 = true ∧
    s.ilk[i].latched = true) ∧
    (∃ (s : Machine.State) (i : Fin 8), aonAlive s = true ∧ bitAt s.ilk[i].cfg 0 = true) := by
  refine ⟨?_, ?_, ?_⟩
  · refine ⟨watching 0 1 false, 0, 3, 4, ?_⟩
    and_intros <;> first | decide +kernel | rfl | exact Prod.ext (by decide +kernel) rfl
  · refine ⟨watching 0 1 true, 0, 3, 4, ?_⟩
    and_intros <;> first | decide +kernel | rfl | exact Prod.ext (by decide +kernel) rfl
  · refine ⟨watching 0 1 true, 0, ?_⟩
    and_intros <;> first | decide +kernel | rfl | exact Prod.ext (by decide +kernel) rfl

theorem met_KeysAreImportedAndErased :
    (∃ (e : Entry) (s : Machine.State) (r : ℕ), Starts cmdSecImportKey e s ∧ importRefused (importSlot e) s = some r) ∧
    (∃ (e : Entry) (s : Machine.State), Starts cmdSecStatus e s) ∧
    (∃ (e : Entry) (s : Machine.State), Starts cmdSecEraseKey e s ∧ s.keep.zeroing = []) ∧
    (∃ (e : Entry) (s : Machine.State), Starts cmdSecEraseKey e s ∧ s.keep.zeroing = []) ∧
    (∃ (e : Entry) (s : Machine.State), Starts cmdSecUnlockDebug e s ∧ bitsNat (Entry.arg e 0) 0 16 = 57008) := by
  refine ⟨?_, ?_, ?_, ?_, ?_⟩
  · refine ⟨importAsk 63, keyed, 1, ?_⟩
    and_intros <;> first | decide +kernel | rfl | exact Prod.ext (by decide +kernel) rfl
  · refine ⟨ask [], keyed, ?_⟩
    first | decide +kernel | rfl | exact Prod.ext (by decide +kernel) rfl
  · refine ⟨ask [word [(63, 1, 1)]], keyed, ?_⟩
    and_intros <;> first | decide +kernel | rfl | exact Prod.ext (by decide +kernel) rfl
  · refine ⟨ask [word [(64, 1, 1)]], keyed, ?_⟩
    and_intros <;> first | decide +kernel | rfl | exact Prod.ext (by decide +kernel) rfl
  · refine ⟨ask [0xDEB0], keyed, ?_⟩
    and_intros <;> first | decide +kernel | rfl | exact Prod.ext (by decide +kernel) rfl

theorem met_KeysAreImportedAndErased_2 :
    (∃ (e : Entry) (s : Machine.State), running s = true ∧ (s.pm.mode = Mode.ready ∨ s.pm.mode = Mode.hold)) ∧
    (∃ (e : Entry) (s : Machine.State), running s = true ∧ s.pm.mode ≠ Mode.ready ∧ s.pm.mode ≠ Mode.hold) ∧
    (∃ (e : Entry) (s : Machine.State) (x : Erasure) (l : List Erasure), s.keep.zeroing = x :: l ∧ memWorks s = true) := by
  refine ⟨?_, ?_, ?_⟩
  · refine ⟨ask [], keyed, ?_⟩
    and_intros <;> first | decide +kernel | rfl | exact Prod.ext (by decide +kernel) rfl
  · refine ⟨ask [], inMode .expose, ?_⟩
    and_intros <;> first | decide +kernel | rfl | exact Prod.ext (by decide +kernel) rfl
  · refine ⟨ask [], scrubbing, { mask := 1 <<< 5, cause := 1, all := false }, [], ?_⟩
    and_intros <;> first | decide +kernel | rfl | exact Prod.ext (by decide +kernel) rfl

set_option maxRecDepth 1000000 in
theorem met_KeysAreImportedAndErased_bytes :
    (∃ (e : Entry) (s : Machine.State) (b : List Byte) (u : Machine.State), Starts cmdSecImportKey e s ∧ importRefused
    (importSlot e) s = none ∧ readBuffer e (Entry.arg e 1) (fun (n : ℕ) => n == 176) (consume e.src s) = (Except.ok b, u) ∧
    unwrapBlob b (↑(importSlot e) : ℕ) (bitsNat (Entry.arg e 0) 64 64) = none) := by
  refine ⟨importAsk 0, keyed, List.replicate 176 0, consume (.mailbox 0) keyed, ?_⟩
  and_intros <;> first | decide +kernel | rfl | exact Prod.ext (by decide +kernel) rfl

theorem met_TamperErasesEverything :
    (∃ (s : Machine.State), s.keep.stopped = false ∧ s.keep.latched = false ∧ s.keep.fails = 1) ∧
    (∃ (s : Machine.State), s.keep.stopped = false ∧ s.keep.fails = 0) ∧
    (∃ (s : Machine.State), s.keep.stopped = false) ∧
    (∃ (s : Machine.State), s.keep.stopped = false ∧ s.keep.latched = true ∧ s.keep.loopOpen = false) ∧
    (∃ (s : Machine.State) (mv : BitVec 16), s.keep.stopped = false ∧ s.keep.battery = false) := by
  refine ⟨?_, ?_, ?_, ?_, ?_⟩
  · refine ⟨keptAs fun k => { k with fails := 1, ticks := 2 ^ 48 - 64 }, ?_⟩
    and_intros <;> first | decide +kernel | rfl | exact Prod.ext (by decide +kernel) rfl
  · refine ⟨keyed, ?_⟩
    and_intros <;> first | decide +kernel | rfl | exact Prod.ext (by decide +kernel) rfl
  · refine ⟨keptAs fun k => { k with fails := 1, ticks := 2 ^ 48 - 64 }, ?_⟩
    first | decide +kernel | rfl | exact Prod.ext (by decide +kernel) rfl
  · refine ⟨keptAs fun k => { k with latched := true }, ?_⟩
    and_intros <;> first | decide +kernel | rfl | exact Prod.ext (by decide +kernel) rfl
  · refine ⟨keyed, 2199, ?_⟩
    and_intros <;> first | decide +kernel | rfl | exact Prod.ext (by decide +kernel) rfl

theorem met_TamperErasesEverything_2 :
    (∃ (s : Machine.State) (mv : BitVec 16), s.keep.stopped = false ∧ s.keep.battery = false) ∧
    (∃ (s : Machine.State) (mv : BitVec 16), s.keep.stopped = false ∧ s.keep.battery = false) ∧
    (∃ (s : Machine.State) (mv : BitVec 16), s.keep.stopped = false ∧ s.keep.battery = false) ∧
    (∃ (s : Machine.State) (mv : BitVec 16), s.keep.stopped = false ∧ s.keep.battery = true ∧ s.keep.latched = false ∧
    mv.toNat < 2050) ∧
    (∃ (s : Machine.State), s.keep.stopped = false ∧ s.keep.battery = false ∧ 2050 ≤ s.keep.vbat.toNat) := by
  refine ⟨?_, ?_, ?_, ?_, ?_⟩
  · refine ⟨keyed, 2200, ?_⟩
    and_intros <;> first | decide +kernel | rfl | exact Prod.ext (by decide +kernel) rfl
  · refine ⟨keptAs fun k => { k with vbatLow := true }, 2300, ?_⟩
    and_intros <;> first | decide +kernel | rfl | exact Prod.ext (by decide +kernel) rfl
  · refine ⟨keptAs fun k => { k with vbatLow := true }, 2301, ?_⟩
    and_intros <;> first | decide +kernel | rfl | exact Prod.ext (by decide +kernel) rfl
  · refine ⟨keptAs fun k => { k with battery := true }, 2049, ?_⟩
    and_intros <;> first | decide +kernel | rfl | exact Prod.ext (by decide +kernel) rfl
  · refine ⟨keptAs fun k => { k with vbat := 2050 }, ?_⟩
    and_intros <;> first | decide +kernel | rfl | exact Prod.ext (by decide +kernel) rfl

theorem met_TamperErasesEverything_3 :
    (∃ (s : Machine.State), s.keep.stopped = false ∧ s.keep.battery = true) := by
  refine ⟨keptAs fun k => { k with battery := true }, ?_⟩
  and_intros <;> first | decide +kernel | rfl | exact Prod.ext (by decide +kernel) rfl

theorem met_PinsAreHeard :
    (∃ (s : Machine.State), s.svc.attached = false) ∧
    (∃ (s : Machine.State), s.svc.attached = true) ∧
    (∃ (s : Machine.State) (ms : BitVec 32), aonAlive s = true ∧ s.svc.stuck = false) ∧
    (∃ (s : Machine.State) (ms : BitVec 32), aonAlive s = true ∧ s.svc.stuck = false) ∧
    (∃ (s : Machine.State) (ms : BitVec 32), aonAlive s = true ∧ s.svc.stuck = false) := by
  refine ⟨?_, ?_, ?_, ?_, ?_⟩
  · refine ⟨ready, ?_⟩
    first | decide +kernel | rfl | exact Prod.ext (by decide +kernel) rfl
  · refine ⟨{ ready with svc := { ready.svc with attached := true } }, ?_⟩
    first | decide +kernel | rfl | exact Prod.ext (by decide +kernel) rfl
  · refine ⟨ready, 1999, ?_⟩
    and_intros <;> first | decide +kernel | rfl | exact Prod.ext (by decide +kernel) rfl
  · refine ⟨ready, 2000, ?_⟩
    and_intros <;> first | decide +kernel | rfl | exact Prod.ext (by decide +kernel) rfl
  · refine ⟨ready, 4999, ?_⟩
    and_intros <;> first | decide +kernel | rfl | exact Prod.ext (by decide +kernel) rfl

theorem met_PinsAreHeard_2 :
    (∃ (s : Machine.State) (ms : BitVec 32), aonAlive s = true ∧ s.svc.stuck = false) ∧
    (∃ (s : Machine.State), aonAlive s = true ∧ s.svc.stuck = false) ∧
    (∃ (s : Machine.State), True) ∧
    (∃ (s : Machine.State) (v : BitVec 16), aonAlive s = true) ∧
    (∃ (s : Machine.State) (v : BitVec 16), aonAlive s = true) := by
  refine ⟨?_, ?_, ?_, ?_, ?_⟩
  · refine ⟨ready, 5000, ?_⟩
    and_intros <;> first | decide +kernel | rfl | exact Prod.ext (by decide +kernel) rfl
  · refine ⟨ready, ?_⟩
    and_intros <;> first | decide +kernel | rfl | exact Prod.ext (by decide +kernel) rfl
  · refine ⟨ready, ?_⟩
    first | decide +kernel | rfl | exact Prod.ext (by decide +kernel) rfl
  · refine ⟨{ ready with smb := { ready.smb with status := 15 } }, 5, ?_⟩
    first | decide +kernel | rfl | exact Prod.ext (by decide +kernel) rfl
  · refine ⟨ready, 0x15, ?_⟩
    first | decide +kernel | rfl | exact Prod.ext (by decide +kernel) rfl

theorem met_PinsAreHeard_3 :
    (∃ (s : Machine.State), aonAlive s = true) := by
  refine ⟨ready, ?_⟩
  first | decide +kernel | rfl | exact Prod.ext (by decide +kernel) rfl

theorem met_UpdatesAreStagedAndSent :
    (∃ (e : Entry) (s : Machine.State) (d : UpdDesc), Starts cmdUpdBegin e s ∧ d = updDescOf e ∧ 4096 ≤ d.imgLen ∧ d.imgLen ≤
    33554432 ∧ d.pieces = (d.imgLen + 4095) / 4096 ∧ sameUpdate d s = false ∧ s.upd.st < 3) ∧
    (∃ (e : Entry) (s : Machine.State) (d : UpdDesc), Starts cmdUpdBegin e s ∧ d = updDescOf e ∧ 4096 ≤ d.imgLen ∧ d.imgLen ≤
    33554432 ∧ d.pieces = (d.imgLen + 4095) / 4096 ∧ sameUpdate d s = false ∧ s.upd.st < 3) ∧
    (∃ (e : Entry) (s : Machine.State) (d : UpdDesc), Starts cmdUpdBegin e s ∧ d = updDescOf e ∧ 4096 ≤ d.imgLen ∧ d.imgLen ≤
    33554432 ∧ d.pieces = (d.imgLen + 4095) / 4096 ∧ sameUpdate d s = true ∧ s.upd.st ≠ 0) ∧
    (∃ (e : Entry) (s : Machine.State), Starts cmdUpdStatus e s) ∧
    (∃ (s : Machine.State) (f : BitVec 8) (r : UpdRun) (j : UpdJob) (i : ℕ), updOf s f = some r ∧ r.job s = some j ∧ j.target
    = 0 ∧ nextPiece r (pieceHeld s) = some i ∧ s.upd.st ≠ 0 ∧ (imageDesc r.image).imgId = s.upd.imgId ∧ i < s.upd.pieces) :=
    by
  refine ⟨?_, ?_, ?_, ?_, ?_⟩
  · refine ⟨updAsk 4096, ready, updDescOf (updAsk 4096), ?_⟩
    and_intros <;> first | decide +kernel | rfl | exact Prod.ext (by decide +kernel) rfl
  · refine ⟨updAsk 33554432, ready, updDescOf (updAsk 33554432), ?_⟩
    and_intros <;> first | decide +kernel | rfl | exact Prod.ext (by decide +kernel) rfl
  · refine ⟨ask [word [(32, 32, 4096), (64, 32, 1)], 0, 0, 0], staging 3 [(0, 0, [])], updDescOf (ask [word [(32, 32, 4096),
  (64, 32, 1)], 0, 0, 0]), ?_⟩
    and_intros <;> first | decide +kernel | rfl | exact Prod.ext (by decide +kernel) rfl
  · refine ⟨ask [], staging 1 [], ?_⟩
    first | decide +kernel | rfl | exact Prod.ext (by decide +kernel) rfl
  · refine ⟨sending (staging 1 []) 0, 3, demoUpd [], UpdJob.of (leBytes 16 (packFields [(96, 32, 1)]) ++ leBytes 16 4096), 0,
  ?_⟩
    and_intros <;> first | decide +kernel | rfl | exact Prod.ext (by decide +kernel) rfl

theorem met_UpdatesAreStagedAndSent_2 :
    (∃ (s : Machine.State) (f : BitVec 8) (r : UpdRun) (j : UpdJob) (i : Item), updOf s f = some r ∧ r.job s = some j ∧
    j.target = 0 ∧ nextPiece r (pieceHeld s) = none ∧ findItem s r.flow r.seq = some i ∧ i.live = true) ∧
    (∃ (s : Machine.State) (f : BitVec 8) (r : UpdRun) (j : UpdJob) (i : ℕ), updOf s f = some r ∧ r.job s = some j ∧ j.target
    ≠ 0 ∧ mayOriginate s = true ∧ r.begun = true ∧ nextPiece r r.have_.contains = some i) ∧
    (∃ (s : Machine.State) (f : BitVec 8) (r : UpdRun) (j : UpdJob) (i : Item), updOf s f = some r ∧ r.job s = some j ∧
    j.target ≠ 0 ∧ findItem s r.flow r.seq = some i ∧ i.live = true) := by
  refine ⟨?_, ?_, ?_⟩
  · refine ⟨sending (staging 2 [(0, 0, [])]) 0, 3, demoUpd [], UpdJob.of (leBytes 16 (packFields [(96, 32, 1)]) ++ leBytes 16
  4096), updItem 0, ?_⟩
    and_intros <;> first | decide +kernel | rfl | exact Prod.ext (by decide +kernel) rfl
  · refine ⟨sending ready 9, 3, demoUpd [], UpdJob.of (leBytes 16 (packFields [(68, 12, 9), (96, 32, 1)]) ++ leBytes 16 4096),
  0, ?_⟩
    and_intros <;> first | decide +kernel | rfl | exact Prod.ext (by decide +kernel) rfl
  · refine ⟨sending ready 9, 3, demoUpd [], UpdJob.of (leBytes 16 (packFields [(68, 12, 9), (96, 32, 1)]) ++ leBytes 16 4096),
  updItem 9, ?_⟩
    and_intros <;> first | decide +kernel | rfl | exact Prod.ext (by decide +kernel) rfl

theorem met_DiagnosticsAct :
    (∃ (e : Entry) (s : Machine.State) (a : W128), a = Entry.arg e 0 ∧ Starts cmdDiagLoopback e s ∧ objBusy s [(5, 0, 0)] =
    false ∧ bitsNat a 0 4 ≤ 2 ∧ 1 ≤ bitsNat a 32 32 ∧ bitsNat a 32 32 ≤ 1000000 ∧ bitsNat a 8 8 < loopUnits (bitsNat a 0 4)) ∧
    (∃ (e : Entry) (s : Machine.State) (a : W128), a = Entry.arg e 0 ∧ Starts cmdDiagLoopback e s ∧ objBusy s [(5, 0, 0)] =
    false ∧ bitsNat a 0 4 ≤ 2 ∧ 1 ≤ bitsNat a 32 32 ∧ bitsNat a 32 32 ≤ 1000000 ∧ bitsNat a 8 8 < loopUnits (bitsNat a 0 4)) ∧
    (∃ (e : Entry) (s : Machine.State) (a : W128) (n : BitVec 64) (x : BitVec 64) (l : BitVec 32), a = Entry.arg e 0 ∧
    s.diag.loop.isSome = true) ∧
    (∃ (e : Entry) (s : Machine.State) (a : W128), a = Entry.arg e 0 ∧ Starts cmdDiagInject e s ∧ s.cfg.act.diagEnable ≠ 0 ∧
    bitsNat a 0 16 ∈ [1, 2, 3, 4, 6, 7, 8, 9, 10] ∧ bitsNat a 16 16 ≠ 0 ∧ ∀ (n : ℕ), paramLimit (bitsNat a 0 16) = some n →
    bitsNat a 32 32 < n) ∧
    (∃ (e : Entry) (s : Machine.State) (a : W128), a = Entry.arg e 0 ∧ Starts cmdDiagInject e s ∧ s.cfg.act.diagEnable ≠ 0 ∧
    bitsNat a 0 16 ∈ [1, 2, 3, 4, 6, 7, 8, 9, 10] ∧ bitsNat a 16 16 ≠ 0 ∧ ∀ (n : ℕ), paramLimit (bitsNat a 0 16) = some n →
    bitsNat a 32 32 < n) := by
  refine ⟨?_, ?_, ?_, ?_, ?_⟩
  · refine ⟨ask [word [(8, 8, 79), (32, 32, 1)]], ready, word [(8, 8, 79), (32, 32, 1)], ?_⟩
    and_intros <;> first | decide +kernel | rfl | exact Prod.ext (by decide +kernel) rfl
  · refine ⟨ask [word [(0, 4, 1), (8, 8, 7), (32, 32, 1000000)]], ready, word [(0, 4, 1), (8, 8, 7), (32, 32, 1000000)], ?_⟩
    and_intros <;> first | decide +kernel | rfl | exact Prod.ext (by decide +kernel) rfl
  · refine ⟨ask [], { ready with diag := { ready.diag with loop := some (0, 5) } }, 0, 1, 2, 3, ?_⟩
    and_intros <;> first | decide +kernel | rfl | exact Prod.ext (by decide +kernel) rfl
  · refine ⟨ask [word [(0, 16, 4), (16, 16, 1), (32, 32, 75)]], diagnosing, word [(0, 16, 4), (16, 16, 1), (32, 32, 75)], ?_⟩
    and_intros <;> first | decide +kernel | rfl | exact Prod.ext (by decide +kernel) rfl
  · refine ⟨ask [word [(0, 16, 9), (16, 16, 1)]], diagnosing, word [(0, 16, 9), (16, 16, 1)], ?_⟩
    and_intros <;> first | decide +kernel | rfl | exact Prod.ext (by decide +kernel) rfl

theorem met_DiagnosticsAct_2 :
    (∃ (e : Entry) (s : Machine.State) (a : W128), a = Entry.arg e 0 ∧ Starts cmdDiagInject e s ∧ s.cfg.act.diagEnable = 0) ∧
    (∃ (e : Entry) (s : Machine.State) (a : W128), a = Entry.arg e 0) ∧
    (∃ (e : Entry) (s : Machine.State) (a : W128), a = Entry.arg e 0 ∧ Starts cmdDiagCounters e s ∧ 1 ≤ bitsNat a 0 8 ∧
    bitsNat a 0 8 ≤ 12) ∧
    (∃ (e : Entry) (s : Machine.State) (a : W128), a = Entry.arg e 0 ∧ Starts cmdDiagCounters e s ∧ 1 ≤ bitsNat a 0 8 ∧
    bitsNat a 0 8 ≤ 12) := by
  refine ⟨?_, ?_, ?_, ?_⟩
  · refine ⟨ask [word [(0, 16, 9), (16, 16, 1)]], ready, word [(0, 16, 9), (16, 16, 1)], ?_⟩
    and_intros <;> first | decide +kernel | rfl | exact Prod.ext (by decide +kernel) rfl
  · refine ⟨ask [], ready, 0, ?_⟩
    first | decide +kernel | rfl | exact Prod.ext (by decide +kernel) rfl
  · refine ⟨ask [1], ready, 1, ?_⟩
    and_intros <;> first | decide +kernel | rfl | exact Prod.ext (by decide +kernel) rfl
  · refine ⟨ask [12], ready, 12, ?_⟩
    and_intros <;> first | decide +kernel | rfl | exact Prod.ext (by decide +kernel) rfl

theorem met_CalibrationJudgesItsTargets :
    (∃ (e : Entry) (s : Machine.State), Starts cmdCalRun e s ∧ s.cal.st = 0 ∧ (s.pm.mode ≠ Mode.expose ∨ bitAt (Entry.arg e 0)
    4 = true) ∧ bitsNat (Entry.arg e 0) 0 4 ≠ 0) ∧
    (∃ (e : Entry) (s : Machine.State), Starts cmdCalStatus e s) ∧
    (∃ (e : Entry) (s : Machine.State) (b : List Byte) (u : Machine.State), Starts cmdCalSetLimits e s ∧ s.cal.st = 0 ∧
    readBuffer e (Entry.arg e 0) (fun (n : ℕ) => n == 64) (consume e.src s) = (Except.ok b, u) ∧ limitsBad b = none) ∧
    (∃ (e : Entry) (s : Machine.State) (b : List Byte) (u : Machine.State) (n : ℕ), Starts cmdCalSetLimits e s ∧ s.cal.st = 0
    ∧ readBuffer e (Entry.arg e 0) (fun (n : ℕ) => n == 64) (consume e.src s) = (Except.ok b, u) ∧ limitsBad b = some n) ∧
    (∃ (e : Entry) (s : Machine.State) (na : ℕ), s.cal.st = 1 ∧ domOn s Domain.trk = true ∧ calPoint s = true) := by
  refine ⟨?_, ?_, ?_, ?_, ?_⟩
  · refine ⟨ask [15], ready, ?_⟩
    and_intros <;> first | decide +kernel | rfl | exact Prod.ext (by decide +kernel) rfl
  · refine ⟨ask [], ready, ?_⟩
    first | decide +kernel | rfl | exact Prod.ext (by decide +kernel) rfl
  · refine ⟨ask [buf 0x7000 64], { ready with hostMem := Memory.writes [] 0x7000 demoLimits }, demoLimits, consume (.mailbox
  0) { ready with hostMem := Memory.writes [] 0x7000 demoLimits }, ?_⟩
    and_intros <;> first | decide +kernel | rfl | exact Prod.ext (by decide +kernel) rfl
  · refine ⟨ask [buf 0x7000 64], ready, List.replicate 64 0, consume (.mailbox 0) ready, 1, ?_⟩
    and_intros <;> first | decide +kernel | rfl | exact Prod.ext (by decide +kernel) rfl
  · refine ⟨ask [], calibrating 1 0, 650000, ?_⟩
    and_intros <;> first | decide +kernel | rfl | exact Prod.ext (by decide +kernel) rfl

theorem met_CalibrationJudgesItsTargets_2 :
    (∃ (e : Entry) (s : Machine.State) (na : ℕ), s.cal.st = 1 ∧ domOn s Domain.trk = true ∧ calPoint s = true) ∧
    (∃ (e : Entry) (s : Machine.State) (l : List CalMeas), s.cal.st = 2 ∧ domOn s Domain.trk = true) ∧
    (∃ (e : Entry) (s : Machine.State) (l : List CalMeas), s.cal.st = 2 ∧ domOn s Domain.trk = true) ∧
    (∃ (e : Entry) (s : Machine.State) (ch : Fin 8) (raw : BitVec 16), domOn s Domain.trk = true ∧ s.cal.st ≠ 2) := by
  refine ⟨?_, ?_, ?_, ?_⟩
  · refine ⟨ask [], calibrating 1 0, 650001, ?_⟩
    and_intros <;> first | decide +kernel | rfl | exact Prod.ext (by decide +kernel) rfl
  · refine ⟨ask [], calibrating 2 600000, [⟨0, 3, 1, -17, -18⟩], ?_⟩
    and_intros <;> first | decide +kernel | rfl | exact Prod.ext (by decide +kernel) rfl
  · refine ⟨ask [], calibrating 2 600000, [⟨0, 3, 1, 100, 117⟩], ?_⟩
    and_intros <;> first | decide +kernel | rfl | exact Prod.ext (by decide +kernel) rfl
  · refine ⟨ask [], calibrating 1 0, 7, -2048, ?_⟩
    and_intros <;> first | decide +kernel | rfl | exact Prod.ext (by decide +kernel) rfl

theorem met_TimeIsSetAndRead :
    (∃ (e : Entry) (s : Machine.State), Starts cmdTimeGet e s) ∧
    (∃ (e : Entry) (s : Machine.State) (src : ℕ), Starts cmdTimeSetSource e s ∧ src = bitsNat (Entry.arg e 0) 4 4 ∧
    sourceValid (↑(argBase e) : ℕ) src = true ∧ baseCounts s (argBase e) = true) ∧
    (∃ (e : Entry) (s : Machine.State) (src : ℕ), Starts cmdTimeSetSource e s ∧ src = bitsNat (Entry.arg e 0) 4 4 ∧
    sourceValid (↑(argBase e) : ℕ) src = false) ∧
    (∃ (e : Entry) (s : Machine.State) (v : ℤ), Starts cmdTimeAdjust e s ∧ v = signedNat 64 (bitsNat (Entry.arg e 0) 64 64) ∧
    adjustBad s (argBase e) (bitAt (Entry.arg e 0) 2) = none ∧ bitAt (Entry.arg e 0) 2 = true) ∧
    (∃ (e : Entry) (s : Machine.State) (v : ℤ), Starts cmdTimeAdjust e s ∧ v = signedNat 64 (bitsNat (Entry.arg e 0) 64 64) ∧
    adjustBad s (argBase e) (bitAt (Entry.arg e 0) 2) = none ∧ bitAt (Entry.arg e 0) 2 = false) := by
  refine ⟨?_, ?_, ?_, ?_, ?_⟩
  · refine ⟨ask [], ready, ?_⟩
    first | decide +kernel | rfl | exact Prod.ext (by decide +kernel) rfl
  · refine ⟨ask [word [(0, 2, 3), (4, 4, 4)]], ready, 4, ?_⟩
    and_intros <;> first | decide +kernel | rfl | exact Prod.ext (by decide +kernel) rfl
  · refine ⟨ask [word [(0, 2, 2), (4, 4, 1)]], ready, 1, ?_⟩
    and_intros <;> first | decide +kernel | rfl | exact Prod.ext (by decide +kernel) rfl
  · refine ⟨ask [word [(0, 2, 1), (2, 1, 1), (64, 64, 2 ^ 63)]], ready, -2 ^ 63, ?_⟩
    and_intros <;> first | decide +kernel | rfl | exact Prod.ext (by decide +kernel) rfl
  · refine ⟨ask [word [(0, 2, 3), (64, 64, 5)]], ready, 5, ?_⟩
    and_intros <;> first | decide +kernel | rfl | exact Prod.ext (by decide +kernel) rfl

theorem met_TimeIsSetAndRead_2 :
    (∃ (e : Entry) (s : Machine.State) (r : ℕ × ℕ), Starts cmdTimeAdjust e s ∧ adjustBad s (argBase e) (bitAt (Entry.arg e 0)
    2) = some r) := by
  refine ⟨ask [word [(0, 2, 0), (64, 64, 5)]], treed, (stBadState, 2), ?_⟩
  and_intros <;> first | decide +kernel | rfl | exact Prod.ext (by decide +kernel) rfl

theorem met_SourcesAreFollowedAndLost :
    (∃ (s : Machine.State) (m : PtpMsg), s.time.base[0].src = 1 ∧ baseCounts s 0 = true ∧ s.time.base[0].acquired = true) ∧
    (∃ (s : Machine.State) (m : PtpMsg), mayOriginate s = true ∧ (s.time.base[0].src = 1 ∨ s.time.base[0].src = 2)) ∧
    (∃ (s : Machine.State) (m : PtpMsg), ptpHears s m = true) ∧
    (∃ (s : Machine.State) (m : PtpMsg), ptpHears s m = true) ∧
    (∃ (s : Machine.State) (m : PtpMsg), ptpHears s m = true ∧ s.time.ptpMaster = some m.sender ∧ m.twoStep = true) := by
  refine ⟨?_, ?_, ?_, ?_, ?_⟩
  · refine ⟨treed, ptpOf 5 9 true, ?_⟩
    and_intros <;> first | decide +kernel | rfl | exact Prod.ext (by decide +kernel) rfl
  · refine ⟨treed, ptpOf 5 9 true, ?_⟩
    and_intros <;> first | decide +kernel | rfl | exact Prod.ext (by decide +kernel) rfl
  · refine ⟨following, ptpOf 6 8 true, ?_⟩
    first | decide +kernel | rfl | exact Prod.ext (by decide +kernel) rfl
  · refine ⟨following, ptpOf 6 9 true, ?_⟩
    first | decide +kernel | rfl | exact Prod.ext (by decide +kernel) rfl
  · refine ⟨following, ptpOf 5 9 true, ?_⟩
    and_intros <;> first | decide +kernel | rfl | exact Prod.ext (by decide +kernel) rfl

theorem met_SourcesAreFollowedAndLost_2 :
    (∃ (s : Machine.State) (m : PtpMsg), ptpHears s m = true ∧ s.time.ptpMaster = some m.sender ∧ m.twoStep = false) ∧
    (∃ (s : Machine.State) (m : PtpMsg) (rx : ℤ), ptpHears s m = true ∧ s.time.ptpMaster = some m.sender ∧ s.time.ptpSync =
    some (m.seq, rx)) ∧
    (∃ (s : Machine.State) (m : PtpMsg) (t3 : ℤ), ptpHears s m = true ∧ s.time.ptpMaster = some m.sender ∧ s.time.ptpReq =
    some (m.seq, t3)) ∧
    (∃ (s : Machine.State) (m : PtpMsg) (n : BitVec 80), s.time.ptpMaster = some n ∧ running s = true ∧
    s.time.base[3].acquired = true) := by
  refine ⟨?_, ?_, ?_, ?_⟩
  · refine ⟨following, ptpOf 5 9 false, ?_⟩
    and_intros <;> first | decide +kernel | rfl | exact Prod.ext (by decide +kernel) rfl
  · refine ⟨following, ptpOf 5 9 true, 2 ^ 48 - 1, ?_⟩
    and_intros <;> first | decide +kernel | rfl | exact Prod.ext (by decide +kernel) rfl
  · refine ⟨following, ptpOf 5 9 true, -3, ?_⟩
    and_intros <;> first | decide +kernel | rfl | exact Prod.ext (by decide +kernel) rfl
  · refine ⟨following, ptpOf 5 9 true, 5, ?_⟩
    and_intros <;> first | decide +kernel | rfl | exact Prod.ext (by decide +kernel) rfl

theorem met_PortsTrainAndFall :
    (∃ (s : Machine.State) (p : Fin 8), ∃ i ∈ [Instr.portTrainStart p, Instr.portRetry p], (port s p).st = PortSt.down ∧ domOn
    s Domain.fab = true ∧ loopOnPort s (↑p : ℕ) = false) ∧
    (∃ (s : Machine.State) (p : Fin 8), ∃ i ∈ [Instr.portTrainStart p, Instr.portRetry p], (port s p).st = PortSt.down ∧ domOn
    s Domain.fab = true ∧ loopOnPort s (↑p : ℕ) = false) ∧
    (∃ (s : Machine.State) (p : Fin 8), (port s p).st = PortSt.training) ∧
    (∃ (s : Machine.State) (p : Fin 8), fabAlive s = true ∧ portUp s p = true) := by
  refine ⟨?_, ?_, ?_, ?_⟩
  · refine ⟨portIn .down, 0, Instr.portTrainStart 0, ?_⟩
    and_intros <;> first | decide +kernel | rfl | exact Prod.ext (by decide +kernel) rfl
  · refine ⟨portIn .down, 0, Instr.portRetry 0, ?_⟩
    and_intros <;> first | decide +kernel | rfl | exact Prod.ext (by decide +kernel) rfl
  · refine ⟨portIn .training, 0, ?_⟩
    first | decide +kernel | rfl | exact Prod.ext (by decide +kernel) rfl
  · refine ⟨portIn .up, 0, ?_⟩
    and_intros <;> first | decide +kernel | rfl | exact Prod.ext (by decide +kernel) rfl

theorem met_LinkControlMovesSpores :
    (∃ (s : Machine.State) (p : Fin 8) (c : Fin 4) (b : BitVec 64) (l : List TxSpore), bitsNat b 0 8 = 51 ∧ takesControl s p =
    true ∧ bitsNat b 8 8 = (↑c : ℕ) ∧ bitsNat b 40 8 = 0 ∧ bitsNat b 56 8 = 0 ∧ unackedAfter (pclass s p c) (bitsNat b 16 24)
    = some l) ∧
    (∃ (s : Machine.State) (p : Fin 8) (c : Fin 4) (b : BitVec 64) (l : List TxSpore), bitsNat b 0 8 = 51 ∧ takesControl s p =
    true ∧ bitsNat b 8 8 = (↑c : ℕ) ∧ bitsNat b 40 8 = 0 ∧ bitsNat b 56 8 = 0 ∧ unackedAfter (pclass s p c) (bitsNat b 16 24)
    = some l) ∧
    (∃ (s : Machine.State) (p : Fin 8) (c : Fin 4) (b : BitVec 64) (q : Port), bitsNat b 0 8 = 75 ∧ takesControl s p = true ∧
    bitsNat b 40 24 = 0 ∧ takeCredits (port s p) b = some q) ∧
    (∃ (s : Machine.State) (p : Fin 8) (c : Fin 4), fabAlive s = true ∧ portUp s p = true ∧ (pclass s p c).unacked ≠ [] ∧
    (pclass s p c).episodes < 7) ∧
    (∃ (s : Machine.State) (p : Fin 8) (c : Fin 4), fabAlive s = true ∧ portUp s p = true ∧ (pclass s p c).unacked ≠ [] ∧ 7 ≤
    (pclass s p c).episodes) := by
  refine ⟨?_, ?_, ?_, ?_, ?_⟩
  · refine ⟨classAs fun k => { k with unacked := [sentSpore 0, sentSpore 1] }, 0, 3, BitVec.ofNat 64 (packFields [(0, 8,
  0x33), (8, 8, 3), (16, 24, 0)]), [sentSpore 1], ?_⟩
    and_intros <;> first | decide +kernel | rfl | exact Prod.ext (by decide +kernel) rfl
  · refine ⟨classAs fun k => { k with unacked := [sentSpore 0, sentSpore 1] }, 0, 3, BitVec.ofNat 64 (packFields [(0, 8,
  0x33), (8, 8, 3), (16, 24, 2 ^ 24 - 1)]), [sentSpore 0, sentSpore 1], ?_⟩
    and_intros <;> first | decide +kernel | rfl | exact Prod.ext (by decide +kernel) rfl
  · refine ⟨classAs fun k => { k with credits := 1, spent := 255 }, 0, 3, BitVec.ofNat 64 (packFields [(0, 8, 0x4B), (32, 8,
  255)]),
  { port (meshed .ready) 0 with cls := (port (meshed .ready) 0).cls.set 3 { PClass.init with rx := 2 ^ 24 - 1, tx := 2, spent := 255, returned := 255 } },
  ?_⟩
    and_intros <;> first | decide +kernel | rfl | exact Prod.ext (by decide +kernel) rfl
  · refine ⟨classAs fun k => { k with unacked := [sentSpore 1], episodes := 6 }, 0, 3, ?_⟩
    and_intros <;> first | decide +kernel | rfl | exact Prod.ext (by decide +kernel) rfl
  · refine ⟨classAs fun k => { k with unacked := [sentSpore 1], episodes := 7 }, 0, 3, ?_⟩
    and_intros <;> first | decide +kernel | rfl | exact Prod.ext (by decide +kernel) rfl

theorem met_LinkControlMovesSpores_2 :
    (∃ (s : Machine.State) (p : Fin 8) (c : Fin 4), takesControl s p = true ∧ ∃ (d : Fin 4), 0 < (pclass s p d).owed) ∧
    (∃ (s : Machine.State) (p : Fin 8) (c : Fin 4), takesControl s p = true ∧ 0 < (pclass s p c).owedAcks) ∧
    (∃ (s : Machine.State) (p : Fin 8) (c : Fin 4) (sp : Spore) (q : Fin 8), (linkTake p sp s).1 = true ∧ sporeViolation sp
    s.fab.node.toNat = none ∧ hdrDst sp.header ≠ 0 ∧ hdrDst sp.header ≠ 4095 ∧ hdrDst sp.header ≠ s.fab.node.toNat ∧ sp.ttl ≠
    0 ∧ routePort s (hdrDst sp.header) = some q) := by
  refine ⟨?_, ?_, ?_⟩
  · refine ⟨classAs fun k => { k with owed := 5, freed := 255 }, 0, 3, ?_⟩
    and_intros <;> first | decide +kernel | rfl | exact Prod.ext (by decide +kernel) rfl
  · refine ⟨classAs fun k => { k with owedAcks := 1 }, 0, 3, ?_⟩
    and_intros <;> first | decide +kernel | rfl | exact Prod.ext (by decide +kernel) rfl
  · refine ⟨meshAs .ready fun x => { x with routes := [(0x21, 0x100)] }, 0, 3, spored 0xFFCC5EA9000000010000600150020021 3
  [5], 0, ?_⟩
    and_intros <;> first | decide +kernel | rfl | exact Prod.ext (by decide +kernel) rfl

theorem met_NodesAreFoundAndNamed :
    (∃ (e : Entry) (s : Machine.State) (p : Fin 8) (sp : Spore), Starts cmdFabDiscover e s ∧ objBusy s [(5, 0, 0)] = false) ∧
    (∃ (e : Entry) (s : Machine.State) (p : Fin 8) (sp : Spore), discovering s = true) ∧
    (∃ (e : Entry) (s : Machine.State) (p : Fin 8) (sp : Spore), True) ∧
    (∃ (e : Entry) (s : Machine.State) (p : Fin 8) (sp : Spore) (d : ℕ), Starts cmdFabSetRoute e s ∧ d = bitsNat (Entry.arg e
    0) 0 12 ∧ nodeOk d = true ∧ bitAt (Entry.arg e 0) 20 = true) ∧
    (∃ (e : Entry) (s : Machine.State) (p : Fin 8) (sp : Spore) (d : ℕ), Starts cmdFabSetRoute e s ∧ d = bitsNat (Entry.arg e
    0) 0 12 ∧ nodeOk d = true ∧ bitAt (Entry.arg e 0) 20 = false) := by
  refine ⟨?_, ?_, ?_, ?_, ?_⟩
  · refine ⟨ask [0xFF], portIn .down, 0, hello0, ?_⟩
    and_intros <;> first | decide +kernel | rfl | exact Prod.ext (by decide +kernel) rfl
  · refine ⟨ask [0], waitingOn .discover (meshed .ready), 0, hello0, ?_⟩
    first | decide +kernel | rfl | exact Prod.ext (by decide +kernel) rfl
  · refine ⟨ask [0], waitingOn (.assignNode 6 7) (meshed .ready), 0, hello0, ?_⟩
    first | decide +kernel | rfl | exact Prod.ext (by decide +kernel) rfl
  · refine ⟨ask [word [(0, 12, 0xFFE), (12, 3, 7), (16, 3, 5), (19, 1, 1), (20, 1, 1)]], meshed .ready, 0, hello0, 0xFFE, ?_⟩
    and_intros <;> first | decide +kernel | rfl | exact Prod.ext (by decide +kernel) rfl
  · refine ⟨ask [word [(0, 12, 0x20)]], meshed .ready, 0, hello0, 0x20, ?_⟩
    and_intros <;> first | decide +kernel | rfl | exact Prod.ext (by decide +kernel) rfl

set_option maxRecDepth 1000000 in
theorem met_NodesAreFoundAndNamed_bytes :
    (∃ (e : Entry) (s : Machine.State) (p : Fin 8) (sp : Spore), Heard 4 p sp s) := by
  refine ⟨ask [0], waitingOn (.assignNode 6 7) (meshed .ready), 0, spored 0xE094C20E000000010000601004020010 3 (leBytes 8 6 ++
  leBytes 8 7), ?_⟩
  unfold Heard
  and_intros <;> first | decide +kernel | rfl | exact Prod.ext (by decide +kernel) rfl

theorem met_PairsFormAndEnd :
    (∃ (e : Entry) (s : Machine.State) (p : Fin 8) (sp : Spore) (n : BitVec 12) (role : ℕ), Starts cmdFabPair e s ∧ objBusy s
    [(8, 0, 0), (7, 0, 0)] = false ∧ n = bitsOf (Entry.arg e 0) 0 12 ∧ role = bitsNat (Entry.arg e 0) 12 2 ∧ (role = 1 ∨ role
    = 2) ∧ nodeOk n.toNat = true ∧ n ≠ s.fab.node ∧ s.fab.pair.req = none) ∧
    (∃ (e : Entry) (s : Machine.State) (p : Fin 8) (sp : Spore) (n : BitVec 12) (role : ℕ), Starts cmdFabPair e s ∧ objBusy s
    [(8, 0, 0), (7, 0, 0)] = false ∧ n = bitsOf (Entry.arg e 0) 0 12 ∧ role = bitsNat (Entry.arg e 0) 12 2 ∧ role = 0) ∧
    (∃ (e : Entry) (s : Machine.State) (p : Fin 8) (sp : Spore), s.fab.pair.pending.isSome = true) ∧
    (∃ (e : Entry) (s : Machine.State) (p : Fin 8) (sp : Spore), s.fab.pair.st = PairSt.paired ∧ mayOriginate s = true) ∧
    (∃ (e : Entry) (s : Machine.State) (p : Fin 8) (sp : Spore), mayOriginate s = true ∧ s.fab.pair.st = PairSt.paired ∧
    s.fab.pair.takeover = false) := by
  refine ⟨?_, ?_, ?_, ?_, ?_⟩
  · refine ⟨ask [word [(0, 12, 0x20), (12, 2, 2)]], meshed .ready, 0, hello0, 0x20, 2, ?_⟩
    and_intros <;> first | decide +kernel | rfl | exact Prod.ext (by decide +kernel) rfl
  · refine ⟨ask [word [(0, 12, 0x20)]], pairedAs .ready .paired 1 id, 0, hello0, 0x20, 0, ?_⟩
    and_intros <;> first | decide +kernel | rfl | exact Prod.ext (by decide +kernel) rfl
  · refine ⟨ask [0], waitingOn .pair (meshAs .ready fun x => { x with pair := { x.pair with pending := some (0x20, 2) } }), 0,
  hello0, ?_⟩
    first | decide +kernel | rfl | exact Prod.ext (by decide +kernel) rfl
  · refine ⟨ask [0], pairedAs .ready .paired 1 id, 0, hello0, ?_⟩
    and_intros <;> first | decide +kernel | rfl | exact Prod.ext (by decide +kernel) rfl
  · refine ⟨ask [0], pairedAs .ready .paired 1 id, 0, hello0, ?_⟩
    and_intros <;> first | decide +kernel | rfl | exact Prod.ext (by decide +kernel) rfl

theorem met_PairsFormAndEnd_2 :
    (∃ (e : Entry) (s : Machine.State) (p : Fin 8) (sp : Spore), mayOriginate s = true ∧ s.fab.pair.st = PairSt.paired ∧
    s.fab.pair.takeover = false) ∧
    (∃ (e : Entry) (s : Machine.State) (p : Fin 8) (sp : Spore), s.fab.pair.st = PairSt.partnerLost ∧ takeoverReady s = true)
    := by
  refine ⟨?_, ?_⟩
  · refine ⟨ask [0], standingBy .paired, 0, hello0, ?_⟩
    and_intros <;> first | decide +kernel | rfl | exact Prod.ext (by decide +kernel) rfl
  · refine ⟨ask [0], standingBy .partnerLost, 0, hello0, ?_⟩
    and_intros <;> first | decide +kernel | rfl | exact Prod.ext (by decide +kernel) rfl

set_option maxRecDepth 1000000 in
theorem met_PairsFormAndEnd_bytes :
    (∃ (e : Entry) (s : Machine.State) (p : Fin 8) (sp : Spore), Heard 16 p sp s ∧ s.fab.pair.st = PairSt.unpaired ∧
    s.fab.pair.pending = none) ∧
    (∃ (e : Entry) (s : Machine.State) (p : Fin 8) (sp : Spore) (role : ℕ), Heard 17 p sp s ∧ s.fab.pair.pending = some
    (srcNode sp, role) ∧ reqFits s = true ∧ reqCrcsEqual s = true) := by
  refine ⟨?_, ?_⟩
  · refine ⟨ask [0], meshed .ready, 0, spored 0xE6CE9DA5000000010000202010020010 1 (leBytes 16 (packFields [(64, 2, 1), (96,
  32, 77)]) ++ leBytes 16 5), ?_⟩
    unfold Heard
    and_intros <;> first | decide +kernel | rfl | exact Prod.ext (by decide +kernel) rfl
  · refine ⟨ask [0], meshAs .ready fun x =>
  { x with pair := { x.pair with pending := some (0x20, 2), req := some (0x20, 1, 0) } }, 0, spored
  0x691C0C63000000010000202011020010 1 (leBytes 32 0), 2, ?_⟩
    unfold Heard
    and_intros <;> first | decide +kernel | rfl | exact Prod.ext (by decide +kernel) rfl

set_option maxRecDepth 1000000 in
theorem met_PairsFormAndEnd_bytes_2 :
    (∃ (e : Entry) (s : Machine.State) (p : Fin 8) (sp : Spore), Heard 18 p sp s ∧ fromPartner sp s = true) ∧
    (∃ (e : Entry) (s : Machine.State) (p : Fin 8) (sp : Spore), Heard 19 p sp s ∧ fromPartner sp s = true ∧ leAt sp.payload 0
    1 = 3) := by
  refine ⟨?_, ?_⟩
  · refine ⟨ask [0], pairedAs .ready .partnerLost 1 id, 0, spored 0x7883E4E9000000010000203012020010 1 (leBytes 16 (packFields
  [(64, 4, 5)]) ++ leBytes 32 0), ?_⟩
    unfold Heard
    and_intros <;> first | decide +kernel | rfl | exact Prod.ext (by decide +kernel) rfl
  · refine ⟨ask [0], pairedAs .ready .paired 1 id, 0, spored 0x1BDA3B53000000010000201013020010 1 (leBytes 16 3), ?_⟩
    unfold Heard
    and_intros <;> first | decide +kernel | rfl | exact Prod.ext (by decide +kernel) rfl

set_option maxRecDepth 1000000 in
theorem met_PairsFormAndEnd_bytes_3 :
    (∃ (e : Entry) (s : Machine.State) (p : Fin 8) (sp : Spore), Heard 19 p sp s ∧ fromPartner sp s = true ∧ leAt sp.payload 0
    1 ≠ 3 ∧ s.fab.pair.st = PairSt.paired ∧ s.fab.pair.takeover = false ∧ takeoverReady s = false) := by
  refine ⟨ask [0], pairedAs .ready .paired 1 id, 0, spored 0xFA2E565E000000010000201013020010 1 (leBytes 16 1), ?_⟩
  unfold Heard
  and_intros <;> first | decide +kernel | rfl | exact Prod.ext (by decide +kernel) rfl

theorem met_HandoversMoveTheColumn :
    (∃ (e : Entry) (s : Machine.State) (p : Fin 8) (sp : Spore), Starts cmdFabHandover e s ∧ objBusy s [(8, 0, 0)] = false ∧
    handoverBad s (bitsOf (Entry.arg e 0) 0 12) = none ∧ Entry.arg e 1 = 0 ∧ s.fab.pair.st = PairSt.paired) ∧
    (∃ (e : Entry) (s : Machine.State) (p : Fin 8) (sp : Spore), s.fab.pair.st = PairSt.handingOver) := by
  refine ⟨?_, ?_⟩
  · refine ⟨ask [0x20, 0], pairedAs .expose .paired 1 id, 0, hello0, ?_⟩
    and_intros <;> first | decide +kernel | rfl | exact Prod.ext (by decide +kernel) rfl
  · refine ⟨ask [0], waitingOn .handover (pairedAs .ready .handingOver 1 (fun x => { x with step := 3 })), 0, hello0, ?_⟩
    first | decide +kernel | rfl | exact Prod.ext (by decide +kernel) rfl

set_option maxRecDepth 1000000 in
theorem met_HandoversMoveTheColumn_bytes :
    (∃ (e : Entry) (s : Machine.State) (p : Fin 8) (sp : Spore), Heard 20 p sp s ∧ fromPartner sp s = true ∧ s.fab.pair.st =
    PairSt.paired) ∧
    (∃ (e : Entry) (s : Machine.State) (p : Fin 8) (sp : Spore), Heard 21 p sp s ∧ fromPartner sp s = true ∧ s.fab.pair.st =
    PairSt.handingOver ∧ s.fab.pair.role = 2 ∧ s.fab.pair.step = 4) := by
  refine ⟨?_, ?_⟩
  · refine ⟨ask [0], pairedAs .ready .paired 1 id, 0, spored 0xC2AC2973000000010000201014020010 1 (leBytes 16 0), ?_⟩
    unfold Heard
    and_intros <;> first | decide +kernel | rfl | exact Prod.ext (by decide +kernel) rfl
  · refine ⟨ask [0],
  { pairedAs .shadow .handingOver 2 (fun x => { x with step := 4 }) with link := { (meshed .shadow).link with st := .trained } },
  0, spored 0xEC98E2EE000000010000201015020010 1 (leBytes 16 0), ?_⟩
    unfold Heard
    and_intros <;> first | decide +kernel | rfl | exact Prod.ext (by decide +kernel) rfl

set_option maxRecDepth 1000000 in
theorem met_HandoversMoveTheColumn_bytes_2 :
    (∃ (e : Entry) (s : Machine.State) (p : Fin 8) (sp : Spore), Heard 22 p sp s ∧ fromPartner sp s = true ∧ s.fab.pair.st =
    PairSt.handingOver ∧ s.fab.pair.role = 1 ∧ s.fab.pair.step = 6) := by
  refine ⟨ask [0], pairedAs .expose .handingOver 1 (fun x => { x with step := 6 }), 0, spored
  0x9EC5BE49000000010000201016020010 1 (leBytes 16 0), ?_⟩
  unfold Heard
  and_intros <;> first | decide +kernel | rfl | exact Prod.ext (by decide +kernel) rfl

set_option maxRecDepth 1000000 in
theorem met_SporesActOnTheirSubject_bytes :
    (∃ (s : Machine.State) (p : Fin 8) (sp : Spore), Heard 32 p sp s ∧ mirrorClient s = some (srcNode sp)) ∧
    (∃ (s : Machine.State) (p : Fin 8) (sp : Spore), Heard 33 p sp s ∧ s.diag.withhold = false ∧ s.led.pendingWitness = none ∧
    s.led.witness = WitnessKind.peer (srcNode sp) ∧ BitVec.ofNat 32 (leAt sp.payload 8 4) = s.led.epoch ∧ leAt sp.payload 0 8
    < s.led.wseq ∧ s.led.lost = false) := by
  refine ⟨?_, ?_⟩
  · refine ⟨pairedAs .shadow .paired 2 id, 0, spored 0x64B1466C000000010000204020020010 1 (demoRec.bytes), ?_⟩
    unfold Heard
    and_intros <;> first | decide +kernel | rfl | exact Prod.ext (by decide +kernel) rfl
  · refine ⟨{ meshed .ready with led := { (owing (.peer 0x20)).led with wseq := 5 } }, 0, spored
  0xAE1FEAD6000000010000201021020010 1 (leBytes 8 4 ++ leBytes 8 0), ?_⟩
    unfold Heard
    and_intros <;> first | decide +kernel | rfl | exact Prod.ext (by decide +kernel) rfl

set_option maxRecDepth 1000000 in
theorem met_SporesActOnTheirSubject_bytes_2 :
    (∃ (s : Machine.State) (p : Fin 8) (sp : Spore) (j : BinJob) (h : SHdr), Heard 48 p sp s ∧ j = BinJob.of (BitVec.ofNat 8
    (blk sp.payload 1 20 8)) sp.payload ∧ s.pm.mode = Mode.render ∧ (peerRuns s (srcNode sp)).length < 16 ∧ j.outMode = 1 ∧
    binCheck (linkTake p sp s).2 j = Except.ok h) ∧
    (∃ (s : Machine.State) (p : Fin 8) (sp : Spore), Heard 49 p sp s ∧ (s.rnd.offloads.any fun (q : OffloadReq) => q.node ==
    srcNode sp && q.msgId == BitVec.ofNat 32 (leAt sp.payload 0 4)) = true) := by
  refine ⟨?_, ?_⟩
  · refine ⟨helping, 0, spored 0x76D9A3B3000000010000004030020010 0 peerParams, BinJob.of 0 peerParams, demoHdr, ?_⟩
    unfold Heard
    and_intros <;> first | decide +kernel | rfl | exact Prod.ext (by decide +kernel) rfl
  · refine ⟨leading .ready, 0, spored 0xFBF7995F000000010000001031020010 0 (leBytes 16 1), ?_⟩
    unfold Heard
    and_intros <;> first | decide +kernel | rfl | exact Prod.ext (by decide +kernel) rfl

set_option maxRecDepth 1000000 in
theorem met_SporesActOnTheirSubject_bytes_3 :
    (∃ (s : Machine.State) (p : Fin 8) (sp : Spore), Heard 50 p sp s) ∧
    (∃ (s : Machine.State) (p : Fin 8) (sp : Spore) (d : UpdDesc), Heard 81 p sp s ∧ blk sp.payload 0 0 8 = 1 ∧ hdrLen
    sp.header = 80 ∧ d = relayDesc sp.payload ∧ 4096 ≤ d.imgLen ∧ d.imgLen ≤ 33554432 ∧ d.pieces = (d.imgLen + 4095) / 4096 ∧
    sameUpdate d s = false ∧ s.upd.st < 3) := by
  refine ⟨?_, ?_⟩
  · refine ⟨leading .expose, 0, spored 0x418DDD32000000010000402032020010 2 (leBytes 16 (packFields [(64, 16, 16)]) ++ leBytes
  16 0), ?_⟩
    unfold Heard
    and_intros <;> first | decide +kernel | rfl | exact Prod.ext (by decide +kernel) rfl
  · refine ⟨meshed .ready, 0, spored 0x8A9A6E58000000010000605051020010 3 (leBytes 16 1 ++ leBytes 16 (packFields [(0, 32,
  4096), (32, 32, 1)]) ++ leBytes 48 9), relayDesc (leBytes 16 1 ++ leBytes 16 (packFields [(0, 32, 4096), (32, 32, 1)]) ++
  leBytes 48 9), ?_⟩
    unfold Heard
    and_intros <;> first | decide +kernel | rfl | exact Prod.ext (by decide +kernel) rfl

set_option maxRecDepth 1000000 in
theorem met_SporesActOnTheirSubject_bytes_4 :
    (∃ (s : Machine.State) (p : Fin 8) (sp : Spore), Heard 81 p sp s ∧ blk sp.payload 0 0 8 = 2 ∧ hdrLen sp.header = 2064 ∧
    List.find? (otherHalf (halfOf sp.payload)) s.fab.halves = none) ∧
    (∃ (s : Machine.State) (p : Fin 8) (sp : Spore), Heard 64 p sp s ∧ s.time.base[0].src = 1 ∧ s.time.ftPort = (↑p : ℕ) ∧ blk
    sp.payload 1 0 2 = 1 ∧ blk sp.payload 1 4 4 ≠ 15) := by
  refine ⟨?_, ?_⟩
  · refine ⟨meshed .ready, 0, spored 0x506C916F000000010000681051020010 3 (leBytes 16 2 ++ List.replicate 2048 0), ?_⟩
    unfold Heard
    and_intros <;> first | decide +kernel | rfl | exact Prod.ext (by decide +kernel) rfl
  · refine ⟨{ meshed .ready with time := treed.time }, 0, spored 0x1A32858000000010000202040020010 1 (leBytes 16 0 ++ leBytes
  16 (packFields [(0, 2, 1), (4, 4, 14), (8, 12, 0x30)])), ?_⟩
    unfold Heard
    and_intros <;> first | decide +kernel | rfl | exact Prod.ext (by decide +kernel) rfl

set_option maxRecDepth 1000000 in
theorem met_HostSporesUseTheirRings_bytes :
    (∃ (s : Machine.State) (p : Fin 8) (sp : Spore) (x : BitVec 32 × W128) (l : List (BitVec 32 × W128)), Heard 80 p sp s ∧
    (port s p).posted = x :: l ∧ hostReady s p = true) ∧
    (∃ (s : Machine.State) (p : Fin 8) (sp : Spore) (x : BitVec 32 × W128) (l : List (BitVec 32 × W128)), Heard 8 p sp s ∧
    leAt sp.payload 4 1 = 80 ∧ s.fab.hostSent.contains (BitVec.ofNat 32 (leAt sp.payload 0 4)) = true ∧ (port s p).posted = x
    :: l ∧ hostReady s p = true) := by
  refine ⟨?_, ?_⟩
  · refine ⟨posted, 0, spored 0x54B2B22A000000010000600250020010 3 [5, 6], (7, word [(0, 64, 0x8000), (64, 32, 4096), (96, 2,
  1)]), [], ?_⟩
    unfold Heard
    and_intros <;> first | decide +kernel | rfl | exact Prod.ext (by decide +kernel) rfl
  · refine ⟨posted, 0, spored 0xF7C39807000000010000601008020010 3 (leBytes 4 9 ++ leBytes 12 0x50), (7, word [(0, 64,
  0x8000), (64, 32, 4096), (96, 2, 1)]), [], ?_⟩
    unfold Heard
    and_intros <;> first | decide +kernel | rfl | exact Prod.ext (by decide +kernel) rfl

set_option maxRecDepth 1000000 in
theorem met_HostSporesUseTheirRings_bytes_2 :
    (∃ (s : Machine.State) (p : Fin 8) (sp : Spore) (x : BitVec 32 × W128) (l : List (BitVec 32 × W128)), Heard 8 p sp s ∧
    leAt sp.payload 4 1 = 48 ∧ (s.rnd.offloads.any fun (q : OffloadReq) => q.node == srcNode sp && q.msgId == BitVec.ofNat 32
    (leAt sp.payload 0 4)) = true) ∧
    (∃ (s : Machine.State) (p : Fin 8) (sp : Spore) (x : BitVec 32 × W128) (l : List (BitVec 32 × W128)) (e : BitVec 512) (b :
    List Byte) (u : Machine.State) (q : Fin 8), txReady s p = true ∧ bitsNat (entryWord e 0) 0 4 = 1 ∧ txReservedOk e = true ∧
    nodeOk (bitsNat (entryWord e 0) 16 12) = true ∧ bitsNat (entryWord e 0) 32 32 ≠ 0 ∧ bitsNat (entryWord e 0) 32 32 ≤ 4096 ∧
    txRefBad s (bufRef (entryWord e 1)) (bitsNat (entryWord e 0) 32 32) = none ∧ txBytes s (bufRef (entryWord e 1)) =
    (Except.ok b, u) ∧ routePort s (bitsNat (entryWord e 0) 16 12) = some q) := by
  refine ⟨?_, ?_⟩
  · refine ⟨leading .ready, 0, spored 0xB6A39A49000000010000001008020010 0 (leBytes 4 1 ++ leBytes 12 0x30), (0, 0), [], ?_⟩
    unfold Heard
    and_intros <;> first | decide +kernel | rfl | exact Prod.ext (by decide +kernel) rfl
  · refine ⟨ringed 32 1 id, 0, hello0, (0, 0), [], BitVec.ofNat 512 (packFields [(0, 4, 1), (16, 12, 0x20), (32, 32, 2), (128
  + 0, 64, 0x8000), (128 + 64, 32, 2)]), [0, 0], ringed 32 1 id, 0, ?_⟩
    and_intros <;> first | decide +kernel | rfl | exact Prod.ext (by decide +kernel) rfl

set_option maxRecDepth 1000000 in
theorem met_HostSporesUseTheirRings_bytes_3 :
    (∃ (s : Machine.State) (p : Fin 8) (sp : Spore) (x : BitVec 32 × W128) (l : List (BitVec 32 × W128)) (e : BitVec 512) (b :
    List Byte) (u : Machine.State) (q : Fin 8), txReady s p = true ∧ bitsNat (entryWord e 0) 0 4 = 1 ∧ txReservedOk e = true ∧
    nodeOk (bitsNat (entryWord e 0) 16 12) = true ∧ bitsNat (entryWord e 0) 32 32 ≠ 0 ∧ bitsNat (entryWord e 0) 32 32 ≤ 4096 ∧
    txRefBad s (bufRef (entryWord e 1)) (bitsNat (entryWord e 0) 32 32) = none ∧ txBytes s (bufRef (entryWord e 1)) =
    (Except.ok b, u) ∧ routePort s (bitsNat (entryWord e 0) 16 12) = some q) ∧
    (∃ (s : Machine.State) (p : Fin 8) (sp : Spore) (x : BitVec 32 × W128) (l : List (BitVec 32 × W128)) (e : BitVec 512),
    txReady s p = true ∧ bitsNat (entryWord e 0) 0 4 = 2 ∧ txReservedOk e = true ∧ bitsNat (entryWord e 0) 16 12 = 0 ∧ bitsNat
    (entryWord e 0) 32 32 = 4096 ∧ txRefBad s (bufRef (entryWord e 1)) 4096 = none ∧ (port s p).posted.length < 64) := by
  refine ⟨?_, ?_⟩
  · refine ⟨ringed 32 1 id, 0, hello0, (0, 0), [], BitVec.ofNat 512 (packFields [(0, 4, 1), (16, 12, 0x20), (32, 32, 4096),
  (128 + 0, 64, 0x8000), (128 + 64, 32, 4096)]), List.replicate 4096 0, ringed 32 1 id, 0, ?_⟩
    and_intros <;> first | decide +kernel | rfl | exact Prod.ext (by decide +kernel) rfl
  · refine ⟨ringed 32 1 id, 0, hello0, (0, 0), [], BitVec.ofNat 512 (packFields [(0, 4, 2), (32, 32, 4096), (64, 32, 7), (128
  + 0, 64, 0x8000), (128 + 64, 32, 4096)]), ?_⟩
    and_intros <;> first | decide +kernel | rfl | exact Prod.ext (by decide +kernel) rfl

theorem met_RegistersAreWritten :
    (∃ (s : Machine.State) (i : Fin 64) (v : BitVec 64), running s = true ∧ (ring s i).st = 1 ∧ doorbellOk (↑i : ℕ) (ring s i)
    (bitsOf v 0 32) = false) ∧
    (∃ (s : Machine.State) (i : Fin 64) (v : BitVec 64), running s = true ∧ (ring s i).st ≠ 1) ∧
    (∃ (s : Machine.State) (i : Fin 64) (v : BitVec 32), running s = true) ∧
    (∃ (s : Machine.State) (i : Fin 64) (v : BitVec 32), running s = true) ∧
    (∃ (s : Machine.State) (i : Fin 64) (v : BitVec 32), running s = true ∧ bitsNat v 0 8 ≤ 190) := by
  refine ⟨?_, ?_, ?_, ?_, ?_⟩
  · refine ⟨ringAs 0 id, 0, 17, ?_⟩
    and_intros <;> first | decide +kernel | rfl | exact Prod.ext (by decide +kernel) rfl
  · refine ⟨ringAs 0 fun r => { r with st := 3 }, 0, 2, ?_⟩
    and_intros <;> first | decide +kernel | rfl | exact Prod.ext (by decide +kernel) rfl
  · refine ⟨ringAs 63 fun r => { r with dbBad := true, busErr := true }, 63, 0x20, ?_⟩
    first | decide +kernel | rfl | exact Prod.ext (by decide +kernel) rfl
  · refine ⟨{ ready with win := { ready.win with status := 0x7FF } }, 0, 0x400, ?_⟩
    first | decide +kernel | rfl | exact Prod.ext (by decide +kernel) rfl
  · refine ⟨ready, 0, 0x1BE, ?_⟩
    and_intros <;> first | decide +kernel | rfl | exact Prod.ext (by decide +kernel) rfl

theorem met_RegistersAreWritten_2 :
    (∃ (s : Machine.State) (i : Fin 64) (v : BitVec 32), running s = true ∧ 190 < bitsNat v 0 8) ∧
    (∃ (s : Machine.State) (i : Fin 64) (v : BitVec 64), running s = true) ∧
    (∃ (s : Machine.State) (i : Fin 64) (off : BitVec 24) (v : BitVec 64), running s = true ∧ off.toNat % 4 ≠ 0) := by
  refine ⟨?_, ?_, ?_⟩
  · refine ⟨ready, 0, 0x1BF, ?_⟩
    and_intros <;> first | decide +kernel | rfl | exact Prod.ext (by decide +kernel) rfl
  · refine ⟨ready, 0, 0xFFFF, ?_⟩
    first | decide +kernel | rfl | exact Prod.ext (by decide +kernel) rfl
  · refine ⟨ready, 0, 0x1002, 5, ?_⟩
    and_intros <;> first | decide +kernel | rfl | exact Prod.ext (by decide +kernel) rfl

set_option maxRecDepth 1000000 in
theorem met_RegistersAreWritten_bytes :
    (∃ (s : Machine.State) (i : Fin 64) (v : BitVec 64), running s = true ∧ (ring s i).st = 1 ∧ doorbellOk (↑i : ℕ) (ring s i)
    (bitsOf v 0 32) = true) ∧
    (∃ (s : Machine.State) (i : Fin 64) (off : BitVec 24) (size : ℕ), running s = true) := by
  refine ⟨?_, ?_⟩
  · refine ⟨ringAs 0 id, 0, 16, ?_⟩
    and_intros <;> first | decide +kernel | rfl | exact Prod.ext (by decide +kernel) rfl
  · refine ⟨ready, 0, 0x0FFC, 4, ?_⟩
    first | decide +kernel | rfl | exact Prod.ext (by decide +kernel) rfl

theorem met_MemoryIsWrittenWhereTold :
    (∃ (s : Machine.State) (addr : BitVec 28) (len : ℕ) (data : List Byte), running s = true ∧ bar4Refused s (268435456 *
    s.win.window.toNat + addr.toNat) (min len (268435456 - addr.toNat)) = true) ∧
    (∃ (s : Machine.State) (addr : BitVec 28) (len : ℕ) (data : List Byte), running s = true ∧ bar4Refused s (268435456 *
    s.win.window.toNat + addr.toNat) (min data.length (268435456 - addr.toNat)) = false) ∧
    (∃ (s : Machine.State) (addr : BitVec 28) (len : ℕ) (data : List Byte), running s = true ∧ bar4Refused s (268435456 *
    s.win.window.toNat + addr.toNat) (min len (268435456 - addr.toNat)) = false) := by
  refine ⟨?_, ?_, ?_⟩
  · refine ⟨ready, 5, 2, [7], ?_⟩
    and_intros <;> first | decide +kernel | rfl | exact Prod.ext (by decide +kernel) rfl
  · refine ⟨windowed, 0xFFFFFFF, 2, [7, 8], ?_⟩
    and_intros <;> first | decide +kernel | rfl | exact Prod.ext (by decide +kernel) rfl
  · refine ⟨windowed, 0xFFFFFFF, 2, [7], ?_⟩
    and_intros <;> first | decide +kernel | rfl | exact Prod.ext (by decide +kernel) rfl

set_option maxRecDepth 1000000 in
theorem met_MemoryIsWrittenWhereTold_bytes :
    (∃ (s : Machine.State) (addr : BitVec 28) (len : ℕ) (data : List Byte), running s = true ∧ bar4Refused s (268435456 *
    s.win.window.toNat + addr.toNat) (min data.length (268435456 - addr.toNat)) = true) ∧
    (∃ (s : Machine.State) (a : ℕ) (i : Instr) (c : Cmd) (e : Entry) (r : ℕ × ℕ) (m : Fin 8), mailboxCommand s i = some (c, e,
    false) ∧ e.src = Src.mailbox m ∧ sourceReady s e.src = true ∧ sourceSpace s e.src = true ∧ modeHolds s c = false ∧ c.judge
    e s = some r ∧ r.2 ≠ 32768 ∧ outside a (ring s (subRing m)).shadow.toNat 4 ∧ outside a (ring s (cplRing m)).shadow.toNat 4
    ∧ outside a (entryAddr (↑(cplRing m) : ℕ) (ring s (cplRing m)) (ring s (cplRing m)).devIdx) 128) := by
  refine ⟨?_, ?_⟩
  · refine ⟨ready, 5, 2, [7], ?_⟩
    and_intros <;> first | decide +kernel | rfl | exact Prod.ext (by decide +kernel) rfl
  · refine ⟨ready, 0, Instr.secEraseKey (ask [1, 2]), cmdSecEraseKey, ask [1, 2], (stBadLength, 0), 0, ?_⟩
    unfold outside
    and_intros <;> first | decide +kernel | rfl | exact Prod.ext (by decide +kernel) rfl

set_option maxRecDepth 1000000 in
theorem met_MemoryIsWrittenWhereTold_bytes_2 :
    (∃ (s : Machine.State) (a : ℕ) (off : BitVec 24) (size : ℕ), ∀ (i : Fin 64), 48 ≤ (↑i : ℕ) → (↑i : ℕ) < 56 → outside a
    (ring s i).shadow.toNat 4 ∧ outside a (entryAddr (↑i : ℕ) (ring s i) (ring s i).devIdx) 32) := by
  refine ⟨ready, 0xFFFF0000, 0, 4, ?_⟩
  unfold outside
  and_intros <;> first | decide +kernel | rfl | exact Prod.ext (by decide +kernel) rfl

theorem met_RingsChangeState :
    (∃ (s : Machine.State) (i : Fin 64) (v : BitVec 64), running s = true ∧ (ring s i).st = 0 ∧ enableOk s i (bitsNat v 1 5) =
    true) ∧
    (∃ (s : Machine.State) (i : Fin 64) (v : BitVec 64), running s = true ∧ (ring s i).st = 0 ∧ enableOk s i (bitsNat v 1 5) =
    true) ∧
    (∃ (s : Machine.State) (i : Fin 64) (v : BitVec 64), running s = true ∧ (ring s i).st = 0 ∧ enableOk s i (bitsNat v 1 5) =
    false) ∧
    (∃ (s : Machine.State) (i : Fin 64) (v : BitVec 64), running s = true ∧ (ring s i).st = 1) ∧
    (∃ (s : Machine.State) (i : Fin 64) (addr : BitVec 64), running s = true ∧ ((ring s i).st = 1 ∨ (ring s i).st = 2)) := by
  refine ⟨?_, ?_, ?_, ?_, ?_⟩
  · refine ⟨ringAs 16 fun r => { r with st := 0, base := 0x1000 }, 16, 33, ?_⟩
    and_intros <;> first | decide +kernel | rfl | exact Prod.ext (by decide +kernel) rfl
  · refine ⟨ringAs 16 fun r => { r with st := 0, base := 0x1000 }, 16, 9, ?_⟩
    and_intros <;> first | decide +kernel | rfl | exact Prod.ext (by decide +kernel) rfl
  · refine ⟨ringAs 16 fun r => { r with st := 0, base := 0x1000 }, 16, 35, ?_⟩
    and_intros <;> first | decide +kernel | rfl | exact Prod.ext (by decide +kernel) rfl
  · refine ⟨ringAs 16 id, 16, 0, ?_⟩
    and_intros <;> first | decide +kernel | rfl | exact Prod.ext (by decide +kernel) rfl
  · refine ⟨ringAs 16 id, 16, 77, ?_⟩
    and_intros <;> first | decide +kernel | rfl | exact Prod.ext (by decide +kernel) rfl

theorem met_RingsChangeState_2 :
    (∃ (s : Machine.State) (i : Fin 64), running s = true) ∧
    (∃ (s : Machine.State) (i : Fin 64), running s = true ∧ bitAt (ring s i).cfg 12 = true ∧ (ring s i).coal ≠ 0) := by
  refine ⟨?_, ?_⟩
  · refine ⟨{ ready with win := { ready.win with pba := 2 ^ 63, msix := ready.win.msix.set 63 (1 <<< 96) } }, 63, ?_⟩
    first | decide +kernel | rfl | exact Prod.ext (by decide +kernel) rfl
  · refine ⟨ringAs 48 fun r => { r with cfg := BitVec.ofNat _ (packFields [(6, 6, 63), (12, 1, 1)]), coal := 1 }, 48, ?_⟩
    and_intros <;> first | decide +kernel | rfl | exact Prod.ext (by decide +kernel) rfl

theorem met_ChannelsAndRootsAreSetUp :
    (∃ (e : Entry) (s : Machine.State) (c : Fin 16), Starts cmdDmaChannelSetup e s ∧ bitsNat (Entry.arg e 0) 0 4 = (↑c : ℕ) ∧
    (ring s (dmaRing c)).st = 0 ∧ bitsNat (Entry.arg e 0) 48 16 ≤ bitsNat (Entry.arg e 0) 32 16 ∧ 2 ≤ bitsNat (Entry.arg e 0)
    16 2) ∧
    (∃ (e : Entry) (s : Machine.State) (c : Fin 16) (f : BitVec 8), Starts cmdDtuSetRoot e s ∧ objBusy s [(0, bitsNat
    (Entry.arg e 0) 0 8, 0)] = false ∧ f = bitsOf (Entry.arg e 0) 0 8 ∧ bitsNat (Entry.arg e 0) 64 12 = 0 ∧ bitsNat (Entry.arg
    e 0) 112 16 = 0 ∧ spaceBusy s f = false) ∧
    (∃ (e : Entry) (s : Machine.State) (c : Fin 16) (f : BitVec 8), Starts cmdDtuSetRoot e s ∧ objBusy s [(0, bitsNat
    (Entry.arg e 0) 0 8, 0)] = false ∧ f = bitsOf (Entry.arg e 0) 0 8 ∧ bitsNat (Entry.arg e 0) 64 12 = 0 ∧ bitsNat (Entry.arg
    e 0) 112 16 = 0 ∧ spaceBusy s f = false) ∧
    (∃ (e : Entry) (s : Machine.State) (c : Fin 16), Starts cmdDtuInvalidate e s ∧ objBusy s [(0, bitsNat (Entry.arg e 0) 0 8,
    0)] = false) := by
  refine ⟨?_, ?_, ?_, ?_⟩
  · refine ⟨ask [word [(0, 4, 15), (8, 8, 3), (16, 2, 3), (32, 16, 5), (48, 16, 5)]], withItems .ready [], 15, ?_⟩
    and_intros <;> first | decide +kernel | rfl | exact Prod.ext (by decide +kernel) rfl
  · refine ⟨ask [word [(0, 8, 3), (8, 1, 1), (64, 64, 0xFFFFFFFFF000)]], withItems .ready [], 0, 3, ?_⟩
    and_intros <;> first | decide +kernel | rfl | exact Prod.ext (by decide +kernel) rfl
  · refine ⟨ask [word [(0, 8, 3)]], unmapped 0 (withItems .ready []), 0, 3, ?_⟩
    and_intros <;> first | decide +kernel | rfl | exact Prod.ext (by decide +kernel) rfl
  · refine ⟨ask [word [(0, 8, 3), (8, 2, 1), (64, 64, 0x1FFF)]],
  { withItems .ready [] with dma := { (withItems .ready []).dma with cache := [⟨0, 3, 1, false, 0x1000, true⟩, ⟨1, 3, 2, false, 0x1000, true⟩] } },
  0, ?_⟩
    and_intros <;> first | decide +kernel | rfl | exact Prod.ext (by decide +kernel) rfl

set_option maxRecDepth 1000000 in
theorem met_ChannelsAndRootsAreSetUp_bytes :
    (∃ (e : Entry) (s : Machine.State) (c : Fin 16) (g : DFault), Starts cmdDtuResumeFault e s ∧ objBusy s [(0, bitsNat
    (Entry.arg e 0) 0 8, 0)] = false ∧ List.find? (fun (x : DFault) => x.id == bitsOf (Entry.arg e 0) 16 16 && x.flow ==
    bitsOf (Entry.arg e 0) 0 8) s.dma.faults = some g) ∧
    (∃ (e : Entry) (s : Machine.State) (c : Fin 16) (g : DFault), Starts cmdDtuResumeFault e s ∧ objBusy s [(0, bitsNat
    (Entry.arg e 0) 0 8, 0)] = false ∧ List.find? (fun (x : DFault) => x.id == bitsOf (Entry.arg e 0) 16 16 && x.flow ==
    bitsOf (Entry.arg e 0) 0 8) s.dma.faults = some g) := by
  refine ⟨?_, ?_⟩
  · refine ⟨ask [word [(0, 8, 3)]],
  { dmaing [demoDesc .stalled 1] with dma := { (dmaing [demoDesc .stalled 1]).dma with faults := [demoFault] } }, 0,
  demoFault, ?_⟩
    and_intros <;> first | decide +kernel | rfl | exact Prod.ext (by decide +kernel) rfl
  · refine ⟨ask [word [(0, 8, 3), (32, 1, 1)]],
  { dmaing [demoDesc .stalled 1] with dma := { (dmaing [demoDesc .stalled 1]).dma with faults := [demoFault] } }, 0,
  demoFault, ?_⟩
    and_intros <;> first | decide +kernel | rfl | exact Prod.ext (by decide +kernel) rfl

set_option maxRecDepth 1000000 in
theorem met_DescriptorsRun_bytes :
    (∃ (s : Machine.State) (c : Fin 16) (w : BitVec 512), mayStart (pace c s) c (newDesc 0 w).f = true ∧ startVerdict (pace c
    s) c (newDesc 0 w).f = none) ∧
    (∃ (s : Machine.State) (c : Fin 16) (w : BitVec 512) (r : ℕ × ℕ), mayStart (pace c s) c (newDesc 0 w).f = true ∧
    startVerdict (pace c s) c (newDesc 0 w).f = some r ∧ s.dma.ch[c].descs = []) := by
  refine ⟨?_, ?_⟩
  · refine ⟨dmaing [], 0, copyWords, ?_⟩
    and_intros <;> first | decide +kernel | rfl | exact Prod.ext (by decide +kernel) rfl
  · refine ⟨dmaing [], 0, copyWords + 4, (stBadArg, 1), ?_⟩
    and_intros <;> first | decide +kernel | rfl | exact Prod.ext (by decide +kernel) rfl

set_option maxRecDepth 1000000 in
theorem met_DescriptorsRun_bytes_2 :
    (∃ (s : Machine.State) (c : Fin 16) (w : BitVec 512), mayStart (pace c s) c (newDesc 0 w).f = false) ∧
    (∃ (s : Machine.State) (c : Fin 16) (idx : BitVec 32) (d : Desc) (u : Machine.State), findDesc s c idx = some d ∧ d.st =
    DescSt.active ∧ d.f.alive s = true ∧ (injected 7 (fun (p : BitVec 32) => p.toNat == (↑c : ℕ)) s).1 = false ∧ d.f.move
    s.dma.ch[c].flow.toNat d.done d.f.len s = some u) := by
  refine ⟨?_, ?_⟩
  · refine ⟨dmaing [demoDesc .active 1], 0, copyWords, ?_⟩
    first | decide +kernel | rfl | exact Prod.ext (by decide +kernel) rfl
  · refine ⟨dmaing [demoDesc .active 1], 0, 0, demoDesc .active 1, movedTo 0 3 (dmaing [demoDesc .active 1]), ?_⟩
    and_intros <;> first | decide +kernel | rfl | exact Prod.ext (by decide +kernel) rfl

theorem met_FailedReadsAreRetried :
    (∃ (s : Machine.State) (idx : BitVec 32) (arrived : ℕ) (r : CopyRun), copyOf s (BitVec.ofNat 8 idx.toNat) = some r ∧ r.st
    = 2) := by
  refine ⟨copying 2, 3, 2, demoCopy 2, ?_⟩
  and_intros <;> first | decide +kernel | rfl | exact Prod.ext (by decide +kernel) rfl

set_option maxRecDepth 1000000 in
theorem met_FailedReadsAreRetried_bytes :
    (∃ (s : Machine.State) (idx : BitVec 32) (arrived : ℕ) (c : Fin 16) (ctx : Fin 20) (d : Desc) (u : Machine.State) (i :
    Instr), (↑ctx : ℕ) = (↑c : ℕ) ∧ findDesc s c idx = some d ∧ d.st = DescSt.active ∧ d.f.alive s = true ∧ d.f.readsHost =
    true ∧ d.done ≤ arrived ∧ arrived < d.f.len ∧ d.f.move s.dma.ch[c].flow.toNat d.done arrived s = some u ∧ i ∈
    [Instr.dmaBusError ctx idx arrived, Instr.dmaReadTimeout ctx idx arrived]) ∧
    (∃ (s : Machine.State) (idx : BitVec 32) (arrived : ℕ) (c : Fin 16) (ctx : Fin 20) (d : Desc) (u : Machine.State) (i :
    Instr), (↑ctx : ℕ) = (↑c : ℕ) ∧ findDesc s c idx = some d ∧ d.st = DescSt.active ∧ d.f.alive s = true ∧ d.f.readsHost =
    true ∧ d.done ≤ arrived ∧ arrived < d.f.len ∧ d.f.move s.dma.ch[c].flow.toNat d.done arrived s = some u ∧ i ∈
    [Instr.dmaBusError ctx idx arrived, Instr.dmaReadTimeout ctx idx arrived]) := by
  refine ⟨?_, ?_⟩
  · refine ⟨dmaing [demoDesc .active 3], 0, 2, 0, 0, demoDesc .active 3, movedTo 0 2 (dmaing [demoDesc .active 3]),
  .dmaBusError 0 0 2, ?_⟩
    and_intros <;> first | decide +kernel | rfl | exact Prod.ext (by decide +kernel) rfl
  · refine ⟨dmaing [demoDesc .active 4], 0, 2, 0, 0, demoDesc .active 4, movedTo 0 2 (dmaing [demoDesc .active 4]),
  .dmaReadTimeout 0 0 2, ?_⟩
    and_intros <;> first | decide +kernel | rfl | exact Prod.ext (by decide +kernel) rfl

set_option maxRecDepth 1000000 in
theorem met_FailedReadsAreRetried_bytes_2 :
    (∃ (s : Machine.State) (idx : BitVec 32) (arrived : ℕ) (r : CopyRun) (d : DescF) (u : Machine.State) (i : Instr), copyOf s
    (BitVec.ofNat 8 idx.toNat) = some r ∧ r.f s = some d ∧ r.st = 0 ∧ d.alive s = true ∧ d.readsHost = true ∧ r.done ≤ arrived
    ∧ arrived < d.len ∧ d.move r.flow.toNat r.done arrived s = some u ∧ r.attempts ≤ 3 ∧ i ∈ [Instr.dmaBusError 19 idx
    arrived, Instr.dmaReadTimeout 19 idx arrived]) ∧
    (∃ (s : Machine.State) (idx : BitVec 32) (arrived : ℕ) (c : Fin 16) (ctx : Fin 20) (d : Desc), (↑ctx : ℕ) = (↑c : ℕ) ∧
    findDesc s c idx = some d ∧ d.st = DescSt.retryWait) := by
  refine ⟨?_, ?_⟩
  · refine ⟨copying 0, 3, 2, demoCopy 0, DescF.of (copyParams 3), ((DescF.of (copyParams 3)).move 3 0 2 (copying 0)).getD
  ready, .dmaBusError 19 3 2, ?_⟩
    and_intros <;> first | decide +kernel | rfl | exact Prod.ext (by decide +kernel) rfl
  · refine ⟨dmaing [demoDesc .retryWait 1], 0, 2, 0, 0, demoDesc .retryWait 1, ?_⟩
    and_intros <;> first | decide +kernel | rfl | exact Prod.ext (by decide +kernel) rfl

set_option maxRecDepth 1000000 in
theorem met_TranslationFaultsStall_bytes :
    (∃ (s : Machine.State) (idx : BitVec 32) (write : Bool) (va : BitVec 64) (progress : ℕ) (busErr : Bool) (r : ℕ) (c : Fin
    16) (ctx : Fin 20) (d : Desc) (u : Machine.State) (v : Machine.State), (↑ctx : ℕ) = (↑c : ℕ) ∧ findDesc s c idx = some d ∧
    d.st = DescSt.active ∧ d.f.alive s = true ∧ d.f.touches (d.f.maxIndex s s.dma.ch[c].flow.toNat) write va.toNat = true ∧
    d.done ≤ progress ∧ progress < d.f.len ∧ faultReason s.dma.ch[c].flow.toNat write va.toNat busErr s = (some r, u) ∧
    d.f.move s.dma.ch[c].flow.toNat d.done progress u = some v) ∧
    (∃ (s : Machine.State) (idx : BitVec 32) (write : Bool) (va : BitVec 64) (progress : ℕ) (busErr : Bool) (r : ℕ) (c : Fin
    16) (ctx : Fin 20) (d : Desc) (u : Machine.State) (v : Machine.State), (↑ctx : ℕ) = (↑c : ℕ) ∧ findDesc s c idx = some d ∧
    d.st = DescSt.active ∧ d.f.alive s = true ∧ d.f.touches (d.f.maxIndex s s.dma.ch[c].flow.toNat) write va.toNat = true ∧
    d.done ≤ progress ∧ progress < d.f.len ∧ faultReason s.dma.ch[c].flow.toNat write va.toNat busErr s = (some r, u) ∧
    d.f.move s.dma.ch[c].flow.toNat d.done progress u = some v) := by
  refine ⟨?_, ?_⟩
  · refine ⟨unmapped 63 (dmaing [demoDesc .active 1]), 0, false, 0x3000, 0, false, 1, 0, 0, demoDesc .active 1, dtuAfter
  (unmapped 63 (dmaing [demoDesc .active 1])), movedTo 0 0 (dtuAfter (unmapped 63 (dmaing [demoDesc .active 1]))), ?_⟩
    and_intros <;> first | decide +kernel | rfl | exact Prod.ext (by decide +kernel) rfl
  · refine ⟨unmapped 64 (dmaing [demoDesc .active 1]), 0, false, 0x3000, 0, false, 1, 0, 0, demoDesc .active 1, dtuAfter
  (unmapped 64 (dmaing [demoDesc .active 1])), movedTo 0 0 (dtuAfter (unmapped 64 (dmaing [demoDesc .active 1]))), ?_⟩
    and_intros <;> first | decide +kernel | rfl | exact Prod.ext (by decide +kernel) rfl

set_option maxRecDepth 1000000 in
theorem met_TranslationFaultsStall_bytes_2 :
    (∃ (s : Machine.State) (idx : BitVec 32) (write : Bool) (va : BitVec 64) (progress : ℕ) (busErr : Bool) (r : ℕ) (ctx : Fin
    20) (u : Machine.State) (v : Machine.State), 16 ≤ (↑ctx : ℕ) ∧ domOn s Domain.host = true ∧ s.dma.faults.length < 64 ∧
    ((s.dma.faults ++ s.dma.waiting).any fun (g : DFault) => decide (g.ctx = (↑ctx : ℕ)) && g.flow == BitVec.ofNat 8
    idx.toNat) = false ∧ faultReason (BitVec.ofNat 8 idx.toNat).toNat write va.toNat busErr s = (some r, u) ∧ stallUser (↑ctx
    : ℕ) (BitVec.ofNat 8 idx.toNat) progress u = some v) := by
  refine ⟨unmapped 0 (copying 0), 3, false, 0x3000, 0, false, 1, 19, dtuAfter (unmapped 0 (copying 0)), (stallUser 19 3 0
  (dtuAfter (unmapped 0 (copying 0)))).getD ready, ?_⟩
  and_intros <;> first | decide +kernel | rfl | exact Prod.ext (by decide +kernel) rfl

theorem met_HbmIsCheckedAndRetrained :
    (∃ (s : Machine.State) (off : BitVec 36) (kind : Fin 6) (sev : BitVec 3) (syn : BitVec 9) (req : BitVec 8) (rmw : Bool) (a
    : ℕ) (p : Fin 64), memWorks s = true ∧ a = off.toNat - off.toNat % 16 ∧ a < hbmSize ∧ p = pcOf a ∧ (injected 2 (fun (x :
    BitVec 32) => true) s).1 = false ∧ (injected 3 (fun (x : BitVec 32) => true) s).1 = false ∧ kind = 0) ∧
    (∃ (s : Machine.State) (off : BitVec 36) (kind : Fin 6) (sev : BitVec 3) (syn : BitVec 9) (req : BitVec 8) (rmw : Bool) (a
    : ℕ) (p : Fin 64), memWorks s = true ∧ a = off.toNat - off.toNat % 16 ∧ a < hbmSize ∧ p = pcOf a ∧ (injected 2 (fun (x :
    BitVec 32) => true) s).1 = false ∧ (injected 3 (fun (x : BitVec 32) => true) s).1 = false ∧ (kind = 1 ∨ kind = 2)) ∧
    (∃ (s : Machine.State) (off : BitVec 36) (kind : Fin 6) (sev : BitVec 3) (syn : BitVec 9) (req : BitVec 8) (rmw : Bool) (a
    : ℕ) (p : Fin 64), memWorks s = true ∧ a = off.toNat - off.toNat % 16 ∧ a < hbmSize ∧ p = pcOf a ∧ (injected 2 (fun (x :
    BitVec 32) => true) s).1 = false ∧ (injected 3 (fun (x : BitVec 32) => true) s).1 = false ∧ 3 ≤ (↑kind : ℕ)) ∧
    (∃ (s : Machine.State) (off : BitVec 36) (kind : Fin 6) (sev : BitVec 3) (syn : BitVec 9) (req : BitVec 8) (rmw : Bool) (a
    : ℕ) (p : Fin 64) (t0 : BitVec 16) (t1 : BitVec 16), domOn s Domain.mem = true ∨ running s = true ∧ s.pm.mode = Mode.hold)
    ∧
    (∃ (s : Machine.State) (off : BitVec 36) (kind : Fin 6) (sev : BitVec 3) (syn : BitVec 9) (req : BitVec 8) (rmw : Bool) (a
    : ℕ) (p : Fin 64) (t0 : BitVec 16) (t1 : BitVec 16), domOn s Domain.mem = true ∨ running s = true ∧ s.pm.mode = Mode.hold)
    := by
  refine ⟨?_, ?_, ?_, ?_, ?_⟩
  · refine ⟨ready, 0xFFF, 0, 0, 0, 0, false, 0xFF0, pcOf 0xFF0, ?_⟩
    and_intros <;> first | decide +kernel | rfl | exact Prod.ext (by decide +kernel) rfl
  · refine ⟨ready, 0xFFF, 2, 0, 0, 0, false, 0xFF0, pcOf 0xFF0, ?_⟩
    and_intros <;> first | decide +kernel | rfl | exact Prod.ext (by decide +kernel) rfl
  · refine ⟨ready, 0xFFF, 3, 0, 0, 0, false, 0xFF0, pcOf 0xFF0, ?_⟩
    and_intros <;> first | decide +kernel | rfl | exact Prod.ext (by decide +kernel) rfl
  · refine ⟨ready, 0xFFF, 3, 0, 0, 0, false, 0xFF0, pcOf 0xFF0, 680, -5, ?_⟩
    and_intros <;> first | decide +kernel | rfl | exact Prod.ext (by decide +kernel) rfl
  · refine ⟨ready, 0xFFF, 3, 0, 0, 0, false, 0xFF0, pcOf 0xFF0, 680, 681, ?_⟩
    and_intros <;> first | decide +kernel | rfl | exact Prod.ext (by decide +kernel) rfl

theorem met_HbmIsCheckedAndRetrained_2 :
    (∃ (s : Machine.State) (p : Fin 64), sliceFree s p = true) ∧
    (∃ (s : Machine.State) (p : Fin 64), sliceFree s p = true) ∧
    (∃ (s : Machine.State) (p : Fin 64), sliceFree s p = false) ∧
    (∃ (s : Machine.State) (p : Fin 64) (eye : BitVec 16), memWorks s = true ∧ s.hbm.pcs[p].slice = true ∧ 350 ≤ eye.toNat) ∧
    (∃ (s : Machine.State) (p : Fin 64) (eye : BitVec 16), memWorks s = true ∧ s.hbm.pcs[p].slice = true ∧ eye.toNat < 350) :=
    by
  refine ⟨?_, ?_, ?_, ?_, ?_⟩
  · refine ⟨ready, 63, ?_⟩
    first | decide +kernel | rfl | exact Prod.ext (by decide +kernel) rfl
  · refine ⟨slicing 31, 63, ?_⟩
    first | decide +kernel | rfl | exact Prod.ext (by decide +kernel) rfl
  · refine ⟨slicing 32, 63, ?_⟩
    first | decide +kernel | rfl | exact Prod.ext (by decide +kernel) rfl
  · refine ⟨slicing 63, 63, 350, ?_⟩
    and_intros <;> first | decide +kernel | rfl | exact Prod.ext (by decide +kernel) rfl
  · refine ⟨slicing 63, 63, 349, ?_⟩
    and_intros <;> first | decide +kernel | rfl | exact Prod.ext (by decide +kernel) rfl

theorem met_ModesChange :
    (∃ (s : Machine.State) (failed : Bool) (bad : BitVec 6) (tUs : BitVec 32), changeReady s = true ∧ (failed && powersUp
    s.pm.mode s.pm.target) = false) ∧
    (∃ (s : Machine.State) (failed : Bool) (bad : BitVec 6) (tUs : BitVec 32), changeReady s = true ∧ (failed && powersUp
    s.pm.mode s.pm.target) = false) ∧
    (∃ (s : Machine.State) (failed : Bool) (bad : BitVec 6) (tUs : BitVec 32), changeReady s = true ∧ (failed && powersUp
    s.pm.mode s.pm.target) = true) ∧
    (∃ (s : Machine.State), running s = true ∧ s.pm.fwState ≠ 0) ∧
    (∃ (s : Machine.State) (a : Fin 4), running s = true ∧ s.pm.mode ≠ Mode.hold ∧ s.pm.mode ≠ Mode.recovery ∧ domPowered s
    (arrayDomain a) = true) := by
  refine ⟨?_, ?_, ?_, ?_, ?_⟩
  · refine ⟨poweredAs fun p => { p with target := .expose, changing := true }, false, 0, 9, ?_⟩
    and_intros <;> first | decide +kernel | rfl | exact Prod.ext (by decide +kernel) rfl
  · refine ⟨poweredAs fun p => { p with target := .standby, changing := true }, true, 0, 9, ?_⟩
    and_intros <;> first | decide +kernel | rfl | exact Prod.ext (by decide +kernel) rfl
  · refine ⟨poweredAs fun p => { p with mode := .standby, target := .ready, changing := true }, true, 0, 9, ?_⟩
    and_intros <;> first | decide +kernel | rfl | exact Prod.ext (by decide +kernel) rfl
  · refine ⟨ready, ?_⟩
    and_intros <;> first | decide +kernel | rfl | exact Prod.ext (by decide +kernel) rfl
  · refine ⟨firing 4, 3, ?_⟩
    and_intros <;> first | decide +kernel | rfl | exact Prod.ext (by decide +kernel) rfl

theorem met_ModesChange_2 :
    (∃ (s : Machine.State) (d : Fin 12) (x : Domain), running s = true ∧ s.pm.mode ≠ Mode.hold ∧ s.pm.mode ≠ Mode.recovery ∧ 2
    ≤ (↑d : ℕ) ∧ Domain.all[(↑d : ℕ)]? = some x ∧ domPowered s x = true) := by
  refine ⟨firing 4, 11, .trk, ?_⟩
  and_intros <;> first | decide +kernel | rfl | exact Prod.ext (by decide +kernel) rfl

theorem met_SuppliesAreWatched :
    (∃ (s : Machine.State) (rail : Fin 9) (mv : BitVec 16), aonAlive s = true ∧ running s = true ∧ bitAt s.pm.railsLow (↑rail
    : ℕ) = false) ∧
    (∃ (s : Machine.State) (rail : Fin 9) (mv : BitVec 16), aonAlive s = true ∧ bitAt s.pm.railsLow (↑rail : ℕ) = true) ∧
    (∃ (s : Machine.State) (b : BootIn), aonAlive s = true ∧ s.pm.railsLow ≠ 0 ∧ running s = true) ∧
    (∃ (s : Machine.State) (b : BootIn), aonAlive s = true ∧ s.pm.railsLow ≠ 0 ∧ s.pm.held = Held.supply) ∧
    (∃ (s : Machine.State) (rail : Fin 9) (mv : BitVec 16), aonAlive s = true ∧ running s = true) := by
  refine ⟨?_, ?_, ?_, ?_, ?_⟩
  · refine ⟨firing 4, 8, 1000, ?_⟩
    and_intros <;> first | decide +kernel | rfl | exact Prod.ext (by decide +kernel) rfl
  · refine ⟨lowRail .no 0, 0, 1000, ?_⟩
    and_intros <;> first | decide +kernel | rfl | exact Prod.ext (by decide +kernel) rfl
  · refine ⟨lowRail .no 0, demoBoot, ?_⟩
    and_intros <;> first | decide +kernel | rfl | exact Prod.ext (by decide +kernel) rfl
  · refine ⟨lowRail .supply 0, demoBoot, ?_⟩
    and_intros <;> first | decide +kernel | rfl | exact Prod.ext (by decide +kernel) rfl
  · refine ⟨firing 4, 8, 900, ?_⟩
    and_intros <;> first | decide +kernel | rfl | exact Prod.ext (by decide +kernel) rfl

theorem met_SuppliesAreWatched_2 :
    (∃ (s : Machine.State), aonAlive s = true ∧ running s = true) ∧
    (∃ (s : Machine.State) (b : BootIn), aonAlive s = true ∧ s.pm.held = Held.thermal ∧ s.pm.railsLow ≠ 0) ∧
    (∃ (s : Machine.State) (b : BootIn), aonAlive s = true ∧ s.pm.held = Held.thermal ∧ s.pm.railsLow = 0) := by
  refine ⟨?_, ?_, ?_⟩
  · refine ⟨firing 4, ?_⟩
    and_intros <;> first | decide +kernel | rfl | exact Prod.ext (by decide +kernel) rfl
  · refine ⟨lowRail .thermal 0, demoBoot, ?_⟩
    and_intros <;> first | decide +kernel | rfl | exact Prod.ext (by decide +kernel) rfl
  · refine ⟨poweredAs fun p => { p with held := .thermal, heldKind := 0x40 }, demoBoot, ?_⟩
    and_intros <;> first | decide +kernel | rfl | exact Prod.ext (by decide +kernel) rfl

theorem met_ResetsClearAndStart :
    (∃ (s : Machine.State), s.pm.held ≠ Held.resetLow) ∧
    (∃ (s : Machine.State) (b : BootIn), s.pm.held = Held.resetLow) ∧
    (∃ (s : Machine.State) (b : BootIn), s.pm.held = Held.resetLow ∧ b.slotOk = true) ∧
    (∃ (s : Machine.State), running s = true ∧ s.pm.fwState ≠ 0) ∧
    (∃ (s : Machine.State) (b : BootIn) (kind : ℕ), running s = true ∧ kind ∈ [1, 2, 3, 4] ∧ s.pm.commandedReset = some kind)
    := by
  refine ⟨?_, ?_, ?_, ?_, ?_⟩
  · refine ⟨firing 4, ?_⟩
    first | decide +kernel | rfl | exact Prod.ext (by decide +kernel) rfl
  · refine ⟨State.reset, demoBoot, ?_⟩
    first | decide +kernel | rfl | exact Prod.ext (by decide +kernel) rfl
  · refine ⟨State.reset, demoBoot, ?_⟩
    and_intros <;> first | decide +kernel | rfl | exact Prod.ext (by decide +kernel) rfl
  · refine ⟨firing 4, ?_⟩
    and_intros <;> first | decide +kernel | rfl | exact Prod.ext (by decide +kernel) rfl
  · refine ⟨poweredAs fun p => { p with commandedReset := some 1 }, demoBoot, 1, ?_⟩
    and_intros <;> first | decide +kernel | rfl | exact Prod.ext (by decide +kernel) rfl

theorem met_ResetsClearAndStart_2 :
    (∃ (s : Machine.State) (b : BootIn) (kind : ℕ), running s = true ∧ kind ∈ [1, 2, 3, 4] ∧ s.pm.commandedReset = some kind)
    ∧
    (∃ (s : Machine.State) (b : BootIn) (kind : ℕ), running s = true ∧ kind ∈ [1, 2, 3, 4] ∧ s.pm.commandedReset = some kind)
    ∧
    (∃ (s : Machine.State) (x : Instr × ℕ), running s = true ∧ x ∈ [(Instr.functionLevelReset, 6), (Instr.perst, 7)]) ∧
    (∃ (s : Machine.State) (x : Instr × ℕ), running s = true ∧ x ∈ [(Instr.functionLevelReset, 6), (Instr.perst, 7)]) := by
  refine ⟨?_, ?_, ?_, ?_⟩
  · refine ⟨poweredAs fun p => { p with commandedReset := some 3 }, demoBoot, 3, ?_⟩
    and_intros <;> first | decide +kernel | rfl | exact Prod.ext (by decide +kernel) rfl
  · refine ⟨poweredAs fun p => { p with commandedReset := some 4 }, demoBoot, 4, ?_⟩
    and_intros <;> first | decide +kernel | rfl | exact Prod.ext (by decide +kernel) rfl
  · refine ⟨dmaing [demoDesc .active 1], (Instr.functionLevelReset, 6), ?_⟩
    and_intros <;> first | decide +kernel | rfl | exact Prod.ext (by decide +kernel) rfl
  · refine ⟨dmaing [demoDesc .active 1], (Instr.perst, 7), ?_⟩
    and_intros <;> first | decide +kernel | rfl | exact Prod.ext (by decide +kernel) rfl

theorem met_LiveLevelsSumToTheDose :
    (∃ (tab : List Byte) (c : ℕ) (k : ℕ) (d : ℕ) (N : ℕ) (l : List CSlot), k < 16 ∧ l = classSlots tab c k ∧ N = (List.filter
    (fun (x : CSlot) => x.live) l).length ∧ 1 ≤ N) ∧
    (∃ (tab : List Byte) (c : ℕ) (k : ℕ) (d : ℕ) (N : ℕ) (l : List CSlot), k < 16 ∧ l = classSlots tab c k ∧ N = (List.filter
    (fun (x : CSlot) => x.live) l).length ∧ 1 ≤ N) := by
  refine ⟨?_, ?_⟩
  · refine ⟨[], 511, 15, 480, 32, classSlots [] 511 15, ?_⟩
    and_intros <;> first | decide +kernel | rfl | exact Prod.ext (by decide +kernel) rfl
  · refine ⟨[2, 0, 0, 0], 0, 0, 465, 31, classSlots [2, 0, 0, 0] 0 0, ?_⟩
    and_intros <;> first | decide +kernel | rfl | exact Prod.ext (by decide +kernel) rfl

theorem met_RowsReadTheirLines :
    (∃ (s : Machine.State) (n : ℤ) (L : ℤ) (r : ℕ) (k : ℕ) (acc : List Frame), r < 512 ∧ s.diag.inject = [] ∧ L = n - 16 * (↑r
    : ℤ) - rowTrim (btab s) r ∧ k = r % 16 ∧ (L < 0 ∨ (↑s.seq.linesM1 : ℤ) < L)) := by
  refine ⟨oneSlot, -1, -1, 0, 0, [], ?_⟩
  and_intros <;> first | decide +kernel | rfl | exact Prod.ext (by decide +kernel) rfl

set_option maxRecDepth 1000000 in
theorem met_RowsReadTheirLines_bytes :
    (∃ (s : Machine.State) (n : ℤ) (L : ℤ) (r : ℕ) (k : ℕ) (acc : List Frame) (v : List ℕ), r < 512 ∧ s.diag.inject = [] ∧ L =
    n - 16 * (↑r : ℤ) - rowTrim (btab s) r ∧ k = r % 16 ∧ 0 ≤ L ∧ L ≤ (↑s.seq.linesM1 : ℤ) ∧ readSlot s false L.toNat k (16 *
    (L.toNat % 8704) + k) = Except.ok v) := by
  refine ⟨oneSlot, 0, 0, 0, 0, [], List.replicate 512 0, ?_⟩
  and_intros <;> first | decide +kernel | rfl | exact Prod.ext (by decide +kernel) rfl

/-! ### Lemmas for the witnesses that no evaluation reaches -/

theorem leBytes_add_mul (n : Nat) : ∀ v k : Nat, leBytes n (v + k * 256 ^ n) = leBytes n v := by
  induction n with
  | zero => intro v k; rfl
  | succ n ih =>
    intro v k
    have e : v + k * 256 ^ (n + 1) = v + 256 * (k * 256 ^ n) := by rw [Nat.pow_succ]; ring
    have h1 : BitVec.ofNat 8 (v + k * 256 ^ (n + 1)) = BitVec.ofNat 8 v := by
      apply BitVec.eq_of_toNat_eq
      simp only [BitVec.toNat_ofNat]
      rw [e, show (2 : Nat) ^ 8 = 256 from rfl, Nat.add_mul_mod_self_left]
    have h2 : (v + k * 256 ^ (n + 1)) / 256 = v / 256 + k * 256 ^ n := by rw [e, Nat.add_mul_div_left _ _ (by decide)]
    simp only [leBytes, h1, h2, ih]

theorem leBytes_take (n m : Nat) : ∀ v, (leBytes (n + m) v).take n = leBytes n v := by
  induction n with
  | zero => intro v; simp [leBytes]
  | succ n ih => intro v; rw [show n + 1 + m = (n + m) + 1 from by omega]; simp [leBytes, ih]

theorem leNat_leBytes (n : Nat) : ∀ v, v < 256 ^ n → leNat (leBytes n v) = v := by
  induction n with
  | zero => intro v h; simp only [leBytes, leNat]; omega
  | succ n ih =>
    intro v h
    have h' : v / 256 < 256 ^ n := by rw [Nat.div_lt_iff_lt_mul (by decide)]; rw [Nat.pow_succ] at h; exact h
    simp only [leBytes, leNat, ih _ h', BitVec.toNat_ofNat]
    omega

theorem leBytes_length (n : Nat) : ∀ v, (leBytes n v).length = n := by
  induction n with
  | zero => intro v; rfl
  | succ n ih => intro v; simp [leBytes, ih]

/-- A number below 2^a and k times 2^a, k below 2^n. -/
theorem add_mul_pow_lt {x k a n : Nat} (h : x < 2 ^ a) (hk : k < 2 ^ n) : x + k * 2 ^ a < 2 ^ (n + a) :=
  calc x + k * 2 ^ a < 2 ^ a + k * 2 ^ a := Nat.add_lt_add_right h _
    _ = (k + 1) * 2 ^ a := by rw [Nat.add_mul, Nat.one_mul, Nat.add_comm]
    _ ≤ 2 ^ n * 2 ^ a := Nat.mul_le_mul_right _ hk
    _ = 2 ^ (n + a) := (Nat.pow_add 2 n a).symm

/-- A header with its check put into the upper quarter. -/
theorem checked_toNat (w : W128) (c : BitVec 32) (h : w.toNat < 2 ^ 96) :
    (w + BitVec.ofNat 128 (c.toNat * 2 ^ 96)).toNat = w.toNat + c.toNat * 2 ^ 96 := by
  have hs : w.toNat + c.toNat * 2 ^ 96 < 2 ^ 128 := add_mul_pow_lt (n := 32) h c.isLt
  rw [BitVec.toNat_add, BitVec.toNat_ofNat, Nat.mod_eq_of_lt (Nat.lt_of_le_of_lt (Nat.le_add_left _ _) hs), Nat.mod_eq_of_lt hs]

theorem checked_low (w : W128) (c : BitVec 32) (h : w.toNat < 2 ^ 96) (lo n : Nat) (hn : lo + n ≤ 96) :
    bitsNat (w + BitVec.ofNat 128 (c.toNat * 2 ^ 96)) lo n = bitsNat w lo n := by
  simp only [bitsNat, checked_toNat w c h]
  have e : (2 : Nat) ^ 96 = 2 ^ lo * (2 ^ n * 2 ^ (96 - lo - n)) := by
    rw [← Nat.pow_add, ← Nat.pow_add]; congr 1; omega
  rw [e, show c.toNat * (2 ^ lo * (2 ^ n * 2 ^ (96 - lo - n))) = 2 ^ lo * (2 ^ n * (c.toNat * 2 ^ (96 - lo - n))) from by ring,
    Nat.add_mul_div_left _ _ (Nat.two_pow_pos lo), Nat.add_mul_mod_self_left]

theorem checked_check (w : W128) (c : BitVec 32) (h : w.toNat < 2 ^ 96) :
    bitsOf (w + BitVec.ofNat 128 (c.toNat * 2 ^ 96)) 96 32 = c := by
  apply BitVec.eq_of_toNat_eq
  rw [bitsOf, checked_toNat w c h, BitVec.toNat_ofNat, Nat.add_mul_div_right _ _ (Nat.two_pow_pos 96), Nat.div_eq_of_lt h,
    Nat.zero_add, Nat.mod_eq_of_lt c.isLt]

theorem scheck_checked (w : W128) (c : BitVec 32) (b : List Byte) (h : w.toNat < 2 ^ 96) :
    scheck (w + BitVec.ofNat 128 (c.toNat * 2 ^ 96)) b = scheck w b := by
  simp only [scheck, wordBytes, checked_toNat w c h]
  rw [leBytes_take 12 4, leBytes_take 12 4, show (2 : Nat) ^ 96 = 256 ^ 12 from by norm_num, leBytes_add_mul]

theorem fields_lt (a b c d e f : Nat) :
    (word [(0, 12, a), (12, 12, b), (24, 8, c), (32, 13, d), (45, 2, e), (64, 32, f)]).toNat < 2 ^ 96 := by
  rw [word, BitVec.toNat_ofNat]
  refine Nat.lt_of_le_of_lt (Nat.mod_le _ _) ?_
  have h1 := Nat.mod_lt a (y := 2 ^ 12) (by decide)
  have h2 := Nat.mod_lt b (y := 2 ^ 12) (by decide)
  have h3 := Nat.mod_lt c (y := 2 ^ 8) (by decide)
  have h4 := Nat.mod_lt d (y := 2 ^ 13) (by decide)
  have h5 := Nat.mod_lt e (y := 2 ^ 2) (by decide)
  have hr : a % 2 ^ 12 * 2 ^ 0 + (b % 2 ^ 12 * 2 ^ 12 + (c % 2 ^ 8 * 2 ^ 24 + (d % 2 ^ 13 * 2 ^ 32 + e % 2 ^ 2 * 2 ^ 45))) < 2 ^ 64 := by
    generalize a % 2 ^ 12 = a at *
    generalize b % 2 ^ 12 = b at *
    generalize c % 2 ^ 8 = c at *
    generalize d % 2 ^ 13 = d at *
    generalize e % 2 ^ 2 = e at *
    omega
  have := add_mul_pow_lt (n := 32) hr (Nat.mod_lt f (Nat.two_pow_pos 32))
  simpa only [packFields, Nat.add_zero, Nat.add_assoc] using this

theorem header_fields (dst src typ len cls : Nat) (m : BitVec 32) (b : List Byte) (w : W128)
    (hw : w = word [(0, 12, dst), (12, 12, src), (24, 8, typ), (32, 13, len), (45, 2, cls), (64, 32, m.toNat)]) :
    (∀ lo n, lo + n ≤ 96 → bitsNat (header dst src typ len cls m b) lo n = bitsNat w lo n) ∧
    scheck (header dst src typ len cls m b) b = hdrCheck (header dst src typ len cls m b) := by
  have h : w.toNat < 2 ^ 96 := by rw [hw]; exact fields_lt dst src typ len cls m.toNat
  have e : header dst src typ len cls m b = w + BitVec.ofNat 128 ((scheck w b).toNat * 2 ^ 96) := by rw [hw, header]
  rw [e]
  refine ⟨fun lo n hn => checked_low _ _ h lo n hn, ?_⟩
  rw [scheck_checked _ _ _ h, hdrCheck, checked_check _ _ h]

/-! ### Witnesses about the device's own serial number, which nothing evaluates -/

/-- One of two serial numbers is not this device's. -/
theorem other_serial : ∃ x : BitVec 64, (x = 0 ∨ x = 1) ∧ x ≠ Config.serial := by
  by_cases h : (0 : BitVec 64) = Config.serial
  · exact ⟨1, .inr rfl, by rw [← h]; decide⟩
  · exact ⟨0, .inl rfl, h⟩

set_option maxRecDepth 1000000 in
theorem met_port_hello : ∃ (s : State) (p : Fin 8) (sp : Spore), (port s p).st = PortSt.training ∧ domOn s Domain.fab = true ∧
    hdrType sp.header = 1 ∧ helloValid sp = true ∧ helloSerial sp.payload ≠ Config.serial := by
  have key : ∀ x : BitVec 64, x = 0 ∨ x = 1 → hdrType (helloOf x).header = 1 ∧ helloValid (helloOf x) = true ∧
      helloSerial (helloOf x).payload = x := by
    rintro x (rfl | rfl) <;> decide +kernel
  obtain ⟨x, hx, hn⟩ := other_serial
  obtain ⟨h1, h2, h3⟩ := key x hx
  exact ⟨portIn .training, 0, helloOf x, by decide +kernel, by decide +kernel, h1, h2, by rw [h3]; exact hn⟩

/-- A TOPO of the device `x`. -/
def topoOf (x : BitVec 64) : Spore := spore 2 3 (leBytes 8 x.toNat ++ List.replicate 88 0)

set_option maxRecDepth 1000000 in
theorem met_topo : ∃ (s : State) (p : Fin 8) (sp : Spore), Heard 2 p sp s ∧ discovering s = true ∧
    (foundOf sp.payload).serial ≠ Config.serial := by
  have key : ∀ x : BitVec 64, x = 0 ∨ x = 1 → Heard 2 0 (topoOf x) (waitingOn .discover (meshed .ready)) ∧
      (foundOf (topoOf x).payload).serial = x := by
    rintro x (rfl | rfl) <;> unfold Heard <;> decide +kernel
  obtain ⟨x, hx, hn⟩ := other_serial
  obtain ⟨h1, h2⟩ := key x hx
  exact ⟨_, 0, topoOf x, h1, by decide +kernel, by rw [h2]; exact hn⟩

/-- FAB_ASSIGN_NODE of node 1 to the device `x`. -/
def assignAsk (x : BitVec 64) : Entry := ask [(1#64 ++ x : W128)]

theorem assign_starts (x : BitVec 64) : Starts cmdFabAssignNode (assignAsk x) (meshed .ready) ∧
    bitsOf (Entry.arg (assignAsk x) 0) 0 64 = x ∧ bitsOf (Entry.arg (assignAsk x) 0) 64 12 = (1 : BitVec 12) := by
  have a : Entry.arg (assignAsk x) 0 = 1#64 ++ x := rfl
  have t : (1#64 ++ x : W128).toNat = 2 ^ 64 + x.toNat := by
    rw [BitVec.toNat_append, show (1#64).toNat = 1 from rfl, Nat.shiftLeft_eq, Nat.mul_comm, ← Nat.two_pow_add_eq_or_of_lt x.isLt]
    simp
  have m : maskOk (bits 0 64 + bits 64 12) (1#64 ++ x) = true := by
    have e : ~~~(BitVec.ofNat 128 (bits 0 64 + bits 64 12)) = (~~~(0xFFF#64) ++ 0#64 : W128) := by decide +kernel
    rw [maskOk, e, BitVec.and_append]
    simp
  have g : argsOk cmdFabAssignNode.masks (assignAsk x).args.toList = true := by
    have e : argsOk cmdFabAssignNode.masks (assignAsk x).args.toList = (maskOk (bits 0 64 + bits 64 12) (1#64 ++ x) && true) := rfl
    rw [e, m]; rfl
  refine ⟨⟨?_, ?_, ?_, ?_⟩, ?_, ?_⟩
  · show sourceReady (meshed .ready) (.mailbox 0) = true
    decide +kernel
  · show sourceSpace (meshed .ready) (.mailbox 0) = true
    decide +kernel
  · decide +kernel
  · rw [Cmd.judge, if_neg (by show ¬ ((Src.mailbox 0 == Src.service && !serviceServes cmdFabAssignNode (meshed .ready)) = true); decide),
      if_neg (by show ¬ (1 ≠ cmdFabAssignNode.masks.length); decide),
      if_neg (by rw [g]; show ¬ ((0#29 ≠ 0) ∨ true = false); decide), if_neg (by decide +kernel), if_neg (by decide +kernel)]
  · rw [a]
    apply BitVec.eq_of_toNat_eq
    have := x.isLt
    rw [bitsOf, BitVec.toNat_ofNat, t, Nat.pow_zero, Nat.div_one, Nat.add_mod_left, Nat.mod_eq_of_lt this]
  · rw [a]
    apply BitVec.eq_of_toNat_eq
    rw [bitsOf, BitVec.toNat_ofNat, t, Nat.add_div_left _ (Nat.two_pow_pos 64), Nat.div_eq_of_lt x.isLt]
    rfl

theorem met_assign_other : ∃ (e : Entry) (s : State) (serial : BitVec 64) (node : BitVec 12), Starts cmdFabAssignNode e s ∧
    objBusy s [(5, 0, 0)] = false ∧ serial = bitsOf (Entry.arg e 0) 0 64 ∧ node = bitsOf (Entry.arg e 0) 64 12 ∧
    nodeOk node.toNat = true ∧ nodeTaken s node = false ∧ serial ≠ Config.serial := by
  obtain ⟨x, -, hn⟩ := other_serial
  obtain ⟨h1, h2, h3⟩ := assign_starts x
  exact ⟨_, _, x, 1, h1, by decide +kernel, h2.symm, h3.symm, by decide, by decide +kernel, hn⟩

theorem met_assign_self : ∃ (e : Entry) (s : State) (serial : BitVec 64) (node : BitVec 12), Starts cmdFabAssignNode e s ∧
    objBusy s [(5, 0, 0)] = false ∧ serial = bitsOf (Entry.arg e 0) 0 64 ∧ node = bitsOf (Entry.arg e 0) 64 12 ∧
    nodeOk node.toNat = true ∧ nodeTaken s node = false ∧ serial = Config.serial ∧ s.fab.pair.st = PairSt.unpaired := by
  obtain ⟨h1, h2, h3⟩ := assign_starts Config.serial
  exact ⟨_, _, _, 1, h1, by decide +kernel, h2.symm, h3.symm, by decide, by decide +kernel, rfl, by decide +kernel⟩

theorem heard_assign (p : List Byte) (h : p.length = 32) : Heard 3 0 (spore 3 3 p) (meshed .ready) := by
  obtain ⟨hf, hc⟩ := header_fields 0x10 0x20 3 32 3 1 p _ rfl
  have hh : (spore 3 3 p).header = header 0x10 0x20 3 32 3 1 p := by
    show header 0x10 0x20 3 p.length 3 1 p = _
    rw [h]
  have hw : (spore 3 3 p).words = 3 := by
    show sporeWords p.length = 3
    rw [h]; rfl
  have t : hdrType (spore 3 3 p).header = 3 := by rw [hdrType, hh, hf _ _ (by decide)]; decide +kernel
  have l : hdrLen (spore 3 3 p).header = 32 := by rw [hdrLen, hh, hf _ _ (by decide)]; decide +kernel
  have k : hdrClass (spore 3 3 p).header = 3 := by rw [hdrClass, hh, hf _ _ (by decide)]; decide +kernel
  have d : hdrDst (spore 3 3 p).header = 0x10 := by rw [hdrDst, hh, hf _ _ (by decide)]; decide +kernel
  have c : hdrSrc (spore 3 3 p).header = 0x20 := by rw [hdrSrc, hh, hf _ _ (by decide)]; decide +kernel
  have z : bitsNat (spore 3 3 p).header 47 17 = 0 := by rw [hh, hf _ _ (by decide)]; decide +kernel
  refine ⟨t, ?_, ?_, .inr (.inr (by rw [d]; rfl)), by decide +kernel⟩
  · have ok : scheck (spore 3 3 p).header (spore 3 3 p).payload = hdrCheck (spore 3 3 p).header := by rw [hh]; exact hc
    have q : (2 ^ 24 + (spore 3 3 p).hopSeq.toNat - (pclass (meshed .ready) 0 (spore 3 3 p).cls).rx) % 2 ^ 24 = 0 := by
      show (2 ^ 24 + (0xFFFFFF#24).toNat - (pclass (meshed .ready) 0 3).rx) % 2 ^ 24 = 0
      decide +kernel
    have u : (!fabAlive (meshed .ready) || !portUp (meshed .ready) 0) = false := by decide +kernel
    rw [linkTake]
    simp only [u, q, ok, show (spore 3 3 p).startOk = true from rfl, show (spore 3 3 p).credOk = true from rfl, Bool.not_true,
      Bool.false_eq_true, if_false, if_true]
  · rw [sporeViolation]
    simp only [t, l, k, d, c, z, hw, show (spore 3 3 p).cls = 3 from rfl]
    decide +kernel

theorem met_assigned : ∃ (s : State) (p : Fin 8) (sp : Spore) (node : BitVec 12), Heard 3 p sp s ∧
    BitVec.ofNat 64 (leAt sp.payload 16 8) = Config.serial ∧ s.fab.pair.st = PairSt.unpaired ∧
    node = BitVec.ofNat 12 (leAt sp.payload 24 2) ∧ nodeOk node.toNat = true ∧ s.fab.node ≠ node := by
  have hl : (leBytes 8 Config.serial.toNat).length = 8 := leBytes_length 8 _
  refine ⟨meshed .ready, 0, spore 3 3 (leBytes 16 5 ++ (leBytes 8 Config.serial.toNat ++ leBytes 8 0xFFE)), 0xFFE, heard_assign _ ?_, ?_,
    by decide +kernel, ?_, by decide, by decide +kernel⟩
  · simp only [List.length_append, leBytes_length]
  · show BitVec.ofNat 64 (leNat (slice (leBytes 16 5 ++ (leBytes 8 Config.serial.toNat ++ leBytes 8 0xFFE)) 16 8)) = _
    have e : slice (leBytes 16 5 ++ (leBytes 8 Config.serial.toNat ++ leBytes 8 0xFFE)) 16 8 = leBytes 8 Config.serial.toNat := by
      have h16 : (leBytes 16 5).length = 16 := leBytes_length 16 _
      simp only [slice, List.drop_left' h16, List.take_left' hl, hl, Nat.sub_self, List.replicate_zero, List.append_nil]
    rw [e, leNat_leBytes 8 _ (by have := Config.serial.isLt; simpa using this), BitVec.ofNat_toNat, BitVec.setWidth_eq]
  · show (0xFFE : BitVec 12) = BitVec.ofNat 12 (leNat (slice (leBytes 16 5 ++ (leBytes 8 Config.serial.toNat ++ leBytes 8 0xFFE)) 24 2))
    have h24 : (leBytes 16 5 ++ leBytes 8 Config.serial.toNat).length = 24 := by simp only [List.length_append, leBytes_length]
    rw [← List.append_assoc]
    have e : slice (leBytes 16 5 ++ leBytes 8 Config.serial.toNat ++ leBytes 8 0xFFE) 24 2 = [0xFE, 0x0F] := by
      simp only [slice, List.drop_left' h24]
      decide
    rw [e]; decide

/-! ### Witnesses about digests and sealed bytes, which nothing evaluates -/

theorem met_upd_arm : ∃ (e : Entry) (s : State), Starts cmdUpdArm e s ∧ bitsNat (Entry.arg e 0) 8 8 = 0xA5 ∧ pairHolds s = false ∧
    updComplete (checkPieces s) = true ∧ Config.sha384 (stagedImage (checkPieces s)) = s.upd.digest :=
  ⟨ask [word [(0, 1, 1), (8, 8, 0xA5)]], armed (Config.sha384 []), by and_intros <;> decide +kernel, by decide +kernel, by decide +kernel,
    by decide +kernel, rfl⟩

theorem met_upd_arm_bad : ∃ (e : Entry) (s : State), Starts cmdUpdArm e s ∧ bitsNat (Entry.arg e 0) 8 8 = 0xA5 ∧ pairHolds s = false ∧
    updComplete (checkPieces s) = true ∧ Config.sha384 (stagedImage (checkPieces s)) ≠ s.upd.digest := by
  refine ⟨ask [word [(0, 1, 1), (8, 8, 0xA5)]], armed (Config.sha384 [] + 1), by and_intros <;> decide +kernel, by decide +kernel,
    by decide +kernel, by decide +kernel, ?_⟩
  show Config.sha384 [] ≠ Config.sha384 [] + 1
  intro h
  have h1 : (1 : BitVec 384) = 0 := by
    have h2 := congrArg (fun x => x - Config.sha384 []) h
    simpa [BitVec.add_comm] using h2.symm
  exact absurd h1 (by decide)

/-- Either sealed clause of an ingest is met, by what the record opens to. -/
theorem met_ingest_sealed : ∃ (s : State) (f : BitVec 8) (r : IngestRun) (j : IngestJob) (n : Nat) (key : BitVec 256) (hb b : List Byte),
    domOn s Domain.ing = true ∧ ingestOf s f = some r ∧ ingestJob s r = some j ∧ s.lay.decryptor = some (n, key) ∧ j.sealed_ = true ∧
    r.stalled = false ∧ jread s j.src 0 64 = Except.ok hb ∧ r.recNo < (Container.of hb).recCount ∧
    jread s j.src (64 + r.recNo * 1048592) (recordLen (Container.of hb) r.recNo) = Except.ok b ∧
    (openRecord key (Container.of hb) r.recNo b = none ∨ ∃ p, openRecord key (Container.of hb) r.recNo b = some p) := by
  refine ⟨sealedInput, 3, demoRun false [], IngestJob.of 3 (ingestParams 0x14 0x10000), 0, 1, hostRead sealedInput 0 64,
    hostRead sealedInput 64 32, by decide +kernel, by decide +kernel, by decide +kernel, by decide +kernel, by decide +kernel,
    by decide +kernel, by decide +kernel, by decide +kernel, by decide +kernel, ?_⟩
  cases openRecord 1 (Container.of (hostRead sealedInput 0 64)) (demoRun false []).recNo (hostRead sealedInput 64 32) with
  | none => exact .inl rfl
  | some p => exact .inr ⟨p, rfl⟩

/-- Either import clause is met, by what the blob unwraps to: its head is as it must be. -/
theorem met_import_either : ∃ (e : Entry) (s : State) (b : List Byte) (u : State), Starts cmdSecImportKey e s ∧
    importRefused (importSlot e) s = none ∧
    readBuffer e (Entry.arg e 1) (fun n => n == 176) (consume e.src s) = (Except.ok b, u) ∧
    blobHeadOk b (importSlot e).val (bitsNat (Entry.arg e 0) 64 64) = true ∧
    (unwrapBlob b (importSlot e).val (bitsNat (Entry.arg e 0) 64 64) = none ∨
      ∃ k, unwrapBlob b (importSlot e).val (bitsNat (Entry.arg e 0) 64 64) = some k) := by
  refine ⟨importAsk 0, blobbed, demoBlob, consume (.mailbox 0) blobbed, by and_intros <;> decide +kernel, by decide +kernel,
    Prod.ext (by decide +kernel) rfl, by decide +kernel, ?_⟩
  cases unwrapBlob demoBlob (importSlot (importAsk 0)).val (bitsNat (Entry.arg (importAsk 0) 0) 64 64) with
  | none => exact .inl rfl
  | some k => exact .inr ⟨k, rfl⟩

/-! ### Witnesses about a table of a mebibyte, which nothing evaluates -/

theorem drop_replicate_flatten (x : List Byte) (k n : Nat) :
    ((List.replicate n x).flatten).drop (x.length * k) = (List.replicate (n - k) x).flatten := by
  induction k generalizing n with
  | zero => simp
  | succ k ih =>
    cases n with
    | zero => simp
    | succ n =>
      rw [List.replicate_succ, List.flatten_cons, Nat.mul_succ, Nat.add_comm, ← List.drop_drop, List.drop_left, ih]
      congr 2
      omega

/-- A beam table of one entry throughout: dead beams, or live ones of one gain. -/
def evenTable (x : List Byte) : List Byte := (List.replicate 262144 x).flatten

theorem evenTable_length (x : List Byte) (h : x.length = 4) : (evenTable x).length = 1048576 := by
  rw [evenTable, List.length_flatten, List.map_replicate, List.sum_replicate, h]; rfl

theorem evenTable_entry (x : List Byte) (h : x.length = 4) (b : Nat) (hb : b < 262144) : btEntry (evenTable x) b = leNat x := by
  have e : slice (evenTable x) (4 * b) 4 = x := by
    have d := drop_replicate_flatten x b 262144
    rw [h] at d
    obtain ⟨m, hm⟩ : ∃ m, 262144 - b = m + 1 := ⟨262144 - b - 1, by omega⟩
    rw [slice, evenTable, d, hm, List.replicate_succ, List.flatten_cons, List.take_left' h, h]
    simp
  rw [btEntry, leAt, e]

theorem firstBad_none (p : Nat → Bool) : ∀ l : List Nat, (∀ b ∈ l, p b = false) → firstBad p l = none := by
  intro l
  induction l with
  | nil => intro _; rfl
  | cons a t ih =>
    intro h
    rw [firstBad, h a (by simp)]
    exact ih fun b hb => h b (by simp [hb])

theorem btCheck_none (t : List Byte) (r : List Nat) (h1 : ∀ b ∈ r, (!btReservedOk (btEntry t b)) = false)
    (h2 : ∀ b ∈ r, (b % 512 != 0 && btLtrim (btEntry t b) != 0) = false)
    (h3 : ∀ b ∈ r, (btLive (btEntry t b) && decide (btGain (btEntry t b) < 512)) = false) (h : List.range beams = r) :
    btCheck t (crc32c t) = none := by
  rw [btCheck, h, if_neg (fun h => h rfl), firstBad_none _ _ h1]
  dsimp only
  rw [firstBad_none _ _ h2]
  dsimp only
  rw [firstBad_none _ _ h3]

theorem evenTable_ok (x : List Byte) (h : x.length = 4) (h1 : btReservedOk (leNat x) = true) (h2 : btLtrim (leNat x) = 0)
    (h3 : btLive (leNat x) = false ∨ 512 ≤ btGain (leNat x)) : btCheck (evenTable x) (crc32c (evenTable x)) = none := by
  have n : beams = 262144 := by decide +kernel
  have e : ∀ b ∈ List.range beams, btEntry (evenTable x) b = leNat x := by
    intro b hb
    exact evenTable_entry x h b (by rw [← n]; exact List.mem_range.mp hb)
  generalize evenTable x = t at e ⊢
  refine btCheck_none _ _ (fun b hb => ?_) (fun b hb => ?_) (fun b hb => ?_) rfl
  · rw [e b hb, h1]; rfl
  · rw [e b hb, h2]; simp
  · rw [e b hb]
    rcases h3 with h3 | h3
    · rw [h3]; rfl
    · rw [decide_eq_false (by omega), Bool.and_false]

/-- A load of the `n` bytes at host address 0x100000 whose check is to be `c`. -/
def loadAsk (n : Nat) (c : BitVec 32) : Entry := ask [buf 0x100000 n, (0#96 ++ c : W128)]

/-- The bytes `l` wait there. -/
def loadable (l : List Byte) : State := { ready with hostMem := Memory.writes [] 0x100000 l }

theorem load_crc (n : Nat) (c : BitVec 32) : bitsOf (Entry.arg (loadAsk n c) 1) 0 32 = c := by
  have a : Entry.arg (loadAsk n c) 1 = 0#96 ++ c := rfl
  rw [a]
  apply BitVec.eq_of_toNat_eq
  rw [bitsOf, BitVec.toNat_ofNat, BitVec.toNat_append]
  simpa using c.isLt

theorem load_args (n : Nat) (c : BitVec 32) (h : maskOk refMask (buf 0x100000 n) = true) :
    argsOk [refMask, bits 0 32] (loadAsk n c).args.toList = true := by
  have m : maskOk (bits 0 32) (0#96 ++ c) = true := by
    have e : ~~~(BitVec.ofNat 128 (bits 0 32)) = (~~~(0#96) ++ 0#32 : W128) := by decide +kernel
    rw [maskOk, e, BitVec.and_append]
    simp
  have e : argsOk [refMask, bits 0 32] (loadAsk n c).args.toList =
      (maskOk refMask (buf 0x100000 n) && (maskOk (bits 0 32) (0#96 ++ c) && true)) := rfl
  rw [e, m, h]; rfl

theorem load_starts (d : Cmd) (hd : d = cmdLoadBeamTable ∨ d = cmdLoadLayerMap) (n : Nat) (c : BitVec 32) (l : List Byte)
    (h : maskOk refMask (buf 0x100000 n) = true) : Starts d (loadAsk n c) (loadable l) := by
  have hm : d.masks = [refMask, bits 0 32] := by rcases hd with rfl | rfl <;> rfl
  have ha : argsOk d.masks (loadAsk n c).args.toList = true := by rw [hm]; exact load_args n c h
  refine ⟨?_, ?_, ?_, ?_⟩
  · show sourceReady ready (.mailbox 0) = true
    decide +kernel
  · show sourceSpace ready (.mailbox 0) = true
    decide +kernel
  · rcases hd with rfl | rfl
    · show modeHolds ready cmdLoadBeamTable = false
      decide +kernel
    · show modeHolds ready cmdLoadLayerMap = false
      decide +kernel
  · rw [Cmd.judge, if_neg (by show ¬ ((false && !serviceServes d (loadable l)) = true); simp),
      if_neg (by rw [hm]; show ¬ ((2 : Nat) ≠ 2); decide),
      if_neg (by rw [ha]; show ¬ ((0#29 ≠ 0) ∨ true = false); decide)]
    rcases hd with rfl | rfl
    · rw [if_neg (by show ¬ (cmdLoadBeamTable.modes.contains Mode.ready = false); decide +kernel),
        if_neg (by show ¬ (cmdLoadBeamTable.needs.all (domOn ready) = false); decide +kernel)]
    · rw [if_neg (by show ¬ (cmdLoadLayerMap.modes.contains Mode.ready = false); decide +kernel),
        if_neg (by show ¬ (cmdLoadLayerMap.needs.all (domOn ready) = false); decide +kernel)]

theorem reads_eq (m : Memory) : ∀ (l : List Byte) (a : Nat), (∀ i, (h : i < l.length) → Memory.read m (a + i) = l[i]) →
    Memory.reads m a l.length = l := by
  intro l
  induction l with
  | nil => intro a _; rfl
  | cons b t ih =>
    intro a h
    rw [List.length_cons, Memory.reads, ih (a + 1) (fun i hi => by
      have := h (i + 1) (by simp; omega)
      rw [show a + 1 + i = a + (i + 1) from by omega, this]; rfl)]
    have := h 0 (by simp)
    rw [Nat.add_zero] at this
    rw [this]; rfl

theorem consume_mode (m : Memory) : (consume (.mailbox 0) { ready with hostMem := m }).pm.mode = Mode.ready := by
  rw [(consume_parts _ _).2.1]; rfl

theorem consume_mem_of (s : State) (h2 : ring s (subRing 0) = ring ready (subRing 0)) :
    (consume (.mailbox 0) s).hostMem = Memory.writes s.hostMem 0x80000 (leBytes 4 1) := by
  have h1 : ∀ (k : Nat) (r : Ring) (s : State), ring (stat k (setRing (subRing 0) r s)) (subRing 0) = r := by
    intro k r s
    simp [ring, setRing]
  have h3 : (ring ready (subRing 0)).shadow.toNat = 0x80000 := by decide +kernel
  have h4 : ((ring ready (subRing 0)).devIdx + 1).toNat = 1 := by decide +kernel
  simp only [consume, advance, writeShadow, hostWrite, h1, h2, h3, h4, setRing_parts, coalesce_parts, emit_parts, stat_parts]

theorem consume_mem (m : Memory) : (consume (.mailbox 0) { ready with hostMem := m }).hostMem = Memory.writes m 0x80000 (leBytes 4 1) :=
  consume_mem_of _ rfl

theorem load_reads (n : Nat) (c : BitVec 32) (l : List Byte) (hl : l.length = n) (ok : Nat → Bool) (hk : ok n = true)
    (hb : bufRef (buf 0x100000 n) = { addr := 0x100000, len := n, space := 0, rflow := 0 }) :
    readBuffer (loadAsk n c) (Entry.arg (loadAsk n c) 0) ok (consume (loadAsk n c).src (loadable l)) =
      (.ok l, consume (loadAsk n c).src (loadable l)) := by
  have a : Entry.arg (loadAsk n c) 0 = buf 0x100000 n := rfl
  have hr : hostRead (consume (.mailbox 0) (loadable l)) 0x100000 n = l := by
    rw [hostRead, loadable, consume_mem]
    subst hl
    refine reads_eq _ l _ fun i hi => ?_
    rw [Memory.read_writes_ne _ _ _ _ (.inr (by rw [leBytes_length]; omega)), Memory.read_writes_at [] 0x100000 l rfl i hi]
  have hs : (loadAsk n c).src = Src.mailbox 0 := rfl
  have hm : (consume (.mailbox 0) (loadable l)).pm.mode = Mode.ready := consume_mode _
  rw [readBuffer, a, hb, hs]
  simp only [refValid, hr, hk, hm, show (loadAsk n c).busErr = false from rfl]
  simp

theorem met_table_ok : ∃ (e : Entry) (s u : State) (l : List Byte), Starts cmdLoadBeamTable e s ∧
    readBuffer e (Entry.arg e 0) (fun n => n == 1048576) (consume e.src s) = (Except.ok l, u) ∧
    btCheck l (bitsOf (Entry.arg e 1) 0 32) = none := by
  refine ⟨loadAsk 1048576 (crc32c (evenTable [2, 0, 0, 0])), loadable (evenTable [2, 0, 0, 0]), _, evenTable [2, 0, 0, 0],
    load_starts _ (.inl rfl) _ _ _ (by decide +kernel), load_reads _ _ _ (evenTable_length _ rfl) _ rfl (by decide +kernel), ?_⟩
  rw [load_crc]
  exact evenTable_ok _ rfl (by decide) (by decide +kernel) (.inl (by decide))

theorem met_table_bad : ∃ (e : Entry) (s u : State) (l : List Byte) (reason beam : Nat), Starts cmdLoadBeamTable e s ∧
    readBuffer e (Entry.arg e 0) (fun n => n == 1048576) (consume e.src s) = (Except.ok l, u) ∧
    btCheck l (bitsOf (Entry.arg e 1) 0 32) = some (reason, beam) := by
  refine ⟨loadAsk 1048576 (~~~ crc32c (evenTable [2, 0, 0, 0])), loadable (evenTable [2, 0, 0, 0]), _, evenTable [2, 0, 0, 0], 1, 0x3FFFF,
    load_starts _ (.inl rfl) _ _ _ (by decide +kernel), load_reads _ _ _ (evenTable_length _ rfl) _ rfl (by decide +kernel), ?_⟩
  rw [load_crc, btCheck, if_pos]
  generalize crc32c (evenTable [2, 0, 0, 0]) = x
  intro h
  have h0 := congrArg (fun y : BitVec 32 => y.getLsbD 0) h
  simp at h0

/-- A layer map of zeros. -/
def zeroMap : List Byte := List.replicate 4160 0

theorem zeroMap_at (a n : Nat) : leAt zeroMap a n = 0 := by
  have z : ∀ l : List Byte, (∀ b ∈ l, b = 0) → leNat l = 0 := by
    intro l
    induction l with
    | nil => intro _; rfl
    | cons b t ih =>
      intro h
      rw [leNat, ih fun x hx => h x (by simp [hx]), h b (by simp)]; rfl
  refine z _ fun b hb => ?_
  rw [slice] at hb
  rcases List.mem_append.mp hb with hb | hb
  · exact (List.mem_replicate.mp (List.mem_of_mem_drop (List.mem_of_mem_take hb : b ∈ zeroMap.drop a))).2
  · exact (List.mem_replicate.mp hb).2

theorem lmCheck_none (l : List Byte) (e : ∀ i, lmEntry l i = 0) (c : ∀ i, lmClassEntry l i = 0) : lmCheck l (crc32c l) = none := by
  unfold lmCheck
  generalize List.range 272 = r, List.range 256 = q
  rw [if_neg (fun h => h rfl), firstBad_none _ _ (by
    intro i _
    rw [lmReservedBad, e, c]
    split <;> decide)]
  dsimp only
  rw [firstBad_none _ _ (by intro i _; rw [lmDupExact, e]; rfl)]
  dsimp only
  rw [firstBad_none _ _ (by intro i _; rw [lmDupAny, e]; rfl)]
  rfl

theorem zeroMap_ok : lmCheck zeroMap (crc32c zeroMap) = none :=
  lmCheck_none zeroMap (fun _ => zeroMap_at _ _) fun _ => zeroMap_at _ _

theorem met_map_ok : ∃ (e : Entry) (s u : State) (l : List Byte), Starts cmdLoadLayerMap e s ∧
    readBuffer e (Entry.arg e 0) (fun n => n == 4160) (consume e.src s) = (Except.ok l, u) ∧
    lmCheck l (bitsOf (Entry.arg e 1) 0 32) = none := by
  refine ⟨loadAsk 4160 (crc32c zeroMap), loadable zeroMap, _, zeroMap,
    load_starts _ (.inr rfl) _ _ _ (by decide +kernel), load_reads _ _ _ List.length_replicate _ rfl (by decide +kernel), ?_⟩
  rw [load_crc]
  exact zeroMap_ok

theorem met_map_bad : ∃ (e : Entry) (s u : State) (l : List Byte) (reason entry : Nat), Starts cmdLoadLayerMap e s ∧
    readBuffer e (Entry.arg e 0) (fun n => n == 4160) (consume e.src s) = (Except.ok l, u) ∧
    lmCheck l (bitsOf (Entry.arg e 1) 0 32) = some (reason, entry) := by
  refine ⟨loadAsk 4160 (~~~ crc32c zeroMap), loadable zeroMap, _, zeroMap, 1, 0x3FFFF,
    load_starts _ (.inr rfl) _ _ _ (by decide +kernel), load_reads _ _ _ List.length_replicate _ rfl (by decide +kernel), ?_⟩
  rw [load_crc, lmCheck, if_pos]
  generalize crc32c zeroMap = x
  intro h
  have h0 := congrArg (fun y : BitVec 32 => y.getLsbD 0) h
  simp at h0

theorem met_dose : ∃ (tab : List Byte) (c k d gmax : Nat) (l : List CSlot), k < 16 ∧ l = classSlots tab c k ∧
    (∃ x ∈ l, x.live = true) ∧ (∀ x ∈ l, x.live = true → 512 ≤ x.gain) ∧ (∃ x ∈ l, x.live = true ∧ x.gain = gmax) ∧
    ∀ x ∈ l, x.live = true → x.gain ≤ gmax := by
  have e : classSlots (evenTable [0, 0, 8, 0]) 511 15 = (List.range 32).map fun j => { j := j, live := true, gain := 512 } := by
    unfold classSlots
    apply List.map_congr_left
    intro j hj
    have := List.mem_range.mp hj
    rw [evenTable_entry _ rfl _ (by omega)]
    show CSlot.mk j (btLive (leNat [0, 0, 8, 0])) (btGain (leNat [0, 0, 8, 0])) = _
    rw [show btLive (leNat [0, 0, 8, 0]) = true from by decide, show btGain (leNat [0, 0, 8, 0]) = 512 from by decide]
  refine ⟨evenTable [0, 0, 8, 0], 511, 15, 480, 512, _, by decide, rfl, ?_⟩
  rw [e]
  decide +kernel

theorem met_levels_fit : ∃ (tab : List Byte) (c k d : Nat) (l : List CSlot), c < 512 ∧ k < 16 ∧ l = classSlots tab c k ∧ d ≤ dCap tab := by
  refine ⟨[], 511, 15, 480, _, by decide, by decide, rfl, ?_⟩
  have e : ∀ c k, disabledIn [] c k = 0 := by
    intro c k
    have h : ∀ b, btEntry [] b = 0 := by intro b; rw [btEntry, leAt, slice, List.drop_nil, List.take_nil]; rfl
    simp only [disabledIn, classSlots, h]
    decide
  have f : ∀ l : List Nat, l.foldl (fun a x => max a (disabledIn [] (x / 16) (x % 16))) 0 = 0 := by
    intro l
    induction l with
    | nil => rfl
    | cons x t ih => rw [List.foldl_cons, e]; exact ih
  rw [dCap, nMax, f]

/-! ### Witnesses about rendered lines, objects and steps -/

/-- The line has its values. -/
def isReady (x : LineLook) : Bool := match x with | .ready _ => true | _ => false

theorem ready_of_isReady : ∀ x : LineLook, isReady x = true → ∃ l, x = .ready l := by
  intro x h
  cases x with
  | ready l => exact ⟨l, rfl⟩
  | _ => cases h

set_option maxRecDepth 1000000 in
theorem met_dispatch : ∃ (s : State) (r : RLine) (c : Fin 32) (segs : List (List Nat)), domOn s Domain.rnd0 = true ∧
    nextDispatch s = some (r, c) ∧ lineLook s r = LineLook.ready segs := by
  obtain ⟨l, h⟩ := ready_of_isReady (lineLook (trialling false) (demoLine 3)) (by decide +kernel)
  exact ⟨_, _, 4, l, by decide +kernel, by decide +kernel, h⟩

set_option maxRecDepth 1000000 in
theorem met_rendered_stripe : ∃ (s : State) (r : RLine) (c : Fin 32) (segs : List (List Nat)), domOn s Domain.rnd0 = true ∧
    s.rnd.cores[c] = some r ∧
    lineLook { s with rnd := { s.rnd with cores := s.rnd.cores.set c.val none } } r = LineLook.ready segs ∧ r.cls = 0 := by
  obtain ⟨l, h⟩ := ready_of_isReady
    (lineLook { rendering with rnd := { rendering.rnd with cores := rendering.rnd.cores.set 0 none } } (demoLine 0)) (by decide +kernel)
  exact ⟨rendering, demoLine 0, 0, l, by decide +kernel, by decide +kernel, h, rfl⟩

set_option maxRecDepth 1000000 in
theorem met_rendered_census : ∃ (s : State) (r : RLine) (c : Fin 32) (segs : List (List Nat)) (x : CensusRun),
    domOn s Domain.rnd0 = true ∧ s.rnd.cores[c] = some r ∧
    lineLook { s with rnd := { s.rnd with cores := s.rnd.cores.set c.val none } } r = LineLook.ready segs ∧ r.cls = 3 ∧
    censusOf s r.flow = some x := by
  obtain ⟨l, h⟩ := ready_of_isReady
    (lineLook { trialling true with rnd := { (trialling true).rnd with cores := (trialling true).rnd.cores.set 31 none } } (demoLine 3))
    (by decide +kernel)
  exact ⟨trialling true, demoLine 3, 31, l, { flow := 3, seq := 5, forecast := true, next := 0, values := [] }, by decide +kernel, by decide +kernel, h, rfl, by decide +kernel⟩

theorem met_readback : ∃ (e : Entry) (s : State) (size : Nat) (f : Nat → Nat → List Byte) (b : List Byte),
    Starts cmdDevReadback e s ∧ e.src ≠ Src.service ∧
    objectBytes (consume e.src s) (bitsNat (Entry.arg e 0) 0 32) = Except.ok (size, f) ∧
    openObject (bitsNat (Entry.arg e 0) 0 32) = false ∧ bitsNat (Entry.arg e 0) 64 64 % 16 = 0 ∧
    bitsNat (Entry.arg e 0) 32 32 % 16 = 0 ∧ bitsNat (Entry.arg e 0) 64 64 < size ∧
    b = f (bitsNat (Entry.arg e 0) 64 64) (mapLength size (bitsNat (Entry.arg e 0) 64 64) (bitsNat (Entry.arg e 0) 32 32)) :=
  ⟨ask [word [(0, 32, 0x03050002), (64, 64, 256)]], ready, _, _, _, by and_intros <;> decide +kernel, by decide, rfl, by decide +kernel,
    by decide +kernel, by decide +kernel, by decide +kernel, rfl⟩

/-- A device in READY with a command waiting. -/
def queued : State := { ready with pending := [.heartbeatTick] }

theorem met_step_inv : ∃ s t : State, s.Inv ∧ step s = .next t :=
  ⟨queued, _, ⟨by unfold MemoryOk; decide +kernel, by unfold SlotsClean KeySlot.blankIfFree; decide +kernel,
    by unfold Seq.heldDark; decide +kernel⟩, rfl⟩

/-! ### A piece of an update -/

/-- UPD_PUT_PIECE of piece 0 of image 0, its check to be `c`. -/
def pieceAsk (c : BitVec 32) : Entry := ask [(0#32 ++ c ++ 0#64 : W128), buf 0x6000 4096]

theorem piece_arg (c : BitVec 32) : Entry.arg (pieceAsk c) 0 = (0#32 ++ c ++ 0#64 : W128) := rfl

theorem piece_nat (c : BitVec 32) : (0#32 ++ c ++ 0#64 : W128).toNat = c.toNat * 2 ^ 64 := by
  rw [BitVec.toNat_append, BitVec.toNat_append]
  simp [Nat.shiftLeft_eq]

theorem piece_check (c : BitVec 32) : bitsOf (Entry.arg (pieceAsk c) 0) 64 32 = c := by
  apply BitVec.eq_of_toNat_eq
  rw [piece_arg, bitsOf, BitVec.toNat_ofNat, piece_nat]
  have := c.isLt
  omega

theorem piece_fields (c : BitVec 32) : bitsOf (Entry.arg (pieceAsk c) 0) 0 32 = 0 ∧ bitsNat (Entry.arg (pieceAsk c) 0) 32 32 = 0 := by
  constructor
  · apply BitVec.eq_of_toNat_eq
    rw [piece_arg, bitsOf, BitVec.toNat_ofNat, piece_nat]
    simp; omega
  · rw [piece_arg, bitsNat, piece_nat]; omega

theorem piece_starts (c : BitVec 32) : Starts cmdUpdPutPiece (pieceAsk c) (staging 1 []) := by
  have m : maskOk (bits 0 96) (0#32 ++ c ++ 0#64) = true := by
    have e : ~~~(BitVec.ofNat 128 (bits 0 96)) = (~~~(0#32) ++ 0#32 ++ 0#64 : W128) := by decide +kernel
    rw [maskOk, e, BitVec.and_append, BitVec.and_append]
    simp
  have ha : argsOk cmdUpdPutPiece.masks (pieceAsk c).args.toList = true := by
    have e : argsOk cmdUpdPutPiece.masks (pieceAsk c).args.toList =
        (maskOk (bits 0 96) (0#32 ++ c ++ 0#64) && (maskOk refMask (buf 0x6000 4096) && true)) := rfl
    rw [e, m, show maskOk refMask (buf 0x6000 4096) = true by decide +kernel]; rfl
  refine ⟨?_, ?_, ?_, ?_⟩
  · show sourceReady (staging 1 []) (.mailbox 0) = true
    decide +kernel
  · show sourceSpace (staging 1 []) (.mailbox 0) = true
    decide +kernel
  · decide +kernel
  · rw [Cmd.judge, if_neg (by show ¬ ((false && !serviceServes cmdUpdPutPiece (staging 1 [])) = true); simp),
      if_neg (by show ¬ ((2 : Nat) ≠ 2); decide),
      if_neg (by rw [ha]; show ¬ ((0#29 ≠ 0) ∨ true = false); decide),
      if_neg (by show ¬ (cmdUpdPutPiece.modes.contains (staging 1 []).pm.mode = false); decide +kernel),
      if_neg (by show ¬ (cmdUpdPutPiece.needs.all (domOn (staging 1 [])) = false); decide +kernel)]

theorem piece_reads (c : BitVec 32) :
    readBuffer (pieceAsk c) (Entry.arg (pieceAsk c) 1) (fun n => n == 4096) (consume (.mailbox 0) (staging 1 [])) =
      (Except.ok demoPiece, consume (.mailbox 0) (staging 1 [])) := by
  have a : Entry.arg (pieceAsk c) 1 = buf 0x6000 4096 := rfl
  have hb : bufRef (buf 0x6000 4096) = { addr := 0x6000, len := 4096, space := 0, rflow := 0 } := by decide +kernel
  have hk : (consume (.mailbox 0) (staging 1 [])).hostMem = [(0x80000, 1)] := by decide +kernel
  have hm : (consume (.mailbox 0) (staging 1 [])).pm.mode = Mode.ready := by decide +kernel
  have hr : hostRead (consume (.mailbox 0) (staging 1 [])) 0x6000 4096 = demoPiece := by
    rw [hostRead, hk]
    have hl : demoPiece.length = 4096 := List.length_replicate
    rw [← hl]
    refine reads_eq _ demoPiece _ fun i hi => ?_
    rw [hl] at hi
    rw [Memory.read, tget, if_neg (by show ¬ ((0x80000 : Nat) = 0x6000 + i); omega)]
    exact (List.getElem_replicate _).symm
  rw [readBuffer, a, hb]
  simp only [refValid, hr, hm, show (pieceAsk c).src = Src.mailbox 0 from rfl, show (pieceAsk c).busErr = false from rfl]
  simp

theorem met_UpdatesAreStagedAndSent_piece : ∃ (e : Entry) (s : State) (ok : Bool) (b : List Byte) (u : State) (i : Nat),
    Starts cmdUpdPutPiece e s ∧ i = bitsNat (Entry.arg e 0) 32 32 ∧
    readBuffer e (Entry.arg e 1) (fun n => n == 4096) (consume e.src s) = (Except.ok b, u) ∧ s.upd.st ≠ 0 ∧
    bitsOf (Entry.arg e 0) 0 32 = s.upd.imgId ∧ i < s.upd.pieces ∧ pieceHeld s i = false ∧
    crc32c b = bitsOf (Entry.arg e 0) 64 32 ∧ ok = true :=
  ⟨pieceAsk (crc32c demoPiece), staging 1 [], true, demoPiece, _, 0, piece_starts _, (piece_fields _).2.symm, piece_reads _, by decide,
    (piece_fields _).1, by decide, by decide, (piece_check _).symm, rfl⟩

theorem met_UpdatesAreStagedAndSent_piece_bad : ∃ (e : Entry) (s : State) (ok : Bool) (b : List Byte) (u : State) (i : Nat),
    Starts cmdUpdPutPiece e s ∧ i = bitsNat (Entry.arg e 0) 32 32 ∧
    readBuffer e (Entry.arg e 1) (fun n => n == 4096) (consume e.src s) = (Except.ok b, u) ∧ s.upd.st ≠ 0 ∧
    bitsOf (Entry.arg e 0) 0 32 = s.upd.imgId ∧ i < s.upd.pieces ∧ pieceHeld s i = false ∧
    (crc32c b ≠ bitsOf (Entry.arg e 0) 64 32 ∨ ok = false) :=
  ⟨pieceAsk 5, staging 1 [], false, demoPiece, _, 0, piece_starts _, (piece_fields _).2.symm, piece_reads _, by decide,
    (piece_fields _).1, by decide, by decide, .inr rfl⟩

/-! ### Coefficient banks -/

set_option maxRecDepth 1000000 in
theorem demoBank_ok : bankBad demoBank = none := by decide +kernel

theorem bank_reads (x : BitVec 128) :
    readBuffer (bankAsk x) (Entry.arg (bankAsk x) 0) (fun n => n == 1040) (consume (.mailbox 0) banking) =
      (Except.ok demoBank, consume (.mailbox 0) banking) := by
  have a : Entry.arg (bankAsk x) 0 = buf 0x4000 1040 := rfl
  have hb : bufRef (buf 0x4000 1040) = { addr := 0x4000, len := 1040, space := 0, rflow := 0 } := by decide +kernel
  have hm : (consume (.mailbox 0) banking).pm.mode = Mode.ready := by decide +kernel
  have hr : hostRead (consume (.mailbox 0) banking) 0x4000 1040 = demoBank := by
    have hl : demoBank.length = 1040 := by decide +kernel
    rw [hostRead, consume_mem_of banking rfl, ← hl]
    refine reads_eq _ demoBank _ fun i hi => ?_
    rw [Memory.read_writes_ne _ _ _ _ (.inl (by rw [hl] at hi; omega)), show banking.hostMem = Memory.writes [] 0x4000 demoBank by rw [banking],
      Memory.read_writes_at [] 0x4000 demoBank rfl i hi]
  rw [readBuffer, a, hb]
  simp only [refValid, hr, hm, show (bankAsk x).src = Src.mailbox 0 from rfl, show (bankAsk x).busErr = false from rfl]
  simp

set_option maxRecDepth 1000000 in
theorem met_ChannelsBanksAndArming_coeffs : ∃ (e : Entry) (s : State) (bank : Fin 2) (b : List Byte) (u : State),
    (bank = if bitAt (Entry.arg e 1) 0 = true then 1 else 0) ∧ Starts cmdTrackSetCoeffs e s ∧
    objBusy s [(4, 0, 0), (4, 1, 0)] = false ∧ bitAt (Entry.arg e 1) 2 = false ∧ s.trk.active ≠ some bank.val ∧
    readBuffer e (Entry.arg e 0) (fun n => n == 1040) (consume e.src s) = (Except.ok b, u) ∧ bankBad b = none ∧
    bitAt (Entry.arg e 1) 1 = false :=
  ⟨bankAsk 1, banking, 1, demoBank, _, by decide +kernel, by decide +kernel, by decide +kernel, by decide +kernel, by decide +kernel,
    bank_reads 1, demoBank_ok, by decide +kernel⟩

set_option maxRecDepth 1000000 in
theorem met_ChannelsBanksAndArming_swap : ∃ (e : Entry) (s : State) (bank : Fin 2) (b : List Byte) (u : State),
    (bank = if bitAt (Entry.arg e 1) 0 = true then 1 else 0) ∧ Starts cmdTrackSetCoeffs e s ∧
    objBusy s [(4, 0, 0), (4, 1, 0)] = false ∧ bitAt (Entry.arg e 1) 2 = false ∧ s.trk.active ≠ some bank.val ∧
    readBuffer e (Entry.arg e 0) (fun n => n == 1040) (consume e.src s) = (Except.ok b, u) ∧ bankBad b = none ∧
    bitAt (Entry.arg e 1) 1 = true :=
  ⟨bankAsk 3, banking, 1, demoBank, _, by decide +kernel, by decide +kernel, by decide +kernel, by decide +kernel, by decide +kernel,
    bank_reads 3, demoBank_ok, by decide +kernel⟩

end Sys2Proof.Tests
end

section
/-! SUPPORT. The ring table, the staging window and the event counters under the shared operations (12 R272-R276, R281-R285). -/

namespace Sys2Proof.Machine

/-! ### Reading the ring table -/

theorem ring_of_win {s t : State} (h : t.win = s.win) (j : Fin 64) : ring t j = ring s j := by
  unfold ring
  rw [h]

@[simp] theorem ring_setRing_same (i : Fin 64) (r : Ring) (s : State) : ring (setRing i r s) i = r :=
  Vector.getElem_set_self i.isLt

theorem ring_setRing_ne {i j : Fin 64} (h : j ≠ i) (r : Ring) (s : State) : ring (setRing i r s) j = ring s j :=
  Vector.getElem_set_ne i.isLt j.isLt fun k => h (Fin.ext k.symm)

/-! ### What the device does to the rings by itself

Messages, entries and events move device indices and coalescing counts; what the host wrote, the states and the error
flags of every ring and the staging window stay. -/

/-- From `s` to `t` the rings differ in device indices and coalescing counts alone, and the staging window not at all. -/
structure DeviceSide (s t : State) : Prop where
  rings : ∀ j : Fin 64, ∃ d n, ring t j = { ring s j with devIdx := d, coal := n }
  window : t.win.window = s.win.window
  stageEn : t.win.stageEn = s.win.stageEn

theorem DeviceSide.of_rings {s t : State} (hr : t.win.rings = s.win.rings) (hw : t.win.window = s.win.window)
    (he : t.win.stageEn = s.win.stageEn) : DeviceSide s t :=
  ⟨fun j => ⟨(ring s j).devIdx, (ring s j).coal, by simp only [ring, hr]⟩, hw, he⟩

theorem DeviceSide.of_win {s t : State} (h : t.win = s.win) : DeviceSide s t :=
  .of_rings (by rw [h]) (by rw [h]) (by rw [h])

theorem DeviceSide.refl (s : State) : DeviceSide s s := .of_win rfl

theorem DeviceSide.trans {s t u : State} (h : DeviceSide s t) (k : DeviceSide t u) : DeviceSide s u := by
  refine ⟨fun j => ?_, k.window.trans h.window, k.stageEn.trans h.stageEn⟩
  obtain ⟨d, n, e⟩ := h.rings j
  obtain ⟨d', n', e'⟩ := k.rings j
  exact ⟨d', n', by rw [e', e]⟩

theorem DeviceSide.hostIdx {s t : State} (h : DeviceSide s t) (j : Fin 64) : (ring t j).hostIdx = (ring s j).hostIdx := by
  obtain ⟨d, n, e⟩ := h.rings j
  rw [e]

theorem DeviceSide.dbBad {s t : State} (h : DeviceSide s t) (j : Fin 64) : (ring t j).dbBad = (ring s j).dbBad := by
  obtain ⟨d, n, e⟩ := h.rings j
  rw [e]

theorem deviceSide_setRing (i : Fin 64) (d : BitVec 32) (n : Nat) (s : State) :
    DeviceSide s (setRing i { ring s i with devIdx := d, coal := n } s) := by
  refine ⟨fun j => ?_, rfl, rfl⟩
  by_cases h : j = i
  · subst h
    exact ⟨d, n, ring_setRing_same ..⟩
  · exact ⟨(ring s j).devIdx, (ring s j).coal, ring_setRing_ne h ..⟩

/-- A message sent or left pending touches the pending bits alone of the window. -/
theorem sendMsix_win (v : Nat) (s : State) : ∃ p, (sendMsix v s).win = { s.win with pba := p } := by
  unfold sendMsix
  split
  · split
    · exact ⟨_, rfl⟩
    · exact ⟨s.win.pba, rfl⟩
  · exact ⟨s.win.pba, rfl⟩

@[simp] theorem ring_sendMsix (v : Nat) (s : State) (j : Fin 64) : ring (sendMsix v s) j = ring s j := by
  obtain ⟨p, h⟩ := sendMsix_win v s
  simp only [ring, h]

theorem deviceSide_sendMsix (v : Nat) (s : State) : DeviceSide s (sendMsix v s) := by
  obtain ⟨p, h⟩ := sendMsix_win v s
  exact .of_rings (by rw [h]) (by rw [h]) (by rw [h])

theorem deviceSide_setFlag (b : Fin 11) (s : State) : DeviceSide s (setFlag b s) := by
  unfold setFlag
  dsimp only
  split
  · refine .trans ?_ (deviceSide_sendMsix 0 _)
    exact .of_rings rfl rfl rfl
  · exact .of_rings rfl rfl rfl

theorem deviceSide_coalesce (i : Fin 64) (s : State) : DeviceSide s (coalesce i s) := by
  have h (n : Nat) : DeviceSide s (setRing i { ring s i with coal := n } s) := deviceSide_setRing i (ring s i).devIdx n s
  unfold coalesce
  dsimp only
  split
  · split
    · exact (h 0).trans (deviceSide_sendMsix _ _)
    · exact h _
  · exact .refl s

theorem deviceSide_advance (i : Fin 64) (s : State) : DeviceSide s (advance i s) := by
  unfold advance
  refine (deviceSide_setRing i ((ring s i).devIdx + 1) (ring s i).coal s).trans (.trans (.of_win ?_) (deviceSide_coalesce i _))
  simp [writeShadow]

theorem deviceSide_pushEntry (i : Fin 64) (b : List Byte) (s : State) : DeviceSide s (pushEntry i b s) :=
  .trans (.of_win (by simp)) (deviceSide_advance i _)

theorem deviceSide_eventToRing (i : Fin 64) (r : EventRec) (s : State) : DeviceSide s (eventToRing i r s) := by
  unfold eventToRing
  dsimp only
  split
  · split
    · exact deviceSide_pushEntry i _ s
    · exact .trans (.of_win (by simp)) (deviceSide_setFlag 7 _)
  · exact .refl s

theorem deviceSide_eventToRings (r : EventRec) (l : List (Fin 64)) (s : State) : DeviceSide s (eventToRings r l s) := by
  induction l generalizing s with
  | nil => exact .refl s
  | cons i t ih => exact (deviceSide_eventToRing i r s).trans (ih _)

/-- An event record reaches the host through the rings' device indices alone. -/
theorem deviceSide_recordEvent (code : Nat) (d : Domain) (det : W128) (s : State) :
    DeviceSide s (recordEvent code d det s) := by
  unfold recordEvent
  refine .trans ?_ (deviceSide_eventToRings _ eventRings _)
  exact .of_win rfl

theorem deviceSide_raise (code : Nat) (d : Domain) (det : W128) (s : State) : DeviceSide s (raise code d det s) :=
  .trans (.of_win (by simp)) (deviceSide_recordEvent code d det _)

/-! ### What an entry given to one ring does to the others -/

/-- From `s` to `t` ring `i` keeps the host's index, and every other ring is as it was. -/
structure OnlyRing (i : Fin 64) (s t : State) : Prop where
  hostIdx : (ring t i).hostIdx = (ring s i).hostIdx
  others : ∀ j : Fin 64, j ≠ i → ring t j = ring s j

theorem OnlyRing.refl (i : Fin 64) (s : State) : OnlyRing i s s := ⟨rfl, fun _ _ => rfl⟩

theorem OnlyRing.trans {i : Fin 64} {s t u : State} (h : OnlyRing i s t) (k : OnlyRing i t u) : OnlyRing i s u :=
  ⟨k.hostIdx.trans h.hostIdx, fun j hj => (k.others j hj).trans (h.others j hj)⟩

theorem OnlyRing.of_rings {i : Fin 64} {s t : State} (h : t.win.rings = s.win.rings) : OnlyRing i s t := by
  have e (j : Fin 64) : ring t j = ring s j := by simp only [ring, h]
  exact ⟨by rw [e], fun j _ => e j⟩

theorem onlyRing_setRing {i : Fin 64} {r : Ring} {s : State} (h : r.hostIdx = (ring s i).hostIdx) :
    OnlyRing i s (setRing i r s) :=
  ⟨by rw [ring_setRing_same, h], fun _ hj => ring_setRing_ne hj r s⟩

theorem onlyRing_coalesce (i : Fin 64) (s : State) : OnlyRing i s (coalesce i s) := by
  refine ⟨(deviceSide_coalesce i s).hostIdx i, fun j hj => ?_⟩
  unfold coalesce
  dsimp only
  split
  · split
    · rw [ring_sendMsix, ring_setRing_ne hj]
    · exact ring_setRing_ne hj _ s
  · rfl

theorem onlyRing_advance (i : Fin 64) (s : State) : OnlyRing i s (advance i s) := by
  have h : OnlyRing i s (setRing i { ring s i with devIdx := (ring s i).devIdx + 1 } s) := onlyRing_setRing rfl
  unfold advance
  refine h.trans (.trans (.of_rings ?_) (onlyRing_coalesce i _))
  simp [writeShadow]

theorem onlyRing_pushEntry (i : Fin 64) (b : List Byte) (s : State) : OnlyRing i s (pushEntry i b s) :=
  .trans (.of_rings (by simp)) (onlyRing_advance i _)

theorem onlyRing_drainResults (j : Fin 8) (n : Nat) (s : State) :
    OnlyRing ⟨56 + j.val, by omega⟩ s (drainResults j n s) := by
  induction n generalizing s with
  | zero => exact .refl _ s
  | succ n ih =>
    unfold drainResults
    dsimp only
    split
    · exact onlyRing_setRing rfl
    · split
      · refine .trans ?_ ((onlyRing_pushEntry _ _ _).trans (ih _))
        exact .of_rings rfl
      · exact onlyRing_setRing rfl

/-- Waiting results that a doorbell lets in leave the host's index and the other rings (12 R281). -/
theorem onlyRing_ringSpace (i : Fin 64) (s : State) : OnlyRing i s (ringSpace i s) := by
  unfold ringSpace
  split
  case isTrue h =>
    have e : (⟨56 + i.val % 8, by omega⟩ : Fin 64) = i := Fin.ext (by simp only; omega)
    have k := onlyRing_drainResults ⟨i.val % 8, by omega⟩ (s.win.resultWait[i.val % 8].length + 1) s
    rw [e] at k
    exact k
  case isFalse => exact .refl i s

/-! ### Event counters (12 R285) -/

theorem eventCount_of_evt {s t : State} (h : t.evt = s.evt) (c : Nat) : eventCount t c = eventCount s c := by
  unfold eventCount
  rw [h]

theorem eventCount_countEvent_same {c : Nat} (h : c < 0x0D00) (s : State) :
    eventCount (countEvent c s) c = eventCount s c + 1 := by
  simp [eventCount, countEvent, h]

theorem eventCount_countEvent_ne {c d : Nat} (h : c ≠ d) (s : State) :
    eventCount (countEvent d s) c = eventCount s c := by
  unfold countEvent
  split
  · simp only [eventCount, tget_tput_ne _ h]
  · rfl

/-- A record dropped for want of space counts EVENT_DROPPED 0x0135, and no other event. -/
theorem eventCount_eventToRing {c : Nat} (h : c ≠ 0x0135) (i : Fin 64) (r : EventRec) (s : State) :
    eventCount (eventToRing i r s) c = eventCount s c := by
  unfold eventToRing
  dsimp only
  split
  · split
    · exact eventCount_of_evt (by simp) c
    · rw [eventCount_of_evt (s := countEvent 0x0135 s) (by simp), eventCount_countEvent_ne h]
  · rfl

theorem eventCount_eventToRings {c : Nat} (h : c ≠ 0x0135) (r : EventRec) (l : List (Fin 64)) (s : State) :
    eventCount (eventToRings r l s) c = eventCount s c := by
  induction l generalizing s with
  | nil => rfl
  | cons i t ih => rw [eventToRings, ih, eventCount_eventToRing h]

theorem eventCount_recordEvent {c : Nat} (h : c ≠ 0x0135) (code : Nat) (d : Domain) (det : W128) (s : State) :
    eventCount (recordEvent code d det s) c = eventCount s c :=
  eventCount_eventToRings h _ eventRings _

/-- An event whose records are limited is counted at every occurrence (12 R286). -/
theorem eventCount_raiseLimited {code : Nat} (hc : code < 0x0D00) (h : code ≠ 0x0135) (key : Nat) (d : Domain) (det : W128)
    (s : State) : eventCount (raiseLimited key code d det s) code = eventCount s code + 1 := by
  rw [← eventCount_countEvent_same hc]
  unfold raiseLimited
  dsimp only
  split
  · rfl
  · exact eventCount_recordEvent h code d det _

/-! ### Register writes (12 R265, R270, R274, R275) -/

theorem only_event_raise (code : Nat) (d : Domain) (det : W128) {s u : State} (h : Only eventParts s u) :
    Only eventParts s (raise code d det u) :=
  only_raise code d det (by decide) (by decide) (by decide) (by decide) (by decide) (by decide) h

theorem only_event_setRing (i : Fin 64) (r : Ring) (s : State) : Only eventParts s (setRing i r s) :=
  only_setRing i r (by decide) (.refl _ s)

/-- A refused write raises WIN_WRITE_REFUSED and leaves what the host wrote before. -/
theorem writeRefused_effect (det : W128) (s : State) :
    DeviceSide s (writeRefused det s) ∧ Raises 0x0131 det s (writeRefused det s) ∧ Only eventParts s (writeRefused det s) :=
  ⟨deviceSide_raise .., raise_raises .., only_event_raise _ _ _ (.refl _ s)⟩

/-- A reserved write is counted and only counted. -/
theorem reservedWrite_effect (off size : Nat) (s : State) :
    eventCount (reservedWrite off size s) 0x0130 = eventCount s 0x0130 + 1 ∧
      Only eventParts s (reservedWrite off size s) :=
  ⟨eventCount_raiseLimited (by decide) (by decide) ..,
    only_raiseLimited _ _ _ _ (by decide) (by decide) (by decide) (by decide) (by decide) (by decide) (.refl _ s)⟩

theorem doorbell_inactive {s : State} {i : Fin 64} (h : (ring s i).st ≠ 1) (new : BitVec 32) :
    doorbell i new s = writeRefused (detail [du 8 i.val]) s := by
  unfold doorbell
  exact if_pos h

theorem doorbell_inRange {s : State} {i : Fin 64} {new : BitVec 32} (h : (ring s i).st = 1)
    (hok : doorbellOk i.val (ring s i) new = true) :
    doorbell i new s = ringSpace i (setRing i { ring s i with hostIdx := new } s) := by
  unfold doorbell
  dsimp only
  rw [if_neg (not_not.mpr h), if_pos hok]

theorem doorbell_outOfRange {s : State} {i : Fin 64} {new : BitVec 32} (h : (ring s i).st = 1)
    (hbad : doorbellOk i.val (ring s i) new = false) :
    doorbell i new s =
      raise 0x0132 .host (detail [du 8 i.val, du 32 (ring s i).hostIdx.toNat, du 32 new.toNat])
        (setRing i { ring s i with dbBad := true } s) := by
  unfold doorbell
  dsimp only
  rw [if_neg (not_not.mpr h), if_neg (ne_true_of_eq_false hbad)]

theorem doorbell_inRange_effect {s : State} {i : Fin 64} {new : BitVec 32} (h : (ring s i).st = 1)
    (hok : doorbellOk i.val (ring s i) new = true) :
    (ring (doorbell i new s) i).hostIdx = new ∧ (∀ j : Fin 64, j ≠ i → ring (doorbell i new s) j = ring s j) ∧
      Only [.out, .win, .stats, .hostMem] s (doorbell i new s) := by
  rw [doorbell_inRange h hok]
  have k := onlyRing_ringSpace i (setRing i { ring s i with hostIdx := new } s)
  refine ⟨?_, fun j hj => ?_, ?_⟩
  · rw [k.hostIdx, ring_setRing_same]
  · rw [k.others j hj, ring_setRing_ne hj]
  · exact only_ringSpace i (by decide) (by decide) (by decide) (by decide) (only_setRing i _ (by decide) (.refl _ s))

theorem doorbell_outOfRange_effect {s : State} {i : Fin 64} {new : BitVec 32} (h : (ring s i).st = 1)
    (hbad : doorbellOk i.val (ring s i) new = false) :
    (ring (doorbell i new s) i).hostIdx = (ring s i).hostIdx ∧ (ring (doorbell i new s) i).dbBad = true ∧
      Raises 0x0132 (detail [du 8 i.val, du 32 (ring s i).hostIdx.toNat, du 32 new.toNat]) s (doorbell i new s) ∧
      Only eventParts s (doorbell i new s) := by
  rw [doorbell_outOfRange h hbad]
  have k := deviceSide_raise 0x0132 .host (detail [du 8 i.val, du 32 (ring s i).hostIdx.toNat, du 32 new.toNat])
    (setRing i { ring s i with dbBad := true } s)
  refine ⟨?_, ?_, ?_, ?_⟩
  · rw [k.hostIdx, ring_setRing_same]
  · rw [k.dbBad, ring_setRing_same]
  · exact (raise_raises ..).sooner (kept_setRing _ _ (.refl s))
  · exact only_event_raise _ _ _ (only_event_setRing ..)

/-- Bit `k` below `n` of the low `n` bits of a word is its bit `k`. -/
theorem bitAt_bitsOf_zero {w n k : Nat} (x : BitVec w) (h : k < n) : bitAt (bitsOf x 0 n) k = bitAt x k := by
  simp [bitAt, bitsOf, Nat.testBit_mod_two_pow, h]

/-- A bit of a flag field stays set where it is not written 1 (00 R9). -/
theorem bitAt_w1c {w k : Nat} (f v : BitVec w) (h : k < w) : bitAt (w1c f v) k = (bitAt f k && !bitAt v k) := by
  simp only [bitAt, w1c, BitVec.testBit_toNat, BitVec.getLsbD_and, BitVec.getLsbD_not, h, decide_true, Bool.true_and]

theorem writeReg_statusIrq (v : BitVec 64) (s : State) :
    writeReg 0x100C v s = { s with win := { s.win with statusIrq := bitsOf v 0 11 } } := rfl

/-- The low `n` of the low `m` bits of a word are its low `n` bits. -/
theorem bitsOf_low_bitsNat {w m n : Nat} (x : BitVec w) (hm : m ≤ w) (hn : n ≤ m) :
    bitsOf (BitVec.ofNat w (bitsNat x 0 m)) 0 n = bitsOf x 0 n := by
  apply BitVec.eq_of_toNat_eq
  simp only [bitsOf, bitsNat, BitVec.toNat_ofNat, pow_zero, Nat.div_one]
  rw [Nat.mod_mod_of_dvd _ (pow_dvd_pow 2 hn |>.trans (pow_dvd_pow 2 hm)), Nat.mod_mod_of_dvd _ (pow_dvd_pow 2 hn)]

end Sys2Proof.Machine
end

section
/-! PROOF. Doorbells, flags, WIN_STAGE and reserved writes (00 R6, 12 R269, R270, R274, R275). -/

namespace Sys2Proof.Machine

/-! ### The host's writes to a running device -/

section
variable {s : State} (hr : running s = true)
include hr

theorem exec_doorbellWrite (i : Fin 64) (v : BitVec 64) :
    exec (.doorbellWrite i v) s = .next (doorbell i (bitsOf v 0 32) s) :=
  congrArg Host.Outcome.next (if_pos hr)

theorem exec_ringStatusClear (i : Fin 64) (v : BitVec 32) :
    exec (.ringStatusClear i v) s = .next (writeRingStatus i v s) :=
  congrArg Host.Outcome.next (if_pos hr)

theorem exec_winStatusClear (v : BitVec 32) : exec (.winStatusClear v) s = .next (writeWinStatus v s) :=
  congrArg Host.Outcome.next (if_pos hr)

theorem exec_winStageWrite (v : BitVec 32) : exec (.winStageWrite v) s = .next (writeWinStage v s) :=
  congrArg Host.Outcome.next (if_pos hr)

theorem exec_winReservedWrite (off : BitVec 24) (size : Nat) :
    exec (.winReservedWrite off size) s = .next (reservedWrite off.toNat size s) :=
  congrArg Host.Outcome.next (if_pos hr)

/-- A 32-bit write that is aligned reaches its register (12 R265). -/
theorem exec_registerWrite_aligned {off : BitVec 24} (h : off.toNat % 4 = 0) (v : BitVec 64) :
    exec (.registerWrite off false v) s = .next (writeReg off.toNat (BitVec.ofNat 64 (bitsNat v 0 32)) s) := by
  change execRegisterWrite off false v s = _
  simp [execRegisterWrite, hr, h]

/-- A 32-bit write that is misaligned is a reserved write (12 R265). -/
theorem exec_registerWrite_misaligned {off : BitVec 24} (h : off.toNat % 4 ≠ 0) (v : BitVec 64) :
    exec (.registerWrite off false v) s = .next (reservedWrite off.toNat 4 s) := by
  change execRegisterWrite off false v s = _
  simp [execRegisterWrite, hr, h]

end

/-- WIN_STAGE opens a window up to 190 (12 R270). -/
theorem writeWinStage_opens {v : BitVec 32} (h : bitsNat v 0 8 ≤ 190) (s : State) :
    writeWinStage v s = { s with win := { s.win with window := bitsOf v 0 8, stageEn := bitAt v 8 } } :=
  if_neg (Nat.not_lt.mpr h)

/-- WIN_STAGE refuses a window above 190 (12 R270). -/
theorem writeWinStage_refuses {v : BitVec 32} (h : 190 < bitsNat v 0 8) (s : State) :
    writeWinStage v s = writeRefused 0 s :=
  if_pos h

/-- Writing ones to WIN_RING_STATUS clears DB_BAD and BUS_ERR of that ring alone (12 R274). -/
theorem writeRingStatus_effect (i : Fin 64) (v : BitVec 32) (s : State) :
    ring (writeRingStatus i v s) i =
        { ring s i with dbBad := (ring s i).dbBad && !bitAt v 4, busErr := (ring s i).busErr && !bitAt v 5 } ∧
      (∀ j : Fin 64, j ≠ i → ring (writeRingStatus i v s) j = ring s j) ∧ Only [.win] s (writeRingStatus i v s) :=
  ⟨ring_setRing_same .., fun _ hj => ring_setRing_ne hj .., only_setRing i _ (by decide) (.refl _ s)⟩

/-- Writing ones to WIN_STATUS clears those flags and keeps the set counters and the rings (12 R269). -/
theorem writeWinStatus_effect (v : BitVec 32) (s : State) :
    (∀ k : Fin 11, bitAt (writeWinStatus v s).win.status k.val = (bitAt s.win.status k.val && !bitAt v k.val)) ∧
      (writeWinStatus v s).win.setCnt = s.win.setCnt ∧ (writeWinStatus v s).win.rings = s.win.rings ∧
      Only [.win] s (writeWinStatus v s) := by
  refine ⟨fun k => ?_, rfl, rfl, (Only.refl _ s).set_win _ (by decide)⟩
  rw [← bitAt_bitsOf_zero v k.isLt]
  exact bitAt_w1c _ _ k.isLt

end Sys2Proof.Machine

open Sys2Proof Sys2Proof.Machine

/-- Settles O43: a doorbell goes through `doorbell_inRange_effect` or one of its two refusals; a refusal or a reserved write is an
event, which moves nothing the host wrote (`DeviceSide`), and is counted once. -/
theorem registersAreWritten : Obligations.RegistersAreWritten := by
  unfold Obligations.RegistersAreWritten
  intro s i hr
  refine ⟨fun v hst => ⟨fun hok => ?_, fun hbad => ?_⟩, fun v hst => ?_, fun v => ?_, fun v => ?_,
    fun v => ⟨fun hw => ?_, fun hw => ?_⟩, fun v => ?_, fun off v hoff => ?_, fun off size => ?_⟩
  · exact ⟨_, exec_doorbellWrite hr i v, doorbell_inRange_effect hst hok⟩
  · exact ⟨_, exec_doorbellWrite hr i v, doorbell_outOfRange_effect hst hbad⟩
  · refine ⟨_, exec_doorbellWrite hr i v, ?_⟩
    rw [doorbell_inactive hst]
    obtain ⟨hdev, hraise, honly⟩ := writeRefused_effect (detail [du 8 i.val]) s
    exact ⟨hdev.hostIdx i, hraise, honly⟩
  · exact ⟨_, exec_ringStatusClear hr i v, writeRingStatus_effect i v s⟩
  · exact ⟨_, exec_winStatusClear hr v, writeWinStatus_effect v s⟩
  · refine ⟨_, exec_winStageWrite hr v, ?_⟩
    rw [writeWinStage_opens hw]
    exact ⟨rfl, (Only.refl _ s).set_win _ (by decide)⟩
  · refine ⟨_, exec_winStageWrite hr v, ?_⟩
    rw [writeWinStage_refuses hw]
    obtain ⟨hdev, hraise, honly⟩ := writeRefused_effect 0 s
    exact ⟨hdev.window, hdev.stageEn, hraise, honly⟩
  · refine ⟨_, exec_registerWrite_aligned hr (by decide) v, ?_⟩
    rw [show (0x100C : BitVec 24).toNat = 0x100C from rfl, writeReg_statusIrq, bitsOf_low_bitsNat v (by decide) (by decide)]
    exact ⟨rfl, (Only.refl _ s).set_win _ (by decide)⟩
  · exact ⟨_, exec_registerWrite_misaligned hr hoff v, reservedWrite_effect off.toNat 4 s⟩
  · exact ⟨_, exec_winReservedWrite hr off size, reservedWrite_effect off.toNat size s⟩
end

section
/-! SUPPORT. The order of slots and the even split of a column class (02 R24, R28-R32). -/

namespace Sys2Proof.Machine

/-! ### The order of slots (02 R29) -/

theorem bitrev5_lt (n : Nat) : bitrev5 n < 32 := by
  unfold bitrev5
  omega

theorem testBit_bitrev5 (n : Nat) {i : Nat} (hi : i < 5) : (bitrev5 n).testBit i = n.testBit (4 - i) := by
  rw [Nat.testBit_eq_decide_div_mod_eq, Nat.testBit_eq_decide_div_mod_eq, decide_eq_decide, bitrev5]
  have hbit (m : Nat) : n / m % 2 < 2 := Nat.mod_lt _ (by decide)
  have := hbit 1
  have := hbit 2
  have := hbit 4
  have := hbit 8
  have := hbit 16
  interval_cases i <;> simp only [Nat.reduceSub, Nat.reducePow, Nat.div_one] at * <;>
    generalize n % 2 = a, n / 2 % 2 = b, n / 4 % 2 = c, n / 8 % 2 = d, n / 16 % 2 = e at * <;> omega

/-- Reversing five bits twice gives them back. -/
theorem bitrev5_bitrev5 {n : Nat} (h : n < 32) : bitrev5 (bitrev5 n) = n := by
  refine Nat.eq_of_testBit_eq fun i => ?_
  rcases Nat.lt_or_ge i 5 with hi | hi
  · rw [testBit_bitrev5 _ hi, testBit_bitrev5 _ (by omega), show 4 - (4 - i) = i by omega]
  · have high {m : Nat} (hm : m < 32) : m.testBit i = false :=
      Nat.testBit_lt_two_pow (hm.trans_le (Nat.pow_le_pow_right (n := 2) (by decide) hi))
    rw [high (bitrev5_lt _), high h]

theorem bitrev5_add_sixteen {n : Nat} (h : n < 16) : bitrev5 (n + 16) = bitrev5 n + 1 := by
  unfold bitrev5
  omega

/-- Bit 4 of a slot number passes through the XOR with a sub-raster. -/
theorem add_sixteen_xor {j k : Nat} (hj : j < 16) (hk : k < 16) : (j + 16) ^^^ k = (j ^^^ k) + 16 := by
  have add16 {n : Nat} (h : n < 16) : n + 16 = n ^^^ 16 := by interval_cases n <;> rfl
  rw [add16 hj, add16 (Nat.xor_lt_two_pow (n := 4) hj hk), Nat.xor_right_comm]

theorem sigma_lt (k j : Nat) : sigma k j < 32 := bitrev5_lt _

theorem testBit_sigma (k j : Nat) {i : Nat} (hi : i < 5) : (sigma k j).testBit i = (j ^^^ k).testBit (4 - i) :=
  testBit_bitrev5 _ hi

theorem sigma_add_sixteen {k j : Nat} (hk : k < 16) (hj : j < 16) : sigma k (j + 16) = sigma k j + 1 := by
  unfold sigma
  rw [add_sixteen_xor hj hk, bitrev5_add_sixteen (Nat.xor_lt_two_pow (n := 4) hj hk)]

theorem sigma_injective {k i j : Nat} (hk : k < 16) (hi : i < 32) (hj : j < 32) (h : sigma k i = sigma k j) : i = j := by
  have lt32 {n : Nat} (hn : n < 32) : n ^^^ k < 32 := Nat.xor_lt_two_pow (n := 5) hn (by omega)
  have := congrArg bitrev5 h
  rw [sigma, sigma, bitrev5_bitrev5 (lt32 hi), bitrev5_bitrev5 (lt32 hj)] at this
  exact Nat.xor_left_inj.mp this

/-! ### The slots of a column class (02 R24, R38) -/

theorem classSlots_numbers (t : List Byte) (c k : Nat) : (classSlots t c k).map CSlot.j = List.range 32 := by
  unfold classSlots
  rw [List.map_map]
  exact List.map_id _

theorem gain_lt_of_mem_classSlots {t : List Byte} {c k : Nat} {x : CSlot} (h : x ∈ classSlots t c k) : x.gain < 1024 := by
  obtain ⟨j, -, rfl⟩ := List.mem_map.mp h
  exact Nat.mod_lt _ (by decide)

/-- A list of distinct numbers below its length holds each of them once. -/
theorem perm_range_of_nodup {m : List Nat} (hd : m.Nodup) (hlt : ∀ n ∈ m, n < m.length) : m.Perm (List.range m.length) :=
  (List.subperm_of_subset hd fun n hn => List.mem_range.mpr (hlt n hn)).perm_of_length_le (by simp)

/-- The live slots (02 R30). -/
def liveSlots (l : List CSlot) : List CSlot := l.filter (·.live)

theorem mem_liveSlots {l : List CSlot} {x : CSlot} : x ∈ liveSlots l ↔ x ∈ l ∧ x.live = true := List.mem_filter

/-- A sum over a class in which disabled slots count nothing is a sum over the live ones. -/
theorem sum_liveSlots {f : CSlot → Nat} {l : List CSlot} (h : ∀ x ∈ l, x.live = false → f x = 0) :
    (l.map f).sum = ((liveSlots l).map f).sum := by
  have hdead : ((l.filter fun x => !x.live).map f).sum = 0 := by
    refine List.sum_eq_zero fun n hn => ?_
    obtain ⟨x, hx, rfl⟩ := List.mem_map.mp hn
    obtain ⟨hxl, hlive⟩ := List.mem_filter.mp hx
    exact h x hxl (by simpa using hlive)
  have := List.sum_map_filter_add_sum_map_filter_not (fun x : CSlot => x.live = true) f l
  simp only [Bool.decide_eq_true, decide_not] at this
  rw [← this, hdead]
  rfl

/-! ### Ranks (02 R31) -/

theorem splitLevel_live {l : List CSlot} {x : CSlot} (h : x.live = true) (k d : Nat) :
    splitLevel l k d x = (d + rank l k x.j) / (liveSlots l).length := if_pos h

theorem splitLevel_disabled {l : List CSlot} {x : CSlot} (h : x.live = false) (k d : Nat) : splitLevel l k d x = 0 :=
  if_neg (by rw [h]; decide)

theorem rank_eq (l : List CSlot) (k j : Nat) :
    rank l k j = ((liveSlots l).filter fun x => decide (sigma k x.j < sigma k j)).length := by
  unfold rank liveSlots
  rw [List.filter_filter]
  congr 2
  exact funext fun x => Bool.and_comm _ _

theorem rank_lt {l : List CSlot} {x : CSlot} (hx : x ∈ liveSlots l) (k : Nat) : rank l k x.j < (liveSlots l).length := by
  rw [rank_eq, List.length_filter_lt_length_iff_exists]
  exact ⟨x, hx, by simp⟩

/-- Among the live slots the ranks follow σ. -/
theorem rank_lt_rank {l : List CSlot} {k j : Nat} {x : CSlot} (hx : x ∈ liveSlots l) (h : sigma k x.j < sigma k j) :
    rank l k x.j < rank l k j := by
  have below : (liveSlots l).filter (fun y => decide (sigma k y.j < sigma k x.j)) =
      ((liveSlots l).filter fun y => decide (sigma k y.j < sigma k j)).filter fun y => decide (sigma k y.j < sigma k x.j) := by
    rw [List.filter_filter]
    refine List.filter_congr fun y _ => ?_
    rw [← Bool.decide_and, decide_eq_decide]
    omega
  rw [rank_eq, rank_eq, below, List.length_filter_lt_length_iff_exists]
  exact ⟨x, List.mem_filter.mpr ⟨hx, by simpa using h⟩, by simp⟩

section
variable {l : List CSlot} (hl : l.map CSlot.j = List.range 32)
include hl

theorem slot_lt {x : CSlot} (hx : x ∈ l) : x.j < 32 := by
  have : x.j ∈ l.map CSlot.j := List.mem_map_of_mem hx
  rw [hl] at this
  exact List.mem_range.mp this

theorem length_class : l.length = 32 := by
  rw [← List.length_map CSlot.j, hl, List.length_range]

theorem nodup_slots : (l.map CSlot.j).Nodup := hl ▸ List.nodup_range

theorem nodup_liveSlots : ((liveSlots l).map CSlot.j).Nodup :=
  (nodup_slots hl).sublist (List.filter_sublist.map _)

theorem rank_injective {k : Nat} (hk : k < 16) {x y : CSlot} (hx : x ∈ liveSlots l) (hy : y ∈ liveSlots l)
    (h : rank l k x.j = rank l k y.j) : x.j = y.j := by
  refine sigma_injective hk (slot_lt hl (mem_liveSlots.mp hx).1) (slot_lt hl (mem_liveSlots.mp hy).1) ?_
  rcases Nat.lt_trichotomy (sigma k x.j) (sigma k y.j) with hlt | heq | hgt
  · exact absurd h (rank_lt_rank hx hlt).ne
  · exact heq
  · exact absurd h (rank_lt_rank hy hgt).ne'

/-- The ranks of N live slots are 0 to N - 1, each once. -/
theorem ranks_perm {k : Nat} (hk : k < 16) :
    ((liveSlots l).map fun x => rank l k x.j).Perm (List.range (liveSlots l).length) := by
  have hd : ((liveSlots l).map fun x => rank l k x.j).Nodup :=
    List.Nodup.map_on (fun x hx y hy h => List.inj_on_of_nodup_map (nodup_liveSlots hl) hx hy (rank_injective hl hk hx hy h))
      (nodup_liveSlots hl).of_map
  have hp := perm_range_of_nodup hd fun n hn => by
    obtain ⟨x, hx, rfl⟩ := List.mem_map.mp hn
    rw [List.length_map]
    exact rank_lt hx k
  rwa [List.length_map] at hp

/-- The values of σ over the slots of a class are 0 to 31, each once. -/
theorem sigmas_perm {k : Nat} (hk : k < 16) : (l.map fun x => sigma k x.j).Perm (List.range 32) := by
  have hd : (l.map fun x => sigma k x.j).Nodup :=
    List.Nodup.map_on (fun x hx y hy h =>
      List.inj_on_of_nodup_map (nodup_slots hl) hx hy (sigma_injective hk (slot_lt hl hx) (slot_lt hl hy) h))
      (nodup_slots hl).of_map
  have hp := perm_range_of_nodup hd fun n hn => by
    obtain ⟨x, -, rfl⟩ := List.mem_map.mp hn
    rw [List.length_map, length_class hl]
    exact sigma_lt k x.j
  rwa [List.length_map, length_class hl] at hp

/-- Where every slot is live, the rank is σ. -/
theorem rank_eq_sigma {k : Nat} (hk : k < 16) (hN : (liveSlots l).length = 32) (j : Nat) : rank l k j = sigma k j := by
  have hall : liveSlots l = l :=
    List.filter_eq_self.mpr (List.length_filter_eq_length_iff.mp (hN.trans (length_class hl).symm))
  have below : ∀ s < 32, ((List.range 32).filter fun n => decide (n < s)).length = s := by decide
  calc rank l k j
      = ((l.map fun x => sigma k x.j).filter fun n => decide (n < sigma k j)).length := by
        rw [rank_eq, hall, List.filter_map, List.length_map]
        rfl
    _ = ((List.range 32).filter fun n => decide (n < sigma k j)).length := ((sigmas_perm hl hk).filter _).length_eq
    _ = sigma k j := below _ (sigma_lt k j)

end

/-! ### The sum of the split levels (02 R31) -/

/-- Hermite's identity for whole numbers: N consecutive numbers, each divided by N, add up to the first. -/
theorem sum_div_consecutive {N : Nat} (hN : 1 ≤ N) (d : Nat) : ((List.range N).map fun i => (d + i) / N).sum = d := by
  induction d with
  | zero =>
    refine List.sum_eq_zero fun n hn => ?_
    obtain ⟨i, hi, rfl⟩ := List.mem_map.mp hn
    rw [Nat.zero_add]
    exact Nat.div_eq_of_lt (List.mem_range.mp hi)
  | succ d ih =>
    have hfirst := List.sum_range_succ' (fun i => (d + i) / N) N
    have hlast := List.sum_range_succ (fun i => (d + i) / N) N
    rw [ih, Nat.add_div_right d hN] at hlast
    have hshift : (fun i => (d + 1 + i) / N) = fun i => (d + (i + 1)) / N := by
      funext i
      rw [Nat.add_assoc, Nat.add_comm 1 i]
    rw [hshift]
    simp only [Nat.add_zero, Nat.succ_eq_add_one] at hfirst hlast
    omega

theorem sum_splitLevel {l : List CSlot} (hl : l.map CSlot.j = List.range 32) {k : Nat} (hk : k < 16)
    (hN : 1 ≤ (liveSlots l).length) (d : Nat) : (l.map (splitLevel l k d)).sum = d :=
  calc (l.map (splitLevel l k d)).sum
      = ((liveSlots l).map (splitLevel l k d)).sum := sum_liveSlots fun _ _ h => splitLevel_disabled h k d
    _ = (((liveSlots l).map fun x => rank l k x.j).map fun i => (d + i) / (liveSlots l).length).sum := by
        rw [List.map_map]
        congr 1
        exact List.map_congr_left fun x hx => splitLevel_live (mem_liveSlots.mp hx).2 k d
    _ = ((List.range (liveSlots l).length).map fun i => (d + i) / (liveSlots l).length).sum :=
        ((ranks_perm hl hk).map _).sum_eq
    _ = d := sum_div_consecutive hN d

/-- A dose of at most 15 for each live slot splits into levels of at most 15 (02 R32). -/
theorem splitLevel_le {l : List CSlot} {k d : Nat} (hd : d ≤ 15 * (liveSlots l).length) {x : CSlot} (hx : x ∈ l) :
    splitLevel l k d x ≤ 15 := by
  cases hlive : x.live with
  | false => rw [splitLevel_disabled hlive]; decide
  | true =>
    have hrank := rank_lt (mem_liveSlots.mpr ⟨hx, hlive⟩) k
    rw [splitLevel_live hlive]
    exact Nat.lt_succ_iff.mp ((Nat.div_lt_iff_lt_mul (Nat.zero_lt_of_lt hrank)).mpr (by omega))

/-! ### D_cap (02 R32) -/

theorem length_liveSlots_add_disabledIn (t : List Byte) (c k : Nat) :
    (liveSlots (classSlots t c k)).length + disabledIn t c k = 32 := by
  rw [← length_class (classSlots_numbers t c k)]
  exact (List.length_eq_length_filter_add (l := classSlots t c k) (·.live)).symm

theorem disabledIn_le_nMax (t : List Byte) {c k : Nat} (hc : c < 512) (hk : k < 16) : disabledIn t c k ≤ nMax t := by
  have hmem : disabledIn t c k ∈ (List.range 8192).map fun x => disabledIn t (x / 16) (x % 16) :=
    List.mem_map.mpr ⟨16 * c + k, List.mem_range.mpr (by omega), by
      rw [Nat.mul_add_div (by decide), Nat.mul_add_mod, Nat.div_eq_of_lt hk, Nat.mod_eq_of_lt hk, Nat.add_zero]⟩
  unfold nMax
  rw [← List.foldl_map (f := fun x => disabledIn t (x / 16) (x % 16)) (g := max), List.foldl_max]
  exact (List.le_max?_getD_of_mem hmem).trans (le_max_right _ _)

theorem dCap_le (t : List Byte) {c k : Nat} (hc : c < 512) (hk : k < 16) :
    dCap t ≤ 15 * (liveSlots (classSlots t c k)).length := by
  have := length_liveSlots_add_disabledIn t c k
  have := disabledIn_le_nMax t hc hk
  unfold dCap
  omega

end Sys2Proof.Machine
end

section
/-! SUPPORT. The gain trim: rounding, the order by gain and the error diffusion (02 R33-R35). -/

namespace Sys2Proof.Machine

/-! ### Rounding to the nearest, ties toward zero (02 R34) -/

/-- The error `e` is at most half the gain `g`. -/
def WithinHalf (e : Int) (g : Nat) : Prop := -(g : Int) ≤ 2 * e ∧ 2 * e ≤ g

theorem WithinHalf.mono {e : Int} {g h : Nat} (he : WithinHalf e g) (hgh : g ≤ h) : WithinHalf e h := by
  unfold WithinHalf at *
  omega

theorem withinHalf_zero (g : Nat) : WithinHalf 0 g := by
  unfold WithinHalf
  omega

/-- Adding half a divisor before the division rounds to the nearest quotient. -/
theorem withinHalf_sub_mul_ediv (a : Int) {b : Nat} (hb : 0 < b) :
    WithinHalf (a - (2 * a + b - 1) / (2 * b : Nat) * b) b := by
  have hdiv := Int.mul_ediv_add_emod (2 * a + b - 1) (2 * b : Nat)
  have hnonneg := Int.emod_nonneg (2 * a + b - 1) (b := (2 * b : Nat)) (by omega)
  have hlt := Int.emod_lt_of_pos (2 * a + b - 1) (b := (2 * b : Nat)) (by omega)
  unfold WithinHalf
  push_cast at *
  constructor <;> linarith

/-- The rounded quotient leaves at most half the divisor. -/
theorem withinHalf_sub_roundTz (a : Int) {b : Nat} (hb : 0 < b) : WithinHalf (a - roundTz a b * b) b := by
  unfold roundTz
  split
  · exact withinHalf_sub_mul_ediv a hb
  · obtain ⟨hlow, hhigh⟩ := withinHalf_sub_mul_ediv (-a) hb
    rw [mul_neg, ← neg_mul] at hlow hhigh
    constructor <;> linarith

/-- What is at least minus half the divisor rounds to no negative number. -/
theorem roundTz_nonneg {a : Int} {b : Nat} (hb : 0 < b) (h : -b ≤ 2 * a) : 0 ≤ roundTz a b := by
  unfold roundTz
  split
  · exact Int.ediv_nonneg (by omega) (by omega)
  · rw [Int.ediv_eq_zero_of_lt (by omega) (by omega)]
    decide

/-- What is at most n and a half times the divisor rounds to at most n. -/
theorem roundTz_le {a : Int} {b : Nat} (hb : 0 < b) {n : Int} (h : 2 * a ≤ (2 * n + 1) * b) (ha : -b ≤ 2 * a) (hn : 0 ≤ n) :
    roundTz a b ≤ n := by
  unfold roundTz
  split
  · refine Int.lt_add_one_iff.mp (Int.ediv_lt_of_lt_mul (by omega) ?_)
    push_cast
    linarith
  · rw [Int.ediv_eq_zero_of_lt (by omega) (by omega)]
    exact hn

/-! ### The order by gain (02 R34) -/

theorem insertSlot_perm (x : CSlot) (t : List CSlot) : (insertSlot x t).Perm (x :: t) := by
  induction t with
  | nil => exact .refl _
  | cons y t ih =>
    unfold insertSlot
    split
    · exact .refl _
    · exact (ih.cons y).trans (.swap x y t)

/-- Gains ascend along a list. -/
def GainsAscend (t : List CSlot) : Prop := t.Pairwise fun x y => x.gain ≤ y.gain

theorem gainsAscend_insertSlot (x : CSlot) {t : List CSlot} (h : GainsAscend t) : GainsAscend (insertSlot x t) := by
  induction t with
  | nil => exact List.pairwise_singleton _ x
  | cons y t ih =>
    obtain ⟨hy, ht⟩ := List.pairwise_cons.mp h
    unfold insertSlot
    split
    next hlt =>
      have hxy : x.gain ≤ y.gain := by omega
      refine List.pairwise_cons.mpr ⟨fun z hz => ?_, h⟩
      rcases List.mem_cons.mp hz with rfl | hz
      · exact hxy
      · exact hxy.trans (hy z hz)
    next hge =>
      have hyx : y.gain ≤ x.gain := by omega
      refine List.pairwise_cons.mpr ⟨fun z hz => ?_, ih ht⟩
      rcases List.mem_cons.mp ((insertSlot_perm x t).subset hz) with rfl | hz
      · exact hyx
      · exact hy z hz

theorem foldr_insertSlot_perm (t : List CSlot) : (t.foldr insertSlot []).Perm t := by
  induction t with
  | nil => exact .refl _
  | cons x t ih => exact (insertSlot_perm x _).trans (ih.cons x)

theorem gainsAscend_foldr_insertSlot (t : List CSlot) : GainsAscend (t.foldr insertSlot []) := by
  induction t with
  | nil => exact .nil
  | cons x t ih => exact gainsAscend_insertSlot x ih

theorem gainOrder_perm (l : List CSlot) : (gainOrder l).Perm (liveSlots l) := foldr_insertSlot_perm _

theorem gainsAscend_gainOrder (l : List CSlot) : GainsAscend (gainOrder l) := gainsAscend_foldr_insertSlot _

/-! ### Reading a level of the diffusion (02 R34) -/

/-- The level that the pairs of a diffusion give slot `j`; 0 where they name it not. -/
def levelIn (ps : List (Nat × Int)) (j : Nat) : Nat :=
  ((ps.find? fun p => p.1 == j).map fun p => p.2.toNat).getD 0

theorem delivered_eq (l : List CSlot) (k d j : Nat) : delivered l k d j = levelIn (diffuse l k d 0 (gainOrder l)) j := rfl

@[simp] theorem levelIn_cons_same (j : Nat) (v : Int) (ps : List (Nat × Int)) : levelIn ((j, v) :: ps) j = v.toNat := by
  simp [levelIn]

theorem levelIn_cons_ne {i j : Nat} (h : i ≠ j) (v : Int) (ps : List (Nat × Int)) :
    levelIn ((i, v) :: ps) j = levelIn ps j := by
  simp [levelIn, h]

theorem levelIn_of_notMem {ps : List (Nat × Int)} {j : Nat} (h : j ∉ ps.map Prod.fst) : levelIn ps j = 0 := by
  have hnone : ps.find? (fun p => p.1 == j) = none :=
    List.find?_eq_none.mpr fun p hp hj => h (List.mem_map.mpr ⟨p, hp, by simpa using hj⟩)
  rw [levelIn, hnone]
  rfl

theorem levelIn_le {ps : List (Nat × Int)} {n : Nat} (h : ∀ p ∈ ps, p.2 ≤ n) (j : Nat) : levelIn ps j ≤ n := by
  unfold levelIn
  cases hf : ps.find? fun p => p.1 == j with
  | none => exact Nat.zero_le n
  | some p => exact Int.toNat_le.mpr (h p (List.mem_of_find?_eq_some hf))

theorem diffuse_numbers (l : List CSlot) (k d : Nat) (e : Int) (t : List CSlot) :
    (diffuse l k d e t).map Prod.fst = t.map CSlot.j := by
  induction t generalizing e with
  | nil => rfl
  | cons x t ih => exact congrArg (x.j :: ·) (ih _)

/-- A disabled slot is delivered nothing (02 R34). -/
theorem delivered_disabled {l : List CSlot} (hl : l.map CSlot.j = List.range 32) {x : CSlot} (hx : x ∈ l)
    (hlive : x.live = false) (k d : Nat) : delivered l k d x.j = 0 := by
  rw [delivered_eq]
  refine levelIn_of_notMem fun h => ?_
  rw [diffuse_numbers] at h
  obtain ⟨y, hy, hyx⟩ := List.mem_map.mp h
  obtain ⟨hyl, hylive⟩ := mem_liveSlots.mp ((gainOrder_perm l).subset hy)
  have := List.inj_on_of_nodup_map (nodup_slots hl) hyl hx hyx
  rw [this, hlive] at hylive
  cases hylive

/-! ### The error carried along (02 R34, R35) -/

section
variable (l : List CSlot) (k d : Nat) (x : CSlot) (e : Int)

/-- What slot `x` is to give when the error `e` is carried to it. -/
def wanted : Int := 512 * (splitLevel l k d x : Int) + e

/-- The error that slot `x` carries on. -/
def carried : Int := wanted l k d x e - roundTz (wanted l k d x e) x.gain * x.gain

theorem diffuse_cons (t : List CSlot) : diffuse l k d e (x :: t) =
    (x.j, roundTz (wanted l k d x e) x.gain) :: diffuse l k d (carried l k d x e) t := rfl

variable {x e}

theorem carried_withinHalf (hx : 0 < x.gain) : WithinHalf (carried l k d x e) x.gain := withinHalf_sub_roundTz _ hx

variable {l k d}

theorem neg_gain_le_wanted (he : WithinHalf e x.gain) : -(x.gain : Int) ≤ 2 * wanted l k d x e := by
  obtain ⟨hlow, -⟩ := he
  unfold wanted
  omega

theorem level_nonneg (hx : 0 < x.gain) (he : WithinHalf e x.gain) : 0 ≤ roundTz (wanted l k d x e) x.gain :=
  roundTz_nonneg hx (neg_gain_le_wanted he)

/-- A gain of at least 1.000 raises no level above the bound of the split (02 R34). -/
theorem level_le (he : WithinHalf e x.gain) (hg : 512 ≤ x.gain) {n : Nat} (hn : splitLevel l k d x ≤ n) :
    roundTz (wanted l k d x e) x.gain ≤ n := by
  refine roundTz_le (by omega) ?_ (neg_gain_le_wanted he) (Int.natCast_nonneg n)
  have hsplit : 512 * (splitLevel l k d x : Int) ≤ n * x.gain := by
    rw [mul_comm]
    exact_mod_cast Nat.mul_le_mul hn hg
  obtain ⟨-, hhigh⟩ := he
  unfold wanted
  linarith

end

section
variable {l : List CSlot} {k d : Nat}

/-- The error carried on by the head of the order is at most half the gain of every slot after it. -/
theorem carried_withinHalf_tail {x : CSlot} {t : List CSlot} (ht : GainsAscend (x :: t)) (hx : 0 < x.gain) (e : Int) :
    ∀ y ∈ t, WithinHalf (carried l k d x e) y.gain := fun y hy =>
  (carried_withinHalf l k d hx).mono ((List.pairwise_cons.mp ht).1 y hy)

/-- Along the order no level passes the bound of the split. -/
theorem diffuse_le {n : Nat} {t : List CSlot} (ht : GainsAscend t) (hg : ∀ x ∈ t, 512 ≤ x.gain)
    (hn : ∀ x ∈ t, splitLevel l k d x ≤ n) (e : Int) (he : ∀ x ∈ t, WithinHalf e x.gain) :
    ∀ p ∈ diffuse l k d e t, p.2 ≤ n := by
  induction t generalizing e with
  | nil => exact fun p hp => absurd hp List.not_mem_nil
  | cons x t ih =>
    rw [List.forall_mem_cons] at hg hn he
    rw [diffuse_cons, List.forall_mem_cons]
    have hx : 0 < x.gain := by omega
    exact ⟨level_le he.1 hg.1 hn.1, ih (List.pairwise_cons.mp ht).2 hg.2 hn.2 _ (carried_withinHalf_tail ht hx e)⟩

/-- The dose that the pairs of a diffusion give the slots of `t`. -/
def doseIn (ps : List (Nat × Int)) (t : List CSlot) : Nat := (t.map fun x => levelIn ps x.j * x.gain).sum

theorem doseIn_cons {x : CSlot} {t : List CSlot} (h : x.j ∉ t.map CSlot.j) (v : Int) (ps : List (Nat × Int)) :
    doseIn ((x.j, v) :: ps) (x :: t) = v.toNat * x.gain + doseIn ps t := by
  have htail : ∀ y ∈ t, levelIn ((x.j, v) :: ps) y.j * y.gain = levelIn ps y.j * y.gain := fun y hy => by
    rw [levelIn_cons_ne fun hxy => h (List.mem_map.mpr ⟨y, hy, hxy.symm⟩)]
  rw [doseIn, List.map_cons, List.sum_cons, levelIn_cons_same, List.map_congr_left htail]
  rfl

/-- What the diffusion along `t` delivers differs from what it is given by an error within half of any bound `g` of the gains: the
errors carried from slot to slot cancel, and the last is what remains. -/
theorem diffuse_dose {g : Nat} {t : List CSlot} (ht : GainsAscend t) (hd : (t.map CSlot.j).Nodup) (hpos : ∀ x ∈ t, 0 < x.gain)
    (hg : ∀ x ∈ t, x.gain ≤ g) (e : Int) (he : ∀ x ∈ t, WithinHalf e x.gain) (heg : WithinHalf e g) :
    WithinHalf (512 * ((t.map (splitLevel l k d)).sum : Nat) + e - doseIn (diffuse l k d e t) t) g := by
  induction t generalizing e with
  | nil => simpa [doseIn] using heg
  | cons x t ih =>
    rw [List.forall_mem_cons] at hpos hg he
    obtain ⟨hnew, hd⟩ := List.nodup_cons.mp hd
    have hrest := ih (List.pairwise_cons.mp ht).2 hd hpos.2 hg.2 _ (carried_withinHalf_tail ht hpos.1 e)
      ((carried_withinHalf l k d hpos.1).mono hg.1)
    rw [diffuse_cons, doseIn_cons hnew, List.map_cons, List.sum_cons]
    convert hrest using 1
    push_cast
    rw [Int.toNat_of_nonneg (level_nonneg hpos.1 he.1), carried, wanted]
    ring

end

/-! ### What a column class is delivered (02 R35) -/

section
variable {l : List CSlot} (hl : l.map CSlot.j = List.range 32)
include hl

theorem nodup_gainOrder : ((gainOrder l).map CSlot.j).Nodup :=
  ((gainOrder_perm l).map _).nodup_iff.mpr (nodup_liveSlots hl)

/-- The delivered dose of a class is that of the diffusion along its order. -/
theorem sum_delivered (k d : Nat) :
    (l.map fun x => delivered l k d x.j * x.gain).sum = doseIn (diffuse l k d 0 (gainOrder l)) (gainOrder l) := by
  rw [sum_liveSlots fun x hx h => by rw [delivered_disabled hl hx h, Nat.zero_mul]]
  exact (((gainOrder_perm l).map _).sum_eq).symm

theorem sum_splitLevel_gainOrder {k : Nat} (hk : k < 16) (hN : 1 ≤ (liveSlots l).length) (d : Nat) :
    ((gainOrder l).map (splitLevel l k d)).sum = d := by
  rw [((gainOrder_perm l).map _).sum_eq, ← sum_liveSlots fun _ _ h => splitLevel_disabled h k d]
  exact sum_splitLevel hl hk hN d

/-- The delivered dose is within half of any bound of the live gains of 512·D. -/
theorem delivered_withinHalf {k g : Nat} (hk : k < 16) (hN : 1 ≤ (liveSlots l).length)
    (hpos : ∀ x ∈ l, x.live = true → 0 < x.gain) (hg : ∀ x ∈ l, x.live = true → x.gain ≤ g) (d : Nat) :
    WithinHalf (512 * d - ((l.map fun x => delivered l k d x.j * x.gain).sum : Nat)) g := by
  have hlive {x : CSlot} (hx : x ∈ gainOrder l) := mem_liveSlots.mp ((gainOrder_perm l).subset hx)
  have hdose := diffuse_dose (l := l) (k := k) (d := d) (gainsAscend_gainOrder l) (nodup_gainOrder hl)
    (fun x hx => hpos x (hlive hx).1 (hlive hx).2) (fun x hx => hg x (hlive hx).1 (hlive hx).2) 0
    (fun x _ => withinHalf_zero x.gain) (withinHalf_zero g)
  rwa [sum_splitLevel_gainOrder hl hk hN, ← sum_delivered hl, add_zero] at hdose

end

/-- Gains of at least 1.000 keep every delivered level of a class within the bound of its split levels (02 R34). -/
theorem delivered_le {l : List CSlot} {k d n : Nat} (hg : ∀ x ∈ l, x.live = true → 512 ≤ x.gain)
    (hn : ∀ x ∈ l, splitLevel l k d x ≤ n) (j : Nat) : delivered l k d j ≤ n := by
  have hlive {x : CSlot} (hx : x ∈ gainOrder l) := mem_liveSlots.mp ((gainOrder_perm l).subset hx)
  rw [delivered_eq]
  exact levelIn_le (diffuse_le (gainsAscend_gainOrder l) (fun x hx => hg x (hlive hx).1 (hlive hx).2)
    (fun x hx => hn x (hlive hx).1) 0 fun x _ => withinHalf_zero x.gain) j

end Sys2Proof.Machine
end

section
/-! PROOF. The dose arithmetic of a flash (02 R29, R31, R32, R34, R35). -/

open Sys2Proof Sys2Proof.Machine

/-- Settles O57: the errors that the diffusion carries cancel, and the last is within half the highest live gain
(`delivered_withinHalf`), which the table holds below 1,024. -/
theorem deliveredDoseIsWithinHalfALevel : Obligations.DeliveredDoseIsWithinHalfALevel := by
  unfold Obligations.DeliveredDoseIsWithinHalfALevel
  rintro tab c k d gmax l hk rfl ⟨x, hx, hlive⟩ hmin ⟨y, hy, -, rfl⟩ hmax
  have hN : 1 ≤ (liveSlots (classSlots tab c k)).length := List.length_pos_of_mem (mem_liveSlots.mpr ⟨hx, hlive⟩)
  have hpos : ∀ z ∈ classSlots tab c k, z.live = true → 0 < z.gain := fun z hz h => Nat.zero_lt_of_lt (hmin z hz h)
  have hhalf := delivered_withinHalf (classSlots_numbers tab c k) hk hN hpos hmax d
  have hgain := gain_lt_of_mem_classSlots hy
  unfold WithinHalf at hhalf
  refine ⟨?_, ?_, fun h => ?_⟩ <;> omega

/-- Settles O56: the ranks of the N live slots are 0 to N - 1, so the levels are N consecutive numbers divided by N
(`sum_splitLevel`); with every slot live they are the values of σ (`rank_eq_sigma`). -/
theorem liveLevelsSumToTheDose : Obligations.LiveLevelsSumToTheDose := by
  unfold Obligations.LiveLevelsSumToTheDose
  rintro tab c k d N l hk rfl rfl hN
  have hl := classSlots_numbers tab c k
  refine ⟨fun x _ => ⟨rfl, rfl⟩, sum_splitLevel hl hk hN d, fun h32 x hx => ?_⟩
  have hall := List.length_filter_eq_length_iff.mp (h32.trans (length_class hl).symm)
  have hrank := rank_eq_sigma hl hk h32 x.j
  exact ⟨hrank, by rw [splitLevel_live (hall x hx), hrank, show (liveSlots (classSlots tab c k)).length = 32 from h32]⟩

/-- Settles O58: D_cap is at most 15 for each live slot (`dCap_le`), so the split keeps within 15 and the diffusion keeps the bound
of the split. -/
theorem levelsFitFourBits : Obligations.LevelsFitFourBits := by
  unfold Obligations.LevelsFitFourBits
  rintro tab c k d l hc hk rfl hd
  have hsplit : ∀ x ∈ classSlots tab c k, splitLevel (classSlots tab c k) k d x ≤ 15 := fun x hx =>
    splitLevel_le (hd.trans (dCap_le tab hc hk)) hx
  exact ⟨hsplit, fun hmin x hx => ⟨delivered_le hmin hsplit x.j,
    fun h => delivered_disabled (classSlots_numbers tab c k) hx h k d⟩⟩

/-- Settles O55: σ is `bitrev5` of the XOR, bit by bit; bit 4 of the slot becomes bit 0 of σ. -/
theorem orderOfSlotsReversesBits : Obligations.OrderOfSlotsReversesBits := by
  unfold Obligations.OrderOfSlotsReversesBits
  exact ⟨fun k _ j _ => ⟨sigma_lt k j, fun _ hi => testBit_sigma k j hi⟩, fun _ hk _ hj => sigma_add_sixteen hk hj, by decide⟩
end

section
/-! SUPPORT. Writing a rendered line to the delay store: the slots it fills, and what it leaves of the render work (05 R101, R104,
06 R133, R145, R146). -/

namespace Sys2Proof.Machine

/-! ### Slots -/

theorem slot_of_store {s t : State} (h : t.store = s.store) (n : Nat) : slot t n = slot s n := by
  unfold slot
  rw [h]

@[simp] theorem slot_setSlot_same (n : Nat) (x : Slot) (s : State) : slot (setSlot n x s) n = some x :=
  tget_tput_self s.store.slots n x

theorem slot_setSlot_ne {n m : Nat} (h : m ≠ n) (x : Slot) (s : State) : slot (setSlot n x s) m = slot s m :=
  tget_tput_ne s.store.slots h x

/-- From `s` to `t` slot n is filled, and no slot becomes FREE. -/
def FillsSlot (n : Nat) (s t : State) : Prop :=
  (slot t n).isSome = true ∧ ∀ m, (slot s m).isSome = true → (slot t m).isSome = true

/-- A state whose slots are those of `s` with slot n set. -/
theorem FillsSlot.of_slots {n : Nat} {x : Slot} {s t : State} (h : t.store.slots = tput s.store.slots n x) : FillsSlot n s t := by
  have ht : ∀ m, slot t m = slot (setSlot n x s) m := fun m => congrArg (tget · m) h
  refine ⟨by rw [ht, slot_setSlot_same]; rfl, fun m hm => ?_⟩
  by_cases hmn : m = n
  · rw [hmn, ht, slot_setSlot_same]
    rfl
  · rwa [ht, slot_setSlot_ne hmn]

theorem FillsSlot.of_store {n : Nat} {s s1 t : State} (h : s1.store = s.store) (k : FillsSlot n s1 t) : FillsSlot n s t :=
  ⟨k.1, fun m hm => k.2 m (by rwa [slot_of_store h])⟩

/-! ### Writing a segment -/

/-- Taking pool blocks sets no slot (06 R145). -/
@[simp] theorem takeBlocks_slots (n : Nat) (s : State) : (takeBlocks n s).2.store.slots = s.store.slots := by
  induction n generalizing s with
  | zero => rfl
  | succ n ih =>
    simp only [takeBlocks]
    split
    · exact ih _
    · split
      · rfl
      · exact ih _

/-- Filling pool blocks sets no slot (06 R131). -/
@[simp] theorem putBlocks_slots (bs : List Nat) (l : List Byte) (s : State) :
    (putBlocks bs l s).store.slots = s.store.slots := by
  induction bs generalizing l s with
  | nil => rfl
  | cons b t ih => exact ih _ _

/-- A spilled segment has its slot (06 R146). -/
theorem fillsSlot_spillSeg (n line kind : Nat) (check : BitVec 32) (coded : List Byte) (s : State) :
    FillsSlot n s (spillSeg n line kind check coded s) := by
  refine .of_slots (x := mkSlot coded.length 2 kind check [] [] 1) ?_
  unfold spillSeg
  dsimp only
  split <;> simp [setSlot]

/-- A segment written has its slot, be it in the slot itself, in the pool or in the spill area, or had it before
(06 R133, R145, R146). -/
theorem fillsSlot_writeSeg (line k kind : Nat) (check : BitVec 32) (coded : List Byte) (peer : Bool) (s : State) :
    FillsSlot (slotOf line k) s (writeSeg line k kind check coded peer s) := by
  unfold writeSeg
  dsimp only
  split
  case h_1 x hx =>
    have hsame : ∀ m, slot (stat (sk 0x03050000 2) s) m = slot s m := slot_of_store (by simp)
    exact ⟨by rw [hsame, hx]; rfl, fun m hm => by rwa [hsame]⟩
  case h_2 =>
    generalize hs1 : stat _ (stat _ s) = s1
    refine .of_store (s1 := s1) (by simp [← hs1]) ?_
    split
    · exact .of_slots rfl
    · split
      · exact .of_slots (by rw [putBlocks_slots]; simp only [setSlot, takeBlocks_slots]; rfl)
      · exact fillsSlot_spillSeg ..

/-! ### Writing a line -/

/-- A line written frees no slot. -/
theorem slot_isSome_writeLine (line k : Nat) (segs : List (List Nat)) {s : State} {m : Nat} (h : (slot s m).isSome = true) :
    (slot (writeLine line k segs s) m).isSome = true := by
  induction segs generalizing k s with
  | nil => exact h
  | cons v t ih => exact ih (k + 1) ((fillsSlot_writeSeg ..).2 m h)

/-- Every segment of a line written, from sub-raster `k` on, has its slot (05 R101). -/
theorem slot_isSome_writeLine_of_lt (line k : Nat) (segs : List (List Nat)) (s : State) {i : Nat} (h : i < segs.length) :
    (slot (writeLine line k segs s) (slotOf line (k + i))).isSome = true := by
  induction segs generalizing k s i with
  | nil => exact absurd h (Nat.not_lt_zero i)
  | cons v t ih =>
    cases i with
    | zero => exact slot_isSome_writeLine line (k + 1) t (fillsSlot_writeSeg ..).1
    | succ i =>
      rw [← Nat.add_assoc, Nat.add_right_comm]
      exact ih (k + 1) _ (Nat.lt_of_succ_lt_succ h)

theorem only_writeLine_self (line k : Nat) (segs : List (List Nat)) (s : State) :
    Only [.out, .win, .store, .nor, .evt, .stats, .hbmMem, .hostMem] s (writeLine line k segs s) :=
  only_writeLine line k segs (by decide) (by decide) (by decide) (by decide) (by decide) (by decide) (by decide) (by decide)
    (.refl _ s)

/-- Writing a line leaves the render work as it was. -/
@[simp] theorem writeLine_rnd (line k : Nat) (segs : List (List Nat)) (s : State) : (writeLine line k segs s).rnd = s.rnd :=
  (only_writeLine_self line k segs s).rnd (by decide)

/-! ### Render-ready (05 R104) -/

theorem only_checkReady_self (s : State) : Only [.rnd] s (checkReady s) := only_checkReady (by decide) (.refl _ s)

@[simp] theorem checkReady_store (s : State) : (checkReady s).store = s.store := (only_checkReady_self s).store (by decide)

@[simp] theorem checkReady_cores (s : State) : (checkReady s).rnd.cores = s.rnd.cores := by
  unfold checkReady
  split <;> rfl

end Sys2Proof.Machine
end

section
/-! SUPPORT. Work items that render and copy: what the end of a run on a core, of a bin and of a COPY does (05 R101, R122, 03 R72,
14 R348). -/

namespace Sys2Proof.Machine

/-! ### A core whose line is rendered -/

/-- The state whose core has given its line away. -/
def coreFreed (c : Fin 32) (s : State) : State := { s with rnd := { s.rnd with cores := s.rnd.cores.set c.val none } }

theorem only_coreFreed (c : Fin 32) (s : State) : Only [.rnd] s (coreFreed c s) := (Only.refl _ s).set_rnd _ (by decide)

/-- LINE_RENDERED of a line whose fill has not ended: the core is free, and the line goes where its class says (05 R101). -/
theorem exec_lineRendered {s : State} {c : Fin 32} {r : RLine} {segs : List (List Nat)} (hc : s.rnd.cores[c] = some r)
    (hon : domOn s .rnd0 = true) (hlive : r.cls ≠ 4) (hl : lineLook (coreFreed c s) r = .ready segs) :
    exec (.lineRendered c) s = .next (lineDone r segs (stat (sk 0x03040000 r.cls) (coreFreed c s))) := by
  change execLineRendered c s = _
  unfold coreFreed at hl ⊢
  simp [execLineRendered, hc, hon, hlive, hl]

/-- A line of the fill enters the store, each segment in its slot (05 R101, 06 R145). -/
theorem lineDone_exposing {r : RLine} (h : r.cls = 0) (segs : List (List Nat)) (s : State) :
    (lineDone r segs s).rnd.cores = s.rnd.cores ∧
      (∀ k, k < segs.length → (slot (lineDone r segs s) (slotOf r.line k)).isSome = true) ∧
      Only [.out, .win, .rnd, .store, .nor, .evt, .stats, .hbmMem, .hostMem] s (lineDone r segs s) := by
  have hdone : lineDone r segs s = checkReady (writeLine r.line 0 segs s) := if_pos h
  rw [hdone]
  refine ⟨by simp, fun k hk => ?_, ?_⟩
  · rw [slot_of_store (checkReady_store _), ← Nat.zero_add k]
    exact slot_isSome_writeLine_of_lt r.line 0 segs s hk
  · exact only_checkReady (by decide) ((only_writeLine_self ..).mono (by decide))

/-- A trial line joins those of its census (03 R72). -/
theorem lineDone_census {r : RLine} {s : State} {x : CensusRun} (h : r.cls = 3) (hx : censusOf s r.flow = some x)
    (segs : List (List Nat)) : lineDone r segs s = putCensus { x with values := x.values ++ [(r.line, segs)] } s := by
  simp [lineDone, h, hx]

theorem censusOf_lay {s t : State} (h : t.lay = s.lay) (f : BitVec 8) : censusOf t f = censusOf s f := by
  unfold censusOf
  rw [h]

/-! ### An item that is done -/

/-- An item done, then the tables that waited for it: the item is over, and the render work is as it was (11 R247, 05 R111). -/
theorem doneItem_activateTables_effect {s : State} {f : BitVec 8} {q : BitVec 64} {i : Item} (h : findItem s f q = some i)
    (hl : i.live = true) (n : Nat) :
    Ended f q .done 0 0 (activateTables (doneItem f q n s)) ∧ (activateTables (doneItem f q n s)).rnd = s.rnd := by
  refine ⟨(doneItem_ended h hl n).of_led (activateTables_led _), ?_⟩
  have honly : Only [.out, .win, .cfg, .led, .link, .dma, .fab, .nor, .diag, .evt, .stats, .hostMem, .free] s
      (activateTables (doneItem f q n s)) :=
    only_activateTables (by decide) (by decide) (by decide) (by decide) (by decide) (by decide) (by decide) (by decide)
      (only_doneItem f q n (by decide) (by decide) (by decide) (by decide) (by decide) (by decide) (by decide) (by decide)
        (by decide) (by decide) (by decide) (.refl _ s))
  exact honly.rnd (by decide)

/-! ### A bin rendered -/

/-- The state without a run and without its waiting lines, its end counted under reason 0 (05 R122, R126). -/
def withoutBin (b : BinRun) (s : State) : State :=
  stat (sk 0x03040000 0x30) (dropBinLines b { s with rnd := { s.rnd with
    bins := s.rnd.bins.filter (fun x => !(x.req == b.req && x.flow == b.flow && x.seq == b.seq)) } })

theorem withoutBin_led (b : BinRun) (s : State) : (withoutBin b s).led = s.led := by
  simp [withoutBin, dropBinLines]

theorem ne_of_mem_withoutBin {b x : BinRun} {s : State} (h : x ∈ (withoutBin b s).rnd.bins) :
    ¬ (x.req = b.req ∧ x.flow = b.flow ∧ x.seq = b.seq) := by
  simp only [withoutBin, dropBinLines, stat_parts, List.mem_filter, Bool.not_eq_true', Bool.and_eq_false_iff,
    beq_eq_false_iff_ne] at h
  tauto

/-- A run of the device's own that has not failed ends: its item is DONE with the bytes delivered (05 R122). -/
theorem endBin_own {b : BinRun} (hreq : b.req = none) (hok : b.failed = 0) (s : State) :
    endBin b s = activateTables (doneItem b.flow b.seq b.written (withoutBin b s)) := by
  simp [endBin, withoutBin, hreq, hok]

/-- RENDER_BIN_COMPLETE of a run with no line held back and nothing left to deliver (05 R122). -/
theorem exec_renderBinComplete {s : State} {f : BitVec 8} {b : BinRun} (hon : domOn s .rnd0 = true)
    (hb : binOnFlow s f = some b) (hheld : b.held = []) (hover : b.over s = true) :
    exec (.renderBinComplete f) s = .next (endBin b s) := by
  change execRenderBinComplete f s = _
  have hnone : deliver (b.held.length + 1) b s = s := by simp [deliver, hheld]
  simp [execRenderBinComplete, hb, hnone, hon, hover]

/-! ### A COPY whose last byte is written -/

/-- COPY_COMPLETE of a COPY that the engine can work on and whose last bytes move (14 R348). -/
theorem exec_copyComplete {s u : State} {f : BitVec 8} {r : CopyRun} {d : DescF} (hr : copyOf s f = some r)
    (hd : r.f s = some d) (halive : d.alive s = true) (hst : r.st = 0) (hmove : d.move f.toNat r.done d.len s = some u) :
    exec (.copyComplete f) s = .next (activateTables (doneItem f r.seq d.len (copyStat 0 (dropCopy f u)))) := by
  change execCopyComplete f s = _
  simp [execCopyComplete, hr, hd, halive, hst, hmove]

/-- Moving the bytes of a COPY and dropping it leaves the ledger (14 R334). -/
theorem copied_led {s u : State} {d : DescF} {flow p q : Nat} (h : d.move flow p q s = some u) (k : Nat) (f : BitVec 8) :
    (copyStat k (dropCopy f u)).led = s.led := by
  have hmove : Only [.dma, .diag, .stats, .hbmMem, .hostMem, .free] s u :=
    only_DescF_move d flow p q (by decide) (by decide) (by decide) (by decide) (by decide) (by decide) (.refl _ s) h
  exact (only_copyStat k (by decide) (only_dropCopy f (by decide) hmove)).led (by decide)

end Sys2Proof.Machine
end

section
/-! PROOF. Rendered lines, spilled segments, and the ends of RENDER_BIN and COPY (05 R101-R103, R122, 06 R145-R147, 03 R72,
14 R348). -/

namespace Sys2Proof.Machine

/-! ### Lines -/

/-- The line that LINE_DISPATCH picks goes to its core (05 R102, R103). -/
theorem lineDispatch_effect {s : State} {r : RLine} {c : Fin 32} {segs : List (List Nat)} (hon : domOn s .rnd0 = true)
    (hn : nextDispatch s = some (r, c)) (hl : lineLook s r = .ready segs) :
    Runs .lineDispatch s fun t =>
      t.rnd = { s.rnd with waiting := s.rnd.waiting.erase r, cores := s.rnd.cores.set c.val (some r) } ∧ Only [.rnd] s t := by
  have hexec : execLineDispatch s = .next (assign r c s) := by simp [execLineDispatch, hon, hn, hl]
  exact ⟨assign r c s, hexec, rfl, (Only.refl _ s).set_rnd _ (by decide)⟩

section
variable {s : State} {c : Fin 32} {r : RLine} {segs : List (List Nat)} (hc : s.rnd.cores[c] = some r)
  (hon : domOn s .rnd0 = true) (hl : lineLook (coreFreed c s) r = .ready segs)
include hc hon hl

/-- A rendered line of the fill frees its core and enters the store (05 R101, 06 R145). -/
theorem lineRendered_exposing_effect (h0 : r.cls = 0) :
    Runs (.lineRendered c) s fun t => t.rnd.cores = s.rnd.cores.set c.val none ∧
      (∀ k, k < segs.length → (slot t (slotOf r.line k)).isSome = true) ∧
      Only [.out, .win, .rnd, .store, .nor, .evt, .stats, .hbmMem, .hostMem] s t := by
  obtain ⟨hcores, hslots, honly⟩ := lineDone_exposing h0 segs (stat (sk 0x03040000 r.cls) (coreFreed c s))
  refine ⟨_, exec_lineRendered hc hon (by omega) hl, ?_, hslots, ?_⟩
  · rw [hcores]
    simp [coreFreed]
  · exact (only_stat _ (by decide) ((only_coreFreed c s).mono (by decide))).trans honly

/-- A rendered trial line frees its core and joins those of its census (03 R72). -/
theorem lineRendered_census_effect {x : CensusRun} (h3 : r.cls = 3) (hx : censusOf s r.flow = some x) :
    Runs (.lineRendered c) s fun t => t.rnd.cores = s.rnd.cores.set c.val none ∧
      t.lay.censuses = s.lay.censuses.map (fun y => if y.flow = x.flow then { x with values := x.values ++ [(r.line, segs)] } else y) ∧
      Only [.rnd, .lay, .stats] s t := by
  have hlay : (stat (sk 0x03040000 r.cls) (coreFreed c s)).lay = s.lay := by simp [coreFreed]
  refine ⟨_, exec_lineRendered hc hon (by omega) hl, ?_⟩
  rw [lineDone_census h3 ((censusOf_lay hlay _).trans hx)]
  refine ⟨by simp [putCensus, coreFreed], congrArg (fun l : Layout => l.censuses.map _) hlay, ?_⟩
  exact only_putCensus _ (by decide) (only_stat _ (by decide) ((only_coreFreed c s).mono (by decide)))

end

/-! ### Spilled segments -/

section
variable {s : State} {n : Nat} {x : Slot} (hx : slot s n = some x) (hspilt : x.where_ = 2) (hon : domOn s .store = true)
include hx hspilt hon

/-- The acknowledged write of a spilled segment makes its slot VALID (06 R133). -/
theorem spillWriteAck_effect (h1 : x.st = 1) :
    Runs (.spillWriteAck n) s fun t => slot t n = some { x with st := 2 } ∧ Only [.rnd, .store] s t := by
  have hexec : execSpillWriteAck n s = .next (checkReady (setSlot n { x with st := 2 } s)) := by
    simp [execSpillWriteAck, hx, hspilt, h1, hon]
  refine ⟨_, hexec, ?_, only_checkReady (by decide) (only_setSlot _ _ (by decide) (.refl _ s))⟩
  rw [slot_of_store (checkReady_store _), slot_setSlot_same]

/-- The returned read of a spilled segment puts its value at hand (06 R147). -/
theorem spillReadReturn_effect (h2 : x.st = 2) (hnew : s.store.spillReady.contains n = false) :
    Runs (.spillReadReturn n) s fun t =>
      t.store = { s.store with spillReady := s.store.spillReady ++ [n] } ∧ Only [.store, .stats] s t := by
  have hexec : execSpillReadReturn n s = .next (statAdd (sk 0x03050000 11) x.len
      { s with store := { s.store with spillReady := s.store.spillReady ++ [n] } }) := by
    simp only [execSpillReadReturn, hx, hspilt, h2, hon, hnew, and_self, if_true]
  exact ⟨_, hexec, by simp, only_statAdd _ _ (by decide) ((Only.refl _ s).set_store _ (by decide))⟩

end

/-! ### Items that are over -/

/-- A bin of the device's own rendered to its last line is over, and its item is DONE (05 R122). -/
theorem renderBinComplete_effect {s : State} {f : BitVec 8} {i : Item} {b : BinRun} (hon : domOn s .rnd0 = true)
    (hb : binOnFlow s f = some b) (hheld : b.held = []) (hok : b.failed = 0) (hover : b.over s = true) (hreq : b.req = none)
    (hi : findItem s b.flow b.seq = some i) (hl : i.live = true) :
    Runs (.renderBinComplete f) s fun t => Ended b.flow b.seq .done 0 0 t ∧
      ∀ x ∈ t.rnd.bins, ¬ (x.req = none ∧ x.flow = b.flow ∧ x.seq = b.seq) := by
  have hi' : findItem (withoutBin b s) b.flow b.seq = some i := (findItem_led (withoutBin_led b s) _ _).trans hi
  obtain ⟨hended, hrnd⟩ := doneItem_activateTables_effect hi' hl b.written
  refine ⟨_, exec_renderBinComplete hon hb hheld hover, ?_⟩
  rw [endBin_own hreq hok]
  refine ⟨hended, fun x hx => ?_⟩
  rw [hrnd] at hx
  rw [← hreq]
  exact ne_of_mem_withoutBin hx

/-- A COPY whose last byte is written ends its item DONE (14 R348). -/
theorem copyComplete_effect {s u : State} {f : BitVec 8} {i : Item} {r : CopyRun} {d : DescF} (hr : copyOf s f = some r)
    (hd : r.f s = some d) (halive : d.alive s = true) (hst : r.st = 0) (hmove : d.move f.toNat r.done d.len s = some u)
    (hi : findItem s f r.seq = some i) (hl : i.live = true) :
    Runs (.copyComplete f) s fun t => Ended f r.seq .done 0 0 t :=
  have hi' : findItem (copyStat 0 (dropCopy f u)) f r.seq = some i := (findItem_led (copied_led hmove 0 f) _ _).trans hi
  ⟨_, exec_copyComplete hr hd halive hst hmove, (doneItem_activateTables_effect hi' hl d.len).1⟩

end Sys2Proof.Machine

open Sys2Proof Sys2Proof.Machine

/-- Settles O16: a line written fills the slot of each segment and frees none (`fillsSlot_writeSeg`), and the end of a bin or of a
COPY goes through `doneItem`, after which the tables that become active touch neither the ledger nor the render work. -/
theorem renderedLinesReachTheirPlace : Obligations.RenderedLinesReachTheirPlace := by
  unfold Obligations.RenderedLinesReachTheirPlace
  refine ⟨fun s r c hon => ⟨fun segs hn hl => ?_, fun segs hc hl => ⟨fun h0 => ?_, fun x h3 hx => ?_⟩⟩,
    fun s n x hx hspilt hon => ⟨fun h1 => ?_, fun h2 hnew => ?_⟩,
    fun s f i => ⟨fun b hon hb hheld hok hover hreq hi hl => ?_, fun r d u hr hd halive hst hmove hi hl => ?_⟩⟩
  · exact lineDispatch_effect hon hn hl
  · exact lineRendered_exposing_effect hc hon hl h0
  · exact lineRendered_census_effect hc hon hl h3 hx
  · exact spillWriteAck_effect hx hspilt hon h1
  · exact spillReadReturn_effect hx hspilt hon h2 hnew
  · exact renderBinComplete_effect hon hb hheld hok hover hreq hi hl
  · exact copyComplete_effect hr hd halive hst hmove hi hl
end

section
/-! SUPPORT. The reflected CRC-32C register of the model is the bit reversal of the register that shifts towards its highest bit and
takes the bits of a byte lowest first (06 R134). -/

namespace Sys2Proof.Machine

/-! ### Bit reversal -/

theorem reverse_xor {w : Nat} (x y : BitVec w) : (x ^^^ y).reverse = x.reverse ^^^ y.reverse := by
  ext i hi
  simp [BitVec.getElem_reverse]

theorem reverse_shiftLeft_one {w : Nat} (x : BitVec w) : (x <<< 1).reverse = x.reverse >>> 1 := by
  ext i hi
  simp [BitVec.getElem_reverse, BitVec.getLsbD_reverse, Nat.add_comm 1]

/-! ### The register -/

/-- The next value of the CRC-32C register that is not reflected, on one bit of input (06 R134). -/
def crc32cNext (c : BitVec 32) (b : Bool) : BitVec 32 :=
  if (c.msb ^^ b) = true then (c <<< 1) ^^^ 0x1EDC6F41#32 else c <<< 1

theorem crc32cNext_reverse (c : BitVec 32) (b : Bool) :
    (crc32cNext c b).reverse = if (c.msb ^^ b) = true then c.reverse >>> 1 ^^^ 0x82F63B78#32 else c.reverse >>> 1 := by
  have hpoly : (0x1EDC6F41#32).reverse = 0x82F63B78#32 := by decide +kernel
  unfold crc32cNext
  split
  · rw [reverse_xor, reverse_shiftLeft_one, hpoly]
  · exact reverse_shiftLeft_one c

/-- The lowest bit of `v` is the bit of input; the others wait in the register, one place lower. -/
theorem crc32cBit_reverse_xor (c v : BitVec 32) :
    crc32cBit (c.reverse ^^^ v) = (crc32cNext c (v.getLsbD 0)).reverse ^^^ v >>> 1 := by
  have hlow : (c.reverse ^^^ v).getLsbD 0 = (c.msb ^^ v.getLsbD 0) := by
    rw [BitVec.getLsbD_xor, BitVec.getLsbD_reverse, BitVec.msb]
  rw [crc32cNext_reverse, crc32cBit, hlow, BitVec.ushiftRight_xor_distrib]
  split
  · ac_rfl
  · rfl

/-- After `n` steps the `n` lowest bits of `v` have been taken in, lowest first. -/
theorem iterate_crc32cBit_reverse_xor (c v : BitVec 32) (n : Nat) :
    crc32cBit^[n] (c.reverse ^^^ v) = (((List.range n).map v.getLsbD).foldl crc32cNext c).reverse ^^^ v >>> n := by
  induction n with
  | zero => simp
  | succ n ih =>
    rw [Function.iterate_succ_apply', ih, crc32cBit_reverse_xor, ← BitVec.shiftRight_add, BitVec.getLsbD_ushiftRight,
      List.range_succ, List.map_append, List.foldl_append]
    rfl

/-! ### Bytes -/

/-- The bits of a byte in the order in which a reflected check value takes them in. -/
def bitsLowFirst (b : Byte) : List Bool := [0, 1, 2, 3, 4, 5, 6, 7].map b.getLsbD

theorem map_getLsbD_setWidth (b : Byte) : (List.range 8).map (b.setWidth 32).getLsbD = bitsLowFirst b :=
  List.map_congr_left fun i hi => by
    have hi : i < 32 := (List.mem_range.mp hi).trans (by decide)
    simp [hi]

theorem crc32cByte_reverse (c : BitVec 32) (b : Byte) :
    crc32cByte c.reverse b = ((bitsLowFirst b).foldl crc32cNext c).reverse := by
  have hrest : b.setWidth 32 >>> 8 = 0#32 := by
    ext i hi
    simp
  have h := iterate_crc32cBit_reverse_xor c (b.setWidth 32) 8
  rw [map_getLsbD_setWidth, hrest, BitVec.xor_zero] at h
  exact h

theorem crc32cFrom_reverse (c : BitVec 32) (l : List Byte) :
    crc32cFrom c.reverse l = ((l.flatMap bitsLowFirst).foldl crc32cNext c).reverse := by
  induction l generalizing c with
  | nil => rfl
  | cons b t ih => rw [crc32cFrom, crc32cByte_reverse, ih, List.flatMap_cons, List.foldl_append]

/-- CRC-32C by its parameters: from all ones, input and output reflected, inverted at the end (06 R134). -/
theorem crc32c_eq_reverse (l : List Byte) :
    crc32c l = ((l.flatMap bitsLowFirst).foldl crc32cNext 0xFFFFFFFF#32).reverse ^^^ 0xFFFFFFFF#32 := by
  have hones : (0xFFFFFFFF#32).reverse = 0xFFFFFFFF#32 := by decide +kernel
  rw [← crc32cFrom_reverse, hones, crc32c]

end Sys2Proof.Machine

open Sys2Proof Sys2Proof.Machine

/-- Settles O54: the model's reflected register is the reversal of the stated one at every byte (`crc32c_eq_reverse`); the check
value is computed. -/
theorem checkValuesAreCastagnoli : Obligations.CheckValuesAreCastagnoli := by
  unfold Obligations.CheckValuesAreCastagnoli
  exact ⟨crc32c_eq_reverse, by decide +kernel⟩
end

section
/-! SUPPORT. Stopping the sequencer: what a stop makes of the sequencer's state, and what the fill and the generator leave of it
(06 R130, 07 R165-R169, 10 R232). -/

namespace Sys2Proof.Machine

/-! ### Operations that leave the sequencer -/

@[simp] theorem endFill_seq (s : State) : (endFill s).seq = s.seq :=
  (only_endFill (fr := [.rnd, .store]) (by decide) (by decide) (.refl _ s)).seq (by decide)

theorem only_rampStop_self (org c input : Nat) (s : State) :
    Only [.out, .win, .scan, .nor, .evt, .stats, .hostMem] s (rampStop org c input s) :=
  only_rampStop org c input (by decide) (by decide) (by decide) (by decide) (by decide) (by decide) (by decide) (.refl _ s)

@[simp] theorem rampStop_seq (org c input : Nat) (s : State) : (rampStop org c input s).seq = s.seq :=
  (only_rampStop_self org c input s).seq (by decide)

@[simp] theorem countCause_seq (c : Nat) (s : State) : (countCause c s).seq = s.seq := by simp [countCause]

/-- Setting the sequencer keeps what the state keeps, where it keeps a latched cut dark (07 R164). -/
theorem kept_setSeq {s : State} {x : Seq} (h : s.seq.heldDark → x.heldDark) : Kept s { s with seq := x } :=
  ⟨rfl, List.suffix_refl _, List.suffix_refl _, id, id, h⟩

/-! ### A stop -/

/-- An immediate stop leaves the strobe low, the blank high and no flash to strobe (07 R167). -/
theorem cutNow_seq (s : State) :
    (cutNow s).seq = { s.seq with gblank := true, gstrobe := false, fired := [], framed := none } := by
  unfold cutNow
  dsimp only
  split
  · simp [takeFree]
  · rfl

/-- The sequencer of a stripe that stops with cause `c` and last flash `m` (07 R165-R167). -/
def Seq.stopWith (c : Nat) (imm : Bool) (m : Int) (q : Seq) : Seq :=
  { q with
    st := .stopping
    m := m
    causes := [c]
    met := []
    lastCause := c
    immediate := imm
    framed := none
    gstrobe := !imm && q.gstrobe
    fired := if imm then [] else q.fired.filter (fun n => decide (n ≤ m))
    gblank := if imm then true else blankAtBoundary { q with fired := q.fired.filter (fun n => decide (n ≤ m)) } }

theorem stopAt_seq (c : Nat) (imm : Bool) (m : Int) (s : State) : (stopAt c imm m s).seq = s.seq.stopWith c imm m := by
  cases imm <;> simp [stopAt, Seq.stopWith, cutNow_seq]

/-- A cause on an active stripe stops it (07 R165-R167). -/
theorem stopStripe_active_seq {s : State} (h : s.seq.st.active = true) (c : Nat) (imm : Bool) (org input : Nat) :
    (stopStripe c imm org input s).seq = s.seq.stopWith c imm (stopM imm s.seq) := by
  simp [stopStripe, h, stopAt_seq]

theorem stops_of_seq {c : Nat} {imm : Bool} {m : Int} {q : Seq} {t : State} (h : t.seq = q.stopWith c imm m) : Stops c m t := by
  simp [Stops, h, Seq.stopWith]

theorem stopStripe_stops {s : State} (h : s.seq.st.active = true) (c : Nat) (imm : Bool) (org input : Nat) :
    Stops c (stopM imm s.seq) (stopStripe c imm org input s) :=
  stops_of_seq (stopStripe_active_seq h c imm org input)

/-! ### What a stop leaves -/

/-- All that a stop cause does to the sequencer, whatever its state: a stripe may stop, and its item, its run, the watchdog and the
cool-down stay. -/
structure MayStop (q r : Seq) : Prop where
  item : r.item = q.item
  n0 : r.n0 = q.n0
  resumes : r.resumes = q.resumes
  wdLatch : r.wdLatch = q.wdLatch
  cool : r.cool = q.cool
  st : r.st = q.st ∨ r.st = .stopping

theorem MayStop.refl (q : Seq) : MayStop q q := ⟨rfl, rfl, rfl, rfl, rfl, .inl rfl⟩

theorem MayStop.of_eq {q r : Seq} (h : r = q) : MayStop q r := h ▸ .refl r

theorem MayStop.trans {q r v : Seq} (h : MayStop q r) (k : MayStop r v) : MayStop q v := by
  refine ⟨k.item.trans h.item, k.n0.trans h.n0, k.resumes.trans h.resumes, k.wdLatch.trans h.wdLatch, k.cool.trans h.cool, ?_⟩
  obtain hst | hst := k.st
  · rw [hst]
    exact h.st
  · exact .inr hst

theorem mayStop_cutNow (s : State) : MayStop s.seq (cutNow s).seq := by
  rw [cutNow_seq]
  exact ⟨rfl, rfl, rfl, rfl, rfl, .inl rfl⟩

theorem mayStop_addCause (c : Nat) (s : State) : MayStop s.seq (addCause c s).seq := by
  unfold addCause
  split
  · exact .refl _
  · rw [countCause_seq]
    exact ⟨rfl, rfl, rfl, rfl, rfl, .inl rfl⟩

theorem mayStop_stopStripe (c : Nat) (imm : Bool) (org input : Nat) (s : State) :
    MayStop s.seq (stopStripe c imm org input s).seq := by
  by_cases hact : s.seq.st.active = true
  · rw [stopStripe_active_seq hact]
    exact ⟨rfl, rfl, rfl, rfl, rfl, .inr rfl⟩
  · unfold stopStripe
    rw [if_neg hact]
    split
    · refine .trans ?_ (mayStop_addCause c _)
      cases imm with
      | true => exact mayStop_cutNow s
      | false => exact .refl _
    · split
      · exact mayStop_addCause c s
      · exact .refl _

theorem mayStop_boundaryStop (c : Nat) (s : State) : MayStop s.seq (boundaryStop c s).seq :=
  mayStop_stopStripe c false 1 0 s

end Sys2Proof.Machine
end

section
/-! PROOF. The strobe, the late frame and the strobe watchdog (07 R161, R163, R164, R166, R167). -/

namespace Sys2Proof.Machine

/-! ### The strobe -/

/-- The strobe of the oldest fired flash rises while the watchdog is clear (07 R161, R164). -/
theorem gstrobeRise_effect {s : State} {n : Int} {l : List Int} (hf : s.seq.fired = n :: l) (hwd : s.seq.wdLatch = false)
    (hlow : s.seq.gstrobe = false) :
    Runs .gstrobeRise s fun t => t.seq = { s.seq with gstrobe := true, strobed := n, fired := l } ∧ Only [.seq] s t := by
  have hexec : execGstrobeRise s = .next { s with seq := { s.seq with gstrobe := true, strobed := n, fired := l } } := by
    simp [execGstrobeRise, hf, hwd, hlow]
  exact ⟨_, hexec, rfl, (Only.refl _ s).set_seq _ (by decide)⟩

/-- While the watchdog's cut is latched no strobe rises (07 R164). -/
theorem gstrobeRise_latched {s : State} (hwd : s.seq.wdLatch = true) : Runs .gstrobeRise s fun t => t = s := by
  have hexec : execGstrobeRise s = .next s := by
    unfold execGstrobeRise
    cases s.seq.fired with
    | nil => rfl
    | cons n l => simp [hwd]
  exact ⟨s, hexec, rfl⟩

/-- The strobe falls, and GBLANK rises where no further flash of the stripe strobes (07 R163, R166). -/
theorem gstrobeFall_effect {s : State} (h : s.seq.gstrobe = true) :
    Runs .gstrobeFall s fun t => t.seq = { s.seq with gstrobe := false, gblank := blankAfter s.seq } ∧ Only [.seq] s t :=
  ⟨_, congrArg Host.Outcome.next (if_pos h), rfl, (Only.refl _ s).set_seq _ (by decide)⟩

/-! ### A late frame -/

/-- A late frame stops the stripe at the flash before it, and no flash after that one strobes (07 R161, R166). -/
theorem frameDeadlineMissed_effect {s : State} {n : Int} {l : List Int} (hf : s.seq.fired = n :: l)
    (hrun : s.seq.st = .running ∨ s.seq.st = .ending) :
    Runs .frameDeadlineMissed s fun t => Stops 8 (n - 1) t ∧ ∀ k ∈ t.seq.fired, k ≤ n - 1 := by
  have hexec : execFrameDeadlineMissed s =
      .next (rampStop 1 8 0 (stopAt 8 false (n - 1) (stat (sk 0x03060001 0x42) s))) := by
    simp [execFrameDeadlineMissed, hf, hrun]
  have hseq : (rampStop 1 8 0 (stopAt 8 false (n - 1) (stat (sk 0x03060001 0x42) s))).seq = s.seq.stopWith 8 false (n - 1) := by
    simp [stopAt_seq]
  refine ⟨_, hexec, stops_of_seq hseq, fun k hk => ?_⟩
  rw [hseq] at hk
  exact of_decide_eq_true (List.mem_filter.mp hk).2

/-! ### The strobe watchdog -/

/-- The state whose strobe the watchdog has cut, the event raised and the flag set, before the stop (07 R164). -/
def cutRaised (s : State) : State :=
  setFlag 5 (raise 0x0365 .seq 0 (stat (sk 0x03060001 0x44)
    { s with seq := { s.seq with wdLatch := true, gstrobe := false, gblank := true } }))

theorem cutRaised_seq (s : State) :
    (cutRaised s).seq = { s.seq with wdLatch := true, gstrobe := false, gblank := true } := by
  simp [cutRaised]

theorem cutRaised_raises (s : State) : Raises 0x0365 0 s (cutRaised s) := by
  unfold cutRaised
  refine ((raise_raises 0x0365 .seq 0 _).later (kept_setFlag 5 (.refl _))).sooner (kept_stat _ ?_)
  exact kept_setSeq fun _ _ => ⟨rfl, rfl⟩

/-- STROBE_CUT while the watchdog is clear: the stripe stops at once with cause 7 (07 R164). -/
theorem exec_strobeCut {s : State} (h : s.seq.wdLatch = false) :
    exec .strobeCut s = .next (stopStripe 7 true 1 0 (cutRaised s)) := by
  change execStrobeCut s = _
  simp [execStrobeCut, h, cutRaised]

/-- From the forced outputs on, the latched cut holds GSTROBE low and GBLANK high, as `Seq.heldDark` says (07 R164). -/
theorem stopStripe_cutRaised_dark (s : State) :
    (stopStripe 7 true 1 0 (cutRaised s)).seq.wdLatch = true ∧ (stopStripe 7 true 1 0 (cutRaised s)).seq.gstrobe = false ∧
      (stopStripe 7 true 1 0 (cutRaised s)).seq.gblank = true := by
  have hlatch : (stopStripe 7 true 1 0 (cutRaised s)).seq.wdLatch = true := by
    rw [(mayStop_stopStripe ..).wdLatch, cutRaised_seq]
  have hforced : (cutRaised s).seq.heldDark := by
    rw [cutRaised_seq]
    exact fun _ => ⟨rfl, rfl⟩
  have hdark : (stopStripe 7 true 1 0 (cutRaised s)).seq.heldDark := (kept_stopStripe 7 true 1 0 (.refl _)).strobe hforced
  exact ⟨hlatch, hdark hlatch⟩

/-- The cut stops an active stripe at the last flash whose strobe rose, and none strobes any more (07 R167). -/
theorem stopStripe_cutRaised_stops {s : State} (h : s.seq.st.active = true) :
    Stops 7 (stopM true s.seq) (stopStripe 7 true 1 0 (cutRaised s)) ∧ (stopStripe 7 true 1 0 (cutRaised s)).seq.fired = [] := by
  have hseq := stopStripe_active_seq (s := cutRaised s) (by rw [cutRaised_seq]; exact h) 7 true 1 0
  rw [cutRaised_seq] at hseq
  exact ⟨stops_of_seq hseq, congrArg Seq.fired hseq⟩

theorem strobeCut_effect {s : State} (h : s.seq.wdLatch = false) :
    Runs .strobeCut s fun t => t.seq.wdLatch = true ∧ t.seq.gstrobe = false ∧ t.seq.gblank = true ∧ Raises 0x0365 0 s t ∧
      (s.seq.st.active = true → Stops 7 (stopM true s.seq) t ∧ t.seq.fired = []) := by
  obtain ⟨hlatch, hlow, hblank⟩ := stopStripe_cutRaised_dark s
  exact ⟨_, exec_strobeCut h, hlatch, hlow, hblank, (cutRaised_raises s).later (kept_stopStripe 7 true 1 0 (.refl _)),
    stopStripe_cutRaised_stops⟩

end Sys2Proof.Machine

open Sys2Proof Sys2Proof.Machine

/-- Settles O18: a stop makes `Seq.stopWith` of the sequencer (`stopAt_seq`), which keeps no fired flash after m, and the cut's
forced outputs stay because every operation keeps `Seq.heldDark`. -/
theorem strobesFollowFlashes : Obligations.StrobesFollowFlashes := by
  unfold Obligations.StrobesFollowFlashes
  intro s
  refine ⟨fun n l hf hwd hlow => ?_, fun hwd => ?_, fun h => ?_, fun n l hf hrun => ?_, fun hwd => ?_⟩
  · exact gstrobeRise_effect hf hwd hlow
  · exact gstrobeRise_latched hwd
  · exact gstrobeFall_effect h
  · exact frameDeadlineMissed_effect hf hrun
  · exact strobeCut_effect hwd
end

section
/-! PROOF. The line, sub-raster and slot that a row reads at a flash (06 R128, R132, 07 R155). -/

namespace Sys2Proof.Machine

/-- With no fault injected, no read is spoilt (13 R322). -/
theorem injected_none {s : State} (h : s.diag.inject = []) (fault : Nat) (p : BitVec 32 → Bool) :
    injected fault p s = (false, s) := by
  simp [injected, h, useInjected]

/-- Counting the read of a slot leaves every other slot (06 R132). -/
theorem slot_countRead_ne {n m : Nat} (h : m ≠ n) (s : State) : slot (countRead n s) m = slot s m := by
  unfold countRead
  split
  · rfl
  · dsimp only
    split
    · exact slot_setSlot_ne h _ s
    · exact slot_setSlot_ne h _ s

theorem rowEmpty_iff (s : State) (n : Int) (r : Nat) :
    rowEmpty s n r = true ↔ rowLine s n r < 0 ∨ (s.seq.linesM1 : Int) < rowLine s n r := by
  simp [rowEmpty]

section
variable {s : State} {n : Int} {r : Nat} (hinj : s.diag.inject = [])
include hinj

/-- A row whose line is none of the stripe gets level 0 for every beam, and reads no slot (07 R155). -/
theorem readRows_empty (hl : rowEmpty s n r = true) (acc : List Frame) :
    readRows n [r] acc s = (some (mkFrame s n r (List.replicate 512 0) false :: acc), stat (sk 0x03060001 2) s) := by
  simp [readRows, injected_none hinj, hl, -List.reduceReplicate]

/-- A row whose line is in the stripe gets the levels of its segment, whose read is counted (06 R132, 07 R155). -/
theorem readRows_line {v : List Nat} (hl : rowEmpty s n r = false)
    (hv : readSlot s false (rowLine s n r).toNat (r % 16) (slotOf (rowLine s n r).toNat (r % 16)) = .ok v) (acc : List Frame) :
    readRows n [r] acc s = (some (mkFrame s n r (rowLevels (btab s) r v) false :: acc),
      countRead (slotOf (rowLine s n r).toNat (r % 16)) s) := by
  simp [readRows, injected_none hinj, hl, hv]

end

end Sys2Proof.Machine

open Sys2Proof Sys2Proof.Machine

/-- Settles O59: `rowLine` is L and `slotOf` the slot of the statement; an empty row is counted as one (`readRows_empty`), any other
reads its slot alone (`readRows_line`). -/
theorem rowsReadTheirLines : Obligations.RowsReadTheirLines := by
  unfold Obligations.RowsReadTheirLines
  rintro s n L r k acc - hinj rfl rfl
  refine ⟨fun hout => ?_, fun v hlo hhi hv => ?_⟩
  · have hempty : rowEmpty s n r = true := (rowEmpty_iff s n r).mpr hout
    exact ⟨_, readRows_empty hinj hempty acc, only_stat _ (by decide) (.refl _ s)⟩
  · have hline : rowEmpty s n r = false := by
      rw [← Bool.not_eq_true, rowEmpty_iff]
      exact not_or.mpr ⟨not_lt.mpr hlo, not_lt.mpr hhi⟩
    exact ⟨_, readRows_line hinj hline hv acc, fun m hm => slot_countRead_ne hm s⟩
end

section
/-! SUPPORT. The end of a stop: the settled h and the outcome it decides, and the item of a stripe that is done (07 R165, R168,
R490, 11 R247, R260). -/

namespace Sys2Proof.Machine

/-! ### Operations that leave the sequencer -/

@[simp] theorem activateTables_seq (s : State) : (activateTables s).seq = s.seq :=
  (only_activateTables (fr := [.out, .win, .cfg, .link, .nor, .evt, .stats, .hostMem]) (by decide) (by decide) (by decide)
    (by decide) (by decide) (by decide) (by decide) (by decide) (.refl _ s)).seq (by decide)

theorem only_sendStripeClose_self (s : State) : Only [.out, .link, .stats] s (sendStripeClose s) :=
  only_sendStripeClose (by decide) (by decide) (by decide) (.refl _ s)

@[simp] theorem sendStripeClose_seq (s : State) : (sendStripeClose s).seq = s.seq :=
  (only_sendStripeClose_self s).seq (by decide)

@[simp] theorem endItem_seq (i : Item) (st : ItemSt) (a b : Nat) (s : State) : (endItem i st a b s).seq = s.seq :=
  (only_endItem (fr := [.out, .win, .led, .dma, .fab, .nor, .diag, .evt, .stats, .hostMem, .free]) i st a b (by decide)
    (by decide) (by decide) (by decide) (by decide) (by decide) (by decide) (by decide) (by decide) (by decide) (by decide)
    (.refl _ s)).seq (by decide)

@[simp] theorem progressRec_seq (s : State) : (progressRec s).seq = s.seq :=
  (only_progressRec (fr := [.out, .win, .led, .dma, .fab, .nor, .diag, .evt, .stats, .hostMem, .free]) (by decide) (by decide)
    (by decide) (by decide) (by decide) (by decide) (by decide) (by decide) (by decide) (by decide) (by decide) (.refl _ s)).seq
    (by decide)

@[simp] theorem lowerRate_seq (s : State) : (lowerRate s).seq = s.seq :=
  (only_lowerRate (fr := [.out, .win, .dma, .nor, .diag, .evt, .stats, .hbmMem, .hostMem, .free]) (by decide) (by decide)
    (by decide) (by decide) (by decide) (by decide) (by decide) (by decide) (by decide) (by decide) (.refl _ s)).seq (by decide)

@[simp] theorem raiseStopped_seq (s : State) : (raiseStopped s).seq = s.seq := by simp [raiseStopped]

/-! ### The end of a stripe -/

@[simp] theorem seqIdle_seq (s : State) : (seqIdle s).seq = s.seq.toIdle := by simp [seqIdle]

@[simp] theorem seqIdle_led (s : State) : (seqIdle s).led = s.led :=
  (only_seqIdle (fr := [.out, .win, .cfg, .rnd, .store, .seq, .link, .nor, .evt, .stats, .hostMem]) (by decide) (by decide)
    (by decide) (by decide) (by decide) (by decide) (by decide) (by decide) (by decide) (by decide) (by decide) (.refl _ s)).led
    (by decide)

/-- A stripe that ends leaves the sequencer IDLE (07 R165). -/
@[simp] theorem endStripe_seq (st : ItemSt) (status : Nat) (s : State) : (endStripe st status s).seq = s.seq.toIdle := by
  have hclose : (if linkReady s then sendStripeClose s else s).seq = s.seq := by split <;> simp
  unfold endStripe
  dsimp only
  split <;> simp [hclose]

/-- The item of a stripe that ends is over (11 R247). -/
theorem endStripe_ended {s : State} {f : BitVec 8} {q : BitVec 64} {i : Item} (hitem : s.seq.item = some (f, q))
    (hi : findItem s f q = some i) (st : ItemSt) (status : Nat) : Ended f q st status 0 (endStripe st status s) := by
  unfold endStripe
  generalize hs1 : (if linkReady s then sendStripeClose s else s) = s1
  have honly : Only [.out, .link, .stats] s s1 := by
    rw [← hs1]
    split
    · exact only_sendStripeClose_self s
    · exact .refl _ s
  have hi1 : findItem s1 f q = some i := (findItem_led (honly.led (by decide)) f q).trans hi
  have hcur : curItem s1 = some i := by
    unfold curItem
    rw [honly.seq (by decide), hitem]
    exact hi1
  obtain ⟨hf, hq⟩ := findItem_names hi
  simp only [hcur]
  generalize hj : ({ i with h := _, resumes := _, result := _ } : Item) = j
  have hended : Ended f q st status 0 (endItem j st status 0 s1) :=
    endItem_ended hi1 (by rw [← hj]; exact hf) (by rw [← hj]; exact hq) st status 0
  exact hended.of_led (seqIdle_led _)

/-- The PROGRESS record of a stripe leaves its item in the ledger (11 R260). -/
theorem findItem_progressRec {s : State} {f : BitVec 8} {q : BitVec 64} {i : Item} (hitem : s.seq.item = some (f, q))
    (hi : findItem s f q = some i) : ∃ j, findItem (progressRec s) f q = some j := by
  obtain ⟨hf, hq⟩ := findItem_names hi
  simp only [progressRec, hitem, hi]
  split
  · exact ⟨_, (findItem_books (writeRec_books ..) f q).trans (findItem_putItem hi hf hq)⟩
  · exact ⟨i, hi⟩

/-! ### The outcome of a stop -/

/-- Whatever the outcome, h stays, and the stripe is STOPPED or the sequencer IDLE (07 R490). -/
theorem decideStop_settled (s : State) :
    (decideStop s).seq.h = s.seq.h ∧ ((decideStop s).seq.st = .stopped ∨ (decideStop s).seq.st = .idle) := by
  unfold decideStop
  dsimp only
  split
  · simp [Seq.toIdle]
  split
  · next hlast => simp [stripeDone, Seq.toIdle, hlast]
  split
  · simp [Seq.toIdle]
  split
  · simp [Seq.toIdle]
  split
  · simp
  split
  · simp [Seq.toIdle]
  · split <;> simp

/-- The settled h is the one given, and the stripe is STOPPED or the sequencer IDLE (07 R168, R490). -/
theorem settleH_settled (h : Int) (s : State) :
    (settleH h s).seq.h = h ∧ ((settleH h s).seq.st = .stopped ∨ (settleH h s).seq.st = .idle) := by
  unfold settleH
  dsimp only
  generalize hs2 : (if decide (s.seq.m < h) = true then _ else _ : State) = s2
  have hh : (progressRec s2).seq.h = h := by
    rw [progressRec_seq, ← hs2]
    split <;> simp
  rw [← hh]
  exact decideStop_settled _

/-- The state in which h has settled without a violation, before its record (07 R168). -/
def settledAt (h : Int) (s : State) : State := { s with seq := { s.seq with h := h, hKnown := true } }

/-- An h that is not above m is no violation (07 R168). -/
theorem settleH_of_le {h : Int} {s : State} (hle : h ≤ s.seq.m) : settleH h s = decideStop (progressRec (settledAt h s)) := by
  simp [settleH, settledAt, not_lt.mpr hle]

/-- Where h is n_last and nothing is violated the stripe is done (07 R490 case 2). -/
theorem decideStop_last {s : State} (hv : s.seq.violated = false) (hlast : s.seq.h = s.seq.nLast) :
    decideStop s = stripeDone s := by
  simp [decideStop, hv, hlast]

/-- A stripe done raises STRIPE_DONE, and its item is DONE (07 R165, 11 R247). -/
theorem stripeDone_effect {s : State} {f : BitVec 8} {q : BitVec 64} {i : Item} (hitem : s.seq.item = some (f, q))
    (hi : findItem s f q = some i) : Raises 0x0361 0 s (stripeDone s) ∧ Ended f q .done 0 0 (stripeDone s) := by
  unfold stripeDone
  generalize hs1 : ({ s with seq := { s.seq with h := s.seq.nLast } } : State) = s1
  have hkept : Kept s s1 := by
    rw [← hs1]
    exact kept_setSeq id
  have hitem1 : s1.seq.item = some (f, q) := by rw [← hs1]; exact hitem
  have hled : s1.led = s.led := by rw [← hs1]
  refine ⟨((raise_raises 0x0361 .seq 0 s1).later (kept_endStripe _ _ (.refl _))).sooner hkept, ?_⟩
  exact endStripe_ended (by simpa using hitem1) ((findItem_led (by simp [hled]) f q).trans hi) .done 0

/-- A stop that settles on n_last ends the stripe DONE (07 R168, R490 case 2). -/
theorem settleH_last {h : Int} {s : State} {f : BitVec 8} {q : BitVec 64} {i : Item} (hitem : s.seq.item = some (f, q))
    (hi : findItem s f q = some i) (hv : s.seq.violated = false) (hle : h ≤ s.seq.m) (hlast : h = s.seq.nLast) :
    Raises 0x0361 0 s (settleH h s) ∧ Ended f q .done 0 0 (settleH h s) := by
  have hitem1 : (settledAt h s).seq.item = some (f, q) := hitem
  have hi1 : findItem (settledAt h s) f q = some i := hi
  have hkept : Kept s (progressRec (settledAt h s)) := kept_progressRec (kept_setSeq id)
  obtain ⟨j, hj⟩ := findItem_progressRec hitem1 hi1
  obtain ⟨hraise, hended⟩ := stripeDone_effect (by rw [progressRec_seq]; exact hitem1) hj
  rw [settleH_of_le hle, decideStop_last (by rw [progressRec_seq]; exact hv) (by rw [progressRec_seq]; exact hlast)]
  exact ⟨hraise.sooner hkept, hended⟩

end Sys2Proof.Machine
end

section
/-! SUPPORT. A stripe enters FILLING: what can stop it before its approach (04 R95, 06 R144, 07 R165, 10 R224-R226). -/

namespace Sys2Proof.Machine

@[simp] theorem raiseBad_seq (b : Bad) (s : State) : (raiseBad b s).seq = s.seq := by
  cases b <;> simp [raiseBad]

@[simp] theorem raiseOnce_seq (done : Bool) (code : Nat) (mark : Scan → Scan) (s : State) :
    (raiseOnce done code mark s).seq = s.seq := by
  cases done <;> simp [raiseOnce]

@[simp] theorem putItem_seq (x : Item) (s : State) : (putItem x s).seq = s.seq := rfl

@[simp] theorem checkReady_seq (s : State) : (checkReady s).seq = s.seq := (only_checkReady_self s).seq (by decide)

@[simp] theorem beginFill_seq (f : BitVec 8) (q : BitVec 64) (s : State) : (beginFill f q s).seq = s.seq := by
  simp [beginFill]

/-- A structure that failed stops the stripe, and one that is not there yet changes nothing (04 R95). -/
theorem mayStop_stopBad (b : Bad) (s : State) : MayStop s.seq (stopBad b s).seq := by
  unfold stopBad
  split
  · exact .refl _
  · refine .trans (.of_eq ?_) (mayStop_boundaryStop 13 _)
    split
    · split <;> simp
    · simp

theorem mayStop_loadCtab (s : State) : MayStop s.seq (loadCtab s).seq := by
  unfold loadCtab
  split
  · exact .refl _
  split
  · exact .refl _
  split
  · exact mayStop_stopBad _ s
  split
  · exact .refl _
  · exact .trans (.of_eq (by simp)) (mayStop_boundaryStop 13 _)

theorem mayStop_tryApproach (s : State) : MayStop s.seq (tryApproach s).seq := by
  unfold tryApproach
  split
  case isFalse => exact .refl _
  split
  · exact .refl _
  split
  · exact .of_eq (raiseOnce_seq ..)
  split
  · exact .of_eq (raiseOnce_seq ..)
  split
  · exact mayStop_stopBad _ s
  dsimp only
  split
  · refine .of_eq ((raiseOnce_seq ..).trans ?_)
    split <;> simp
  split
  · exact .refl _
  · exact .of_eq (by simp)

/-- A stripe that enters FILLING with first flash n0 fills, or stops before its first flash (07 R165). -/
theorem enterFilling_effect (f : BitVec 8) (q : BitVec 64) (n0 : Int) (s : State) :
    (enterFilling f q n0 s).seq.resumes = s.seq.resumes ∧ (enterFilling f q n0 s).seq.n0 = n0 ∧
      (enterFilling f q n0 s).seq.item = some (f, q) ∧
      ((enterFilling f q n0 s).seq.st = .filling ∨ (enterFilling f q n0 s).seq.st = .stopping) := by
  unfold enterFilling
  dsimp only
  generalize hs0 : ({ s with seq := _, scan := _ } : State) = s0
  have hload := mayStop_loadCtab s0
  have hall : MayStop s0.seq
      (if (loadCtab s0).seq.st = .filling then tryApproach (beginFill f q (loadCtab s0)) else loadCtab s0).seq := by
    split
    · exact hload.trans (.trans (.of_eq (beginFill_seq f q _)) (mayStop_tryApproach _))
    · exact hload
  obtain ⟨hitem, hn0, hres, -, -, hst⟩ := hall
  rw [hitem, hn0, hres]
  rw [← hs0] at hst ⊢
  exact ⟨rfl, rfl, rfl, hst⟩

end Sys2Proof.Machine
end

section
/-! SUPPORT. The temperature registers and the thresholds of the die under events, flags and stops (07 R171, 12 R267). -/

namespace Sys2Proof.Machine

/-! ### The temperature register -/

@[simp] theorem sendMsix_temp (v : Nat) (s : State) : (sendMsix v s).win.temp = s.win.temp := by
  obtain ⟨p, h⟩ := sendMsix_win v s
  rw [h]

@[simp] theorem setFlag_temp (b : Fin 11) (s : State) : (setFlag b s).win.temp = s.win.temp := by
  unfold setFlag
  dsimp only
  split <;> simp

@[simp] theorem setRing_temp (i : Fin 64) (r : Ring) (s : State) : (setRing i r s).win.temp = s.win.temp := rfl

@[simp] theorem coalesce_temp (i : Fin 64) (s : State) : (coalesce i s).win.temp = s.win.temp := by
  unfold coalesce
  dsimp only
  split
  · split <;> simp
  · rfl

@[simp] theorem pushEntry_temp (i : Fin 64) (b : List Byte) (s : State) : (pushEntry i b s).win.temp = s.win.temp := by
  simp [pushEntry, advance]

@[simp] theorem eventToRing_temp (i : Fin 64) (r : EventRec) (s : State) : (eventToRing i r s).win.temp = s.win.temp := by
  unfold eventToRing
  dsimp only
  split
  · split <;> simp
  · rfl

@[simp] theorem eventToRings_temp (r : EventRec) (l : List (Fin 64)) (s : State) :
    (eventToRings r l s).win.temp = s.win.temp := by
  induction l generalizing s with
  | nil => rfl
  | cons i t ih => rw [eventToRings, ih, eventToRing_temp]

@[simp] theorem raise_temp (code : Nat) (d : Domain) (det : W128) (s : State) : (raise code d det s).win.temp = s.win.temp := by
  simp [raise, recordEvent]

@[simp] theorem endFill_win (s : State) : (endFill s).win = s.win :=
  (only_endFill (fr := [.rnd, .store]) (by decide) (by decide) (.refl _ s)).win (by decide)

@[simp] theorem rampStop_temp (org c input : Nat) (s : State) : (rampStop org c input s).win.temp = s.win.temp := by
  unfold rampStop
  split
  · simp
  · rfl

@[simp] theorem addCause_temp (c : Nat) (s : State) : (addCause c s).win.temp = s.win.temp := by
  unfold addCause
  split
  · rfl
  · simp [countCause]

/-- A boundary stop gives events at most (07 R166). -/
@[simp] theorem boundaryStop_temp (c : Nat) (s : State) : (boundaryStop c s).win.temp = s.win.temp := by
  unfold boundaryStop stopStripe
  split
  · simp [stopAt, countCause]
  · split
    · simp
    · split <;> simp

/-! ### The thresholds -/

/-- The warning threshold marks itself raised or re-armed, and nothing else of the sequencer (07 R171). -/
theorem dieWarning_seq (i : Nat) (d : Int) (s : State) :
    ∃ w, (dieWarning i d s).seq = { s.seq with dieWarned := w } := by
  unfold dieWarning
  split
  · exact ⟨true, by simp⟩
  · split
    · exact ⟨false, rfl⟩
    · exact ⟨s.seq.dieWarned, rfl⟩

@[simp] theorem dieWarning_temp (i : Nat) (d : Int) (s : State) : (dieWarning i d s).win.temp = s.win.temp := by
  unfold dieWarning
  split
  · simp
  · split <;> rfl

@[simp] theorem dieWarning_smbTemp (i : Nat) (d : Int) (s : State) : (dieWarning i d s).smb.temp = s.smb.temp := by
  unfold dieWarning
  split
  · simp [setSmb]
  · split <;> rfl

/-- From 95 degrees on the warning is raised, once (07 R171). -/
theorem dieWarning_raises {d : Int} {s : State} (hd : 760 ≤ d) (hw : s.seq.dieWarned = false) (i : Nat) :
    Raises 0x0368 (tempDetail 0 i d) s (dieWarning i d s) := by
  have hwarn : dieWarning i d s =
      setSmb 2 (setFlag 3 (raise 0x0368 .aon (tempDetail 0 i d) { s with seq := { s.seq with dieWarned := true } })) := by
    simp [dieWarning, hd, hw]
  rw [hwarn]
  have hraise := (raise_raises 0x0368 .aon (tempDetail 0 i d) { s with seq := { s.seq with dieWarned := true } }).sooner
    (kept_setSeq id)
  exact hraise.later (kept_setSmb 2 (kept_setFlag 3 (.refl _)))

/-- Below 105 degrees the limit is re-armed, and nothing else changes (07 R171). -/
theorem dieLimit_below {d : Int} (hd : d < 840) (i : Nat) (s : State) :
    dieLimit i d s = { s with seq := { s.seq with dieHot := false } } :=
  if_neg (not_le.mpr hd)

/-- The limit of the die reached: the event and flag, before the stop (07 R171). -/
def dieHotRaised (i : Nat) (d : Int) (s : State) : State :=
  setFlag 3 (raise 0x0369 .aon (tempDetail 0 i d) { s with seq := { s.seq with dieHot := true } })

theorem dieHotRaised_seq (i : Nat) (d : Int) (s : State) : (dieHotRaised i d s).seq = { s.seq with dieHot := true } := by
  simp [dieHotRaised]

theorem dieHotRaised_raises (i : Nat) (d : Int) (s : State) : Raises 0x0369 (tempDetail 0 i d) s (dieHotRaised i d s) := by
  unfold dieHotRaised
  exact ((raise_raises 0x0369 .aon (tempDetail 0 i d) _).later (kept_setFlag 3 (.refl _))).sooner (kept_setSeq id)

/-- From 105 degrees on the limit is raised and stops the stripe with cause 2, once (07 R171). -/
theorem dieLimit_reached {d : Int} {s : State} (hd : 840 ≤ d) (hh : s.seq.dieHot = false) (i : Nat) :
    dieLimit i d s = boundaryStop 2 (dieHotRaised i d s) := by
  simp [dieLimit, hd, hh, dieHotRaised]

theorem dieLimit_again {d : Int} {s : State} (hd : 840 ≤ d) (hh : s.seq.dieHot = true) (i : Nat) : dieLimit i d s = s := by
  simp [dieLimit, hd, hh]

/-- Below the limit, above it again, or above it the first time (07 R171). -/
theorem dieLimit_cases (i : Nat) (d : Int) (s : State) :
    (dieLimit i d s = { s with seq := { s.seq with dieHot := false } }) ∨ dieLimit i d s = s ∨
      dieLimit i d s = boundaryStop 2 (dieHotRaised i d s) := by
  by_cases hd : d < 840
  · exact .inl (dieLimit_below hd i s)
  · cases hh : s.seq.dieHot with
    | true => exact .inr (.inl (dieLimit_again (not_lt.mp hd) hh i))
    | false => exact .inr (.inr (dieLimit_reached (not_lt.mp hd) hh i))

@[simp] theorem dieLimit_temp (i : Nat) (d : Int) (s : State) : (dieLimit i d s).win.temp = s.win.temp := by
  obtain h | h | h := dieLimit_cases i d s
  · rw [h]
  · rw [h]
  · rw [h, boundaryStop_temp]
    simp [dieHotRaised]

@[simp] theorem dieLimit_smb (i : Nat) (d : Int) (s : State) : (dieLimit i d s).smb = s.smb :=
  (only_dieLimit (fr := [.out, .win, .rnd, .store, .seq, .trk, .scan, .nor, .evt, .stats, .hostMem, .free]) i d (by decide)
    (by decide) (by decide) (by decide) (by decide) (by decide) (by decide) (by decide) (by decide) (by decide) (by decide)
    (by decide) (.refl _ s)).smb (by decide)

@[simp] theorem dieLimit_cool (i : Nat) (d : Int) (s : State) : (dieLimit i d s).seq.cool = s.seq.cool := by
  obtain h | h | h := dieLimit_cases i d s
  · rw [h]
  · rw [h]
  · rw [h, (mayStop_boundaryStop ..).cool, dieHotRaised_seq]

end Sys2Proof.Machine
end

section
/-! PROOF. The waits of a stripe and the temperature of the die (07 R165, R168, R170, R171, R490, 12 R267, 18 R410). -/

namespace Sys2Proof.Machine

/-! ### The waits -/

/-- ENDING without the high-water stops with cause 9 at n_last (07 R165). -/
theorem endingTimeout_effect {s : State} (h : s.seq.st = .ending) :
    Runs .endingTimeout s fun t => Stops 9 s.seq.nLast t := by
  have hstop := stopStripe_stops (s := s) (by rw [h]; rfl) 9 false 1 0
  have hm : stopM false s.seq = s.seq.nLast := by simp [stopM, h]
  rw [hm] at hstop
  exact ⟨_, congrArg Host.Outcome.next (if_pos h), hstop⟩

/-- The event of a report that did not come (07 R168). -/
def reportMissed (s : State) : State := raise 0x0367 .seq 0 (stat (sk 0x03060001 0x43) s)

theorem reportMissed_raises (s : State) : Raises 0x0367 0 s (reportMissed s) :=
  (raise_raises 0x0367 .seq 0 _).sooner (kept_stat _ (.refl s))

theorem kept_reportMissed (s : State) : Kept s (reportMissed s) := kept_raise _ _ _ (kept_stat _ (.refl s))

@[simp] theorem reportMissed_seq (s : State) : (reportMissed s).seq = s.seq := by simp [reportMissed]

@[simp] theorem reportMissed_led (s : State) : (reportMissed s).led = s.led := by simp [reportMissed]

/-- A stop whose report does not come settles on the last h; on n_last the stripe is DONE (07 R168, R490). -/
theorem highWaterTimeout_effect {s : State} {f : BitVec 8} {q : BitVec 64} (hitem : s.seq.item = some (f, q))
    (h : s.seq.st = .stopping) :
    Runs .highWaterTimeout s fun t =>
      t.seq.h = s.seq.h ∧ (t.seq.st = .stopped ∨ t.seq.st = .idle) ∧ Raises 0x0367 0 s t ∧
      (∀ i, s.seq.violated = false → s.seq.h ≤ s.seq.m → s.seq.h = s.seq.nLast → findItem s f q = some i →
        i.live = true → Raises 0x0361 0 s t ∧ Ended f q .done 0 0 t) := by
  obtain ⟨hh, hst⟩ := settleH_settled s.seq.h (reportMissed s)
  refine ⟨settleH s.seq.h (reportMissed s), congrArg Host.Outcome.next (if_pos h), hh, hst, ?_, ?_⟩
  · exact (reportMissed_raises s).later (kept_settleH _ (.refl _))
  · intro i hv hle hlast hi _
    obtain ⟨hraise, hended⟩ := settleH_last (h := s.seq.h) (s := reportMissed s) (by simpa using hitem)
      ((findItem_led (reportMissed_led s) f q).trans hi) (by simpa using hv) (by simpa using hle) (by simpa using hlast)
    exact ⟨hraise.sooner (kept_reportMissed s), hended⟩

/-- A STOPPED stripe whose conditions hold fills again from the first flash not executed (07 R170). -/
theorem resumeConditionMet_effect {s : State} {f : BitVec 8} {q : BitVec 64} (hitem : s.seq.item = some (f, q))
    (hst : s.seq.st = .stopped) (hready : resumeReady s = true) (hno14 : s.seq.causes.contains 14 = false)
    (hmode : s.pm.mode = .expose) :
    Runs .resumeConditionMet s fun t => t.seq.resumes = s.seq.resumes + 1 ∧ t.seq.n0 = resumeN0 s ∧
      t.seq.item = some (f, q) ∧ (t.seq.st = .filling ∨ t.seq.st = .stopping) := by
  have hexec : execResumeConditionMet s =
      .next (enterFilling f q (resumeN0 s) { s with seq := { s.seq with resumes := s.seq.resumes + 1 } }) := by
    simp only [execResumeConditionMet, resumeStripe, hitem]
    rw [if_pos ⟨hst, hready, hno14, hmode⟩]
  exact ⟨_, hexec, enterFilling_effect ..⟩

/-! ### The temperature of the die -/

/-- The state whose temperature registers and cool-down condition follow a sample (07 R171, 12 R267). -/
def sampled (d : Int) (cool : Bool) (s : State) : State :=
  { s with
    win := { s.win with temp := wrapInt 16 d }
    smb := { s.smb with temp := wrapInt 16 d }
    seq := { s.seq with cool := cool && decide (d ≤ 720) } }

theorem kept_sampled (d : Int) (cool : Bool) (s : State) : Kept s (sampled d cool s) :=
  ⟨rfl, List.suffix_refl _, List.suffix_refl _, id, id, id⟩

theorem only_sampled (d : Int) (cool : Bool) (s : State) : Only [.win, .smb, .seq] s (sampled d cool s) := by
  have hwin := (Only.refl [.win, .smb, .seq] s).set_win { s.win with temp := wrapInt 16 d } (by decide)
  have hsmb := hwin.set_smb { s.smb with temp := wrapInt 16 d } (by decide)
  exact hsmb.set_seq { s.seq with cool := cool && decide (d ≤ 720) } (by decide)

theorem exec_tempSample {s : State} {x : Vector (BitVec 16) 16} {i : Nat} {d : Int} (h : hottest s x = (i, d)) (cool : Bool) :
    exec (.tempSample x cool) s = .next (dieLimit i d (dieWarning i d (sampled d cool s))) := by
  change execTempSample x cool s = _
  simp [execTempSample, h, sampled]

/-- After the warning threshold the sequencer is as it was but for its marks of the temperature. -/
theorem dieWarning_sampled_seq (i : Nat) (d : Int) (cool : Bool) (s : State) :
    ∃ w, (dieWarning i d (sampled d cool s)).seq = { s.seq with cool := cool && decide (d ≤ 720), dieWarned := w } :=
  dieWarning_seq i d (sampled d cool s)

section
variable (i : Nat) (d : Int) (cool : Bool) (s : State)

/-- Both registers read the hottest sensor, and the cool-down needs it at 90 degrees or less (07 R171, 12 R267). -/
theorem tempSample_registers :
    (dieLimit i d (dieWarning i d (sampled d cool s))).win.temp = wrapInt 16 d ∧
      (dieLimit i d (dieWarning i d (sampled d cool s))).smb.temp = wrapInt 16 d ∧
      (dieLimit i d (dieWarning i d (sampled d cool s))).seq.cool = (cool && decide (d ≤ 720)) := by
  obtain ⟨w, hseq⟩ := dieWarning_sampled_seq i d cool s
  refine ⟨?_, ?_, ?_⟩
  · rw [dieLimit_temp, dieWarning_temp, sampled]
  · rw [dieLimit_smb, dieWarning_smbTemp, sampled]
  · rw [dieLimit_cool, hseq]

/-- Below 105 degrees no stripe stops (07 R171). -/
theorem tempSample_below (hd : d < 840) :
    (dieLimit i d (dieWarning i d (sampled d cool s))).seq.st = s.seq.st ∧
      Only [.out, .win, .seq, .nor, .smb, .evt, .stats, .hostMem] s (dieLimit i d (dieWarning i d (sampled d cool s))) := by
  obtain ⟨w, hseq⟩ := dieWarning_sampled_seq i d cool s
  have hst : (dieWarning i d (sampled d cool s)).seq.st = s.seq.st := by rw [hseq]
  rw [dieLimit_below hd]
  refine ⟨hst, Only.set_seq ?_ _ (by decide)⟩
  exact only_dieWarning i d (by decide) (by decide) (by decide) (by decide) (by decide) (by decide) (by decide) (by decide)
    ((only_sampled d cool s).mono (by decide))

variable {d s}

/-- From 95 degrees on DIE_TEMP_WARNING is raised (07 R171). -/
theorem tempSample_warns (hd : 760 ≤ d) (hw : s.seq.dieWarned = false) :
    Raises 0x0368 (tempDetail 0 i d) s (dieLimit i d (dieWarning i d (sampled d cool s))) :=
  ((dieWarning_raises (s := sampled d cool s) hd hw i).later (kept_dieLimit i d (.refl _))).sooner (kept_sampled d cool s)

/-- From 105 degrees on the limit event is raised, and an active stripe stops at a flash boundary with cause 2 (07 R171). -/
theorem tempSample_limits (hd : 840 ≤ d) (hh : s.seq.dieHot = false) :
    Raises 0x0369 (tempDetail 0 i d) s (dieLimit i d (dieWarning i d (sampled d cool s))) ∧
      (s.seq.st.active = true → Stops 2 (stopM false s.seq) (dieLimit i d (dieWarning i d (sampled d cool s)))) := by
  obtain ⟨w, hseq⟩ := dieWarning_sampled_seq i d cool s
  have hkept : Kept s (dieWarning i d (sampled d cool s)) := kept_dieWarning i d (kept_sampled d cool s)
  generalize dieWarning i d (sampled d cool s) = u at hseq hkept ⊢
  rw [dieLimit_reached hd (by rw [hseq]; exact hh)]
  refine ⟨?_, fun hact => ?_⟩
  · exact ((dieHotRaised_raises i d u).later (kept_boundaryStop 2 (.refl _))).sooner hkept
  · have hraised := dieHotRaised_seq i d u
    rw [hseq] at hraised
    have hstop := stopStripe_stops (s := dieHotRaised i d u) (by rw [hraised]; exact hact) 2 false 1 0
    rw [hraised] at hstop
    exact hstop

end

end Sys2Proof.Machine

open Sys2Proof Sys2Proof.Machine

/-- Settles O19: every outcome of a stop leaves h and ends STOPPED or IDLE (`decideStop_settled`), a resume at most stops again
(`MayStop`), and the thresholds of the die come after its registers are set. -/
theorem stopsSettleAndTemperaturesAreWatched : Obligations.StopsSettleAndTemperaturesAreWatched := by
  unfold Obligations.StopsSettleAndTemperaturesAreWatched
  refine ⟨fun s f q hitem => ⟨fun h => ?_, fun h => ?_, fun hst hready hno14 hmode => ?_⟩, fun s x cool i d h => ?_⟩
  · exact endingTimeout_effect h
  · exact highWaterTimeout_effect hitem h
  · exact resumeConditionMet_effect hitem hst hready hno14 hmode
  · obtain ⟨hwin, hsmb, hcool⟩ := tempSample_registers i d cool s
    exact ⟨_, exec_tempSample h cool, hwin, hsmb, hcool, tempSample_warns i cool, tempSample_limits i cool,
      tempSample_below i d cool s⟩
end

section
/-! SUPPORT. The tracking engine under the shared operations: what a stop and a trip leave of it, and what a trip does (09 R215,
07 R165-R169). -/

namespace Sys2Proof.Machine

/-- A channel acts on its inputs while TRK is powered and the channel is in their mode (09 R200, R202). -/
theorem channel_acts {s : State} {c : Fin 4} {m : Nat} (hon : domOn s .trk = true) (hmode : posMode s.cfg.act.posCfg[c] = m) :
    ¬ (domOn s .trk = false ∨ posMode s.cfg.act.posCfg[c] ≠ m) :=
  not_or.mpr ⟨by rw [hon]; decide, not_not.mpr hmode⟩

/-! ### Operations that leave the engine -/

@[simp] theorem endFill_trk (s : State) : (endFill s).trk = s.trk :=
  (only_endFill (fr := [.rnd, .store]) (by decide) (by decide) (.refl _ s)).trk (by decide)

@[simp] theorem rampStop_trk (org c input : Nat) (s : State) : (rampStop org c input s).trk = s.trk :=
  (only_rampStop_self org c input s).trk (by decide)

@[simp] theorem cutNow_trk (s : State) : (cutNow s).trk = s.trk :=
  (only_cutNow (fr := [.out, .win, .seq, .nor, .evt, .stats, .hostMem, .free]) (by decide) (by decide) (by decide) (by decide)
    (by decide) (by decide) (by decide) (by decide) (.refl _ s)).trk (by decide)

@[simp] theorem addCause_trk (c : Nat) (s : State) : (addCause c s).trk = s.trk :=
  (only_addCause (fr := [.seq, .stats]) c (by decide) (by decide) (.refl _ s)).trk (by decide)

theorem only_tripHome_self (reason : Nat) (c : Fin 4) (s : State) :
    Only [.out, .win, .scan, .nor, .evt, .stats, .hostMem] s (tripHome reason c s) :=
  only_tripHome reason c (by decide) (by decide) (by decide) (by decide) (by decide) (by decide) (by decide) (.refl _ s)

@[simp] theorem tripHome_trk (reason : Nat) (c : Fin 4) (s : State) : (tripHome reason c s).trk = s.trk :=
  (only_tripHome_self reason c s).trk (by decide)

@[simp] theorem tripHome_seq (reason : Nat) (c : Fin 4) (s : State) : (tripHome reason c s).seq = s.seq :=
  (only_tripHome_self reason c s).seq (by decide)

/-! ### A stop -/

/-- All that a stop cause does to the engine: a fire event that was scheduled may be withdrawn (07 R165). -/
theorem stopStripe_trk (c : Nat) (imm : Bool) (org input : Nat) (s : State) :
    (stopStripe c imm org input s).trk = s.trk ∨ (stopStripe c imm org input s).trk = { s.trk with fire := none } := by
  unfold stopStripe
  split
  · right
    cases imm <;> simp [stopAt, countCause]
  · left
    cases imm <;> split <;> simp [apply_ite State.trk]

/-! ### A trip -/

theorem lose_trk (reason : Nat) (c : Fin 4) (s : State) :
    (lose reason c s).trk = { s.trk with st := .lost, fire := none, arming := false, lockRun := 0, feRun := 0 } := by
  simp [lose]

@[simp] theorem lose_seq (reason : Nat) (c : Fin 4) (s : State) : (lose reason c s).seq = s.seq := by simp [lose]

theorem lose_raises (reason : Nat) (c : Fin 4) (s : State) :
    Raises 0x0911 (detail [du 8 reason, du 8 c.val, ds 32 (asr s.trk.e 16), ds 32 (asr (deviation s) 16)]) s (lose reason c s) :=
  (raise_raises ..).sooner (kept_stat _ ((Kept.refl s).set_trk _))

/-- A trip makes the engine LOST, with no flash to fire, and leaves the rest of it (09 R215). -/
theorem trip_trk (reason : Nat) (c : Fin 4) (s : State) :
    (trip reason c s).trk = { s.trk with st := .lost, fire := none, arming := false, lockRun := 0, feRun := 0 } := by
  unfold trip
  rw [rampStop_trk]
  split
  · rw [tripHome_trk, lose_trk]
  · obtain h | h := stopStripe_trk 6 true 2 0 (tripHome reason c (lose reason c s)) <;>
      rw [h, tripHome_trk, lose_trk]

theorem active_of_live {x : SeqSt} (h : x.live = true) : x.active = true ∧ x ≠ .filling := by
  cases x <;> simp_all [SeqSt.live, SeqSt.active]

/-- What a trip does, the stripe's stop with it (09 R215). -/
theorem trip_trips (reason : Nat) (c : Fin 4) (s : State) : Trips reason c s (trip reason c s) := by
  refine ⟨by rw [trip_trk], ?_, fun hlive => ?_⟩
  · refine (lose_raises reason c s).later (kept_rampStop _ _ _ ?_)
    have hkept : Kept (lose reason c s) (tripHome reason c (lose reason c s)) := kept_tripHome reason c (.refl _)
    split
    · exact hkept
    · exact kept_stopStripe 6 true 2 0 hkept
  · have hseq : (tripHome reason c (lose reason c s)).seq = s.seq := by simp
    obtain ⟨hactive, hfill⟩ := active_of_live hlive
    have hstop := stopStripe_active_seq (s := tripHome reason c (lose reason c s)) (by rw [hseq]; exact hactive) 6 true 2 0
    refine stops_of_seq (q := s.seq) (imm := true) ?_
    unfold trip
    rw [rampStop_seq, if_neg hfill, hstop, hseq]

/-- A statistic counted before a trip changes nothing of it. -/
theorem Trips.after_stat {reason k : Nat} {c : Fin 4} {s t : State} (h : Trips reason c (stat k s) t) : Trips reason c s t := by
  obtain ⟨hst, hraise, hstop⟩ := h
  have he : (stat k s).trk = s.trk := by simp
  have hseq : (stat k s).seq = s.seq := by simp
  rw [hseq] at hstop
  rw [he, show deviation (stat k s) = deviation s from rfl] at hraise
  exact ⟨hst, hraise.sooner (kept_stat k (.refl s)), hstop⟩

end Sys2Proof.Machine
end

section
/-! SUPPORT. The course of the tracking engine: the part of its state that says where it stands, apart from channels, banks and
stages, and what the pieces of a sample make of it (09 R203, R204, R209-R217). -/

namespace Sys2Proof.Machine

/-- What a sample settles at its beginning: the samples counted, the banks and the frame (09 R203, R209). -/
structure Intake where
  samples : Nat
  active : Option Nat
  swap : Option Nat
  newFrame : Option (Int × Int)

/-- The intake with the state, the phase and the flashes fired (09 R203, R210). -/
structure Course extends Intake where
  st : TrkSt
  arming : Bool
  phi : Int
  step : Int
  f : Int
  fire : Option (Int × Nat)

/-- The course of an engine. -/
def Track.course (k : Track) : Course where
  samples := k.samples
  active := k.active
  swap := k.swap
  newFrame := k.newFrame
  st := k.st
  arming := k.arming
  phi := k.phi
  step := k.step
  f := k.f
  fire := k.fire

/-! ### Stages and the loop -/

@[simp] theorem setStage_course (i : Fin 16) (st : Stage) (s : State) : (setStage i st s).trk.course = s.trk.course := by
  unfold setStage
  dsimp only
  split
  · split <;> simp [Track.course]
  · rfl

@[simp] theorem runSection_course (bank : List Byte) (i : Fin 16) (x : Dy) (s : State) :
    (runSection bank i x s).2.trk.course = s.trk.course := setStage_course ..

@[simp] theorem runChain_course (bank : List Byte) (i : Nat) (x : Dy) (s : State) :
    (runChain bank i x s).2.trk.course = s.trk.course := by simp [runChain]

@[simp] theorem integrate_course (bank : List Byte) (ef : Dy) (s : State) :
    (integrate bank ef s).trk.course = s.trk.course := setStage_course ..

theorem course_setLoop (k : Track) (om : Int) (stages : Vector Stage 16) :
    { k with om := om, stages := stages }.course = k.course := rfl

/-- The loop sets the frequency and the stages, nothing of the course (09 R203). -/
@[simp] theorem loopSample_course (s : State) : (loopSample s).trk.course = s.trk.course := by
  unfold loopSample
  dsimp only
  rw [course_setLoop, integrate_course, runChain_course]

/-- The frequency is at most half a line a sample, and not negative (09 R203). -/
theorem loopSample_om (s : State) : 0 ≤ (loopSample s).trk.om ∧ (loopSample s).trk.om ≤ 2 ^ 23 := by
  have hclamp (x : Int) : 0 ≤ clampInt 0 8388608 x ∧ clampInt 0 8388608 x ≤ 2 ^ 23 := by
    unfold clampInt
    split
    · decide
    · split <;> omega
  unfold loopSample frequency
  dsimp only
  exact hclamp _

/-! ### The DACs -/

@[simp] theorem setDac_course (d : Fin 4) (code : Int) (s : State) : (setDac d code s).trk.course = s.trk.course := by
  unfold setDac
  split
  · rfl
  · split <;> rfl

@[simp] theorem parkDacs_course (s : State) : (parkDacs s).trk.course = s.trk.course := by simp [parkDacs]

@[simp] theorem clampDac_course (d : Fin 4) (s : State) : (clampDac d s).trk.course = s.trk.course := by
  unfold clampDac
  dsimp only
  split <;> simp [Track.course]

@[simp] theorem dacSource_trk (d : Fin 4) (s : State) : (dacSource d s).2.trk = s.trk :=
  (only_dacSource (fr := [.free]) d (by decide) (.refl _ s)).trk (by decide)

@[simp] theorem dacSample_course (d : Fin 4) (s : State) : (dacSample d s).trk.course = s.trk.course := by
  unfold dacSample
  dsimp only
  split
  · simp
  · rw [setDac_course, apply_ite State.trk, apply_ite Track.course]
    simp

/-- The DACs follow the engine and leave its course (09 R217). -/
@[simp] theorem dacSamples_course (s : State) : (dacSamples s).trk.course = s.trk.course := by
  unfold dacSamples
  split <;> simp

/-! ### The beginning of a sample -/

@[simp] theorem countSample_course (s : State) :
    (countSample s).trk.course = { s.trk.course with samples := s.trk.course.samples + 1 } := by simp [countSample, Track.course]

@[simp] theorem swapBank_course (b : Nat) (s : State) :
    (swapBank b s).trk.course = { s.trk.course with active := some b, swap := none } := by simp [swapBank, Track.course]

theorem swapNow_course (s : State) :
    (swapNow s).trk.course = { s.trk.course with active := s.trk.course.swap.or s.trk.course.active, swap := none } := by
  unfold swapNow
  split
  next b h =>
    have hswap : s.trk.course.swap = some b := h
    simp [hswap]
  next h => simp [Track.course, h]

theorem takeFrame_course (s : State) :
    (takeFrame s).trk.course = { s.trk.course with newFrame := none, phi := (takeFrame s).trk.phi } := by
  unfold takeFrame
  split
  next h => simp [Track.course, h]
  next =>
    dsimp only
    split
    · rfl
    · split <;> rfl

theorem takeFrame_fixed {s : State} (h : s.trk.newFrame = none) : takeFrame s = s := by simp [takeFrame, h]

/-! ### The first sample, supervision and lock -/

theorem armSample_armed {s : State} (h : s.trk.arming = false) (c : Fin 4) : armSample c s = s := by simp [armSample, h]

@[simp] theorem armSample_intake (c : Fin 4) (s : State) :
    (armSample c s).trk.course.toIntake = s.trk.course.toIntake := by
  unfold armSample
  split
  · rfl
  · dsimp only [Track.course]

@[simp] theorem jitter_course (c : Fin 4) (s : State) : (jitter c s).trk.course = s.trk.course := by
  unfold jitter
  dsimp only
  generalize hcount :
    (if s.trk.lams.head?.any (fun l => decide (lamNow s c < l)) then stat (sk 0x09010001 4) s else s) = u
  have htrk : u.trk = s.trk := by
    rw [← hcount]
    split <;> simp
  split
  · simp [Track.course, htrk]
  · split <;> simp [Track.course, htrk]

@[simp] theorem feStep_course (s : State) : (feStep s).trk.course = s.trk.course := rfl

@[simp] theorem trip_course (reason : Nat) (c : Fin 4) (s : State) :
    (trip reason c s).trk.course = { s.trk.course with st := .lost, fire := none, arming := false } := by
  rw [trip_trk]
  rfl

/-- Locking changes the state of the engine alone (09 R210). -/
theorem lockSample_course (s : State) :
    (lockSample s).trk.course = { s.trk.course with st := (lockSample s).trk.st } := by
  unfold lockSample
  split
  · rfl
  · split
    · rfl
    · split
      · simp [Track.course]
      · rfl

end Sys2Proof.Machine
end

section
/-! PROOF. Input faults trip the running engine, and a sample moves its phase forward by at most half a line and a fine step and
fires at most the next flash (09 R203, R204, R209-R211, R214, R215). -/

namespace Sys2Proof.Machine

/-! ### Input faults -/

theorem inputFault_trips {s : State} {c : Fin 4} (hon : engineOn s = true) (huse : roleInUse s c = true) (reason k : Nat) :
    Trips reason c s (inputFault reason c (stat k s)) := by
  have hfault : (engineOn (stat k s) && roleInUse (stat k s) c) = true := by
    change (engineOn s && roleInUse s c) = true
    rw [hon, huse]
    rfl
  rw [inputFault, if_pos hfault]
  exact (trip_trips reason c _).after_stat

theorem inputFault_unused {s : State} {c : Fin 4} (h : (engineOn s && roleInUse s c) = false) (reason k : Nat) :
    inputFault reason c (stat k s) = stat k s := by
  have hfault : ¬ (engineOn (stat k s) && roleInUse (stat k s) c) = true := Bool.not_eq_true _ ▸ h
  rw [inputFault, if_neg hfault]

theorem exec_illegalTransition {s : State} {c : Fin 4} (hon : domOn s .trk = true) (hmode : posMode s.cfg.act.posCfg[c] = 1) :
    exec (.quadratureIllegalTransition c) s = .next (inputFault 4 c (stat (chKey c 0) s)) :=
  congrArg Host.Outcome.next (if_neg (channel_acts hon hmode))

theorem exec_serialTimeout {s : State} {c : Fin 4} (hon : domOn s .trk = true) (hmode : posMode s.cfg.act.posCfg[c] = 2) :
    exec (.serialFrameTimeout c) s = .next (inputFault 5 c (stat (chKey c 8) s)) :=
  congrArg Host.Outcome.next (if_neg (channel_acts hon hmode))

/-- 10 ms in ACQUIRING without lock trip the engine (09 R210). -/
theorem acquireTimeout_effect {s : State} (hon : domOn s .trk = true) (hst : s.trk.st = .acquiring) :
    Runs .acquireTimeout s fun t => Trips 6 ((scanChannel s).getD 0) s t :=
  ⟨_, congrArg Host.Outcome.next (if_pos ⟨hon, hst⟩), trip_trips ..⟩

/-! ### The phase of a sample -/

/-- The hysteretic law steps by at most one fine step (09 R203). -/
theorem phaseStep_bounds (h : Nat) (e : Int) {old : Int} (hlo : -1 ≤ old) (hhi : old ≤ 1) :
    -1 ≤ phaseStep h e old ∧ phaseStep h e old ≤ 1 := by
  unfold phaseStep
  split
  · obtain h | h | h := lt_trichotomy e 0
    · rw [Int.sign_eq_neg_one_of_neg h]
      decide
    · subst h
      decide
    · rw [Int.sign_eq_one_of_pos h]
      decide
  · split
    · decide
    · exact ⟨hlo, hhi⟩

/-- From `a` to `b` no flash is fired, or the next one is, LOCKED with the sequencer in state `q` ARMED or RUNNING and the phase at
or past it (09 R203, R211). -/
def FiresNext (q : SeqSt) (phn : Int) (a b : Track) : Prop :=
  b = a ∨ (a.st = .locked ∧ (q = .armed ∨ q = .running) ∧ (a.f + 1) * 2 ^ 24 ≤ phn ∧
    ∃ n, b = { a with f := a.f + 1, fire := some (a.f + 1, n) })

theorem fireFlash_fires (phn : Int) (s : State) : FiresNext s.seq.st phn s.trk (fireFlash phn s).trk := by
  unfold fireFlash
  dsimp only
  split
  next h =>
    obtain ⟨hst, hseq, hx⟩ := h
    exact .inr ⟨hst, hseq, hx, _, by rw [(only_stat (fr := [.stats]) _ (by decide) (.refl _ _)).trk (by decide)]⟩
  next => exact .inl rfl

/-- From `a` to `b` a fire event may be withdrawn, but not while the engine is LOCKED (09 R211). -/
def Withdraws (a b : Track) : Prop := b = a ∨ (a.st ≠ .locked ∧ b = { a with fire := none })

theorem missApproach_withdraws (phn : Int) (s : State) : Withdraws s.trk (missApproach phn s).trk := by
  unfold missApproach approachPast boundaryStop
  split
  next h =>
    obtain hstop | hstop := stopStripe_trk 8 false 1 0 (raise 0x0917 .trk 0 s)
    · exact .inl (by simpa using hstop)
    · exact .inr ⟨h.2.1, by simpa using hstop⟩
  next => exact .inl rfl

/-- The phase step of a sample (09 R203). -/
def nextStep (s : State) : Int := phaseStep (bankH (activeBank s)) s.trk.e s.trk.step

/-- The phase that a sample moves to (09 R203). -/
def nextPhi (s : State) : Int := max s.trk.phi (s.trk.phi + s.trk.om + nextStep s * 65536)

/-- The state in which a phase step other than 0 is counted (09 R203, R219). -/
def stepCounted (s : State) : State :=
  if nextStep s = 0 then s else stat (sk 0x09010001 (if nextStep s = 1 then 2 else 3)) s

theorem only_stepCounted (s : State) : Only [.stats] s (stepCounted s) := by
  unfold stepCounted
  split
  · exact .refl _ s
  · exact only_stat _ (by decide) (.refl _ s)

/-- The state with another phase step. -/
def withStep (x : Int) (s : State) : State := { s with trk := { s.trk with step := x } }

theorem withStep_trk (x : Int) (s : State) : (withStep x s).trk = { s.trk with step := x } := rfl

theorem withStep_seq (x : Int) (s : State) : (withStep x s).seq = s.seq := rfl

/-- The state whose phase step is taken (09 R203). -/
def stepped (s : State) : State := withStep (nextStep s) (stepCounted s)

theorem stepped_trk (s : State) : (stepped s).trk = { s.trk with step := nextStep s } := by
  rw [stepped, withStep_trk, (only_stepCounted s).trk (by decide)]

theorem stepped_seq (s : State) : (stepped s).seq = s.seq := by
  rw [stepped, withStep_seq, (only_stepCounted s).seq (by decide)]

/-- The state with another phase. -/
def withPhi (x : Int) (s : State) : State := { s with trk := { s.trk with phi := x } }

theorem withPhi_trk (x : Int) (s : State) : (withPhi x s).trk = { s.trk with phi := x } := rfl

/-- A sample takes its step, fires or misses its approach, and moves the phase (09 R203, R211). -/
theorem phaseSample_eq (s : State) :
    phaseSample s = withPhi (nextPhi s) (missApproach (nextPhi s) (fireFlash (nextPhi s) (stepped s))) := by
  unfold phaseSample
  rfl

/-- What a sample of the running engine makes of its course: the phase moves forward by at most half a line and a fine step, and at
most the next flash is fired, LOCKED with the sequencer in state `q` ARMED or RUNNING (09 R203, R204, R211). -/
structure Advances (q : SeqSt) (a b : Course) : Prop where
  phi_ge : a.phi ≤ b.phi
  phi_le : b.phi ≤ a.phi + 2 ^ 23 + 2 ^ 16
  step_ge : -1 ≤ b.step
  step_le : b.step ≤ 1
  flash : b.f = a.f ∨ (b.f = a.f + 1 ∧ a.st = .locked ∧ (q = .armed ∨ q = .running) ∧ (a.f + 1) * 2 ^ 24 ≤ b.phi ∧
    ∃ n, b.fire = some (a.f + 1, n))

/-- A sample that moves nothing. -/
theorem Advances.of_still {q : SeqSt} {a b : Course} (hlo : -1 ≤ a.step) (hhi : a.step ≤ 1) (hphi : b.phi = a.phi)
    (hstep : b.step = a.step) (hf : b.f = a.f) : Advances q a b where
  phi_ge := hphi.ge
  phi_le := by omega
  step_ge := hstep ▸ hlo
  step_le := hstep ▸ hhi
  flash := .inl hf

theorem Advances.set_st {q : SeqSt} {a b : Course} (h : Advances q a b) (st : TrkSt) : Advances q a { b with st := st } :=
  ⟨h.phi_ge, h.phi_le, h.step_ge, h.step_le, h.flash⟩

/-- The phase law: no backward move, and at most half a line and a fine step forward (09 R203, R204). -/
theorem nextPhi_bounds {s : State} (hom : 0 ≤ s.trk.om ∧ s.trk.om ≤ 2 ^ 23) (hlo : -1 ≤ s.trk.step) (hhi : s.trk.step ≤ 1) :
    s.trk.phi ≤ nextPhi s ∧ nextPhi s ≤ s.trk.phi + 2 ^ 23 + 2 ^ 16 := by
  obtain ⟨hsl, hsh⟩ : -1 ≤ nextStep s ∧ nextStep s ≤ 1 := phaseStep_bounds _ _ hlo hhi
  unfold nextPhi
  omega

section
variable {q : SeqSt} {phn x : Int} {k j r : Track} (hfire : FiresNext q phn { k with step := x } j) (hmiss : Withdraws j r)
include hfire hmiss

/-- Neither firing nor a missed approach touches what the sample has taken in. -/
theorem fired_intake : { r with phi := phn }.course.toIntake = k.course.toIntake := by
  obtain rfl | ⟨_, rfl⟩ := hmiss <;> obtain rfl | ⟨_, _, _, _, rfl⟩ := hfire <;> rfl

theorem fired_step : r.step = x := by
  obtain rfl | ⟨_, rfl⟩ := hmiss <;> obtain rfl | ⟨_, _, _, _, rfl⟩ := hfire <;> rfl

/-- A flash that is fired is not withdrawn: it needs LOCKED, which a missed approach excludes (09 R211). -/
theorem fired_flash :
    r.f = k.f ∨ (r.f = k.f + 1 ∧ k.st = .locked ∧ (q = .armed ∨ q = .running) ∧ (k.f + 1) * 2 ^ 24 ≤ phn ∧
      ∃ n, r.fire = some (k.f + 1, n)) := by
  obtain rfl | ⟨hst, hseq, hx, n, rfl⟩ := hfire
  · obtain rfl | ⟨_, rfl⟩ := hmiss <;> exact .inl rfl
  · obtain rfl | ⟨hnot, _⟩ := hmiss
    · exact .inr ⟨rfl, hst, hseq, hx, n, rfl⟩
    · exact absurd hst hnot

theorem fired_advances (hge : k.phi ≤ phn) (hle : phn ≤ k.phi + 2 ^ 23 + 2 ^ 16) (hsl : -1 ≤ x) (hsh : x ≤ 1) :
    Advances q k.course { r with phi := phn }.course := by
  have hstep := fired_step hfire hmiss
  exact ⟨hge, hle, hsl.trans_eq hstep.symm, hstep.trans_le hsh, fired_flash hfire hmiss⟩

end

/-- A sample steps, fires, may miss its approach, and takes its phase (09 R203, R211). -/
theorem phaseSample_parts (s : State) :
    ∃ j r, FiresNext s.seq.st (nextPhi s) { s.trk with step := nextStep s } j ∧ Withdraws j r ∧
      (phaseSample s).trk = { r with phi := nextPhi s } := by
  have hfire := fireFlash_fires (nextPhi s) (stepped s)
  rw [stepped_trk, stepped_seq] at hfire
  exact ⟨_, _, hfire, missApproach_withdraws (nextPhi s) _, by rw [phaseSample_eq, withPhi_trk]⟩

theorem phaseSample_intake (s : State) : (phaseSample s).trk.course.toIntake = s.trk.course.toIntake := by
  obtain ⟨j, r, hfire, hmiss, htrk⟩ := phaseSample_parts s
  rw [htrk]
  exact fired_intake hfire hmiss

theorem phaseSample_advances {s : State} (hom : 0 ≤ s.trk.om ∧ s.trk.om ≤ 2 ^ 23) (hlo : -1 ≤ s.trk.step)
    (hhi : s.trk.step ≤ 1) : Advances s.seq.st s.trk.course (phaseSample s).trk.course := by
  obtain ⟨hge, hle⟩ := nextPhi_bounds hom hlo hhi
  obtain ⟨hsl, hsh⟩ : -1 ≤ nextStep s ∧ nextStep s ≤ 1 := phaseStep_bounds _ _ hlo hhi
  obtain ⟨j, r, hfire, hmiss, htrk⟩ := phaseSample_parts s
  rw [htrk]
  exact fired_advances hfire hmiss hge hle hsl hsh

/-! ### A sample of the running engine -/

theorem step_of_course {k j : Track} (h : k.course = j.course) : k.step = j.step := congrArg Course.step h

/-- The state of a sample once the first one, jitter and the following error are seen to (09 R210, R214, R216). -/
def observed (c : Fin 4) (s : State) : State := feStep (jitter c (armSample c s))

theorem observed_intake (c : Fin 4) (s : State) : (observed c s).trk.course.toIntake = s.trk.course.toIntake := by
  simp [observed]

theorem observed_course {s : State} (h : s.trk.arming = false) (c : Fin 4) : (observed c s).trk.course = s.trk.course := by
  simp [observed, armSample_armed h]

theorem observed_seq (c : Fin 4) (s : State) : (observed c s).seq = s.seq :=
  (only_feStep (fr := [.trk, .stats]) (by decide)
    (only_jitter c (by decide) (by decide) (only_armSample c (by decide) (.refl _ s)))).seq (by decide)

theorem loopSample_seq (s : State) : (loopSample s).seq = s.seq :=
  (only_loopSample (fr := [.out, .win, .trk, .nor, .evt, .stats, .hostMem]) (by decide) (by decide) (by decide) (by decide)
    (by decide) (by decide) (by decide) (.refl _ s)).seq (by decide)

/-- A sample of the running engine that does not trip (09 R203). -/
def tracked (s : State) : State := dacSamples (lockSample (phaseSample (loopSample s)))

theorem runSample_cases (c : Fin 4) (s : State) :
    (∃ reason ch, runSample c s = trip reason ch (observed c s)) ∨ runSample c s = tracked (observed c s) := by
  unfold runSample
  dsimp only
  split
  next reason ch _ => exact .inl ⟨reason, ch, rfl⟩
  next => exact .inr rfl

theorem tracked_course (s : State) :
    ∃ st, (tracked s).trk.course = { (phaseSample (loopSample s)).trk.course with st := st } := by
  refine ⟨(lockSample (phaseSample (loopSample s))).trk.st, ?_⟩
  rw [tracked, dacSamples_course]
  exact lockSample_course _

theorem tracked_intake (s : State) : (tracked s).trk.course.toIntake = s.trk.course.toIntake := by
  obtain ⟨st, h⟩ := tracked_course s
  rw [h, ← loopSample_course s, ← phaseSample_intake (loopSample s)]

theorem tracked_advances {s : State} (hlo : -1 ≤ s.trk.step) (hhi : s.trk.step ≤ 1) :
    Advances s.seq.st s.trk.course (tracked s).trk.course := by
  have hstep : (loopSample s).trk.step = s.trk.step := step_of_course (loopSample_course s)
  have h := phaseSample_advances (s := loopSample s) (loopSample_om s) (by rw [hstep]; exact hlo) (by rw [hstep]; exact hhi)
  rw [loopSample_seq, loopSample_course] at h
  obtain ⟨st, hcourse⟩ := tracked_course s
  rw [hcourse]
  exact h.set_st st

theorem runSample_intake (c : Fin 4) (s : State) : (runSample c s).trk.course.toIntake = s.trk.course.toIntake := by
  obtain ⟨reason, ch, h⟩ | h := runSample_cases c s
  · rw [h, trip_course]
    exact observed_intake c s
  · rw [h, tracked_intake, observed_intake]

theorem runSample_advances {s : State} (harm : s.trk.arming = false) (hlo : -1 ≤ s.trk.step) (hhi : s.trk.step ≤ 1)
    (c : Fin 4) : Advances s.seq.st s.trk.course (runSample c s).trk.course := by
  have hobs := observed_course harm c
  obtain ⟨reason, ch, h⟩ | h := runSample_cases c s
  · rw [h, trip_course, hobs]
    exact .of_still hlo hhi rfl rfl rfl
  · have hstep : (observed c s).trk.step = s.trk.step := step_of_course hobs
    have hadv := tracked_advances (s := observed c s) (hstep ▸ hlo) (hstep ▸ hhi)
    rwa [observed_seq, hobs, ← h] at hadv

/-! ### POSITION_SAMPLE -/

theorem newFrame_of_course {k : Track} {c : Course} (h : k.course = c) : k.newFrame = c.newFrame :=
  congrArg (fun x : Course => x.newFrame) h

/-- The state of a sample that is counted, its swap and its frame taken (09 R203, R209). -/
def taken (s : State) : State := takeFrame (swapNow (countSample s))

theorem taken_intake (s : State) :
    (taken s).trk.course.toIntake = ⟨s.trk.samples + 1, s.trk.swap.or s.trk.active, none, none⟩ := by
  rw [taken, takeFrame_course, swapNow_course, countSample_course]
  rfl

/-- In a fixed frame only the sample is counted and the swap taken. -/
theorem taken_fixed {s : State} (h : s.trk.newFrame = none) :
    (taken s).trk.course =
      { s.trk.course with samples := s.trk.samples + 1, active := s.trk.swap.or s.trk.active, swap := none } := by
  have hcourse := swapNow_course (countSample s)
  rw [countSample_course] at hcourse
  have hframe : (swapNow (countSample s)).trk.newFrame = none := (newFrame_of_course hcourse).trans h
  rw [taken, takeFrame_fixed hframe, hcourse]
  rfl

theorem taken_seq (s : State) : (taken s).seq = s.seq :=
  (only_takeFrame (fr := [.out, .win, .mb, .trk, .nor, .svc, .evt, .stats, .hostMem]) (by decide)
    (only_swapNow (by decide) (by decide) (by decide) (by decide) (by decide) (by decide) (by decide) (by decide) (by decide)
      (only_countSample (by decide) (by decide) (.refl _ s)))).seq (by decide)

/-- A sample whose frame is taken runs the engine where it is on, and the DACs alone where it is not (09 R203, R217). -/
theorem exec_positionSample {s : State} (hon : domOn s .trk = true) :
    (∃ c, exec .positionSample s = .next (runSample c (taken s))) ∨ exec .positionSample s = .next (dacSamples (taken s)) := by
  change (∃ c, execPositionSample s = _) ∨ execPositionSample s = _
  unfold execPositionSample
  rw [if_neg (by rw [hon]; decide)]
  dsimp only
  split
  · split
    · exact .inl ⟨_, rfl⟩
    · exact .inr rfl
  · exact .inr rfl

/-- The fixed frame's clause of a sample, told of the course (09 R203, R204, R211). -/
theorem advances_of_fixed {s t : State} (hframe : s.trk.newFrame = none) (h : Advances s.seq.st (taken s).trk.course t.trk.course) :
    Advances s.seq.st s.trk.course t.trk.course := by
  rw [taken_fixed hframe] at h
  exact ⟨h.phi_ge, h.phi_le, h.step_ge, h.step_le, h.flash⟩

theorem positionSample_effect {s : State} (hon : domOn s .trk = true) :
    Runs .positionSample s fun t =>
      t.trk.samples = s.trk.samples + 1 ∧ t.trk.swap = none ∧ t.trk.newFrame = none ∧
      (∀ b, s.trk.swap = some b → t.trk.active = some b) ∧
      (s.trk.newFrame = none → s.trk.arming = false → -1 ≤ s.trk.step → s.trk.step ≤ 1 →
        Advances s.seq.st s.trk.course t.trk.course) := by
  have hrun : ∃ t, exec .positionSample s = .next t ∧ t.trk.course.toIntake = (taken s).trk.course.toIntake ∧
      ((taken s).trk.arming = false → -1 ≤ (taken s).trk.step → (taken s).trk.step ≤ 1 →
        Advances s.seq.st (taken s).trk.course t.trk.course) := by
    obtain ⟨c, h⟩ | h := exec_positionSample hon
    · exact ⟨_, h, runSample_intake .., fun harm hlo hhi => taken_seq s ▸ runSample_advances harm hlo hhi c⟩
    · refine ⟨_, h, by rw [dacSamples_course], fun _ hlo hhi => ?_⟩
      rw [dacSamples_course]
      exact .of_still hlo hhi rfl rfl rfl
  obtain ⟨t, hexec, hintake, hadv⟩ := hrun
  rw [taken_intake] at hintake
  refine ⟨t, hexec, congrArg Intake.samples hintake, congrArg Intake.swap hintake, congrArg Intake.newFrame hintake, ?_, ?_⟩
  · intro b hb
    have hactive : t.trk.active = s.trk.swap.or s.trk.active := congrArg Intake.active hintake
    simp [hactive, hb]
  · intro hframe harm hlo hhi
    have htaken := taken_fixed hframe
    have hstep : (taken s).trk.step = s.trk.step := congrArg Course.step htaken
    have harmed : (taken s).trk.arming = s.trk.arming := congrArg Course.arming htaken
    exact advances_of_fixed hframe (hadv (harmed.trans harm) (hstep ▸ hlo) (hstep ▸ hhi))

end Sys2Proof.Machine

open Sys2Proof Sys2Proof.Machine

/-- Settles O25: an input fault is a trip (`trip_trips`); a sample takes the swap and the frame (`taken_intake`), and what follows
either leaves the course or moves it as `Advances` says. -/
theorem phaseIsKeptAndFaultsTrip : Obligations.PhaseIsKeptAndFaultsTrip := by
  unfold Obligations.PhaseIsKeptAndFaultsTrip
  refine ⟨fun s c hon => ⟨fun hm h1 h2 => ?_, fun hm h => ?_, fun hm h1 h2 => ?_, fun hm h => ?_, fun h => ?_⟩,
    fun s hon => ?_⟩
  · exact ⟨_, exec_illegalTransition hon hm, inputFault_trips h1 h2 4 _⟩
  · exact ⟨_, exec_illegalTransition hon hm, inputFault_unused h 4 _⟩
  · exact ⟨_, exec_serialTimeout hon hm, inputFault_trips h1 h2 5 _⟩
  · exact ⟨_, exec_serialTimeout hon hm, inputFault_unused h 5 _⟩
  · exact acquireTimeout_effect hon h
  · obtain ⟨t, hexec, hsamples, hswap, hframe, hactive, hadv⟩ := positionSample_effect hon
    refine ⟨t, hexec, hsamples, hswap, hframe, hactive, fun hfixed harm hlo hhi => ?_⟩
    obtain ⟨hge, hle, hsl, hsh, hflash⟩ := hadv hfixed harm hlo hhi
    exact ⟨hge, hle, hsl, hsh, hflash⟩
end

section
/-! PROOF. Position channels, coefficient banks and the arming of tracking (09 R200-R202, R208-R210, R214, 13 R316, R317). -/

namespace Sys2Proof.Machine

/-! ### Channels -/

@[simp] theorem setChan_same (c : Fin 4) (x : Channel) (s : State) : (setChan c x s).trk.ch[c] = x :=
  Vector.getElem_set_self c.isLt

theorem setChan_ne {c d : Fin 4} (h : d ≠ c) (x : Channel) (s : State) : (setChan c x s).trk.ch[d] = s.trk.ch[d] :=
  Vector.getElem_set_ne c.isLt d.isLt fun k => h (Fin.ext k.symm)

theorem only_setChan_self (c : Fin 4) (x : Channel) (s : State) : Only [.trk] s (setChan c x s) :=
  only_setChan c x (by decide) (.refl _ s)

/-- The first index edge of a search concerns the generator alone (10 R238). -/
theorem foundIndex_trk (c : Fin 4) (s : State) : (foundIndex c s).trk = s.trk :=
  (only_foundIndex (fr := [.scan]) c (by decide) (.refl _ s)).trk (by decide)

/-- A good frame sets its channel in a state in which only statistics have been counted (09 R201). -/
theorem goodFrame_eq (c : Fin 4) (f : BitVec 80) (s : State) :
    ∃ u, Only [.stats] s u ∧ goodFrame c f s =
      setChan c { s.trk.ch[c] with
        pos := inCounts s c (signedNat 48 (bitsNat f 16 48)), seq := some (bitsOf f 8 8), bad := 0 } u := by
  refine ⟨_, ?_, rfl⟩
  have hgap (p : Prop) [Decidable p] (k : Nat) {u : State} (h : Only [.stats] s u) :
      Only [.stats] s (if p then stat k u else u) := by
    split
    · exact only_stat k (by decide) h
    · exact h
  exact hgap _ _ (hgap _ _ (.refl _ s))

/-- The first two bad frames in a row hold the position (09 R214). -/
theorem badFrame_held {c : Fin 4} {s : State} (h : (s.trk.ch[c]).bad < 2) (why : Nat) :
    badFrame c why s =
      stat (chKey c why) (setChan c { s.trk.ch[c] with bad := (s.trk.ch[c]).bad + 1 } s) :=
  if_neg (by omega)

section
variable {s : State} {c : Fin 4} (hon : domOn s .trk = true)
include hon

/-- A valid edge moves the count of its channel by one (09 R200, R202). -/
theorem quadratureEdge_effect (hmode : posMode s.cfg.act.posCfg[c] = 1) (up : Bool) :
    Runs (.quadratureEdge c up) s fun t =>
      (t.trk.ch[c]).pos =
        signedNat 48 (raw 48 ((s.trk.ch[c]).pos + (if up = posInvert s.cfg.act.posCfg[c] then -1 else 1))) ∧
      (∀ d : Fin 4, d ≠ c → t.trk.ch[d] = s.trk.ch[d]) ∧ Only [.trk] s t := by
  refine ⟨_, congrArg Host.Outcome.next (if_neg (channel_acts hon hmode)), ?_, fun d hd => setChan_ne hd ..,
    only_setChan_self ..⟩
  have hdir : (if up != posInvert s.cfg.act.posCfg[c] then (1 : Int) else -1) =
      if up = posInvert s.cfg.act.posCfg[c] then -1 else 1 := by
    by_cases h : up = posInvert s.cfg.act.posCfg[c] <;> simp [h]
  rw [setChan_same, hdir]

/-- An index pulse latches the count of its channel (09 R200). -/
theorem indexPulse_effect (hmode : posMode s.cfg.act.posCfg[c] = 1) :
    Runs (.indexPulse c) s fun t =>
      (t.trk.ch[c]).index = some (s.trk.ch[c]).pos ∧ (t.trk.ch[c]).pos = (s.trk.ch[c]).pos ∧
      (∀ d : Fin 4, d ≠ c → t.trk.ch[d] = s.trk.ch[d]) ∧ Only [.trk, .scan] s t := by
  refine ⟨_, congrArg Host.Outcome.next (if_neg (channel_acts hon hmode)), ?_, ?_, fun d hd => ?_, ?_⟩
  · rw [foundIndex_trk, setChan_same]
  · rw [foundIndex_trk, setChan_same]
  · rw [foundIndex_trk, setChan_ne hd]
  · exact only_foundIndex c (by decide) ((only_setChan_self ..).mono (by decide))

variable (hmode : posMode s.cfg.act.posCfg[c] = 2) (hclean : injected 6 (fun p => p.toNat == c.val) s = (false, s))
include hmode hclean

theorem exec_serialFrame_good {f : BitVec 80} (hgood : frameBad f = none) :
    exec (.serialPositionFrame c f) s = .next (goodFrame c f s) := by
  refine congrArg Host.Outcome.next ((if_neg (channel_acts hon hmode)).trans ?_)
  simp only [hclean, hgood]

theorem exec_serialFrame_bad {f : BitVec 80} {why : Nat} (hbad : frameBad f = some why) :
    exec (.serialPositionFrame c f) s = .next (badFrame c why s) := by
  refine congrArg Host.Outcome.next ((if_neg (channel_acts hon hmode)).trans ?_)
  simp only [hclean, hbad]

/-- A good frame sets the position of its channel (09 R201). -/
theorem serialFrame_good {f : BitVec 80} (hgood : frameBad f = none) :
    Runs (.serialPositionFrame c f) s fun t =>
      (t.trk.ch[c]).pos = inCounts s c (signedNat 48 (bitsNat f 16 48)) ∧ (t.trk.ch[c]).seq = some (bitsOf f 8 8) ∧
      (t.trk.ch[c]).bad = 0 ∧ (∀ d : Fin 4, d ≠ c → t.trk.ch[d] = s.trk.ch[d]) ∧ Only [.trk, .stats] s t := by
  have hexec := exec_serialFrame_good hon hmode hclean hgood
  obtain ⟨u, hcounted, hframe⟩ := goodFrame_eq c f s
  rw [hframe] at hexec
  refine ⟨_, hexec, by rw [setChan_same], by rw [setChan_same], by rw [setChan_same], fun d hd => ?_, ?_⟩
  · rw [setChan_ne hd, hcounted.trk (by decide)]
  · exact only_setChan c _ (by decide) (hcounted.mono (by decide))

/-- One or two bad frames in a row are counted, and hold the position (09 R201, R214). -/
theorem serialFrame_bad {f : BitVec 80} {why : Nat} (hbad : frameBad f = some why) (hfew : (s.trk.ch[c]).bad < 2) :
    Runs (.serialPositionFrame c f) s fun t =>
      t.trk.ch[c] = { s.trk.ch[c] with bad := (s.trk.ch[c]).bad + 1 } ∧ t.trk.st = s.trk.st ∧ Only [.trk, .stats] s t := by
  have hexec := exec_serialFrame_bad hon hmode hclean hbad
  rw [badFrame_held hfew why] at hexec
  have htrk (u : State) : (stat (chKey c why) u).trk = u.trk := by simp
  refine ⟨_, hexec, ?_, ?_, only_stat _ (by decide) ((only_setChan_self ..).mono (by decide))⟩
  · rw [htrk, setChan_same]
  · rw [htrk]
    rfl

end

/-! ### Coefficient banks -/

/-- The state with a bank loaded (09 R208). -/
def withBank (bank : Fin 2) (b : List Byte) (s : State) : State :=
  { s with trk := { s.trk with banks := s.trk.banks.set bank.val (some b) } }

theorem activeWord_of_active {s t : State} (h : t.trk.active = s.trk.active) : activeWord t = activeWord s := by
  rw [activeWord, activeWord, h]

section
variable {e : Entry} {s u : State} {bank : Fin 2} {b : List Byte} (hbank : bank = if bitAt (Entry.arg e 1) 0 then 1 else 0)
  (hstart : Starts cmdTrackSetCoeffs e s) (hfree : objBusy s [(4, 0, 0), (4, 1, 0)] = false)
  (hload : bitAt (Entry.arg e 1) 2 = false) (hother : s.trk.active ≠ some bank.val)
  (hread : readBuffer e (Entry.arg e 0) (fun n => n == 1040) (consume e.src s) = (.ok b, u))

include hread in
/-- Reading the image leaves the engine and the service port, and takes nothing back. -/
theorem imageRead_keeps : u.trk = s.trk ∧ u.svc = (consume e.src s).svc ∧ Kept s u := by
  have honly : Only [.dma, .diag, .stats, .free] (consume e.src s) u :=
    only_readBuffer_eq e (Entry.arg e 0) _ (by decide) (by decide) (by decide) (by decide) hread (.refl _ _)
  have htrk : (consume e.src s).trk = s.trk := by simp
  exact ⟨(honly.trk (by decide)).trans htrk, honly.svc (by decide),
    kept_readBuffer_eq e (Entry.arg e 0) _ hread (kept_consume _ (.refl s))⟩

include hbank hstart hfree hload hother in
/-- TRACK_SET_COEFFS of the bank that is not active loads it (09 R208, 13 R316). -/
theorem exec_trackSetCoeffs :
    exec (.trackSetCoeffs e) s =
      .next (loadBank (started cmdTrackSetCoeffs e .loopback s) e bank (bitAt (Entry.arg e 1) 1) (consume e.src s)) := by
  have htrk : (consume e.src s).trk = s.trk := by simp
  refine congrArg Host.Outcome.next ((takeUp_starts hstart hfree).trans ?_)
  dsimp only
  rw [hload, if_neg (by decide), ← hbank, htrk, if_neg hother]

include hread in
theorem loadBank_good (hgood : bankBad b = none) (w : Waiting) (swap : Bool) :
    loadBank w e bank swap (consume e.src s) = swapOrDone w bank.val swap (withBank bank b u) := by
  simp only [loadBank, hread, hgood]
  rfl

include hread in
theorem loadBank_bad {n : Nat} (hbad : bankBad b = some n) (w : Waiting) (swap : Bool) :
    loadBank w e bank swap (consume e.src s) = finish w stBadArg n [] (raise 0x0915 .trk 0 u) := by
  simp only [loadBank, hread, hbad]

include hbank hstart hfree hload hother hread

/-- A sound image without a swap: the bank is loaded and the command completes (09 R208, 13 R316). -/
theorem trackSetCoeffs_loads (hgood : bankBad b = none) (hswap : bitAt (Entry.arg e 1) 1 = false) :
    Runs (.trackSetCoeffs e) s fun t =>
      t.trk = { s.trk with banks := s.trk.banks.set bank.val (some b) } ∧
      Answers cmdTrackSetCoeffs e stOk 0 (activeWord s) s t := by
  obtain ⟨htrk, hsvc, hkept⟩ := imageRead_keeps hread
  have hexec := exec_trackSetCoeffs hbank hstart hfree hload hother
  rw [loadBank_good hread hgood, hswap] at hexec
  have hdone (w : Waiting) : swapOrDone w bank.val false (withBank bank b u) =
      finish w stOk 0 (activeWord s) (withBank bank b u) := by
    rw [swapOrDone, if_neg (by simp), activeWord_of_active (s := s) (by rw [withBank, htrk])]
  rw [hdone] at hexec
  exact ⟨_, hexec, by simp [withBank, htrk], answered hstart (hkept.set_trk _) hsvc⟩

/-- A sound image with a swap: the bank is loaded, and the command waits for the swap (09 R209, 13 R316). -/
theorem trackSetCoeffs_swaps (hgood : bankBad b = none) (hswap : bitAt (Entry.arg e 1) 1 = true) :
    Runs (.trackSetCoeffs e) s fun t =>
      t.trk = { s.trk with banks := s.trk.banks.set bank.val (some b), swap := some bank.val } ∧
      started cmdTrackSetCoeffs e (.swap bank.val) s ∈ t.mb.running := by
  obtain ⟨htrk, _, _⟩ := imageRead_keeps hread
  have hexec := exec_trackSetCoeffs hbank hstart hfree hload hother
  have hactive : (withBank bank b u).trk.active ≠ some bank.val := by
    rw [withBank, htrk]
    exact hother
  rw [loadBank_good hread hgood, hswap, swapOrDone, if_pos ⟨rfl, hactive⟩] at hexec
  exact ⟨_, hexec, by simp [withBank, htrk], List.mem_append_right _ (List.mem_singleton.mpr rfl)⟩

/-- An image that fails a check is refused with the check's number, and no bank is touched (09 R208). -/
theorem trackSetCoeffs_refuses {n : Nat} (hbad : bankBad b = some n) :
    Runs (.trackSetCoeffs e) s fun t =>
      t.trk = s.trk ∧ Raises 0x0915 0 s t ∧ Answers cmdTrackSetCoeffs e stBadArg n [] s t := by
  obtain ⟨htrk, hsvc, hkept⟩ := imageRead_keeps hread
  have hexec := exec_trackSetCoeffs hbank hstart hfree hload hother
  rw [loadBank_bad hread hbad] at hexec
  refine ⟨_, hexec, by simp [htrk], ?_, answered hstart (kept_raise _ _ _ hkept) (by simp [hsvc])⟩
  exact ((raise_raises 0x0915 .trk 0 u).sooner hkept).later (kept_finish _ _ _ _ (.refl _))

end

/-! ### Arming -/

@[simp] theorem parkDacs_st (s : State) : (parkDacs s).trk.st = s.trk.st := congrArg Course.st (parkDacs_course s)

/-- Taking up an entry leaves the stripe (07 R165). -/
theorem stripeFires_consume (src : Src) (s : State) : stripeFires (consume src s) = stripeFires s := by simp [stripeFires]

/-- Completing leaves the state of the engine that C2 reports (13 R317). -/
theorem armWord_finish (w : Waiting) (status reason : Nat) (results : List W128) (s : State) :
    armWord (finish w status reason results s) = armWord s := by simp [armWord]

/-- What a command that touches the engine and answers leaves (12 R280). -/
theorem only_finish_engine (w : Waiting) (status reason : Nat) (results : List W128) {s u : State}
    (h : Only (.trk :: answerParts) s u) : Only (.trk :: answerParts) s (finish w status reason results u) :=
  only_finish w status reason results (by decide) (by decide) (by decide) (by decide) (by decide) (by decide) h

theorem only_consume_engine (src : Src) (s : State) : Only (.trk :: answerParts) s (consume src s) :=
  only_consume src (by decide) (by decide) (by decide) (by decide) (.refl _ s)

section
variable {e : Entry} {s : State} (hstart : Starts cmdTrackArm e s) (hquiet : stripeFires s = false)
include hstart hquiet

/-- TRACK_ARM with arm = 1 begins ACQUIRING from the next sample on (09 R203, R210, 13 R317). -/
theorem trackArm_arms (harm : bitAt (Entry.arg e 0) 0 = true) (hok : armOk s = true) (hst : s.trk.st ≠ .acquiring) :
    Runs (.trackArm e) s fun t =>
      t.trk.st = .acquiring ∧ t.trk.arming = true ∧ t.trk.lead = phaseLead s ((scanChannel s).getD 0) ∧
      Answers cmdTrackArm e stOk 0 (armWord t) s t ∧ Only (.trk :: answerParts) s t := by
  have hexec : exec (.trackArm e) s = .next
      (finish (started cmdTrackArm e .loopback s) stOk 0 (armWord (armTracking (consume e.src s)))
        (armTracking (consume e.src s))) := by
    have ho : armOk (consume e.src s) = true := by
      simp only [armOk, roleCount, consume_parts]
      exact hok
    refine congrArg Host.Outcome.next ((takeUp_starts hstart rfl).trans ?_)
    simp [stripeFires_consume, hquiet, harm, ho, hst]
  refine ⟨_, hexec, by simp [armTracking], by simp [armTracking], ?_, ?_, ?_⟩
  · simp [armTracking, phaseLead, scanChannel]
  · rw [armWord_finish]
    exact answered hstart (kept_armTracking (kept_consume _ (.refl s))) rfl
  · exact only_finish_engine _ _ _ _ (only_armTracking (by decide) (only_consume_engine ..))

/-- TRACK_ARM with arm = 0 turns the engine OFF (09 R210, 13 R317). -/
theorem trackArm_disarms (harm : bitAt (Entry.arg e 0) 0 = false) :
    Runs (.trackArm e) s fun t =>
      t.trk.st = .off ∧ Answers cmdTrackArm e stOk 0 (armWord t) s t ∧ Only (.trk :: answerParts) s t := by
  have hexec : exec (.trackArm e) s = .next
      (finish (started cmdTrackArm e .loopback s) stOk 0 (armWord (trackOff (consume e.src s)))
        (trackOff (consume e.src s))) := by
    refine congrArg Host.Outcome.next ((takeUp_starts hstart rfl).trans ?_)
    simp [stripeFires_consume, hquiet, harm]
  have hsvc : (trackOff (consume e.src s)).svc = (consume e.src s).svc :=
    (only_trackOff (fr := [.out, .trk]) (by decide) (by decide) (.refl _ _)).svc (by decide)
  refine ⟨_, hexec, by simp [trackOff], ?_, ?_⟩
  · rw [armWord_finish]
    exact answered hstart (kept_trackOff (kept_consume _ (.refl s))) hsvc
  · exact only_finish_engine _ _ _ _ (only_trackOff (by decide) (by decide) (only_consume_engine ..))

end

end Sys2Proof.Machine

open Sys2Proof Sys2Proof.Machine

/-- Settles O24: an edge, a pulse and a frame set one channel (`setChan`); a sound image joins the banks (`withBank`) before the
answer or the wait for the swap; arming answers from the state it leaves. -/
theorem channelsBanksAndArming : Obligations.ChannelsBanksAndArming := by
  unfold Obligations.ChannelsBanksAndArming
  refine ⟨fun s c hon => ⟨fun up hm => ?_, fun hm => ?_, fun f hm hclean hgood => ?_, fun f why hm hclean hbad hfew => ?_⟩,
    fun e s bank hbank => ⟨fun b u hstart hfree hload hother hread => ⟨fun hgood hswap => ?_, fun hgood hswap => ?_,
      fun n hbad => ?_⟩, fun hstart hquiet => ⟨fun harm hok hst => ?_, fun harm => ?_⟩⟩⟩
  · exact quadratureEdge_effect hon hm up
  · exact indexPulse_effect hon hm
  · exact serialFrame_good hon hm hclean hgood
  · exact serialFrame_bad hon hm hclean hbad hfew
  · exact trackSetCoeffs_loads hbank hstart hfree hload hother hread hgood hswap
  · exact trackSetCoeffs_swaps hbank hstart hfree hload hother hread hgood hswap
  · exact trackSetCoeffs_refuses hbank hstart hfree hload hother hread hbad
  · exact trackArm_arms hstart hquiet harm hok hst
  · exact trackArm_disarms hstart hquiet harm
end

section
/-! SUPPORT. The profile generator under the shared operations: what a stop and an approach leave of it, and that a stop cause
brings it to its ramp (10 R220-R222, R231, R232, R239). -/

namespace Sys2Proof.Machine

/-! ### Operations that leave the generator -/

@[simp] theorem endFill_scan (s : State) : (endFill s).scan = s.scan :=
  (only_endFill (fr := [.rnd, .store]) (by decide) (by decide) (.refl _ s)).scan (by decide)

@[simp] theorem cutNow_scan (s : State) : (cutNow s).scan = s.scan :=
  (only_cutNow (fr := [.out, .win, .seq, .nor, .evt, .stats, .hostMem, .free]) (by decide) (by decide) (by decide) (by decide)
    (by decide) (by decide) (by decide) (by decide) (.refl _ s)).scan (by decide)

@[simp] theorem addCause_scan (c : Nat) (s : State) : (addCause c s).scan = s.scan :=
  (only_addCause (fr := [.seq, .stats]) c (by decide) (by decide) (.refl _ s)).scan (by decide)

@[simp] theorem stopAt_scan (c : Nat) (imm : Bool) (m : Int) (s : State) : (stopAt c imm m s).scan = s.scan := by
  cases imm <;> simp [stopAt, countCause]

@[simp] theorem raiseBad_scan (b : Bad) (s : State) : (raiseBad b s).scan = s.scan := by
  cases b <;> simp [raiseBad]

@[simp] theorem putItem_scan (x : Item) (s : State) : (putItem x s).scan = s.scan := rfl

/-! ### A stop -/

/-- A stop leaves the generator, or begins its ramp (10 R232). -/
theorem stopStripe_scan (c : Nat) (imm : Bool) (org input : Nat) (s : State) :
    (stopStripe c imm org input s).scan = s.scan ∨
      ∃ cause u, u.scan = s.scan ∧ stopStripe c imm org input s = rampStop org cause input u := by
  unfold stopStripe
  split
  · exact .inr ⟨_, _, stopAt_scan .., rfl⟩
  · left
    split
    · cases imm <;> simp
    · split <;> simp

/-- The generator moves, or already ramps to rest (10 R231). -/
def Scan.Rampable (c : Scan) : Prop := c.st.moves = true ∨ (c.st = .stopping ∧ c.stop = true)

/-- A stop cause brings the generator to its ramp, if it is not there already (10 R231, R232). -/
theorem rampStop_ramps {s : State} (h : s.scan.Rampable) (org c input : Nat) :
    (rampStop org c input s).scan.st = .stopping ∧ (rampStop org c input s).scan.stop = true := by
  unfold rampStop
  obtain hmoves | hramps := h
  · simp [hmoves]
  · simpa [hramps.1, GenSt.moves] using hramps

theorem rampable_stopStripe {s : State} (h : s.scan.Rampable) (c : Nat) (imm : Bool) (org input : Nat) :
    (stopStripe c imm org input s).scan.Rampable := by
  obtain hsame | ⟨cause, u, hu, hramp⟩ := stopStripe_scan c imm org input s
  · rwa [hsame]
  · rw [hramp]
    exact .inr (rampStop_ramps (by rwa [hu]) ..)

/-! ### The end of a homing run -/

theorem only_abortHoming_self (reason input : Nat) (s : State) :
    Only [.out, .win, .scan, .nor, .evt, .stats, .hostMem] s (abortHoming reason input s) :=
  only_abortHoming reason input (by decide) (by decide) (by decide) (by decide) (by decide) (by decide) (by decide) (.refl _ s)

@[simp] theorem abortHoming_seq (reason input : Nat) (s : State) : (abortHoming reason input s).seq = s.seq :=
  (only_abortHoming_self reason input s).seq (by decide)

/-- A homing run that ends leaves the motion to the stop (10 R239). -/
theorem rampable_abortHoming {s : State} (h : s.scan.Rampable) (reason input : Nat) :
    (abortHoming reason input s).scan.Rampable := by
  unfold abortHoming
  split
  · exact h
  · split
    · exact h
    · simpa [Scan.Rampable] using h

/-! ### The reference of the coordinate -/

/-- What the generator plans from: the profile, and where s = 0 lies (10 R220, R221, R226). -/
structure Reference where
  profile : Option (BitVec 512)
  pHome : Int
  homed : Bool

/-- The reference of a generator. -/
def Scan.reference (c : Scan) : Reference where
  profile := c.profile
  pHome := c.pHome
  homed := c.homed

theorem reference_rampStop (org c input : Nat) (s : State) :
    (rampStop org c input s).scan.reference = s.scan.reference := by
  unfold rampStop
  split
  · simp [Scan.reference]
  · rfl

theorem reference_stopStripe (c : Nat) (imm : Bool) (org input : Nat) (s : State) :
    (stopStripe c imm org input s).scan.reference = s.scan.reference := by
  obtain hsame | ⟨cause, u, hu, hramp⟩ := stopStripe_scan c imm org input s
  · rw [hsame]
  · rw [hramp, reference_rampStop, hu]

theorem reference_stopBad (b : Bad) (s : State) : (stopBad b s).scan.reference = s.scan.reference := by
  unfold stopBad
  split
  · rfl
  · refine (reference_stopStripe ..).trans (congrArg Scan.reference ?_)
    split
    · split <;> simp
    · simp

theorem reference_raiseOnce (done : Bool) (code : Nat) {mark : Scan → Scan} {s t : State}
    (hmark : (mark s.scan).reference = s.scan.reference) (ht : s.scan = t.scan) :
    (raiseOnce done code mark s).scan.reference = t.scan.reference := by
  cases done <;> simp [raiseOnce, ← ht, hmark]

/-- An approach is planned from the reference and leaves it (10 R225, R226). -/
@[simp] theorem reference_tryApproach (s : State) : (tryApproach s).scan.reference = s.scan.reference := by
  unfold tryApproach
  split
  case isFalse => rfl
  split
  · rfl
  split
  · exact reference_raiseOnce _ _ rfl rfl
  split
  · exact reference_raiseOnce _ _ rfl rfl
  split
  · exact reference_stopBad ..
  dsimp only
  split
  · split
    · exact reference_raiseOnce _ _ rfl rfl
    · exact reference_raiseOnce _ _ rfl (by simp)
  split
  · rfl
  · simp [Scan.reference]

@[simp] theorem tryApproach_ilk (s : State) : (tryApproach s).ilk = s.ilk :=
  (only_tryApproach (fr := [.out, .win, .led, .rnd, .store, .seq, .trk, .scan, .nor, .evt, .stats, .hostMem, .free]) (by decide)
    (by decide) (by decide) (by decide) (by decide) (by decide) (by decide) (by decide) (by decide) (by decide) (by decide)
    (by decide) (by decide) (.refl _ s)).ilk (by decide)

/-! ### A command that completes, and may let a waiting stripe approach -/

theorem answered_approach {c : Cmd} {e : Entry} {on : WaitOn} {a b : Nat} {ws : List W128} {s u : State} (h : Starts c e s)
    (k : Kept s u) (hs : u.svc = (consume e.src s).svc) :
    Answers c e a b ws s (tryApproach (finish (started c e on s) a b ws u)) :=
  (answered h k hs).later (kept_tryApproach (.refl _))

/-- A command that only completes, in the state with its entry consumed (12 R280). -/
theorem answered_only {c : Cmd} {e : Entry} {s : State} (h : Starts c e s) (on : WaitOn) (a b : Nat) (ws : List W128) :
    Answers c e a b ws s (finish (started c e on s) a b ws (consume e.src s)) ∧
      Only answerParts s (finish (started c e on s) a b ws (consume e.src s)) := by
  refine ⟨answered h (kept_consume _ (.refl s)) rfl, ?_⟩
  refine only_finish _ _ _ _ (by decide) (by decide) (by decide) (by decide) (by decide) (by decide) ?_
  exact only_consume _ (by decide) (by decide) (by decide) (by decide) (.refl _ s)

theorem Raises.finish_approach {code : Nat} {d : W128} {s u : State} (h : Raises code d s u) (w : Waiting) (a b : Nat)
    (ws : List W128) : Raises code d s (tryApproach (finish w a b ws u)) :=
  h.later (kept_tryApproach (kept_finish _ _ _ _ (.refl _)))

theorem reference_finish_approach (w : Waiting) (a b : Nat) (ws : List W128) (s : State) :
    (tryApproach (finish w a b ws s)).scan.reference = s.scan.reference := by simp

end Sys2Proof.Machine
end

section
/-! PROOF. Setpoint frames, the ends of moves, SCAN_HOME, SCAN_SET_PROFILE and SCAN_STOP (10 R222, R227, R228, R231, R232,
R238). -/

namespace Sys2Proof.Machine

/-! ### Setpoint frames -/

/-- The generator of a frame sent: at the next setpoint, with the next sequence number (10 R228). -/
theorem sendSpo_scan (s : State) :
    (sendSpo s).scan = { pushPath (nextSetpoint s.scan) with spoSeq := s.scan.spoSeq + 1 } := by
  simp [sendSpo]

/-- The frame reads the setpoint it is sent with, no statistic and no output (10 R228). -/
theorem spoBits_emit_stat (o : Output) (k : Nat) (s : State) : spoBits (emit o (stat k s)) = spoBits s := rfl

/-- The frame given is that of the setpoint it leaves (10 R228). -/
theorem sendSpo_gives (s : State) : Gives (.spo (spoBits (sendSpo s))) s (sendSpo s) := by
  unfold sendSpo
  dsimp only
  rw [spoBits_emit_stat]
  exact (emit_gives _ _).sooner (kept_stat _ ((Kept.refl s).set_scan _))

theorem nextSetpoint_moves {c : Scan} {mv : Move} (h : c.move = some mv) :
    nextSetpoint c = { c with
      k := c.k + 1
      pos := Config.planPos mv.params (c.k + 1)
      vel := Config.planVel mv.params (c.k + 1)
      acc := Config.planAcc mv.params (c.k + 1) } := by
  simp [nextSetpoint, h]

theorem nextSetpoint_rests {c : Scan} (h : c.move = none) : nextSetpoint c = { c with vel := 0, acc := 0 } := by
  simp [nextSetpoint, h]

/-- While SPO is driven a frame tells the next setpoint of the move, or that of rest (10 R223, R228). -/
theorem spoFrame_effect {s : State} (hfault : s.scan.faultFrames = 0) (hdriven : s.scan.st ≠ .released)
    (hon : domOn s .trk = true) :
    Runs .spoFrame s fun t =>
      Gives (.spo (spoBits t)) s t ∧ t.scan.spoSeq = s.scan.spoSeq + 1 ∧
      (∀ mv, s.scan.move = some mv → t.scan.k = s.scan.k + 1 ∧ t.scan.pos = Config.planPos mv.params (s.scan.k + 1) ∧
        t.scan.vel = Config.planVel mv.params (s.scan.k + 1) ∧ t.scan.acc = Config.planAcc mv.params (s.scan.k + 1)) ∧
      (s.scan.move = none → t.scan.pos = s.scan.pos ∧ t.scan.vel = 0 ∧ t.scan.acc = 0) ∧ Only [.out, .scan, .stats] s t := by
  have hexec : execSpoFrame s = .next (sendSpo s) := by simp [execSpoFrame, hfault, hdriven, hon]
  refine ⟨_, hexec, sendSpo_gives s, ?_, fun mv hmv => ?_, fun hrest => ?_, ?_⟩
  · rw [sendSpo_scan]
  · simp [sendSpo_scan, nextSetpoint_moves hmv, pushPath]
  · simp [sendSpo_scan, nextSetpoint_rests hrest, pushPath]
  · exact only_sendSpo (by decide) (by decide) (by decide) (.refl _ s)

/-- A device at rest that is no holder releases SPO (10 R227, R231). -/
theorem spoReleaseTimeout_effect {s : State} (hfault : s.scan.faultFrames = 0) (hst : s.scan.st = .idle)
    (hmode : s.pm.mode ≠ .expose) (htarget : s.scan.target = none) (hhoming : s.scan.homing = none) :
    Runs .spoReleaseTimeout s fun t => t.scan.st = .released ∧ Only [.scan] s t := by
  have hexec : execSpoReleaseTimeout s = .next (releaseSpo s) := by
    simp [execSpoReleaseTimeout, hfault, hst, hmode, htarget, hhoming]
  exact ⟨_, hexec, rfl, only_releaseSpo (by decide) (.refl _ s)⟩

/-! ### The ends of moves -/

/-- A move that is not to a target of SCAN_STOP ends at the approach point (10 R231). -/
theorem moveComplete_arrives {s : State} (hon : domOn s .trk = true) (hst : s.scan.st = .moving) (happ : toTarget s = false) :
    Runs .moveComplete s fun t =>
      t.scan.st = .atApproach ∧ t.scan.pos = moveEnd s ∧ t.scan.vel = 0 ∧ Only [.scan] s t := by
  have hexec : execMoveComplete s =
      .next { restAt (moveEnd s) s with scan := { (restAt (moveEnd s) s).scan with st := .atApproach } } := by
    simp [execMoveComplete, hon, hst, happ]
  exact ⟨_, hexec, rfl, rfl, rfl, (only_restAt _ (by decide) (.refl _ s)).set_scan _ (by decide)⟩

@[simp] theorem setHome_scan (p : Int) (s : State) : (setHome p s).scan = { s.scan with pHome := p, homed := true } := by
  simp [setHome]

@[simp] theorem setHome_svc (p : Int) (s : State) : (setHome p s).svc = s.svc := by simp [setHome]

/-- HOME_DONE tells p_home (10 R238). -/
theorem setHome_raises (p : Int) (s : State) : Raises 0x0924 (detail [ds 64 p]) s (setHome p s) :=
  (raise_raises ..).sooner (kept_stat _ ((Kept.refl s).set_scan _))

/-- The return to the index ends the search: homed, s = 0 there (10 R238). -/
theorem moveComplete_homes {s : State} {h : Homing} (hon : domOn s .trk = true) (hst : s.scan.st = .homing)
    (hhoming : s.scan.homing = some h) (hphase : h.phase = 2) :
    Runs .moveComplete s fun t =>
      t.scan.st = .idle ∧ t.scan.homed = true ∧ t.scan.pHome = h.index ∧ t.scan.homing = none ∧
      Raises 0x0924 (detail [ds 64 h.index]) s t := by
  have hexec : execMoveComplete s = .next (homeFound h s) := by
    simp [execMoveComplete, hon, hst, homingRest, hhoming, hphase]
  have hscan : (homeFound h s).scan =
      { (restAt 0 { s with scan := { s.scan with homing := none } }).scan with pHome := h.index, homed := true } := by
    simp [homeFound, settleHome]
  refine ⟨_, hexec, by simp [hscan, restAt], by simp [hscan], by simp [hscan], by simp [hscan, restAt], ?_⟩
  exact ((setHome_raises h.index _).later (kept_settleHome _ _ _ (.refl _))).sooner (((Kept.refl s).set_scan _).set_scan _)

/-- The search given up at its travel limit, ramping to rest (10 R238). -/
def searchEnded (h : Homing) (s : State) : State :=
  { s with scan := { s.scan with
      homing := some { h with phase := 3, abort := 1 }
      k := 0
      move := some { params := [1, s.scan.pos, s.scan.vel, s.scan.acc, profA (profileBytes s), profJ (profileBytes s)]
                     target := 0 } } }

/-- A search that reaches its travel limit ramps to rest, to end with reason 1 (10 R238). -/
theorem homingTravelLimit_effect {s : State} {h : Homing} (hst : s.scan.st = .homing) (hhoming : s.scan.homing = some h)
    (hphase : h.phase = 0) :
    Runs .homingTravelLimit s fun t =>
      t.scan.homing = some { h with phase := 3, abort := 1 } ∧ t.scan.st = .homing ∧ Only [.scan] s t := by
  have hexec : execHomingTravelLimit s = .next (searchEnded h s) := by
    simp [execHomingTravelLimit, hhoming, hphase, hst, searchEnded]
  exact ⟨_, hexec, rfl, hst, (Only.refl _ s).set_scan _ (by decide)⟩

/-! ### SCAN_HOME -/

section
variable {s : State} {h : Homing} (hprofile : s.scan.profile.isSome = true) (hquad : scanQuadrature s = true)
  (hslow : 10 ≤ h.speed) (hfast : h.speed ≤ profV (profileBytes s)) (hnear : 1 ≤ h.travel) (hfar : h.travel ≤ 2 ^ 31)
  (hallowed : searchForbidden h s = false) (hst : s.scan.st = .idle)
include hprofile hquad hslow hfast hnear hfar hallowed hst

/-- A search that nothing refuses begins at once where the generator rests (10 R238). -/
theorem homeSearch_begins (w : Waiting) :
    homeSearch w h s = wait w .home (startSearch h { s with scan := { s.scan with homing := some h } }) := by
  have hholder : becomeHolder s = s := by simp [becomeHolder, hst]
  have hinside : ¬ (h.speed < 10 ∨ profV (profileBytes s) < h.speed ∨ h.travel < 1 ∨ 2 ^ 31 < h.travel) := by omega
  have hsome : s.scan.profile.isNone = false := Option.isNone_eq_false_iff.mpr hprofile
  simp only [homeSearch, hsome, hquad, hallowed, hholder, hst, if_neg hinside]
  simp

end

/-- Taking up an entry leaves the roles of the channels (10 R238). -/
theorem scanQuadrature_consume (src : Src) (s : State) : scanQuadrature (consume src s) = scanQuadrature s := by
  simp [scanQuadrature, scanChannel]

/-- Taking up an entry leaves the interlocks (10 R236). -/
theorem searchForbidden_consume (src : Src) (h : Homing) (s : State) :
    searchForbidden h (consume src s) = searchForbidden h s := by
  simp [searchForbidden, moveForbidden]

section
variable {e : Entry} {s : State} (hstart : Starts cmdScanHome e s) (hfree : homeHold e s = false)
include hstart hfree

/-- The set form takes p_home from the command, with no motion (10 R238). -/
theorem scanHome_sets {p : Int} (hform : isSearch e = false) (hp : p = signedNat 48 (bitsNat (Entry.arg e 1) 0 48)) :
    Runs (.scanHome e) s fun t =>
      t.scan.pHome = p ∧ t.scan.homed = true ∧ Raises 0x0924 (detail [ds 64 p]) s t ∧
      Answers cmdScanHome e stOk 0 (homeWord p) s t := by
  have hexec : exec (.scanHome e) s = .next (tryApproach
      (finish (started cmdScanHome e .loopback s) stOk 0 (homeWord p) (setHome p (consume e.src s)))) := by
    refine congrArg Host.Outcome.next ((takeUp_starts hstart hfree).trans ?_)
    simp [hform, hp]
  have hkept : Kept s (consume e.src s) := kept_consume _ (.refl s)
  have hreference := reference_finish_approach (started cmdScanHome e .loopback s) stOk 0 (homeWord p)
    (setHome p (consume e.src s))
  rw [setHome_scan] at hreference
  exact ⟨_, hexec, congrArg Reference.pHome hreference, congrArg Reference.homed hreference,
    ((setHome_raises p _).sooner hkept).finish_approach .., answered_approach hstart (kept_setHome p hkept) (by simp)⟩

/-- An index search begins at the search speed, and the command waits for its end (10 R238). -/
theorem scanHome_searches {h : Homing} (hform : isSearch e = true) (harg : Entry.arg e 1 = 0) (hh : h = searchOf e)
    (hprofile : s.scan.profile.isSome = true) (hquad : scanQuadrature s = true) (hslow : 10 ≤ h.speed)
    (hfast : h.speed ≤ profV (profileBytes s)) (hnear : 1 ≤ h.travel) (hfar : h.travel ≤ 2 ^ 31)
    (hallowed : searchForbidden h s = false) (hst : s.scan.st = .idle) :
    Runs (.scanHome e) s fun t =>
      t.scan.st = .homing ∧ t.scan.homing = some { h with phase := 0 } ∧
      started cmdScanHome e .home s ∈ t.mb.running ∧ Only (.scan :: answerParts) s t := by
  have hexec : exec (.scanHome e) s =
      .next (homeSearch (started cmdScanHome e .loopback s) h (consume e.src s)) := by
    refine congrArg Host.Outcome.next ((takeUp_starts hstart hfree).trans ?_)
    simp [hform, harg, hh]
  have hscan : (consume e.src s).scan = s.scan := by simp
  have hprof : profileBytes (consume e.src s) = profileBytes s := by rw [profileBytes, hscan, profileBytes]
  rw [← hscan] at hprofile hst
  rw [← hprof] at hfast
  rw [← scanQuadrature_consume e.src] at hquad
  rw [← searchForbidden_consume e.src] at hallowed
  rw [homeSearch_begins hprofile hquad hslow hfast hnear hfar hallowed hst] at hexec
  refine ⟨_, hexec, by simp [startSearch], by simp [startSearch], ?_, ?_⟩
  · exact List.mem_append_right _ (List.mem_singleton.mpr rfl)
  · refine only_wait _ _ (by decide) (only_startSearch h (by decide) (by decide) (Only.set_scan ?_ _ (by decide)))
    exact only_consume _ (by decide) (by decide) (by decide) (by decide) (.refl _ s)

end

/-! ### SCAN_SET_PROFILE -/

section
variable {e : Entry} {s : State} (hstart : Starts cmdScanSetProfile e s)
include hstart

/-- An image that passes R222 becomes the profile of a generator at rest (10 R222, R491). -/
theorem scanSetProfile_accepts (hgood : profileBad (leBytes 64 (profileOf e).toNat) = none)
    (hrest : s.scan.st = .idle ∨ s.scan.st = .released) :
    Runs (.scanSetProfile e) s fun t =>
      t.scan.profile = some (profileOf e) ∧ Answers cmdScanSetProfile e stOk 0 [] s t := by
  have hexec : exec (.scanSetProfile e) s = .next (tryApproach (finish (started cmdScanSetProfile e .loopback s) stOk 0 []
      { consume e.src s with scan := { (consume e.src s).scan with profile := some (profileOf e) } })) := by
    refine congrArg Host.Outcome.next ((takeUp_starts hstart rfl).trans ?_)
    simp [hgood, hrest]
  exact ⟨_, hexec, congrArg Reference.profile (reference_finish_approach ..),
    answered_approach hstart ((kept_consume _ (.refl s)).set_scan _) rfl⟩

/-- An image that fails a check of R222 is refused with the check's number (10 R222). -/
theorem scanSetProfile_refuses {n : Nat} (hbad : profileBad (leBytes 64 (profileOf e).toNat) = some n) :
    Runs (.scanSetProfile e) s fun t =>
      Raises 0x0920 0 s t ∧ Answers cmdScanSetProfile e stBadArg n [] s t ∧ Only (answerParts ++ eventParts) s t := by
  have hexec : exec (.scanSetProfile e) s = .next (finish (started cmdScanSetProfile e .loopback s) stBadArg n []
      (raise 0x0920 .trk 0 (consume e.src s))) := by
    refine congrArg Host.Outcome.next ((takeUp_starts hstart rfl).trans ?_)
    simp [hbad]
  have hkept : Kept s (consume e.src s) := kept_consume _ (.refl s)
  refine ⟨_, hexec, ?_, answered hstart (kept_raise _ _ _ hkept) (by simp), ?_⟩
  · exact ((raise_raises ..).sooner hkept).later (kept_finish _ _ _ _ (.refl _))
  · refine only_finish _ _ _ _ (by decide) (by decide) (by decide) (by decide) (by decide) (by decide) ?_
    refine only_raise _ _ _ (by decide) (by decide) (by decide) (by decide) (by decide) (by decide) ?_
    exact only_consume _ (by decide) (by decide) (by decide) (by decide) (.refl _ s)

end

/-! ### SCAN_STOP -/

theorem only_scanStopNow_self (s : State) :
    Only [.out, .win, .rnd, .store, .seq, .trk, .scan, .nor, .evt, .stats, .hostMem, .free] s (scanStopNow s) :=
  only_scanStopNow (by decide) (by decide) (by decide) (by decide) (by decide) (by decide) (by decide) (by decide) (by decide)
    (by decide) (by decide) (by decide) (.refl _ s)

/-- SCAN_STOP stops an active stripe with cause 11 (10 R232). -/
theorem scanStopNow_stops {s : State} (h : s.seq.st.active = true) :
    (scanStopNow s).seq = s.seq.stopWith 11 false (stopM false s.seq) := by
  have hseq : (abortHoming 3 0 s).seq = s.seq := abortHoming_seq ..
  rw [scanStopNow, rampStop_seq, stopStripe_active_seq (by rwa [hseq]), hseq]

/-- SCAN_STOP brings the moving generator to its ramp (10 R232). -/
theorem scanStopNow_ramps {s : State} (h : s.scan.st.moves = true) :
    (scanStopNow s).scan.st = .stopping ∧ (scanStopNow s).scan.stop = true :=
  rampStop_ramps (rampable_stopStripe (rampable_abortHoming (.inl h) 3 0) 11 false 4 0) 4 0 0

/-- SCAN_STOP without a target stops the stripe and holds the stage (10 R232, 13 R317). -/
theorem scanStop_holds {e : Entry} {s : State} (hstart : Starts cmdScanStop e s) (hhold : bitAt (Entry.arg e 0) 0 = false) :
    Runs (.scanStop e) s fun t =>
      (s.seq.st.active = true → Stops 11 (stopM false s.seq) t) ∧
      (s.scan.st.moves = true → t.scan.st = .stopping ∧ t.scan.stop = true) ∧ t.scan.target = none ∧
      Answers cmdScanStop e stOk 0 [] s t := by
  have hexec : exec (.scanStop e) s = .next (finish (started cmdScanStop e .loopback s) stOk 0 []
      { scanStopNow (consume e.src s) with scan := { (scanStopNow (consume e.src s)).scan with target := none } }) := by
    refine congrArg Host.Outcome.next ((takeUp_starts hstart rfl).trans ?_)
    simp [hhold]
  have hseq : (consume e.src s).seq = s.seq := by simp
  have hscan : (consume e.src s).scan = s.scan := by simp
  refine ⟨_, hexec, fun hactive => ?_, fun hmoves => ?_, by simp, ?_⟩
  · rw [← hseq] at hactive ⊢
    exact stops_of_seq (by simpa using scanStopNow_stops hactive)
  · rw [← hscan] at hmoves
    simpa using scanStopNow_ramps hmoves
  · exact answered hstart ((kept_scanStopNow (kept_consume _ (.refl s))).set_scan _) ((only_scanStopNow_self _).svc (by decide))

end Sys2Proof.Machine

open Sys2Proof Sys2Proof.Machine

/-- Settles O26: a frame sends `nextSetpoint` (`sendSpo_scan`); a rest is `restAt`; what a waiting stripe's approach may do leaves
the profile and the origin (`reference_tryApproach`); a stop brings a moving generator to its ramp (`rampStop_ramps`). -/
theorem theStageIsMovedAsCommanded : Obligations.TheStageIsMovedAsCommanded := by
  unfold Obligations.TheStageIsMovedAsCommanded
  refine ⟨fun s hfault => ⟨fun hdriven hon => ?_, fun hst hmode htarget hhoming => ?_, fun hon hst happ => ?_,
      fun h hon hst hhoming hphase => ?_, fun h hst hhoming hphase => ?_⟩,
    fun e s => ⟨fun p hstart hfree hform hp => ?_,
      fun h hstart hfree hform harg hh hprofile hquad hslow hfast hnear hfar hallowed hst => ?_,
      fun hstart => ⟨fun hgood hrest => ?_, fun n hbad => ?_⟩, fun hstart hhold => ?_⟩⟩
  · exact spoFrame_effect hfault hdriven hon
  · exact spoReleaseTimeout_effect hfault hst hmode htarget hhoming
  · exact moveComplete_arrives hon hst happ
  · exact moveComplete_homes hon hst hhoming hphase
  · exact homingTravelLimit_effect hst hhoming hphase
  · exact scanHome_sets hstart hfree hform hp
  · exact scanHome_searches hstart hfree hform harg hh hprofile hquad hslow hfast hnear hfar hallowed hst
  · exact scanSetProfile_accepts hstart hgood hrest
  · exact scanSetProfile_refuses hstart hbad
  · exact scanStop_holds hstart hhold
end

section
/-! PROOF. ILK_CONFIGURE, ILK_CLEAR, the trip of an interlock input and its chatter (10 R232, R234-R237, 13 R318). -/

namespace Sys2Proof.Machine

/-! ### One input -/

theorem setIlk_same (i : Fin 8) (x : Ilk) (s : State) : (setIlk i x s).ilk[i] = x :=
  Vector.getElem_set_self i.isLt

theorem setIlk_ne {i j : Fin 8} (h : j ≠ i) (x : Ilk) (s : State) : (setIlk i x s).ilk[j] = s.ilk[j] :=
  Vector.getElem_set_ne i.isLt j.isLt fun k => h (Fin.ext k.symm)

theorem bitsNat_testBit_low {w n k : Nat} (x : BitVec w) (h : k < n) : (bitsNat x 0 n).testBit k = bitAt x k := by
  simp [bitsNat, bitAt, Nat.testBit_mod_two_pow, h]

/-! ### ILK_CONFIGURE -/

theorem ilkAfter_consume (e : Entry) (src : Src) (s : State) : ilkAfter e (consume src s) = ilkAfter e s := by
  simp [ilkAfter]

/-- Taking up an entry leaves the inputs and the stripe (10 R234). -/
theorem ilkRefused_consume (e : Entry) (src : Src) (s : State) : ilkRefused e (consume src s) = ilkRefused e s := by
  simp [ilkRefused, ilkAfter_consume, stripeFires_consume]

/-- Completing leaves the configurations that C2 reports (13 R318). -/
theorem ilkWord_finish (w : Waiting) (status reason : Nat) (results : List W128) (s : State) :
    ilkWord (finish w status reason results s) = ilkWord s := by simp [ilkWord]

section
variable {e : Entry} {s : State} (hstart : Starts cmdIlkConfigure e s)
include hstart

/-- The named inputs get their configuration (10 R234, 13 R318). -/
theorem ilkConfigure_sets (hok : ilkRefused e s = none) :
    Runs (.ilkConfigure e) s fun t =>
      t.ilk = ilkAfter e s ∧ Answers cmdIlkConfigure e stOk 0 (ilkWord t) s t ∧ Only (.ilk :: answerParts) s t := by
  have hexec : exec (.ilkConfigure e) s = .next (finish (started cmdIlkConfigure e .loopback s) stOk 0
      (ilkWord { consume e.src s with ilk := ilkAfter e s }) { consume e.src s with ilk := ilkAfter e s }) := by
    refine congrArg Host.Outcome.next ((takeUp_starts hstart rfl).trans ?_)
    simp [ilkRefused_consume, hok, ilkAfter_consume]
  refine ⟨_, hexec, by simp, ?_, ?_⟩
  · rw [ilkWord_finish]
    exact answered hstart ((kept_consume _ (.refl s)).set_ilk _) rfl
  · refine only_finish _ _ _ _ (by decide) (by decide) (by decide) (by decide) (by decide) (by decide)
      (Only.set_ilk ?_ _ (by decide))
    exact only_consume _ (by decide) (by decide) (by decide) (by decide) (.refl _ s)

/-- A refused command changes no input (10 R234). -/
theorem ilkConfigure_refuses {r : Nat × Nat} (hbad : ilkRefused e s = some r) :
    Runs (.ilkConfigure e) s fun t => Answers cmdIlkConfigure e r.1 r.2 [] s t ∧ Only answerParts s t := by
  have hexec : exec (.ilkConfigure e) s =
      .next (finish (started cmdIlkConfigure e .loopback s) r.1 r.2 [] (consume e.src s)) := by
    refine congrArg Host.Outcome.next ((takeUp_starts hstart rfl).trans ?_)
    simp [ilkRefused_consume, hbad]
  exact ⟨_, hexec, answered_only hstart ..⟩

end

/-! ### ILK_CLEAR -/

/-- Taking up an entry leaves the stripe (07 R164). -/
theorem clearBlocked_consume (items : Nat) (steady : BitVec 8) (src : Src) (s : State) :
    clearBlocked items steady (consume src s) = clearBlocked items steady s := by
  simp [clearBlocked, stripeFires_consume]

/-- The latches after a clear: those of the items named are down (10 R237). -/
theorem clearItems_latched (items : Nat) (s : State) (i : Fin 8) :
    ((clearItems items s).ilk[i]).latched = ((s.ilk[i]).latched && !items.testBit i.val) := by
  cases h : items.testBit i.val <;> simp [clearItems, h]

section
variable {e : Entry} {s : State} {steady : BitVec 8} (hstart : Starts cmdIlkClear e s)
include hstart

/-- All named items are cleared (10 R237, 13 R318). -/
theorem ilkClear_clears (hfree : clearBlocked (bitsNat (Entry.arg e 0) 0 9) steady s = 0) :
    Runs (.ilkClear e steady) s fun t =>
      (∀ i : Fin 8, (t.ilk[i]).latched = ((s.ilk[i]).latched && !(bitAt (Entry.arg e 0) i.val))) ∧
      t.seq.wdLatch = (s.seq.wdLatch && !(bitAt (Entry.arg e 0) 8)) ∧ Raises 0x0931 0 s t ∧
      Answers cmdIlkClear e stOk 0 [word [(0, 9, bitsNat (Entry.arg e 0) 0 9)]] s t := by
  generalize hitems : bitsNat (Entry.arg e 0) 0 9 = items at hfree
  have hbit (k : Nat) (hk : k < 9) : bitAt (Entry.arg e 0) k = items.testBit k := by
    rw [← hitems, bitsNat_testBit_low _ hk]
  have hexec : exec (.ilkClear e steady) s = .next (tryApproach (finish (started cmdIlkClear e .loopback s) stOk 0
      [word [(0, 9, items)]] (raise 0x0931 .aon 0 (clearItems items (consume e.src s))))) := by
    refine congrArg Host.Outcome.next ((takeUp_starts hstart rfl).trans ?_)
    simp [hitems, clearBlocked_consume, hfree]
  have hkept : Kept s (clearItems items (consume e.src s)) := kept_clearItems items (kept_consume _ (.refl s))
  refine ⟨_, hexec, fun i => ?_, ?_, ((raise_raises ..).sooner hkept).finish_approach .., ?_⟩
  · rw [hbit i.val (by omega), tryApproach_ilk]
    simpa using clearItems_latched items (consume e.src s) i
  · rw [hbit 8 (by decide), (mayStop_tryApproach _).wdLatch]
    simp [clearItems]
  · exact answered_approach hstart (kept_raise _ _ _ hkept) (by simp [clearItems])

/-- Where an item cannot be cleared none is, and the answer names those that block (10 R237). -/
theorem ilkClear_refuses (hblocked : clearBlocked (bitsNat (Entry.arg e 0) 0 9) steady s ≠ 0) :
    Runs (.ilkClear e steady) s fun t =>
      Answers cmdIlkClear e stBadState 1 [word [(16, 9, clearBlocked (bitsNat (Entry.arg e 0) 0 9) steady s)]] s t ∧
      Only answerParts s t := by
  have hexec : exec (.ilkClear e steady) s = .next (finish (started cmdIlkClear e .loopback s) stBadState 1
      [word [(16, 9, clearBlocked (bitsNat (Entry.arg e 0) 0 9) steady s)]] (consume e.src s)) := by
    refine congrArg Host.Outcome.next ((takeUp_starts hstart rfl).trans ?_)
    simp [clearBlocked_consume, hblocked]
  exact ⟨_, hexec, answered_only hstart ..⟩

end

/-! ### A trip -/

theorem addCause_gblank (c : Nat) (s : State) : (addCause c s).seq.gblank = s.seq.gblank := by
  unfold addCause
  split <;> simp

/-- An immediate stop leaves a blank that is high as it is (07 R167). -/
theorem stopStripe_keeps_blank {s : State} (h : s.seq.gblank = true) (c org input : Nat) :
    (stopStripe c true org input s).seq.gblank = true := by
  by_cases hactive : s.seq.st.active = true
  · rw [stopStripe_active_seq hactive]
    rfl
  · unfold stopStripe
    rw [if_neg hactive]
    split
    · simp [addCause_gblank, cutNow_seq]
    · split
      · rwa [addCause_gblank]
      · exact h

/-- The trip as AON and firmware record it, before it acts: the input latched, and told where firmware runs (10 R233, R235). -/
def tripLatched (i : Fin 8) (ft lt : BitVec 32) (s : State) : State :=
  if running s then setFlag 4 (raise 0x0930 .aon 0 (latchIlk i ft lt s)) else latchIlk i ft lt s

theorem tripLatched_ilk (i : Fin 8) (ft lt : BitVec 32) (s : State) : (tripLatched i ft lt s).ilk = (latchIlk i ft lt s).ilk := by
  unfold tripLatched
  split <;> simp

@[simp] theorem tripLatched_seq (i : Fin 8) (ft lt : BitVec 32) (s : State) : (tripLatched i ft lt s).seq = s.seq := by
  unfold tripLatched
  split <;> simp [latchIlk, setIlk]

@[simp] theorem tripLatched_scan (i : Fin 8) (ft lt : BitVec 32) (s : State) : (tripLatched i ft lt s).scan = s.scan := by
  unfold tripLatched
  split <;> simp [latchIlk, setIlk]

theorem tripLatched_raises {s : State} (h : running s = true) (i : Fin 8) (ft lt : BitVec 32) :
    Raises 0x0930 0 s (tripLatched i ft lt s) := by
  rw [tripLatched, if_pos h]
  exact ((raise_raises ..).sooner (kept_latchIlk i ft lt (.refl s))).later (kept_setFlag 4 (.refl _))

/-- A hard input blanks the beams through AON (10 R236). -/
def blanked (hard : Bool) (s : State) : State := if hard then { s with seq := { s.seq with gblank := true } } else s

theorem blanked_seq (hard : Bool) (s : State) :
    (blanked hard s).seq = { s.seq with gblank := hard || s.seq.gblank } := by
  cases hard <;> simp [blanked]

@[simp] theorem blanked_scan (hard : Bool) (s : State) : (blanked hard s).scan = s.scan := by
  cases hard <;> rfl

theorem tripActs_seq (i : Fin 8) (hard : Bool) (s : State) :
    (tripActs i hard s).seq = (stopStripe (if hard then 5 else 4) hard 3 i.val (blanked hard s)).seq := by
  rw [tripActs, rampStop_seq, abortHoming_seq]
  rfl

@[simp] theorem tripActs_ilk (i : Fin 8) (hard : Bool) (s : State) : (tripActs i hard s).ilk = s.ilk :=
  (only_tripActs (fr := [.out, .win, .rnd, .store, .seq, .trk, .scan, .nor, .evt, .stats, .hostMem, .free]) i hard (by decide)
    (by decide) (by decide) (by decide) (by decide) (by decide) (by decide) (by decide) (by decide) (by decide) (by decide)
    (by decide) (.refl _ s)).ilk (by decide)

/-- A hard input stops an active stripe immediately with cause 5, a ramped one at a flash boundary with cause 4 (10 R236). -/
theorem tripActs_stops {s : State} (h : s.seq.st.active = true) (i : Fin 8) (hard : Bool) :
    Stops (if hard then 5 else 4) (stopM hard s.seq) (tripActs i hard s) := by
  have hactive : (blanked hard s).seq.st.active = true := by rwa [blanked_seq]
  have hm : stopM hard (blanked hard s).seq = stopM hard s.seq := by rw [blanked_seq, stopM, stopM]
  refine stops_of_seq (q := (blanked hard s).seq) (imm := hard) ?_
  rw [tripActs_seq, stopStripe_active_seq hactive, hm]

theorem tripActs_blanks (i : Fin 8) (s : State) : (tripActs i true s).seq.gblank = true := by
  rw [tripActs_seq]
  exact stopStripe_keeps_blank (by rw [blanked_seq]; rfl) ..

/-- A trip brings the moving generator to its ramp (10 R236). -/
theorem tripActs_ramps {s : State} (h : s.scan.st.moves = true) (i : Fin 8) (hard : Bool) :
    (tripActs i hard s).scan.st = .stopping := by
  have hmoves : (blanked hard s).scan.Rampable := .inl (by rwa [blanked_scan])
  exact (rampStop_ramps (rampable_abortHoming (rampable_stopStripe hmoves _ hard 3 i.val) 2 i.val) 3 0 i.val).1

/-- An enabled input that trips latches the time of its first active edge, and acts (10 R235, R236). -/
theorem ilkTrip_trips {s : State} {i : Fin 8} (halive : aonAlive s = true) (hen : bitAt (s.ilk[i]).cfg 0 = true)
    (hclear : (s.ilk[i]).latched = false) (ft lt : BitVec 32) :
    Runs (.ilkTrip i ft lt) s fun t =>
      t.ilk[i] = { s.ilk[i] with latched := true, ft := ft, lt := lt, noted := false } ∧
      (∀ j : Fin 8, j ≠ i → t.ilk[j] = s.ilk[j]) ∧ (running s = true → Raises 0x0930 0 s t) ∧
      (s.seq.st.active = true → Stops (if bitAt (s.ilk[i]).cfg 1 then 5 else 4) (stopM (bitAt (s.ilk[i]).cfg 1) s.seq) t) ∧
      (bitAt (s.ilk[i]).cfg 1 = true → t.seq.gblank = true) ∧ (s.scan.st.moves = true → t.scan.st = .stopping) := by
  generalize hhard : bitAt (s.ilk[i]).cfg 1 = hard
  have hacts : ¬ (aonAlive s = false ∨ bitAt (s.ilk[i]).cfg 0 = false ∨ (s.ilk[i]).latched = true) := by
    rw [halive, hen, hclear]
    decide
  have hexec : execIlkTrip i ft lt s = .next (tripActs i hard (tripLatched i ft lt s)) := by
    unfold execIlkTrip
    dsimp only
    rw [if_neg hacts, hhard]
    rfl
  have hseq : (tripLatched i ft lt s).seq = s.seq := tripLatched_seq ..
  refine ⟨_, hexec, ?_, fun j hj => ?_, fun hrun => ?_, fun hactive => ?_, fun hh => ?_, fun hmoves => ?_⟩
  · rw [tripActs_ilk, tripLatched_ilk, latchIlk, setIlk_same]
  · rw [tripActs_ilk, tripLatched_ilk, latchIlk, setIlk_ne hj]
  · exact (tripLatched_raises hrun i ft lt).later (kept_tripActs i hard (.refl _))
  · rw [← hseq] at hactive ⊢
    exact tripActs_stops hactive i hard
  · rw [hh]
    exact tripActs_blanks i _
  · exact tripActs_ramps (by rwa [tripLatched_scan]) i hard

/-- A latched input does not trip again (10 R235). -/
theorem ilkTrip_latched {s : State} {i : Fin 8} (hlatched : (s.ilk[i]).latched = true) (ft lt : BitVec 32) :
    Runs (.ilkTrip i ft lt) s fun t => t = s :=
  ⟨s, congrArg Host.Outcome.next (if_pos (.inr (.inr hlatched))), rfl⟩

/-! ### Chatter -/

/-- The input with one more chatter counted, noted where its episode is latched (10 R235). -/
def Ilk.chattered (x : Ilk) : Ilk := { x with chatter := x.chatter + 1, noted := x.noted || (x.latched && !x.noted) }

/-- The chatter of an input counted, and told where it is the first of a latched episode and firmware runs (10 R233, R235). -/
def chatterTold (i : Fin 8) (s : State) : State :=
  if ((s.ilk[i]).latched && !(s.ilk[i]).noted) = true ∧ running s = true then
    raise 0x0932 .aon 0 (setIlk i (s.ilk[i]).chattered s)
  else setIlk i (s.ilk[i]).chattered s

theorem chatterTold_same (i : Fin 8) (s : State) : (chatterTold i s).ilk[i] = (s.ilk[i]).chattered := by
  have hilk : (chatterTold i s).ilk = (setIlk i (s.ilk[i]).chattered s).ilk := by
    unfold chatterTold
    split <;> simp
  rw [hilk, setIlk_same]

theorem only_chatterTold_self (i : Fin 8) (s : State) : Only (.ilk :: eventParts) s (chatterTold i s) := by
  have hset : Only (.ilk :: eventParts) s (setIlk i (s.ilk[i]).chattered s) := only_setIlk i _ (by decide) (.refl _ s)
  unfold chatterTold
  split
  · exact only_raise _ _ _ (by decide) (by decide) (by decide) (by decide) (by decide) (by decide) hset
  · exact hset

theorem chatterTold_raises {i : Fin 8} {s : State} (hlatched : (s.ilk[i]).latched = true) (hfirst : (s.ilk[i]).noted = false)
    (hrun : running s = true) : Raises 0x0932 0 s (chatterTold i s) := by
  rw [chatterTold, if_pos ⟨by rw [hlatched, hfirst]; rfl, hrun⟩]
  exact (raise_raises ..).sooner (kept_setIlk i _ (.refl s))

/-- Chatter is counted, and told once a latched episode (10 R235). -/
theorem ilkChatter_counts {s : State} {i : Fin 8} (halive : aonAlive s = true) (hen : bitAt (s.ilk[i]).cfg 0 = true) :
    Runs (.ilkChatter i) s fun t =>
      (t.ilk[i]).chatter = (s.ilk[i]).chatter + 1 ∧ (t.ilk[i]).latched = (s.ilk[i]).latched ∧
      ((s.ilk[i]).latched = true → (s.ilk[i]).noted = false → running s = true → Raises 0x0932 0 s t) ∧
      Only (.ilk :: eventParts) s t := by
  have hacts : ¬ (aonAlive s = false ∨ bitAt (s.ilk[i]).cfg 0 = false) := by
    rw [halive, hen]
    decide
  have hexec : execIlkChatter i s = .next (chatterTold i s) := by
    unfold execIlkChatter
    dsimp only
    rw [if_neg hacts]
    rfl
  refine ⟨_, hexec, ?_, ?_, chatterTold_raises, only_chatterTold_self i s⟩
  · rw [chatterTold_same]
    rfl
  · rw [chatterTold_same]
    rfl

end Sys2Proof.Machine

open Sys2Proof Sys2Proof.Machine

/-- Settles O27: a command that names inputs sets or clears them all or only answers; a trip latches its input (`tripLatched`)
before it stops the stripe, the blank and the generator (`tripActs_stops`, `tripActs_blanks`, `tripActs_ramps`). -/
theorem interlocksStopTheStripeUntilCleared : Obligations.InterlocksStopTheStripeUntilCleared := by
  unfold Obligations.InterlocksStopTheStripeUntilCleared
  refine ⟨fun e s => ⟨fun hstart => ⟨fun hok => ?_, fun r hbad => ?_⟩,
      fun steady hstart => ⟨fun hfree => ?_, fun hblocked => ?_⟩⟩,
    fun s i halive hen => ⟨fun ft lt hclear => ?_, fun ft lt hlatched => ?_, ?_⟩⟩
  · exact ilkConfigure_sets hstart hok
  · exact ilkConfigure_refuses hstart hbad
  · exact ilkClear_clears hstart hfree
  · exact ilkClear_refuses hstart hblocked
  · exact ilkTrip_trips halive hen hclear ft lt
  · exact ilkTrip_latched hlatched ft lt
  · exact ilkChatter_counts halive hen
end

section
/-! SUPPORT. What the commands of the ledger read, records that are written and awaited, and items that start, in the terms of the
ledger alone (11 R242-R247, R253, R256). -/

namespace Sys2Proof.Machine

/-! ### What depends on the ledger alone -/

theorem flow_of_led {s t : State} (h : t.led = s.led) (f : BitVec 8) : flow t f = flow s f := by
  unfold flow
  rw [h]

theorem witnessOk_of_led {s t : State} (h : t.led = s.led) : witnessOk t = witnessOk s := by
  unfold witnessOk hasWitness
  rw [h]

theorem hasWitness_of_witnessOk {s : State} (h : witnessOk s = true) : hasWitness s = true := by
  unfold witnessOk at h
  exact (Bool.and_eq_true_iff.mp h).1

theorem checkpointFloor_of_led {s t : State} (h : t.led = s.led) (f : BitVec 8) (q : BitVec 64) :
    checkpointFloor t f q = checkpointFloor s f q := by
  unfold checkpointFloor
  rw [flow_of_led h, h]

/-! ### Checks that pass -/

/-- A FLOW_OPEN that nothing refuses finds a witness that takes records (13 R306). -/
theorem witnessOk_of_flowOpenBad {s : State} {f : BitVec 8} {q : BitVec 64} (h : flowOpenBad s f q = none) :
    witnessOk s = true := by
  unfold flowOpenBad at h
  split at h
  · cases h
  split at h
  · cases h
  · next hwitness => exact Bool.of_not_eq_false hwitness

/-- So does a FLOW_CLOSE that nothing refuses (13 R306). -/
theorem witnessOk_of_flowCloseBad {s : State} {f : BitVec 8} (h : flowCloseBad s f = none) : witnessOk s = true := by
  unfold flowCloseBad at h
  split at h
  · cases h
  split at h
  · cases h
  split at h
  · cases h
  · next hwitness => exact Bool.of_not_eq_false hwitness

/-- And so does a submission that passes the checks before those of its kind (11 R246 reason 6). -/
theorem witnessOk_of_plainChecks {s : State} {x : Submit} (h : plainChecks s x = none) : witnessOk s = true := by
  unfold plainChecks at h
  by_contra hwitness
  rw [Bool.not_eq_true] at hwitness
  rw [if_pos hwitness] at h
  simp [ite_eq_iff] at h

/-! ### The floor of a checkpoint (11 R256) -/

theorem flow_setFlow_same (f : BitVec 8) (x : Flow) (s : State) : flow (setFlow f x s) f = x := by
  simp [flow, setFlow]

theorem foldl_min_seq_le (l : List Item) (n : Nat) : l.foldl (fun a i => min a i.seq.toNat) n ≤ n := by
  rw [← List.foldl_map (f := fun i : Item => i.seq.toNat) (g := min), List.foldl_min]
  exact min_le_left _ _

/-- The floor that a checkpoint applies is never below the present one. -/
theorem floor_le_checkpointFloor (s : State) (f : BitVec 8) (q : BitVec 64) : (flow s f).floor ≤ checkpointFloor s f q := by
  unfold checkpointFloor
  have hlow := foldl_min_seq_le (s.led.items.filter fun i => i.flow == f && i.live) q.toNat
  have hfits := max_lt (hlow.trans_lt q.isLt) (flow s f).floor.isLt
  rw [BitVec.le_def, BitVec.toNat_ofNat, Nat.mod_eq_of_lt hfits]
  exact le_max_right _ _

/-- So it is the flow's floor once it is applied. -/
theorem floor_applyFloor (s : State) (f : BitVec 8) (q : BitVec 64) :
    (flow (applyFloor f (checkpointFloor s f q) s) f).floor = checkpointFloor s f q := by
  have hle := floor_le_checkpointFloor s f q
  unfold applyFloor
  rw [flow_setFlow_same]
  dsimp only
  split
  · rfl
  · next hlt => exact BitVec.le_antisymm hle (BitVec.not_lt.mp hlt)

/-! ### A record that is awaited -/

theorem only_writeRec_ledger (mk : State → WRec) {s u : State} (h : Only ledgerParts s u) :
    Only ledgerParts s (writeRec mk u) :=
  only_writeRec mk (by decide) (by decide) (by decide) (by decide) (by decide) (by decide) (by decide) (by decide) (by decide)
    (by decide) (by decide) h

theorem only_consume_ledger (src : Src) (s : State) : Only ledgerParts s (consume src s) :=
  only_consume src (by decide) (by decide) (by decide) (by decide) (.refl _ s)

/-- With a witness the record written is among those not acknowledged, stamped in a state with the same books. -/
theorem writeRec_unacked (mk : State → WRec) {s : State} (h : hasWitness s = true) :
    ∃ u, SameBooks s u ∧ mk u ∈ (writeRec mk s).led.unacked ∧ (writeRec mk s).led.wseq = u.led.wseq + 1 := by
  obtain ⟨u, hbooks, hunacked, hwseq⟩ := writeRec_sent mk s h
  exact ⟨u, hbooks, by simp [hunacked], hwseq⟩

/-- A command writes a record and waits, in a way that its number tells, for the witness (13 R306, R310). -/
def recordAwaited (w : Waiting) (on : Nat → WaitOn) (mk : State → WRec) (s : State) : State :=
  wait w (on ((writeRec mk s).led.wseq - 1)) (writeRec mk s)

theorem started_mem_wait (c : Cmd) (e : Entry) (on on' : WaitOn) (s t : State) :
    started c e on s ∈ (wait (started c e on' s) on t).mb.running :=
  List.mem_append_right _ (List.mem_singleton.mpr rfl)

/-- The record is not acknowledged and has the number before the next; the command waits for that number. -/
theorem runs_recordAwaited {i : Instr} {c : Cmd} {e : Entry} {s v : State} {on : Nat → WaitOn} {mk : State → WRec}
    (hexec : exec i s = .next (recordAwaited (started c e .loopback s) on mk v)) (hwitness : hasWitness v = true)
    (hnumber : ∀ u, (mk u).wseq = u.led.wseq) (hframe : Only ledgerParts s v) :
    Runs i s fun t =>
      (∃ u, mk u ∈ t.led.unacked ∧ (mk u).wseq + 1 = t.led.wseq ∧ started c e (on (mk u).wseq) s ∈ t.mb.running) ∧
      Only ledgerParts s t := by
  obtain ⟨u, -, hsent, hwseq⟩ := writeRec_unacked mk hwitness
  have hprev : (writeRec mk v).led.wseq - 1 = (mk u).wseq := by rw [hwseq, hnumber, Nat.add_sub_cancel]
  rw [recordAwaited, hprev] at hexec
  refine ⟨_, hexec, ⟨u, by simpa using hsent, ?_, started_mem_wait ..⟩,
    only_wait _ _ (by decide) (only_writeRec_ledger mk hframe)⟩
  rw [hnumber]
  simpa using hwseq.symm

/-! ### Items by name -/

theorem findItem_of_headItem {s : State} {f : BitVec 8} {i : Item} (h : headItem s f = some i) :
    ∃ j, findItem s i.flow i.seq = some j := by
  have hmem : i ∈ s.led.items := List.mem_of_find?_eq_some h
  exact Option.isSome_iff_exists.mp (List.find?_isSome.mpr ⟨i, hmem, by simp⟩)

/-- An item that starts is RUNNING in the ledger (11 R247). -/
theorem findItem_runItem {s : State} {i j : Item} (h : findItem s i.flow i.seq = some j) :
    findItem (runItem i s) i.flow i.seq = some { i with st := .running } := by
  unfold runItem
  dsimp only
  rw [findItem_books (writeRec_books _ _)]
  exact findItem_putItem h rfl rfl

theorem only_runItem_ledger (i : Item) (s : State) : Only ledgerParts s (runItem i s) :=
  only_runItem i (by decide) (by decide) (by decide) (by decide) (by decide) (by decide) (by decide) (by decide) (by decide)
    (by decide) (by decide) (.refl _ s)

end Sys2Proof.Machine
end

section
/-! PROOF. FLOW_OPEN, FLOW_CLOSE, LEDGER_CHECKPOINT, WORK_SUBMIT of a new item, and the start of the head item of a flow
(11 R243-R247, R250, 13 R306, R307, R310). -/

namespace Sys2Proof.Machine

/-! ### Flows and checkpoints -/

section
variable {e : Entry} {s : State} (hfree : objBusy s (flowObjs (argFlow e)) = false)
include hfree

/-- FLOW_OPEN sends its OWNER record and waits for it (13 R306). -/
theorem flowOpen_sends (hstart : Starts cmdFlowOpen e s) (hok : flowOpenBad s (argFlow e) (argSeq e) = none) :
    Runs (.flowOpen e) s fun t =>
      (∃ r ∈ t.led.unacked, r.rtype = 8 ∧ r.flow = argFlow e ∧ r.seq = argSeq e ∧ r.owner = s.fab.node ∧
        r.wseq + 1 = t.led.wseq ∧ started cmdFlowOpen e (.flowOpen (argFlow e) r.wseq (argSeq e)) s ∈ t.mb.running) ∧
      Only ledgerParts s t := by
  have hled : (consume e.src s).led = s.led := by simp
  have hfab : (consume e.src s).fab = s.fab := by simp
  have hok' : flowOpenBad (consume e.src s) (argFlow e) (argSeq e) = none := by
    simpa only [flowOpenBad, flow_of_led hled, witnessOk_of_led hled, hfab] using hok
  have hexec : exec (.flowOpen e) s = .next (recordAwaited (started cmdFlowOpen e .loopback s)
      (fun n => .flowOpen (argFlow e) n (argSeq e))
      (flowRec 8 (argFlow e) (openedFlow (argSeq e) (consume e.src s))) (consume e.src s)) := by
    refine congrArg Host.Outcome.next ((takeUp_starts hstart hfree).trans ?_)
    simp only [hok', recordAwaited]
  obtain ⟨t, hrun, ⟨u, hsent, hwseq, hwaits⟩, hframe⟩ := runs_recordAwaited hexec
    (hasWitness_of_witnessOk (witnessOk_of_flowOpenBad hok')) (fun _ => rfl) (only_consume_ledger e.src s)
  exact ⟨t, hrun, ⟨_, hsent, rfl, rfl, rfl, congrArg Fabric.node hfab, hwseq, hwaits⟩, hframe⟩

/-- FLOW_CLOSE sends its CLOSE record and waits for it (11 R244, 13 R306). -/
theorem flowClose_sends (hstart : Starts cmdFlowClose e s) (hok : flowCloseBad s (argFlow e) = none) :
    Runs (.flowClose e) s fun t =>
      (∃ r ∈ t.led.unacked, r.rtype = 7 ∧ r.flow = argFlow e ∧ r.wseq + 1 = t.led.wseq ∧
        started cmdFlowClose e (.flowClose (argFlow e) r.wseq) s ∈ t.mb.running) ∧ Only ledgerParts s t := by
  have hled : (consume e.src s).led = s.led := by simp
  have hfab : (consume e.src s).fab = s.fab := by simp
  have hok' : flowCloseBad (consume e.src s) (argFlow e) = none := by
    simpa only [flowCloseBad, flow_of_led hled, witnessOk_of_led hled, hled, hfab] using hok
  have hexec : exec (.flowClose e) s = .next (recordAwaited (started cmdFlowClose e .loopback s)
      (fun n => .flowClose (argFlow e) n)
      (flowRec 7 (argFlow e) (flow (consume e.src s) (argFlow e))) (consume e.src s)) := by
    refine congrArg Host.Outcome.next ((takeUp_starts hstart hfree).trans ?_)
    simp only [hok', recordAwaited]
  obtain ⟨t, hrun, ⟨u, hsent, hwseq, hwaits⟩, hframe⟩ := runs_recordAwaited hexec
    (hasWitness_of_witnessOk (witnessOk_of_flowCloseBad hok')) (fun _ => rfl) (only_consume_ledger e.src s)
  exact ⟨t, hrun, ⟨_, hsent, rfl, rfl, hwseq, hwaits⟩, hframe⟩

/-- LEDGER_CHECKPOINT sends a CHECKPOINT record with the floor it will apply, and waits for it (11 R256, 13 R310). -/
theorem ledgerCheckpoint_sends (hstart : Starts cmdLedgerCheckpoint e s) (hopen : (flow s (argFlow e)).isOpen = true)
    (hwitness : witnessOk s = true) :
    Runs (.ledgerCheckpoint e) s fun t =>
      (∃ r ∈ t.led.unacked, r.rtype = 6 ∧ r.flow = argFlow e ∧ r.seq = checkpointFloor s (argFlow e) (argSeq e) ∧
        r.wseq + 1 = t.led.wseq ∧
        started cmdLedgerCheckpoint e (.checkpoint (argFlow e) r.wseq (checkpointFloor s (argFlow e) (argSeq e))) s ∈
          t.mb.running) ∧
      Only ledgerParts s t := by
  have hled : (consume e.src s).led = s.led := by simp
  have hopen' : (flow (consume e.src s) (argFlow e)).isOpen = true := by rw [flow_of_led hled, hopen]
  have hwitness' : witnessOk (consume e.src s) = true := by rw [witnessOk_of_led hled, hwitness]
  have hfloor := checkpointFloor_of_led hled (argFlow e) (argSeq e)
  have hexec : exec (.ledgerCheckpoint e) s = .next (recordAwaited (started cmdLedgerCheckpoint e .loopback s)
      (fun n => .checkpoint (argFlow e) n (checkpointFloor s (argFlow e) (argSeq e)))
      (flowRec 6 (argFlow e) (flow (applyFloor (argFlow e) (checkpointFloor (consume e.src s) (argFlow e) (argSeq e))
        (consume e.src s)) (argFlow e))) (consume e.src s)) := by
    refine congrArg Host.Outcome.next ((takeUp_starts hstart hfree).trans ?_)
    simp [hopen', hwitness', hfloor, recordAwaited]
  obtain ⟨t, hrun, ⟨u, hsent, hwseq, hwaits⟩, hframe⟩ := runs_recordAwaited hexec
    (hasWitness_of_witnessOk hwitness') (fun _ => rfl) (only_consume_ledger e.src s)
  exact ⟨t, hrun, ⟨_, hsent, rfl, rfl, (floor_applyFloor ..).trans hfloor, hwseq, hwaits⟩, hframe⟩

end

/-! ### A new item -/

/-- A submission of the next sequence number to an open flow of this device that passes every check is taken (11 R245, R250). -/
theorem judgeSubmit_new {u : State} {x : Submit} (hrebuilt : u.led.rebuilt = true) (hopen : (flow u x.f).isOpen = true)
    (howner : (flow u x.f).owner = u.fab.node) (hnext : x.q = (flow u x.f).nextSeq) (hplain : plainChecks u x = none)
    (hkind : kindChecks x.kind u x.f x.block = none) (w : Waiting) : judgeSubmit w x u = submitNew w x u := by
  simp [judgeSubmit, hrebuilt, hopen, howner, ← hnext, judgeNew, hplain, hkind]

/-- A submission that is taken: the item is SUBMITTED, its ACCEPT record sent, and the command waits for it (11 R247). -/
theorem submitNew_effect {s u : State} {x : Submit} (hwitness : hasWitness u = true) (hframe : Only ledgerParts s u) (c : Cmd)
    (e : Entry) :
    (∃ i ∈ (submitNew (started c e .loopback s) x u).led.items, i.flow = x.f ∧ i.seq = x.q ∧ i.st = .submitted ∧
      i.kind = BitVec.ofNat 8 x.kind ∧ i.params = some x.block) ∧
    (∃ r ∈ (submitNew (started c e .loopback s) x u).led.unacked, r.rtype = 1 ∧ r.flow = x.f ∧ r.seq = x.q ∧
      r.paramCrc = x.crc) ∧
    started c e (.accept x.f x.q) s ∈ (submitNew (started c e .loopback s) x u).mb.running ∧
    Only ledgerParts s (submitNew (started c e .loopback s) x u) := by
  obtain ⟨v, -, hsent, -⟩ := writeRec_unacked (itemRec 1 (newItem x 0)) hwitness
  unfold submitNew
  dsimp only
  refine ⟨⟨_, List.mem_append_right _ (List.mem_singleton.mpr rfl), rfl, rfl, rfl, rfl, rfl⟩,
    ⟨itemRec 1 (newItem x 0) v, ?_, rfl, rfl, rfl, rfl⟩, started_mem_wait .., ?_⟩
  · simpa [addItem] using hsent
  · exact only_wait _ _ (by decide) (only_addItem _ (by decide) (only_stat _ (by decide) (only_writeRec_ledger _ hframe)))

/-- WORK_SUBMIT of a submission that is judged new and taken (11 R245-R247, R250, 13 R307). -/
theorem workSubmit_takes {e : Entry} {s u : State} {b : List Byte} {x : Submit} (hstart : Starts cmdWorkSubmit e s)
    (hfree : objBusy s (itemObjs (argFlow e) (argSeq e)) = false) (hsettled : stillSubmitted s (argFlow e) (argSeq e) = false)
    (hstall : submitStalls s e = false)
    (hread : readBuffer e (Entry.arg e 1) (fun _ => true) (consume e.src s) = (.ok b, u))
    (hx : x = { f := argFlow e, q := argSeq e, kind := bitsNat (Entry.arg e 0) 8 8, block := b })
    (hjudge : ∀ w, judgeSubmit w x u = submitNew w x u) (hwitness : hasWitness u = true) :
    Runs (.workSubmit e) s fun t =>
      (∃ i ∈ t.led.items, i.flow = x.f ∧ i.seq = x.q ∧ i.st = .submitted ∧ i.kind = BitVec.ofNat 8 x.kind ∧
        i.params = some b) ∧
      (∃ r ∈ t.led.unacked, r.rtype = 1 ∧ r.flow = x.f ∧ r.seq = x.q ∧ r.paramCrc = x.crc) ∧
      started cmdWorkSubmit e (.accept x.f x.q) s ∈ t.mb.running ∧ Only ledgerParts s t := by
  have hhold : (objBusy s (itemObjs (argFlow e) (argSeq e)) || stillSubmitted s (argFlow e) (argSeq e) ||
      submitStalls s e) = false := by rw [hfree, hsettled, hstall]; rfl
  have hframe : Only ledgerParts s u :=
    only_readBuffer_eq e _ _ (by decide) (by decide) (by decide) (by decide) hread (only_consume_ledger e.src s)
  subst hx
  have hexec : exec (.workSubmit e) s = .next (submitNew (started cmdWorkSubmit e .loopback s)
      { f := argFlow e, q := argSeq e, kind := bitsNat (Entry.arg e 0) 8 8, block := b } u) := by
    refine congrArg Host.Outcome.next ((takeUp_starts hstart hhold).trans ?_)
    simp only [hread, hjudge]
  exact ⟨_, hexec, submitNew_effect hwitness hframe cmdWorkSubmit e⟩

/-! ### The head item starts -/

/-- The state with one more run of ingest (03 R53). -/
def withIngest (r : IngestRun) (s : State) : State := { s with lay := { s.lay with ingests := s.lay.ingests ++ [r] } }

/-- The state in which a calibration item has asked for its run (18 R414). -/
def calAsked (i : Item) (p : List Byte) (s : State) : State :=
  { s with cal := { s.cal with st := 1, targets := BitVec.ofNat 4 (blk p 0 0 4), item := some (i.flow, i.seq) } }

section
variable {s : State} {f : BitVec 8} {i : Item} {p : List Byte} (hrun : running s = true) (hrebuilt : s.led.rebuilt = true)
  (hmode : s.pm.mode ≠ .hold) (howner : (flow s f).owner = s.fab.node) (hhead : headItem s f = some i)
  (hparams : i.params = some p) (hst : i.st = .accepted)
include hrun hrebuilt hmode howner hhead hparams hst

/-- An accepted head item other than a stripe begins on its engine (11 R247). -/
theorem exec_workItemStart (hkind : i.kind ≠ 4) : exec (.workItemStart f) s = .next (startKind i p (runItem i) s) := by
  change execWorkItemStart f s = _
  have hstarts : startHead i p s = startKind i p (runItem i) s := by rw [startHead, if_neg hkind, if_pos hst]
  simp [execWorkItemStart, hrun, hrebuilt, hmode, howner, hhead, hparams, hstarts]

/-- An ingest that is not sealed is RUNNING, and the engine begins its run (03 R53, 11 R247). -/
theorem workItemStart_ingest (hkind : i.kind = 1) (hon : domOn s .ing = true)
    (hplain : (IngestJob.of i.flow p).sealed_ = false) :
    Runs (.workItemStart f) s fun t =>
      t.lay.ingests = s.lay.ingests ++ [newIngest i.flow i.seq] ∧ (findItem t i.flow i.seq).map (·.st) = some .running := by
  have hexec := exec_workItemStart hrun hrebuilt hmode howner hhead hparams hst (by rw [hkind]; decide)
  have hbegin : startKind i p (runItem i) s = runItem i (withIngest (newIngest i.flow i.seq) s) := by
    simp [startKind, startIngest, withIngest, hkind, hon, hplain]
  rw [hbegin] at hexec
  obtain ⟨j, hj⟩ := findItem_of_headItem hhead
  have hj' : findItem (withIngest (newIngest i.flow i.seq) s) i.flow i.seq = some j := (findItem_led rfl _ _).trans hj
  refine ⟨_, hexec, ?_, ?_⟩
  · rw [(only_runItem_ledger i _).lay (by decide)]
    rfl
  · rw [findItem_runItem hj']
    rfl

/-- A calibration is RUNNING, and asks for its run with the targets of its block (18 R413, R414, 11 R247). -/
theorem workItemStart_calibration (hkind : i.kind = 6) (hallowed : kindMode 6 s.pm.mode = true) (hidle : s.cal.st = 0) :
    Runs (.workItemStart f) s fun t =>
      t.cal.st = 1 ∧ t.cal.targets = BitVec.ofNat 4 (blk p 0 0 4) ∧ t.cal.item = some (i.flow, i.seq) ∧
        (findItem t i.flow i.seq).map (·.st) = some .running := by
  have hexec := exec_workItemStart hrun hrebuilt hmode howner hhead hparams hst (by rw [hkind]; decide)
  have hbegin : startKind i p (runItem i) s = calAsked i p (runItem i s) := by
    simp [startKind, startCal, calAsked, hkind, hallowed, hidle]
  rw [hbegin] at hexec
  obtain ⟨j, hj⟩ := findItem_of_headItem hhead
  have hrunning : findItem (calAsked i p (runItem i s)) i.flow i.seq = some { i with st := .running } :=
    (findItem_led rfl _ _).trans (findItem_runItem hj)
  exact ⟨_, hexec, rfl, rfl, rfl, by rw [hrunning]; rfl⟩

end

end Sys2Proof.Machine

open Sys2Proof Sys2Proof.Machine

/-- Settles O11: a command on a flow or a checkpoint is `recordAwaited` of its record; a new item is taken by `submitNew`; a head
item that starts is marked by `runItem`, whatever its engine. -/
theorem flowsOpenTakeAndStartWork : Obligations.FlowsOpenTakeAndStartWork := by
  unfold Obligations.FlowsOpenTakeAndStartWork
  refine ⟨fun e s hfree => ⟨fun hstart hok => ?_, fun hstart hok => ?_, fun hstart hopen hwitness => ?_⟩,
    fun e s u b x hstart hfree hsettled hstall hread hx hrebuilt hopen howner hnext hplain hkind => ?_,
    fun s f i p hrun hrebuilt hmode howner hhead hparams hst => ⟨fun hkind hon hunsealed => ?_,
      fun hkind hallowed hidle => ?_⟩⟩
  · exact flowOpen_sends hfree hstart hok
  · exact flowClose_sends hfree hstart hok
  · exact ledgerCheckpoint_sends hfree hstart hopen hwitness
  · exact workSubmit_takes hstart hfree hsettled hstall hread hx
      (judgeSubmit_new hrebuilt hopen howner hnext hplain hkind) (hasWitness_of_witnessOk (witnessOk_of_plainChecks hplain))
  · exact workItemStart_ingest hrun hrebuilt hmode howner hhead hparams hst hkind hon hunsealed
  · exact workItemStart_calibration hrun hrebuilt hmode howner hhead hparams hst hkind hallowed hidle
end

section
/-! SUPPORT. What acknowledgements, withdrawn items and a lost witness leave of the ledger (11 R246, R247, R254). -/

namespace Sys2Proof.Machine

/-! ### Acknowledgements -/

@[simp] theorem serveResults_led (j : Fin 8) (s : State) : (serveResults j s).led = s.led :=
  (only_serveResults (fr := [.out, .win, .stats, .hostMem]) j (by decide) (by decide) (by decide) (by decide) (.refl _ s)).led
    (by decide)

/-- An acknowledgement changes items, and not how far the witness has acknowledged (11 R247, R249). -/
theorem settleItem_acked (a : Nat) (i : Item) (s : State) : (settleItem a i s).led.acked = s.led.acked := by
  unfold settleItem
  split
  · rfl
  split
  · split
    · simp [publish, putItem]
    · rfl
  · rfl

theorem settleItems_acked (a : Nat) (l : List Item) (s : State) : (settleItems a l s).led.acked = s.led.acked := by
  induction l generalizing s with
  | nil => rfl
  | cons i t ih => exact (ih _).trans (settleItem_acked a i s)

/-- Nor does the effect of a command whose record is acknowledged (11 R244, R256, 13 R306). -/
theorem ackEffect_acked (a : Nat) (w : Waiting) (s : State) : (ackEffect a w s).led.acked = s.led.acked := by
  unfold ackEffect
  split
  · split <;> rfl
  · split <;> rfl
  · split <;> rfl
  · rfl

theorem ackEffects_acked (a : Nat) (l : List Waiting) (s : State) : (ackEffects a l s).led.acked = s.led.acked := by
  induction l generalizing s with
  | nil => rfl
  | cons w t ih => exact (ih _).trans (ackEffect_acked a w s)

/-- An acknowledgement up to `a` is never taken back (11 R254). -/
theorem ackUpTo_acked (a : Nat) (s : State) : (ackUpTo a s).led.acked = max s.led.acked a := by
  simp [ackUpTo, settleAcks, ackEffects_acked, settleItems_acked]

@[simp] theorem handoverStep_led (s : State) : (handoverStep s).led = s.led :=
  (only_handoverStep (fr := [.out, .win, .link, .scan, .fab, .nor, .evt, .stats, .hostMem]) (by decide) (by decide) (by decide)
    (by decide) (by decide) (by decide) (by decide) (by decide) (by decide) (.refl _ s)).led (by decide)

/-! ### Items withdrawn -/

@[simp] theorem refuseSubmitted_led (l : List Item) (s : State) : (refuseSubmitted l s).led = s.led :=
  (only_refuseSubmitted (fr := [.out, .win, .nor, .evt, .stats, .hostMem]) l (by decide) (by decide) (by decide) (by decide)
    (by decide) (by decide) (.refl _ s)).led (by decide)

/-- An item withdrawn leaves every other item, and the loss of the witness, as they were (11 R246). -/
theorem withdraw_items (i : Item) (s : State) :
    (withdraw i s).led.items = s.led.items.filter (fun j => !(j.flow == i.flow && j.seq == i.seq)) :=
  congrArg (List.filter _) (writeRec_books (itemRec 5 i) s).items

theorem withdraw_lost (i : Item) (s : State) : (withdraw i s).led.lost = s.led.lost := (writeRec_books (itemRec 5 i) s).lost

theorem withdrawAll_lost (l : List Item) (s : State) : (withdrawAll l s).led.lost = s.led.lost := by
  induction l generalizing s with
  | nil => rfl
  | cons i t ih =>
    refine (ih _).trans ?_
    split
    · exact withdraw_lost i s
    · rfl

/-- Of the items withdrawn from, those that stay were there before, and none of the SUBMITTED ones named is among them. -/
theorem of_mem_withdrawAll {l : List Item} {s : State} {j : Item} (h : j ∈ (withdrawAll l s).led.items) :
    j ∈ s.led.items ∧ (j ∈ l → j.st ≠ .submitted) := by
  induction l generalizing s with
  | nil => exact ⟨h, fun hmem => absurd hmem List.not_mem_nil⟩
  | cons i t ih =>
    obtain ⟨hstays, hrest⟩ := ih h
    split at hstays
    · next hst =>
      rw [withdraw_items, List.mem_filter] at hstays
      refine ⟨hstays.1, fun hmem => ?_⟩
      rcases List.mem_cons.mp hmem with rfl | htail
      · simp at hstays
      · exact hrest htail
    · next hst =>
      refine ⟨hstays, fun hmem => ?_⟩
      rcases List.mem_cons.mp hmem with rfl | htail
      · exact hst
      · exact hrest htail

theorem findItem_withdraw_self (i : Item) (s : State) : findItem (withdraw i s) i.flow i.seq = none := by
  unfold findItem
  rw [withdraw_items, List.find?_eq_none]
  intro j hmem
  have hother := (List.mem_filter.mp hmem).2
  simpa only [Bool.not_eq_true', Bool.not_eq_true] using hother

/-! ### A witness that is lost -/

/-- The restoring records of flows leave the books (13 R306 reason 6). -/
theorem restoreFlow_books (w : Waiting) (s : State) : SameBooks s (restoreFlow w s) := by
  unfold restoreFlow
  split
  · exact writeRec_books _ s
  · exact writeRec_books _ s
  · exact .refl s

theorem restoreFlows_books (l : List Waiting) (s : State) : SameBooks s (restoreFlows l s) := by
  induction l generalizing s with
  | nil => exact .refl s
  | cons w t ih => exact (restoreFlow_books w s).trans (ih _)

/-- The state in which the loss is told, before its consequences (11 R254). -/
def lossTold (s : State) : State :=
  setFlag 6 (raise 0x0401 .ctrl 0 (stat (sk 0x04000001 0x41) { s with led := { s.led with lost := true } }))

theorem lossTold_led (s : State) : (lossTold s).led = { s.led with lost := true } := by simp [lossTold]

theorem lossTold_raises (s : State) : Raises 0x0401 0 s (lossTold s) :=
  ((raise_raises 0x0401 .ctrl 0 _).sooner (kept_stat _ ((Kept.refl s).set_led _))).later (kept_setFlag 6 (.refl _))

/-- What the loss does to the ledger: no item stays SUBMITTED, and flows whose commands waited are restored (11 R254). -/
def lossSettled (s : State) : State :=
  restoreFlows (lossTold s).mb.running (withdrawAll s.led.items (refuseSubmitted s.led.items (lossTold s)))

theorem loseWitness_eq {s : State} (hwitness : hasWitness s = true) (hlost : s.led.lost = false) :
    loseWitness s = settle (lostCompletion (lossSettled s)) (lossSettled s) := by
  simp only [loseWitness, hwitness, hlost, Bool.false_eq_true, Bool.true_eq_false, or_self, if_false]
  rfl

theorem lossSettled_lost (s : State) : (lossSettled s).led.lost = true := by
  unfold lossSettled
  rw [(restoreFlows_books _ _).lost, withdrawAll_lost, refuseSubmitted_led, lossTold_led]

theorem lossSettled_items {s : State} {i : Item} (h : i ∈ (lossSettled s).led.items) : i.st ≠ .submitted := by
  unfold lossSettled at h
  rw [(restoreFlows_books _ _).items] at h
  obtain ⟨hmem, hst⟩ := of_mem_withdrawAll h
  rw [refuseSubmitted_led, lossTold_led] at hmem
  exact hst hmem

theorem lossSettled_raises (s : State) : Raises 0x0401 0 s (lossSettled s) :=
  (lossTold_raises s).later (kept_restoreFlows _ (kept_withdrawAll _ (kept_refuseSubmitted _ (.refl _))))

@[simp] theorem resendTo_led (w : WitnessKind) (l : List WRec) (s : State) : (resendTo w l s).led = s.led :=
  (only_resendTo (fr := [.out, .win, .dma, .fab, .nor, .diag, .evt, .stats, .hostMem, .free]) w l (by decide) (by decide)
    (by decide) (by decide) (by decide) (by decide) (by decide) (by decide) (by decide) (by decide) (.refl _ s)).led (by decide)

end Sys2Proof.Machine
end

section
/-! PROOF. Acknowledgement by read-back, resending, the loss and return of the witness, PROGRESS_TIMER, LEDGER_REBUILD and
ACCEPT_TIMEOUT (11 R246, R254, R255, R257, R260). -/

namespace Sys2Proof.Machine

/-! ### The witness -/

section
variable {s : State} {r : WRec} {rest : List WRec}

/-- A read-back that agrees acknowledges the oldest record of the region (11 R254). -/
theorem witnessReadbackDone_acks {f : BitVec 8} {a n : Nat} (hheeds : s.diag.withhold = false) (hlost : s.led.lost = false)
    (hregion : s.led.witness = .region f a n) (hunacked : s.led.unacked = r :: rest) :
    Runs (.witnessReadbackDone true) s fun t => t.led.acked = max s.led.acked r.wseq := by
  have hexec : exec (.witnessReadbackDone true) s = .next (activateTables (handoverStep (ackUpTo r.wseq s))) := by
    change execWitnessReadbackDone true s = _
    simp [execWitnessReadbackDone, hheeds, hlost, hregion, hunacked]
  have hled : (activateTables (handoverStep (ackUpTo r.wseq s))).led = (ackUpTo r.wseq s).led :=
    (activateTables_led _).trans (handoverStep_led _)
  exact ⟨_, hexec, by simpa only [hled] using ackUpTo_acked r.wseq s⟩

/-- A peer's oldest record goes again, on the alternate route (11 R254). -/
theorem witnessResendTimeout_resends {node : BitVec 12} (hlost : s.led.lost = false) (hpeer : s.led.witness = .peer node)
    (hunacked : s.led.unacked = r :: rest) :
    Runs .witnessResendTimeout s fun t => t = sendAlternate node.toNat 0x20 1 r.bytes (stat (sk 0x04000001 0x40) s) ∧
      Only [.out, .fab, .diag, .stats] s t := by
  have hexec : exec .witnessResendTimeout s =
      .next (sendAlternate node.toNat 0x20 1 r.bytes (stat (sk 0x04000001 0x40) s)) := by
    change execWitnessResendTimeout s = _
    simp [execWitnessResendTimeout, hlost, hpeer, hunacked]
  exact ⟨_, hexec, rfl, only_sendAlternate _ _ _ _ (by decide) (by decide) (by decide) (by decide)
    (only_stat _ (by decide) (.refl _ s))⟩

/-- A witness that owes an acknowledgement too long is lost (11 R254). -/
theorem witnessLost_refuses (hwitness : hasWitness s = true) (hlost : s.led.lost = false) (hunacked : s.led.unacked = r :: rest) :
    Runs .witnessLost s fun t =>
      t.led.lost = true ∧ Raises 0x0401 0 s t ∧ ∀ i ∈ t.led.items, i.st ≠ .submitted := by
  have hexec : exec .witnessLost s = .next (settle (lostCompletion (lossSettled s)) (lossSettled s)) := by
    change execWitnessLost s = _
    simp [execWitnessLost, hunacked, loseWitness_eq hwitness hlost]
  refine ⟨_, hexec, ?_, (lossSettled_raises s).later (kept_settle _ (.refl _)), fun i hi => ?_⟩
  · simpa using lossSettled_lost s
  · exact lossSettled_items (by simpa using hi)

/-- A lost witness that answers a retry is lost no longer (11 R254). -/
theorem witnessRetry_restores (hwitness : hasWitness s = true) (hlost : s.led.lost = true) (hheeds : s.diag.withhold = false) :
    Runs (.witnessRetry true) s fun t => t.led.lost = false ∧ Raises 0x0402 0 s t := by
  have hexec : exec (.witnessRetry true) s = .next (raise 0x0402 .ctrl 0
      (resendTo s.led.witness s.led.unacked { s with led := { s.led with lost := false } })) := by
    change execWitnessRetry true s = _
    simp [execWitnessRetry, restoreWitness, hheeds, hlost, hwitness]
  exact ⟨_, hexec, by simp, (raise_raises ..).sooner (kept_resendTo _ _ ((Kept.refl s).set_led _))⟩

end

/-! ### The timers -/

/-- PROGRESS_TIMER writes the high-water of the running stripe (11 R260). -/
theorem progressTimer_records {s : State} {f : BitVec 8} {q : BitVec 64} {i : Item} (hrun : running s = true)
    (hitem : s.seq.item = some (f, q)) (hi : findItem s f q = some i) (hst : i.st = .running) (hwitness : hasWitness s = true) :
    Runs .progressTimer s fun t => ∃ r ∈ t.led.unacked, r.rtype = 3 ∧ r.flow = f ∧ r.seq = q ∧ r.h = s.seq.h := by
  have hexec : exec .progressTimer s =
      .next (writeRec (itemRec 3 { i with h := s.seq.h }) (putItem { i with h := s.seq.h } s)) := by
    change execProgressTimer s = _
    simp [execProgressTimer, progressRec, hrun, hitem, hi, hst]
  have hwitness' : hasWitness (putItem { i with h := s.seq.h } s) = true := hwitness
  obtain ⟨u, -, hsent, -⟩ := writeRec_unacked (itemRec 3 { i with h := s.seq.h }) hwitness'
  obtain ⟨hf, hq⟩ := findItem_names hi
  exact ⟨_, hexec, _, hsent, rfl, hf, hq, rfl⟩

/-- LEDGER_REBUILD adopts the records of this epoch that check out, and tells how many (11 R255, R257). -/
theorem ledgerRebuild_adopts {s : State} (recs : List (BitVec 512)) (hrun : running s = true) (hrebuilt : s.led.rebuilt = false)
    (hwitness : hasWitness s = true) :
    Runs (.ledgerRebuild recs) s fun t => t.led.rebuilt = true ∧ t.led.rebuilds = s.led.rebuilds + 1 ∧
      Raises 0x0403 (detail [du 32 ((((recs.map (fun r => leBytes 64 r.toNat)).filter recCrcOk).map WRec.ofBytes).filter
        (fun r => r.epoch == s.led.epoch)).length]) s t := by
  have hexec : exec (.ledgerRebuild recs) s = .next
      (rebuildLedger (((recs.map (fun r => leBytes 64 r.toNat)).filter recCrcOk).map WRec.ofBytes) s) := by
    change execLedgerRebuild recs s = _
    simp [execLedgerRebuild, hrun, hrebuilt, hwitness]
  refine ⟨_, hexec, by simp [rebuildLedger, fwReady], by simp [rebuildLedger, fwReady], ?_⟩
  exact ((raise_raises ..).sooner ((Kept.refl s).set_led _)).later (kept_fwReady (.refl _))

/-- The state in which an item is told as not accepted in time (11 R246 reason 10). -/
def lapseTold (i : Item) (s : State) : State :=
  raise 0x0300 .ctrl (word [(0, 8, 10), (16, 8, i.flow.toNat), (64, 64, i.seq.toNat)]) (stat (sk 0x04000001 0x8A) s)

/-- ACCEPT_TIMEOUT tells of the flow's SUBMITTED item, withdraws it and answers whoever waits for it (11 R246, R247). -/
theorem exec_acceptTimeout {s : State} {f : BitVec 8} {i : Item}
    (hi : s.led.items.find? (fun i => i.flow == f && i.st == .submitted) = some i) (hst : i.st = .submitted) :
    ∃ p, exec (.acceptTimeout f) s = .next (settle p (withdraw i (lapseTold i s))) := by
  have htold : refuseSubmitted [i] (stat (sk 0x04000001 0x8A) s) = lapseTold i s := by simp [refuseSubmitted, lapseTold, hst]
  change ∃ p, execAcceptTimeout f s = _
  simp only [execAcceptTimeout, hi, htold]
  exact ⟨_, rfl⟩

/-- An item not accepted in time is refused with reason 10 and leaves the ledger (11 R246, R247). -/
theorem acceptTimeout_refuses {s : State} {f : BitVec 8} {i : Item}
    (hi : s.led.items.find? (fun i => i.flow == f && i.st == .submitted) = some i) :
    Runs (.acceptTimeout f) s fun t =>
      findItem t f i.seq = none ∧ Raises 0x0300 (word [(0, 8, 10), (16, 8, f.toNat), (64, 64, i.seq.toNat)]) s t := by
  have hname := List.find?_some hi
  simp only [Bool.and_eq_true, beq_iff_eq] at hname
  obtain ⟨rfl, hst⟩ := hname
  obtain ⟨p, hexec⟩ := exec_acceptTimeout hi hst
  have hled : (settle p (withdraw i (lapseTold i s))).led = (withdraw i (lapseTold i s)).led := by simp
  refine ⟨_, hexec, (findItem_led hled _ _).trans (findItem_withdraw_self i _), ?_⟩
  exact ((raise_raises ..).sooner (kept_stat _ (.refl s))).later (kept_settle _ (kept_withdraw i (.refl _)))

end Sys2Proof.Machine

open Sys2Proof Sys2Proof.Machine

/-- Settles O13: an acknowledgement settles items without moving `acked` again (`ackUpTo_acked`); a loss withdraws every SUBMITTED
item (`of_mem_withdrawAll`), as the acceptance timer does for one flow's (`findItem_withdraw_self`). -/
theorem witnessesAcknowledgeInTime : Obligations.WitnessesAcknowledgeInTime := by
  unfold Obligations.WitnessesAcknowledgeInTime
  refine ⟨fun s r rest => ⟨fun f a n hheeds hlost hregion hunacked => ?_, ⟨s, rfl, rfl⟩,
      fun node hlost hpeer hunacked => ?_, fun hwitness hlost hunacked => ?_, fun hwitness hlost hheeds => ?_⟩,
    fun s f q i => ⟨fun hrun hitem hi hst hwitness => ?_, fun recs hrun hrebuilt hwitness => ?_, fun hi => ?_⟩⟩
  · exact witnessReadbackDone_acks hheeds hlost hregion hunacked
  · exact witnessResendTimeout_resends hlost hpeer hunacked
  · exact witnessLost_refuses hwitness hlost hunacked
  · exact witnessRetry_restores hwitness hlost hheeds
  · exact progressTimer_records hrun hitem hi hst hwitness
  · exact ledgerRebuild_adopts recs hrun hrebuilt hwitness
  · exact acceptTimeout_refuses hi
end

section
/-! PROOF. What every command keeps, and mailbox entries that are refused or wait (12 R279-R281, 13 R289, R290, R293). -/

namespace Sys2Proof.Machine

/-! ### Entries that fail a check -/

/-- The state after an entry that fails a check: the entry consumed, a refusal in the mode told, the answer given (12 R279). -/
def refused (c : Cmd) (e : Entry) (r : Nat × Nat) (s : State) : State :=
  finish (started c e .loopback s) r.1 r.2 [] (refuseInMode c r (consume e.src s))

theorem exec_refuses {s : State} {i : Instr} {c : Cmd} {e : Entry} {r : Nat × Nat}
    (hcmd : mailboxCommand s i = some (c, e, false)) (hready : sourceReady s e.src = true)
    (hspace : sourceSpace s e.src = true) (hmode : modeHolds s c = false) (hbad : c.judge e s = some r) :
    exec i s = .next (refused c e r s) := by
  obtain ⟨act, hexec⟩ := exec_mailbox hcmd
  rw [hexec, takeUp_refuses hready hspace hmode rfl hbad, refused]

/-- A refusal for another reason than the mode raises no event (13 R289). -/
theorem refuseInMode_other {r : Nat × Nat} (h : r.2 ≠ 0x8000) (c : Cmd) (s : State) : refuseInMode c r s = s :=
  if_neg h

theorem sourceReady_attached {s : State} {src : Src} (h : sourceReady s src = true) (hsrc : src = .service) :
    s.svc.attached = true := by
  subst hsrc
  simp only [sourceReady, Bool.and_eq_true] at h
  exact h.2

theorem refused_answers {c : Cmd} {e : Entry} {s : State} (hready : sourceReady s e.src = true) (r : Nat × Nat) :
    Answers c e r.1 r.2 [] s (refused c e r s) := by
  refine (finish_answers c e .loopback r.1 r.2 [] s _ fun hsrc => ?_).sooner ?_
  · simpa using sourceReady_attached hready hsrc
  · exact kept_refuseInMode c r (kept_consume e.src (.refl s))

theorem only_refused (c : Cmd) (e : Entry) (r : Nat × Nat) (s : State) :
    Only (answerParts ++ eventParts) s (refused c e r s) := by
  have hconsumed : Only (answerParts ++ eventParts) s (consume e.src s) :=
    only_consume e.src (by decide) (by decide) (by decide) (by decide) (.refl _ s)
  have htold : Only (answerParts ++ eventParts) s (refuseInMode c r (consume e.src s)) :=
    only_refuseInMode c r (by decide) (by decide) (by decide) (by decide) (by decide) (by decide) hconsumed
  exact only_finish _ _ _ _ (by decide) (by decide) (by decide) (by decide) (by decide) (by decide) htold

/-- Without the event of a refusal in the mode, the answer alone is left. -/
theorem only_refused_other {r : Nat × Nat} (h : r.2 ≠ 0x8000) (c : Cmd) (e : Entry) (s : State) :
    Only answerParts s (refused c e r s) := by
  have hconsumed : Only answerParts s (consume e.src s) :=
    only_consume e.src (by decide) (by decide) (by decide) (by decide) (.refl _ s)
  rw [refused, refuseInMode_other h]
  exact only_finish _ _ _ _ (by decide) (by decide) (by decide) (by decide) (by decide) (by decide) hconsumed

/-! ### Entries that cannot start now -/

/-- An entry waits where its source is not served, or where its command must wait for another or for a mode change (12 R280,
13 R293). -/
theorem takeUp_waits {c : Cmd} {e : Entry} {hold : Bool} {s : State} (act : Waiting → State → State)
    (h : sourceReady s e.src = false ∨ (sourceSpace s e.src = true ∧ (hold = true ∨ modeHolds s c = true))) :
    takeUp c e hold act s = s := by
  cases hready : sourceReady s e.src with
  | false => simp [takeUp, hready]
  | true =>
    obtain ⟨hspace, hwait⟩ := h.resolve_left (by simp [hready])
    simp [takeUp, hready, hspace, hwait]

end Sys2Proof.Machine

open Sys2Proof Sys2Proof.Machine

/-- Settles O5: every command has a next state (`exec_next`), and `kept_exec` says of it what `Kept` lists. -/
theorem commandsOnlyAdd : Obligations.CommandsOnlyAdd := by
  unfold Obligations.CommandsOnlyAdd
  intro i s
  obtain ⟨t, hexec⟩ := exec_next i s
  have hkept := kept_exec i hexec
  exact ⟨t, hexec, hkept.pending, hkept.out, hkept.log⟩

/-- Settles O6: a mailbox command takes its entry up as `takeUp` says, which for a bad entry makes the state `refused` and for one
that must wait leaves the state. -/
theorem badEntriesAreAnsweredWaitingOnesKept : Obligations.BadEntriesAreAnsweredWaitingOnesKept := by
  unfold Obligations.BadEntriesAreAnsweredWaitingOnesKept
  refine ⟨fun i s c e r hcmd hready hspace hmode hbad => ?_, fun i s c e hold hcmd hwait => ?_⟩
  · exact ⟨_, exec_refuses hcmd hready hspace hmode hbad, refused_answers hready r, only_refused c e r s,
      fun hr => only_refused_other hr c e s⟩
  · obtain ⟨act, hexec⟩ := exec_mailbox hcmd
    exact ⟨_, hexec, takeUp_waits act hwait⟩
end

section
/-! SUPPORT. Where the shared operations write host memory, and what a write to HBM leaves (12 R271, R276, R280, R281, 17 R391). -/

namespace Sys2Proof.Machine

/-! ### Lengths of what is written -/

@[simp] theorem length_leBytes (n v : Nat) : (leBytes n v).length = n := by
  induction n generalizing v with
  | zero => rfl
  | succ n ih => simp [leBytes, ih]

@[simp] theorem length_wordsBytes (l : List W128) : (wordsBytes l).length = 16 * l.length := by
  induction l with
  | nil => rfl
  | cons w t ih =>
    simp only [wordsBytes, wordBytes, List.length_append, length_leBytes, List.length_cons, ih]
    omega

theorem length_completionBytes (c : Completion) : c.bytes.length = 128 := by
  simp only [Completion.bytes, length_wordsBytes, List.length_append, List.length_cons, List.length_nil, List.length_replicate,
    List.length_take]
  omega

theorem length_eventBytes (r : EventRec) : r.bytes.length = 32 := by
  simp [EventRec.bytes, wordBytes]

/-! ### Bytes of memory after a write -/

theorem Memory.read_write_same (m : Memory) (a : Nat) (b : Byte) : Memory.read (Memory.write m a b) a = b := by
  unfold Memory.read Memory.write
  split
  case isTrue hzero => rw [tget_tdel_self, hzero, Option.getD_none]
  case isFalse => rw [tget_tput_self, Option.getD_some]

theorem Memory.read_writes_same (m : Memory) (a : Nat) {l : List Byte} {k : Nat} (hk : k < l.length) :
    Memory.read (Memory.writes m a l) (a + k) = l[k] := by
  induction l generalizing m a k with
  | nil => simp at hk
  | cons b t ih =>
    rw [Memory.writes]
    cases k with
    | zero => rw [Memory.read_writes_ne _ _ _ _ (by omega), Nat.add_zero, Memory.read_write_same, List.getElem_cons_zero]
    | succ j => rw [show a + (j + 1) = a + 1 + j by omega, ih _ _ (by simpa using hk), List.getElem_cons_succ]

theorem read_hbmWrite_ne {a c : Nat} {b : List Byte} (h : c < a ∨ a + b.length ≤ c) (s : State) :
    (hbmWrite a b s).hbmMem.read c = s.hbmMem.read c :=
  Memory.read_writes_ne _ _ _ _ (h.imp_right (le_trans (by rw [List.length_take]; omega)))

/-- A byte written inside HBM is the byte read; none exists beyond its end (17 R391). -/
theorem read_hbmWrite_at {a k : Nat} {b : List Byte} (hk : k < b.length) (hsize : a + k < hbmSize) (s : State) :
    (hbmWrite a b s).hbmMem.read (a + k) = b[k] := by
  have hlen : k < (b.take (hbmSize - a)).length := by
    rw [List.length_take]
    omega
  exact (Memory.read_writes_same _ _ hlen).trans List.getElem_take

theorem read_hostWrite {a b : Nat} {l : List Byte} (h : outside a b l.length) (s : State) :
    (hostWrite b l s).hostMem.read a = s.hostMem.read a :=
  Memory.read_writes_ne _ _ _ _ h

/-! ### Shadows and entries of a ring -/

/-- Address `a` is neither in the shadow of ring `i` nor in the entry of `n` bytes that the device writes next (12 R271, R275). -/
def ClearOf (a : Nat) (i : Fin 64) (n : Nat) (s : State) : Prop :=
  outside a (ring s i).shadow.toNat 4 ∧ outside a (entryAddr i.val (ring s i) (ring s i).devIdx) n

theorem ClearOf.of_ring {a n : Nat} {i : Fin 64} {s t : State} (h : ClearOf a i n s) (hring : ring t i = ring s i) :
    ClearOf a i n t := by
  unfold ClearOf
  rw [hring]
  exact h

theorem DeviceSide.shadow {s t : State} (h : DeviceSide s t) (j : Fin 64) : (ring t j).shadow = (ring s j).shadow := by
  obtain ⟨d, n, e⟩ := h.rings j
  rw [e]

theorem read_writeShadow {a : Nat} {i : Fin 64} {s : State} (h : outside a (ring s i).shadow.toNat 4) :
    (writeShadow i s).hostMem.read a = s.hostMem.read a := by
  unfold writeShadow
  rw [show (emit _ _).hostMem = _ from rfl]
  exact read_hostWrite (by rwa [length_leBytes]) s

theorem read_advance {a : Nat} {i : Fin 64} {s : State} (h : outside a (ring s i).shadow.toNat 4) :
    (advance i s).hostMem.read a = s.hostMem.read a := by
  unfold advance
  simp only [coalesce_parts]
  rw [read_writeShadow]
  · simp
  · rw [ring_of_win (s := setRing i { ring s i with devIdx := (ring s i).devIdx + 1 } s) (by simp), ring_setRing_same]
    exact h

theorem read_pushEntry {a : Nat} {i : Fin 64} {b : List Byte} {s : State} (h : ClearOf a i b.length s) :
    (pushEntry i b s).hostMem.read a = s.hostMem.read a := by
  obtain ⟨hshadow, hentry⟩ := h
  unfold pushEntry
  rw [read_advance (by rwa [ring_of_win (s := s) (by simp)])]
  exact read_hostWrite hentry s

theorem read_stopRing {a : Nat} {i : Fin 64} {s : State} (h : outside a (ring s i).shadow.toNat 4) :
    (stopRing i s).hostMem.read a = s.hostMem.read a := by
  unfold stopRing
  split
  · rw [read_writeShadow (by rwa [ring_setRing_same])]
    simp
  · rfl

/-! ### The answer to a mailbox entry -/

theorem deviceSide_complete (src : Src) (c : Completion) (s : State) : DeviceSide s (complete src c s) := by
  cases src with
  | mailbox m =>
    dsimp only [complete]
    split
    · exact .trans (.of_win (by simp)) (deviceSide_pushEntry _ _ _)
    · exact .of_win (by simp)
  | service =>
    dsimp only [complete]
    split <;> exact .of_win (by simp)

/-- A completion is written in the next entry of its mailbox's completion ring (12 R278, R280). -/
theorem read_complete {a : Nat} {m : Fin 8} {s : State} (h : ClearOf a (cplRing m) 128 s) (c : Completion) :
    (complete (.mailbox m) c s).hostMem.read a = s.hostMem.read a := by
  dsimp only [complete]
  split
  · rw [read_pushEntry (by rw [length_completionBytes]; exact h.of_ring (ring_of_win (by simp) _))]
    simp
  · simp

theorem read_finish {a : Nat} {m : Fin 8} {s : State} {w : Waiting} (hsrc : w.src = .mailbox m)
    (hcpl : ClearOf a (cplRing m) 128 s) (hsub : outside a (ring s (subRing m)).shadow.toNat 4) (status reason : Nat)
    (results : List W128) : (finish w status reason results s).hostMem.read a = s.hostMem.read a := by
  unfold finish
  simp only [hsrc]
  rw [read_stopRing, read_complete hcpl]
  rwa [(deviceSide_complete ..).shadow]

theorem subRing_ne_cplRing (m : Fin 8) : subRing m ≠ cplRing m := by
  simp [subRing, cplRing]

theorem read_consume {a : Nat} {m : Fin 8} {s : State} (h : outside a (ring s (subRing m)).shadow.toNat 4) :
    (consume (.mailbox m) s).hostMem.read a = s.hostMem.read a := by
  dsimp only [consume]
  rw [← read_advance h]
  simp

/-- Taking up an entry moves the submission ring and ends a stall of the completion ring (12 R280). -/
theorem ring_consume_cplRing (m : Fin 8) (s : State) :
    ring (consume (.mailbox m) s) (cplRing m) = { ring s (cplRing m) with stalled := false } := by
  dsimp only [consume]
  rw [ring_setRing_same, (onlyRing_advance (subRing m) s).others _ (subRing_ne_cplRing m).symm]

theorem shadow_consume_subRing (m : Fin 8) (s : State) :
    (ring (consume (.mailbox m) s) (subRing m)).shadow = (ring s (subRing m)).shadow := by
  dsimp only [consume]
  rw [ring_setRing_ne (subRing_ne_cplRing m), (deviceSide_advance ..).shadow]

/-- A bad entry is answered in the completion ring's entry and the two shadows of its mailbox, and nowhere else. -/
theorem read_refused {a : Nat} {m : Fin 8} {s : State} {c : Cmd} {e : Entry} {r : Nat × Nat} (hsrc : e.src = .mailbox m)
    (hr : r.2 ≠ 0x8000) (hsub : outside a (ring s (subRing m)).shadow.toNat 4) (hcpl : ClearOf a (cplRing m) 128 s) :
    (refused c e r s).hostMem.read a = s.hostMem.read a := by
  unfold refused
  rw [refuseInMode_other hr, hsrc, ← read_consume hsub]
  refine read_finish hsrc ?_ ?_ r.1 r.2 []
  · unfold ClearOf
    rw [ring_consume_cplRing]
    exact hcpl
  · rwa [shadow_consume_subRing]

/-! ### Events -/

@[simp] theorem sendMsix_rings (v : Nat) (s : State) : (sendMsix v s).win.rings = s.win.rings := by
  obtain ⟨p, h⟩ := sendMsix_win v s
  rw [h]

@[simp] theorem setFlag_rings (b : Fin 11) (s : State) : (setFlag b s).win.rings = s.win.rings := by
  unfold setFlag
  dsimp only
  split
  · rw [sendMsix_rings]
  · rfl

theorem onlyRing_eventToRing (i : Fin 64) (r : EventRec) (s : State) : OnlyRing i s (eventToRing i r s) := by
  unfold eventToRing
  dsimp only
  split
  · split
    · exact onlyRing_pushEntry i _ s
    · exact .of_rings (by simp)
  · exact .refl i s

theorem read_eventToRing {a : Nat} {i : Fin 64} {s : State} (h : ClearOf a i 32 s) (r : EventRec) :
    (eventToRing i r s).hostMem.read a = s.hostMem.read a := by
  unfold eventToRing
  dsimp only
  split
  · split
    · exact read_pushEntry (by rwa [length_eventBytes])
    · simp
  · rfl

theorem read_eventToRings {a : Nat} (r : EventRec) {l : List (Fin 64)} (hl : l.Nodup) {s : State}
    (h : ∀ i ∈ l, ClearOf a i 32 s) : (eventToRings r l s).hostMem.read a = s.hostMem.read a := by
  induction l generalizing s with
  | nil => rfl
  | cons i t ih =>
    obtain ⟨hi, ht⟩ := List.nodup_cons.mp hl
    rw [eventToRings, ih ht, read_eventToRing (h i List.mem_cons_self)]
    intro j hj
    have hne : j ≠ i := fun e => hi (e ▸ hj)
    exact (h j (List.mem_cons_of_mem i hj)).of_ring ((onlyRing_eventToRing i r s).others j hne)

/-- An event record is written in the next entries and the shadows of the event rings, and nowhere else (12 R281). -/
theorem read_recordEvent {a : Nat} {s : State} (h : ∀ i ∈ eventRings, ClearOf a i 32 s) (code : Nat) (d : Domain) (det : W128) :
    (recordEvent code d det s).hostMem.read a = s.hostMem.read a := by
  unfold recordEvent
  exact read_eventToRings _ (by decide) h

theorem read_raiseLimited {a : Nat} {s : State} (h : ∀ i ∈ eventRings, ClearOf a i 32 s) (key code : Nat) (d : Domain)
    (det : W128) : (raiseLimited key code d det s).hostMem.read a = s.hostMem.read a := by
  unfold raiseLimited
  dsimp only
  split
  · simp
  · rw [read_recordEvent fun i hi => (h i hi).of_ring (ring_of_win (by simp) i)]
    simp

end Sys2Proof.Machine
end

section
/-! PROOF. BAR4, and where the device writes host memory (12 R270, R271, R276, R281). -/

namespace Sys2Proof.Machine

/-! ### BAR4 (12 R270) -/

/-- The offset in HBM that an address of BAR4 reaches through the window (12 R270). -/
abbrev bar4Offset (s : State) (addr : BitVec 28) : Nat := 268435456 * s.win.window.toNat + addr.toNat

/-- The bytes of an access of `n` bytes that lie inside BAR4 (12 R270). -/
abbrev bar4Length (addr : BitVec 28) (n : Nat) : Nat := min n (268435456 - addr.toNat)

section
variable {s : State} (hrun : running s = true) (addr : BitVec 28) (len : Nat) (data : List Byte)
include hrun

theorem exec_bar4Write_refused (h : bar4Refused s (bar4Offset s addr) (bar4Length addr data.length) = true) :
    exec (.bar4Access addr true len data) s = .next (raise 0x0136 .host 0 s) := by
  change execBar4Access addr true len data s = _
  simp [execBar4Access, hrun, h]

theorem exec_bar4Read_refused (h : bar4Refused s (bar4Offset s addr) (bar4Length addr len) = true) :
    exec (.bar4Access addr false len data) s =
      .next (emit (.bar4Read (List.replicate (bar4Length addr len) 0)) (raise 0x0136 .host 0 s)) := by
  change execBar4Access addr false len data s = _
  simp [execBar4Access, hrun, h]

theorem exec_bar4Write (h : bar4Refused s (bar4Offset s addr) (bar4Length addr data.length) = false) :
    exec (.bar4Access addr true len data) s =
      .next (hbmWrite (bar4Offset s addr) (data.take (bar4Length addr data.length)) s) := by
  change execBar4Access addr true len data s = _
  simp [execBar4Access, hrun, h]

theorem exec_bar4Read (h : bar4Refused s (bar4Offset s addr) (bar4Length addr len) = false) :
    exec (.bar4Access addr false len data) s =
      .next (emit (.bar4Read (hbmRead s (bar4Offset s addr) (bar4Length addr len))) s) := by
  change execBar4Access addr false len data s = _
  simp [execBar4Access, hrun, h]

end

/-- The byte of a clipped list that a write inside the clip gives HBM. -/
theorem read_hbmWrite_take {a n k : Nat} {data : List Byte} (hk : k < data.length) (hn : k < n) (hsize : a + k < hbmSize)
    (s : State) : data[k]? = some ((hbmWrite a (data.take (min data.length n)) s).hbmMem.read (a + k)) := by
  have hlen : k < (data.take (min data.length n)).length := by
    rw [List.length_take]
    omega
  rw [read_hbmWrite_at hlen hsize, List.getElem_take, List.getElem?_eq_getElem hk]

/-! ### Reserved writes -/

/-- A write to a reserved address reaches host memory by its event alone; a device that does not run ignores it. -/
theorem winReservedWrite_read {a : Nat} {s : State} (h : ∀ i ∈ eventRings, ClearOf a i 32 s) (off : BitVec 24) (size : Nat) :
    Runs (.winReservedWrite off size) s fun t => t.hostMem.read a = s.hostMem.read a := by
  by_cases hrun : running s = true
  · exact ⟨_, exec_winReservedWrite hrun off size, read_raiseLimited h ..⟩
  · exact ⟨s, congrArg Host.Outcome.next (if_neg hrun), rfl⟩

theorem eventRings_range : ∀ i ∈ eventRings, 48 ≤ i.val ∧ i.val < 56 := by decide

end Sys2Proof.Machine

open Sys2Proof Sys2Proof.Machine

/-- Settles O44: a refused access is an event and, read, zeros; a write gives HBM its bytes in the window (`read_hbmWrite_take`). A
bad entry is answered in its mailbox's rings (`read_refused`), and a record goes to the event rings (`read_raiseLimited`). -/
theorem memoryIsWrittenWhereTold : Obligations.MemoryIsWrittenWhereTold := by
  unfold Obligations.MemoryIsWrittenWhereTold
  refine ⟨fun s addr len data hrun => ⟨fun h => ?_, fun h => ?_, fun h => ?_, fun h => ?_⟩,
    fun s a => ⟨fun i c e r m hcmd hsrc hready hspace hmode hbad hr hsub hshadow hentry => ?_, fun off size haway => ?_⟩⟩
  · exact ⟨_, exec_bar4Write_refused hrun addr len data h, raise_raises .., only_event_raise _ _ _ (.refl _ s)⟩
  · exact ⟨_, exec_bar4Read_refused hrun addr len data h, (emit_gives ..).sooner (kept_raise _ _ _ (.refl s)),
      (raise_raises ..).later (kept_emit _ (.refl _)), only_emit _ (by decide) (only_event_raise _ _ _ (.refl _ s))⟩
  · refine ⟨_, exec_bar4Write hrun addr len data h, fun a ha => ?_, fun k hk hwindow hsize => ?_,
      only_hbmWrite _ _ (by decide) (.refl _ s)⟩
    · exact read_hbmWrite_ne (by simpa using ha) s
    · exact read_hbmWrite_take hk hwindow hsize s
  · exact ⟨_, exec_bar4Read hrun addr len data h, emit_gives .., only_emit _ (by decide) (.refl _ s)⟩
  · exact ⟨_, exec_refuses hcmd hready hspace hmode hbad, read_refused hsrc hr hsub ⟨hshadow, hentry⟩⟩
  · refine winReservedWrite_read (fun i hi => ?_) off size
    obtain ⟨hlow, hhigh⟩ := eventRings_range i hi
    exact haway i hlow hhigh
end

section
/-! SUPPORT. The configuration word of a ring, and what enabling, stopping and a bus error make of the ring table (12 R273, R276,
R280, R281). -/

namespace Sys2Proof.Machine

/-! ### EN and LOG2N (12 R273) -/

/-- The low six bits of a configuration are EN and LOG2N as they are put. -/
theorem bitAt_withEn_low {k : Nat} (h : k < 6) (en : Bool) (n : Nat) (v : BitVec 64) :
    bitAt (withEn en n v) k = (b2n en + n * 2).testBit k := by
  have hk : k < 64 := by omega
  have hmask : (bits 0 6).testBit k = true := by simp [bits, Nat.testBit_two_pow_sub_one (n := 6), h]
  simp only [bitAt, withEn, BitVec.testBit_toNat, BitVec.getLsbD_or, BitVec.getLsbD_and, BitVec.getLsbD_not, BitVec.getLsbD_ofNat,
    hk, hmask, decide_true, Bool.true_and, Bool.not_true, Bool.and_false, Bool.false_or]

@[simp] theorem bitAt_withEn_zero (en : Bool) (n : Nat) (v : BitVec 64) : bitAt (withEn en n v) 0 = en := by
  rw [bitAt_withEn_low (by decide)]
  cases en <;> simp [b2n, Nat.testBit_zero]

theorem bitsNat_withEn {n : Nat} (h : n < 32) (en : Bool) (v : BitVec 64) : bitsNat (withEn en n v) 1 5 = n := by
  have hhalf : (b2n en + n * 2) / 2 = n := by cases en <;> simp [b2n, Nat.add_mul_div_right]
  apply Nat.eq_of_testBit_eq
  intro k
  have hbit : (bitsNat (withEn en n v) 1 5).testBit k = (decide (k < 5) && bitAt (withEn en n v) (k + 1)) := by
    rw [bitsNat, Nat.testBit_mod_two_pow, Nat.testBit_div_two_pow, bitAt]
  rw [hbit]
  by_cases hk : k < 5
  · rw [bitAt_withEn_low (by omega), Nat.testBit_succ, hhalf]
    simp [hk]
  · have hn : n < 2 ^ k := lt_of_lt_of_le h (Nat.pow_le_pow_right (by decide : 0 < 2) (by omega : 5 ≤ k))
    simp [hk, Nat.testBit_lt_two_pow hn]

theorem log2n_lt (r : Ring) : r.log2n < 32 := Nat.mod_lt _ (by decide)

/-! ### What an enabled ring takes up (12 R280, R281) -/

/-- From `s` to `t` ring `i` differs in its device index, coalescing count and FULL alone, and every other ring not at all. -/
structure TakesUp (i : Fin 64) (s t : State) : Prop where
  own : ∃ d n f, ring t i = { ring s i with devIdx := d, coal := n, full := f }
  others : ∀ j : Fin 64, j ≠ i → ring t j = ring s j

theorem TakesUp.of_rings {i : Fin 64} {s t : State} (h : t.win.rings = s.win.rings) : TakesUp i s t := by
  have e (j : Fin 64) : ring t j = ring s j := by simp only [ring, h]
  exact ⟨⟨_, _, _, e i⟩, fun j _ => e j⟩

theorem TakesUp.refl (i : Fin 64) (s : State) : TakesUp i s s := .of_rings rfl

theorem TakesUp.trans {i : Fin 64} {s t u : State} (h : TakesUp i s t) (k : TakesUp i t u) : TakesUp i s u := by
  obtain ⟨d, n, f, e⟩ := h.own
  obtain ⟨d', n', f', e'⟩ := k.own
  exact ⟨⟨d', n', f', by rw [e', e]⟩, fun j hj => (k.others j hj).trans (h.others j hj)⟩

theorem takesUp_pushEntry (i : Fin 64) (b : List Byte) (s : State) : TakesUp i s (pushEntry i b s) := by
  obtain ⟨d, n, e⟩ := (deviceSide_pushEntry i b s).rings i
  exact ⟨⟨d, n, _, e⟩, (onlyRing_pushEntry i b s).others⟩

theorem takesUp_setFull (i : Fin 64) (f : Bool) (s : State) : TakesUp i s (setRing i { ring s i with full := f } s) :=
  ⟨⟨_, _, f, ring_setRing_same ..⟩, fun _ hj => ring_setRing_ne hj ..⟩

theorem takesUp_drainResults (j : Fin 8) (n : Nat) (s : State) : TakesUp ⟨56 + j.val, by omega⟩ s (drainResults j n s) := by
  induction n generalizing s with
  | zero => exact .refl _ s
  | succ n ih =>
    unfold drainResults
    dsimp only
    split
    · exact takesUp_setFull ..
    · split
      · refine .trans ?_ ((takesUp_pushEntry _ _ _).trans (ih _))
        exact .of_rings rfl
      · exact takesUp_setFull ..

theorem takesUp_ringSpace (i : Fin 64) (s : State) : TakesUp i s (ringSpace i s) := by
  unfold ringSpace
  split
  case isTrue h =>
    have e : (⟨56 + i.val % 8, by omega⟩ : Fin 64) = i := Fin.ext (by simp only; omega)
    have k := takesUp_drainResults ⟨i.val % 8, by omega⟩ (s.win.resultWait[i.val % 8].length + 1) s
    rw [e] at k
    exact k
  case isFalse => exact .refl i s

theorem takesUp_flushKept (m : Nat) (i : Fin 64) (l : List (Nat × Completion)) (s : State) : TakesUp i s (flushKept m i l s) := by
  induction l generalizing s with
  | nil => exact .refl i s
  | cons x t ih =>
    rw [flushKept]
    refine .trans ?_ (ih _)
    split
    · exact takesUp_pushEntry ..
    · exact .refl i s

theorem takesUp_ringUp (i : Fin 64) (s : State) : TakesUp i s (ringUp i s) := by
  unfold ringUp
  split
  · split
    · refine .trans ?_ (takesUp_flushKept ..)
      exact .of_rings rfl
    · exact .refl i s
  · split
    · exact .of_rings rfl
    · exact takesUp_ringSpace i s

/-- A DMA, spore or event ring takes nothing up that moves an index. -/
theorem ring_ringUp {i : Fin 64} (hlow : 16 ≤ i.val) (hhigh : i.val < 56) (s : State) (j : Fin 64) :
    ring (ringUp i s) j = ring s j := by
  unfold ringUp
  rw [if_neg (by omega)]
  split
  · rfl
  · rw [ringSpace, if_neg (by omega)]

/-! ### A ring becomes ACTIVE, or the write that would make it so is refused (12 R276) -/

theorem DeviceSide.st {s t : State} (h : DeviceSide s t) (j : Fin 64) : (ring t j).st = (ring s j).st := by
  obtain ⟨d, n, e⟩ := h.rings j
  rw [e]

theorem DeviceSide.cfg {s t : State} (h : DeviceSide s t) (j : Fin 64) : (ring t j).cfg = (ring s j).cfg := by
  obtain ⟨d, n, e⟩ := h.rings j
  rw [e]

/-- A ring as it is when it becomes ACTIVE, before it takes anything up. -/
def Ring.activated (r : Ring) (cfg : BitVec 64) : Ring :=
  { r with cfg := cfg, devIdx := 0, hostIdx := 0, st := 1, full := false, coal := 0, stalled := false }

theorem ring_shadowed (i : Fin 64) (r : Ring) (s : State) (j : Fin 64) :
    ring (writeShadow i (setRing i r s)) j = ring (setRing i r s) j :=
  ring_of_win (by simp [writeShadow]) j

theorem activate_own (i : Fin 64) (cfg : BitVec 64) (s : State) :
    ∃ d n f, ring (activate i cfg s) i = { (ring s i).activated cfg with devIdx := d, coal := n, full := f } := by
  obtain ⟨d, n, f, e⟩ := (takesUp_ringUp i (writeShadow i (setRing i ((ring s i).activated cfg) s))).own
  rw [ring_shadowed, ring_setRing_same] at e
  exact ⟨d, n, f, e⟩

theorem activate_others (i : Fin 64) (cfg : BitVec 64) (s : State) {j : Fin 64} (hj : j ≠ i) :
    ring (activate i cfg s) j = ring s j := by
  refine ((takesUp_ringUp i (writeShadow i (setRing i ((ring s i).activated cfg) s))).others j hj).trans ?_
  rw [ring_shadowed, ring_setRing_ne hj]

theorem activate_devIdx {i : Fin 64} (hlow : 16 ≤ i.val) (hhigh : i.val < 56) (cfg : BitVec 64) (s : State) :
    (ring (activate i cfg s) i).devIdx = 0 := by
  have e := ring_ringUp hlow hhigh (writeShadow i (setRing i ((ring s i).activated cfg) s)) i
  rw [ring_shadowed, ring_setRing_same] at e
  exact congrArg Ring.devIdx e

theorem writeRingCfg_enables {s : State} {i : Fin 64} {v : BitVec 64} (hst : (ring s i).st = 0)
    (hok : enableOk s i (bitsNat v 1 5) = true) :
    writeRingCfg i true v s = activate i (withEn true (bitsNat v 1 5) (cfgFields i.val v)) s := by
  simp [writeRingCfg, hst, hok]

/-- A ring whose registers are sound is ACTIVE with its host index at 0, at its new size; the other rings stay. -/
theorem writeRingCfg_enables_effect {s : State} {i : Fin 64} {v : BitVec 64} (hst : (ring s i).st = 0)
    (hok : enableOk s i (bitsNat v 1 5) = true) :
    (ring (writeRingCfg i true v s) i).st = 1 ∧ (ring (writeRingCfg i true v s) i).hostIdx = 0 ∧
      (16 ≤ i.val → i.val < 56 → (ring (writeRingCfg i true v s) i).devIdx = 0) ∧
      (ring (writeRingCfg i true v s) i).log2n = bitsNat v 1 5 ∧
      ∀ j : Fin 64, j ≠ i → ring (writeRingCfg i true v s) j = ring s j := by
  rw [writeRingCfg_enables hst hok]
  obtain ⟨d, n, f, e⟩ := activate_own i (withEn true (bitsNat v 1 5) (cfgFields i.val v)) s
  refine ⟨by rw [e]; rfl, by rw [e]; rfl, fun hlow hhigh => activate_devIdx hlow hhigh _ s, ?_,
    fun j hj => activate_others i _ s hj⟩
  rw [e]
  exact bitsNat_withEn (Nat.mod_lt _ (by decide)) true _

/-- A ring whose registers are not sound stays DISABLED with EN 0, and the write is refused. -/
theorem writeRingCfg_refuses {s : State} {i : Fin 64} {v : BitVec 64} (hst : (ring s i).st = 0)
    (hbad : enableOk s i (bitsNat v 1 5) = false) :
    writeRingCfg i true v s = writeRefused (detail [du 8 i.val])
      (setRing i { ring s i with cfg := withEn false (bitsNat v 1 5) (cfgFields i.val v) } s) := by
  simp [writeRingCfg, hst, hbad]

theorem writeRingCfg_refuses_effect {s : State} {i : Fin 64} {v : BitVec 64} (hst : (ring s i).st = 0)
    (hbad : enableOk s i (bitsNat v 1 5) = false) :
    (ring (writeRingCfg i true v s) i).st = 0 ∧ bitAt (ring (writeRingCfg i true v s) i).cfg 0 = false ∧
      Raises 0x0131 (detail [du 8 i.val]) s (writeRingCfg i true v s) ∧ Only eventParts s (writeRingCfg i true v s) := by
  rw [writeRingCfg_refuses hst hbad]
  obtain ⟨hdev, hraise, -⟩ := writeRefused_effect (detail [du 8 i.val])
    (setRing i { ring s i with cfg := withEn false (bitsNat v 1 5) (cfgFields i.val v) } s)
  refine ⟨?_, ?_, hraise.sooner (kept_setRing _ _ (.refl s)), only_event_raise _ _ _ (only_event_setRing ..)⟩
  · rw [hdev.st, ring_setRing_same, hst]
  · rw [hdev.cfg, ring_setRing_same, bitAt_withEn_zero]

/-! ### A ring stops (12 R276) -/

theorem ringBusy_congr {s t : State} (hmb : t.mb = s.mb) (hdma : t.dma = s.dma) (i : Nat) : ringBusy t i = ringBusy s i := by
  simp only [ringBusy, hmb, hdma]

theorem ring_stopRing {s : State} {i : Fin 64} (h : (ring s i).st = 2) : ring (stopRing i s) i = { ring s i with st := 0 } := by
  rw [stopRing, if_pos h, ring_shadowed, ring_setRing_same]

/-- A ring that is to stop is STOPPING while it is busy, and DISABLED else. -/
theorem ring_stopping (i : Fin 64) (cfg : BitVec 64) (s : State) :
    ring (stopping i cfg s) i = { ring s i with cfg := cfg, st := if ringBusy s i.val = true then 2 else 0 } := by
  have hbusy : ringBusy (setRing i { ring s i with cfg := cfg, st := 2 } s) i.val = ringBusy s i.val :=
    ringBusy_congr (by simp) (by simp) i.val
  unfold stopping
  dsimp only
  rw [hbusy]
  split
  · rw [ring_setRing_same]
  · rw [ring_stopRing (by rw [ring_setRing_same]), ring_setRing_same]

theorem only_event_stopping (i : Fin 64) (cfg : BitVec 64) {s u : State} (h : Only eventParts s u) :
    Only eventParts s (stopping i cfg u) :=
  only_stopping i cfg (by decide) (by decide) (by decide) h

/-- A write of another LOG2N to an ACTIVE ring is refused, and the ring stops all the same with the LOG2N it has (12 R273). -/
theorem writeRingCfg_stops {s : State} {i : Fin 64} (hst : (ring s i).st = 1) (v : BitVec 64) :
    ∃ u, DeviceSide s u ∧ Only eventParts s u ∧
      writeRingCfg i false v s = stopping i (withEn false (ring s i).log2n (cfgFields i.val v)) u := by
  by_cases hn : bitsNat v 1 5 = (ring s i).log2n
  · exact ⟨s, .refl s, .refl _ s, by simp [writeRingCfg, hst, hn]⟩
  · obtain ⟨hdev, -, honly⟩ := writeRefused_effect (detail [du 8 i.val]) s
    exact ⟨_, hdev, honly, by simp [writeRingCfg, hst, hn]⟩

theorem writeRingCfg_stops_effect {s : State} {i : Fin 64} (hst : (ring s i).st = 1) (v : BitVec 64) :
    (ring (writeRingCfg i false v s) i).st = (if ringBusy s i.val = true then 2 else 0) ∧
      bitAt (ring (writeRingCfg i false v s) i).cfg 0 = false ∧
      (ring (writeRingCfg i false v s) i).log2n = (ring s i).log2n ∧ Only eventParts s (writeRingCfg i false v s) := by
  obtain ⟨u, -, honly, e⟩ := writeRingCfg_stops hst v
  have hbusy : ringBusy u i.val = ringBusy s i.val := ringBusy_congr (honly.mb (by decide)) (honly.dma (by decide)) i.val
  rw [e, ring_stopping, hbusy]
  exact ⟨rfl, bitAt_withEn_zero .., bitsNat_withEn (log2n_lt _) .., only_event_stopping i _ honly⟩

/-! ### A bus error (12 R276) -/

/-- A message leaves the flags of WIN_STATUS. -/
theorem sendMsix_status (v : Nat) (s : State) : (sendMsix v s).win.status = s.win.status := by
  obtain ⟨p, h⟩ := sendMsix_win v s
  rw [h]

theorem setFlag_status (b : Fin 11) (s : State) :
    (setFlag b s).win.status = s.win.status ||| BitVec.ofNat 11 (2 ^ b.val) := by
  unfold setFlag
  dsimp only
  split
  · rw [sendMsix_status]
  · rfl

theorem bitAt_setFlag (b : Fin 11) (s : State) : bitAt (setFlag b s).win.status b.val = true := by
  rw [setFlag_status]
  simp only [bitAt, BitVec.testBit_toNat, BitVec.getLsbD_or, BitVec.getLsbD_ofNat, b.isLt, Nat.testBit_two_pow_self, decide_true,
    Bool.true_and, Bool.or_true]

/-- The state after a bus error on ring `i` (12 R268, R276). -/
def ringFailed (i : Fin 64) (addr : BitVec 64) (s : State) : State :=
  setFlag 8 (raise 0x0133 .host (detail [du 8 i.val]) (setRing i { ring s i with st := 3, busErr := true, errAddr := addr } s))

theorem ring_ringFailed (i : Fin 64) (addr : BitVec 64) (s : State) :
    ∃ d n, ring (ringFailed i addr s) i =
      { ring s i with st := 3, busErr := true, errAddr := addr, devIdx := d, coal := n } := by
  have hraised := deviceSide_raise 0x0133 .host (detail [du 8 i.val])
    (setRing i { ring s i with st := 3, busErr := true, errAddr := addr } s)
  obtain ⟨d, n, e⟩ := (hraised.trans (deviceSide_setFlag 8 _)).rings i
  rw [ring_setRing_same] at e
  exact ⟨d, n, e⟩

theorem ringFailed_raises (i : Fin 64) (addr : BitVec 64) (s : State) :
    Raises 0x0133 (detail [du 8 i.val]) s (ringFailed i addr s) :=
  ((raise_raises ..).sooner (kept_setRing _ _ (.refl s))).later (kept_setFlag 8 (.refl _))

theorem only_event_ringFailed (i : Fin 64) (addr : BitVec 64) (s : State) : Only eventParts s (ringFailed i addr s) :=
  only_setFlag 8 (by decide) (by decide) (by decide) (only_event_raise _ _ _ (only_event_setRing ..))

end Sys2Proof.Machine
end

section
/-! PROOF. Rings enabled, disabled and failing, and MSI-X messages (12 R273, R276, R283). -/

namespace Sys2Proof.Machine

/-! ### The commands of a running device -/

section
variable {s : State} (hrun : running s = true)
include hrun

theorem exec_ringEnable (i : Fin 64) (v : BitVec 64) : exec (.ringEnable i v) s = .next (writeRingCfg i true v s) :=
  congrArg Host.Outcome.next (if_pos hrun)

theorem exec_ringDisable (i : Fin 64) (v : BitVec 64) : exec (.ringDisable i v) s = .next (writeRingCfg i false v s) :=
  congrArg Host.Outcome.next (if_pos hrun)

theorem exec_ringBusError {i : Fin 64} (h : (ring s i).st = 1 ∨ (ring s i).st = 2) (addr : BitVec 64) :
    exec (.ringBusError i addr) s = .next (ringFailed i addr s) :=
  congrArg Host.Outcome.next (if_pos ⟨hrun, h⟩)

theorem exec_msixCoalesceTimeout {i : Fin 64} (hcoal : bitAt (ring s i).cfg 12 = true) (hopen : (ring s i).coal ≠ 0) :
    exec (.msixCoalesceTimeout i) s = .next (sendMsix (ring s i).vec (setRing i { ring s i with coal := 0 } s)) :=
  congrArg Host.Outcome.next (if_pos ⟨hrun, hcoal, hopen⟩)

end

/-! ### Messages (12 R283) -/

/-- The message of a vector that is not masked is sent at once. -/
theorem sendMsix_gives {v : Nat} (h : v < 64) {s : State} (hmask : bitAt (s.win.msix[v]) 96 = false) :
    Gives (.msix v) s (sendMsix v s) := by
  rw [sendMsix, dif_pos h, if_neg (ne_true_of_eq_false hmask)]
  exact (emit_gives (.msix v) s).later (kept_stat _ (.refl _))

/-- The message of a vector that is not masked leaves the window. -/
theorem sendMsix_win_unmasked {v : Nat} (h : v < 64) {s : State} (hmask : bitAt (s.win.msix[v]) 96 = false) :
    (sendMsix v s).win = s.win := by
  rw [sendMsix, dif_pos h, if_neg (ne_true_of_eq_false hmask)]
  simp

theorem only_msix_sendMsix (v : Nat) {s u : State} (h : Only [.out, .win, .stats] s u) :
    Only [.out, .win, .stats] s (sendMsix v u) :=
  only_sendMsix v (by decide) (by decide) (by decide) h

/-- The table with the mask bit of vector `v` cleared (12 R282). -/
def unmasked (v : Fin 64) (s : State) : State :=
  { s with win := { s.win with msix := s.win.msix.set v.val (s.win.msix[v] &&& ~~~(BitVec.ofNat 128 (2 ^ 96))) } }

/-- A bit cleared by its mask is clear. -/
theorem bitAt_clear {w k : Nat} (x : BitVec w) (h : k < w) : bitAt (x &&& ~~~(BitVec.ofNat w (2 ^ k))) k = false := by
  simp only [bitAt, BitVec.testBit_toNat, BitVec.getLsbD_and, BitVec.getLsbD_not, BitVec.getLsbD_ofNat, h, decide_true,
    Nat.testBit_two_pow_self, Bool.true_and, Bool.not_true, Bool.and_false]

theorem bitAt_unmasked (v : Fin 64) (s : State) : bitAt ((unmasked v s).win.msix[v]) 96 = false := by
  unfold unmasked
  simp only [Fin.getElem_fin, Vector.getElem_set_self]
  exact bitAt_clear _ (by decide)

theorem exec_msixVectorUnmask {s : State} (hrun : running s = true) (v : Fin 64) :
    exec (.msixVectorUnmask v) s = .next (sendPending v (unmasked v s)) :=
  congrArg Host.Outcome.next (if_pos hrun)

/-- The pending bit of vector `v` cleared (12 R283). -/
def pendingCleared (v : Fin 64) (s : State) : State :=
  { s with win := { s.win with pba := s.win.pba &&& ~~~(BitVec.ofNat 64 (2 ^ v.val)) } }

theorem sendPending_sends {v : Fin 64} {s : State} (hpending : bitAt s.win.pba v.val = true)
    (hmask : bitAt (s.win.msix[v]) 96 = false) : sendPending v s = sendMsix v.val (pendingCleared v s) := by
  have hsend : (bitAt s.win.pba v.val && !bitAt s.win.msix[v] 96) = true := by rw [hpending, hmask]; rfl
  exact if_pos hsend

theorem sendPending_idle {v : Fin 64} {s : State} (hidle : bitAt s.win.pba v.val = false) : sendPending v s = s := by
  simp [sendPending, hidle]

/-- With its mask gone a vector sends the message that was pending, and none pends any longer. -/
theorem sendPending_effect {v : Fin 64} {s : State} (hmask : bitAt (s.win.msix[v]) 96 = false) :
    (sendPending v s).win.msix = s.win.msix ∧ bitAt (sendPending v s).win.pba v.val = false ∧
      (sendPending v s).win.rings = s.win.rings ∧ (bitAt s.win.pba v.val = true → Gives (.msix v.val) s (sendPending v s)) ∧
      Only [.out, .win, .stats] s (sendPending v s) := by
  cases hpending : bitAt s.win.pba v.val with
  | true =>
    rw [sendPending_sends hpending hmask, sendMsix_win_unmasked (s := pendingCleared v s) v.isLt hmask]
    exact ⟨rfl, bitAt_clear _ v.isLt, rfl,
      fun _ => (sendMsix_gives (s := pendingCleared v s) v.isLt hmask).sooner ((Kept.refl s).set_win _),
      only_msix_sendMsix _ ((Only.refl _ s).set_win _ (by decide))⟩
  | false =>
    rw [sendPending_idle hpending]
    exact ⟨rfl, hpending, rfl, fun h => absurd h (by decide), .refl _ s⟩

end Sys2Proof.Machine

open Sys2Proof Sys2Proof.Machine

/-- Settles O45: a write of WIN_RING_CFG enables, refuses or stops (the three effects of `writeRingCfg`), a bus error makes the
state `ringFailed`, and messages leave the ring table (`sendMsix_rings`). -/
theorem ringsChangeState : Obligations.RingsChangeState := by
  unfold Obligations.RingsChangeState
  intro s i hrun
  refine ⟨fun v hst => ⟨fun hok => ?_, fun hbad => ?_⟩, fun v hst => ?_, fun addr hst => ?_, ?_, fun hcoal hopen => ?_⟩
  · exact ⟨_, exec_ringEnable hrun i v, writeRingCfg_enables_effect hst hok⟩
  · exact ⟨_, exec_ringEnable hrun i v, writeRingCfg_refuses_effect hst hbad⟩
  · exact ⟨_, exec_ringDisable hrun i v, writeRingCfg_stops_effect hst v⟩
  · obtain ⟨d, n, e⟩ := ring_ringFailed i addr s
    exact ⟨_, exec_ringBusError hrun hst addr, by rw [e], by rw [e], by rw [e], bitAt_setFlag 8 _, ringFailed_raises i addr s,
      only_event_ringFailed i addr s⟩
  · obtain ⟨hmsix, hpba, hrings, hgives, honly⟩ := sendPending_effect (bitAt_unmasked i s)
    exact ⟨_, exec_msixVectorUnmask hrun i, by rw [hmsix]; exact bitAt_unmasked i s, hpba, hrings,
      fun h => (hgives h).sooner ((Kept.refl s).set_win _), .trans ((Only.refl _ s).set_win _ (by decide)) honly⟩
  · refine ⟨_, exec_msixCoalesceTimeout hrun hcoal hopen, ?_, fun j hj => ?_, fun h hmask => ?_, ?_⟩
    · rw [ring_sendMsix, ring_setRing_same]
    · rw [ring_sendMsix, ring_setRing_ne hj]
    · exact (sendMsix_gives (s := setRing i { ring s i with coal := 0 } s) h hmask).sooner (kept_setRing _ _ (.refl s))
    · exact only_msix_sendMsix _ (only_setRing i _ (by decide) (.refl _ s))
end

section
/-! SUPPORT. Commands that answer, raise events or wait, in a frame of theirs; the aperture; messages of the persistent log
(12 R279-R281, 13 R299). -/

namespace Sys2Proof.Machine

/-! ### Frames -/

section
variable {fr : List Block} {s u : State}

/-- A frame with the parts of an answer holds after an entry is taken up (12 R280). -/
theorem only_consume_self (hfr : ∀ b, b ∈ answerParts → b ∈ fr) (src : Src) (s : State) : Only fr s (consume src s) :=
  (only_consume (fr := answerParts) src (by decide) (by decide) (by decide) (by decide) (.refl _ s)).mono hfr

/-- It holds after the answer (12 R280). -/
theorem Only.finished (h : Only fr s u) (hfr : ∀ b, b ∈ answerParts → b ∈ fr) (w : Waiting) (status reason : Nat)
    (results : List W128) : Only fr s (finish w status reason results u) :=
  h.trans ((only_finish (fr := answerParts) w status reason results (by decide) (by decide) (by decide) (by decide) (by decide)
    (by decide) (.refl _ u)).mono hfr)

/-- A frame with the parts of an event holds after one (12 R281). -/
theorem Only.raised (h : Only fr s u) (hfr : ∀ b, b ∈ eventParts → b ∈ fr) (code : Nat) (d : Domain) (det : W128) :
    Only fr s (raise code d det u) :=
  h.trans ((only_event_raise code d det (.refl _ u)).mono hfr)

end

/-! ### The persistent log -/

/-- An event adds to the log of NOR, and leaves the stored configuration (12 R281, 13 R304). -/
@[simp] theorem raise_store (code : Nat) (d : Domain) (det : W128) (s : State) :
    (raise code d det s).nor.store = s.nor.store := by
  simp [raise, recordEvent]

theorem Raises.finished {code : Nat} {det : W128} {s u : State} (h : Raises code det s u) (w : Waiting) (status reason : Nat)
    (results : List W128) : Raises code det s (finish w status reason results u) :=
  h.later (kept_finish _ _ _ _ (.refl _))

/-! ### The aperture (13 R299) -/

theorem mapAperture_aper (object : Nat) (b : List Byte) (s : State) :
    (mapAperture object b s).aper = { object := BitVec.ofNat 32 object, bytes := b, gen := s.aper.gen + 1 } := rfl

theorem mapAperture_gives (object : Nat) (b : List Byte) (s : State) : Gives (.mappedBytes b) s (mapAperture object b s) :=
  (emit_gives _ _).sooner ((Kept.refl s).set_aper _)

/-- The aperture once the mapping has been answered (13 R299). -/
theorem mapAperture_answer_aper (w : Waiting) (status reason : Nat) (results : List W128) (object : Nat) (b : List Byte)
    (src : Src) (s : State) : (finish w status reason results (mapAperture object b (consume src s))).aper =
      { object := BitVec.ofNat 32 object, bytes := b, gen := s.aper.gen + 1 } := by
  simp [mapAperture_aper]

/-- Mapping, then answering: the frame of DEV_READBACK and DIAG_COUNTERS (13 R299, R323). -/
theorem only_mapAperture_answer (object : Nat) (b : List Byte) (src : Src) (s : State) :
    Only (.aper :: answerParts) s (mapAperture object b (consume src s)) :=
  only_mapAperture object b (by decide) (by decide) (only_consume_self (by decide) src s)

end Sys2Proof.Machine
end

section
/-! PROOF. DEV_IDENTIFY, DEV_GET_STATUS, DEV_SET_MODE, DEV_RESET and DEV_READBACK (13 R296-R300, 19 R422, R430). -/

namespace Sys2Proof.Machine

/-! ### DEV_IDENTIFY and DEV_GET_STATUS -/

/-- DEV_IDENTIFY answers with the identity and touches nothing else (13 R296). -/
theorem devIdentify_answers {e : Entry} {s : State} (hstart : Starts cmdDevIdentify e s) :
    Runs (.devIdentify e) s fun t =>
      Answers cmdDevIdentify e stOk 0 (identityWords (consume e.src s)) s t ∧ Only answerParts s t :=
  ⟨_, congrArg Host.Outcome.next (takeUp_starts hstart rfl), answered_only hstart ..⟩

/-- DEV_GET_STATUS answers with the status and touches nothing else (13 R298). -/
theorem devGetStatus_answers {e : Entry} {s : State} (hstart : Starts cmdDevGetStatus e s) :
    Runs (.devGetStatus e) s fun t =>
      Answers cmdDevGetStatus e stOk 0 (statusWords (consume e.src s)) s t ∧ Only answerParts s t :=
  ⟨_, congrArg Host.Outcome.next (takeUp_starts hstart rfl), answered_only hstart ..⟩

/-! ### DEV_SET_MODE -/

/-- The present mode is answered at once (13 R297). -/
theorem setModeAnswer_present {s : State} {m : Mode} {n : Nat} (hidle : s.pm.changing = false) (hcode : Mode.ofCode n = some m)
    (hm : m = s.pm.mode) : setModeAnswer s n = some (stOk, 0, modeWords m m 0) := by
  simp [setModeAnswer, hidle, hcode, hm]

/-- A mode that the table of transitions has after the present one is not answered yet (13 R297, 19 R422). -/
theorem setModeAnswer_follows {s : State} {m : Mode} {n : Nat} {l : List Nat} (hidle : s.pm.changing = false)
    (hcode : Mode.ofCode n = some m) (hm : m ≠ s.pm.mode) (hpre : modePre s.pm.mode m = some l) : setModeAnswer s n = none := by
  simp [setModeAnswer, hidle, hcode, hm, hpre]

/-- The state in which the change to `m` is under way (19 R422). -/
def changeBegun (m : Mode) (trigger : Nat) (s : State) : State :=
  { s with pm := { s.pm with
      changing := true, target := m, trigger := trigger, claimWait := m == .expose || s.pm.mode == .expose } }

/-- A change whose conditions all hold is under way, and at most claims or releases its port (19 R422, R423). -/
theorem beginChange_begins {s : State} {m : Mode} {l : List Nat} (hpre : modePre s.pm.mode m = some l)
    (hall : ∀ r ∈ l, preHolds s m r = true) (trigger : Nat) :
    Only [.out, .link, .stats] (changeBegun m trigger s) (beginChange m trigger s) := by
  have hnone : l.find? (fun r => !preHolds s m r) = none :=
    List.find?_eq_none.mpr fun r hr => by simp [hall r hr]
  unfold beginChange
  simp only [hpre, Option.bind_some, hnone]
  split
  · exact only_sendClaim _ (by decide) (by decide) (by decide) (.refl _ _)
  · split
    · exact only_sendRelease (by decide) (by decide) (by decide) (.refl _ _)
    · exact .refl _ _

/-- The conditions of a change read neither the rings nor the commands that run (19 R423). -/
theorem preHolds_wait_consume (w : Waiting) (on : WaitOn) (src : Src) (s : State) (m : Mode) (r : Nat) :
    preHolds (wait w on (consume src s)) m r = preHolds s m r := by
  simp [preHolds, scanHolder, running]

section
variable {e : Entry} {s : State} {m : Mode} (hstart : Starts cmdDevSetMode e s) (hidle : s.pm.changing = false)
  (halone : s.mb.running = []) (hcode : Mode.ofCode (bitsNat (Entry.arg e 0) 0 4) = some m)
include hstart hidle halone hcode

/-- DEV_SET_MODE to the present mode completes at once (13 R297). -/
theorem devSetMode_present (hm : m = s.pm.mode) :
    Runs (.devSetMode e) s fun t => Answers cmdDevSetMode e stOk 0 (modeWords m m 0) s t ∧ Only answerParts s t := by
  have hanswer : setModeAnswer (consume e.src s) (bitsNat (Entry.arg e 0) 0 4) = some (stOk, 0, modeWords m m 0) :=
    setModeAnswer_present (by simpa using hidle) hcode (by simpa using hm)
  have hexec : exec (.devSetMode e) s =
      .next (finish (started cmdDevSetMode e .loopback s) stOk 0 (modeWords m m 0) (consume e.src s)) := by
    refine congrArg Host.Outcome.next ((takeUp_starts hstart (by simp [halone])).trans ?_)
    simp only [hanswer]
  exact ⟨_, hexec, answered_only hstart ..⟩

/-- DEV_SET_MODE to a mode that may follow, with every condition met, begins the change and waits for it (13 R297, 19 R422). -/
theorem devSetMode_begins {l : List Nat} (hm : m ≠ s.pm.mode) (hpre : modePre s.pm.mode m = some l)
    (hall : ∀ r ∈ l, preHolds s m r = true) :
    Runs (.devSetMode e) s fun t =>
      t.pm.changing = true ∧ t.pm.target = m ∧ t.pm.mode = s.pm.mode ∧
        started cmdDevSetMode e (.modeChange s.pm.mode) s ∈ t.mb.running ∧
        Only [.out, .win, .mb, .stats, .hostMem, .pm, .link] s t := by
  have hpm : (consume e.src s).pm = s.pm := by simp
  have hanswer : setModeAnswer (consume e.src s) (bitsNat (Entry.arg e 0) 0 4) = none :=
    setModeAnswer_follows (by simpa using hidle) hcode (by simpa using hm) (l := l) (by simpa using hpre)
  generalize hv : wait (started cmdDevSetMode e .loopback s) (.modeChange s.pm.mode) (consume e.src s) = v
  have hexec : exec (.devSetMode e) s = .next (beginChange m 1 v) := by
    refine congrArg Host.Outcome.next ((takeUp_starts hstart (by simp [halone])).trans ?_)
    simp only [hanswer, hcode, Option.getD_some, hpm, hv]
  have hvpm : v.pm = s.pm := by simp [← hv]
  have hframe : Only [.out, .win, .mb, .stats, .hostMem, .pm, .link] s (changeBegun m 1 v) := by
    rw [← hv]
    refine Only.set_pm (only_wait _ _ (by decide) ?_) _ (by decide)
    exact only_consume _ (by decide) (by decide) (by decide) (by decide) (.refl _ s)
  have hbegun : Only [.out, .link, .stats] (changeBegun m 1 v) (beginChange m 1 v) :=
    beginChange_begins (by rwa [hvpm]) (fun r hr => by rw [← hv, preHolds_wait_consume]; exact hall r hr) 1
  have hbegunPm := hbegun.pm (by decide)
  refine ⟨_, hexec, by rw [hbegunPm]; rfl, by rw [hbegunPm]; rfl, ?_, ?_, hframe.trans (hbegun.mono (by decide))⟩
  · rw [hbegunPm]
    change v.pm.mode = s.pm.mode
    rw [hvpm]
  · rw [hbegun.mb (by decide)]
    change _ ∈ v.mb.running
    rw [← hv]
    exact started_mem_wait ..

end

/-! ### DEV_RESET -/

theorem resetBad_consume (src : Src) (s : State) (kind confirm : Nat) (force : Bool) :
    resetBad (consume src s) kind confirm force = resetBad s kind confirm force := by
  simp [resetBad, stripeActive]

/-- DEV_RESET that nothing refuses is answered, tells of the reset and leaves it to come (13 R300, 19 R430). -/
theorem devReset_accepts {e : Entry} {s : State} (hstart : Starts cmdDevReset e s)
    (hok : resetBad s (bitsNat (Entry.arg e 0) 0 4) (bitsNat (Entry.arg e 0) 8 8) (bitAt (Entry.arg e 0) 16) = none) :
    Runs (.devReset e) s fun t => Answers cmdDevReset e stOk 0 [] s t ∧ Raises 0x0111 0 s t ∧
      t.pm.commandedReset = some (bitsNat (Entry.arg e 0) 0 4) ∧ Only (.pm :: (answerParts ++ eventParts)) s t := by
  generalize hu : raise 0x0111 .ctrl 0 (finish (started cmdDevReset e .loopback s) stOk 0 [] (consume e.src s)) = u
  have hexec : exec (.devReset e) s =
      .next { u with pm := { u.pm with commandedReset := some (bitsNat (Entry.arg e 0) 0 4) } } := by
    refine congrArg Host.Outcome.next ((takeUp_starts hstart rfl).trans ?_)
    simp only [resetBad_consume, hok, hu]
  obtain ⟨hanswer, honly⟩ := answered_only hstart .loopback stOk 0 []
  have hkept : Kept s (finish (started cmdDevReset e .loopback s) stOk 0 [] (consume e.src s)) :=
    kept_finish _ _ _ _ (kept_consume _ (.refl s))
  have hlater : Kept u { u with pm := { u.pm with commandedReset := some (bitsNat (Entry.arg e 0) 0 4) } } :=
    (Kept.refl u).set_pm _
  refine ⟨_, hexec, Answers.later ?_ hlater, Raises.later ?_ hlater, rfl, Only.set_pm ?_ _ (by decide)⟩ <;> rw [← hu]
  · exact hanswer.later (kept_raise _ _ _ (.refl _))
  · exact (raise_raises ..).sooner hkept
  · exact (honly.mono (by decide)).raised (by decide) ..

/-! ### DEV_READBACK -/

/-- The words that answer a readback of `b` (13 R299). -/
def readbackWords (obj size : Nat) (b : List Byte) (gen : BitVec 32) : List W128 :=
  [word [(0, 32, obj), (32, 32, b.length), (64, 64, size)], word [(0, 32, gen.toNat), (32, 32, (crc32c b).toNat)]]

/-- To a mailbox the bytes of an object whose layout is given are mapped into the aperture (13 R299). -/
theorem giveReadback_maps {w : Waiting} {obj : Nat} (hsrc : w.src ≠ .service) (hclosed : openObject obj = false) (size : Nat)
    (b : List Byte) (s : State) : giveReadback w obj size b s =
      finish w stOk 0 (readbackWords obj size b (s.aper.gen + 1)) (mapAperture obj b s) := by
  simp only [giveReadback, hclosed, hsrc, if_false, Bool.false_eq_true]
  rfl

/-- DEV_READBACK gives the bytes asked for, mapped, with their CRC-32C (13 R299). -/
theorem devReadback_maps {e : Entry} {s : State} {size : Nat} {f : Nat → Nat → List Byte} {obj len off : Nat} {b : List Byte}
    (hobj : obj = bitsNat (Entry.arg e 0) 0 32) (hlen : len = bitsNat (Entry.arg e 0) 32 32)
    (hoff : off = bitsNat (Entry.arg e 0) 64 64) (hstart : Starts cmdDevReadback e s) (hsrc : e.src ≠ .service)
    (hfound : objectBytes (consume e.src s) obj = .ok (size, f)) (hclosed : openObject obj = false) (hoff16 : off % 16 = 0)
    (hlen16 : len % 16 = 0) (hinside : off < size) (hb : b = f off (mapLength size off len)) :
    Runs (.devReadback e) s fun t => t.aper.bytes = b ∧ t.aper.gen = s.aper.gen + 1 ∧ Gives (.mappedBytes b) s t ∧
      Answers cmdDevReadback e stOk 0 (readbackWords obj size b t.aper.gen) s t ∧ Only (.aper :: answerParts) s t := by
  have hgen : (consume e.src s).aper.gen = s.aper.gen := by simp
  have hexec : exec (.devReadback e) s = .next (finish (started cmdDevReadback e .loopback s) stOk 0
      (readbackWords obj size b (s.aper.gen + 1)) (mapAperture obj b (consume e.src s))) := by
    have hin : ¬ (off % 16 ≠ 0 ∨ len % 16 ≠ 0 ∨ size ≤ off) := by omega
    refine congrArg Host.Outcome.next ((takeUp_starts hstart rfl).trans ?_)
    simp only [← hobj, ← hlen, ← hoff, hfound, if_neg hin, ← hb]
    rw [giveReadback_maps hsrc hclosed, hgen]
  have hkept : Kept s (mapAperture obj b (consume e.src s)) := kept_mapAperture _ _ (kept_consume _ (.refl s))
  refine ⟨_, hexec, by rw [mapAperture_answer_aper], by rw [mapAperture_answer_aper], ?_, ?_,
    (only_mapAperture_answer ..).finished (by decide) ..⟩
  · exact ((mapAperture_gives ..).sooner (kept_consume _ (.refl s))).later (kept_finish _ _ _ _ (.refl _))
  · rw [mapAperture_answer_aper]
    exact answered hstart hkept rfl

end Sys2Proof.Machine

open Sys2Proof Sys2Proof.Machine

/-- Settles O8: a command that only answers touches `answerParts` (`answered_only`); a change of mode begins as `changeBegun`; a
reset is answered before its event; a readback is `mapAperture` and an answer. -/
theorem statusModesAndReadbackAreServed : Obligations.StatusModesAndReadbackAreServed := by
  unfold Obligations.StatusModesAndReadbackAreServed
  refine ⟨fun e s => ⟨devIdentify_answers, devGetStatus_answers⟩, fun e s m hstart hidle halone hcode => ⟨fun hm => ?_,
    fun l hm hpre hall => ?_⟩, fun e s => ⟨devReset_accepts,
    fun size f b hstart hsrc hfound hclosed hoff hlen hinside hb => ?_⟩⟩
  · exact devSetMode_present hstart hidle halone hcode hm
  · exact devSetMode_begins hstart hidle halone hcode hm hpre hall
  · exact devReadback_maps rfl rfl rfl hstart hsrc hfound hclosed hoff hlen hinside hb
end

section
/-! PROOF. CFG_SET of items that act at once, CFG_GET and CFG_COMMIT (13 R301-R304). -/

namespace Sys2Proof.Machine

/-! ### Values within the defined bits of their item -/

/-- A word without bits outside the lowest `n` is below 2 ^ n. -/
theorem toNat_lt_of_maskOk {n : Nat} {v : W128} (h : maskOk (bits 0 n) v = true) : v.toNat < 2 ^ n := by
  have hmask : v &&& ~~~(BitVec.ofNat 128 (2 ^ n - 1)) = 0 := by simpa [maskOk, bits] using h
  refine Nat.lt_pow_two_of_testBit _ fun i hi => ?_
  rw [BitVec.testBit_toNat]
  by_cases h128 : i < 128
  · have hbit : (v &&& ~~~(BitVec.ofNat 128 (2 ^ n - 1))).getLsbD i = false := by
      rw [hmask]
      exact BitVec.getLsbD_zero
    rw [BitVec.getLsbD_and, BitVec.getLsbD_not, BitVec.getLsbD_ofNat, Nat.testBit_two_pow_sub_one] at hbit
    simpa [h128, Nat.not_lt.mpr hi] using hbit
  · exact BitVec.getLsbD_of_ge v i (Nat.not_lt.mp h128)

/-- Such a word is its lowest `n` bits, read as a number. -/
theorem ofNat_bitsNat {n : Nat} {v : W128} (h : v.toNat < 2 ^ n) : BitVec.ofNat 128 (bitsNat v 0 n) = v := by
  simp [bitsNat, Nat.mod_eq_of_lt h]

/-- Such a word is its lowest `n` bits, widened. -/
theorem setWidth_bitsOf {n : Nat} {v : W128} (h : v.toNat < 2 ^ n) : (bitsOf v 0 n).setWidth 128 = v := by
  apply BitVec.eq_of_toNat_eq
  simp [bitsOf, Nat.mod_eq_of_lt h, Nat.mod_eq_of_lt v.isLt]

theorem getElem?_vset {α : Type} {n i : Nat} (h : i < n) (v : Vector α n) (x : α) : (vset v i x)[i]? = some x := by
  simp [vset, h]

/-! ### Items that act at once or at the next use (13 R302) -/

/-- The items with an inline value that waits for nothing and moves nothing else (13 R302). -/
def plainItems : List Nat := [0x30, 0x41, 0x42, 0x43, 0x44, 0x45, 0x46, 0x47, 0x50, 0x60, 0x61]

/-- The value put is the value read, where it has defined bits alone (13 R302, R303). -/
theorem word_put {item idx : Nat} {v : W128} (hitem : item ∈ plainItems) (hknown : itemKnown item idx = true)
    (hmask : maskOk (itemMask item v) v = true) (a : CfgItems) : (a.put item idx v).word item idx = v := by
  have hlt (n : Nat) (h : itemMask item v = bits 0 n) : v.toNat < 2 ^ n := toNat_lt_of_maskOk (h ▸ hmask)
  simp only [plainItems, List.mem_cons, List.not_mem_nil, or_false] at hitem
  rcases hitem with rfl | rfl | rfl | rfl | rfl | rfl | rfl | rfl | rfl | rfl | rfl
  · exact setWidth_bitsOf (hlt 80 rfl)
  · have hidx : idx < 4 := of_decide_eq_true hknown
    have h24 := hlt 24 rfl
    simp only [CfgItems.word, CfgItems.put, getElem?_vset hidx]
    exact setWidth_bitsOf (by omega)
  · have hidx : idx < 4 := of_decide_eq_true hknown
    simp only [CfgItems.word, CfgItems.put, getElem?_vset hidx]
    exact setWidth_bitsOf (hlt 20 rfl)
  · exact ofNat_bitsNat (hlt 1 rfl)
  · exact ofNat_bitsNat (hlt 10 rfl)
  · exact ofNat_bitsNat (hlt 16 rfl)
  · exact ofNat_bitsNat (hlt 16 rfl)
  · exact ofNat_bitsNat (hlt 16 rfl)
  · exact ofNat_bitsNat (hlt 1 rfl)
  · exact ofNat_bitsNat (hlt 4 rfl)
  · exact ofNat_bitsNat (hlt 16 rfl)

/-- Such an item is neither staged nor followed by anything else (13 R302). -/
theorem applyItem_plain {item : Nat} (hitem : item ∈ plainItems) (idx : Nat) (v : W128) (s : State) :
    applyItem item idx v s = setItem item idx v s := by
  simp only [plainItems, List.mem_cons, List.not_mem_nil, or_false] at hitem
  rcases hitem with rfl | rfl | rfl | rfl | rfl | rfl | rfl | rfl | rfl | rfl | rfl <;> rfl

/-! ### CFG_SET -/

/-- CFG_SET judges by the configuration and the tracking engine (13 R301). -/
theorem cfgSetBad_congr {s t : State} (hcfg : t.cfg = s.cfg) (htrk : t.trk = s.trk) (item idx : Nat) (byRef : Bool) (v : W128) :
    cfgSetBad t item idx byRef v = cfgSetBad s item idx byRef v := by
  have hrange : itemRangeOk t item v = itemRangeOk s item v := by
    unfold itemRangeOk latestValue stagedValue
    rw [hcfg]
  have hused : channelUsed t idx = channelUsed s idx := by
    unfold channelUsed
    rw [hcfg, htrk]
  unfold cfgSetBad
  rw [hrange, hused, hcfg]

/-- An inline value that nothing refuses is of a known item and has defined bits alone (13 R301). -/
theorem known_and_masked_of_cfgSetBad {s : State} {item idx : Nat} {byRef : Bool} {v : W128} (hinline : item ≠ 0x10)
    (h : cfgSetBad s item idx byRef v = none) : itemKnown item idx = true ∧ maskOk (itemMask item v) v = true := by
  by_contra hbad
  rw [not_and_or, Bool.not_eq_true, Bool.not_eq_true] at hbad
  unfold cfgSetBad at h
  obtain hknown | hmask := hbad
  · simp [hknown] at h
  · simp [hinline, hmask, ite_eq_iff] at h

theorem stagedValue_setItem_consume (item idx : Nat) (v : W128) (src : Src) (s : State) :
    stagedValue (setItem item idx v (consume src s)) item idx = stagedValue s item idx := by
  simp [stagedValue, setItem]

/-- CFG_SET makes an admitted value the active one, as CFG_GET reads it (13 R301-R303). -/
theorem cfgSet_sets {e : Entry} {s : State} {item idx : Nat} (hitemArg : item = bitsNat (Entry.arg e 0) 0 16)
    (hidxArg : idx = bitsNat (Entry.arg e 0) 16 8) (hstart : Starts cmdCfgSet e s) (hitem : item ∈ plainItems)
    (hok : cfgSetBad s item idx (bitAt (Entry.arg e 0) 24) (Entry.arg e 1) = none) :
    Runs (.cfgSet e) s fun t => t.cfg.act.word item idx = Entry.arg e 1 ∧
      Answers cmdCfgSet e stOk 0
        (cfgSetWords item (stagedValue s item idx).isSome (crc32c (wordBytes (Entry.arg e 1)))) s t ∧
      Only (.cfg :: answerParts) s t := by
  have hinline : item ≠ 0x10 := fun h => absurd (h ▸ hitem) (by decide)
  obtain ⟨hknown, hmask⟩ := known_and_masked_of_cfgSetBad hinline hok
  have hexec : exec (.cfgSet e) s = .next (finish (started cmdCfgSet e .loopback s) stOk 0
      (cfgSetWords item (stagedValue s item idx).isSome (crc32c (wordBytes (Entry.arg e 1))))
      (setItem item idx (Entry.arg e 1) (consume e.src s))) := by
    have hok' : cfgSetBad (consume e.src s) item idx (bitAt (Entry.arg e 0) 24) (Entry.arg e 1) = none :=
      (cfgSetBad_congr (by simp) (by simp) ..).trans hok
    refine congrArg Host.Outcome.next ((takeUp_starts hstart rfl).trans ?_)
    simp only [← hitemArg, ← hidxArg, hok', if_neg hinline]
    rw [setInline, applyItem_plain hitem, stagedValue_setItem_consume]
  refine ⟨_, hexec, ?_, answered hstart ((kept_consume _ (.refl s)).set_cfg _) rfl, ?_⟩
  · simpa [setItem] using word_put hitem hknown hmask s.cfg.act
  · exact ((only_consume_self (by decide) e.src s).set_cfg _ (by decide)).finished (by decide) ..

/-! ### CFG_GET -/

/-- CFG_GET answers the active value of a known item, and whether another is staged (13 R303). -/
theorem cfgGet_answers {e : Entry} {s : State} {item idx : Nat} (hitemArg : item = bitsNat (Entry.arg e 0) 0 16)
    (hidxArg : idx = bitsNat (Entry.arg e 0) 16 8) (hstart : Starts cmdCfgGet e s) (hknown : itemKnown item idx = true)
    (hactive : bitAt (Entry.arg e 0) 24 = false) (hinline : item ≠ 0x10) :
    Runs (.cfgGet e) s fun t => Answers cmdCfgGet e stOk 0
      [s.cfg.act.word item idx, BitVec.ofNat 128 (b2n (stagedValue s item idx).isSome)] s t ∧ Only answerParts s t := by
  have hstaged : stagedWord (consume e.src s) item idx = stagedValue s item idx := by simp [stagedWord, hinline, stagedValue]
  have hexec : exec (.cfgGet e) s = .next (finish (started cmdCfgGet e .loopback s) stOk 0
      [s.cfg.act.word item idx, BitVec.ofNat 128 (b2n (stagedValue s item idx).isSome)] (consume e.src s)) := by
    refine congrArg Host.Outcome.next ((takeUp_starts hstart rfl).trans ?_)
    simp [← hitemArg, ← hidxArg, hstaged, hknown, hactive, hinline]
  exact ⟨_, hexec, answered_only hstart ..⟩

/-! ### CFG_COMMIT -/

/-- The words that answer a commit of the store `n` (13 R304). -/
def commitWords (n : NorStore) : List W128 :=
  [word [(0, 32, n.ver.toNat), (32, 32, (Config.storeCrc n.ver n.commits).toNat), (64, 32, n.commits.toNat)]]

/-- The state whose stored configuration is the one in force (13 R304). -/
def committed (s : State) : State := { s with nor := { s.nor with store := storeOf s } }

theorem kept_committed {s u : State} (h : Kept s u) : Kept s (committed u) := ⟨h.1, h.2, h.3, h.4, h.5, h.6⟩

theorem storeOf_consume (src : Src) (s : State) : storeOf (consume src s) = storeOf s := by simp [storeOf]

section
variable {e : Entry} {s : State} (hstart : Starts cmdCfgCommit e s)
include hstart

/-- A commit that reads back stores the configuration in force, and tells (13 R304). -/
theorem cfgCommit_stores :
    Runs (.cfgCommit e true) s fun t =>
      t.nor.store = storeOf s ∧ Raises 0x0200 0 s t ∧ Only (answerParts ++ eventParts) s t := by
  have hexec : exec (.cfgCommit e true) s = .next (finish (started cmdCfgCommit e .loopback s) stOk 0
      (commitWords (storeOf (consume e.src s))) (raise 0x0200 .ctrl 0 (committed (consume e.src s)))) :=
    congrArg Host.Outcome.next (takeUp_starts hstart rfl)
  have hstored : (committed (consume e.src s)).nor.store = storeOf s := storeOf_consume e.src s
  have honly : Only (answerParts ++ eventParts) s (committed (consume e.src s)) :=
    (only_consume_self (by decide) e.src s).set_nor _ (by decide)
  refine ⟨_, hexec, by simpa using hstored, Raises.finished ?_ .., (honly.raised (by decide) ..).finished (by decide) ..⟩
  exact (raise_raises ..).sooner (kept_committed (kept_consume _ (.refl s)))

/-- A commit that does not read back is answered so, and stores nothing (13 R304). -/
theorem cfgCommit_fails :
    Runs (.cfgCommit e false) s fun t => Answers cmdCfgCommit e stFault 1 [] s t ∧ Only answerParts s t :=
  ⟨_, congrArg Host.Outcome.next (takeUp_starts hstart rfl), answered_only hstart ..⟩

end

end Sys2Proof.Machine

open Sys2Proof Sys2Proof.Machine

/-- Settles O9: a value with defined bits alone is read as it was put (`word_put`), and its item is only set (`applyItem_plain`);
a commit stores `storeOf` the state. -/
theorem configIsSetReadAndStored : Obligations.ConfigIsSetReadAndStored := by
  unfold Obligations.ConfigIsSetReadAndStored
  refine ⟨fun e s hstart hitem hok => cfgSet_sets rfl rfl hstart hitem hok, fun e s =>
    ⟨fun hstart hknown hactive hinline => cfgGet_answers rfl rfl hstart hknown hactive hinline, fun hstart => ?_,
      cfgCommit_fails⟩⟩
  obtain ⟨t, hexec, hstore, hrest⟩ := cfgCommit_stores hstart
  refine ⟨t, hexec, ?_⟩
  beta_reduce
  rw [hstore]
  exact ⟨rfl, rfl, rfl, rfl, rfl, rfl, rfl, rfl, rfl, hrest⟩
end

section
/-! SUPPORT. The update state and UPDATE items under the shared operations: what an update reads, a piece held, and items that
are over (21 R456, R458). -/

namespace Sys2Proof.Machine

/-! ### What depends on the update state alone -/

section
variable {s t : State} (h : t.upd = s.upd)
include h

theorem sameUpdate_of_upd (d : UpdDesc) : sameUpdate d t = sameUpdate d s := by
  unfold sameUpdate
  rw [h]

theorem pieceHeld_of_upd (i : Nat) : pieceHeld t i = pieceHeld s i := by
  unfold pieceHeld
  rw [h]

theorem updComplete_of_upd : updComplete t = updComplete s := by
  unfold updComplete
  rw [h]

theorem stagedImage_of_upd : stagedImage t = stagedImage s := by
  unfold stagedImage
  rw [h]

theorem pieceWord_of_upd : pieceWord t = pieceWord s := by
  unfold pieceWord
  rw [updComplete_of_upd h, h]

theorem updOf_of_upd (f : BitVec 8) : updOf t f = updOf s f := by
  unfold updOf
  rw [h]

end

/-! ### UPD_BEGIN (21 R456) -/

section
variable {d : UpdDesc} {s : State} (hlow : 4096 ≤ d.imgLen) (hhigh : d.imgLen ≤ 33554432)
  (hpieces : d.pieces = (d.imgLen + 4095) / 4096)
include hlow hhigh hpieces

/-- Another update than the one in the buffer begins afresh, unless that one is armed. -/
theorem beginUpdate_fresh (hother : sameUpdate d s = false) (hst : s.upd.st < 3) :
    beginUpdate d s = .ok (raise 0x0B10 .ctrl (detail [dflag false]) (freshUpdate d s)) := by
  have hlen : ¬ (d.imgLen < 4096 ∨ 33554432 < d.imgLen) := by omega
  have harmed : ¬ (3 ≤ s.upd.st ∧ sameUpdate d s = false) := fun h => absurd h.1 (Nat.not_le.mpr hst)
  simp only [beginUpdate, if_neg hlen, if_neg (not_not.mpr hpieces), if_neg harmed]
  rw [hother, if_neg (by simp)]

/-- The same update goes on. -/
theorem beginUpdate_resumes (hsame : sameUpdate d s = true) (hst : s.upd.st ≠ 0) :
    beginUpdate d s = .ok (raise 0x0B10 .ctrl (detail [dflag true]) s) := by
  have hlen : ¬ (d.imgLen < 4096 ∨ 33554432 < d.imgLen) := by omega
  simp only [beginUpdate, if_neg hlen, if_neg (not_not.mpr hpieces)]
  rw [hsame, if_neg (by simp), if_pos ⟨hst, rfl⟩]

end

/-! ### Pieces (21 R456) -/

section
variable {id : BitVec 32} {i : Nat} {s : State} (hst : s.upd.st ≠ 0) (hid : id = s.upd.imgId) (hi : i < s.upd.pieces)
  (hnew : pieceHeld s i = false)
include hst hid hi hnew

/-- A piece of the update that is not yet held, with its CRC right and read back well, is held. -/
theorem putPiece_holds {pcrc : BitVec 32} {b : List Byte} (hcrc : crc32c b = pcrc) :
    putPiece id i pcrc b true s = (none, holdPiece i pcrc b s) := by
  simp [putPiece, hst, hid, hnew, hcrc, Nat.not_le.mpr hi]

/-- With its CRC wrong, or not read back well, it is refused. -/
theorem putPiece_refuses {pcrc : BitVec 32} {b : List Byte} {ok : Bool} (hbad : crc32c b ≠ pcrc ∨ ok = false) :
    putPiece id i pcrc b ok s = (some (stFault, 3), raise 0x0B11 .ctrl 0 s) := by
  simp [putPiece, hst, hid, hnew, hbad, Nat.not_le.mpr hi]

end

/-- The piece added to those held, before the update is looked at as a whole. -/
def withPiece (i : Nat) (pcrc : BitVec 32) (b : List Byte) (s : State) : State :=
  { s with upd := { s.upd with held := s.upd.held ++ [(i, pcrc, b)] } }

/-- A piece that is not the last changes nothing else. -/
theorem holdPiece_more {s : State} (hmore : ¬ (s.upd.st = 1 ∧ s.upd.held.length + 1 = s.upd.pieces)) (i : Nat)
    (pcrc : BitVec 32) (b : List Byte) : holdPiece i pcrc b s = withPiece i pcrc b s := by
  unfold holdPiece
  refine if_neg ?_
  simpa using hmore

/-- The last piece of an update in progress completes it. -/
theorem holdPiece_last {s : State} (hst : s.upd.st = 1) (hlast : s.upd.held.length + 1 = s.upd.pieces) (i : Nat)
    (pcrc : BitVec 32) (b : List Byte) : holdPiece i pcrc b s =
      raise 0x0B12 .ctrl 0 { s with upd := { (withPiece i pcrc b s).upd with st := 2 } } := by
  unfold holdPiece
  refine if_pos ?_
  simpa using ⟨hst, hlast⟩

/-- Holding a piece adds it to those held (21 R456). -/
theorem holdPiece_held (i : Nat) (pcrc : BitVec 32) (b : List Byte) (s : State) :
    (holdPiece i pcrc b s).upd.held = s.upd.held ++ [(i, pcrc, b)] := by
  by_cases hlast : s.upd.st = 1 ∧ s.upd.held.length + 1 = s.upd.pieces
  · rw [holdPiece_last hlast.1 hlast.2]
    simp [withPiece]
  · rw [holdPiece_more hlast]
    rfl

theorem holdPiece_svc (i : Nat) (pcrc : BitVec 32) (b : List Byte) (s : State) : (holdPiece i pcrc b s).svc = s.svc :=
  (only_holdPiece (fr := .upd :: eventParts) i pcrc b (by decide) (by decide) (by decide) (by decide) (by decide) (by decide)
    (by decide) (.refl _ s)).svc (by decide)

theorem pieceHeld_holdPiece (i : Nat) (pcrc : BitVec 32) (b : List Byte) (s : State) :
    pieceHeld (holdPiece i pcrc b s) i = true := by
  rw [pieceHeld, holdPiece_held]
  simp

/-! ### UPDATE items (21 R458) -/

theorem flow_of_updOf {s : State} {f : BitVec 8} {r : UpdRun} (h : updOf s f = some r) : r.flow = f := by
  simpa using List.find?_some h

/-- The UPDATE of a flow is the one put in its place. -/
theorem updOf_putUpd {s : State} {f : BitVec 8} {r x : UpdRun} (h : updOf s f = some r) (hx : x.flow = f) :
    updOf (putUpd x s) f = some x := by
  have hname : ((fun y : UpdRun => y.flow == f) ∘ fun y => if y.flow = x.flow then x else y) = fun y => y.flow == f := by
    funext y
    rw [Function.comp_apply]
    split
    · next hy => rw [hy]
    · rfl
  unfold updOf at h
  rw [updOf, putUpd, List.find?_map, hname, h, Option.map_some, if_pos ((flow_of_updOf h).trans hx.symm)]

theorem updOf_dropUpd (f : BitVec 8) (s : State) : updOf (dropUpd f s) f = none := by
  rw [updOf, dropUpd, List.find?_eq_none]
  intro x hx
  simpa using (List.mem_filter.mp hx).2

/-- Tables that become active after work on the ledger leave the update state (05 R111). -/
theorem activateTables_upd {s t : State} (h : Only ledgerParts s t) : (activateTables t).upd = s.upd := by
  have honly : Only (.cfg :: .link :: ledgerParts) s (activateTables t) :=
    only_activateTables (by decide) (by decide) (by decide) (by decide) (by decide) (by decide) (by decide) (by decide)
      (h.mono (by decide))
  exact honly.upd (by decide)

theorem only_doneItem_ledger (f : BitVec 8) (q : BitVec 64) (n : Nat) (s : State) : Only ledgerParts s (doneItem f q n s) :=
  only_doneItem f q n (by decide) (by decide) (by decide) (by decide) (by decide) (by decide) (by decide) (by decide) (by decide)
    (by decide) (by decide) (.refl _ s)

theorem only_failItem_ledger (f : BitVec 8) (q : BitVec 64) (a b : Nat) (s : State) :
    Only ledgerParts s (failItem f q a b s) :=
  only_failItem f q a b (by decide) (by decide) (by decide) (by decide) (by decide) (by decide) (by decide) (by decide)
    (by decide) (by decide) (by decide) (.refl _ s)

/-- The end of an UPDATE touches the list of UPDATE items alone of the update state. -/
theorem doneUpd_upd (r : UpdRun) (s : State) : (doneUpd r s).upd = (dropUpd r.flow s).upd :=
  activateTables_upd (only_doneItem_ledger ..)

section
variable {s : State} {r : UpdRun} {i : Item} (hi : findItem s r.flow r.seq = some i) (hl : i.live = true)
include hi hl

/-- An UPDATE that is done has its item DONE, and runs no longer. -/
theorem doneUpd_ends : Ended r.flow r.seq .done 0 0 (doneUpd r s) ∧ updOf (doneUpd r s) r.flow = none := by
  have hfound : findItem (dropUpd r.flow s) r.flow r.seq = some i := hi
  refine ⟨(doneItem_activateTables_effect hfound hl r.sent).1, ?_⟩
  rw [updOf_of_upd (doneUpd_upd r s), updOf_dropUpd]

/-- An UPDATE that fails has its item FAILED, and runs no longer. -/
theorem failUpd_ends (status reason : Nat) : Ended r.flow r.seq .failed status reason (failUpd r status reason s) ∧
    updOf (failUpd r status reason s) r.flow = none := by
  have hfound : findItem (dropUpd r.flow s) r.flow r.seq = some i := hi
  obtain ⟨hflow, hseq⟩ := findItem_names hi
  have hput := findItem_putItem (x := { i with result := BitVec.ofNat 64 r.sent }) hfound hflow hseq
  have hfail : failUpd r status reason s = activateTables (failItem r.flow r.seq status reason
      (putItem { i with result := BitVec.ofNat 64 r.sent } (dropUpd r.flow s))) := by
    simp only [failUpd, hfound]
  rw [hfail]
  refine ⟨(failItem_ended hput hl status reason).of_led (activateTables_led _), ?_⟩
  rw [updOf_of_upd (activateTables_upd (only_failItem_ledger ..))]
  exact updOf_dropUpd r.flow s

end

end Sys2Proof.Machine
end

section
/-! PROOF. UPD_BEGIN, UPD_PUT_PIECE, UPD_STATUS and UPD_ARM, and the ticks and time-outs of UPDATE items (13 R320, 21 R456,
R458-R460). -/

namespace Sys2Proof.Machine

/-! ### UPD_BEGIN -/

section
variable {e : Entry} {s : State} {d : UpdDesc} (hstart : Starts cmdUpdBegin e s) (hd : d = updDescOf e)
  (hlow : 4096 ≤ d.imgLen) (hhigh : d.imgLen ≤ 33554432) (hpieces : d.pieces = (d.imgLen + 4095) / 4096)
include hstart hd

/-- An update that begins is answered with the pieces it holds (13 R320). -/
theorem exec_updBegin {u : State} (hu : beginUpdate d (consume e.src s) = .ok u) :
    exec (.updBegin e) s =
      .next (finish (started cmdUpdBegin e .loopback s) stOk 0 [word [(0, 32, u.upd.held.length)]] u) := by
  refine congrArg Host.Outcome.next ((takeUp_starts hstart rfl).trans ?_)
  simp only [← hd, hu]

include hlow hhigh hpieces

/-- UPD_BEGIN of another update opens it, with nothing held (13 R320, 21 R456). -/
theorem updBegin_fresh (hother : sameUpdate d s = false) (hst : s.upd.st < 3) : Runs (.updBegin e) s fun t =>
    t.upd = (freshUpdate d s).upd ∧ Raises 0x0B10 (detail [dflag false]) s t ∧ Answers cmdUpdBegin e stOk 0 [0] s t := by
  have hupd : (consume e.src s).upd = s.upd := by simp
  have hexec := exec_updBegin hstart hd
    (beginUpdate_fresh hlow hhigh hpieces ((sameUpdate_of_upd hupd d).trans hother) (by rwa [hupd]))
  have hkept : Kept s (freshUpdate d (consume e.src s)) := kept_freshUpdate d (kept_consume _ (.refl s))
  have hwords : [word [(0, 32, (raise 0x0B10 .ctrl (detail [dflag false]) (freshUpdate d (consume e.src s))).upd.held.length)]] =
      [(0 : W128)] := by
    simp only [raise_parts]
    rfl
  rw [hwords] at hexec
  refine ⟨_, hexec, ?_, ((raise_raises ..).sooner hkept).finished .., answered hstart (kept_raise _ _ _ hkept) ?_⟩
  · simp [freshUpdate]
  · simp [freshUpdate]

/-- UPD_BEGIN of the update in progress goes on with it (13 R320, 21 R456). -/
theorem updBegin_resumes (hsame : sameUpdate d s = true) (hst : s.upd.st ≠ 0) : Runs (.updBegin e) s fun t =>
    t.upd = s.upd ∧ Raises 0x0B10 (detail [dflag true]) s t ∧
      Answers cmdUpdBegin e stOk 0 [word [(0, 32, s.upd.held.length)]] s t := by
  have hupd : (consume e.src s).upd = s.upd := by simp
  have hexec := exec_updBegin hstart hd
    (beginUpdate_resumes hlow hhigh hpieces ((sameUpdate_of_upd hupd d).trans hsame) (by rwa [hupd]))
  have hkept : Kept s (consume e.src s) := kept_consume _ (.refl s)
  simp only [raise_parts, consume_parts] at hexec
  exact ⟨_, hexec, by simp, ((raise_raises ..).sooner hkept).finished .., answered hstart (kept_raise _ _ _ hkept) (by simp)⟩

end

/-! ### UPD_PUT_PIECE -/

section
variable {e : Entry} {s u : State} {ok : Bool} {b : List Byte} {i : Nat} (hstart : Starts cmdUpdPutPiece e s)
  (hiArg : i = bitsNat (Entry.arg e 0) 32 32)
  (hread : readBuffer e (Entry.arg e 1) (fun n => n == 4096) (consume e.src s) = (.ok b, u)) (hst : s.upd.st ≠ 0)
  (hid : bitsOf (Entry.arg e 0) 0 32 = s.upd.imgId) (hi : i < s.upd.pieces) (hnew : pieceHeld s i = false)

include hread in
/-- Reading a piece leaves the update state and the service port, and takes nothing back. -/
theorem pieceRead_keeps : u.upd = s.upd ∧ u.svc = (consume e.src s).svc ∧ Kept s u := by
  have honly : Only [.dma, .diag, .stats, .free] (consume e.src s) u :=
    only_readBuffer_eq e (Entry.arg e 1) _ (by decide) (by decide) (by decide) (by decide) hread (.refl _ _)
  have hupd : (consume e.src s).upd = s.upd := by simp
  exact ⟨(honly.upd (by decide)).trans hupd, honly.svc (by decide),
    kept_readBuffer_eq e (Entry.arg e 1) _ hread (kept_consume _ (.refl s))⟩

include hstart hiArg hread hst hid hi hnew

/-- UPD_PUT_PIECE holds a piece whose CRC is right; the last one completes the update (13 R320, 21 R456). -/
theorem updPutPiece_holds (hcrc : crc32c b = bitsOf (Entry.arg e 0) 64 32) (hok : ok = true) :
    Runs (.updPutPiece e ok) s fun t =>
      t.upd.held = s.upd.held ++ [(i, bitsOf (Entry.arg e 0) 64 32, b)] ∧
      (s.upd.st = 1 → s.upd.held.length + 1 = s.upd.pieces → t.upd.st = 2 ∧ Raises 0x0B12 0 s t) ∧
      Answers cmdUpdPutPiece e stOk 0 (pieceWord t) s t := by
  obtain ⟨hupd, hsvc, hkept⟩ := pieceRead_keeps hread
  rw [← hupd] at hst hid hi
  rw [← pieceHeld_of_upd hupd] at hnew
  generalize hv : holdPiece i (bitsOf (Entry.arg e 0) 64 32) b u = v
  have hexec : exec (.updPutPiece e ok) s = .next (finish (started cmdUpdPutPiece e .loopback s) stOk 0 (pieceWord v) v) := by
    refine congrArg Host.Outcome.next ((takeUp_starts hstart rfl).trans ?_)
    simp only [hread, hok, ← hiArg, putPiece_holds hst hid hi hnew hcrc, hv]
  have hvupd : (finish (started cmdUpdPutPiece e .loopback s) stOk 0 (pieceWord v) v).upd = v.upd := by simp
  refine ⟨_, hexec, ?_, fun h1 hlast => ?_, ?_⟩
  · rw [hvupd, ← hv, holdPiece_held, hupd]
  · rw [← hupd] at h1 hlast
    rw [hvupd, ← hv, holdPiece_last h1 hlast]
    exact ⟨by simp, ((raise_raises ..).sooner (hkept.set_upd _)).finished ..⟩
  · rw [pieceWord_of_upd hvupd]
    refine answered hstart ?_ ?_ <;> rw [← hv]
    · exact kept_holdPiece _ _ _ hkept
    · rw [holdPiece_svc, hsvc]

/-- UPD_PUT_PIECE refuses a piece whose CRC is wrong or that does not read back (13 R320, 21 R456). -/
theorem updPutPiece_refuses (hbad : crc32c b ≠ bitsOf (Entry.arg e 0) 64 32 ∨ ok = false) :
    Runs (.updPutPiece e ok) s fun t =>
      t.upd = s.upd ∧ Raises 0x0B11 0 s t ∧ Answers cmdUpdPutPiece e stFault 3 [] s t := by
  obtain ⟨hupd, hsvc, hkept⟩ := pieceRead_keeps hread
  rw [← hupd] at hst hid hi
  rw [← pieceHeld_of_upd hupd] at hnew
  have hexec : exec (.updPutPiece e ok) s =
      .next (finish (started cmdUpdPutPiece e .loopback s) stFault 3 [] (raise 0x0B11 .ctrl 0 u)) := by
    refine congrArg Host.Outcome.next ((takeUp_starts hstart rfl).trans ?_)
    simp only [hread, ← hiArg, putPiece_refuses hst hid hi hnew hbad]
  exact ⟨_, hexec, by simp [hupd], ((raise_raises ..).sooner hkept).finished ..,
    answered hstart (kept_raise _ _ _ hkept) (by simp [hsvc])⟩

end

/-! ### UPD_STATUS -/

/-- UPD_STATUS reports the update state and touches nothing else (13 R320). -/
theorem updStatus_answers {e : Entry} {s : State} (hstart : Starts cmdUpdStatus e s) :
    Runs (.updStatus e) s fun t => Answers cmdUpdStatus e stOk 0 (updWords s) s t ∧ Only answerParts s t := by
  have hwords : updWords (consume e.src s) = updWords s := by simp [updWords]
  have hexec : exec (.updStatus e) s =
      .next (finish (started cmdUpdStatus e .loopback s) stOk 0 (updWords s) (consume e.src s)) := by
    refine congrArg Host.Outcome.next ((takeUp_starts hstart rfl).trans ?_)
    rw [hwords]
  exact ⟨_, hexec, answered_only hstart ..⟩

/-! ### UPD_ARM -/

/-- The update armed, with its event (21 R460). -/
def updArmed (s : State) : State := raise 0x0B13 .ctrl 0 { s with upd := { s.upd with st := 3 } }

/-- Without `now` arming only answers (13 R320). -/
theorem armUpdate_later (w : Waiting) (s : State) : armUpdate w false s = finish w stOk 0 [] (updArmed s) := rfl

/-- The reset of kind 3 that is to come (13 R300). -/
def resetAsked (s : State) : State := { s with pm := { s.pm with commandedReset := some 3 } }

/-- With `now` it then asks for a reset of kind 3 (13 R300, R320). -/
theorem armUpdate_now (w : Waiting) (s : State) :
    armUpdate w true s = raise 0x0111 .ctrl 0 (resetAsked (finish w stOk 0 [] (updArmed s))) := by
  unfold armUpdate
  exact if_pos rfl

/-- Arming answers first; what follows takes nothing back and leaves the update state (21 R460). -/
theorem armUpdate_after (w : Waiting) (now : Bool) (s : State) :
    Kept (finish w stOk 0 [] (updArmed s)) (armUpdate w now s) ∧ (armUpdate w now s).upd = { s.upd with st := 3 } := by
  cases now with
  | false => exact ⟨.refl _, by simp [armUpdate_later, updArmed]⟩
  | true =>
    rw [armUpdate_now]
    exact ⟨kept_raise _ _ _ ((Kept.refl _).set_pm _), by simp [resetAsked, updArmed]⟩

section
variable {e : Entry} {s : State} (hstart : Starts cmdUpdArm e s) (hconfirm : bitsNat (Entry.arg e 0) 8 8 = 0xA5)
  (hpair : pairHolds s = false) (hcomplete : updComplete (checkPieces s) = true)

/-- Checking the pieces as the entry is taken up finds the same pieces, and touches nothing but the update state (21 R460). -/
theorem checkPieces_consume (src : Src) (s : State) : (checkPieces (consume src s)).upd = (checkPieces s).upd ∧
    (checkPieces (consume src s)).svc = (consume src s).svc ∧ Kept s (checkPieces (consume src s)) := by
  refine ⟨?_, rfl, kept_checkPieces (kept_consume _ (.refl s))⟩
  simp [checkPieces]

theorem pairHolds_consume (src : Src) (s : State) : pairHolds (consume src s) = pairHolds s := by simp [pairHolds]

include hstart hconfirm hpair hcomplete

/-- UPD_ARM of a complete update goes by the digest of its image (21 R460). -/
theorem exec_updArm : exec (.updArm e) s = .next
    (if Config.sha384 (stagedImage (checkPieces s)) ≠ s.upd.digest then
      finish (started cmdUpdArm e .loopback s) stFault 4 [] (eraseUpdate (checkPieces (consume e.src s)))
    else armUpdate (started cmdUpdArm e .loopback s) (bitAt (Entry.arg e 0) 0) (checkPieces (consume e.src s))) := by
  obtain ⟨hupd, -, -⟩ := checkPieces_consume e.src s
  refine congrArg Host.Outcome.next ((takeUp_starts hstart rfl).trans ?_)
  dsimp only
  rw [if_neg (not_not.mpr hconfirm), pairHolds_consume, hpair, if_neg (by decide), updComplete_of_upd hupd, hcomplete,
    if_neg (by decide), stagedImage_of_upd hupd, hupd]
  rfl

/-- UPD_ARM arms an image whose digest is right, and with `now` asks for a reset of kind 3 (13 R320, 21 R460). -/
theorem updArm_arms (hdigest : Config.sha384 (stagedImage (checkPieces s)) = s.upd.digest) :
    Runs (.updArm e) s fun t =>
      t.upd = { (checkPieces s).upd with st := 3 } ∧ Raises 0x0B13 0 s t ∧ Answers cmdUpdArm e stOk 0 [] s t ∧
      (bitAt (Entry.arg e 0) 0 = true → t.pm.commandedReset = some 3 ∧ Raises 0x0111 0 s t) := by
  have hexec := exec_updArm hstart hconfirm hpair hcomplete
  rw [if_neg (not_not.mpr hdigest)] at hexec
  obtain ⟨hupd, hsvc, hkept⟩ := checkPieces_consume e.src s
  generalize checkPieces (consume e.src s) = v at hexec hupd hsvc hkept
  obtain ⟨hlater, hst⟩ := armUpdate_after (started cmdUpdArm e .loopback s) (bitAt (Entry.arg e 0) 0) v
  have harmed : Kept s (updArmed v) := kept_raise _ _ _ (hkept.set_upd _)
  have hraised : Raises 0x0B13 0 s (updArmed v) := (raise_raises ..).sooner (hkept.set_upd _)
  refine ⟨_, hexec, by rw [hst, hupd], (hraised.finished ..).later hlater,
    (answered hstart harmed (by simpa [updArmed] using hsvc)).later hlater, fun hnow => ?_⟩
  rw [hnow, armUpdate_now]
  exact ⟨by simp [resetAsked], (raise_raises ..).sooner ((kept_finish _ _ _ _ harmed).set_pm _)⟩

/-- UPD_ARM refuses an image whose digest is wrong (13 R320, 21 R460). -/
theorem updArm_refuses (hdigest : Config.sha384 (stagedImage (checkPieces s)) ≠ s.upd.digest) :
    Runs (.updArm e) s fun t => Answers cmdUpdArm e stFault 4 [] s t := by
  have hexec := exec_updArm hstart hconfirm hpair hcomplete
  rw [if_pos hdigest] at hexec
  obtain ⟨-, hsvc, hkept⟩ := checkPieces_consume e.src s
  exact ⟨_, hexec, answered hstart (kept_eraseUpdate hkept) hsvc⟩

end

/-! ### Ticks and time-outs of UPDATE items -/

/-- The missing piece that is given next is missing (21 R458). -/
theorem not_held_of_nextPiece {r : UpdRun} {held : Nat → Bool} {i : Nat} (h : nextPiece r held = some i) : held i = false := by
  simpa using List.find?_some h

section
variable {s : State} {f : BitVec 8} {r : UpdRun} {j : UpdJob} (hr : updOf s f = some r) (hj : r.job s = some j)
include hr hj

/-- At a tick this device holds the next piece missing (21 R458). -/
theorem updateRateTick_holds {i : Nat} (hown : j.target = 0) (hnext : nextPiece r (pieceHeld s) = some i)
    (hst : s.upd.st ≠ 0) (hid : (imageDesc r.image).imgId = s.upd.imgId) (hi : i < s.upd.pieces) :
    Runs (.updateRateTick f) s fun t => pieceHeld t i = true := by
  have hput := putPiece_holds (b := imagePiece r.image i) hst hid hi (not_held_of_nextPiece hnext) rfl
  have hheld := pieceHeld_holdPiece i (crc32c (imagePiece r.image i)) (imagePiece r.image i) s
  generalize holdPiece i (crc32c (imagePiece r.image i)) (imagePiece r.image i) s = v at hput hheld
  have hexec : exec (.updateRateTick f) s =
      .next (if updComplete v then doneUpd { r with sent := r.sent + 1 } v else putUpd { r with sent := r.sent + 1 } v) := by
    change execUpdateRateTick f s = _
    simp only [execUpdateRateTick, hr, hj, if_pos hown, hnext, hput]
  refine ⟨_, hexec, ?_⟩
  split
  · rw [pieceHeld_of_upd (doneUpd_upd _ v)]
    exact hheld
  · exact hheld

/-- Once this device holds every piece the item is DONE (21 R458). -/
theorem updateRateTick_done {i : Item} (hown : j.target = 0) (hnext : nextPiece r (pieceHeld s) = none)
    (hi : findItem s r.flow r.seq = some i) (hl : i.live = true) :
    Runs (.updateRateTick f) s fun t => Ended r.flow r.seq .done 0 0 t ∧ updOf t f = none := by
  have hexec : exec (.updateRateTick f) s = .next (doneUpd r s) := by
    change execUpdateRateTick f s = _
    simp only [execUpdateRateTick, hr, hj, if_pos hown, hnext]
  exact ⟨_, hexec, flow_of_updOf hr ▸ doneUpd_ends hi hl⟩

/-- At a tick a peer is sent the next piece it is not known to hold (21 R458). -/
theorem updateRateTick_sends {i : Nat} (hpeer : j.target ≠ 0) (hmay : mayOriginate s = true) (hbegun : r.begun = true)
    (hnext : nextPiece r r.have_.contains = some i) :
    Runs (.updateRateTick f) s fun t => ∃ x, updOf t f = some x ∧ x.sent = r.sent + 1 ∧ x.have_ = i :: r.have_ := by
  have hexec : exec (.updateRateTick f) s = .next (sendPiece r j.target i s) := by
    change execUpdateRateTick f s = _
    simp [execUpdateRateTick, hr, hj, hpeer, hmay, hbegun, hnext]
  have hsend (dst : Nat) (payload : List Byte) (u : State) : (send dst 0x51 3 payload u).upd = u.upd :=
    (only_send (fr := .fab :: .diag :: eventParts) dst 0x51 3 payload (by decide) (by decide) (by decide) (by decide) (by decide)
      (by decide) (by decide) (by decide) (.refl _ u)).upd (by decide)
  have hflow : r.flow = f := flow_of_updOf hr
  refine ⟨_, hexec, _, updOf_putUpd (r := r) ?_ hflow, rfl, rfl⟩
  rw [updOf_of_upd ((hsend ..).trans (hsend ..)), hr]

/-- A peer that answers nothing for 10 s fails the item with NO_RESOURCE (21 R458). -/
theorem updateTargetTimeout_fails {i : Item} (hpeer : j.target ≠ 0) (hi : findItem s r.flow r.seq = some i)
    (hl : i.live = true) :
    Runs (.updateTargetTimeout f) s fun t => Ended r.flow r.seq .failed stNoResource 0 t ∧ updOf t f = none := by
  have hexec : exec (.updateTargetTimeout f) s = .next (failUpd r stNoResource 0 s) := by
    change execUpdateTargetTimeout f s = _
    simp only [execUpdateTargetTimeout, hr, hj, if_pos hpeer]
  exact ⟨_, hexec, flow_of_updOf hr ▸ failUpd_ends hi hl stNoResource 0⟩

end

/-- The oldest lone half is dropped (21 R459). -/
theorem relayHalfTimeout_drops (s : State) :
    Runs .relayHalfTimeout s fun t => t.fab.halves = s.fab.halves.drop 1 ∧ Only [.fab] s t :=
  ⟨_, rfl, rfl, (Only.refl _ s).set_fab _ (by decide)⟩

end Sys2Proof.Machine

open Sys2Proof Sys2Proof.Machine

/-- Settles O31: an update begins, is answered from and is armed by its own state, which taking up an entry leaves; a piece is held
by `holdPiece`; an UPDATE that is over goes through `doneUpd_ends` or `failUpd_ends`. -/
theorem updatesAreStagedAndSent : Obligations.UpdatesAreStagedAndSent := by
  unfold Obligations.UpdatesAreStagedAndSent
  refine ⟨fun e s => ⟨fun d hstart hd hlow hhigh hpieces => ⟨fun hother hst => ?_, fun hsame hst => ?_⟩,
      fun ok b u i hstart hiArg hread hst hid hi hnew => ⟨fun hcrc hok => ?_, fun hbad => ?_⟩, updStatus_answers,
      fun hstart hconfirm hpair hcomplete => ⟨fun hdigest => ?_, fun hdigest => ?_⟩⟩,
    fun s f r j hr hj => ⟨fun i hown hnext hst hid hi => ?_, fun i hown hnext hi hl => ?_,
      fun i hpeer hmay hbegun hnext => ?_, fun i hpeer hi hl => ?_, relayHalfTimeout_drops s⟩⟩
  · exact updBegin_fresh hstart hd hlow hhigh hpieces hother hst
  · exact updBegin_resumes hstart hd hlow hhigh hpieces hsame hst
  · exact updPutPiece_holds hstart hiArg hread hst hid hi hnew hcrc hok
  · exact updPutPiece_refuses hstart hiArg hread hst hid hi hnew hbad
  · exact updArm_arms hstart hconfirm hpair hcomplete hdigest
  · exact updArm_refuses hstart hconfirm hpair hcomplete hdigest
  · exact updateRateTick_holds hr hj hown hnext hst hid hi
  · exact updateRateTick_done hr hj hown hnext hi hl
  · exact updateRateTick_sends hr hj hpeer hmay hbegun hnext
  · exact updateTargetTimeout_fails hr hj hpeer hi hl
end

section
/-! SUPPORT. Links and ports that go down, and the commands that wait when others complete (08 R186, 15 R355, 12 R280). -/

namespace Sys2Proof.Machine

/-! ### Links and ports -/

/-- A stop at a flash boundary leaves the link (07 R166). -/
@[simp] theorem boundaryStop_link (c : Nat) (s : State) : (boundaryStop c s).link = s.link :=
  (only_boundaryStop (fr := [.out, .win, .rnd, .store, .seq, .trk, .scan, .nor, .evt, .stats, .hostMem, .free]) c (by decide)
    (by decide) (by decide) (by decide) (by decide) (by decide) (by decide) (by decide) (by decide) (by decide) (by decide)
    (by decide) (.refl _ s)).link (by decide)

/-- A link that fails is DOWN (08 R186). -/
theorem linkFails_down (lane : Nat) (s : State) : (linkFails lane s).link.st = .down := by
  have hdown : (linkDown lane s).link.st = .down := by
    unfold linkDown
    split
    · assumption
    · simp
  unfold linkFails
  dsimp only
  split <;> exact hdown

theorem port_setPort_same (p : Fin 8) (q : Port) (s : State) : port (setPort p q s) p = q :=
  Vector.getElem_set_self p.isLt

/-! ### Commands that wait -/

/-- Completing a command leaves those that wait (12 R280). -/
@[simp] theorem finish_running (w : Waiting) (status reason : Nat) (results : List W128) (s : State) :
    (finish w status reason results s).mb.running = s.mb.running := by
  have hcomplete (c : Completion) : (complete w.src c s).mb.running = s.mb.running := by
    unfold complete
    split
    · dsimp only
      split <;> simp
    · dsimp only
      split <;> simp
  unfold finish
  dsimp only
  split
  · rw [(only_stopRing (fr := [.out, .win, .hostMem]) _ (by decide) (by decide) (by decide) (.refl _ _)).mb (by decide)]
    exact hcomplete _
  · exact hcomplete _

@[simp] theorem finishAll_running (p : Waiting → Option (Nat × Nat × List W128)) (l : List Waiting) (s : State) :
    (finishAll p l s).mb.running = s.mb.running := by
  induction l generalizing s with
  | nil => rfl
  | cons w l ih =>
    unfold finishAll
    split
    · rw [ih, finish_running]
    · exact ih s

/-- Settled commands wait no longer (12 R280). -/
theorem settle_running (p : Waiting → Option (Nat × Nat × List W128)) (s : State) :
    (settle p s).mb.running = s.mb.running.filter fun w => (p w).isNone := by simp [settle]

end Sys2Proof.Machine
end

section
/-! PROOF. DIAG_LOOPBACK, DIAG_INJECT, DIAG_COUNTERS and the ends of a loopback and of a withheld acknowledgement (13 R321-R323). -/

namespace Sys2Proof.Machine

/-! ### Loopback (13 R321) -/

theorem loopDown_link {path : Nat} (h : path ≠ 1) (unit : Nat) (s : State) : (loopDown path unit s).link.st = .down := by
  rw [loopDown, if_neg h]
  exact linkFails_down 0xFF s

theorem loopDown_port (p : Fin 8) (s : State) : (port (loopDown 1 p.val s) p).st = .down := by
  have hp : (⟨p.val % 8, Nat.mod_lt _ (by decide)⟩ : Fin 8) = p := Fin.ext (Nat.mod_eq_of_lt p.isLt)
  unfold loopDown
  simp only [if_true, hp, port_setPort_same]

/-- The loopback under way on a path, its link down (13 R321). -/
def loopBegun (path unit : Nat) (s : State) : State :=
  { loopDown path unit s with diag := { (loopDown path unit s).diag with loop := some (path, unit) } }

/-- DIAG_LOOPBACK takes its link down and waits for its duration to end (13 R321). -/
theorem diagLoopback_begins {e : Entry} {s : State} {path unit dur : Nat} (hpathArg : path = bitsNat (Entry.arg e 0) 0 4)
    (hunitArg : unit = bitsNat (Entry.arg e 0) 8 8) (hdurArg : dur = bitsNat (Entry.arg e 0) 32 32)
    (hstart : Starts cmdDiagLoopback e s) (hfree : objBusy s [(5, 0, 0)] = false) (hpath : path ≤ 2) (hdur : 1 ≤ dur)
    (hlong : dur ≤ 1000000) (hunit : unit < loopUnits path) :
    Runs (.diagLoopback e) s fun t =>
      t.diag.loop = some (path, unit) ∧ started cmdDiagLoopback e .loopback s ∈ t.mb.running ∧
      (path ≠ 1 → t.link.st = .down) ∧ (∀ p : Fin 8, path = 1 → unit = p.val → (port t p).st = .down) := by
  have hexec : exec (.diagLoopback e) s =
      .next (wait (started cmdDiagLoopback e .loopback s) .loopback (loopBegun path unit (consume e.src s))) := by
    have hargs : ¬ (2 < path ∨ dur = 0 ∨ 1000000 < dur) := by omega
    refine congrArg Host.Outcome.next ((takeUp_starts hstart hfree).trans ?_)
    simp only [← hpathArg, ← hunitArg, ← hdurArg, if_neg hargs, if_neg (Nat.not_le.mpr hunit)]
    rfl
  refine ⟨_, hexec, by simp [loopBegun], started_mem_wait .., fun h => loopDown_link h .., fun p h1 hp => ?_⟩
  rw [h1, hp]
  exact loopDown_port p _

/-- What answers a command that waits for a loopback's end (13 R321). -/
def loopbackAnswer (n errors : BitVec 64) (losses : BitVec 32) (w : Waiting) : Option (Nat × Nat × List W128) :=
  if w.on = .loopback then
    some (stOk, 0, [word [(0, 64, n.toNat), (64, 64, errors.toNat)], word [(0, 32, losses.toNat)]])
  else none

/-- The end of a loopback keeps its results and answers the command that waited (13 R321). -/
theorem loopbackDurationEnd_settles {s : State} (hloop : s.diag.loop.isSome = true) (n x : BitVec 64) (l : BitVec 32) :
    Runs (.loopbackDurationEnd n x l) s fun t =>
      t.diag.loop = none ∧ t.diag.result = (n, x, l) ∧ (∀ w ∈ t.mb.running, w.on ≠ .loopback) ∧
      Only (.diag :: answerParts) s t := by
  obtain ⟨path, hpath⟩ := Option.isSome_iff_exists.mp hloop
  have hexec : exec (.loopbackDurationEnd n x l) s = .next (settle (loopbackAnswer n x l)
      { s with diag := { s.diag with loop := none, result := (n, x, l) } }) := by
    change execLoopbackDurationEnd n x l s = _
    simp only [execLoopbackDurationEnd, hpath]
    rfl
  refine ⟨_, hexec, by simp, by simp, fun w hw hon => ?_, ?_⟩
  · rw [settle_running] at hw
    simpa [loopbackAnswer, hon] using (List.mem_filter.mp hw).2
  · exact only_settle _ (by decide) (by decide) (by decide) (by decide) (by decide) (by decide)
      ((Only.refl _ s).set_diag _ (by decide))

/-! ### Injected faults (13 R322) -/

/-- A fault that does not act at once waits for its occurrence (13 R322). -/
theorem place_waits {fault : Nat} (h5 : fault ≠ 5) (h9 : fault ≠ 9) (count : Nat) (param : BitVec 32) (s : State) :
    place fault count param s = { s with diag := { s.diag with inject := s.diag.inject ++ [(fault, count, param)] } } := by
  unfold place
  split
  · exact absurd rfl h5
  · exact absurd rfl h9
  · rfl

/-- Fault 9 withholds the witness's acknowledgements (13 R322). -/
theorem place_withholds (count : Nat) (param : BitVec 32) (s : State) :
    place 9 count param s = { s with diag := { s.diag with withhold := true } } := rfl

/-- A fault other than 5 touches the diagnostics alone as it takes its place (13 R322). -/
theorem only_place_diag {fault : Nat} (h5 : fault ≠ 5) (count : Nat) (param : BitVec 32) (s : State) :
    Only [.diag] s (place fault count param s) := by
  by_cases h9 : fault = 9
  · rw [h9, place_withholds]
    exact (Only.refl _ s).set_diag _ (by decide)
  · rw [place_waits h5 h9]
    exact (Only.refl _ s).set_diag _ (by decide)

/-- DIAG_INJECT with diagnostics enabled: the fault takes its place, with DIAG_INJECTED (13 R322). -/
theorem diagInject_places {e : Entry} {s : State} {fault count : Nat} {param : BitVec 32}
    (hfaultArg : fault = bitsNat (Entry.arg e 0) 0 16) (hcountArg : count = bitsNat (Entry.arg e 0) 16 16)
    (hparamArg : param = bitsOf (Entry.arg e 0) 32 32) (hstart : Starts cmdDiagInject e s) (hen : s.cfg.act.diagEnable ≠ 0)
    (hfault : fault ∈ [1, 2, 3, 4, 6, 7, 8, 9, 10]) (hcount : count ≠ 0)
    (hlimit : ∀ n, paramLimit fault = some n → param.toNat < n) :
    Runs (.diagInject e) s fun t =>
      (fault ≠ 9 → t.diag.inject = s.diag.inject ++ [(fault, count, param)]) ∧ (fault = 9 → t.diag.withhold = true) ∧
      Raises 0x0C10 (detail [du 16 fault, du 32 param.toNat]) s t ∧ Answers cmdDiagInject e stOk 0 [] s t ∧
      Only (.diag :: (answerParts ++ eventParts)) s t := by
  obtain ⟨h0, h5, h10⟩ : fault ≠ 0 ∧ fault ≠ 5 ∧ fault ≤ 10 := by
    simp only [List.mem_cons, List.not_mem_nil, or_false] at hfault
    omega
  have hparam : (paramLimit fault).any (fun n => decide (n ≤ param.toNat)) = false := by
    rw [Option.any_eq_false]
    exact fun n hn => by simpa using hlimit n hn
  generalize hu : raise 0x0C10 .ctrl (detail [du 16 fault, du 32 param.toNat]) (consume e.src s) = u
  have hexec : exec (.diagInject e) s =
      .next (place fault count param (finish (started cmdDiagInject e .loopback s) stOk 0 [] u)) := by
    have hargs : ¬ (fault = 0 ∨ 10 < fault ∨ count = 0 ∨ (paramLimit fault).any (fun n => decide (n ≤ param.toNat)) = true) := by
      rw [hparam]
      simp only [Bool.false_eq_true, or_false]
      omega
    have hen' : (consume e.src s).cfg.act.diagEnable ≠ 0 := by simpa using hen
    refine congrArg Host.Outcome.next ((takeUp_starts hstart rfl).trans ?_)
    simp only [← hfaultArg, ← hcountArg, ← hparamArg, if_neg hen', if_neg hargs, hu]
  have hkept : Kept s u := hu ▸ kept_raise _ _ _ (kept_consume _ (.refl s))
  have hraised : Raises 0x0C10 (detail [du 16 fault, du 32 param.toNat]) s u :=
    hu ▸ (raise_raises ..).sooner (kept_consume _ (.refl s))
  have honly : Only (.diag :: (answerParts ++ eventParts)) s u :=
    hu ▸ (only_consume_self (by decide) e.src s).raised (by decide) ..
  have hsvc : u.svc = (consume e.src s).svc := by simp [← hu]
  have hdiag : (finish (started cmdDiagInject e .loopback s) stOk 0 [] u).diag = s.diag := by simp [← hu]
  have hlater := kept_place fault count param (.refl (finish (started cmdDiagInject e .loopback s) stOk 0 [] u))
  refine ⟨_, hexec, fun h9 => ?_, fun h9 => ?_, (hraised.finished ..).later hlater, (answered hstart hkept hsvc).later hlater,
    (honly.finished (by decide) ..).trans ((only_place_diag h5 ..).mono (by decide))⟩
  · rw [place_waits h5 h9, hdiag]
  · rw [h9, place_withholds]

/-- DIAG_INJECT is denied while diagnostics are not enabled (13 R322). -/
theorem diagInject_denied {e : Entry} {s : State} (hstart : Starts cmdDiagInject e s) (hoff : s.cfg.act.diagEnable = 0) :
    Runs (.diagInject e) s fun t => Answers cmdDiagInject e stDenied 1 [] s t ∧ Only answerParts s t := by
  have hexec : exec (.diagInject e) s =
      .next (finish (started cmdDiagInject e .loopback s) stDenied 1 [] (consume e.src s)) := by
    refine congrArg Host.Outcome.next ((takeUp_starts hstart rfl).trans ?_)
    simp [hoff]
  exact ⟨_, hexec, answered_only hstart ..⟩

/-- Acknowledgements count again (13 R322). -/
theorem ackWithholdEnd_effect (s : State) :
    Runs .ackWithholdEnd s fun t => t.diag = { s.diag with withhold := false } ∧ Only [.diag] s t :=
  ⟨_, rfl, rfl, (Only.refl _ s).set_diag _ (by decide)⟩

/-! ### Counters (13 R323) -/

theorem counterBytes_consume (src : Src) (s : State) (c n : Nat) : counterBytes (consume src s) c n = counterBytes s c n := by
  simp [counterBytes]

/-- DIAG_COUNTERS maps the event counters of a class (13 R323). -/
theorem diagCounters_maps {e : Entry} {s : State} {c : Nat} (hArg : c = bitsNat (Entry.arg e 0) 0 8)
    (hstart : Starts cmdDiagCounters e s) (hlow : 1 ≤ c) (hhigh : c ≤ 0x0C) :
    Runs (.diagCounters e) s fun t =>
      t.aper.bytes = counterBytes s c 1 ∧ t.aper.gen = s.aper.gen + 1 ∧
      Answers cmdDiagCounters e stOk 0 [word [(0, 32, t.aper.bytes.length), (32, 32, t.aper.gen.toNat)]] s t ∧
      Only (.aper :: answerParts) s t := by
  have hgen : (consume e.src s).aper.gen = s.aper.gen := by simp
  generalize hwords : [word [(0, 32, (counterBytes s c 1).length), (32, 32, (s.aper.gen + 1).toNat)]] = words
  have hexec : exec (.diagCounters e) s = .next (finish (started cmdDiagCounters e .loopback s) stOk 0 words
      (mapAperture 0x0C020000 (counterBytes s c 1) (consume e.src s))) := by
    have hclass : ¬ (c ≠ 0xFF ∧ (c = 0 ∨ 0x0C < c)) := by omega
    have hone : c ≠ 0xFF := by omega
    refine congrArg Host.Outcome.next ((takeUp_starts hstart rfl).trans ?_)
    simp only [← hArg, if_neg hclass, if_neg hone, counterBytes_consume, mapAperture_aper, hgen, hwords]
  refine ⟨_, hexec, by rw [mapAperture_answer_aper], by rw [mapAperture_answer_aper], ?_,
    (only_mapAperture_answer ..).finished (by decide) ..⟩
  rw [mapAperture_answer_aper, hwords]
  exact answered hstart (kept_mapAperture _ _ (kept_consume _ (.refl s))) rfl

end Sys2Proof.Machine

open Sys2Proof Sys2Proof.Machine

/-- Settles O32: a loopback is `loopBegun` and a command that waits, which `settle` answers at its end; a fault takes its place
(`place_waits`, `place_withholds`) after its event and the answer; the counters of a class are `mapAperture` and an answer. -/
theorem diagnosticsAct : Obligations.DiagnosticsAct := by
  unfold Obligations.DiagnosticsAct
  rintro e s a rfl
  refine ⟨fun hstart hfree hpath hdur hlong hunit => ?_, fun n x l hloop => loopbackDurationEnd_settles hloop n x l,
    fun hstart hen hfault hcount hlimit => ?_, diagInject_denied, ackWithholdEnd_effect s, fun hstart hlow hhigh => ?_⟩
  · exact diagLoopback_begins rfl rfl rfl hstart hfree hpath hdur hlong hunit
  · exact diagInject_places rfl rfl rfl hstart hen hfault hcount hlimit
  · exact diagCounters_maps rfl hstart hlow hhigh
end

section
/-! SUPPORT. What a translation leaves of the DMA engine, and how a descriptor and a fault are put into it (14 R341, R345, R346). -/

namespace Sys2Proof.Machine

/-! ### Translating -/

/-- From `s` to `t` the DMA engine changed in its translation cache alone (14 R345). -/
def CacheOnly (s t : State) : Prop := ∃ cache ptr shared, t.dma = { s.dma with cache := cache, ptr := ptr, ptrShared := shared }

section
variable {s t u : State}

theorem CacheOnly.of_dma (h : t.dma = s.dma) : CacheOnly s t := ⟨_, _, _, h⟩

theorem CacheOnly.trans (h : CacheOnly s t) (k : CacheOnly t u) : CacheOnly s u := by
  obtain ⟨_, _, _, ht⟩ := h
  obtain ⟨cache, ptr, shared, hu⟩ := k
  exact ⟨cache, ptr, shared, by rw [hu, ht]⟩

theorem CacheOnly.ch (h : CacheOnly s t) : t.dma.ch = s.dma.ch := by
  obtain ⟨_, _, _, ht⟩ := h
  rw [ht]

theorem CacheOnly.faults (h : CacheOnly s t) : t.dma.faults = s.dma.faults := by
  obtain ⟨_, _, _, ht⟩ := h
  rw [ht]

end

/-- Using up an injected fault leaves the DMA engine (13 R322). -/
theorem injected_dma (fault : Nat) (p : BitVec 32 → Bool) (s : State) : (injected fault p s).2.dma = s.dma :=
  (only_injected (fr := [.diag]) fault p (by decide) (.refl _ s)).dma (by decide)

theorem cacheFill_cacheOnly {s t : State} (h : t.dma = s.dma) (flow va : Nat) (pg : Bool × Nat × Bool) :
    CacheOnly s (cacheFill flow va pg t) := ⟨_, _, _, by rw [← h]; rfl⟩

/-- A translation writes no more of the DMA engine than the cache, which a walk that finds a page fills (14 R345). -/
theorem translate_cacheOnly (flow : Nat) (write : Bool) (va : Nat) (s : State) :
    CacheOnly s (translate flow write va s).2 := by
  have hinj : (injected 8 (fun p => p.toNat == flow) s).2.dma = s.dma := injected_dma ..
  unfold translate
  dsimp only
  split
  · exact .of_dma hinj
  split
  · exact .of_dma hinj
  split
  · exact .of_dma hinj
  split
  · exact .of_dma (by simpa using hinj)
  split
  · exact .of_dma (by simpa using hinj)
  · exact cacheFill_cacheOnly (by simpa using hinj) ..

theorem vwriteFuel_cacheOnly (fuel flow va : Nat) (b : List Byte) (done : Nat) (s : State) :
    CacheOnly s (vwriteFuel fuel flow va b done s).2 := by
  induction fuel generalizing va b done s with
  | zero => exact .of_dma rfl
  | succ fuel ih =>
    have hpage := translate_cacheOnly flow true va s
    unfold vwriteFuel
    dsimp only
    split
    · exact .of_dma rfl
    split
    next htr =>
      rw [htr] at hpage
      exact hpage
    next htr =>
      rw [htr] at hpage
      exact hpage.trans ((CacheOnly.of_dma (by simp)).trans (ih ..))

theorem putSpace_cacheOnly {space flow a : Nat} {b : List Byte} {s t : State} (h : putSpace space flow a b s = some t) :
    CacheOnly s t := by
  unfold putSpace at h
  split at h
  · cases h
    exact .of_dma (by simp)
  · have hwrite : CacheOnly s (vwrite flow a b s).2 := vwriteFuel_cacheOnly ..
    split at h
    next hv =>
      rw [hv] at hwrite
      cases h
      exact hwrite
    · cases h

/-- Moving bytes of a transfer translates and writes memory (14 R332, R337). -/
theorem move_cacheOnly {d : DescF} {flow p q : Nat} {s t : State} (h : d.move flow p q s = some t) : CacheOnly s t := by
  unfold DescF.move at h
  dsimp only at h
  split at h
  · exact putSpace_cacheOnly h
  · cases h

/-- Finding out why an access faults is a translation at most (14 R346). -/
theorem faultReason_cacheOnly {flow va : Nat} {write busErr : Bool} {s u : State} {r : Option Nat}
    (h : faultReason flow write va busErr s = (r, u)) : CacheOnly s u := by
  have htr := translate_cacheOnly flow write va s
  unfold faultReason at h
  split at h
  · split at h <;> cases h <;> exact .of_dma rfl
  · split at h
    next hv =>
      rw [hv] at htr
      cases h
      exact htr
    · cases h
      exact .of_dma rfl

/-! ### Descriptors -/

theorem findDesc_mem {s : State} {c : Fin 16} {idx : BitVec 32} {d : Desc} (h : findDesc s c idx = some d) :
    d ∈ (s.dma.ch[c]).descs := List.mem_of_find?_eq_some h

theorem findDesc_idx {s : State} {c : Fin 16} {idx : BitVec 32} {d : Desc} (h : findDesc s c idx = some d) : d.idx = idx :=
  eq_of_beq (List.find?_some (p := fun y : Desc => y.idx == idx) h)

section
variable (c : Fin 16) (d : Desc) (s : State)

@[simp] theorem putDesc_faults : (putDesc c d s).dma.faults = s.dma.faults := rfl

@[simp] theorem putDesc_waiting : (putDesc c d s).dma.waiting = s.dma.waiting := rfl

theorem putDesc_descs :
    ((putDesc c d s).dma.ch[c]).descs = (s.dma.ch[c]).descs.map fun y => if y.idx = d.idx then d else y := by
  simp [putDesc, setCh]

end

/-- A descriptor put in the place of one of its index is in the channel. -/
theorem mem_putDesc {c : Fin 16} {d y : Desc} {s : State} (hy : y ∈ (s.dma.ch[c]).descs) (hidx : y.idx = d.idx) :
    d ∈ ((putDesc c d s).dma.ch[c]).descs := by
  rw [putDesc_descs]
  exact List.mem_map.mpr ⟨y, hy, if_pos hidx⟩

/-! ### The fault table (14 R346) -/

@[simp] theorem recordFault_ch (f : DFault) (s : State) : (recordFault f s).dma.ch = s.dma.ch := by
  unfold recordFault
  dsimp only
  split
  · simp
  · split <;> simp

/-- With room in the table a fault enters it under an id, with DTU_FAULT. -/
theorem recordFault_enters (f : DFault) {s : State} (hroom : s.dma.faults.length < 64) :
    ∃ i, { f with id := i } ∈ (recordFault f s).dma.faults ∧ Raises 0x0520 { f with id := i }.det s (recordFault f s) := by
  unfold recordFault
  rw [if_pos hroom]
  exact ⟨_, by simp, (raise_raises ..).sooner ((Kept.refl s).set_dma _)⟩

/-- With 64 faults outstanding a fault waits. -/
theorem recordFault_waits (f : DFault) {s : State} (hfull : 64 ≤ s.dma.faults.length) :
    f ∈ (recordFault f s).dma.waiting := by
  unfold recordFault
  rw [if_neg (by omega)]
  dsimp only
  split <;> simp

end Sys2Proof.Machine
end

section
/-! PROOF. A translation fault stalls the transfer that met it, and is entered or waits (14 R341, R346). -/

namespace Sys2Proof.Machine

/-! ### A channel's descriptor -/

/-- The descriptor stalled at `progress` (14 R341). -/
def Desc.stalledAt (d : Desc) (progress : Nat) : Desc := { d with st := .stalled, done := progress }

/-- The descriptor is stalled in `s` and its fault is recorded (14 R346). -/
def stallTold (c : Fin 16) (d : Desc) (progress : Nat) (f : DFault) (s : State) : State :=
  recordFault f (putDesc c (d.stalledAt progress) s)

section
variable {s u v : State} {c : Fin 16} {idx : BitVec 32} {d : Desc} {write : Bool} {va : BitVec 64} {progress r : Nat}
  {busErr : Bool}

/-- Up to the recording of a fault the DMA engine has changed in its cache alone. -/
theorem moved_cacheOnly {f : DescF} {flow p q : Nat} (hfault : faultReason flow write va.toNat busErr s = (some r, u))
    (hmove : f.move flow p q u = some v) : CacheOnly s v :=
  (faultReason_cacheOnly hfault).trans (move_cacheOnly hmove)

section
variable (hst : d.st = .active) (halive : d.f.alive s = true)
    (htouch : d.f.touches (d.f.maxIndex s (s.dma.ch[c]).flow.toNat) write va.toNat = true)
    (hlow : d.done ≤ progress) (hhigh : progress < d.f.len)
    (hfault : faultReason (s.dma.ch[c]).flow.toNat write va.toNat busErr s = (some r, u))
    (hmove : d.f.move (s.dma.ch[c]).flow.toNat d.done progress u = some v)
include hst halive htouch hlow hhigh hfault hmove

/-- The fault of a descriptor whose bytes before it are moved stalls it and is recorded; where the table then holds a fault of the
descriptor, the descriptor names it (14 R341, R346). -/
theorem stallDesc_told :
    let w := stallTold c d progress (mkFault (s.dma.ch[c]).flow r write c.val d.idx va progress) v
    stallDesc c d write va progress busErr s = w ∨
      ∃ id, stallDesc c d write va progress busErr s = putDesc c { d.stalledAt progress with faultId := id } w := by
  have hgo : ¬ (d.st ≠ .active ∨ d.f.alive s = false ∨
      d.f.touches (d.f.maxIndex s (s.dma.ch[c]).flow.toNat) write va.toNat = false ∨
      progress < d.done ∨ d.f.len ≤ progress) := by
    rintro (h | h | h | h | h)
    · exact h hst
    · cases halive.symm.trans h
    · cases htouch.symm.trans h
    · omega
    · omega
  unfold stallDesc
  simp only [if_neg hgo, hfault, hmove]
  split
  next g _ => exact .inr ⟨g.id, rfl⟩
  next => exact .inl rfl

/-- Whether or not it names the fault, the descriptor is stalled at the fault's progress, and the table is as the recording
left it. -/
theorem stallDesc_effect (hfind : findDesc s c idx = some d) :
    let t := stallDesc c d write va progress busErr s
    let w := stallTold c d progress (mkFault (s.dma.ch[c]).flow r write c.val idx va progress) v
    (∃ y ∈ (t.dma.ch[c]).descs, y.idx = idx ∧ y.st = .stalled ∧ y.done = progress) ∧
      t.dma.faults = w.dma.faults ∧ t.dma.waiting = w.dma.waiting ∧ Kept w t := by
  intro t w
  have hidx : d.idx = idx := findDesc_idx hfind
  have hmem : d.stalledAt progress ∈ (w.dma.ch[c]).descs := by
    have hch : v.dma.ch = s.dma.ch := (moved_cacheOnly hfault hmove).ch
    rw [show w.dma.ch = _ from recordFault_ch ..]
    exact mem_putDesc (y := d) (hch ▸ findDesc_mem hfind) rfl
  have htold := stallDesc_told hst halive htouch hlow hhigh hfault hmove
  rw [hidx] at htold
  obtain ht | ⟨id, ht⟩ := htold
  · rw [show t = w from ht]
    exact ⟨⟨_, hmem, hidx, rfl, rfl⟩, rfl, rfl, .refl w⟩
  · rw [show t = putDesc c { d.stalledAt progress with faultId := id } w from ht]
    exact ⟨⟨_, mem_putDesc hmem rfl, hidx, rfl, rfl⟩, rfl, rfl, kept_putDesc _ _ (.refl w)⟩

end

/-- A fault of a channel is that of its descriptor (14 R341). -/
theorem exec_dtuFault_channel {ctx : Fin 20} (hctx : ctx.val = c.val) (hfind : findDesc s c idx = some d) :
    exec (.dtuFault ctx idx write va progress busErr) s = .next (stallDesc c d write va progress busErr s) := by
  have hlt : ctx.val < 16 := hctx ▸ c.isLt
  obtain rfl : c = ⟨ctx.val, hlt⟩ := Fin.ext hctx.symm
  change execDtuFault ctx idx write va progress busErr s = _
  unfold execDtuFault
  rw [dif_pos hlt, hfind]

end

/-! ### The user of an internal context -/

/-- Stalling the user of an internal context leaves the fault table (14 R328, R346). -/
theorem stallUser_faults {ctx : Nat} {flow : BitVec 8} {progress : Nat} {s t : State}
    (h : stallUser ctx flow progress s = some t) : t.dma.faults = s.dma.faults := by
  have hwhen : ∀ (p : Prop) [Decidable p], (if p then some s else none) = some t → t.dma.faults = s.dma.faults := by
    intro p _ hp
    obtain ⟨-, hs⟩ := Option.ite_none_right_eq_some.mp hp
    rw [Option.some.inj hs]
  unfold stallUser at h
  split at h
  · exact hwhen _ h
  · split at h
    · exact hwhen _ h
    · cases h
  · exact hwhen _ h
  · split at h
    · obtain ⟨-, hs⟩ := Option.ite_none_left_eq_some.mp h
      rw [← Option.some.inj hs]
      rfl
    · obtain ⟨d, -, hcopy⟩ := Option.bind_eq_some_iff.mp h
      obtain ⟨-, hmap⟩ := Option.ite_none_left_eq_some.mp hcopy
      obtain ⟨v, hmove, rfl⟩ := Option.map_eq_some_iff.mp hmap
      exact (move_cacheOnly hmove).faults
    · exact hwhen _ h

section
variable {s u v : State} {ctx : Fin 20} {idx : BitVec 32} {write : Bool} {va : BitVec 64} {progress r : Nat} {busErr : Bool}

/-- A fault of an internal context that has none on the flow stalls its user and is recorded (14 R346). -/
theorem exec_dtuFault_internal (hctx : 16 ≤ ctx.val) (hon : domOn s .host = true)
    (hfirst : (s.dma.faults ++ s.dma.waiting).any
      (fun g => decide (g.ctx = ctx.val) && g.flow == BitVec.ofNat 8 idx.toNat) = false)
    (hfault : faultReason (BitVec.ofNat 8 idx.toNat).toNat write va.toNat busErr s = (some r, u))
    (hstall : stallUser ctx.val (BitVec.ofNat 8 idx.toNat) progress u = some v) :
    exec (.dtuFault ctx idx write va progress busErr) s =
      .next (recordFault (mkFault (BitVec.ofNat 8 idx.toNat) r write ctx.val idx va progress) v) := by
  change execDtuFault ctx idx write va progress busErr s = _
  unfold execDtuFault
  rw [dif_neg (by omega)]
  simp only [hon, hfirst, hfault, hstall, Bool.false_eq_true, Bool.true_eq_false, or_self, if_false]

end

end Sys2Proof.Machine

open Sys2Proof Sys2Proof.Machine

/-- Settles O49: up to the fault only the translation cache has changed (`CacheOnly`), so the descriptor and the table are those of
the outset when `stallDesc_told` stalls the one and records the fault in the other; an internal context records its own likewise. -/
theorem translationFaultsStall : Obligations.TranslationFaultsStall := by
  unfold Obligations.TranslationFaultsStall
  intro s idx write va progress busErr r
  refine ⟨fun c ctx d u v hctx hfind hst halive htouch hlow hhigh hfault hmove => ?_,
    fun ctx u v hctx hon hroom hfirst hfault hstall => ?_⟩
  · obtain ⟨hstalled, hfaults, hwaiting, hlater⟩ := stallDesc_effect hst halive htouch hlow hhigh hfault hmove hfind
    have hheld : v.dma.faults = s.dma.faults := (moved_cacheOnly hfault hmove).faults
    have hkept : Kept s v := kept_DescF_move _ _ _ _ (kept_faultReason_eq _ _ _ _ hfault (.refl s)) hmove
    refine ⟨_, exec_dtuFault_channel hctx hfind, hstalled, fun hroom => ?_, fun hfull => ?_⟩
    · obtain ⟨i, hentered, hraised⟩ := recordFault_enters (mkFault (s.dma.ch[c]).flow r write c.val idx va progress)
        (s := putDesc c (d.stalledAt progress) v) (by simpa [hheld] using hroom)
      exact ⟨_, hfaults ▸ hentered, rfl, rfl, rfl, rfl, rfl, (hraised.sooner (kept_putDesc _ _ hkept)).later hlater⟩
    · exact hwaiting ▸ recordFault_waits _ (by simpa [hheld] using hfull)
  · have hfaults : v.dma.faults = s.dma.faults := (stallUser_faults hstall).trans (faultReason_cacheOnly hfault).faults
    obtain ⟨i, hentered, hraised⟩ := recordFault_enters
      (mkFault (BitVec.ofNat 8 idx.toNat) r write ctx.val idx va progress) (hfaults ▸ hroom)
    have hkept : Kept s v := kept_stallUser _ _ _ (kept_faultReason_eq _ _ _ _ hfault (.refl s)) hstall
    exact ⟨_, exec_dtuFault_internal hctx hon hfirst hfault hstall, _, hentered, rfl, rfl, rfl, rfl, hraised.sooner hkept⟩
end

section
/-! PROOF. The whole machine: the state after reset, one step, and the order of the checks of a mailbox entry (07 R164, 12 R279,
16 R378, 17 R391, 20 R440, R449). -/

namespace Sys2Proof.Machine

/-! ### One step -/

theorem step_idle {s : State} (h : s.pending = []) : step s = .next (tick s) := by rw [step, h]

theorem step_front {s : State} {c : Instr} {rest : List Instr} (h : s.pending = c :: rest) :
    step s = exec c { s with pending := rest } := by rw [step, h]

/-- What every operation keeps includes the invariant. -/
theorem State.Inv.kept {s t : State} (h : s.Inv) (k : Kept s t) : t.Inv :=
  ⟨k.memory h.memory, k.slots h.slots, k.strobe h.strobe⟩

/-- The invariant does not speak of the queue. -/
theorem State.Inv.dequeued {s : State} (h : s.Inv) (rest : List Instr) : State.Inv { s with pending := rest } :=
  ⟨h.memory, h.slots, h.strobe⟩

theorem tick_base (s : State) (b : Fin 4) :
    (tick s).time.base[b] = if baseCounts s b then (s.time.base[b]).count 40 else s.time.base[b] := by
  simp [tick]

/-! ### Judging an entry -/

section
variable {c : Cmd} {e : Entry} {s : State}

theorem judge_unserved (hsrc : e.src = .service) (hserves : serviceServes c s = false) :
    c.judge e s = some (stDenied, 0x8009) := by
  simp [Cmd.judge, hsrc, hserves]

/-- What the service port serves is judged like an entry of a mailbox (20 R449). -/
theorem judge_served (h : e.src ≠ .service ∨ serviceServes c s = true) :
    c.judge e s =
      if e.argWords ≠ c.masks.length then some (stBadLength, 0)
      else if e.rsv ≠ 0 ∨ argsOk c.masks e.args.toList = false then some (stBadArg, 0x8008)
      else if c.modes.contains s.pm.mode = false then some (stBadState, 0x8000)
      else if c.needs.all (domOn s) = false then some (stBadState, 0x8001)
      else none := by
  refine if_neg ?_
  rcases h with h | h <;> simp [h]

end

end Sys2Proof.Machine

open Sys2Proof Sys2Proof.Machine

/-- Settles O4: a step either ticks or runs the front command on the rest of the queue, and both keep what `Kept` says. -/
theorem stepKeepsInv : Obligations.StepKeepsInv := by
  unfold Obligations.StepKeepsInv
  intro s t hinv hstep
  cases hqueue : s.pending with
  | nil =>
    rw [step_idle hqueue] at hstep
    cases hstep
    exact hinv.kept (kept_tick (.refl s))
  | cons c rest =>
    rw [step_front hqueue] at hstep
    exact (hinv.dequeued rest).kept (kept_exec c hstep)

/-- Settles O1: memory is empty, every key slot is the empty one, and the watchdog latch is clear. -/
theorem resetIsSafe : Obligations.ResetIsSafe := by
  unfold Obligations.ResetIsSafe
  refine ⟨⟨rfl, rfl⟩, fun i _ => ?_, fun hlatched => ?_⟩
  · have hslot : State.reset.keep.slots[i] = KeySlot.empty := Vector.getElem_replicate _
    rw [hslot]
    exact ⟨rfl, rfl, rfl⟩
  · cases hlatched

/-- Settles O2: the front command runs on the rest of the queue. -/
theorem stepTakesTheFront : Obligations.StepTakesTheFront := by
  unfold Obligations.StepTakesTheFront
  intro c rest s
  exact step_front rfl

/-- Settles O3: an idle step is a tick, which sets the four bases alone. -/
theorem idleStepCounts : Obligations.IdleStepCounts := by
  unfold Obligations.IdleStepCounts
  intro s hqueue
  refine ⟨tick s, step_idle hqueue, only_tick (by decide) (.refl _ s), fun b hcounts => ?_, fun b hcounts => ?_⟩
  · rw [tick_base, if_pos hcounts]
  · rw [tick_base, hcounts, if_neg (by decide)]

/-- Settles O7: each check is met by an entry that has passed the ones before it. -/
theorem checksComeInOrder : Obligations.ChecksComeInOrder := by
  unfold Obligations.ChecksComeInOrder
  intro c e s
  refine ⟨judge_unserved, fun hserved => ?_⟩
  rw [judge_served hserved]
  refine ⟨fun hwords => if_pos hwords, fun hwords hrsv => ?_, fun hwords hrsv hargs hmode => ?_,
    fun hwords hrsv hargs hmode hneeds => ?_⟩
  · exact (if_neg (not_not.mpr hwords)).trans (if_pos (.inl hrsv))
  · simp [hwords, hrsv, hargs, hmode]
  · simp [hwords, hrsv, hargs, hmode, hneeds]
end

section
/-! SUPPORT. What sending, routing and taking spores leave of the fabric: the ports keep all but the spores of their classes, and
the rest of the fabric keeps all but the message number and the flood cache (15 R353, R354, R360, R363). -/

namespace Sys2Proof.Machine

/-! ### Ports -/

theorem port_setPort_ne {p q : Fin 8} (h : q ≠ p) (x : Port) (s : State) : port (setPort p x s) q = port s q :=
  Vector.getElem_set_ne p.isLt q.isLt fun k => h (Fin.ext k.symm)

theorem port_of_fab {s t : State} (h : t.fab = s.fab) (q : Fin 8) : port t q = port s q := by
  rw [port, port, h]

@[simp] theorem port_raise (code : Nat) (d : Domain) (det : W128) (s : State) (q : Fin 8) :
    port (raise code d det s) q = port s q :=
  port_of_fab (by simp) q

/-- Two states whose fabrics differ in the spores that the ports hold, the message number and the flood cache alone. -/
structure LinkOnly (s t : State) : Prop where
  port : ∀ q, ∃ c, port t q = { port s q with cls := c }
  fab : ∃ ports msgId floods, t.fab = { s.fab with ports := ports, msgId := msgId, floods := floods }

section
variable {s t u : State}

theorem LinkOnly.of_fab (h : t.fab = s.fab) : LinkOnly s t := ⟨fun q => ⟨_, port_of_fab h q⟩, _, _, _, h⟩

theorem LinkOnly.refl (s : State) : LinkOnly s s := .of_fab rfl

theorem LinkOnly.trans (h : LinkOnly s t) (k : LinkOnly t u) : LinkOnly s u := by
  refine ⟨fun q => ?_, ?_⟩
  · obtain ⟨c, hc⟩ := h.port q
    obtain ⟨d, hd⟩ := k.port q
    exact ⟨d, by rw [hd, hc]⟩
  · obtain ⟨p, m, f, h⟩ := h.fab
    obtain ⟨p', m', f', k⟩ := k.fab
    exact ⟨p', m', f', by rw [k, h]⟩

theorem LinkOnly.st (h : LinkOnly s t) (q : Fin 8) : (Machine.port t q).st = (Machine.port s q).st := by
  obtain ⟨c, hc⟩ := h.port q
  rw [hc]

theorem LinkOnly.portUp (h : LinkOnly s t) (q : Fin 8) : portUp t q = portUp s q := by
  rw [Machine.portUp, Machine.portUp, h.st]

theorem LinkOnly.node (h : LinkOnly s t) : t.fab.node = s.fab.node := by
  obtain ⟨p, m, f, h⟩ := h.fab
  rw [h]

theorem LinkOnly.pair (h : LinkOnly s t) : t.fab.pair = s.fab.pair := by
  obtain ⟨p, m, f, h⟩ := h.fab
  rw [h]

theorem LinkOnly.mirror (h : LinkOnly s t) : t.fab.mirror = s.fab.mirror := by
  obtain ⟨p, m, f, h⟩ := h.fab
  rw [h]

theorem LinkOnly.found (h : LinkOnly s t) : t.fab.found = s.fab.found := by
  obtain ⟨p, m, f, h⟩ := h.fab
  rw [h]

theorem LinkOnly.halves (h : LinkOnly s t) : t.fab.halves = s.fab.halves := by
  obtain ⟨p, m, f, h⟩ := h.fab
  rw [h]

end

/-! ### Sending on a port (15 R353) -/

theorem linkOnly_setPClass (p : Fin 8) (c : Fin 4) (k : PClass) (s : State) : LinkOnly s (setPClass p c k s) := by
  refine ⟨fun q => ?_, _, _, _, rfl⟩
  by_cases h : q = p
  · subst h
    exact ⟨_, port_setPort_same q _ s⟩
  · exact ⟨_, port_setPort_ne h _ s⟩

/-- Sending a spore leaves the message number (15 R356). -/
structure SendsOn (s t : State) : Prop extends LinkOnly s t where
  msgId : t.fab.msgId = s.fab.msgId

theorem SendsOn.of_fab {s t : State} (h : t.fab = s.fab) : SendsOn s t := ⟨.of_fab h, by rw [h]⟩

theorem SendsOn.trans {s t u : State} (h : SendsOn s t) (k : SendsOn t u) : SendsOn s u :=
  ⟨h.toLinkOnly.trans k.toLinkOnly, k.msgId.trans h.msgId⟩

theorem sendsOn_setPClass (p : Fin 8) (c : Fin 4) (k : PClass) (s : State) : SendsOn s (setPClass p c k s) :=
  ⟨linkOnly_setPClass p c k s, rfl⟩

theorem injected_fab (fault : Nat) (f : BitVec 32 → Bool) (s : State) : (injected fault f s).2.fab = s.fab :=
  (only_injected (fr := [.diag]) fault f (by decide) (.refl _ s)).fab (by decide)

/-- The spore sent joins those of its class that are not acknowledged; the fabric keeps the rest (15 R354). -/
theorem transmit_fab (p : Fin 8) (c : Fin 4) (x : TxSpore) (s : State) :
    ∃ k, (transmit p c x s).fab = (setPClass p c k (injected 10 (fun q => q.toNat == p.val) s).2).fab := by
  unfold transmit
  dsimp only
  split <;> exact ⟨_, rfl⟩

theorem sendsOn_transmit (p : Fin 8) (c : Fin 4) (x : TxSpore) (s : State) : SendsOn s (transmit p c x s) := by
  obtain ⟨k, hk⟩ := transmit_fab p c x s
  exact (SendsOn.of_fab (injected_fab ..)).trans ((sendsOn_setPClass p c k _).trans (.of_fab hk))

theorem sendsOn_sendOn (p : Fin 8) (c : Fin 4) (x : TxSpore) (s : State) : SendsOn s (sendOn p c x s) := by
  unfold sendOn
  dsimp only
  split
  · exact sendsOn_transmit p c x s
  · exact sendsOn_setPClass p c _ s

/-! ### Originating a spore (15 R356, R359, R363) -/

theorem originateOn_msgId (p : Fin 8) (dst typ : Nat) (c : Fin 4) (payload : List Byte) (s : State) :
    (originateOn p dst typ c payload s).fab.msgId = s.fab.msgId + 1 :=
  (sendsOn_sendOn p c _ _).msgId

theorem linkOnly_originateOn (p : Fin 8) (dst typ : Nat) (c : Fin 4) (payload : List Byte) (s : State) :
    LinkOnly s (originateOn p dst typ c payload s) :=
  LinkOnly.trans (t := { s with fab := { s.fab with msgId := s.fab.msgId + 1 } }) ⟨fun _ => ⟨_, rfl⟩, _, _, _, rfl⟩
    (sendsOn_sendOn p c _ _).toLinkOnly

theorem linkOnly_undeliverable (reason : Nat) (s : State) : LinkOnly s (undeliverable reason s) :=
  .of_fab (by simp [undeliverable])

theorem linkOnly_send (dst typ : Nat) (c : Fin 4) (payload : List Byte) (s : State) :
    LinkOnly s (send dst typ c payload s) := by
  unfold send
  split
  · split
    · exact linkOnly_originateOn ..
    · exact linkOnly_undeliverable ..
  · exact .refl s

theorem linkOnly_sendAlternate (dst typ : Nat) (c : Fin 4) (payload : List Byte) (s : State) :
    LinkOnly s (sendAlternate dst typ c payload s) := by
  unfold sendAlternate
  dsimp only
  split
  · exact linkOnly_originateOn ..
  · exact .refl s

theorem linkOnly_sendBoth (dst typ : Nat) (c : Fin 4) (payload : List Byte) (s : State) :
    LinkOnly s (sendBoth dst typ c payload s) :=
  (linkOnly_send ..).trans (linkOnly_sendAlternate ..)

theorem linkOnly_nackSpore (w : W128) (reason sub : Nat) (s : State) : LinkOnly s (nackSpore w reason sub s) := by
  have htold : LinkOnly s (if reason = 1 ∨ reason = 2 ∨ reason = 7 then undeliverable reason s else s) := by
    split
    · exact linkOnly_undeliverable ..
    · exact .refl s
  unfold nackSpore
  dsimp only
  split
  · exact htold.trans (linkOnly_send ..)
  · exact htold

/-! ### Floods (15 R360) -/

theorem linkOnly_floodFrom (except : Option (Fin 8)) (typ : Nat) (payload : List Byte) (l : List (Fin 8)) (s : State) :
    LinkOnly s (floodFrom except typ payload l s) := by
  induction l generalizing s with
  | nil => exact .refl s
  | cons p l ih =>
    unfold floodFrom
    split
    · exact (linkOnly_originateOn ..).trans (ih _)
    · exact ih s

theorem linkOnly_rememberFlood (o : BitVec 64) (id : BitVec 32) (s : State) : LinkOnly s (rememberFlood o id s) :=
  ⟨fun _ => ⟨_, rfl⟩, _, _, _, rfl⟩

theorem linkOnly_floodOwn (typ : Nat) (id : BitVec 32) (b : List Byte) (s : State) : LinkOnly s (floodOwn typ id b s) := by
  unfold floodOwn
  split
  · exact (linkOnly_rememberFlood ..).trans (linkOnly_floodFrom ..)
  · exact .refl s

theorem linkOnly_forwardFlood (p : Fin 8) (sp : Spore) (l : List (Fin 8)) (s : State) :
    LinkOnly s (forwardFlood p sp l s) := by
  induction l generalizing s with
  | nil => exact .refl s
  | cons q l ih =>
    unfold forwardFlood
    split
    · exact (sendsOn_sendOn ..).toLinkOnly.trans (ih _)
    · exact ih s

/-! ### Routes and ports that leave UP (15 R355, R363) -/

theorem updateRoutes_ports (l : List (Nat × BitVec 32)) (s : State) : (updateRoutes l s).fab.ports = s.fab.ports := by
  induction l generalizing s with
  | nil => rfl
  | cons x l ih =>
    obtain ⟨d, r⟩ := x
    unfold updateRoutes
    dsimp only
    split
    · exact ih s
    · rw [ih]
      simp

theorem port_refreshRoutes (s : State) (q : Fin 8) : port (refreshRoutes s) q = port s q := by
  rw [port, refreshRoutes, updateRoutes_ports]
  rfl

theorem linkOnly_rerouteAll (l : List (Fin 4 × TxSpore)) (s : State) : LinkOnly s (rerouteAll l s) := by
  induction l generalizing s with
  | nil => exact .refl s
  | cons x l ih =>
    obtain ⟨c, t⟩ := x
    unfold rerouteAll
    dsimp only
    split
    · exact ih s
    · split
      · exact (sendsOn_sendOn ..).toLinkOnly.trans (ih _)
      · exact (linkOnly_nackSpore ..).trans (ih _)

/-! ### Taking a spore (15 R354) -/

theorem linkOnly_ackIfEight (p : Fin 8) (c : Fin 4) (s : State) : LinkOnly s (ackIfEight p c s) := by
  unfold ackIfEight
  dsimp only
  split
  · exact (linkOnly_setPClass ..).trans (.of_fab rfl)
  · exact .refl s

theorem linkTake_taken {p : Fin 8} {sp : Spore} {s : State} (h : (linkTake p sp s).1 = true) :
    (linkTake p sp s).2 =
      ackIfEight p sp.cls (setPClass p sp.cls ((pclass s p sp.cls).take ((sp.words + 3) / 4)) s) := by
  revert h
  unfold linkTake
  dsimp only
  split
  · exact nofun
  split
  · exact nofun
  split
  · exact nofun
  split
  · split
    · exact fun _ => rfl
    · exact nofun
  · split <;> exact nofun

/-- A spore that is taken costs its class an acknowledgement and credits (15 R353, R354). -/
theorem linkOnly_taken {p : Fin 8} {sp : Spore} {s : State} (h : (linkTake p sp s).1 = true) :
    LinkOnly s (linkTake p sp s).2 := by
  rw [linkTake_taken h]
  exact (linkOnly_setPClass ..).trans (linkOnly_ackIfEight ..)

end Sys2Proof.Machine
end

section
/-! PROOF. Ports that train, fail, come UP with a HELLO and fall (15 R355). -/

namespace Sys2Proof.Machine

/-! ### Training -/

theorem sendTrain_fab (p : Fin 8) (l : List Nat) (s : State) : (sendTrain p l s).fab = s.fab :=
  (only_sendTrain (fr := [.out]) p l (by decide) (.refl _ s)).fab (by decide)

/-- Each lane named gets its TRAIN block (15 R352). -/
theorem sendTrain_gives (p : Fin 8) {l : Nat} {lanes : List Nat} (h : l ∈ lanes) (s : State) :
    Gives (.block p.val (ctlBlock 0x66 [(0, 8, l), (8, 8, 0xFE)])) s (sendTrain p lanes s) := by
  induction lanes generalizing s with
  | nil => cases h
  | cons x lanes ih =>
    unfold sendTrain
    rcases List.mem_cons.mp h with rfl | hmem
    · exact (emit_gives ..).later (kept_sendTrain _ _ (.refl _))
    · exact (ih hmem _).sooner (kept_emit _ (.refl s))

section
variable {s : State} {p : Fin 8} (hst : (port s p).st = .down) (hon : domOn s .fab = true) (hloop : loopOnPort s p.val = false)
include hst hon hloop

theorem startTraining_eq :
    startTraining p s = sendHello p (sendTrain p [0, 1, 2, 3] (setPort p { port s p with st := .training } s)) := by
  unfold startTraining
  simp [hst, hon, hloop]

theorem port_startTraining_same : port (startTraining p s) p = { port s p with st := .training } := by
  rw [startTraining_eq hst hon hloop]
  exact (port_of_fab (sendTrain_fab ..) p).trans (port_setPort_same ..)

theorem port_startTraining_ne {q : Fin 8} (h : q ≠ p) : port (startTraining p s) q = port s q := by
  rw [startTraining_eq hst hon hloop]
  exact (port_of_fab (sendTrain_fab ..) q).trans (port_setPort_ne h ..)

/-- A port in DOWN enters TRAINING and sends its TRAIN blocks (15 R355). -/
theorem startTraining_effect :
    (port (startTraining p s) p).st = .training ∧ (∀ q : Fin 8, q ≠ p → port (startTraining p s) q = port s q) ∧
      (∀ l ∈ [0, 1, 2, 3], Gives (.block p.val (ctlBlock 0x66 [(0, 8, l), (8, 8, 0xFE)])) s (startTraining p s)) ∧
      Only [.out, .fab] s (startTraining p s) := by
  refine ⟨by rw [port_startTraining_same hst hon hloop], fun q => port_startTraining_ne hst hon hloop, fun l hl => ?_,
    only_startTraining p (by decide) (by decide) (.refl _ s)⟩
  rw [startTraining_eq hst hon hloop]
  exact ((sendTrain_gives p hl _).sooner (kept_setPort _ _ (.refl s))).later (kept_sendHello _ (.refl _))

end

/-- A training that has failed leaves the port DOWN (15 R355). -/
theorem portTrainingTimeout_effect {s : State} {p : Fin 8} (hst : (port s p).st = .training) :
    Runs (.portTrainingTimeout p) s fun t =>
      port t p = { port s p with st := .down } ∧ (∀ q : Fin 8, q ≠ p → port t q = port s q) ∧ Only [.fab] s t :=
  ⟨_, congrArg Host.Outcome.next (if_pos hst), port_setPort_same .., fun _ h => port_setPort_ne h ..,
    only_setPort _ _ (by decide) (.refl _ s)⟩

/-! ### A port that leaves UP -/

theorem portDown_st (p : Fin 8) (s : State) : (port (portDown p s) p).st = .down := by
  unfold portDown
  dsimp only
  rw [(linkOnly_rerouteAll ..).st p, port_refreshRoutes]
  exact congrArg Port.st ((port_raise ..).trans (port_setPort_same ..))

theorem portDown_raises (p : Fin 8) (s : State) : Raises 0x0601 0 s (portDown p s) :=
  ((raise_raises ..).sooner (kept_setPort _ _ (.refl s))).later (kept_rerouteAll _ (kept_refreshRoutes (.refl _)))

theorem sourceLost_fab (b : Fin 4) (s : State) : (sourceLost b s).fab = s.fab :=
  (only_sourceLost (fr := [.out, .time, .win, .nor, .evt, .stats, .hostMem]) b (by decide) (by decide) (by decide) (by decide)
    (by decide) (by decide) (by decide) (.refl _ s)).fab (by decide)

/-- A port that loses its block lock goes DOWN, and FT with it where it is the source port (15 R355, 16 R384). -/
theorem portGone_effect (p : Fin 8) (s : State) : (port (portGone p s) p).st = .down ∧ Raises 0x0601 0 s (portGone p s) := by
  unfold portGone
  dsimp only
  split
  · exact ⟨by rw [port_of_fab (sourceLost_fab ..), portDown_st], (portDown_raises p s).later (kept_sourceLost _ (.refl _))⟩
  · exact ⟨portDown_st p s, portDown_raises p s⟩

/-! ### HELLO -/

theorem exec_hello {s : State} {p : Fin 8} {sp : Spore} (hst : (port s p).st = .training) (hon : domOn s .fab = true)
    (htype : hdrType sp.header = 1) (hvalid : helloValid sp = true) (hother : helloSerial sp.payload ≠ Config.serial) :
    exec (.hello p sp) s = .next (portComesUp p sp.payload s) := by
  refine congrArg Host.Outcome.next ?_
  rw [if_neg (not_not.mpr htype), if_pos hst, if_neg (by simp [hon, hvalid]), if_neg hother]

theorem port_portComesUp (p : Fin 8) (b : List Byte) (s : State) (q : Fin 8) :
    port (portComesUp p b s) q = port (setPort p { port s p with
      st := .up, cls := Vector.replicate 4 PClass.init, pSerial := helloSerial b, pNode := helloNode b } s) q :=
  (port_refreshRoutes ..).trans (port_of_fab (by simp) q)

/-- The port comes UP with the partner that its HELLO names (15 R355, R358). -/
theorem portComesUp_effect (p : Fin 8) (b : List Byte) (s : State) :
    (port (portComesUp p b s) p).st = .up ∧ (port (portComesUp p b s) p).pSerial = helloSerial b ∧
      (port (portComesUp p b s) p).pNode = helloNode b ∧
      (port (portComesUp p b s) p).cls = Vector.replicate 4 PClass.init ∧
      (∀ q : Fin 8, q ≠ p → port (portComesUp p b s) q = port s q) ∧ Raises 0x0600 0 s (portComesUp p b s) ∧
      Only (.fab :: eventParts) s (portComesUp p b s) := by
  rw [port_portComesUp, port_setPort_same]
  refine ⟨rfl, rfl, rfl, rfl, fun q h => ?_, ?_, ?_⟩
  · rw [port_portComesUp, port_setPort_ne h]
  · exact ((raise_raises ..).sooner (kept_setPort _ _ (.refl s))).later (kept_refreshRoutes (.refl _))
  · exact only_portComesUp p b (by decide) (by decide) (by decide) (by decide) (by decide) (by decide) (by decide) (.refl _ s)

end Sys2Proof.Machine

open Sys2Proof Sys2Proof.Machine

/-- Settles O36: training is `startTraining`, a fall is `portGone`, a sound HELLO is `portComesUp`; sending and rerouting leave the
state of every port (`LinkOnly`). -/
theorem portsTrainAndFall : Obligations.PortsTrainAndFall := by
  unfold Obligations.PortsTrainAndFall
  intro s p
  refine ⟨fun i hi hst hon hloop => ?_, portTrainingTimeout_effect, fun halive hup => ?_,
    fun sp hst hon htype hvalid hother => ?_⟩
  · have hexec : exec i s = .next (startTraining p s) := by
      simp only [List.mem_cons, List.not_mem_nil, or_false] at hi
      rcases hi with rfl | rfl <;> exact congrArg Host.Outcome.next (if_pos hst)
    exact ⟨_, hexec, startTraining_effect hst hon hloop⟩
  · exact ⟨_, congrArg Host.Outcome.next (if_pos (by rw [halive, hup]; rfl)), portGone_effect p s⟩
  · exact ⟨_, exec_hello hst hon htype hvalid hother, portComesUp_effect p sp.payload s⟩
end

section
/-! SUPPORT. What a spore that this device hears leaves before it is acted upon (15 R354, R360). -/

namespace Sys2Proof.Machine

section
variable {typ : Nat} {p : Fin 8} {sp : Spore} {s : State} (h : Heard typ p sp s)
include h

theorem Heard.linkOnly : LinkOnly s (linkTake p sp s).2 := linkOnly_taken h.2.1

/-- Taking the spore costs an acknowledgement alone (15 R354). -/
theorem Heard.only : Only [.out, .fab] s (linkTake p sp s).2 := by
  rw [linkTake_taken h.2.1]
  exact only_ackIfEight p sp.cls (by decide) (by decide) (only_setPClass p sp.cls _ (by decide) (.refl _ s))

theorem rxSpore_heard (deliver : State → State) : rxSpore typ p sp deliver s = deliver (linkTake p sp s).2 := by
  obtain ⟨htype, htaken, hsound, hhere, hmode⟩ := h
  unfold rxSpore
  simp [htype, htaken, hsound, if_pos hhere, if_neg hmode]

/-- A flood that is heard is remembered and forwarded, then acted upon (15 R360). -/
theorem rxFlood_heard (act : State → State) :
    ∃ u, rxFlood typ p sp act s = act u ∧ LinkOnly s u ∧ Kept s u ∧ Only [.out, .fab, .diag, .stats] s u := by
  have honly := h.only.mono (cs := [.out, .fab, .diag, .stats]) (by decide)
  by_cases hflood : hdrDst sp.header = 0xFFF
  · obtain ⟨htype, htaken, hsound, -, hmode⟩ := id h
    unfold rxFlood
    simp only [htype, htaken, hsound, hflood, if_neg hmode, ne_eq, not_true_eq_false, if_false, Bool.not_true, Bool.false_eq_true]
    refine ⟨_, rfl, ?_⟩
    split
    · exact ⟨h.linkOnly, kept_linkTake p sp (.refl s), honly⟩
    · split
      · exact ⟨h.linkOnly.trans (linkOnly_rememberFlood ..), kept_rememberFlood _ _ (kept_linkTake p sp (.refl s)),
          only_rememberFlood _ _ (by decide) honly⟩
      · exact ⟨h.linkOnly.trans ((linkOnly_rememberFlood ..).trans (linkOnly_forwardFlood ..)),
          kept_forwardFlood _ _ _ (kept_rememberFlood _ _ (kept_linkTake p sp (.refl s))),
          only_forwardFlood _ _ _ (by decide) (by decide) (by decide) (by decide) (only_rememberFlood _ _ (by decide) honly)⟩
  · refine ⟨_, ?_, h.linkOnly, kept_linkTake p sp (.refl s), honly⟩
    unfold rxFlood
    rw [if_neg (not_not.mpr h.1), if_pos hflood, rxSpore_heard h]

end

end Sys2Proof.Machine
end

section
/-! PROOF. Discovery, node IDs and routes (13 R313, 15 R360-R362). -/

namespace Sys2Proof.Machine

/-! ### Discovery (15 R360) -/

/-- A port in TRAINING stays so as another port begins to train, or this one again. -/
theorem port_startTraining_training {p q : Fin 8} {s : State} (h : (port s q).st = .training) :
    (port (startTraining p s) q).st = .training := by
  unfold startTraining
  dsimp only
  split
  · exact h
  · rename_i hfree
    have hne : q ≠ p := by
      rintro rfl
      simp [h] at hfree
    change (port (sendTrain p _ _) q).st = _
    rw [port_of_fab (sendTrain_fab ..), port_setPort_ne hne, h]

theorem port_startTraining_other {p q : Fin 8} (hne : q ≠ p) (s : State) : port (startTraining p s) q = port s q := by
  unfold startTraining
  dsimp only
  split
  · rfl
  · change port (sendTrain p _ _) q = _
    rw [port_of_fab (sendTrain_fab ..), port_setPort_ne hne]

theorem trainPorts_training {q : Fin 8} (mask : Nat) (l : List (Fin 8)) {s : State} (h : (port s q).st = .training) :
    (port (trainPorts mask l s) q).st = .training := by
  induction l generalizing s with
  | nil => exact h
  | cons p l ih =>
    unfold trainPorts
    split
    · exact ih (port_startTraining_training h)
    · exact ih h

/-- Every port that the mask names trains where it is DOWN, FAB is powered and no loopback holds it (15 R360). -/
theorem trainPorts_trains {q : Fin 8} {mask : Nat} {l : List (Fin 8)} {s : State} (hq : q ∈ l) (hmask : mask.testBit q.val = true)
    (hdown : (port s q).st = .down) (hon : domOn s .fab = true) (hloop : loopOnPort s q.val = false) :
    (port (trainPorts mask l s) q).st = .training := by
  induction l generalizing s with
  | nil => cases hq
  | cons p l ih =>
    unfold trainPorts
    by_cases hqp : q = p
    · subst hqp
      rw [if_pos hmask]
      exact trainPorts_training _ _ (by rw [port_startTraining_same hdown hon hloop])
    · have hmem : q ∈ l := (List.mem_cons.mp hq).resolve_left hqp
      split
      · have honly : Only [.out, .fab] s (startTraining p s) := only_startTraining p (by decide) (by decide) (.refl _ s)
        refine ih hmem ?_ ?_ ?_
        · rw [port_startTraining_other hqp, hdown]
        · rw [← hon, domOn, domOn, running, running, honly.pm (by decide)]
        · rw [← hloop, loopOnPort, loopOnPort, honly.diag (by decide)]
      · exact ih hmem hdown hon hloop

/-- The state in which a discovery floods its TOPO: the named ports train, nothing is found yet (15 R360). -/
def discoveryBegun (mask : Nat) (s : State) : State :=
  let t := newFlood (trainPorts mask allPorts s)
  { t with fab := { t.fab with found := [] } }

theorem exec_fabDiscover {e : Entry} {s : State} (hstart : Starts cmdFabDiscover e s) (hfree : objBusy s [(5, 0, 0)] = false) :
    exec (.fabDiscover e) s = .next (wait (started cmdFabDiscover e .loopback s) .discover
      (let t := discoveryBegun (bitsNat (Entry.arg e 0) 0 8) (consume e.src s)
       floodOwn 0x02 t.fab.floodId (topoBody t) t)) :=
  congrArg Host.Outcome.next ((takeUp_starts hstart hfree).trans rfl)

/-- A command that can start has the domains that it needs (13 R289). -/
theorem Starts.needs {c : Cmd} {e : Entry} {s : State} (h : Starts c e s) : c.needs.all (domOn s) = true := by
  obtain ⟨-, -, -, hjudge⟩ := h
  by_cases hneeds : c.needs.all (domOn s) = true
  · exact hneeds
  · unfold Cmd.judge at hjudge
    simp only [Bool.not_eq_true] at hneeds
    (repeat' split at hjudge) <;> simp_all

theorem domOn_consume (src : Src) (s : State) (d : Domain) : domOn (consume src s) d = domOn s d := by
  simp [domOn, running]

theorem fabDiscover_effect {e : Entry} {s : State} (hstart : Starts cmdFabDiscover e s)
    (hfree : objBusy s [(5, 0, 0)] = false) : Runs (.fabDiscover e) s fun t =>
      t.fab.found = [] ∧ started cmdFabDiscover e .discover s ∈ t.mb.running ∧
      ∀ q : Fin 8, bitAt (Entry.arg e 0) q.val = true → (port s q).st = .down → loopOnPort s q.val = false →
        (port t q).st = .training := by
  refine ⟨_, exec_fabDiscover hstart hfree, (linkOnly_floodOwn ..).found, started_mem_wait .., fun q hbit hdown hloop => ?_⟩
  refine ((linkOnly_floodOwn ..).st q).trans (trainPorts_trains (s := consume e.src s) ?_ ?_ ?_ ?_ ?_)
  · fin_cases q <;> simp [allPorts]
  · rw [bitsNat_testBit_low _ q.isLt, hbit]
  · rw [port_of_fab (s := s) (by simp) q, hdown]
  · rw [domOn_consume]
    simpa [cmdFabDiscover] using hstart.needs
  · rw [← hloop]
    simp only [loopOnPort, consume_parts]

/-- A TOPO of another device is collected while a discovery runs, whether it is answered or not (15 R360). -/
theorem answerTopo_found (o : BitVec 64) (id : BitVec 32) (s : State) : (answerTopo o id s).fab.found = s.fab.found := by
  unfold answerTopo
  split
  · rfl
  · exact (linkOnly_floodOwn ..).found

theorem collect_found {s : State} (h : discovering s = true) (f : Found) : f ∈ (collect f s).fab.found := by
  simp [collect, h]

theorem topo_effect {p : Fin 8} {sp : Spore} {s : State} (h : Heard 2 p sp s) (hdisc : discovering s = true)
    (hother : (foundOf sp.payload).serial ≠ Config.serial) :
    Runs (.topo p sp) s fun t => foundOf sp.payload ∈ t.fab.found := by
  obtain ⟨u, hflood, -, -, honly⟩ := rxFlood_heard h fun t =>
    if (foundOf sp.payload).serial = Config.serial then t
    else answerTopo (foundOf sp.payload).serial (BitVec.ofNat 32 (leAt sp.payload 8 4)) (collect (foundOf sp.payload) t)
  rw [if_neg hother] at hflood
  refine ⟨_, congrArg Host.Outcome.next hflood, ?_⟩
  beta_reduce
  rw [answerTopo_found]
  exact collect_found (by rw [← hdisc, discovering, discovering, honly.mb (by decide)]) _

theorem discoveryCollectTimeout_effect {s : State} (hdisc : discovering s = true) :
    Runs .discoveryCollectTimeout s fun t =>
      discovering t = false ∧ Raises 0x0606 0 s t ∧ Only (answerParts ++ eventParts) s t := by
  refine ⟨_, congrArg Host.Outcome.next (if_pos hdisc), ?_, (raise_raises ..).later (kept_settle _ (.refl _)), ?_⟩
  · simp [discovering, settle_running]
  · exact only_settle _ (by decide) (by decide) (by decide) (by decide) (by decide) (by decide)
      ((Only.refl _ s).raised (by decide) ..)

/-! ### Node IDs (15 R361) -/

/-- No command waits any longer for this serial and node (15 R361). -/
theorem nodeAnswered_running (serial : BitVec 64) (node : BitVec 12) (s : State) :
    ∀ w ∈ (nodeAnswered serial node s).mb.running, w.on ≠ .assignNode serial node := by
  intro w hw hon
  rw [nodeAnswered, settle_running] at hw
  simpa [hon] using (List.mem_filter.mp hw).2

theorem nodeAnswered_fab (serial : BitVec 64) (node : BitVec 12) (s : State) : (nodeAnswered serial node s).fab = s.fab :=
  (only_nodeAnswered (fr := answerParts) serial node (by decide) (by decide) (by decide) (by decide) (by decide) (by decide)
    (.refl _ s)).fab (by decide)

theorem takeNode_node (n : BitVec 12) (s : State) : (takeNode n s).fab.node = n := by simp [takeNode]

theorem takeNode_raises (n : BitVec 12) (s : State) : Raises 0x0607 0 s (takeNode n s) :=
  (raise_raises ..).sooner ((Kept.refl s).set_fab _)

/-- The state in which FAB_ASSIGN_NODE waits, its ASSIGN flooded (15 R361). -/
def assignSent (e : Entry) (serial : BitVec 64) (node : BitVec 12) (s : State) : State :=
  wait (started cmdFabAssignNode e .loopback s) (.assignNode serial node)
    (floodOwn 0x03 (s.fab.floodId + 1) (wordBytes (word [(0, 64, serial.toNat), (64, 12, node.toNat)])) (newFlood (consume e.src s)))

theorem exec_fabAssignNode {e : Entry} {s : State} {serial : BitVec 64} {node : BitVec 12}
    (hstart : Starts cmdFabAssignNode e s) (hfree : objBusy s [(5, 0, 0)] = false)
    (hserial : serial = bitsOf (Entry.arg e 0) 0 64) (hnode : node = bitsOf (Entry.arg e 0) 64 12)
    (hok : nodeOk node.toNat = true) (hnew : nodeTaken s node = false) :
    exec (.fabAssignNode e) s = .next
      (if serial = Config.serial ∧ (assignSent e serial node s).fab.pair.st = .unpaired then
        nodeAnswered serial node (takeNode node (assignSent e serial node s))
      else assignSent e serial node s) := by
  have hfab : (consume e.src s).fab = s.fab := by simp
  have hnew' : nodeTaken (consume e.src s) node = false := by rw [← hnew, nodeTaken, nodeTaken, hfab]
  refine congrArg Host.Outcome.next ((takeUp_starts hstart hfree).trans ?_)
  simp only [← hserial, ← hnode, hok, hnew', Bool.true_eq_false, Bool.false_eq_true, if_false, assignSent, newFlood, hfab]

theorem assignSent_linkOnly (e : Entry) (serial : BitVec 64) (node : BitVec 12) (s : State) :
    LinkOnly (newFlood s) (assignSent e serial node s) := by
  have hfab : (newFlood (consume e.src s)).fab = (newFlood s).fab := by simp [newFlood]
  exact (LinkOnly.of_fab hfab).trans (.trans (linkOnly_floodOwn ..) (.of_fab rfl))

theorem kept_assignSent (e : Entry) (serial : BitVec 64) (node : BitVec 12) (s : State) :
    Kept s (assignSent e serial node s) :=
  kept_wait _ _ (kept_floodOwn _ _ _ ((kept_consume _ (.refl s)).set_fab _))

/-- A device that assigns itself takes the node ID and answers at once (15 R361). -/
theorem selfAssign_effect (e : Entry) (serial : BitVec 64) (node : BitVec 12) (s : State) :
    let t := nodeAnswered serial node (takeNode node (assignSent e serial node s))
    t.fab.node = node ∧ Raises 0x0607 0 s t ∧ ∀ w ∈ t.mb.running, w.on ≠ .assignNode serial node := by
  refine ⟨?_, ?_, fun w => nodeAnswered_running _ _ _ w⟩
  · rw [nodeAnswered_fab, takeNode_node]
  · exact ((takeNode_raises node _).sooner (kept_assignSent e serial node s)).later (kept_nodeAnswered _ _ (.refl _))

theorem assign_effect {p : Fin 8} {sp : Spore} {s : State} {node : BitVec 12} (h : Heard 3 p sp s)
    (hserial : BitVec.ofNat 64 (leAt sp.payload 16 8) = Config.serial) (hpair : s.fab.pair.st = .unpaired)
    (hnode : node = BitVec.ofNat 12 (leAt sp.payload 24 2)) (hok : nodeOk node.toNat = true) (hnew : s.fab.node ≠ node) :
    Runs (.assign p sp) s fun t => t.fab.node = node ∧ Raises 0x0607 0 s t := by
  obtain ⟨u, hflood, hlink, hkept, -⟩ := rxFlood_heard h fun t =>
    if BitVec.ofNat 64 (leAt sp.payload 16 8) ≠ Config.serial ∨ t.fab.pair.st ≠ .unpaired ∨
        nodeOk (BitVec.ofNat 12 (leAt sp.payload 24 2)).toNat = false ∨ t.fab.node = BitVec.ofNat 12 (leAt sp.payload 24 2) then t
    else
      send (hdrSrc sp.header) 0x04 3 (wordBytes (word [(0, 64, (BitVec.ofNat 64 (leAt sp.payload 16 8)).toNat),
        (64, 12, (BitVec.ofNat 12 (leAt sp.payload 24 2)).toNat)])) (takeNode (BitVec.ofNat 12 (leAt sp.payload 24 2)) t)
  rw [← hnode, if_neg (by simp [hserial, hlink.pair, hlink.node, hpair, hok, hnew])] at hflood
  subst hnode
  refine ⟨_, congrArg Host.Outcome.next hflood, ?_, ?_⟩
  · rw [(linkOnly_send ..).node, takeNode_node]
  · exact ((takeNode_raises _ u).sooner hkept).later (kept_send _ _ _ _ (.refl _))

theorem assignTimeout_effect (s : State) : Runs .assignTimeout s fun t =>
    (∀ w ∈ t.mb.running, ∀ x n, w.on ≠ .assignNode x n) ∧ Only answerParts s t := by
  refine ⟨_, rfl, fun w hw x n hon => ?_,
    only_settle _ (by decide) (by decide) (by decide) (by decide) (by decide) (by decide) (.refl _ s)⟩
  rw [settle_running] at hw
  simpa [hon] using (List.mem_filter.mp hw).2

/-! ### Routes (15 R362) -/

/-- Judging the ports anew changes USING_ALT alone in an entry (15 R363). -/
theorem updateRoutes_low (l : List (Nat × BitVec 32)) (s : State) (d : Nat) :
    bitsNat (routeOf (updateRoutes l s) d) 0 9 = bitsNat (routeOf s d) 0 9 := by
  induction l generalizing s with
  | nil => rfl
  | cons x l ih =>
    obtain ⟨k, r⟩ := x
    unfold updateRoutes
    dsimp only
    split
    · exact ih s
    · rw [ih]
      simp only [routeOf, raise_parts]
      by_cases hkey : d = k
      · subst hkey
        rw [tget_tput_self]
        simp only [Option.getD_some, setUsingAlt, bitsNat, BitVec.toNat_ofNat]
        omega
      · rw [tget_tput_ne _ hkey]

theorem tget_none_ne {α : Type} {t : Tbl α} {n : Nat} (h : tget t n = none) : ∀ x ∈ t, x.1 ≠ n := by
  induction t with
  | nil => exact nofun
  | cons y t ih =>
    obtain ⟨k, v⟩ := y
    intro x hx
    unfold tget at h
    split at h
    · cases h
    · rename_i hkey
      rcases List.mem_cons.mp hx with rfl | hmem
      · exact hkey
      · exact ih h x hmem

/-- Judging the ports anew adds no entry (15 R363). -/
theorem updateRoutes_none {d : Nat} {l : List (Nat × BitVec 32)} {s : State} (hl : ∀ x ∈ l, x.1 ≠ d)
    (h : tget s.fab.routes d = none) : tget (updateRoutes l s).fab.routes d = none := by
  induction l generalizing s with
  | nil => exact h
  | cons x l ih =>
    obtain ⟨k, r⟩ := x
    have hkey : d ≠ k := (hl (k, r) List.mem_cons_self).symm
    have hrest : ∀ x ∈ l, x.1 ≠ d := fun x hx => hl x (List.mem_cons_of_mem _ hx)
    unfold updateRoutes
    dsimp only
    split
    · exact ih hrest h
    · exact ih hrest (by simp only [raise_parts]; rw [tget_tput_ne _ hkey, h])

/-- The entry written holds its ports and its flags whatever stood there before (15 R362). -/
theorem routeEntry_low (a : W128) (old : BitVec 32) : bitsNat (routeEntry a old) 0 9 = bitsNat (routeEntry a 0) 0 9 := by
  simp only [routeEntry, packFields, bitsNat, BitVec.toNat_ofNat]
  omega

/-- The routes that FAB_SET_ROUTE leaves, before the ports are judged anew (15 R362). -/
def routesSet (a : W128) (s : State) : Tbl (BitVec 32) :=
  let d := bitsNat a 0 12
  if bitAt a 20 then tput s.fab.routes d (routeEntry a (routeOf s d)) else tdel s.fab.routes d

theorem exec_fabSetRoute {e : Entry} {s : State} (hstart : Starts cmdFabSetRoute e s)
    (hok : nodeOk (bitsNat (Entry.arg e 0) 0 12) = true) :
    exec (.fabSetRoute e) s = .next (finish (started cmdFabSetRoute e .loopback s) stOk 0 []
      (refreshRoutes { consume e.src s with fab := { s.fab with routes := routesSet (Entry.arg e 0) s } })) := by
  have hfab : (consume e.src s).fab = s.fab := by simp
  refine congrArg Host.Outcome.next ((takeUp_starts hstart rfl).trans ?_)
  simp only [hok, Bool.true_eq_false, if_false, routesSet, routeOf, hfab]

/-- FAB_SET_ROUTE answers and touches the fabric alone (13 R313). -/
theorem fabSetRoute_answers {e : Entry} {s : State} (hstart : Starts cmdFabSetRoute e s) (f : Fabric) :
    let t := finish (started cmdFabSetRoute e .loopback s) stOk 0 [] (refreshRoutes { consume e.src s with fab := f })
    Answers cmdFabSetRoute e stOk 0 [] s t ∧ Only (.fab :: (answerParts ++ eventParts)) s t := by
  have honly : Only (.fab :: (answerParts ++ eventParts)) s (refreshRoutes { consume e.src s with fab := f }) :=
    only_refreshRoutes (by decide) (by decide) (by decide) (by decide) (by decide) (by decide) (by decide)
      ((only_consume_self (by decide) e.src s).set_fab f (by decide))
  refine ⟨answered hstart (kept_refreshRoutes ((kept_consume _ (.refl s)).set_fab f)) ?_, honly.finished (by decide) ..⟩
  exact (only_refreshRoutes (fr := .fab :: eventParts) (s0 := { consume e.src s with fab := f }) (by decide) (by decide)
    (by decide) (by decide) (by decide) (by decide) (by decide) (.refl _ _)).svc (by decide)

theorem finish_refreshRoutes_routes (w : Waiting) (a b : Nat) (l : List W128) (s : State) :
    (finish w a b l (refreshRoutes s)).fab.routes = (updateRoutes s.fab.routes s).fab.routes := by simp [refreshRoutes]

end Sys2Proof.Machine

open Sys2Proof Sys2Proof.Machine

/-- Settles O38: a flood keeps the fabric but for the spores queued (`LinkOnly`), an answered command no longer waits
(`settle_running`), and judging the ports anew touches USING_ALT alone (`updateRoutes_low`). -/
theorem nodesAreFoundAndNamed : Obligations.NodesAreFoundAndNamed := by
  unfold Obligations.NodesAreFoundAndNamed
  intro e s p sp
  refine ⟨fabDiscover_effect, topo_effect, discoveryCollectTimeout_effect, fun serial node hstart hfree hserial hnode hok hnew => ?_,
    fun node => assign_effect, fun h => ?_, assignTimeout_effect s, fun d hstart hd hok => ?_⟩
  · have hexec := exec_fabAssignNode hstart hfree hserial hnode hok hnew
    refine ⟨fun hother => ?_, fun hself hpair => ?_⟩
    · rw [if_neg (by simp [hother])] at hexec
      exact ⟨_, hexec, (assignSent_linkOnly ..).node, started_mem_wait ..⟩
    · rw [if_pos ⟨hself, by rw [(assignSent_linkOnly ..).pair]; exact hpair⟩] at hexec
      exact ⟨_, hexec, selfAssign_effect e serial node s⟩
  · exact ⟨_, congrArg Host.Outcome.next (rxSpore_heard h _), fun w => nodeAnswered_running _ _ _ w⟩
  · subst hd
    have hexec := exec_fabSetRoute hstart hok
    obtain ⟨hanswers, honly⟩ := fabSetRoute_answers hstart { s.fab with routes := routesSet (Entry.arg e 0) s }
    refine ⟨fun hwrite => ⟨_, hexec, ?_, hanswers, honly⟩, fun hclear => ⟨_, hexec, ?_, hanswers⟩⟩
    · rw [routeOf, finish_refreshRoutes_routes, ← routeOf, updateRoutes_low]
      simp only [routeOf, routesSet, hwrite, if_true, tget_tput_self]
      exact routeEntry_low ..
    · rw [finish_refreshRoutes_routes]
      have hnone : tget (routesSet (Entry.arg e 0) s) (bitsNat (Entry.arg e 0) 0 12) = none := by
        rw [routesSet, hclear]
        exact tget_tdel_self ..
      exact updateRoutes_none (tget_none_ne hnone) hnone
end

section
/-! PROOF. Handover between partners (13 R313, 15 R371). -/

namespace Sys2Proof.Machine

/-! ### The steps of a handover -/

theorem sendRelease_fab (s : State) : (sendRelease s).fab = s.fab :=
  (only_sendRelease (fr := [.out, .link, .stats]) (by decide) (by decide) (by decide) (.refl _ s)).fab (by decide)

theorem sendClaim_fab (force : Bool) (s : State) : (sendClaim force s).fab = s.fab :=
  (only_sendClaim (fr := [.out, .link, .stats]) force (by decide) (by decide) (by decide) (.refl _ s)).fab (by decide)

theorem sendClaim_claim (force : Bool) (s : State) : (sendClaim force s).link.claim = some force := by
  simp [sendClaim, sendCtrl]

theorem rampStop_fab (origin cause input : Nat) (s : State) : (rampStop origin cause input s).fab = s.fab :=
  (only_rampStop (fr := [.out, .win, .scan, .nor, .evt, .stats, .hostMem]) origin cause input (by decide) (by decide) (by decide)
    (by decide) (by decide) (by decide) (by decide) (.refl _ s)).fab (by decide)

theorem boundaryStop_fab (c : Nat) (s : State) : (boundaryStop c s).fab = s.fab :=
  (only_boundaryStop (fr := [.out, .win, .rnd, .store, .seq, .trk, .scan, .nor, .evt, .stats, .hostMem, .free]) c (by decide)
    (by decide) (by decide) (by decide) (by decide) (by decide) (by decide) (by decide) (by decide) (by decide) (by decide)
    (by decide) (.refl _ s)).fab (by decide)

theorem releaseColumn_pair (s : State) : ∃ n, (releaseColumn s).fab.pair = { s.fab.pair with step := n } := by
  unfold releaseColumn
  split
  · exact ⟨3, by rw [setStep, sendRelease_fab]⟩
  · split
    · exact ⟨3, by rw [setStep, sendRelease_fab]; rfl⟩
    · exact ⟨s.fab.pair.step, by rw [rampStop_fab]⟩

/-- Advancing a handover changes its step alone in the pair (15 R371). -/
theorem handoverStep_pair (s : State) : ∃ n, (handoverStep s).fab.pair = { s.fab.pair with step := n } := by
  have hstays : ∃ n, s.fab.pair = { s.fab.pair with step := n } := ⟨_, rfl⟩
  unfold handoverStep
  dsimp only
  split
  · exact hstays
  split
  · split
    · split
      · split
        · exact releaseColumn_pair s
        · exact ⟨2, rfl⟩
      · exact hstays
    · split
      · exact releaseColumn_pair s
      · exact hstays
    · exact hstays
  · split
    · exact hstays
    · split
      · exact ⟨_, by rw [sendClaim_fab]⟩
      · exact hstays
    · exact hstays

/-- A handover that begins is in progress, of this issuer and region (15 R371). -/
theorem beginHandover_pair (now issuer : Bool) (region : Option (BitVec 8 × Nat × Nat)) (s : State) :
    (beginHandover now issuer region s).fab.pair.st = .handingOver ∧
      (beginHandover now issuer region s).fab.pair.issuer = issuer ∧
      (beginHandover now issuer region s).fab.pair.region = region := by
  unfold beginHandover
  dsimp only
  obtain ⟨n, hstep⟩ := handoverStep_pair (if (s.fab.pair.role == 1 && now) = true then boundaryStop 14 _ else _)
  rw [hstep]
  split
  · rw [boundaryStop_fab]
    exact ⟨rfl, rfl, rfl⟩
  · exact ⟨rfl, rfl, rfl⟩

/-! ### Its commands and spores -/

theorem handoverBad_consume (src : Src) (s : State) (p : BitVec 12) : handoverBad (consume src s) p = handoverBad s p := by
  have hcrcs : crcsEqual (consume src s) = crcsEqual s := by
    simp only [crcsEqual, pairCrcs, btabCrc, rpCrc, lmapCrc, consume_parts]
  simp only [handoverBad, hcrcs, consume_parts]

theorem exec_fabHandover {e : Entry} {s : State} (hstart : Starts cmdFabHandover e s) (hfree : objBusy s [(8, 0, 0)] = false)
    (hfit : handoverBad s (bitsOf (Entry.arg e 0) 0 12) = none) (hregion : Entry.arg e 1 = 0) (hpaired : s.fab.pair.st = .paired) :
    exec (.fabHandover e) s = .next (startHandover (bitAt (Entry.arg e 0) 12) none
      (wait (started cmdFabHandover e .loopback s) .handover (consume e.src s))) := by
  refine congrArg Host.Outcome.next ((takeUp_starts hstart hfree).trans ?_)
  have hpair : (consume e.src s).fab.pair.st = .paired := by simp [hpaired]
  simp only [handoverBad_consume, hfit, hregion, handoverRegion, if_true, wait_parts, hpair, reduceCtorEq, if_false]

theorem startHandover_running (now : Bool) (region : Option (BitVec 8 × Nat × Nat)) (s : State) :
    (startHandover now region s).mb = s.mb := by
  have hsend := only_send (fr := [.out, .win, .fab, .nor, .diag, .evt, .stats, .hostMem]) s.fab.pair.partner.toNat 0x14 1
    (wordBytes (word [(0, 1, b2n now)])) (by decide) (by decide) (by decide) (by decide) (by decide) (by decide) (by decide)
    (by decide) (.refl _ s)
  have hbegin := only_beginHandover (fr := [.out, .win, .rnd, .store, .seq, .link, .trk, .scan, .fab, .nor, .evt, .stats, .hostMem, .free])
    now true region (by decide) (by decide) (by decide) (by decide) (by decide) (by decide) (by decide) (by decide) (by decide)
    (by decide) (by decide) (by decide) (by decide) (by decide) (.refl _ (send s.fab.pair.partner.toNat 0x14 1
    (wordBytes (word [(0, 1, b2n now)])) s))
  exact (hbegin.mb (by decide)).trans (hsend.mb (by decide))

theorem fabHandover_effect {e : Entry} {s : State} (hstart : Starts cmdFabHandover e s)
    (hfree : objBusy s [(8, 0, 0)] = false) (hfit : handoverBad s (bitsOf (Entry.arg e 0) 0 12) = none)
    (hregion : Entry.arg e 1 = 0) (hpaired : s.fab.pair.st = .paired) : Runs (.fabHandover e) s fun t =>
      t.fab.pair.st = .handingOver ∧ t.fab.pair.issuer = true ∧ t.fab.pair.region = none ∧
      started cmdFabHandover e .handover s ∈ t.mb.running := by
  refine ⟨_, exec_fabHandover hstart hfree hfit hregion hpaired, ?_⟩
  beta_reduce
  rw [startHandover_running]
  obtain ⟨hst, hissuer, hnone⟩ := beginHandover_pair (bitAt (Entry.arg e 0) 12) true none
    (send (wait (started cmdFabHandover e .loopback s) .handover (consume e.src s)).fab.pair.partner.toNat 0x14 1
      (wordBytes (word [(0, 1, b2n (bitAt (Entry.arg e 0) 12))]))
      (wait (started cmdFabHandover e .loopback s) .handover (consume e.src s)))
  exact ⟨hst, hissuer, hnone, started_mem_wait ..⟩

section
variable {typ : Nat} {p : Fin 8} {sp : Spore} {s : State} (h : Heard typ p sp s)
include h

/-- A spore of the partner is still the partner's once taken. -/
theorem Heard.fromPartner (hpartner : fromPartner sp s = true) : fromPartner sp (linkTake p sp s).2 = true := by
  rw [← hpartner, Machine.fromPartner, Machine.fromPartner, h.linkOnly.pair]

end

theorem handoverReq_effect {p : Fin 8} {sp : Spore} {s : State} (h : Heard 0x14 p sp s) (hpartner : fromPartner sp s = true)
    (hpaired : s.fab.pair.st = .paired) :
    Runs (.handoverReq p sp) s fun t => t.fab.pair.st = .handingOver ∧ t.fab.pair.issuer = false := by
  have hst : (linkTake p sp s).2.fab.pair.st = .paired := by rw [h.linkOnly.pair, hpaired]
  refine ⟨_, congrArg Host.Outcome.next (rxSpore_heard h _), ?_⟩
  simp only [h.fromPartner hpartner, hst, Bool.true_eq_false, if_false]
  obtain ⟨hover, hissuer, -⟩ := beginHandover_pair (leAt sp.payload 0 1 % 2 == 1) false none (linkTake p sp s).2
  exact ⟨hover, hissuer⟩

/-- At step 5 the shadow claims the port where it is in SHADOW with its link TRAINED and no claim out (15 R371). -/
theorem handoverStep_claims {s : State} (hst : s.fab.pair.st = .handingOver) (hrole : s.fab.pair.role = 2) (hstep : s.fab.pair.step = 5) :
    (handoverStep s).fab.pair.step = 5 ∧
      (s.pm.mode = .shadow → s.link.st = .trained → s.link.claim = none → (handoverStep s).link.claim = some false) := by
  have heq : handoverStep s =
      if s.pm.mode = .shadow ∧ s.link.st = .trained ∧ s.link.claim.isNone then sendClaim false s else s := by
    simp [handoverStep, hst, hrole, hstep]
  rw [heq]
  refine ⟨?_, fun hmode hlink hclaim => ?_⟩
  · split
    · rw [sendClaim_fab, hstep]
    · exact hstep
  · rw [if_pos ⟨hmode, hlink, by simp [hclaim]⟩, sendClaim_claim]

theorem handoverGo_effect {p : Fin 8} {sp : Spore} {s : State} (h : Heard 0x15 p sp s) (hpartner : fromPartner sp s = true)
    (hst : s.fab.pair.st = .handingOver) (hrole : s.fab.pair.role = 2) (hstep : s.fab.pair.step = 4) :
    Runs (.handoverGo p sp) s fun t => t.fab.pair.step = 5 ∧
      (s.pm.mode = .shadow → s.link.st = .trained → s.link.claim = none → t.link.claim = some false) := by
  have hpair := h.linkOnly.pair
  have hpm := h.only.pm (by decide)
  have hlink := h.only.link (by decide)
  refine ⟨_, congrArg Host.Outcome.next (rxSpore_heard h _), ?_⟩
  rw [if_pos (by simp [h.fromPartner hpartner, hpair, hst, hrole, hstep])]
  obtain ⟨hfive, hclaims⟩ := handoverStep_claims (s := setStep 5 (linkTake p sp s).2) (by simp [setStep, hpair, hst])
    (by simp [setStep, hpair, hrole]) rfl
  refine ⟨hfive, fun hmode htrained hclaim => hclaims ?_ ?_ ?_⟩
  · exact (congrArg _ hpm).trans hmode
  · exact (congrArg _ hlink).trans htrained
  · exact (congrArg _ hlink).trans hclaim

/-! ### Its end -/

/-- A device that enters a mode other than READY and HOLD keeps debug shut (20 R448). -/
theorem heldDebug_shut {m : Mode} (hready : m ≠ .ready) (hhold : m ≠ .hold) (s : State) : heldDebug m s = s :=
  if_neg (by simp [hready, hhold])

/-- The state in which the old holder is done: in SHADOW, its sequencer IDLE, its flows its partner's (15 R371). -/
def columnGiven (s : State) : State :=
  let t := disownFlows s
  enterMode .shadow 2 (activateTables { t with seq := t.seq.toIdle, led := { t.led with second := false } })

theorem handoverGiven_eq (stripe : Nat) (h : Int) (s : State) : handoverGiven stripe h s = handoverDone 2 stripe h (columnGiven s) := rfl

theorem columnGiven_seq (s : State) : (columnGiven s).seq = s.seq.toIdle := by
  have hmode := only_enterMode (fr := [.out, .pm, .win, .cfg, .led, .lay, .link, .dma, .fab, .keep, .nor, .smb, .diag, .evt, .stats,
    .hostMem, .free]) .shadow 2 (by decide) (by decide) (by decide) (by decide) (by decide) (by decide) (by decide) (by decide)
    (by decide) (by decide) (by decide) (by decide) (by decide) (by decide) (by decide) (by decide) (by decide)
    (.refl _ (activateTables { disownFlows s with seq := s.seq.toIdle, led := { (disownFlows s).led with second := false } }))
  exact (hmode.seq (by decide)).trans (activateTables_seq _)

theorem columnGiven_pm (s : State) : (columnGiven s).pm.mode = .shadow := by
  rw [columnGiven, enterMode, heldDebug_shut (by decide) (by decide)]
  simp

theorem activateTables_fab (s : State) : (activateTables s).fab = s.fab :=
  (only_activateTables (fr := [.out, .win, .cfg, .link, .nor, .evt, .stats, .hostMem]) (by decide) (by decide) (by decide)
    (by decide) (by decide) (by decide) (by decide) (by decide) (.refl _ s)).fab (by decide)

theorem columnGiven_fab (s : State) : (columnGiven s).fab = s.fab := by
  rw [columnGiven, enterMode, heldDebug_shut (by decide) (by decide)]
  simp [disownFlows, activateTables_fab]

theorem kept_columnGiven (s : State) : Kept s (columnGiven s) := by
  obtain ⟨hpending, hout, hlog, hmemory, hslots, hstrobe⟩ := kept_disownFlows (.refl s)
  exact kept_enterMode _ _ (kept_activateTables
    ⟨hpending, hout, hlog, hmemory, hslots, fun hdark hlatch => ⟨(hstrobe hdark hlatch).1, rfl⟩⟩)

/-- A handover that is complete leaves the pair PAIRED in the new role, and is counted and told of (15 R371). -/
theorem handoverDone_effect (role stripe : Nat) (h : Int) (s : State) :
    (handoverDone role stripe h s).fab.pair.st = .paired ∧ (handoverDone role stripe h s).fab.pair.role = role ∧
      (handoverDone role stripe h s).fab.pair.handovers = s.fab.pair.handovers + 1 ∧
      (handoverDone role stripe h s).pm = s.pm ∧ (handoverDone role stripe h s).seq = s.seq ∧
      Raises 0x0614 0 s (handoverDone role stripe h s) := by
  refine ⟨?_, ?_, ?_, ?_, ?_, ((raise_raises ..).sooner ((Kept.refl s).set_fab _)).later (kept_settle _ (.refl _))⟩ <;>
    simp [handoverDone]

theorem handoverDoneSpore_effect {p : Fin 8} {sp : Spore} {s : State} (h : Heard 0x16 p sp s)
    (hpartner : fromPartner sp s = true) (hst : s.fab.pair.st = .handingOver) (hrole : s.fab.pair.role = 1)
    (hstep : s.fab.pair.step = 6) : Runs (.handoverDone p sp) s fun t =>
      t.fab.pair.st = .paired ∧ t.fab.pair.role = 2 ∧ t.fab.pair.handovers = s.fab.pair.handovers + 1 ∧ t.pm.mode = .shadow ∧
      t.seq.st = .idle ∧ Raises 0x0614 0 s t := by
  have hpair := h.linkOnly.pair
  refine ⟨_, congrArg Host.Outcome.next (rxSpore_heard h _), ?_⟩
  rw [if_pos (by simp [h.fromPartner hpartner, hpair, hst, hrole, hstep]), handoverGiven_eq]
  obtain ⟨hpaired, hshadow, hcount, hpm, hseq, hraised⟩ := handoverDone_effect 2 (blk sp.payload 0 0 16) (blkInt sp.payload 0 16 32)
    (columnGiven (linkTake p sp s).2)
  refine ⟨hpaired, hshadow, ?_, ?_, ?_, hraised.sooner ((kept_linkTake p sp (.refl s)).trans (kept_columnGiven _))⟩
  · rw [hcount, columnGiven_fab, hpair]
  · rw [hpm, columnGiven_pm]
  · rw [hseq, columnGiven_seq]
    rfl

/-- A handover whose shadow is not ready in time ends, and the command that waited with it (15 R371). -/
theorem handoverShadowTimeout_effect {s : State} (hst : s.fab.pair.st = .handingOver) :
    Runs .handoverShadowTimeout s fun t =>
      t.fab.pair.st = .paired ∧ t.fab.pair.step = 0 ∧ ∀ w ∈ t.mb.running, w.on ≠ .handover := by
  refine ⟨_, congrArg Host.Outcome.next (if_pos hst), rfl, ?_, fun w hw hon => ?_⟩
  · simp [failHandover]
  · change w ∈ (failHandover s).mb.running at hw
    rw [failHandover, settle_running] at hw
    simpa [hon] using (List.mem_filter.mp hw).2

end Sys2Proof.Machine

open Sys2Proof Sys2Proof.Machine

/-- Settles O40: advancing a handover moves its step alone (`handoverStep_pair`), and the tail of its last step keeps the sequencer
IDLE and the mode SHADOW (`columnGiven_seq`, `columnGiven_pm`). -/
theorem handoversMoveTheColumn : Obligations.HandoversMoveTheColumn := by
  unfold Obligations.HandoversMoveTheColumn
  intro e s p sp
  exact ⟨fabHandover_effect, handoverReq_effect, handoverGo_effect, handoverDoneSpore_effect, handoverShadowTimeout_effect⟩
end

section
/-! SUPPORT. What following a time source leaves of the time part: all but the bases (16 R383-R386). -/

namespace Sys2Proof.Machine

/-- Two states whose time parts differ in the bases alone. -/
def BasesOnly (s t : State) : Prop := ∃ v, t.time = { s.time with base := v }

theorem BasesOnly.refl (s : State) : BasesOnly s s := ⟨_, rfl⟩

theorem BasesOnly.trans {s t u : State} (h : BasesOnly s t) (k : BasesOnly t u) : BasesOnly s u := by
  obtain ⟨v, hv⟩ := h
  obtain ⟨w, hw⟩ := k
  exact ⟨w, by rw [hw, hv]⟩

theorem basesOnly_setBase (b : Fin 4) (x : TimeBase) (s : State) : BasesOnly s (setBase b x s) := ⟨_, rfl⟩

theorem basesOnly_deriveSt (s : State) : BasesOnly s (deriveSt s) := by
  unfold deriveSt
  dsimp only
  split
  · exact basesOnly_setBase ..
  · exact .refl s

theorem basesOnly_raise (code : Nat) (d : Domain) (det : W128) (s : State) : BasesOnly s (raise code d det s) :=
  ⟨s.time.base, by simp⟩

theorem basesOnly_stepBase (b : Fin 4) (d : Int) (s : State) : BasesOnly s (stepBase b d s) := by
  unfold stepBase
  refine BasesOnly.trans ?_ (basesOnly_deriveSt _)
  refine BasesOnly.trans ?_ (basesOnly_raise ..)
  exact basesOnly_setBase ..

theorem basesOnly_takeOffset (b : Fin 4) (offset delay : Int) (bound n : Nat) (s : State) :
    BasesOnly s (takeOffset b offset delay bound n s) := by
  unfold takeOffset
  extract_lets x big lim run steps y s1 s2 z s3
  have hset : BasesOnly s s1 := basesOnly_setBase ..
  have hstepped : BasesOnly s1 s2 := by
    clear_value s1 steps
    unfold s2
    split
    · exact basesOnly_stepBase ..
    · exact .refl s1
  have hlocked : BasesOnly s2 s3 := by
    clear_value s2 run
    unfold s3
    split
    · exact (basesOnly_setBase ..).trans (basesOnly_raise ..)
    · exact .refl s2
  exact hset.trans (hstepped.trans (hlocked.trans (basesOnly_deriveSt s3)))

end Sys2Proof.Machine
end

section
/-! PROOF. Ledger, offload, update and time spores (15 R366, R367, 16 R383, 21 R459). -/

namespace Sys2Proof.Machine

section
variable {p : Fin 8} {sp : Spore} {s : State}

/-! ### The mirror and the witness (15 R367) -/

theorem takeRecs_mirror (n : BitVec 12) (l : List WRec) (s : State) :
    (takeRecs n l s).fab.mirror = l.foldl Mirror.add { s.fab.mirror with client := some n } :=
  (linkOnly_send ..).mirror

theorem ledgerRec_effect (h : Heard 0x20 p sp s) (hclient : mirrorClient s = some (srcNode sp)) :
    Runs (.ledgerRec p sp) s fun t =>
      t.fab.mirror = (sporeRecs 63 sp.payload).foldl Mirror.add { s.fab.mirror with client := some (srcNode sp) } := by
  have hclient' : mirrorClient (linkTake p sp s).2 = some (srcNode sp) := by
    rw [← hclient, mirrorClient, mirrorClient, h.linkOnly.pair, h.linkOnly.mirror]
  refine ⟨_, congrArg Host.Outcome.next (rxSpore_heard h _), ?_⟩
  simp only [hclient', if_true, takeRecs_mirror, h.linkOnly.mirror]

/-- An acknowledgement of the present witness that the ledger takes (11 R254). -/
theorem witnessAck_acked (hwitness : s.led.witness = .peer (srcNode sp)) (hepoch : BitVec.ofNat 32 (leAt sp.payload 8 4) = s.led.epoch)
    (hseq : leAt sp.payload 0 8 < s.led.wseq) (hlost : s.led.lost = false) :
    (witnessAck p sp s).led.acked = max s.led.acked (leAt sp.payload 0 8) := by
  have hfirst : (s.led.witness == WitnessKind.peer (srcNode sp)) = true := by simp [hwitness]
  unfold witnessAck
  simp only [hfirst, hepoch, Nat.not_le.mpr hseq, hlost, Bool.not_true, Bool.false_and, Bool.false_eq_true, if_false, ne_eq,
    not_true_eq_false, or_self, if_true]
  rw [activateTables_led, handoverStep_led, ackUpTo_acked]

theorem ledgerAck_effect (h : Heard 0x21 p sp s) (hwithhold : s.diag.withhold = false) (hpending : s.led.pendingWitness = none)
    (hwitness : s.led.witness = .peer (srcNode sp)) (hepoch : BitVec.ofNat 32 (leAt sp.payload 8 4) = s.led.epoch)
    (hseq : leAt sp.payload 0 8 < s.led.wseq) (hlost : s.led.lost = false) :
    Runs (.ledgerAck p sp) s fun t => t.led.acked = max s.led.acked (leAt sp.payload 0 8) := by
  have hdiag := h.only.diag (by decide)
  have hled := h.only.led (by decide)
  refine ⟨_, congrArg Host.Outcome.next (rxSpore_heard h _), ?_⟩
  simp only [hdiag, hwithhold, Bool.false_eq_true, if_false, hled, hpending]
  rw [witnessAck_acked (by rw [hled, hwitness]) (by rw [hled, hepoch]) (by rwa [hled]) (by rw [hled, hlost]), hled]

/-! ### Offload (15 R366) -/

theorem offloadReq_effect {j : BinJob} {g : SHdr} (h : Heard 0x30 p sp s)
    (hj : j = BinJob.of (BitVec.ofNat 8 (blk sp.payload 1 20 8)) sp.payload) (hmode : s.pm.mode = .render)
    (hroom : (peerRuns s (srcNode sp)).length < 16) (hout : j.outMode = 1) (hcheck : binCheck (linkTake p sp s).2 j = .ok g) :
    Runs (.offloadReq p sp) s fun t => ∃ b ∈ t.rnd.bins, b.req = some (srcNode sp, hdrMsgId sp.header) := by
  have hmode' : (linkTake p sp s).2.pm.mode = .render := by rw [h.only.pm (by decide), hmode]
  have hroom' : ¬ 16 ≤ (peerRuns (linkTake p sp s).2 (BitVec.ofNat 12 (hdrSrc sp.header))).length := by
    rw [peerRuns, h.only.rnd (by decide)]
    exact Nat.not_le.mpr hroom
  refine ⟨_, congrArg Host.Outcome.next (rxSpore_heard h _),
    newBin (BitVec.ofNat 8 j.tagFlow) 0 (some (srcNode sp, hdrMsgId sp.header)) sp.payload, ?_, rfl⟩
  unfold takeOffload
  simp only [← hj, hmode', if_neg hroom', hout, hcheck, ne_eq, not_true_eq_false, if_false, if_true]
  exact List.mem_append_right _ (List.mem_singleton.mpr rfl)

theorem offloadDone_effect (h : Heard 0x31 p sp s)
    (hasked : s.rnd.offloads.any (fun q => q.node == srcNode sp && q.msgId == BitVec.ofNat 32 (leAt sp.payload 0 4)) = true) :
    Runs (.offloadDone p sp) s fun t => t.rnd.offloads =
      s.rnd.offloads.filter (fun q => !(q.node == srcNode sp && q.msgId == BitVec.ofNat 32 (leAt sp.payload 0 4))) := by
  have hrnd := h.only.rnd (by decide)
  have hasked' := hasked
  rw [← hrnd] at hasked'
  refine ⟨_, congrArg Host.Outcome.next (rxSpore_heard h _), ?_⟩
  rw [if_pos hasked', offloadOver, if_pos hasked', hrnd]
  rfl

/-! ### Updates (21 R459) -/

theorem sendReport_upd (dst : Nat) (s : State) : (sendReport dst s).upd = s.upd :=
  (only_send (fr := [.out, .win, .fab, .nor, .diag, .evt, .stats, .hostMem]) dst 0x51 3 _ (by decide) (by decide) (by decide)
    (by decide) (by decide) (by decide) (by decide) (by decide) (.refl _ s)).upd (by decide)

/-- A BEGIN of another image starts the update afresh and is answered with REPORT (21 R459). -/
theorem relayBegin_effect {u : State} {d : UpdDesc} (hd : d = relayDesc sp.payload) (hlow : 4096 ≤ d.imgLen)
    (hhigh : d.imgLen ≤ 33554432) (hpieces : d.pieces = (d.imgLen + 4095) / 4096) (hother : sameUpdate d u = false)
    (hst : u.upd.st < 3) :
    (relayBegin sp u).upd = (freshUpdate d u).upd ∧ Raises 0x0B10 (detail [dflag false]) u (relayBegin sp u) := by
  have heq : relayBegin sp u = sendReport (hdrSrc sp.header) (raise 0x0B10 .ctrl (detail [dflag false]) (freshUpdate d u)) := by
    rw [relayBegin, ← hd, beginUpdate_fresh hlow hhigh hpieces hother hst]
  rw [heq]
  refine ⟨?_, ((raise_raises ..).sooner (kept_freshUpdate d (.refl u))).later (kept_send _ _ _ _ (.refl _))⟩
  rw [sendReport_upd, (raise_parts ..).2.2.2.2.2.2.2.2.2.2.2.2.2.2.2.2.2.2.2.1]

theorem updBegin_effect {d : UpdDesc} (h : Heard 0x51 p sp s) (hop : blk sp.payload 0 0 8 = 1) (hlen : hdrLen sp.header = 80)
    (hd : d = relayDesc sp.payload) (hlow : 4096 ≤ d.imgLen) (hhigh : d.imgLen ≤ 33554432)
    (hpieces : d.pieces = (d.imgLen + 4095) / 4096) (hother : sameUpdate d s = false) (hst : s.upd.st < 3) :
    Runs (.updRelay p sp) s fun t =>
      t.upd.st = 1 ∧ t.upd.imgId = d.imgId ∧ t.upd.pieces = d.pieces ∧ t.upd.held = [] ∧
      Raises 0x0B10 (detail [dflag false]) s t := by
  have hupd := h.only.upd (by decide)
  have hother' : sameUpdate d (linkTake p sp s).2 = false := by rw [← hother, sameUpdate, sameUpdate, hupd]
  refine ⟨_, congrArg Host.Outcome.next (rxSpore_heard h _), ?_⟩
  obtain ⟨hfresh, hraised⟩ := relayBegin_effect hd hlow hhigh hpieces hother' (by rwa [hupd])
  simp only [hop, hlen, relayLen, ne_eq, not_true_eq_false, if_false, hfresh]
  exact ⟨rfl, rfl, rfl, rfl, hraised.sooner (kept_linkTake p sp (.refl s))⟩

/-- A lone half waits for the other (21 R459). -/
theorem updHalf_effect (h : Heard 0x51 p sp s) (hop : blk sp.payload 0 0 8 = 2) (hlen : hdrLen sp.header = 2064)
    (hlone : s.fab.halves.find? (otherHalf (halfOf sp.payload)) = none) :
    Runs (.updRelay p sp) s fun t => halfOf sp.payload ∈ t.fab.halves ∧ t.upd = s.upd := by
  refine ⟨_, congrArg Host.Outcome.next (rxSpore_heard h _), ?_⟩
  simp only [hop, hlen, relayLen, ne_eq, not_true_eq_false, if_false, relayPiece, h.linkOnly.halves, hlone]
  exact ⟨List.mem_append_right _ (List.mem_singleton.mpr rfl), h.only.upd (by decide)⟩

/-! ### Fabric time (16 R383) -/

/-- A usable TIME gives its hops and master; the servo moves the bases alone (16 R383). -/
theorem followTime_time (b : List Byte) (arrived : BitVec 48) (s : State) : ∃ v, (followTime b arrived s).time =
    { s.time with hops := blk b 1 4 4 + 1, master := BitVec.ofNat 12 (blk b 1 8 12), base := v } := by
  unfold followTime
  dsimp only
  split
  · exact ⟨_, rfl⟩
  · exact basesOnly_takeOffset ..

/-- The state that keeps when this TIME came, and its number (16 R382). -/
def timeHeard (p : Fin 8) (sp : Spore) (s : State) : State :=
  { s with time := { s.time with lastRx := s.time.lastRx.set p.val (sp.arrived, hdrMsgId sp.header) } }

theorem time_effect (h : Heard 0x40 p sp s) (hsrc : (s.time.base[(0 : Fin 4)]).src = 1) (hport : s.time.ftPort = p.val)
    (hstate : blk sp.payload 1 0 2 = 1) (hhops : blk sp.payload 1 4 4 ≠ 15) :
    Runs (.time p sp) s fun t =>
      t.time.hops = blk sp.payload 1 4 4 + 1 ∧ t.time.master = BitVec.ofNat 12 (blk sp.payload 1 8 12) ∧
      t.time.lastRx[p] = (sp.arrived, hdrMsgId sp.header) := by
  have htime := h.only.time (by decide)
  have hexec : exec (.time p sp) s = .next (followTime sp.payload sp.arrived (timeHeard p sp (linkTake p sp s).2)) := by
    refine congrArg Host.Outcome.next ((rxSpore_heard h _).trans ?_)
    rw [if_neg (by rw [htime, hsrc]; decide), if_pos ⟨by rw [htime, hsrc], by rw [htime, hport], hstate, hhops⟩]
    rfl
  obtain ⟨v, hv⟩ := followTime_time sp.payload sp.arrived (timeHeard p sp (linkTake p sp s).2)
  refine ⟨_, hexec, ?_⟩
  beta_reduce
  rw [hv]
  exact ⟨rfl, rfl, Vector.getElem_set_self p.isLt⟩

end

end Sys2Proof.Machine

open Sys2Proof Sys2Proof.Machine

/-- Settles O41: a spore heard is acted upon in the state that took it (`rxSpore_heard`), whose ledger, render jobs, update and time
are as they were (`Heard.only`). -/
theorem sporesActOnTheirSubject : Obligations.SporesActOnTheirSubject := by
  unfold Obligations.SporesActOnTheirSubject
  intro s p sp
  exact ⟨ledgerRec_effect, ledgerAck_effect, fun _ _ => offloadReq_effect, offloadDone_effect,
    fun h => ⟨_, congrArg Host.Outcome.next (rxSpore_heard h _), rfl⟩, fun _ => updBegin_effect, updHalf_effect, time_effect⟩
end

section
/-! PROOF. Time sources: lost, told to the fabric, and PTP (16 R382, R384, R388). -/

namespace Sys2Proof.Machine

/-! ### Bases -/

theorem base_setBase_same (b : Fin 4) (x : TimeBase) (s : State) : (setBase b x s).time.base[b] = x :=
  Vector.getElem_set_self b.isLt

theorem base_setBase_ne {b c : Fin 4} (h : c ≠ b) (x : TimeBase) (s : State) : (setBase b x s).time.base[c] = s.time.base[c] :=
  Vector.getElem_set_ne b.isLt c.isLt fun k => h (Fin.ext k.symm)

/-- ST alone follows FT (16 R386). -/
theorem base_deriveSt {b : Fin 4} (h : b ≠ 1) (s : State) : (deriveSt s).time.base[b] = s.time.base[b] := by
  unfold deriveSt
  dsimp only
  split
  · exact base_setBase_ne h ..
  · rfl

theorem base_raise (code : Nat) (d : Domain) (det : W128) (s : State) (b : Fin 4) :
    (raise code d det s).time.base[b] = s.time.base[b] := by simp

/-- A step moves the count and keeps the offset (16 R385). -/
theorem stepBase_offset {b : Fin 4} (h : b ≠ 1) (d : Int) (s : State) :
    ((stepBase b d s).time.base[b]).offset = (s.time.base[b]).offset := by
  unfold stepBase
  rw [base_deriveSt h, base_raise, base_setBase_same]

/-- The base keeps the offset that it takes (16 R390). -/
theorem takeOffset_offset {b : Fin 4} (h : b ≠ 1) (offset delay : Int) (bound n : Nat) (s : State) :
    ((takeOffset b offset delay bound n s).time.base[b]).offset = offset := by
  unfold takeOffset
  extract_lets x big lim run steps y s1 s2 z s3
  have hset : (s1.time.base[b]).offset = offset := by rw [base_setBase_same]
  have hstepped : (s2.time.base[b]).offset = offset := by
    clear_value s1 steps
    unfold s2
    split
    · rw [stepBase_offset h, hset]
    · exact hset
  have hlocked : (s3.time.base[b]).offset = offset := by
    clear_value s2 run
    unfold s3
    split
    · rw [base_raise, base_setBase_same]
      exact hstepped
    · exact hstepped
  rw [base_deriveSt h, hlocked]

theorem basesOnly_sourceLost (b : Fin 4) (s : State) : BasesOnly s (sourceLost b s) := by
  unfold sourceLost
  dsimp only
  split
  · exact (basesOnly_setBase ..).trans ((basesOnly_raise ..).trans (basesOnly_deriveSt _))
  · exact .refl s

/-- A base that has acquired counts on at its last rate, and tells of its source lost (16 R384). -/
theorem sourceLost_effect {b : Fin 4} (h : b ≠ 1) {s : State} (hacquired : (s.time.base[b]).acquired = true) :
    ((sourceLost b s).time.base[b]).state = 2 ∧ ((sourceLost b s).time.base[b]).rate = (s.time.base[b]).rate ∧
      Raises 0x0711 (detail [du 8 b.val]) s (sourceLost b s) ∧ Only (.time :: eventParts) s (sourceLost b s) := by
  have heq : sourceLost b s = deriveSt (raise 0x0711 .aon (detail [du 8 b.val])
      (setBase b { s.time.base[b] with state := 2, acquired := false, lockRun := 0 } s)) := if_pos (.inl hacquired)
  refine ⟨?_, ?_, ?_, ?_⟩
  · rw [heq, base_deriveSt h, base_raise, base_setBase_same]
  · rw [heq, base_deriveSt h, base_raise, base_setBase_same]
  · rw [heq]
    exact ((raise_raises ..).sooner (kept_setBase _ _ (.refl s))).later (kept_deriveSt (.refl _))
  · exact only_sourceLost b (by decide) (by decide) (by decide) (by decide) (by decide) (by decide) (by decide) (.refl _ s)

theorem timeSourceTimeout_effect {s : State} (hsrc : (s.time.base[(0 : Fin 4)]).src = 1) (hcounts : baseCounts s 0 = true)
    (hacquired : (s.time.base[(0 : Fin 4)]).acquired = true) : Runs (.timeSourceTimeout 0) s fun t =>
      (t.time.base[(0 : Fin 4)]).state = 2 ∧ (t.time.base[(0 : Fin 4)]).rate = (s.time.base[(0 : Fin 4)]).rate ∧
      Raises 0x0711 (detail [du 8 0]) s t ∧ Only (.time :: eventParts) s t :=
  ⟨_, congrArg Host.Outcome.next (if_pos ⟨rfl, hsrc, hcounts⟩), sourceLost_effect (by decide) hacquired⟩

/-! ### Fabric time (16 R382) -/

theorem linkOnly_sendTime (p : Fin 8) (s : State) : LinkOnly s (sendTime p s) := by
  unfold sendTime
  split
  · refine LinkOnly.trans ?_ (linkOnly_originateOn ..)
    exact .of_fab rfl
  · exact .refl s

/-- Each port that is UP is sent one TIME (16 R382). -/
theorem foldl_sendTime_msgId (l : List (Fin 8)) (s : State) :
    (l.foldl (fun t p => sendTime p t) s).fab.msgId.toNat = (s.fab.msgId.toNat + (l.filter (portUp s)).length) % 2 ^ 32 := by
  induction l generalizing s with
  | nil => exact (Nat.mod_eq_of_lt s.fab.msgId.isLt).symm
  | cons p l ih =>
    have hup : portUp (sendTime p s) = portUp s := funext (linkOnly_sendTime p s).portUp
    rw [List.foldl_cons, ih, hup, List.filter_cons]
    by_cases hp : portUp s p = true
    · have hid : (sendTime p s).fab.msgId = s.fab.msgId + 1 := by
        rw [sendTime, if_pos hp, originateOn_msgId]
      rw [hid, if_pos hp, List.length_cons, BitVec.toNat_add]
      change ((_ + 1) % 2 ^ 32 + _) % 2 ^ 32 = _
      omega
    · rw [sendTime, if_neg hp, if_neg hp]

theorem timeSporeTimer_effect {s : State} (hmay : mayOriginate s = true)
    (hsrc : (s.time.base[(0 : Fin 4)]).src = 1 ∨ (s.time.base[(0 : Fin 4)]).src = 2) : Runs .timeSporeTimer s fun t =>
      t.fab.msgId.toNat = (s.fab.msgId.toNat + (allPorts.filter (portUp s)).length) % 2 ^ 32 ∧
      Only [.out, .time, .fab, .diag, .stats] s t := by
  have hexec : exec .timeSporeTimer s = .next (allPorts.foldl (fun t p => sendTime p t) s) :=
    congrArg Host.Outcome.next (if_pos (by rw [hmay]; simpa using hsrc))
  exact ⟨_, hexec, foldl_sendTime_msgId allPorts s,
    only_execTimeSporeTimer (by decide) (by decide) (by decide) (by decide) (by decide) hexec⟩

/-! ### PTP (16 R388) -/

/-- The master followed is the best of those heard, told of where it is another (16 R388). -/
theorem chooseMaster_effect (s : State) (hsome : bestMaster s.time.ptpMasters ≠ none) :
    (chooseMaster s).time.ptpMasters = s.time.ptpMasters ∧
      (chooseMaster s).time.ptpMaster = (bestMaster s.time.ptpMasters).map (·.sender) ∧
      (s.time.ptpMaster ≠ (chooseMaster s).time.ptpMaster → Raises 0x0714 0 s (chooseMaster s)) := by
  obtain ⟨m, hm⟩ := Option.ne_none_iff_exists'.mp hsome
  unfold chooseMaster
  simp only [hm]
  split
  · rename_i hsame
    exact ⟨rfl, hsame, fun h => absurd rfl h⟩
  · refine ⟨by simp [setBase], by simp [setBase], fun _ => (raise_raises ..).sooner ?_⟩
    exact kept_setBase _ _ ((Kept.refl s).set_time _)

theorem bestMaster_cons_ne_none (m : PtpMaster) (l : List PtpMaster) : bestMaster (m :: l) ≠ none := by
  unfold bestMaster
  split
  · exact nofun
  · split <;> exact nofun

theorem ptpAnnounce_effect {s : State} {m : PtpMsg} (hhears : ptpHears s m = true) : Runs (.ptpAnnounce m) s fun t =>
      { sender := m.sender, quality := m.quality } ∈ t.time.ptpMasters ∧
      t.time.ptpMaster = (bestMaster t.time.ptpMasters).map (·.sender) ∧
      (s.time.ptpMaster ≠ t.time.ptpMaster → Raises 0x0714 0 s t) ∧ Only (.time :: eventParts) s t := by
  generalize hu : stat (sk 0x07010001 1) { s with time := { s.time with
    ptpMasters := { sender := m.sender, quality := m.quality } :: s.time.ptpMasters.filter (fun x => x.sender != m.sender) } } = u
  have htime : u.time = { s.time with
      ptpMasters := { sender := m.sender, quality := m.quality } :: s.time.ptpMasters.filter (fun x => x.sender != m.sender) } := by
    simp [← hu]
  have hkept : Kept s u := hu ▸ kept_stat _ ((Kept.refl s).set_time _)
  have hexec : exec (.ptpAnnounce m) s = .next (chooseMaster u) :=
    congrArg Host.Outcome.next ((if_pos hhears).trans (by rw [← hu]))
  obtain ⟨hmasters, hmaster, htold⟩ := chooseMaster_effect u (by rw [htime]; exact bestMaster_cons_ne_none _ _)
  refine ⟨_, hexec, ?_, ?_, fun hchanged => (htold ?_).sooner hkept,
    only_execPtpAnnounce m (by decide) (by decide) (by decide) (by decide) (by decide) (by decide) (by decide) hexec⟩
  · rw [hmasters, htime]
    exact List.mem_cons_self
  · rw [hmaster, hmasters]
  · rwa [htime]

theorem hears_master {s : State} {m : PtpMsg} (hhears : ptpHears s m = true) (hmaster : s.time.ptpMaster = some m.sender) :
    (ptpHears s m && s.time.ptpMaster == some m.sender) = true := by simp [hhears, hmaster]

theorem ptpSync_waits {s : State} {m : PtpMsg} (hhears : ptpHears s m = true) (hmaster : s.time.ptpMaster = some m.sender)
    (htwo : m.twoStep = true) : Runs (.ptpSync m) s fun t =>
      t.time = { s.time with ptpSync := some (m.seq, m.received) } ∧ Only [.time, .stats] s t := by
  refine ⟨_, congrArg Host.Outcome.next ((if_pos (hears_master hhears hmaster)).trans (if_pos htwo)), ?_,
    (only_stat _ (by decide) (.refl _ s)).set_time _ (by decide)⟩
  simp

/-- A Sync's time gives the offset with the delay last computed, and asks for the delay (16 R388). -/
theorem syncTime_effect (origin received : Int) (s : State) :
    ((syncTime origin received s).time.base[(3 : Fin 4)]).offset =
        (s.time.base[(3 : Fin 4)]).delay - timeDiff received origin ∧
      Gives (.delayReq s.time.ptpSeq) s (syncTime origin received s) ∧
      (syncTime origin received s).time.ptpSeq = s.time.ptpSeq + 1 ∧ (syncTime origin received s).time.ptpSync = none := by
  obtain ⟨v, hv⟩ := basesOnly_takeOffset 3 ((s.time.base[(3 : Fin 4)]).delay - timeDiff received origin)
    (s.time.base[(3 : Fin 4)]).delay 6553600 16 { s with time := { s.time with ptpForward := timeDiff received origin, ptpSync := none } }
  have hoffset := takeOffset_offset (b := 3) (by decide) ((s.time.base[(3 : Fin 4)]).delay - timeDiff received origin)
    (s.time.base[(3 : Fin 4)]).delay 6553600 16 { s with time := { s.time with ptpForward := timeDiff received origin, ptpSync := none } }
  unfold syncTime
  extract_lets fwd x src s1
  have hseq : s1.time.ptpSeq = s.time.ptpSeq := congrArg (·.ptpSeq) hv
  have hsync : s1.time.ptpSync = none := congrArg (·.ptpSync) hv
  have hkept : Kept s s1 := kept_takeOffset _ _ _ _ _ ((Kept.refl s).set_time _)
  refine ⟨?_, ?_, ?_, ?_⟩
  · simp only [emit_parts, stat_parts]
    exact hoffset
  · rw [hseq]
    exact (emit_gives ..).sooner (kept_stat _ (hkept.set_time _))
  · simp only [emit_parts, stat_parts, hseq]
  · simp only [emit_parts, stat_parts]
    exact hsync

theorem ptpSync_follows {s : State} {m : PtpMsg} (hhears : ptpHears s m = true) (hmaster : s.time.ptpMaster = some m.sender)
    (htwo : m.twoStep = false) : Runs (.ptpSync m) s fun t =>
      (t.time.base[(3 : Fin 4)]).offset = (s.time.base[(3 : Fin 4)]).delay - timeDiff m.received m.origin ∧
      Gives (.delayReq s.time.ptpSeq) s t ∧ t.time.ptpSeq = s.time.ptpSeq + 1 := by
  obtain ⟨hoffset, hgives, hseq, -⟩ := syncTime_effect m.origin m.received (stat (sk 0x07010001 2) s)
  simp only [stat_parts] at hoffset hgives hseq
  exact ⟨_, congrArg Host.Outcome.next ((if_pos (hears_master hhears hmaster)).trans (if_neg (by simp [htwo]))), hoffset,
    hgives.sooner (kept_stat _ (.refl s)), hseq⟩

theorem ptpFollowUp_follows {s : State} {m : PtpMsg} {rx : Int} (hhears : ptpHears s m = true)
    (hmaster : s.time.ptpMaster = some m.sender) (hsync : s.time.ptpSync = some (m.seq, rx)) : Runs (.ptpFollowUp m) s fun t =>
      (t.time.base[(3 : Fin 4)]).offset = (s.time.base[(3 : Fin 4)]).delay - timeDiff rx m.origin ∧
      Gives (.delayReq s.time.ptpSeq) s t ∧ t.time.ptpSync = none := by
  obtain ⟨hoffset, hgives, -, hnone⟩ := syncTime_effect m.origin rx (stat (sk 0x07010001 3) s)
  simp only [stat_parts] at hoffset hgives
  have hexec : exec (.ptpFollowUp m) s = .next (syncTime m.origin rx (stat (sk 0x07010001 3) s)) := by
    refine congrArg Host.Outcome.next ((if_pos (hears_master hhears hmaster)).trans ?_)
    simp [hsync]
  exact ⟨_, hexec, hoffset, hgives.sooner (kept_stat _ (.refl s)), hnone⟩

theorem ptpDelayResp_effect {s : State} {m : PtpMsg} {t3 : Int} (hhears : ptpHears s m = true)
    (hmaster : s.time.ptpMaster = some m.sender) (hreq : s.time.ptpReq = some (m.seq, t3)) : Runs (.ptpDelayResp m) s fun t =>
      (t.time.base[(3 : Fin 4)]).delay = (s.time.ptpForward + timeDiff m.origin t3) / 2 ∧ t.time.ptpReq = none ∧
      Only [.time, .stats] s t := by
  have hexec : exec (.ptpDelayResp m) s = .next (setBase 3
      { s.time.base[(3 : Fin 4)] with delay := (s.time.ptpForward + timeDiff m.origin t3) / 2 }
      { stat (sk 0x07010001 4) s with time := { s.time with ptpReq := none } }) := by
    refine congrArg Host.Outcome.next ((if_pos (hears_master hhears hmaster)).trans ?_)
    simp [hreq]
  exact ⟨_, hexec, by rw [base_setBase_same], rfl, only_execPtpDelayResp m (by decide) (by decide) hexec⟩

theorem ptpMasterTimeout_effect {s : State} {n : BitVec 80} (hmaster : s.time.ptpMaster = some n) (hrun : running s = true)
    (hacquired : (s.time.base[(3 : Fin 4)]).acquired = true) : Runs .ptpMasterTimeout s fun t =>
      t.time.ptpMaster = none ∧ (t.time.base[(3 : Fin 4)]).state = 2 ∧ Raises 0x0711 (detail [du 8 3]) s t ∧
      Only (.time :: eventParts) s t := by
  generalize hu : ({ s with time := { s.time with
      ptpMasters := s.time.ptpMasters.filter (fun x => x.sender != n)
      ptpMaster := none
      ptpSync := none
      ptpReq := none } } : State) = u
  have hexec : exec .ptpMasterTimeout s = .next (sourceLost 3 u) := by
    change execPtpMasterTimeout s = _
    simp [execPtpMasterTimeout, hmaster, hrun, hu]
  have hkept : Kept s u := hu ▸ (Kept.refl s).set_time _
  obtain ⟨hstate, -, hraised, -⟩ := sourceLost_effect (b := 3) (s := u) (by decide) (by rw [← hu]; exact hacquired)
  obtain ⟨v, hv⟩ := basesOnly_sourceLost 3 u
  refine ⟨_, hexec, ?_, hstate, hraised.sooner hkept, only_execPtpMasterTimeout (by decide) (by decide) (by decide) (by decide)
    (by decide) (by decide) (by decide) hexec⟩
  rw [hv, ← hu]

end Sys2Proof.Machine

open Sys2Proof Sys2Proof.Machine

/-- Settles O35: a source lost moves its base and ST alone (`sourceLost_effect`), and an offset taken leaves the rest of the time part
(`basesOnly_takeOffset`). -/
theorem sourcesAreFollowedAndLost : Obligations.SourcesAreFollowedAndLost := by
  unfold Obligations.SourcesAreFollowedAndLost
  intro s m
  exact ⟨timeSourceTimeout_effect, timeSporeTimer_effect, ptpAnnounce_effect, ptpSync_waits, ptpSync_follows,
    fun _ => ptpFollowUp_follows, fun _ => ptpDelayResp_effect, fun _ => ptpMasterTimeout_effect⟩
end

section
/-! SUPPORT. What an erasure leaves: the slots named are empty, the rest of the keeper's state is as the steps after it say
(20 R443-R445). -/

namespace Sys2Proof.Machine

theorem Raises.of_nor {c : Nat} {d : W128} {s t u : State} (h : Raises c d t u) (k : t.nor = s.nor) : Raises c d s u := by
  obtain ⟨l, r, hlog, hmem, hr⟩ := h
  exact ⟨l, r, by rw [hlog, k], hmem, hr⟩

/-- A keeper replaced by one with the same slots. -/
theorem Kept.set_keeper {s u : State} (h : Kept s u) {x : Keeper} (hx : x.slots = u.keep.slots) : Kept s { u with keep := x } := by
  obtain ⟨hpending, hout, hlog, hmemory, hslots, hstrobe⟩ := h
  refine ⟨hpending, hout, hlog, hmemory, fun hs i => ?_, hstrobe⟩
  have hi := hslots hs i
  simp only [hx]
  exact hi

theorem eraseIngests_keep (mask : BitVec 64) (l : List IngestRun) (s : State) : (eraseIngests mask l s).keep = s.keep :=
  (only_eraseIngests (fr := [.out, .win, .cfg, .led, .lay, .link, .dma, .fab, .nor, .diag, .evt, .stats, .hostMem, .free]) mask l
    (by decide) (by decide) (by decide) (by decide) (by decide) (by decide) (by decide) (by decide) (by decide) (by decide)
    (by decide) (by decide) (by decide) (by decide) (.refl _ s)).keep (by decide)

theorem eraseDecryptor_keep (mask : BitVec 64) (s : State) : (eraseDecryptor mask s).keep = s.keep :=
  (only_eraseDecryptor (fr := [.lay]) mask (by decide) (.refl _ s)).keep (by decide)

theorem recordErasure_keep (e : Erasure) (bytes : Nat) (s : State) :
    (recordErasure e bytes s).keep = { s.keep with erases := s.keep.erases + 1 } := by simp [recordErasure]

/-- After its first step an erasure moves its place among those that wait, and its count, alone (20 R444). -/
theorem erase_keep (e : Erasure) (s : State) : ∃ scrub zeroing erases, (erase e s).keep =
    { (eraseSlots e s).keep with scrub := scrub, zeroing := zeroing, erases := erases } := by
  unfold erase
  generalize hu : eraseIngests e.mask s.lay.ingests (eraseDecryptor e.mask (eraseSlots e s)) = u
  have hfirst : u.keep = (eraseSlots e s).keep := by rw [← hu, eraseIngests_keep, eraseDecryptor_keep]
  dsimp only
  split
  · split
    · exact ⟨_, _, _, by rw [hfirst]⟩
    · exact ⟨_, _, _, by rw [recordErasure_keep, hfirst]⟩
  · split
    · exact ⟨_, _, _, by rw [hfirst]⟩
    · exact ⟨_, _, _, by rw [hfirst]⟩

theorem slotsErased_erase (e : Erasure) (s : State) : SlotsErased e.mask s (erase e s) := by
  intro i
  obtain ⟨scrub, zeroing, erases, hkeep⟩ := erase_keep e s
  simp only [hkeep, eraseSlots, Fin.getElem_fin, Vector.getElem_ofFn]

theorem slotNamed_allOnes (i : Fin 64) : slotNamed (BitVec.allOnes 64) i.val = true := by
  rw [slotNamed, bitAt, BitVec.testBit_toNat, BitVec.getLsbD_allOnes]
  simp

/-- An erasure of every slot leaves none filled (20 R443). -/
theorem eraseAll_slots (cause : Nat) (s : State) (i : Fin 64) : (eraseAll cause s).keep.slots[i] = KeySlot.empty := by
  rw [eraseAll, slotsErased_erase _ s i, if_pos (slotNamed_allOnes i)]

/-- Debug opens with every slot erased (20 R448). -/
theorem openDebug_effect (s : State) :
    (∀ i : Fin 64, (openDebug s).keep.slots[i] = KeySlot.empty) ∧ (openDebug s).keep.debug = true ∧
      Raises 0x0A15 0 s (openDebug s) := by
  refine ⟨fun i => ?_, by simp [openDebug], ?_⟩
  · simp only [openDebug, raise_parts]
    exact eraseAll_slots 3 s i
  · unfold openDebug
    refine Raises.sooner (t := eraseAll 3 s) ?_ (kept_eraseAll 3 (.refl s))
    exact (raise_raises ..).of_nor rfl

end Sys2Proof.Machine
end

section
/-! PROOF. Layout keys: imports, reports and erasures (13 R319, 20 R440-R445, R448). -/

namespace Sys2Proof.Machine

/-! ### Imports (20 R440-R442) -/

section
variable {e : Entry} {s : State}

theorem importRefused_consume (slot : Fin 64) (src : Src) (s : State) :
    importRefused slot (consume src s) = importRefused slot s := by
  simp only [importRefused, consume_parts]

theorem secImportKey_refuses {r : Nat} (hstart : Starts cmdSecImportKey e s) (hbad : importRefused (importSlot e) s = some r) :
    Runs (.secImportKey e) s fun t => Answers cmdSecImportKey e stBadState r [] s t ∧ Only answerParts s t := by
  refine ⟨_, congrArg Host.Outcome.next ((takeUp_starts hstart rfl).trans ?_), answered_only hstart .loopback stBadState r []⟩
  simp only [importRefused_consume, hbad]

theorem fillSlot_keep (slot : Fin 64) (keyId : Nat) (key : BitVec 256) (s : State) : (fillSlot slot keyId key s).keep =
    { s.keep with
      slots := s.keep.slots.set slot.val
        { key := key, keyId := BitVec.ofNat 64 keyId, imports := (s.keep.slots[slot]).imports + 1, occupied := true }
      imports := s.keep.imports + 1 } := by simp [fillSlot]

theorem fillSlot_same (slot : Fin 64) (keyId : Nat) (key : BitVec 256) (s : State) :
    (fillSlot slot keyId key s).keep.slots[slot] =
      { key := key, keyId := BitVec.ofNat 64 keyId, imports := (s.keep.slots[slot]).imports + 1, occupied := true } := by
  rw [fillSlot_keep]
  exact Vector.getElem_set_self slot.isLt

theorem fillSlot_ne {slot i : Fin 64} (h : i ≠ slot) (keyId : Nat) (key : BitVec 256) (s : State) :
    (fillSlot slot keyId key s).keep.slots[i] = s.keep.slots[i] := by
  rw [fillSlot_keep]
  exact Vector.getElem_set_ne slot.isLt i.isLt fun k => h (Fin.ext k.symm)

theorem fillSlot_raises (slot : Fin 64) (keyId : Nat) (key : BitVec 256) (s : State) :
    Raises 0x0A10 (detail [du 8 slot.val, du 64 keyId]) s (fillSlot slot keyId key s) := by
  unfold fillSlot
  exact (raise_raises ..).of_nor rfl

variable {b : List Byte} {u : State} (hstart : Starts cmdSecImportKey e s) (hfree : importRefused (importSlot e) s = none)
  (hread : readBuffer e (Entry.arg e 1) (fun n => n == 176) (consume e.src s) = (.ok b, u))

include hread in
theorem blobRead_keeps : u.keep = s.keep ∧ u.svc = (consume e.src s).svc ∧ Kept s u := by
  have honly : Only [.dma, .diag, .stats, .free] (consume e.src s) u :=
    only_readBuffer_eq e (Entry.arg e 1) _ (by decide) (by decide) (by decide) (by decide) hread (.refl _ _)
  have hkeep : (consume e.src s).keep = s.keep := by simp
  exact ⟨(honly.keep (by decide)).trans hkeep, honly.svc (by decide),
    kept_readBuffer_eq e (Entry.arg e 1) _ hread (kept_consume _ (.refl s))⟩

include hstart hfree in
theorem exec_secImportKey : exec (.secImportKey e) s = .next
    (importKey (started cmdSecImportKey e .loopback s) e (importSlot e) (bitsNat (Entry.arg e 0) 64 64) (consume e.src s)) := by
  refine congrArg Host.Outcome.next ((takeUp_starts hstart rfl).trans ?_)
  simp only [importRefused_consume, hfree]

include hstart hfree hread

/-- A sound blob's key enters the slot named, and no other slot changes (20 R440, R442). -/
theorem secImportKey_fills {key : BitVec 256}
    (hkey : unwrapBlob b (importSlot e).val (bitsNat (Entry.arg e 0) 64 64) = some key) : Runs (.secImportKey e) s fun t =>
      (t.keep.slots[importSlot e]).key = key ∧ (t.keep.slots[importSlot e]).keyId = bitsOf (Entry.arg e 0) 64 64 ∧
      (t.keep.slots[importSlot e]).occupied = true ∧ t.keep.imports = s.keep.imports + 1 ∧
      (∀ i : Fin 64, i ≠ importSlot e → t.keep.slots[i] = s.keep.slots[i]) ∧
      Raises 0x0A10 (detail [du 8 (importSlot e).val, du 64 (bitsNat (Entry.arg e 0) 64 64)]) s t ∧
      Answers cmdSecImportKey e stOk 0 [word [(0, 32, t.keep.imports.toNat)]] s t := by
  obtain ⟨hkeep, hsvc, hkept⟩ := blobRead_keeps hread
  have hexec := exec_secImportKey hstart hfree
  simp only [importKey, hread, hkey] at hexec
  have hid : BitVec.ofNat 64 (bitsNat (Entry.arg e 0) 64 64) = bitsOf (Entry.arg e 0) 64 64 := by
    apply BitVec.eq_of_toNat_eq
    simp [bitsNat, bitsOf]
  refine ⟨_, hexec, ?_⟩
  simp only [finish_parts, fillSlot_same]
  refine ⟨trivial, hid, trivial, ?_, fun i hi => ?_, ((fillSlot_raises ..).sooner hkept).finished .., ?_⟩
  · rw [fillSlot_keep, hkeep]
  · rw [fillSlot_ne hi, hkeep]
  · refine answered hstart (kept_fillSlot _ _ _ hkept) ?_
    rw [← hsvc]
    simp [fillSlot]

/-- A blob with any fault is refused (20 R442). -/
theorem secImportKey_denies (hkey : unwrapBlob b (importSlot e).val (bitsNat (Entry.arg e 0) 64 64) = none) :
    Runs (.secImportKey e) s fun t =>
      t.keep = s.keep ∧ Raises 0x0A11 0 s t ∧ Answers cmdSecImportKey e stDenied 2 [] s t := by
  obtain ⟨hkeep, hsvc, hkept⟩ := blobRead_keeps hread
  have hexec := exec_secImportKey hstart hfree
  simp only [importKey, hread, hkey] at hexec
  refine ⟨_, hexec, by simp [hkeep], ((raise_raises ..).sooner hkept).finished .., ?_⟩
  exact answered hstart (kept_raise _ _ _ hkept) (by simp [hsvc])

end

theorem secWords_consume (src : Src) (s : State) : secWords (consume src s) = secWords s := by
  simp only [secWords, occupiedMask, consume_parts]

theorem secStatus_reports {e : Entry} {s : State} (hstart : Starts cmdSecStatus e s) : Runs (.secStatus e) s fun t =>
    Answers cmdSecStatus e stOk 0 (secWords s) s t ∧ Only answerParts s t := by
  refine ⟨_, congrArg Host.Outcome.next ((takeUp_starts hstart rfl).trans ?_), answered_only hstart .loopback stOk 0 (secWords s)⟩
  simp only [secWords_consume]

/-! ### Erasures by command and debug (20 R444, R448) -/

section
variable {e : Entry} {s : State}

theorem erase_svc (x : Erasure) (s : State) : (erase x s).svc = s.svc :=
  (only_erase (fr := [.out, .win, .cfg, .led, .lay, .link, .dma, .fab, .keep, .nor, .smb, .diag, .evt, .stats, .hostMem, .free]) x
    (by decide) (by decide) (by decide) (by decide) (by decide) (by decide) (by decide) (by decide) (by decide) (by decide)
    (by decide) (by decide) (by decide) (by decide) (by decide) (by decide) (.refl _ s)).svc (by decide)

theorem openDebug_svc (s : State) : (openDebug s).svc = s.svc := by
  simp only [openDebug, raise_parts]
  exact erase_svc _ s

theorem secEraseKey_effect (hstart : Starts cmdSecEraseKey e s) (hidle : s.keep.zeroing = []) : Runs (.secEraseKey e) s fun t =>
    SlotsErased (erasureOf e).mask s t ∧
      Answers cmdSecEraseKey e stOk 0 [word [(0, 32, t.keep.erases.toNat), (64, 64, (occupiedMask t).toNat)]] s t := by
  have hexec : exec (.secEraseKey e) s = .next (finish (started cmdSecEraseKey e .loopback s) stOk 0
      [word [(0, 32, (erase (erasureOf e) (consume e.src s)).keep.erases.toNat),
        (64, 64, (occupiedMask (erase (erasureOf e) (consume e.src s))).toNat)]] (erase (erasureOf e) (consume e.src s))) :=
    congrArg Host.Outcome.next (takeUp_starts hstart (by simp [hidle]))
  refine ⟨_, hexec, fun i => ?_, ?_⟩
  · have hi := slotsErased_erase (erasureOf e) (consume e.src s) i
    simp only [consume_parts] at hi
    simp only [finish_parts]
    exact hi
  · simp only [occupiedMask, finish_parts]
    exact answered hstart (kept_erase _ (kept_consume _ (.refl s))) (erase_svc ..)

theorem secUnlockDebug_effect (hstart : Starts cmdSecUnlockDebug e s) (hcode : bitsNat (Entry.arg e 0) 0 16 = 0xDEB0) :
    Runs (.secUnlockDebug e) s fun t =>
      (∀ i : Fin 64, t.keep.slots[i] = KeySlot.empty) ∧ t.keep.debug = true ∧ Raises 0x0A15 0 s t ∧
      Answers cmdSecUnlockDebug e stOk 0 [word [(0, 32, t.keep.erases.toNat)]] s t := by
  have hexec : exec (.secUnlockDebug e) s = .next (finish (started cmdSecUnlockDebug e .loopback s) stOk 0
      [word [(0, 32, (openDebug (consume e.src s)).keep.erases.toNat)]] (openDebug (consume e.src s))) :=
    congrArg Host.Outcome.next ((takeUp_starts hstart rfl).trans (if_neg (not_not.mpr hcode)))
  obtain ⟨hslots, hdebug, hraised⟩ := openDebug_effect (consume e.src s)
  refine ⟨_, hexec, ?_⟩
  simp only [finish_parts]
  exact ⟨hslots, hdebug, (hraised.sooner (kept_consume _ (.refl s))).finished ..,
    answered hstart (kept_openDebug (kept_consume _ (.refl s))) (openDebug_svc _)⟩

theorem dbgRequest_opens (hrun : running s = true) (hmode : s.pm.mode = .ready ∨ s.pm.mode = .hold) :
    Runs .dbgRequest s fun t =>
      (∀ i : Fin 64, t.keep.slots[i] = KeySlot.empty) ∧ t.keep.debug = true ∧ Raises 0x0A15 0 s t :=
  ⟨_, congrArg Host.Outcome.next (if_pos ⟨hrun, hmode⟩), openDebug_effect s⟩

theorem dbgRequest_waits (hready : s.pm.mode ≠ .ready) (hhold : s.pm.mode ≠ .hold) : Runs .dbgRequest s fun t =>
    t.keep = { s.keep with dbgHeld := true } ∧ Only [.keep] s t :=
  ⟨_, congrArg Host.Outcome.next (if_neg (by simp [hready, hhold])), rfl, (Only.refl _ s).set_keep _ (by decide)⟩

end

/-! ### The end of a zeroing (20 R444) -/

theorem zeroRegions_sub (l : List Region) (s : State) : (zeroRegions l s).hbmMem ⊆ s.hbmMem := by
  induction l generalizing s with
  | nil => exact fun _ h => h
  | cons r l ih =>
    unfold zeroRegions
    exact fun c hc => List.mem_of_mem_filter (ih _ hc)

/-- No byte of a zeroed region is left (20 R444 step 3). -/
theorem zeroRegions_clears {r : Region} {l : List Region} (hr : r ∈ l) (s : State) :
    ∀ c ∈ (zeroRegions l s).hbmMem, ¬ (r.start ≤ c.1 ∧ c.1 < r.start + r.len) := by
  induction l generalizing s with
  | nil => cases hr
  | cons x l ih =>
    unfold zeroRegions
    rcases List.mem_cons.mp hr with rfl | hmem
    · intro c hc hin
      simpa [hin.1, hin.2] using (List.mem_filter.mp (zeroRegions_sub _ _ hc)).2
    · exact ih hmem _

theorem zeroRegions_keep (l : List Region) (s : State) : (zeroRegions l s).keep = s.keep :=
  (only_zeroRegions (fr := [.hbmMem]) l (by decide) (.refl _ s)).keep (by decide)

theorem recordErasure_hbmMem (e : Erasure) (bytes : Nat) (s : State) : (recordErasure e bytes s).hbmMem = s.hbmMem := by
  simp [recordErasure]

theorem recordErasure_raises (e : Erasure) (bytes : Nat) (s : State) :
    Raises 0x0A12 (detail [du 64 e.mask.toNat, du 8 e.cause, du 56 bytes]) s (recordErasure e bytes s) := by
  unfold recordErasure
  refine Raises.later ?_ (kept_setSmb _ (kept_setFlag _ (.refl _)))
  exact (raise_raises ..).of_nor rfl

/-- An erasure that ends leaves no byte of its regions, none of them registered, and is counted and told of (20 R444). -/
theorem finishErasure_effect (x : Erasure) (s : State) :
    (finishErasure x s).keep.zeroing = s.keep.zeroing ∧ (finishErasure x s).keep.erases = s.keep.erases + 1 ∧
      (∀ r ∈ (finishErasure x s).keep.regions, ¬ (x.all = true ∨ slotNamed x.mask r.slot = true)) ∧
      (∀ r ∈ namedRegions x s, ∀ c ∈ (finishErasure x s).hbmMem, ¬ (r.start ≤ c.1 ∧ c.1 < r.start + r.len)) ∧
      Raises 0x0A12 (detail [du 64 x.mask.toNat, du 8 x.cause, du 56 ((namedRegions x s).map (·.len)).sum]) s
        (finishErasure x s) := by
  unfold finishErasure
  dsimp only
  rw [recordErasure_keep, recordErasure_hbmMem, zeroRegions_keep]
  refine ⟨rfl, rfl, fun r hr hnamed => ?_, fun r hr => zeroRegions_clears hr _, ?_⟩
  · obtain ⟨hmem, hother⟩ := List.mem_filter.mp hr
    have hin : r ∈ namedRegions x s := List.mem_filter.mpr ⟨hmem, by simpa using hnamed⟩
    simp [hin] at hother
  · exact (recordErasure_raises ..).sooner (kept_zeroRegions _ ((Kept.refl s).set_keeper rfl))

theorem erasureZeroingDone_effect {s : State} {x : Erasure} {l : List Erasure} (hzeroing : s.keep.zeroing = x :: l)
    (hworks : memWorks s = true) : Runs .erasureZeroingDone s fun t =>
      t.keep.zeroing = l ∧ t.keep.erases = s.keep.erases + 1 ∧
      (∀ r ∈ t.keep.regions, ¬ (x.all = true ∨ slotNamed x.mask r.slot = true)) ∧
      (∀ r ∈ namedRegions x s, ∀ c ∈ t.hbmMem, ¬ (r.start ≤ c.1 ∧ c.1 < r.start + r.len)) ∧
      Raises 0x0A12 (detail [du 64 x.mask.toNat, du 8 x.cause, du 56 ((namedRegions x s).map (·.len)).sum]) s t := by
  have hexec : exec .erasureZeroingDone s = .next (finishErasure x { s with keep := { s.keep with zeroing := l } }) := by
    change execErasureZeroingDone s = _
    simp only [execErasureZeroingDone, hzeroing, hworks, if_true]
  exact ⟨_, hexec, finishErasure_effect x { s with keep := { s.keep with zeroing := l } }⟩

end Sys2Proof.Machine

open Sys2Proof Sys2Proof.Machine

/-- Settles O28: the steps of an erasure after the first keep the slots (`erase_keep`), and reading a blob keeps the keeper
(`blobRead_keeps`). -/
theorem keysAreImportedAndErased : Obligations.KeysAreImportedAndErased := by
  unfold Obligations.KeysAreImportedAndErased
  refine ⟨fun e s => ⟨fun b u hstart hfree hread => ⟨fun key => secImportKey_fills hstart hfree hread,
      secImportKey_denies hstart hfree hread⟩, fun r => secImportKey_refuses, secStatus_reports⟩,
    fun e s => ⟨secEraseKey_effect, secUnlockDebug_effect, dbgRequest_opens, fun _ => dbgRequest_waits,
      fun x l => erasureZeroingDone_effect⟩⟩
end

section
/-! PROOF. Tamper loop, battery and the keeper's supplies (20 R438, R439, R446, R447). -/

namespace Sys2Proof.Machine

section
variable {s : State}

/-! ### Telling -/

/-- An event told of at once (20 R446). -/
theorem keeperTell_raises {code : Nat} {det : W128} (hbattery : s.keep.battery = false) (hrun : running s = true) :
    Raises code det s (keeperTell code det s) := by
  rw [keeperTell, if_neg (by simp [hbattery, hrun])]
  exact raise_raises ..

/-- Telling changes nothing in the keeper but the events that wait (20 R453). -/
theorem keeperTell_keep (code : Nat) (det : W128) (s : State) : ∃ l, (keeperTell code det s).keep = { s.keep with later := l } := by
  unfold keeperTell
  split
  · exact ⟨_, rfl⟩
  · exact ⟨s.keep.later, by simp⟩

/-! ### The tamper loop (20 R446, R447) -/

/-- The state as the tamper latches, told of and counted (20 R446). -/
def tripTold (s : State) : State :=
  keeperRaise 0x0A13 { s with keep := { s.keep with latched := true, trips := s.keep.trips + 1 } }

theorem tripTold_keep (s : State) :
    ∃ l, (tripTold s).keep = { s.keep with latched := true, trips := s.keep.trips + 1, later := l } := keeperTell_keep ..

theorem eraseAll_keep (cause : Nat) (s : State) :
    (eraseAll cause s).keep.latched = s.keep.latched ∧ (eraseAll cause s).keep.trips = s.keep.trips := by
  obtain ⟨scrub, zeroing, erases, hkeep⟩ := erase_keep { mask := BitVec.allOnes 64, cause := cause, all := true } s
  rw [eraseAll, hkeep]
  simp only [eraseSlots, and_self]

/-- A trip latches, is counted and told of, and leaves no key (20 R446). -/
theorem tamperTrip_effect (s : State) :
    (tamperTrip s).keep.latched = true ∧ (tamperTrip s).keep.trips = s.keep.trips + 1 ∧
      (∀ i : Fin 64, (tamperTrip s).keep.slots[i] = KeySlot.empty) ∧
      (s.keep.battery = false → running s = true → Raises 0x0A13 (detail [du 48 s.keep.ticks.toNat]) s (tamperTrip s)) := by
  obtain ⟨l, htold⟩ := tripTold_keep s
  obtain ⟨hlatched, htrips⟩ := eraseAll_keep 2 (tripTold s)
  refine ⟨hlatched.trans (by rw [htold]), htrips.trans (by rw [htold]), eraseAll_slots 2 _, fun hbattery hrun => ?_⟩
  refine Raises.later (t := tripTold s) ?_ (kept_eraseAll 2 (.refl _))
  have htold := keeperTell_raises (code := 0x0A13) (det := detail [du 48 s.keep.ticks.toNat])
    (s := { s with keep := { s.keep with latched := true, trips := s.keep.trips + 1 } }) hbattery hrun
  exact htold.of_nor rfl

/-- The keeper with a check's ticks counted (20 R438). -/
def ticked (s : State) : State := { s with keep := { s.keep with ticks := s.keep.ticks + 64 } }

theorem exec_tamperCheck (hwatches : s.keep.stopped = false) (pass : Bool) : exec (.tamperCheck pass) s = .next
    (if pass then { ticked s with keep := { (ticked s).keep with fails := 0, loopOpen := false } } else checkFailed (ticked s)) :=
  congrArg Host.Outcome.next (if_neg (by simp [hwatches]))

theorem checkFailed_trips (hlatched : s.keep.latched = false) (hfails : s.keep.fails = 1) :
    checkFailed s = tamperTrip { s with keep := { s.keep with loopOpen := true, fails := s.keep.fails + 1 } } := by
  simp [checkFailed, hlatched, hfails]

theorem tamperCheck_trips (hwatches : s.keep.stopped = false) (hlatched : s.keep.latched = false) (hfails : s.keep.fails = 1) :
    Runs (.tamperCheck false) s fun t =>
      t.keep.latched = true ∧ t.keep.trips = s.keep.trips + 1 ∧ (∀ i : Fin 64, t.keep.slots[i] = KeySlot.empty) ∧
      (s.keep.battery = false → running s = true → Raises 0x0A13 (detail [du 48 (s.keep.ticks + 64).toNat]) s t) := by
  have hexec : exec (.tamperCheck false) s = .next (tamperTrip
      { ticked s with keep := { (ticked s).keep with loopOpen := true, fails := s.keep.fails + 1 } }) := by
    rw [exec_tamperCheck hwatches, if_neg (by decide), checkFailed_trips (s := ticked s) hlatched hfails]
    rfl
  obtain ⟨hnow, hcount, hslots, htold⟩ := tamperTrip_effect
    { ticked s with keep := { (ticked s).keep with loopOpen := true, fails := s.keep.fails + 1 } }
  exact ⟨_, hexec, hnow, hcount, hslots, fun hbattery hrun => (htold hbattery hrun).of_nor rfl⟩

/-- A first failed check is counted (20 R446). -/
theorem tamperCheck_counts (hwatches : s.keep.stopped = false) (hfails : s.keep.fails = 0) :
    Runs (.tamperCheck false) s fun t =>
      t.keep.fails = 1 ∧ t.keep.loopOpen = true ∧ t.keep.slots = s.keep.slots ∧ Only [.keep] s t := by
  refine ⟨_, (exec_tamperCheck hwatches false).trans (congrArg _ (if_neg (by decide))), ?_⟩
  unfold checkFailed
  dsimp only
  split
  · exact ⟨by simp [ticked, hfails], rfl, rfl, ((Only.refl _ s).set_keep _ (by decide)).set_keep _ (by decide)⟩
  · rw [if_neg (by simp [ticked, hfails])]
    exact ⟨by simp [ticked, hfails], rfl, rfl, ((Only.refl _ s).set_keep _ (by decide)).set_keep _ (by decide)⟩

theorem tamperCheck_passes (hwatches : s.keep.stopped = false) : Runs (.tamperCheck true) s fun t =>
    t.keep = { s.keep with ticks := s.keep.ticks + 64, fails := 0, loopOpen := false } ∧ Only [.keep] s t :=
  ⟨_, exec_tamperCheck hwatches true, rfl, ((Only.refl _ s).set_keep _ (by decide)).set_keep _ (by decide)⟩

theorem tamperCleared_effect (hwatches : s.keep.stopped = false) (hlatched : s.keep.latched = true)
    (hclosed : s.keep.loopOpen = false) : Runs .tamperCleared s fun t =>
      t.keep.latched = false ∧ (s.keep.battery = false → running s = true → Raises 0x0A14 0 s t) := by
  refine ⟨_, congrArg Host.Outcome.next (if_neg (by simp [hwatches, hlatched, hclosed])), ?_, fun hbattery hrun => ?_⟩
  · obtain ⟨l, htold⟩ := keeperTell_keep 0x0A14 0 { s with keep := { s.keep with latched := false } }
    exact congrArg Keeper.latched htold
  · exact (keeperTell_raises (s := { s with keep := { s.keep with latched := false } }) hbattery hrun).of_nor rfl

/-! ### Supplies (20 R438, R439) -/

/-- The low flag follows the level, and slots stay (20 R439). -/
theorem vbatFlag_keep (s : State) : ∃ l, (vbatFlag s).keep = { s.keep with
    vbatLow := if s.keep.vbat.toNat < 2200 then true else if 2300 < s.keep.vbat.toNat then false else s.keep.vbatLow
    later := l } := by
  unfold vbatFlag
  dsimp only
  split
  · split
    · rename_i hlow
      exact ⟨s.keep.later, by rw [← hlow]⟩
    · obtain ⟨l, h⟩ := keeperTell_keep 0x0A16 _ { s with keep := { s.keep with vbatLow := true } }
      exact ⟨l, h⟩
  · split
    · exact ⟨_, rfl⟩
    · exact ⟨_, rfl⟩

theorem exec_vbatThreshold (hwatches : s.keep.stopped = false) (mv : BitVec 16) :
    exec (.vbatThreshold mv) s = .next (batteryCheck (vbatFlag { s with keep := { s.keep with vbat := mv } })) :=
  congrArg Host.Outcome.next (if_neg (by simp [hwatches]))

theorem vbatThreshold_powered (hwatches : s.keep.stopped = false) (mv : BitVec 16) (hmain : s.keep.battery = false) :
    Runs (.vbatThreshold mv) s fun t =>
      t.keep.vbat = mv ∧
      t.keep.vbatLow = (if mv.toNat < 2200 then true else if 2300 < mv.toNat then false else s.keep.vbatLow) ∧
      t.keep.slots = s.keep.slots := by
  obtain ⟨l, hflag⟩ := vbatFlag_keep { s with keep := { s.keep with vbat := mv } }
  have hidle : batteryCheck (vbatFlag { s with keep := { s.keep with vbat := mv } }) =
      vbatFlag { s with keep := { s.keep with vbat := mv } } := if_pos (.inl (by rw [hflag]; exact hmain))
  refine ⟨_, (exec_vbatThreshold hwatches mv).trans (congrArg _ hidle), ?_⟩
  beta_reduce
  rw [hflag]
  exact ⟨rfl, rfl, rfl⟩

/-- On battery below 2.05 V no key stays (20 R439). -/
theorem batteryCheck_stops (hbattery : s.keep.battery = true) (hwatches : s.keep.stopped = false) (hlatched : s.keep.latched = false)
    (hlow : s.keep.vbat.toNat < 2050) :
    (batteryCheck s).keep.stopped = true ∧ ∀ i : Fin 64, (batteryCheck s).keep.slots[i] = KeySlot.empty := by
  have heq : batteryCheck s =
      let u := if s.keep.vbat = 0 then keysLost s else eraseAll 4 s
      { u with keep := { u.keep with stopped := true } } := by
    unfold batteryCheck
    rw [if_neg (by simp [hbattery, hwatches, hlow]), hlatched]
    rfl
  rw [heq]
  refine ⟨rfl, fun i => ?_⟩
  dsimp only
  split
  · exact Vector.getElem_replicate _
  · exact eraseAll_slots 4 s i

theorem vbatThreshold_stops (hwatches : s.keep.stopped = false) (mv : BitVec 16) (hbattery : s.keep.battery = true)
    (hlatched : s.keep.latched = false) (hlow : mv.toNat < 2050) : Runs (.vbatThreshold mv) s fun t =>
      t.keep.stopped = true ∧ ∀ i : Fin 64, t.keep.slots[i] = KeySlot.empty := by
  obtain ⟨l, hflag⟩ := vbatFlag_keep { s with keep := { s.keep with vbat := mv } }
  exact ⟨_, exec_vbatThreshold hwatches mv, batteryCheck_stops (by rw [hflag]; exact hbattery) (by rw [hflag]; exact hwatches)
    (by rw [hflag]; exact hlatched) (by rw [hflag]; exact hlow)⟩

theorem keeperSupplySwitch_battery (hmain : s.keep.battery = false) (hlevel : 2050 ≤ s.keep.vbat.toNat) :
    Runs (.keeperSupplySwitch true) s fun t => t.keep = { s.keep with battery := true } ∧ Only [.keep] s t := by
  have hexec : exec (.keeperSupplySwitch true) s = .next (batteryCheck { s with keep := { s.keep with battery := true } }) :=
    congrArg Host.Outcome.next ((if_pos rfl).trans (if_neg (by simp [hmain])))
  have hidle : batteryCheck { s with keep := { s.keep with battery := true } } = { s with keep := { s.keep with battery := true } } :=
    if_pos (.inr (.inr hlevel))
  exact ⟨_, hexec.trans (congrArg _ hidle), rfl, (Only.refl _ s).set_keep _ (by decide)⟩

theorem raiseLater_keep (l : List (Nat × W128)) (s : State) : (raiseLater l s).keep = s.keep :=
  (only_raiseLater (fr := eventParts) l (by decide) (by decide) (by decide) (by decide) (by decide) (by decide)
    (.refl _ s)).keep (by decide)

/-- Main power ends the battery's supply and leaves the keys (20 R438). -/
theorem keeperPowered_keep (s : State) :
    (keeperPowered s).keep.battery = false ∧ (keeperPowered s).keep.slots = s.keep.slots := by
  unfold keeperPowered flushKeeper
  split
  · exact ⟨rfl, rfl⟩
  · rw [raiseLater_keep]
    exact ⟨rfl, rfl⟩

theorem keeperSupplySwitch_main (hbattery : s.keep.battery = true) : Runs (.keeperSupplySwitch false) s fun t =>
    t.keep.battery = false ∧ t.keep.slots = s.keep.slots ∧ Only (.keep :: eventParts) s t := by
  obtain ⟨hmain, hslots⟩ := keeperPowered_keep s
  refine ⟨_, congrArg Host.Outcome.next ((if_neg (by decide)).trans (if_pos hbattery)), hmain, hslots, ?_⟩
  exact only_keeperPowered (by decide) (by decide) (by decide) (by decide) (by decide) (by decide) (by decide) (.refl _ s)

end

end Sys2Proof.Machine

open Sys2Proof Sys2Proof.Machine

/-- Settles O29: an erasure of every slot leaves none (`eraseAll_slots`); telling changes the events that wait alone
(`keeperTell_keep`). -/
theorem tamperErasesEverything : Obligations.TamperErasesEverything := by
  unfold Obligations.TamperErasesEverything
  intro s hwatches
  exact ⟨tamperCheck_trips hwatches, tamperCheck_counts hwatches, tamperCheck_passes hwatches, tamperCleared_effect hwatches,
    vbatThreshold_powered hwatches, vbatThreshold_stops hwatches, keeperSupplySwitch_battery, keeperSupplySwitch_main⟩
end

section
/-! PROOF. Service port, IDENT and the SMBus slave (20 R450, R451, 22 R483). -/

namespace Sys2Proof.Machine

theorem only_event_tellRunning {fr : List Block} {s u : State} (hfr : ∀ b, b ∈ eventParts → b ∈ fr) (h : Only fr s u) (code : Nat)
    (d : Domain) (det : W128) : Only fr s (tellRunning code d det u) := by
  unfold tellRunning
  split
  · exact h.raised hfr ..
  · exact h

theorem tellRunning_svc (code : Nat) (d : Domain) (det : W128) (s : State) : (tellRunning code d det s).svc = s.svc := by
  unfold tellRunning
  split
  · simp
  · rfl

theorem tellRunning_raises {code : Nat} {d : Domain} {det : W128} {s : State} (h : running s = true) :
    Raises code det s (tellRunning code d det s) := by
  rw [tellRunning, if_pos h]
  exact raise_raises ..

section
variable {s : State}

theorem svcAttached_effect (h : s.svc.attached = false) : Runs .svcAttached s fun t =>
    t.svc.attached = true ∧ (running s = true → Raises 0x0A20 0 s t) ∧ Only (.svc :: eventParts) s t := by
  generalize hu : logEdge 0 { s with svc := { s.svc with attached := true } } = u
  have hexec : exec .svcAttached s = .next (tellRunning 0x0A20 .ctrl 0 u) :=
    congrArg Host.Outcome.next ((if_neg (by simp [h])).trans (by rw [hu]))
  refine ⟨_, hexec, by rw [tellRunning_svc, ← hu]; rfl, fun hrun => ?_, only_event_tellRunning (by decide) ?_ ..⟩
  · exact (tellRunning_raises (by rw [← hu]; exact hrun)).of_nor (by rw [← hu]; rfl)
  · rw [← hu]
    exact only_logEdge _ (by decide) ((Only.refl _ s).set_svc _ (by decide))

theorem svcDetached_effect (h : s.svc.attached = true) : Runs .svcDetached s fun t =>
    t.svc.attached = false ∧ (running s = true → Raises 0x0A21 0 s t) ∧ Only (.svc :: eventParts) s t := by
  generalize hu : logEdge 1 { s with svc := { s.svc with attached := false } } = u
  have hexec : exec .svcDetached s = .next (tellRunning 0x0A21 .ctrl 0 u) :=
    congrArg Host.Outcome.next ((if_pos h).trans (by rw [hu]))
  refine ⟨_, hexec, by rw [tellRunning_svc, ← hu]; rfl, fun hrun => ?_, only_event_tellRunning (by decide) ?_ ..⟩
  · exact (tellRunning_raises (by rw [← hu]; exact hrun)).of_nor (by rw [← hu]; rfl)
  · rw [← hu]
    exact only_logEdge _ (by decide) ((Only.refl _ s).set_svc _ (by decide))

theorem tellRunning_times (code : Nat) (d : Domain) (det : W128) (s : State) :
    ftNow (tellRunning code d det s) = ftNow s ∧ ltNow (tellRunning code d det s) = ltNow s := by
  have honly : Only eventParts s (tellRunning code d det s) := only_event_tellRunning (fun _ h => h) (.refl _ s) ..
  have htime := honly.time (by decide)
  simp only [ftNow, ltNow, htime]
  exact ⟨trivial, trivial⟩

/-- A press is told of; a short one flashes the LEDs, a long one leaves a service mark (20 R451). -/
theorem identPressed_effect (ms : BitVec 32) (halive : aonAlive s = true) (hfree : s.svc.stuck = false) :
    Runs (.identPressed ms) s fun t =>
      (running s = true → Raises 0x0A23 (detail [du 32 ms.toNat]) s t) ∧
      (ms.toNat < 2000 → t.svc.flashing = true) ∧ (5000 ≤ ms.toNat → (ftNow s, ltNow s) ∈ t.nor.marks) := by
  generalize hu : tellRunning 0x0A23 .aon (detail [du 32 ms.toNat]) (logEdge 2 s) = u
  have hexec : exec (.identPressed ms) s = .next
      (if ms.toNat < 2000 then { u with svc := { u.svc with flashing := true } }
       else if 5000 ≤ ms.toNat then serviceMark u else u) := by
    refine congrArg Host.Outcome.next ((if_neg (by simp [halive])).trans ((if_neg (by simp [hfree])).trans ?_))
    rw [hu]
  have htold (hrun : running s = true) : Raises 0x0A23 (detail [du 32 ms.toNat]) s u := by
    rw [← hu]
    exact (tellRunning_raises (s := logEdge 2 s) hrun).of_nor rfl
  refine ⟨_, hexec, fun hrun => ?_, fun hshort => by rw [if_pos hshort], fun hlong => ?_⟩
  · split
    · exact (htold hrun).later ((Kept.refl u).set_svc _)
    · split
      · exact (htold hrun).later (kept_serviceMark (.refl u))
      · exact htold hrun
  · obtain ⟨hft, hlt⟩ := tellRunning_times 0x0A23 .aon (detail [du 32 ms.toNat]) (logEdge 2 s)
    rw [hu] at hft hlt
    rw [if_neg (by omega), if_pos hlong, serviceMark, hft, hlt]
    exact List.mem_cons_self

theorem identStuck_effect (halive : aonAlive s = true) (hfree : s.svc.stuck = false) : Runs .identStuck s fun t =>
    t.svc.stuck = true ∧ (running s = true → Raises 0x0A23 (detail [du 32 30000]) s t) := by
  refine ⟨_, congrArg Host.Outcome.next (if_neg (by simp [halive, hfree])), by rw [tellRunning_svc]; rfl, fun hrun => ?_⟩
  exact (tellRunning_raises (s := logEdge 2 { s with svc := { s.svc with stuck := true } }) hrun).of_nor rfl

end

end Sys2Proof.Machine

open Sys2Proof Sys2Proof.Machine

/-- Settles O30: the pins' events are told of while the device runs (`tellRunning_raises`). -/
theorem pinsAreHeard : Obligations.PinsAreHeard := by
  unfold Obligations.PinsAreHeard
  intro s
  refine ⟨svcAttached_effect, svcDetached_effect, identPressed_effect, identStuck_effect,
    ⟨_, rfl, rfl, (Only.refl _ s).set_svc _ (by decide)⟩, fun v halive => ?_, fun v halive => ?_, fun halive => ?_⟩
  · exact ⟨_, congrArg Host.Outcome.next (if_pos halive), rfl, (Only.refl _ s).set_smb _ (by decide)⟩
  · exact ⟨_, congrArg Host.Outcome.next (if_pos halive), rfl, (Only.refl _ s).set_smb _ (by decide)⟩
  · exact ⟨_, congrArg Host.Outcome.next (if_pos halive), emit_gives .., only_emit _ (by decide) (.refl _ s)⟩
end

section
/-! PROOF. Calibration: the run asked for and begun, its targets judged, the limits and the monitor ADC (13 R315, 18 R408-R416,
22 R481). -/

namespace Sys2Proof.Machine

/-! ### Commands (13 R315) -/

section
variable {e : Entry} {s : State}

theorem calRun_asks (hstart : Starts cmdCalRun e s) (hidle : s.cal.st = 0)
    (hexpose : s.pm.mode ≠ .expose ∨ bitAt (Entry.arg e 0) 4 = true) (htargets : bitsNat (Entry.arg e 0) 0 4 ≠ 0) :
    Runs (.calRun e) s fun t =>
      t.cal = { s.cal with st := 1, targets := bitsOf (Entry.arg e 0) 0 4, item := none } ∧
      started cmdCalRun e .calRun s ∈ t.mb.running ∧ Only (.cal :: answerParts) s t := by
  have hcal : (consume e.src s).cal = s.cal := by simp
  have hmode : ¬ (s.pm.mode = .expose ∧ bitAt (Entry.arg e 0) 4 = false) := by
    rintro ⟨hm, hbit⟩
    exact hexpose.elim (fun h => h hm) (by simp [hbit])
  have hexec : exec (.calRun e) s = .next (wait (started cmdCalRun e .loopback s) .calRun { consume e.src s with
      cal := { s.cal with st := 1, targets := bitsOf (Entry.arg e 0) 0 4, item := none } }) := by
    refine congrArg Host.Outcome.next ((takeUp_starts hstart (by simp [hidle])).trans ?_)
    simp only [consume_parts, if_neg hmode, if_neg htargets]
  exact ⟨_, hexec, rfl, started_mem_wait ..,
    only_wait _ _ (by decide) ((only_consume_self (by decide) e.src s).set_cal _ (by decide))⟩

theorem calStatus_reports (hstart : Starts cmdCalStatus e s) : Runs (.calStatus e) s fun t =>
    Answers cmdCalStatus e stOk 0
      [word [(0, 32, s.cal.count.toNat), (32, 32, s.cal.pt.toNat), (64, 32, s.cal.ft.toNat),
         (96, 4, s.cal.accepted.toNat), (100, 4, s.cal.failedMask.toNat)],
       word [(0, 32, s.cal.failures.toNat)]] s t ∧ Only answerParts s t := by
  refine ⟨_, congrArg Host.Outcome.next ((takeUp_starts hstart rfl).trans ?_), answered_only hstart .loopback stOk 0 _⟩
  simp only [consume_parts]

/-! ### Limits (18 R412) -/

section
variable {b : List Byte} {u : State} (hstart : Starts cmdCalSetLimits e s) (hidle : s.cal.st = 0)
  (hread : readBuffer e (Entry.arg e 0) (fun n => n == 64) (consume e.src s) = (.ok b, u))

include hread in
theorem limitsRead_keeps : u.cal = s.cal ∧ u.svc = (consume e.src s).svc ∧ Kept s u := by
  have honly : Only [.dma, .diag, .stats, .free] (consume e.src s) u :=
    only_readBuffer_eq e (Entry.arg e 0) _ (by decide) (by decide) (by decide) (by decide) hread (.refl _ _)
  have hcal : (consume e.src s).cal = s.cal := by simp
  exact ⟨(honly.cal (by decide)).trans hcal, honly.svc (by decide),
    kept_readBuffer_eq e (Entry.arg e 0) _ hread (kept_consume _ (.refl s))⟩

include hstart hidle hread

theorem calSetLimits_takes (hgood : limitsBad b = none) : Runs (.calSetLimits e) s fun t =>
    t.cal = { s.cal with limits := BitVec.ofNat 512 (leNat b) } ∧ Raises 0x0814 0 s t ∧
      Answers cmdCalSetLimits e stOk 0 [] s t := by
  obtain ⟨hcal, hsvc, hkept⟩ := limitsRead_keeps hread
  have hexec : exec (.calSetLimits e) s = .next (finish (started cmdCalSetLimits e .loopback s) stOk 0 [] (raise 0x0814 .trk 0
      { u with cal := { s.cal with limits := BitVec.ofNat 512 (leNat b) } })) := by
    refine congrArg Host.Outcome.next ((takeUp_starts hstart (by simp [hidle])).trans ?_)
    simp only [hread, hgood, hcal]
  refine ⟨_, hexec, by simp, ((raise_raises ..).sooner (hkept.set_cal _)).finished .., ?_⟩
  exact answered hstart (kept_raise _ _ _ (hkept.set_cal _)) (by simp [hsvc])

theorem calSetLimits_refuses {n : Nat} (hbad : limitsBad b = some n) : Runs (.calSetLimits e) s fun t =>
    t.cal = s.cal ∧ Raises 0x0815 0 s t ∧ Answers cmdCalSetLimits e stBadArg n [] s t := by
  obtain ⟨hcal, hsvc, hkept⟩ := limitsRead_keeps hread
  have hexec : exec (.calSetLimits e) s =
      .next (finish (started cmdCalSetLimits e .loopback s) stBadArg n [] (raise 0x0815 .trk 0 u)) := by
    refine congrArg Host.Outcome.next ((takeUp_starts hstart (by simp [hidle])).trans ?_)
    simp only [hread, hbad]
  refine ⟨_, hexec, by simp [hcal], ((raise_raises ..).sooner hkept).finished .., ?_⟩
  exact answered hstart (kept_raise _ _ _ hkept) (by simp [hsvc])

end

end

/-! ### The run begins (18 R408, R414, R415) -/

theorem showDacs_cal (s : State) : (showDacs s).cal = s.cal :=
  (only_showDacs (fr := [.out]) (by decide) (.refl _ s)).cal (by decide)

theorem zeroDacs_cal (s : State) : (zeroDacs s).cal = s.cal :=
  (only_zeroDacs (fr := [.out]) (by decide) (.refl _ s)).cal (by decide)

/-- The run's state with its reference measured, the DACs not yet at 0 mA (18 R408, R415). -/
def runBegun (na : Nat) (s : State) : State :=
  { s with cal := { s.cal with
      st := 2
      iRef := na
      adc := if bitAt s.cal.targets 1 then s.cal.adc.map (fun x => (x.1, true, x.2.2)) else s.cal.adc } }

theorem calRunStart_effect {s : State} (na : Nat) (hasked : s.cal.st = 1) (hon : domOn s .trk = true) (hpoint : calPoint s = true) :
    Runs (.calRunStart na) s fun t => t.cal.st = 2 ∧ t.cal.iRef = na ∧ (refOk na = false → Raises 0x0812 0 s t) := by
  generalize hu : (if calDacs (runBegun na s) then zeroDacs (runBegun na s) else runBegun na s) = u
  have hexec : exec (.calRunStart na) s = .next (if refOk na then u else raise 0x0812 .trk 0 u) := by
    refine congrArg Host.Outcome.next ((if_neg (by simp [hasked, hon, hpoint])).trans ?_)
    rw [← hu]
    rfl
  have hcal : u.cal = (runBegun na s).cal := by
    rw [← hu]
    split
    · exact zeroDacs_cal _
    · rfl
  have hkept : Kept s u := by
    rw [← hu]
    split
    · exact kept_zeroDacs ((Kept.refl s).set_cal _)
    · exact (Kept.refl s).set_cal _
  refine ⟨_, hexec, ?_⟩
  beta_reduce
  split
  · rename_i hok
    exact ⟨by rw [hcal]; rfl, by rw [hcal]; rfl, fun hbad => absurd hok (by simp [hbad])⟩
  · simp only [raise_parts, hcal]
    exact ⟨rfl, rfl, fun _ => (raise_raises ..).sooner hkept⟩

/-! ### Judging a target (18 R411) -/

/-- One target of the run judged (18 R411). -/
def judged (l : List CalMeas) (k : Nat) (s : State) : State :=
  if bitAt s.cal.targets k = false then s
  else
    match targetFail s l k with
    | some f => raiseTarget k f s
    | none => acceptTarget l k s

/-- The target is one of the run's and passes. -/
def accepts (l : List CalMeas) (s : State) (k : Nat) : Bool := bitAt s.cal.targets k && (targetFail s l k).isNone

/-- The target is one of the run's and fails. -/
def fails (l : List CalMeas) (s : State) (k : Nat) : Bool := bitAt s.cal.targets k && (targetFail s l k).isSome

/-- The mask of the targets that `p` picks. -/
def maskOf (p : Nat → Bool) (l : List Nat) : Nat := (l.map fun k => if p k then 2 ^ k else 0).sum

/-- What judging asks of a state: its targets, its reference and its limits. -/
def SameRun (s t : State) : Prop :=
  t.cal.targets = s.cal.targets ∧ t.cal.iRef = s.cal.iRef ∧ t.cal.limits = s.cal.limits

section
variable {l : List CalMeas} {s t : State}

theorem SameRun.targetFail (h : SameRun s t) (k : Nat) : Machine.targetFail t l k = Machine.targetFail s l k := by
  obtain ⟨-, href, hlimits⟩ := h
  rw [Machine.targetFail, Machine.targetFail, href, hlimits]

theorem SameRun.accepts (h : SameRun s t) : Machine.accepts l t = Machine.accepts l s := by
  funext k
  rw [Machine.accepts, Machine.accepts, h.targetFail, h.1]

theorem SameRun.fails (h : SameRun s t) : Machine.fails l t = Machine.fails l s := by
  funext k
  rw [Machine.fails, Machine.fails, h.targetFail, h.1]

theorem raiseTarget_cal (k : Nat) (f : CalFail) (s : State) : (raiseTarget k f s).cal = s.cal := by simp [raiseTarget]

theorem sameRun_judged (l : List CalMeas) (k : Nat) (s : State) : SameRun s (judged l k s) := by
  unfold judged
  split
  · exact ⟨rfl, rfl, rfl⟩
  · split
    · rw [SameRun, raiseTarget_cal]
      exact ⟨rfl, rfl, rfl⟩
    · unfold acceptTarget
      dsimp only
      split
      · exact ⟨rfl, rfl, rfl⟩
      · exact ⟨rfl, rfl, rfl⟩

theorem kept_judged (l : List CalMeas) (k : Nat) (s : State) : Kept s (judged l k s) := by
  unfold judged
  split
  · exact .refl s
  · split
    · exact kept_raiseTarget _ _ (.refl s)
    · exact kept_acceptTarget _ _ (.refl s)

theorem judged_raises {k : Nat} {f : CalFail} (hbit : bitAt s.cal.targets k = true) (hfail : targetFail s l k = some f) :
    Raises 0x0811 (detail [du 8 k, du 8 f.unit, du 8 f.quantity, ds 32 f.a, ds 32 f.b, du 8 f.cause]) s (judged l k s) := by
  have heq : judged l k s = raiseTarget k f s := by simp [judged, hbit, hfail]
  rw [heq]
  exact raise_raises ..

/-! ### Values (18 R415) -/

theorem find_first_ne {target k : Nat} (h : k ≠ target) (v : List (Nat × Nat × Nat × Int)) (u q : Nat) :
    (v.filter (fun x => x.1 != target)).find? (fun x => x.1 == k && x.2.1 == u && x.2.2.1 == q) =
      v.find? (fun x => x.1 == k && x.2.1 == u && x.2.2.1 == q) := by
  rw [List.find?_filter]
  congr 1
  funext x
  by_cases hx : x.1 = k
  · simp [hx, h]
    rfl
  · simp [hx]

theorem calValue_acceptTarget_ne {target k : Nat} (h : k ≠ target) (u q : Nat) :
    calValue (acceptTarget l target s) k u q = calValue s k u q := by
  have hnew : ((calItems target).map (fun x => (target, x.1, x.2, calMean (measOf l target x.1 x.2).1 (measOf l target x.1 x.2).2))).find?
      (fun v => v.1 == k && v.2.1 == u && v.2.2.1 == q) = none := by
    rw [List.find?_eq_none]
    intro v hv
    obtain ⟨x, -, rfl⟩ := List.mem_map.mp hv
    simp [Ne.symm h]
  unfold acceptTarget
  dsimp only
  split
  · rfl
  · simp only [calValue, List.find?_append, hnew, Option.none_or, find_first_ne h]

/-- An accepted quantity of targets 0 to 2 takes the mean of its two measurements (18 R411, R415). -/
theorem calValue_acceptTarget_same {k : Nat} (h : k < 3) {x : Nat × Nat} (hx : x ∈ calItems k) :
    calValue (acceptTarget l k s) k x.1 x.2 = calMean (measOf l k x.1 x.2).1 (measOf l k x.1 x.2).2 := by
  have hnew : ((calItems k).map (fun x => (k, x.1, x.2, calMean (measOf l k x.1 x.2).1 (measOf l k x.1 x.2).2))).find?
      (fun v => v.1 == k && v.2.1 == x.1 && v.2.2.1 == x.2) =
      some (k, x.1, x.2, calMean (measOf l k x.1 x.2).1 (measOf l k x.1 x.2).2) := by
    rw [List.find?_map]
    cases hfind : (calItems k).find? ((fun v => v.1 == k && v.2.1 == x.1 && v.2.2.1 == x.2) ∘
        fun x => (k, x.1, x.2, calMean (measOf l k x.1 x.2).1 (measOf l k x.1 x.2).2)) with
    | none =>
      have hno := List.find?_eq_none.mp hfind x hx
      simp at hno
    | some y =>
      have hy := List.find?_some hfind
      simp only [Function.comp_apply, beq_self_eq_true, Bool.true_and, Bool.and_eq_true, beq_iff_eq] at hy
      rw [Option.map_some, hy.1, hy.2]
  unfold acceptTarget
  rw [if_neg (by omega)]
  simp only [calValue, List.find?_append, hnew, Option.some_or]

theorem calValue_of_cal (h : t.cal = s.cal) (k u q : Nat) : calValue t k u q = calValue s k u q := by
  rw [calValue, calValue, h]

theorem calValue_judged_ne {j k : Nat} (h : k ≠ j) (u q : Nat) : calValue (judged l j s) k u q = calValue s k u q := by
  unfold judged
  split
  · rfl
  · split
    · exact calValue_of_cal (raiseTarget_cal ..) ..
    · exact calValue_acceptTarget_ne h u q

theorem calValue_judged_same {k : Nat} (h : k < 3) (hpass : accepts l s k = true) {x : Nat × Nat} (hx : x ∈ calItems k) :
    calValue (judged l k s) k x.1 x.2 = calMean (measOf l k x.1 x.2).1 (measOf l k x.1 x.2).2 := by
  obtain ⟨hbit, hnone⟩ := Bool.and_eq_true_iff.mp hpass
  have heq : judged l k s = acceptTarget l k s := by simp [judged, hbit, Option.isNone_iff_eq_none.mp hnone]
  rw [heq]
  exact calValue_acceptTarget_same h hx

end

/-! ### Judging the targets in order -/

/-- Judging the targets one by one, and the masks of those that pass and fail (18 R411). -/
theorem judgeTargets_eq (l : List CalMeas) (ts : List Nat) (s : State) (acc bad : Nat) :
    judgeTargets l ts (s, acc, bad) =
      (ts.foldl (fun t k => judged l k t) s, acc + maskOf (accepts l s) ts, bad + maskOf (fails l s) ts) := by
  induction ts generalizing s acc bad with
  | nil => rfl
  | cons k ts ih =>
    have hsame := sameRun_judged l k s
    rw [List.foldl_cons, ← hsame.accepts, ← hsame.fails]
    have hstep : judgeTargets l (k :: ts) (s, acc, bad) = judgeTargets l ts
        (judged l k s, acc + (if accepts l s k then 2 ^ k else 0), bad + (if fails l s k then 2 ^ k else 0)) := by
      by_cases hbit : bitAt s.cal.targets k = false
      · simp [judgeTargets, judged, accepts, fails, hbit]
      · cases hfail : targetFail s l k <;>
          simp [judgeTargets, judged, accepts, fails, Bool.eq_true_of_not_eq_false hbit, hfail]
    rw [hstep, ih]
    simp only [maskOf, List.map_cons, List.sum_cons, hsame.accepts, hsame.fails, Nat.add_assoc]

theorem maskOf_bits : ∀ (p : Fin 4 → Bool) (k : Fin 4),
    bitAt (BitVec.ofNat 4 (maskOf (fun n => if h : n < 4 then p ⟨n, h⟩ else false) [0, 1, 2, 3])) k.val = p k := by
  decide

theorem maskOf_bit (p : Nat → Bool) {k : Nat} (h : k < 4) : bitAt (BitVec.ofNat 4 (maskOf p [0, 1, 2, 3])) k = p k :=
  maskOf_bits (fun n => p n.val) ⟨k, h⟩

section
variable {l : List CalMeas} {ts : List Nat} {s : State} {k : Nat}

theorem kept_foldl_judged (l : List CalMeas) (ts : List Nat) (s : State) : Kept s (ts.foldl (fun t k => judged l k t) s) := by
  induction ts generalizing s with
  | nil => exact .refl s
  | cons k ts ih => exact (kept_judged l k s).trans (ih _)

/-- A target that fails is told of, whichever were judged before it (18 R411). -/
theorem foldl_judged_raises {f : CalFail} (hk : k ∈ ts) (hbit : bitAt s.cal.targets k = true) (hfail : targetFail s l k = some f) :
    Raises 0x0811 (detail [du 8 k, du 8 f.unit, du 8 f.quantity, ds 32 f.a, ds 32 f.b, du 8 f.cause]) s
      (ts.foldl (fun t k => judged l k t) s) := by
  induction ts generalizing s with
  | nil => cases hk
  | cons j ts ih =>
    rcases List.mem_cons.mp hk with rfl | hmem
    · exact (judged_raises hbit hfail).later (kept_foldl_judged ..)
    · have hsame := sameRun_judged l j s
      exact (ih hmem (by rw [hsame.1, hbit]) (by rw [hsame.targetFail, hfail])).sooner (kept_judged ..)

theorem calValue_foldl_ne (hk : k ∉ ts) (u q : Nat) :
    calValue (ts.foldl (fun t k => judged l k t) s) k u q = calValue s k u q := by
  induction ts generalizing s with
  | nil => rfl
  | cons j ts ih =>
    obtain ⟨hne, hrest⟩ := not_or.mp fun h => hk (List.mem_cons.mpr h)
    rw [List.foldl_cons, ih hrest, calValue_judged_ne hne]

/-- A target that passes has its values, whichever are judged after it (18 R415). -/
theorem calValue_foldl_accepts (hnodup : ts.Nodup) (hk : k ∈ ts) (hlow : k < 3) (hpass : accepts l s k = true) {x : Nat × Nat}
    (hx : x ∈ calItems k) : calValue (ts.foldl (fun t k => judged l k t) s) k x.1 x.2 =
      calMean (measOf l k x.1 x.2).1 (measOf l k x.1 x.2).2 := by
  induction ts generalizing s with
  | nil => cases hk
  | cons j ts ih =>
    obtain ⟨hj, hrest⟩ := List.nodup_cons.mp hnodup
    rw [List.foldl_cons]
    rcases List.mem_cons.mp hk with rfl | hmem
    · rw [calValue_foldl_ne hj, calValue_judged_same hlow hpass hx]
    · exact ih hrest hmem (by rw [(sameRun_judged l j s).accepts, hpass])

end

/-! ### The run's end (18 R415, R416) -/

/-- The calibration part as the run closes (18 R416). -/
def closedCal (l : List CalMeas) (acc bad : Nat) (s : State) : Cal :=
  { s.cal with
    st := 0
    item := none
    last := l
    count := s.cal.count + 1
    failures := if bad = 0 then s.cal.failures else s.cal.failures + 1
    pt := ptNow s
    ft := ftNow s
    accepted := BitVec.ofNat 4 acc
    failedMask := BitVec.ofNat 4 bad }

theorem closeRun_cal (l : List CalMeas) (acc bad : Nat) (s : State) : (closeRun l acc bad s).cal = closedCal l acc bad s := by
  unfold closeRun
  dsimp only
  split
  · simp only [raise_parts, showDacs_cal]
    rfl
  · simp only [raise_parts]
    rfl

theorem settleRun_cal (item : Option (BitVec 8 × BitVec 64)) (bad : Nat) (s : State) : (settleRun item bad s).cal = s.cal :=
  (only_settleRun (fr := [.out, .win, .mb, .cfg, .led, .link, .dma, .fab, .nor, .svc, .diag, .evt, .stats, .hostMem, .free]) item bad
    (by decide) (by decide) (by decide) (by decide) (by decide) (by decide) (by decide) (by decide) (by decide) (by decide)
    (by decide) (by decide) (by decide) (by decide) (by decide) (.refl _ s)).cal (by decide)

/-- The state in which every target of the run has been judged (18 R411). -/
def allJudged (l : List CalMeas) (s : State) : State := [0, 1, 2, 3].foldl (fun t k => judged l k t) s

theorem allJudged_cal (l : List CalMeas) (s : State) : (allJudged l s).cal.count = s.cal.count := by
  have hcount (k : Nat) (t : State) : (judged l k t).cal.count = t.cal.count := by
    unfold judged
    split
    · rfl
    · split
      · rw [raiseTarget_cal]
      · unfold acceptTarget
        dsimp only
        split <;> rfl
  simp only [allJudged, List.foldl_cons, List.foldl_nil, hcount]

theorem exec_calDone {s : State} (l : List CalMeas) (hruns : s.cal.st = 2) (hon : domOn s .trk = true) :
    exec (.calDone l) s = .next (settleRun s.cal.item (maskOf (fails l s) [0, 1, 2, 3])
      (closeRun l (maskOf (accepts l s) [0, 1, 2, 3]) (maskOf (fails l s) [0, 1, 2, 3]) (allJudged l s))) := by
  refine congrArg Host.Outcome.next ((if_neg (by simp [hruns, hon])).trans ?_)
  simp only [judgeTargets_eq, Nat.zero_add]
  rfl

theorem calDone_effect {s : State} (l : List CalMeas) (hruns : s.cal.st = 2) (hon : domOn s .trk = true) :
    Runs (.calDone l) s fun t =>
      t.cal.st = 0 ∧ t.cal.last = l ∧ t.cal.count = s.cal.count + 1 ∧
      (∀ k, k < 4 → bitAt s.cal.targets k = true →
        (targetFail s l k = none → bitAt t.cal.accepted k = true ∧
          (k < 3 → ∀ x ∈ calItems k, calValue t k x.1 x.2 = calMean (measOf l k x.1 x.2).1 (measOf l k x.1 x.2).2)) ∧
        (∀ f, targetFail s l k = some f → bitAt t.cal.failedMask k = true ∧
          Raises 0x0811 (detail [du 8 k, du 8 f.unit, du 8 f.quantity, ds 32 f.a, ds 32 f.b, du 8 f.cause]) s t)) := by
  refine ⟨_, exec_calDone l hruns hon, ?_⟩
  generalize ht : settleRun s.cal.item (maskOf (fails l s) [0, 1, 2, 3])
    (closeRun l (maskOf (accepts l s) [0, 1, 2, 3]) (maskOf (fails l s) [0, 1, 2, 3]) (allJudged l s)) = t
  have hcal : t.cal = closedCal l (maskOf (accepts l s) [0, 1, 2, 3]) (maskOf (fails l s) [0, 1, 2, 3]) (allJudged l s) := by
    rw [← ht, settleRun_cal, closeRun_cal]
  have hkept : Kept (allJudged l s) t := by
    rw [← ht]
    exact kept_settleRun _ _ (kept_closeRun _ _ _ (.refl _))
  refine ⟨by rw [hcal]; rfl, by rw [hcal]; rfl, ?_, fun k hk hbit => ⟨fun hpass => ⟨?_, fun hlow x hx => ?_⟩, fun f hfail => ⟨?_, ?_⟩⟩⟩
  · rw [hcal]
    exact congrArg (· + 1) (allJudged_cal l s)
  · rw [hcal]
    exact (maskOf_bit _ hk).trans (by simp [accepts, hbit, hpass])
  · have hvalue : calValue t k x.1 x.2 = calValue (allJudged l s) k x.1 x.2 := by
      rw [calValue, calValue, hcal]
      rfl
    rw [hvalue]
    exact calValue_foldl_accepts (by decide) (by simp; omega) hlow (by simp [accepts, hbit, hpass]) hx
  · rw [hcal]
    exact (maskOf_bit _ hk).trans (by simp [fails, hbit, hfail])
  · exact (foldl_judged_raises (by simp; omega) hbit hfail).later hkept

end Sys2Proof.Machine

open Sys2Proof Sys2Proof.Machine

/-- Settles O33: the targets are judged one by one (`judgeTargets_eq`), each apart from the others (`calValue_judged_ne`); closing the
run and answering it keep what was judged (`closeRun_cal`, `settleRun_cal`). -/
theorem calibrationJudgesItsTargets : Obligations.CalibrationJudgesItsTargets := by
  unfold Obligations.CalibrationJudgesItsTargets
  intro e s
  refine ⟨calRun_asks, calStatus_reports, fun b u hstart hidle hread => ⟨calSetLimits_takes hstart hidle hread,
    fun n => calSetLimits_refuses hstart hidle hread⟩, calRunStart_effect, calDone_effect, fun ch raw hon hidle => ?_⟩
  exact ⟨_, congrArg Host.Outcome.next (if_neg (by simp [hon, hidle])), rfl, (Only.refl _ s).set_cal _ (by decide)⟩
end

section
/-! SUPPORT. Events and their records: what is done while an event is told, or an item or a command ends, adds to the persistent log
alone in NOR and clears no flag of WIN_STATUS (12 R268, R281, 11 R253, R254). -/

namespace Sys2Proof.Machine

/-- From `s` to `t` NOR gains records in the log alone, and a flag of WIN_STATUS that was set stays set. -/
structure Told (s t : State) : Prop where
  nor : ∃ l, t.nor = { s.nor with log := l }
  status : ∀ k, bitAt s.win.status k = true → bitAt t.win.status k = true

section
variable {s t u : State}

theorem Told.of_status (hn : t.nor = s.nor) (hw : t.win.status = s.win.status) : Told s t :=
  ⟨⟨s.nor.log, by rw [hn]⟩, fun k h => by rwa [hw]⟩

theorem Told.of_eq (hn : t.nor = s.nor) (hw : t.win = s.win) : Told s t := .of_status hn (by rw [hw])

theorem Told.of_only {fr : List Block} (h : Only fr s t) (hn : Block.nor ∉ fr) (hw : Block.win ∉ fr) : Told s t :=
  .of_eq (h.nor hn) (h.win hw)

theorem Told.refl (s : State) : Told s s := .of_eq rfl rfl

theorem Told.trans (h : Told s t) (k : Told t u) : Told s u := by
  obtain ⟨l, hl⟩ := h.nor
  obtain ⟨m, hm⟩ := k.nor
  exact ⟨⟨m, by rw [hm, hl]⟩, fun b hb => k.status b (h.status b hb)⟩

theorem Told.store (h : Told s t) : t.nor.store = s.nor.store := by
  obtain ⟨l, hl⟩ := h.nor
  rw [hl]

theorem Told.frozen (h : Told s t) : t.nor.frozen = s.nor.frozen := by
  obtain ⟨l, hl⟩ := h.nor
  rw [hl]

end

/-! ### Rings and events (12 R281-R284) -/

theorem told_setFlag (b : Fin 11) (s : State) : Told s (setFlag b s) := by
  refine ⟨⟨s.nor.log, by simp⟩, fun k h => ?_⟩
  rw [setFlag_status]
  simp only [bitAt, BitVec.toNat_or, Nat.testBit_or] at h ⊢
  rw [h, Bool.true_or]

theorem coalesce_status (i : Fin 64) (s : State) : (coalesce i s).win.status = s.win.status := by
  unfold coalesce
  dsimp only
  split
  · split
    · rw [sendMsix_status]
      rfl
    · rfl
  · rfl

theorem pushEntry_status (i : Fin 64) (b : List Byte) (s : State) : (pushEntry i b s).win.status = s.win.status := by
  unfold pushEntry advance
  rw [coalesce_status]
  simp [writeShadow, setRing]

theorem pushEntry_nor (i : Fin 64) (b : List Byte) (s : State) : (pushEntry i b s).nor = s.nor :=
  (only_pushEntry (fr := [.out, .win, .stats, .hostMem]) i b (by decide) (by decide) (by decide) (by decide) (.refl _ s)).nor
    (by decide)

theorem told_pushEntry (i : Fin 64) (b : List Byte) (s : State) : Told s (pushEntry i b s) :=
  .of_status (pushEntry_nor ..) (pushEntry_status ..)

theorem told_countEvent (code : Nat) (s : State) : Told s (countEvent code s) :=
  .of_only (only_countEvent (fr := [.evt]) code (by decide) (.refl _ s)) (by decide) (by decide)

theorem told_eventToRing (i : Fin 64) (r : EventRec) (s : State) : Told s (eventToRing i r s) := by
  unfold eventToRing
  dsimp only
  split
  · split
    · exact told_pushEntry ..
    · exact (told_countEvent ..).trans (told_setFlag ..)
  · exact .refl s

theorem told_eventToRings (r : EventRec) (l : List (Fin 64)) (s : State) : Told s (eventToRings r l s) := by
  induction l generalizing s with
  | nil => exact .refl s
  | cons i l ih => exact (told_eventToRing i r s).trans (ih _)

theorem told_recordEvent (code : Nat) (d : Domain) (det : W128) (s : State) : Told s (recordEvent code d det s) := by
  unfold recordEvent
  refine Told.trans ?_ (told_eventToRings ..)
  exact ⟨⟨_, rfl⟩, fun _ h => h⟩

theorem told_raise (code : Nat) (d : Domain) (det : W128) (s : State) : Told s (raise code d det s) :=
  (told_countEvent ..).trans (told_recordEvent ..)

/-- An event told of in a state that differs from `s` in other parts than NOR and the window. -/
theorem Told.raised {s u : State} (h : Told s u) (code : Nat) (d : Domain) (det : W128) : Told s (raise code d det u) :=
  h.trans (told_raise ..)

/-! ### Completions (12 R278, R280) -/

theorem told_complete (src : Src) (c : Completion) (s : State) : Told s (complete src c s) := by
  unfold complete
  split
  · dsimp only
    split
    · refine Told.trans ?_ (told_pushEntry ..)
      exact .of_eq rfl rfl
    · exact .of_eq rfl rfl
  · dsimp only
    split
    · exact .of_eq (by simp) (by simp)
    · exact .of_eq (by simp) (by simp)

theorem told_stopRing (i : Fin 64) (s : State) : Told s (stopRing i s) := by
  unfold stopRing
  split
  · exact .of_status (by simp [writeShadow]) (by simp [writeShadow, setRing])
  · exact .refl s

theorem told_finish (w : Waiting) (status reason : Nat) (results : List W128) (s : State) :
    Told s (finish w status reason results s) := by
  unfold finish
  dsimp only
  split
  · exact (told_complete ..).trans (told_stopRing ..)
  · exact told_complete ..

theorem told_finishAll (p : Waiting → Option (Nat × Nat × List W128)) (l : List Waiting) (s : State) :
    Told s (finishAll p l s) := by
  induction l generalizing s with
  | nil => exact .refl s
  | cons w l ih =>
    unfold finishAll
    split
    · exact (told_finish ..).trans (ih _)
    · exact ih s

theorem told_settle (p : Waiting → Option (Nat × Nat × List W128)) (s : State) : Told s (settle p s) := by
  unfold settle
  refine Told.trans ?_ (told_finishAll ..)
  exact .of_eq rfl rfl

/-! ### Spores (15 R359, R363) -/

theorem told_undeliverable (reason : Nat) (s : State) : Told s (undeliverable reason s) :=
  (Told.of_eq (by simp) (by simp)).raised ..

theorem told_send (dst typ : Nat) (c : Fin 4) (payload : List Byte) (s : State) : Told s (send dst typ c payload s) := by
  unfold send
  split
  · split
    · exact .of_only (only_originateOn (fr := [.out, .fab, .diag, .stats]) _ dst typ c payload (by decide) (by decide) (by decide)
        (by decide) (.refl _ s)) (by decide) (by decide)
    · exact told_undeliverable ..
  · exact .refl s

theorem told_sendBoth (dst typ : Nat) (c : Fin 4) (payload : List Byte) (s : State) : Told s (sendBoth dst typ c payload s) :=
  (told_send ..).trans (.of_only (only_sendAlternate (fr := [.out, .fab, .diag, .stats]) dst typ c payload (by decide) (by decide)
    (by decide) (by decide) (.refl _ _)) (by decide) (by decide))

theorem told_sendPairFail (cause : Nat) (s : State) : Told s (sendPairFail cause s) := by
  unfold sendPairFail
  split
  · exact .refl s
  · exact told_sendBoth ..

/-! ### Witness records and the ends of items (11 R247, R253-R255) -/

theorem told_recordFault (f : DFault) (s : State) : Told s (recordFault f s) := by
  unfold recordFault
  dsimp only
  split
  · exact (Told.of_eq (by rfl) (by rfl)).raised ..
  · split
    · exact .of_eq rfl rfl
    · exact (Told.of_eq (by rfl) (by rfl)).raised ..

theorem told_writeRegion (f : BitVec 8) (a n : Nat) (r : WRec) (s : State) : Told s (writeRegion f a n r s) := by
  have hwrite {v : Option (Nat × Nat) × Nat} {u : State} (h : vwrite f.toNat (a + 64 * (r.wseq % n)) r.bytes s = (v, u)) : Told s u :=
    .of_only (only_vwrite_eq (fr := [.dma, .diag, .stats, .hostMem, .free]) _ _ _ (by decide) (by decide) (by decide) (by decide)
      (by decide) h (.refl _ s)) (by decide) (by decide)
  unfold writeRegion
  dsimp only
  split
  · rename_i h
    exact hwrite h
  · rename_i h
    exact (hwrite h).trans (told_recordFault ..)

theorem told_sendTo (w : WitnessKind) (r : WRec) (s : State) : Told s (sendTo w r s) := by
  unfold sendTo
  split
  · exact .refl s
  · exact told_send ..
  · exact told_writeRegion ..

theorem told_sendRec (r : WRec) (s : State) : Told s (sendRec r s) := by
  unfold sendRec
  dsimp only
  split
  · exact .refl s
  · split
    · exact (told_sendTo ..).trans (told_send ..)
    · exact told_sendTo ..

theorem told_appendRec (mk : State → WRec) (s : State) : Told s (appendRec mk s) := by
  unfold appendRec
  refine Told.trans ?_ (told_sendRec ..)
  exact .of_eq (by simp) (by simp)

theorem told_checkpointFlows (l : List (Nat × Flow)) (s : State) : Told s (checkpointFlows l s) := by
  induction l generalizing s with
  | nil => exact .refl s
  | cons x l ih =>
    obtain ⟨f, x⟩ := x
    unfold checkpointFlows
    split
    · exact ((told_appendRec ..).trans (told_appendRec ..)).trans (ih _)
    · exact ih s

theorem told_checkpointItems (l : List Item) (s : State) : Told s (checkpointItems l s) := by
  induction l generalizing s with
  | nil => exact .refl s
  | cons i l ih => exact (told_appendRec ..).trans (ih _)

theorem told_regionCheckpoint (s : State) : Told s (regionCheckpoint s) := by
  unfold regionCheckpoint
  split
  · split
    · exact (told_checkpointFlows ..).trans (told_checkpointItems ..)
    · exact .refl s
  · exact .refl s

theorem told_writeRec (mk : State → WRec) (s : State) : Told s (writeRec mk s) := by
  unfold writeRec
  split
  · exact (told_regionCheckpoint s).trans (told_appendRec ..)
  · exact .refl s

theorem told_endItem (i : Item) (st : ItemSt) (status reason : Nat) (s : State) : Told s (endItem i st status reason s) := by
  unfold endItem
  extract_lets i1 s1 i2 s2
  have hput : Told s s2 := (told_writeRec ..).trans (.of_eq rfl rfl)
  split
  · exact hput.raised ..
  · exact hput

theorem told_failItem (f : BitVec 8) (q : BitVec 64) (status reason : Nat) (s : State) :
    Told s (failItem f q status reason s) := by
  unfold failItem
  split
  · split
    · exact told_endItem ..
    · exact .refl s
  · exact .refl s

/-! ### Tables that become active (02 R39, 03 R62, 05 R111) -/

theorem told_activateItems (p : Nat → Bool) (s : State) : Told s (activateItems p s) :=
  .of_only (only_activateItems (fr := [.cfg]) p (by decide) (.refl _ s)) (by decide) (by decide)

theorem told_activateBtab (s : State) : Told s (activateBtab s) := by
  unfold activateBtab
  split
  · exact .refl s
  · exact (Told.of_eq (by rfl) (by rfl)).raised ..

theorem told_activateBoundary (s : State) : Told s (activateBoundary s) := by
  unfold activateBoundary
  split
  · refine Told.trans ((told_activateItems boundaryItem s).trans (told_activateBtab _)) ?_
    exact .of_only (only_reconfigure (fr := [.out, .link, .stats]) (by decide) (by decide) (by decide) (.refl _ _)) (by decide)
      (by decide)
  · exact .refl s

theorem told_activateLmap (s : State) : Told s (activateLmap s) := by
  unfold activateLmap
  split
  · exact .refl s
  · split
    · exact .refl s
    · exact (Told.of_eq (by rfl) (by rfl)).raised ..

theorem told_activateRender (s : State) : Told s (activateRender s) := by
  unfold activateRender
  split
  · exact .refl s
  · extract_lets cfg s1
    have himage : Told s s1 := by
      unfold s1
      split
      · exact .refl s
      · exact (Told.of_eq (by rfl) (by rfl)).raised ..
    split
    · refine Told.raised ?_ ..
      refine (himage.trans (told_activateItems codeItem s1)).trans ?_
      exact .of_eq rfl rfl
    · exact himage

theorem told_activateTables (s : State) : Told s (activateTables s) :=
  ((told_activateBoundary s).trans (told_activateLmap _)).trans (told_activateRender _)

/-! ### Calibration aborted, changes that fail, stops (18 R417, 19 R423, 07 R165-R169) -/

theorem told_showDacs (s : State) : Told s (showDacs s) :=
  .of_only (only_showDacs (fr := [.out]) (by decide) (.refl _ s)) (by decide) (by decide)

theorem told_abortCal (s : State) : Told s (abortCal s) := by
  unfold abortCal
  split
  · extract_lets c s0 s1
    have hidle : Told s s0 := .of_eq rfl rfl
    have habort : Told s s1 := by
      refine Told.raised ?_ ..
      split
      · exact hidle.trans (told_showDacs _)
      · exact hidle
    split
    · exact habort.trans ((told_failItem ..).trans (told_activateTables _))
    · exact habort.trans (told_settle ..)
  · exact .refl s

theorem told_failMode (status reason : Nat) (s : State) : Told s (failMode status reason s) := by
  unfold failMode
  extract_lets s1
  have hreleased : Told s s1 := by
    unfold s1
    split
    · exact .of_only (only_sendRelease (fr := [.out, .link, .stats]) (by decide) (by decide) (by decide) (.refl _ s)) (by decide)
        (by decide)
    · exact .refl s
  unfold settleMode
  refine Told.trans ?_ (told_settle ..)
  refine Told.raised ?_ ..
  exact hreleased.trans (.of_eq rfl rfl)

theorem told_failLowSupply (s : State) : Told s (failLowSupply s) := by
  unfold failLowSupply
  split
  · exact told_failMode ..
  · exact .refl s

theorem told_cutNow (s : State) : Told s (cutNow s) := by
  unfold cutNow
  extract_lets s1
  have hcut : Told s s1 := by
    unfold s1
    split
    · exact (Told.of_eq (by simp) (by simp)).raised ..
    · exact .refl s
  exact hcut.trans (.of_eq rfl rfl)

theorem told_stopAt (c : Nat) (imm : Bool) (m : Int) (s : State) : Told s (stopAt c imm m s) := by
  have hcut : Told s (if imm then cutNow s else s) := by
    split
    · exact told_cutNow s
    · exact .refl s
  have hfill (t : State) : Told t (endFill t) :=
    .of_only (only_endFill (fr := [.rnd, .store]) (by decide) (by decide) (.refl _ t)) (by decide) (by decide)
  unfold stopAt countCause
  exact (hcut.trans (hfill _)).trans (.of_eq (by simp) (by simp))

theorem told_rampStop (origin cause input : Nat) (s : State) : Told s (rampStop origin cause input s) := by
  unfold rampStop
  split
  · refine Told.raised ?_ ..
    exact .of_eq (by simp) (by simp)
  · exact .refl s

theorem told_addCause (c : Nat) (s : State) : Told s (addCause c s) := by
  unfold addCause countCause
  split
  · exact .refl s
  · exact .of_eq (by simp) (by simp)

theorem told_boundaryStop (c : Nat) (s : State) : Told s (boundaryStop c s) := by
  unfold boundaryStop stopStripe
  split
  · exact (told_stopAt ..).trans (told_rampStop ..)
  · split
    · exact told_addCause ..
    · split
      · exact told_addCause ..
      · exact .refl s

/-! ### Keys erased as debug opens (20 R444, R448) -/

theorem told_failIngest (r : IngestRun) (reason off recNo : Nat) (s : State) : Told s (failIngest r reason off recNo s) := by
  unfold failIngest
  refine Told.trans ?_ (told_activateTables _)
  refine Told.trans ?_ (told_failItem ..)
  refine Told.raised ?_ ..
  refine .of_only (fr := [.lay, .stats]) (only_stat _ (by decide) ?_) (by decide) (by decide)
  exact only_dropIngest _ _ (by decide) (.refl _ s)

theorem told_eraseIngests (mask : BitVec 64) (l : List IngestRun) (s : State) : Told s (eraseIngests mask l s) := by
  induction l generalizing s with
  | nil => exact .refl s
  | cons r l ih =>
    unfold eraseIngests
    refine Told.trans ?_ (ih _)
    split
    · split
      · exact told_failIngest ..
      · exact .refl s
    · exact .refl s

theorem told_recordErasure (e : Erasure) (bytes : Nat) (s : State) : Told s (recordErasure e bytes s) := by
  unfold recordErasure
  refine Told.trans ?_ (.of_only (only_setSmb (fr := [.smb]) 8 (by decide) (.refl _ _)) (by decide) (by decide))
  refine Told.trans ?_ (told_setFlag ..)
  refine Told.raised ?_ ..
  exact .of_eq rfl rfl

theorem told_erase (e : Erasure) (s : State) : Told s (erase e s) := by
  have hslots : Told s (eraseSlots e s) := .of_eq (by simp only [eraseSlots]) (by simp only [eraseSlots])
  have hempty : Told s (eraseDecryptor e.mask (eraseSlots e s)) := hslots.trans
    (.of_only (only_eraseDecryptor (fr := [.lay]) _ (by decide) (.refl _ _)) (by decide) (by decide))
  unfold erase
  generalize hu : eraseIngests e.mask s.lay.ingests (eraseDecryptor e.mask (eraseSlots e s)) = u
  have hfirst : Told s u := hu ▸ hempty.trans (told_eraseIngests e.mask s.lay.ingests _)
  dsimp only
  split
  · split
    · exact hfirst.trans (.of_eq rfl rfl)
    · exact hfirst.trans (told_recordErasure ..)
  · split
    · exact hfirst.trans (.of_eq rfl rfl)
    · exact hfirst.trans (.of_eq rfl rfl)

theorem told_openDebug (s : State) : Told s (openDebug s) := by
  unfold openDebug eraseAll
  refine Told.raised ?_ ..
  exact (told_erase ..).trans (.of_eq rfl rfl)

theorem told_heldDebug (m : Mode) (s : State) : Told s (heldDebug m s) := by
  unfold heldDebug
  split
  · exact told_openDebug s
  · exact .refl s

theorem told_enterMode (m : Mode) (trigger : Nat) (s : State) : Told s (enterMode m trigger s) := by
  unfold enterMode
  refine Told.trans ?_ (told_heldDebug ..)
  refine Told.trans ?_ (told_setFlag ..)
  refine Told.raised ?_ ..
  exact .of_eq rfl rfl

end Sys2Proof.Machine
end

section
/-! PROOF. The HBM controller: checked reads, refresh, temperature and retraining (17 R396-R404, R406). -/

namespace Sys2Proof.Machine

/-! ### Refresh and temperature (17 R398) -/

/-- Both places of a pair replaced. -/
theorem set_both {α : Type} (v : Vector α 2) (a b : α) : (v.set (0 : Fin 2).val a).set (1 : Fin 2).val b = #v[a, b] := by
  refine Vector.ext fun i hi => ?_
  have hcases : i = 0 ∨ i = 1 := by omega
  obtain rfl | rfl := hcases <;> simp

/-- What a stack's reading leaves of the controller (17 R398). -/
theorem stackTemp_hbm (k : Fin 2) (v : BitVec 16) (s : State) : (stackTemp k v s).hbm = { s.hbm with
    temp := s.hbm.temp.set k.val v
    doubled := s.hbm.doubled.set k.val (decide (680 < v.toInt))
    hotRaised := s.hbm.hotRaised.set k.val
      ((s.hbm.hotRaised[k] || decide (680 < v.toInt)) && !decide (v.toInt < 640)) } := by
  unfold stackTemp tempOf
  dsimp only
  split
  · simp only [raise_parts]
  · rfl

/-- A stack that turns hot is told of, once (17 R398). -/
theorem stackTemp_raises {k : Fin 2} {v : BitVec 16} {s : State} (hhot : 680 < v.toInt) (hnew : s.hbm.hotRaised[k] = false) :
    Raises 0x0144 0 s (stackTemp k v s) := by
  unfold stackTemp tempOf
  dsimp only
  rw [if_pos (by simp only [decide_eq_true hhot, hnew, Bool.not_false, Bool.and_self])]
  exact (raise_raises ..).of_nor rfl

theorem exec_hbmTempRead {s : State} (h : domOn s .mem = true ∨ (running s = true ∧ s.pm.mode = .hold)) (t0 t1 : BitVec 16) :
    exec (.hbmTempRead t0 t1) s = .next (markDue (stackTemp 1 t1 (stackTemp 0 t0 s))) := by
  show execHbmTempRead t0 t1 s = _
  unfold execHbmTempRead
  rw [if_pos h]

theorem hbmTempRead_effect {s : State} (h : domOn s .mem = true ∨ (running s = true ∧ s.pm.mode = .hold)) (t0 t1 : BitVec 16) :
    Runs (.hbmTempRead t0 t1) s fun t =>
      t.hbm.temp = #v[t0, t1] ∧ t.hbm.doubled = #v[decide (680 < t0.toInt), decide (680 < t1.toInt)] ∧
      (680 < t0.toInt ∧ s.hbm.hotRaised[(0 : Fin 2)] = false ∨ 680 < t1.toInt ∧ s.hbm.hotRaised[(1 : Fin 2)] = false →
        Raises 0x0144 0 s t) ∧ Only (.hbm :: eventParts) s t := by
  have hexec := exec_hbmTempRead h t0 t1
  refine ⟨_, hexec, ?_, ?_, fun hhot => ?_, only_execHbmTempRead t0 t1 (by decide) (by decide) (by decide) (by decide) (by decide)
    (by decide) (by decide) hexec⟩
  · simp only [markDue, stackTemp_hbm]
    exact set_both ..
  · simp only [markDue, stackTemp_hbm]
    exact set_both ..
  · refine Raises.later ?_ (kept_markDue (.refl _))
    obtain ⟨h0, hnew⟩ | ⟨h1, hnew⟩ := hhot
    · exact (stackTemp_raises h0 hnew).later (kept_stackTemp 1 t1 (.refl _))
    · refine (stackTemp_raises h1 ?_).sooner (kept_stackTemp 0 t0 (.refl s))
      rw [stackTemp_hbm]
      exact (Vector.getElem_set_ne (by decide) (by decide) (by decide)).trans hnew

/-! ### Retraining (17 R401, R402) -/

section
variable {s : State} {p q : Fin 64}

theorem setPc_same (p : Fin 64) (x : PseudoCh) (s : State) : (setPc p x s).hbm.pcs[p] = x :=
  Vector.getElem_set_self p.isLt

theorem setPc_ne (h : q ≠ p) (x : PseudoCh) (s : State) : (setPc p x s).hbm.pcs[q] = s.hbm.pcs[q] :=
  Vector.getElem_set_ne p.isLt q.isLt fun k => h (Fin.ext k.symm)

theorem exec_sliceStart_free (h : sliceFree s p = true) :
    exec (.hbmRetrainSliceStart p) s = .next (setPc p { s.hbm.pcs[p] with slice := true } s) := by
  show execHbmRetrainSliceStart p s = _
  rw [execHbmRetrainSliceStart, if_pos h]

theorem exec_sliceForced_free (h : sliceFree s p = true) : exec (.hbmRetrainForced p) s = .next
    (raise 0x0143 .mem 0 (stat (pcKey p 11) (setPc p { s.hbm.pcs[p] with slice := true } s))) := by
  show execHbmRetrainForced p s = _
  rw [execHbmRetrainForced, if_pos h]

/-- A slice begins, asked for or forced, where no other of its stack runs (17 R401, R402). -/
theorem slice_begins (h : sliceFree s p = true) :
    (Runs (.hbmRetrainSliceStart p) s fun t =>
      t.hbm.pcs[p] = { s.hbm.pcs[p] with slice := true } ∧ (∀ q : Fin 64, q ≠ p → t.hbm.pcs[q] = s.hbm.pcs[q]) ∧
      Only [.hbm] s t) ∧
    (Runs (.hbmRetrainForced p) s fun t =>
      t.hbm.pcs[p] = { s.hbm.pcs[p] with slice := true } ∧ (∀ q : Fin 64, q ≠ p → t.hbm.pcs[q] = s.hbm.pcs[q]) ∧
      Raises 0x0143 0 s t ∧ Only (.hbm :: eventParts) s t) := by
  have hforced := exec_sliceForced_free h
  constructor
  · exact ⟨_, exec_sliceStart_free h, setPc_same .., fun q hq => setPc_ne hq .., only_setPc p _ (by decide) (.refl _ s)⟩
  · refine ⟨_, hforced, ?_, fun q hq => ?_, (raise_raises ..).sooner (kept_stat _ (kept_setPc p _ (.refl s))),
      only_execHbmRetrainForced p (by decide) (by decide) (by decide) (by decide) (by decide) (by decide) (by decide) hforced⟩
    · simp only [raise_parts, stat_parts, setPc_same]
    · simp only [raise_parts, stat_parts, setPc_ne hq]

/-- None begins where another of its stack runs, or where the controller does not work (17 R401). -/
theorem slice_waits (h : sliceFree s p = false) :
    (Runs (.hbmRetrainSliceStart p) s fun t => t = s) ∧ Runs (.hbmRetrainForced p) s fun t => t = s := by
  constructor
  · refine ⟨_, rfl, ?_⟩
    rw [h]
    rfl
  · refine ⟨_, rfl, ?_⟩
    rw [h]
    rfl

variable {eye : BitVec 16} (hmem : memWorks s = true) (hslice : (s.hbm.pcs[p]).slice = true)
include hmem hslice

/-- A slice that ends with an eye wide enough takes effect (17 R402). -/
theorem sliceEnd_trains (heye : 350 ≤ eye.toNat) : Runs (.hbmRetrainSliceEnd p eye) s fun t =>
    (t.hbm.pcs[p]).slice = false ∧ (t.hbm.pcs[p]).eye = eye ∧ (t.hbm.pcs[p]).trained = ftNow s ∧
    (t.hbm.pcs[p]).due = false ∧ (∀ q : Fin 64, q ≠ p → t.hbm.pcs[q] = s.hbm.pcs[q]) ∧ Only [.hbm, .stats] s t := by
  have hexec : exec (.hbmRetrainSliceEnd p eye) s = .next (stat (pcKey p 9) (setPc p { s.hbm.pcs[p] with
      slice := false, trained := ftNow s, tempAt := s.hbm.temp[stackOf p], eye := eye, due := false } s)) := by
    show execHbmRetrainSliceEnd p eye s = _
    simp only [execHbmRetrainSliceEnd, hmem, hslice, heye, if_true, Bool.true_eq_false, or_self, if_false]
  refine ⟨_, hexec, ?_, ?_, ?_, ?_, fun q hq => ?_, only_stat _ (by decide) (only_setPc p _ (by decide) (.refl _ s))⟩
  · simp only [stat_parts, setPc_same]
  · simp only [stat_parts, setPc_same]
  · simp only [stat_parts, setPc_same]
  · simp only [stat_parts, setPc_same]
  · simp only [stat_parts, setPc_ne hq]

/-- One whose eye is too narrow is dropped and told of, and the next comes sooner (17 R402). -/
theorem sliceEnd_drops (heye : eye.toNat < 350) : Runs (.hbmRetrainSliceEnd p eye) s fun t =>
    (t.hbm.pcs[p]).slice = false ∧ (t.hbm.pcs[p]).trained = (s.hbm.pcs[p]).trained ∧ (t.hbm.pcs[p]).due = true ∧
    (∀ q : Fin 64, q ≠ p → t.hbm.pcs[q] = s.hbm.pcs[q]) ∧
    Raises 0x0142 (detail [du 8 p.val, du 16 eye.toNat]) s t ∧ Only (.hbm :: eventParts) s t := by
  have hexec : exec (.hbmRetrainSliceEnd p eye) s = .next (raise 0x0142 .mem (detail [du 8 p.val, du 16 eye.toNat])
      (stat (pcKey p 10) (setPc p { s.hbm.pcs[p] with slice := false, eye := eye, due := true } s))) := by
    show execHbmRetrainSliceEnd p eye s = _
    simp only [execHbmRetrainSliceEnd, hmem, hslice, Nat.not_le.mpr heye, Bool.true_eq_false, or_self, if_false]
  refine ⟨_, hexec, ?_, ?_, ?_, fun q hq => ?_, (raise_raises ..).sooner (kept_stat _ (kept_setPc p _ (.refl s))),
    only_execHbmRetrainSliceEnd p eye (by decide) (by decide) (by decide) (by decide) (by decide) (by decide) (by decide) hexec⟩
  · simp only [raise_parts, stat_parts, setPc_same]
  · simp only [raise_parts, stat_parts, setPc_same]
  · simp only [raise_parts, stat_parts, setPc_same]
  · simp only [raise_parts, stat_parts, setPc_ne hq]

end

end Sys2Proof.Machine
end

section
/-! SUPPORT. A mode entered, and HOLD entered by a fault (19 R418, R424). -/

namespace Sys2Proof.Machine

/-! ### The modes -/

theorem heldDebug_pm (m : Mode) (s : State) : (heldDebug m s).pm = s.pm :=
  (only_heldDebug (fr := [.out, .win, .cfg, .led, .lay, .link, .dma, .fab, .keep, .nor, .smb, .diag, .evt, .stats, .hostMem, .free]) m
    (by decide) (by decide) (by decide) (by decide) (by decide) (by decide) (by decide) (by decide) (by decide) (by decide)
    (by decide) (by decide) (by decide) (by decide) (by decide) (by decide) (.refl _ s)).pm (by decide)

/-- The parts of power management that a mode entered sets; the others stay (19 R418). -/
theorem enterMode_pm (m : Mode) (trigger : Nat) (s : State) : ∃ history, (enterMode m trigger s).pm =
    { s.pm with mode := m, target := m, changing := false, claimWait := false, modeHistory := history } :=
  ⟨_, by simp only [enterMode, heldDebug_pm, setFlag_parts, raise_parts]; rfl⟩

/-! ### HOLD entered by a fault (19 R424) -/

/-- The state in which HOLD, entered by a fault, is told of (19 R424). -/
def holdEntered (s : State) : State :=
  let s0 := if s.pm.changing then failMode stFault 11 s else s
  let s1 := abortCal (trackOff (haltStripe (memStops (sendPairFail 1 s0))))
  enterMode .hold 4 { s1 with
    scan := { s1.scan with faultFrames := if scanHolder s0 then 100 else 0 }
    pm := { s1.pm with reenter := none } }

/-- A device that runs, and is neither in HOLD nor in RECOVERY, can fall into HOLD. -/
def canHold (s : State) : Prop := running s = true ∧ s.pm.mode ≠ .hold ∧ s.pm.mode ≠ .recovery

theorem canHold_of_memWorks {s : State} (h : memWorks s = true) : canHold s := by
  simp only [memWorks, domOn, Bool.and_eq_true, beq_iff_eq] at h
  obtain ⟨⟨hrun, hon⟩, -⟩ := h
  refine ⟨hrun, fun hm => ?_, fun hm => ?_⟩
  · rw [hm] at hon
    exact absurd hon (by decide)
  · rw [hm] at hon
    exact absurd hon (by decide)

theorem canHold_of_pm {s t : State} (h : canHold s) (k : t.pm = s.pm) : canHold t := by
  simpa only [canHold, running, k] using h

section
variable {s : State}

theorem enterHold_eq (h : canHold s) (cause rec : Nat) : enterHold cause rec s =
    setFlag 1 (raise 0x0122 .ctrl (word [(0, 8, cause), (64, 64, if cause = 1 then rec else 0)]) (holdEntered s)) := by
  obtain ⟨hrun, hhold, hrecovery⟩ := h
  unfold enterHold holdEntered
  rw [if_neg (by rintro (k | k | k); exacts [hhold k, hrecovery k, Bool.noConfusion (hrun.symm.trans k)])]

theorem kept_holdEntered (s : State) : Kept s (holdEntered s) := by
  unfold holdEntered
  extract_lets s0 s1
  have h0 : Kept s s0 := by
    unfold s0
    split
    · exact kept_failMode _ _ (.refl s)
    · exact .refl s
  have h1 : Kept s s1 := kept_abortCal (kept_trackOff (kept_haltStripe (kept_memStops (kept_sendPairFail 1 h0))))
  clear_value s1
  exact kept_enterMode _ _ ⟨h1.pending, h1.out, h1.log, h1.memory, h1.slots, h1.strobe⟩

theorem told_holdEntered (s : State) : Told s (holdEntered s) := by
  unfold holdEntered
  extract_lets s0 s1
  have h0 : Told s s0 := by
    unfold s0
    split
    · exact told_failMode ..
    · exact .refl s
  have hmem (t : State) : Told t (memStops t) := .of_eq rfl rfl
  have hhalt (t : State) : Told t (haltStripe t) :=
    .of_only (only_haltStripe (fr := [.rnd, .store, .seq, .trk]) (by decide) (by decide) (by decide) (by decide) (.refl _ t))
      (by decide) (by decide)
  have htrack (t : State) : Told t (trackOff t) :=
    .of_only (only_trackOff (fr := [.out, .trk]) (by decide) (by decide) (.refl _ t)) (by decide) (by decide)
  have h1 : Told s s1 :=
    h0.trans ((told_sendPairFail ..).trans ((hmem _).trans ((hhalt _).trans ((htrack _).trans (told_abortCal _)))))
  clear_value s1
  refine Told.trans ?_ (told_enterMode ..)
  exact h1.trans (.of_eq rfl rfl)

theorem holdEntered_mode (s : State) : (holdEntered s).pm.mode = .hold := by
  unfold holdEntered
  extract_lets s0 s1
  obtain ⟨history, h⟩ := enterMode_pm .hold 4 { s1 with
    scan := { s1.scan with faultFrames := if scanHolder s0 then 100 else 0 }
    pm := { s1.pm with reenter := none } }
  rw [h]

/-- HOLD by a fault: the mode, the event, and what NOR and HBM keep (19 R424). -/
theorem enterHold_effect (h : canHold s) (cause rec : Nat) :
    (enterHold cause rec s).pm.mode = .hold ∧ Told s (enterHold cause rec s) ∧ (enterHold cause rec s).hbm = s.hbm ∧
      Raises 0x0122 (word [(0, 8, cause), (64, 64, if cause = 1 then rec else 0)]) s (enterHold cause rec s) := by
  refine ⟨?_, ?_, ?_, ?_⟩
  · rw [enterHold_eq h]
    simp only [setFlag_parts, raise_parts, holdEntered_mode]
  · rw [enterHold_eq h]
    exact ((told_holdEntered s).raised ..).trans (told_setFlag ..)
  · exact (only_enterHold (fr := [.out, .pm, .win, .mb, .cfg, .led, .lay, .rnd, .store, .seq, .link, .trk, .scan, .dma, .fab, .cal,
      .keep, .nor, .svc, .smb, .diag, .evt, .stats, .hostMem, .free]) cause rec
      (by decide) (by decide) (by decide) (by decide) (by decide) (by decide) (by decide) (by decide) (by decide) (by decide)
      (by decide) (by decide) (by decide) (by decide) (by decide) (by decide) (by decide) (by decide) (by decide) (by decide)
      (by decide) (by decide) (by decide) (by decide) (by decide) (.refl _ s)).hbm (by decide)
  · rw [enterHold_eq h]
    exact ((raise_raises ..).sooner (kept_holdEntered s)).later (kept_setFlag _ (.refl _))

end

end Sys2Proof.Machine
end

section
/-! PROOF. The HBM controller: reads are checked (17 R396, R397, R399, R403, R404, R406). -/

namespace Sys2Proof.Machine

/-! ### The record of an error (17 R404) -/

theorem errorRec_off {off : Nat} (h : off < 2 ^ 36) (kind sev syndrome req : Nat) (rmw : Bool) (n : Nat) (s : State) :
    bitsNat (errorRec off kind sev syndrome req rmw n s) 0 36 = off := by
  simp only [errorRec, bitsNat, packFields, BitVec.toNat_ofNat]
  omega

theorem errorRec_kind {kind : Nat} (h : kind < 8) (off sev syndrome req : Nat) (rmw : Bool) (n : Nat) (s : State) :
    bitsNat (errorRec off kind sev syndrome req rmw n s) 60 3 = kind := by
  simp only [errorRec, bitsNat, packFields, BitVec.toNat_ofNat]
  omega

/-! ### The read itself (17 R399) -/

/-- A fault not injected leaves the state as it is (13 R322). -/
theorem injected_not {s : State} {fault : Nat} {p : BitVec 32 → Bool} (h : (injected fault p s).1 = false) :
    injected fault p s = (false, s) := by
  unfold injected at h ⊢
  split at h
  · cases h
  · rfl

/-- Whether a fault is injected rests on what diagnostics keep (13 R322). -/
theorem injected_fst_of_diag {s t : State} (h : t.diag = s.diag) (fault : Nat) (p : BitVec 32 → Bool) :
    (injected fault p t).1 = (injected fault p s).1 := by
  unfold injected
  rw [h]
  split
  · rfl
  · rfl

theorem readKind_sound {s : State} (h2 : (injected 2 (fun _ => true) s).1 = false) (h3 : (injected 3 (fun _ => true) s).1 = false)
    (kind : Fin 6) : readKind kind s = (kind, s) := by
  simp only [readKind, injected_not h3, injected_not h2]

/-- A read of a native word, its row activated, before it is checked (17 R396, R399). -/
def readTaken (p : Fin 64) (row : Nat) (rmw : Bool) (s : State) : State :=
  let s1 := activateRow p row (stat (pcKey p 0) s)
  if rmw then stat (sk 0x01040000 (0x400 + (stackOf p).val)) s1 else s1

theorem only_readTaken (p : Fin 64) (row : Nat) (rmw : Bool) (s : State) : Only [.hbm, .stats] s (readTaken p row rmw s) := by
  have hrow : Only [.hbm, .stats] s (activateRow p row (stat (pcKey p 0) s)) :=
    only_activateRow p row (by decide) (by decide) (only_stat _ (by decide) (.refl _ s))
  unfold readTaken
  dsimp only
  split
  · exact only_stat _ (by decide) hrow
  · exact hrow

theorem activateRow_hbm (p : Fin 64) (row : Nat) (s : State) : (activateRow p row s).hbm =
    { s.hbm with pcs := s.hbm.pcs.set p.val { s.hbm.pcs[p] with lfsr := lfsrStep (s.hbm.pcs[p]).lfsr } } := by
  unfold activateRow
  dsimp only
  split
  · simp only [statAdd_parts, stat_parts, setPc]
  · simp only [stat_parts, setPc]

theorem readTaken_hbm (p : Fin 64) (row : Nat) (rmw : Bool) (s : State) : (readTaken p row rmw s).hbm =
    { s.hbm with pcs := s.hbm.pcs.set p.val { s.hbm.pcs[p] with lfsr := lfsrStep (s.hbm.pcs[p]).lfsr } } := by
  unfold readTaken
  dsimp only
  split
  · simp only [stat_parts, activateRow_hbm]
  · simp only [stat_parts, activateRow_hbm]

theorem kept_readTaken (p : Fin 64) (row : Nat) (rmw : Bool) (s : State) : Kept s (readTaken p row rmw s) := by
  have hrow : Kept s (activateRow p row (stat (pcKey p 0) s)) := kept_activateRow p row (kept_stat _ (.refl s))
  unfold readTaken
  dsimp only
  split
  · exact kept_stat _ hrow
  · exact hrow

/-! ### Errors entered (17 R397, R403, R404) -/

section
variable {s : State} {kind : Fin 6}

theorem only_read_corrected (p : Fin 64) (kind : Fin 6) (rec : BitVec 256) (s : State) :
    Only (.hbm :: eventParts) s (corrected p kind rec (countKind kind s)) := by
  unfold corrected
  refine only_raiseLimited _ _ _ _ (by decide) (by decide) (by decide) (by decide) (by decide) (by decide) ?_
  exact only_stat _ (by decide) ((only_countKind kind (by decide) (.refl _ s)).set_hbm _ (by decide))

/-- A corrected error is counted, enters the error log, and its event is counted (17 R397, R404). -/
theorem corrected_effect (p : Fin 64) (kind : Fin 6) (rec : BitVec 256) (s : State) :
    (corrected p kind rec (countKind kind s)).hbm.kindCnt[kind] = s.hbm.kindCnt[kind] + 1 ∧
      (corrected p kind rec (countKind kind s)).hbm.log = (rec :: s.hbm.log).take 255 ∧
      eventCount (corrected p kind rec (countKind kind s)) 0x0140 = eventCount s 0x0140 + 1 := by
  unfold corrected
  refine ⟨?_, ?_, ?_⟩
  · simp only [raiseLimited_parts, stat_parts, countKind]
    exact Vector.getElem_set_self kind.isLt
  · simp only [raiseLimited_parts, stat_parts, countKind]
  · rw [eventCount_raiseLimited (by decide) (by decide)]
    congr 1

/-- The state in which an uncorrectable error is told of (17 R403, R404). -/
def errorFrozen (rec : BitVec 256) (s : State) : State :=
  { s with
    hbm := { s.hbm with
      frozen := true
      frozenRec := match s.hbm.frozenRec with
        | some r => some r
        | none => some rec
      pcs := s.hbm.pcs.map (fun x => { x with slice := false }) }
    nor := { s.nor with frozen := rec :: s.nor.frozen } }

theorem uncorrectable_eq (rec : BitVec 256) (s : State) : uncorrectable rec s =
    enterHold 1 (bitsNat rec 0 64) (raise 0x0141 .mem (bitsOf rec 0 128) (errorFrozen rec s)) := rfl

/-- An uncorrectable error freezes the controller, ends every slice, is kept in NOR, and takes the device to HOLD
(17 R403, R404, R406). -/
theorem uncorrectable_effect (h : canHold s) (rec : BitVec 256) :
    (uncorrectable rec s).hbm.frozen = true ∧ (∀ q : Fin 64, ((uncorrectable rec s).hbm.pcs[q]).slice = false) ∧
      (uncorrectable rec s).pm.mode = .hold ∧ (uncorrectable rec s).nor.frozen = rec :: s.nor.frozen ∧
      Raises 0x0141 (bitsOf rec 0 128) s (uncorrectable rec s) ∧
      Raises 0x0122 (word [(0, 8, 1), (64, 64, bitsNat rec 0 64)]) s (uncorrectable rec s) := by
  have hfrozen : Kept s (errorFrozen rec s) := ⟨rfl, List.suffix_refl _, List.suffix_refl _, id, id, id⟩
  rw [uncorrectable_eq]
  generalize hu : raise 0x0141 .mem (bitsOf rec 0 128) (errorFrozen rec s) = u
  have hkept : Kept s u := hu ▸ kept_raise _ _ _ hfrozen
  have htold : Told (errorFrozen rec s) u := hu ▸ told_raise ..
  have hraised : Raises 0x0141 (bitsOf rec 0 128) s u := hu ▸ (raise_raises ..).sooner hfrozen
  have hhbm : u.hbm = (errorFrozen rec s).hbm := by rw [← hu]; simp only [raise_parts]
  have hpm : u.pm = s.pm := by rw [← hu]; simp only [raise_parts, errorFrozen]
  obtain ⟨hmode, hheld, hkeeps, hhold⟩ := enterHold_effect (canHold_of_pm h hpm) 1 (bitsNat rec 0 64)
  refine ⟨?_, fun q => ?_, hmode, ?_, hraised.later (kept_enterHold _ _ (.refl u)), hhold.sooner hkept⟩
  · rw [hkeeps, hhbm]
    rfl
  · rw [hkeeps, hhbm]
    simp [errorFrozen]
  · rw [hheld.frozen, htold.frozen]
    rfl

end

/-! ### The command (17 R396) -/

section
variable {s : State} {off : BitVec 36} {a : Nat} {p : Fin 64} (hmem : memWorks s = true) (hoff : a = off.toNat - off.toNat % 16)
  (hsize : a < hbmSize) (hpc : p = pcOf a) (h2 : (injected 2 (fun _ => true) s).1 = false)
  (h3 : (injected 3 (fun _ => true) s).1 = false)
include hmem hoff hsize hpc h2 h3

/-- A read with no fault injected meets the error that is found (17 R396). -/
theorem exec_hbmReadComplete (kind : Fin 6) (sev : BitVec 3) (syn : BitVec 9) (req : BitVec 8) (rmw : Bool) :
    exec (.hbmReadComplete off kind sev syn req rmw) s =
      .next (enterError a kind sev.toNat syn.toNat req.toNat rmw (readTaken p (hbmLoc a).row rmw s)) := by
  have hdiag := (only_readTaken p (hbmLoc a).row rmw s).diag (by decide)
  have hkind : readKind kind (readTaken p (hbmLoc a).row rmw s) = (kind, readTaken p (hbmLoc a).row rmw s) :=
    readKind_sound ((injected_fst_of_diag hdiag 2 _).trans h2) ((injected_fst_of_diag hdiag 3 _).trans h3) kind
  subst hpc
  show execHbmReadComplete off kind sev syn req rmw s = _
  unfold execHbmReadComplete
  dsimp only
  rw [← hoff, if_neg (by rw [hmem]; rintro (k | k); exacts [Bool.noConfusion k, absurd hsize (Nat.not_lt.mpr k)])]
  unfold readTaken at hkind ⊢
  dsimp only at hkind ⊢
  rw [hkind]

theorem hbmRead_sound (sev : BitVec 3) (syn : BitVec 9) (req : BitVec 8) (rmw : Bool) :
    Runs (.hbmReadComplete off 0 sev syn req rmw) s fun t =>
      t.hbm = { s.hbm with pcs := s.hbm.pcs.set p.val { s.hbm.pcs[p] with lfsr := lfsrStep (s.hbm.pcs[p]).lfsr } } ∧
      Only [.hbm, .stats] s t :=
  ⟨_, exec_hbmReadComplete hmem hoff hsize hpc h2 h3 0 sev syn req rmw, readTaken_hbm .., only_readTaken ..⟩

theorem hbmRead_corrected {kind : Fin 6} (hkind : kind = 1 ∨ kind = 2) (sev : BitVec 3) (syn : BitVec 9) (req : BitVec 8)
    (rmw : Bool) : Runs (.hbmReadComplete off kind sev syn req rmw) s fun t =>
      t.hbm.kindCnt[kind] = s.hbm.kindCnt[kind] + 1 ∧
      (∃ r, t.hbm.log = (r :: s.hbm.log).take 255 ∧ bitsNat r 0 36 = a ∧ bitsNat r 60 3 = kind.val) ∧
      eventCount t 0x0140 = eventCount s 0x0140 + 1 ∧ Only (.hbm :: eventParts) s t := by
  have hexec := exec_hbmReadComplete hmem hoff hsize hpc h2 h3 kind sev syn req rmw
  have hne : kind ≠ 0 := by rintro rfl; revert hkind; decide
  have hle : kind.val ≤ 2 := by obtain rfl | rfl := hkind <;> decide
  simp only [enterError, hne, hle, if_true, if_false] at hexec
  have hread := only_readTaken p (hbmLoc a).row rmw s
  have hhbm := readTaken_hbm p (hbmLoc a).row rmw s
  generalize readTaken p (hbmLoc a).row rmw s = u at hexec hread hhbm
  generalize hrec : errorRec a kind.val sev.toNat syn.toNat req.toNat rmw _ _ = r at hexec
  obtain ⟨hcount, hlog, hevent⟩ := corrected_effect (pcOf a) kind r u
  refine ⟨_, hexec, ?_, ⟨r, ?_, ?_, ?_⟩, ?_, ?_⟩
  · rw [hcount, hhbm]
  · rw [hlog, hhbm]
  · exact hrec ▸ errorRec_off (Nat.lt_trans hsize (by decide)) ..
  · exact hrec ▸ errorRec_kind (Nat.lt_trans kind.isLt (by decide)) ..
  · rw [hevent, eventCount_of_evt (hread.evt (by decide))]
  · exact (hread.mono (by decide)).trans (only_read_corrected ..)

theorem hbmRead_uncorrectable {kind : Fin 6} (hkind : 3 ≤ kind.val) (sev : BitVec 3) (syn : BitVec 9) (req : BitVec 8)
    (rmw : Bool) : Runs (.hbmReadComplete off kind sev syn req rmw) s fun t =>
      t.hbm.frozen = true ∧ (∀ q : Fin 64, (t.hbm.pcs[q]).slice = false) ∧ t.pm.mode = .hold ∧
      ∃ r, t.nor.frozen = r :: s.nor.frozen ∧ bitsNat r 0 36 = a ∧ bitsNat r 60 3 = kind.val ∧
        Raises 0x0141 (bitsOf r 0 128) s t ∧ Raises 0x0122 (word [(0, 8, 1), (64, 64, bitsNat r 0 64)]) s t := by
  have hexec := exec_hbmReadComplete hmem hoff hsize hpc h2 h3 kind sev syn req rmw
  have hne : kind ≠ 0 := by rintro rfl; exact absurd hkind (by decide)
  have hgt : ¬ kind.val ≤ 2 := by omega
  simp only [enterError, hne, hgt, if_false] at hexec
  have hread := only_readTaken p (hbmLoc a).row rmw s
  have hkept := kept_readTaken p (hbmLoc a).row rmw s
  generalize readTaken p (hbmLoc a).row rmw s = u at hexec hread hkept
  generalize hrec : errorRec a kind.val sev.toNat syn.toNat req.toNat rmw _ _ = r at hexec
  have hcan : canHold (countKind kind u) := canHold_of_pm (canHold_of_memWorks hmem) (hread.pm (by decide))
  have hcounted : Kept s (countKind kind u) := kept_countKind kind hkept
  obtain ⟨hfrozen, hslices, hmode, hnor, herror, hhold⟩ := uncorrectable_effect hcan r
  refine ⟨_, hexec, hfrozen, hslices, hmode, r, ?_, ?_, ?_, herror.sooner hcounted, hhold.sooner hcounted⟩
  · rw [hnor, ← hread.nor (by decide)]
    rfl
  · exact hrec ▸ errorRec_off (Nat.lt_trans hsize (by decide)) ..
  · exact hrec ▸ errorRec_kind (Nat.lt_trans kind.isLt (by decide)) ..

end

end Sys2Proof.Machine

open Sys2Proof Sys2Proof.Machine

/-- Settles O50: a read is checked and judged by the kind of its error; a reading sets the stack's temperature and refresh rate;
a slice runs alone in its stack and its eye is judged. -/
theorem hbmIsCheckedAndRetrained : Obligations.HbmIsCheckedAndRetrained := by
  unfold Obligations.HbmIsCheckedAndRetrained
  refine ⟨fun s off kind sev syn req rmw a p => ⟨fun hmem hoff hsize hpc h2 h3 => ⟨?_, ?_, ?_⟩, fun q => ⟨s, rfl, rfl⟩,
    fun t0 t1 h => hbmTempRead_effect h t0 t1⟩, fun s p => ⟨slice_begins, slice_waits, fun eye hmem hslice => ⟨?_, ?_⟩⟩⟩
  · rintro rfl
    exact hbmRead_sound hmem hoff hsize hpc h2 h3 sev syn req rmw
  · exact fun hkind => hbmRead_corrected hmem hoff hsize hpc h2 h3 hkind sev syn req rmw
  · exact fun hkind => hbmRead_uncorrectable hmem hoff hsize hpc h2 h3 hkind sev syn req rmw
  · exact fun heye => sliceEnd_trains hmem hslice heye
  · exact fun heye => sliceEnd_drops hmem hslice heye
end

section
/-! SUPPORT. Modes and resets: what a mode change moves of power management, how a reset begins, and the start that follows it
(19 R422, R430-R434). -/

namespace Sys2Proof.Machine

/-! ### What mode changes move of power management (19 R422) -/

/-- Of power management `t` differs from `s` in the mode, the change in progress, the mode to re-enter, the state of the firmware and
the history of modes alone. -/
def ModeMoves (s t : State) : Prop := ∃ mode target changing claimWait trigger reenter fwState history, t.pm = { s.pm with
  mode := mode
  target := target
  changing := changing
  claimWait := claimWait
  trigger := trigger
  reenter := reenter
  fwState := fwState
  modeHistory := history }

section
variable {s t u : State}

theorem ModeMoves.of_pm (h : t.pm = s.pm) : ModeMoves s t := ⟨_, _, _, _, _, _, _, _, h⟩

theorem ModeMoves.refl (s : State) : ModeMoves s s := .of_pm rfl

theorem ModeMoves.trans (h : ModeMoves s t) (k : ModeMoves t u) : ModeMoves s u := by
  obtain ⟨_, _, _, _, _, _, _, _, h⟩ := h
  obtain ⟨_, _, _, _, _, _, _, _, k⟩ := k
  exact ⟨_, _, _, _, _, _, _, _, by rw [k, h]⟩

theorem ModeMoves.then_pm (h : ModeMoves s t) (k : u.pm = t.pm) : ModeMoves s u := h.trans (.of_pm k)

theorem ModeMoves.held (h : ModeMoves s t) : t.pm.held = s.pm.held := by
  obtain ⟨_, _, _, _, _, _, _, _, h⟩ := h
  rw [h]

theorem ModeMoves.railsLow (h : ModeMoves s t) : t.pm.railsLow = s.pm.railsLow := by
  obtain ⟨_, _, _, _, _, _, _, _, h⟩ := h
  rw [h]

theorem ModeMoves.railMv (h : ModeMoves s t) : t.pm.railMv = s.pm.railMv := by
  obtain ⟨_, _, _, _, _, _, _, _, h⟩ := h
  rw [h]

theorem ModeMoves.watchdogResets (h : ModeMoves s t) : t.pm.watchdogResets = s.pm.watchdogResets := by
  obtain ⟨_, _, _, _, _, _, _, _, h⟩ := h
  rw [h]

theorem ModeMoves.commandedReset (h : ModeMoves s t) : t.pm.commandedReset = s.pm.commandedReset := by
  obtain ⟨_, _, _, _, _, _, _, _, h⟩ := h
  rw [h]

theorem modeMoves_enterMode (m : Mode) (trigger : Nat) (s : State) : ModeMoves s (enterMode m trigger s) := by
  obtain ⟨history, h⟩ := enterMode_pm m trigger s
  exact ⟨_, _, _, _, _, _, _, _, h⟩

theorem enterMode_mode (m : Mode) (trigger : Nat) (s : State) : (enterMode m trigger s).pm.mode = m := by
  obtain ⟨history, h⟩ := enterMode_pm m trigger s
  rw [h]

theorem sendRelease_pm (s : State) : (sendRelease s).pm = s.pm :=
  (only_sendRelease (fr := [.out, .link, .stats]) (by decide) (by decide) (by decide) (.refl _ s)).pm (by decide)

theorem sendClaim_pm (force : Bool) (s : State) : (sendClaim force s).pm = s.pm :=
  (only_sendClaim (fr := [.out, .link, .stats]) force (by decide) (by decide) (by decide) (.refl _ s)).pm (by decide)

theorem modeMoves_failMode (status reason : Nat) (s : State) : ModeMoves s (failMode status reason s) := by
  unfold failMode settleMode
  extract_lets s1
  have hreleased : ModeMoves s s1 := by
    unfold s1
    split
    · exact .of_pm (sendRelease_pm s)
    · exact .refl s
  refine ModeMoves.then_pm ?_ (settle_parts ..).2.1
  refine ModeMoves.then_pm (hreleased.trans ?_) (raise_parts ..).2.1
  exact ⟨_, _, _, _, _, _, _, _, rfl⟩

theorem modeMoves_failLowSupply (s : State) : ModeMoves s (failLowSupply s) := by
  unfold failLowSupply
  split
  · exact modeMoves_failMode ..
  · exact .refl s

theorem modeMoves_beginChange (m : Mode) (trigger : Nat) (s : State) : ModeMoves s (beginChange m trigger s) := by
  unfold beginChange
  split
  · exact modeMoves_failMode ..
  · dsimp only
    split
    · refine ModeMoves.then_pm ?_ (sendClaim_pm ..)
      exact ⟨_, _, _, _, _, _, _, _, rfl⟩
    · split
      · refine ModeMoves.then_pm ?_ (sendRelease_pm _)
        exact ⟨_, _, _, _, _, _, _, _, rfl⟩
      · exact ⟨_, _, _, _, _, _, _, _, rfl⟩

theorem modeMoves_reenterMode (s : State) : ModeMoves s (reenterMode s) := by
  unfold reenterMode
  split
  · exact .refl s
  · split
    · exact ⟨_, _, _, _, _, _, _, _, rfl⟩
    · split
      · exact .refl s
      · refine ModeMoves.trans ?_ (modeMoves_beginChange ..)
        exact ⟨_, _, _, _, _, _, _, _, rfl⟩

theorem modeMoves_enterRecovery (prev : Mode) (s : State) : ModeMoves s (enterRecovery prev s) := by
  unfold enterRecovery
  split
  · exact .refl s
  · refine ModeMoves.trans ?_ (modeMoves_enterMode ..)
    exact ⟨_, _, _, _, _, _, _, _, rfl⟩

theorem modeMoves_fwReady (s : State) : ModeMoves s (fwReady s) :=
  ⟨_, _, _, _, _, _, _, _, by simp only [fwReady, setFlag_parts]; rfl⟩

theorem modeMoves_beginRebuild (s : State) : ModeMoves s (beginRebuild s) := by
  unfold beginRebuild
  dsimp only
  split
  · exact ⟨_, _, _, _, _, _, _, _, rfl⟩
  · refine ModeMoves.trans ?_ (modeMoves_fwReady _)
    exact ⟨_, _, _, _, _, _, _, _, rfl⟩

theorem fwReady_mode (s : State) : (fwReady s).pm.mode = s.pm.mode := by simp only [fwReady, setFlag_parts]

theorem beginRebuild_mode (s : State) : (beginRebuild s).pm.mode = s.pm.mode := by
  unfold beginRebuild
  dsimp only
  split
  · rfl
  · rw [fwReady_mode]

/-! ### The start that follows a reset (19 R434, 21 R461, R462) -/

theorem flushKeeper_pm (s : State) : (flushKeeper s).pm = s.pm :=
  (only_flushKeeper (fr := .keep :: eventParts) (by decide) (by decide) (by decide) (by decide) (by decide) (by decide) (by decide)
    (.refl _ s)).pm (by decide)

@[simp] theorem resetOccurred_pm (kind trigger : Nat) (lt : BitVec 32) (s : State) : (resetOccurred kind trigger lt s).pm = s.pm := by
  simp only [resetOccurred, raise_parts]

theorem reportBoot_pm (code : Option Nat) (s : State) : (reportBoot code s).pm = s.pm :=
  (only_reportBoot (fr := eventParts) code (by decide) (by decide) (by decide) (by decide) (by decide) (by decide)
    (.refl _ s)).pm (by decide)

theorem bootRom_pm (b : BootIn) (s : State) : (bootRom b s).pm = s.pm :=
  (only_bootRom (fr := [.win, .upd]) b (by decide) (by decide) (.refl _ s)).pm (by decide)

theorem loadStore_pm (s : State) : (loadStore s).pm = s.pm :=
  (only_loadStore (fr := [.out, .time, .win, .cfg, .led, .trk, .scan, .ilk, .fab, .cal, .nor, .evt, .stats, .hostMem])
    (by decide) (by decide) (by decide) (by decide) (by decide) (by decide) (by decide) (by decide) (by decide) (by decide)
    (by decide) (by decide) (by decide) (by decide) (.refl _ s)).pm (by decide)

theorem powerDomains_pm (s : State) : (powerDomains s).pm = (enterMode .ready 5 s).pm := by
  have hup (u : State) : (scrubRegions (trainHbm (seedHbm u))).pm = u.pm :=
    (only_scrubRegions (fr := .hbm :: .keep :: .smb :: .hbmMem :: eventParts) (by decide) (by decide) (by decide) (by decide)
      (by decide) (by decide) (by decide) (by decide) (by decide) (only_trainHbm (by decide) (only_seedHbm (by decide)
      (.refl _ u)))).pm (by decide)
  have hsources (u : State) : (applySources (parkDacs u)).pm = u.pm :=
    (only_applySources (fr := [.out, .time, .trk]) (by decide) (only_parkDacs (by decide) (by decide) (.refl _ u))).pm (by decide)
  unfold powerDomains
  rw [hsources, hup]

theorem modeMoves_firmwareStart (kind trigger : Nat) (code : Option Nat) (s : State) :
    ModeMoves s (firmwareStart kind trigger code s) := by
  unfold firmwareStart
  generalize hu : loadStore { s with pm := { s.pm with fwState := 1 } } = u
  have hloaded : ModeMoves s u := by
    rw [← hu]
    refine ModeMoves.then_pm ?_ (loadStore_pm _)
    exact ⟨_, _, _, _, _, _, _, _, rfl⟩
  have hpowered : ModeMoves s (powerDomains u) := (hloaded.trans (modeMoves_enterMode .ready 5 u)).then_pm (powerDomains_pm u)
  exact ((hpowered.then_pm (resetOccurred_pm ..)).then_pm (reportBoot_pm ..)).trans (modeMoves_beginRebuild _)

theorem firmwareStart_mode (kind trigger : Nat) (code : Option Nat) (s : State) :
    (firmwareStart kind trigger code s).pm.mode = .ready := by
  rw [firmwareStart, beginRebuild_mode, reportBoot_pm, resetOccurred_pm, powerDomains_pm, enterMode_mode]

/-- A start moves what mode changes move, and nothing else of power management (19 R434). -/
theorem modeMoves_startUp (kind trigger : Nat) (prev : Mode) (b : BootIn) (s : State) :
    ModeMoves s (startUp kind trigger prev b s) := by
  unfold startUp
  split
  · exact ((modeMoves_enterRecovery prev s).then_pm (resetOccurred_pm ..)).then_pm (flushKeeper_pm _)
  · dsimp only
    have hbooted : ModeMoves s (bootRom b s) := .of_pm (bootRom_pm b s)
    split
    · exact (hbooted.trans (modeMoves_firmwareStart ..)).then_pm (flushKeeper_pm _)
    · refine ModeMoves.then_pm ?_ (flushKeeper_pm _)
      refine ModeMoves.then_pm (t := enterRecovery prev (bootRom b s)) (hbooted.trans (modeMoves_enterRecovery ..)) ?_
      simp only [raise_parts, resetOccurred_pm]

/-- A sound image starts in READY (19 R434). -/
theorem startUp_ready {kind : Nat} (hkind : kind ≠ 4) {b : BootIn} (hslot : b.slotOk = true) (trigger : Nat) (prev : Mode)
    (s : State) : (startUp kind trigger prev b s).pm.mode = .ready := by
  simp only [startUp, hkind, hslot, if_true, if_false]
  rw [flushKeeper_pm, firmwareStart_mode]

/-- A reset of kind 4 ends in RECOVERY (19 R430, 21 R462). -/
theorem startUp_recovery (trigger : Nat) (prev : Mode) (b : BootIn) {s : State} (h : s.pm.mode = .recovery) :
    (startUp 4 trigger prev b s).pm.mode = .recovery := by
  simp only [startUp, if_true]
  rw [flushKeeper_pm, resetOccurred_pm, enterRecovery]
  split
  · exact h
  · exact enterMode_mode ..

/-- RESET_OCCURRED of a reset that no supply caused (19 R432, R437). -/
theorem resetOccurred_raises {trigger : Nat} (h : trigger ≠ 3) (kind : Nat) (lt : BitVec 32) (s : State) :
    Raises 0x0125 (detail [du 8 (kindCode kind), du 8 (Config.openCode 1 trigger).toNat, du 32 lt.toNat, du 8 0]) s
      (resetOccurred kind trigger lt s) := by
  simp only [resetOccurred, resetRail, h, ne_eq, not_false_eq_true, if_true]
  exact raise_raises ..

theorem firmwareStart_raises {trigger : Nat} (h : trigger ≠ 3) (kind : Nat) (code : Option Nat) (s : State) :
    Raises 0x0125 (detail [du 8 (kindCode kind), du 8 (Config.openCode 1 trigger).toNat, du 32 s.pm.resetLt.toNat, du 8 0]) s
      (firmwareStart kind trigger code s) := by
  have hstarted : Kept s { s with pm := { s.pm with fwState := 1 } } := (Kept.refl s).set_pm _
  exact ((resetOccurred_raises h ..).sooner (kept_powerDomains (kept_loadStore hstarted))).later
    (kept_beginRebuild (kept_reportBoot _ (.refl _)))

/-- Every start tells of the reset it follows (19 R432). -/
theorem startUp_raises {trigger : Nat} (h : trigger ≠ 3) (kind : Nat) (prev : Mode) (b : BootIn) (s : State) :
    Raises 0x0125 (detail [du 8 (kindCode kind), du 8 (Config.openCode 1 trigger).toNat, du 32 s.pm.resetLt.toNat, du 8 0]) s
      (startUp kind trigger prev b s) := by
  unfold startUp
  split
  · rename_i hkind
    subst hkind
    exact ((resetOccurred_raises h ..).sooner (kept_enterRecovery _ (.refl s))).later (kept_flushKeeper (.refl _))
  · have hbooted : Kept s (bootRom b s) := kept_bootRom b (.refl s)
    dsimp only
    rw [← bootRom_pm b s]
    split
    · exact ((firmwareStart_raises h ..).sooner hbooted).later (kept_flushKeeper (.refl _))
    · exact ((resetOccurred_raises h ..).sooner (kept_enterRecovery _ hbooted)).later
        (kept_flushKeeper (kept_raise _ _ _ (.refl _)))

/-- What a start leaves as it is (19 R431, R434). -/
theorem only_startUp_start (kind trigger : Nat) (prev : Mode) (b : BootIn) (s : State) :
    Only [.out, .pm, .time, .win, .cfg, .led, .lay, .link, .trk, .scan, .ilk, .dma, .fab, .hbm, .cal, .keep, .upd, .nor, .smb, .diag,
      .evt, .stats, .hbmMem, .hostMem, .free] s (startUp kind trigger prev b s) :=
  only_startUp kind trigger prev b (by decide) (by decide) (by decide) (by decide) (by decide) (by decide) (by decide) (by decide)
    (by decide) (by decide) (by decide) (by decide) (by decide) (by decide) (by decide) (by decide) (by decide) (by decide)
    (by decide) (by decide) (by decide) (by decide) (by decide) (by decide) (by decide) (.refl _ s)

/-! ### How a reset begins, and what it leaves (19 R430-R432) -/

theorem only_beginReset_begins (kind trigger rail : Nat) (s : State) :
    Only [.out, .pm, .win, .rnd, .store, .seq, .trk, .scan, .fab, .cal, .nor, .smb, .diag, .evt, .stats, .hostMem] s
      (beginReset kind trigger rail s) :=
  only_beginReset kind trigger rail (by decide) (by decide) (by decide) (by decide) (by decide) (by decide) (by decide) (by decide)
    (by decide) (by decide) (by decide) (by decide) (by decide) (by decide) (by decide) (by decide) (.refl _ s)

theorem sendPairFail_pm (cause : Nat) (s : State) : (sendPairFail cause s).pm = s.pm :=
  (only_sendPairFail (fr := [.out, .win, .fab, .nor, .diag, .evt, .stats, .hostMem]) cause (by decide) (by decide) (by decide)
    (by decide) (by decide) (by decide) (by decide) (by decide) (.refl _ s)).pm (by decide)

theorem only_resetCal_ends (s : State) : Only (.cal :: eventParts) s (resetCal s) :=
  only_resetCal (by decide) (by decide) (by decide) (by decide) (by decide) (by decide) (by decide) (.refl _ s)

theorem told_resetCal (s : State) : Told s (resetCal s) := by
  unfold resetCal
  extract_lets c s1 s2
  have hshown : Told s s2 := by
    unfold s2
    split
    · exact Told.trans (t := s1) (.of_eq rfl rfl) (told_showDacs s1)
    · exact .of_eq rfl rfl
  split
  · exact hshown.raised ..
  · exact hshown

section
variable (kind trigger rail : Nat) (s : State)

/-- The state in which a reset halts the stripe (19 R432). -/
def resetBegun : State :=
  let s1 := setSmb 4 (recordReset kind trigger rail s)
  if 2 ≤ kind ∧ kind ≤ 4 then sendPairFail 2 s1 else s1

theorem beginReset_eq :
    beginReset kind trigger rail s = resetCal (releaseSpo (haltStripe (resetBegun kind trigger rail s))) := rfl

theorem resetBegun_pm : (resetBegun kind trigger rail s).pm = (recordReset kind trigger rail s).pm := by
  unfold resetBegun
  dsimp only
  split
  · rw [sendPairFail_pm]
    rfl
  · rfl

theorem haltStripe_pm (s : State) : (haltStripe s).pm = s.pm :=
  (only_haltStripe (fr := [.rnd, .store, .seq, .trk]) (by decide) (by decide) (by decide) (by decide) (.refl _ s)).pm (by decide)

theorem beginReset_pm : (beginReset kind trigger rail s).pm = (recordReset kind trigger rail s).pm := by
  rw [beginReset_eq, (only_resetCal_ends _).pm (by decide), ← resetBegun_pm]
  exact haltStripe_pm _

/-- A reset darkens the beam (19 R432). -/
theorem beginReset_dark :
    (beginReset kind trigger rail s).seq.gblank = true ∧ (beginReset kind trigger rail s).seq.gstrobe = false := by
  rw [beginReset_eq, (only_resetCal_ends _).seq (by decide)]
  exact ⟨rfl, rfl⟩

theorem told_beginReset : Told s (beginReset kind trigger rail s) := by
  have hrecorded : Told s (setSmb 4 (recordReset kind trigger rail s)) := .of_eq rfl rfl
  have hbegun : Told s (resetBegun kind trigger rail s) := by
    unfold resetBegun
    dsimp only
    split
    · exact hrecorded.trans (told_sendPairFail ..)
    · exact hrecorded
  have hhalt (t : State) : Told t (releaseSpo (haltStripe t)) :=
    .of_only (only_releaseSpo (fr := [.rnd, .store, .seq, .trk, .scan]) (by decide) (only_haltStripe (by decide) (by decide)
      (by decide) (by decide) (.refl _ t))) (by decide) (by decide)
  rw [beginReset_eq]
  exact (hbegun.trans (hhalt _)).trans (told_resetCal _)

end

/-- A reset that is held: the beam is dark, keys, the store and what a reset keeps stay (19 R428, R429, R431). -/
theorem holdReset_effect (kind trigger rail : Nat) (h : Held) (s : State) :
    (holdReset kind trigger rail h s).pm.held = h ∧ (holdReset kind trigger rail h s).seq.gblank = true ∧
      (holdReset kind trigger rail h s).seq.gstrobe = false ∧ (holdReset kind trigger rail h s).keep.slots = s.keep.slots ∧
      (holdReset kind trigger rail h s).nor.store = s.nor.store ∧
      (holdReset kind trigger rail h s).hbmMem = (if (kind == 3) = true then s.hbmMem else []) ∧
      (holdReset kind trigger rail h s).pending = s.pending := by
  have honly := only_beginReset_begins kind trigger rail s
  have hkeep := honly.keep (by decide)
  have hmem := honly.hbmMem (by decide)
  have hstore := (told_beginReset kind trigger rail s).store
  have hpending := honly.1
  unfold holdReset
  generalize beginReset kind trigger rail s = u at hkeep hmem hstore hpending
  refine ⟨rfl, rfl, rfl, ?_, hstore, ?_, hpending⟩
  · show u.keep.slots = _
    rw [hkeep]
  · rw [← hmem]
    rfl

end

end Sys2Proof.Machine
end

section
/-! PROOF. Supply warnings, supply and thermal resets (19 R426-R429). -/

namespace Sys2Proof.Machine

/-! ### A rail that falls (19 R426, R427) -/

section
variable {s : State} (rail : Fin 9) (mv : BitVec 16)

theorem railDrops_low (s : State) : bitAt (railDrops rail mv s).pm.railsLow rail.val = true := by
  simp only [railDrops, bitAt, BitVec.testBit_toNat, BitVec.getLsbD_or, BitVec.getLsbD_ofNat, rail.isLt, Nat.testBit_two_pow_self,
    decide_true, Bool.true_and, Bool.or_true]

theorem railDrops_mv (s : State) : (railDrops rail mv s).pm.railMv[rail] = mv := Vector.getElem_set_self rail.isLt

/-- A rail that falls, counted, before it is told of (19 R427). -/
def railFallen (rail : Fin 9) (mv : BitVec 16) (s : State) : State :=
  let s1 := railDrops rail mv s
  setSmb 1 { s1 with pm := { s1.pm with warnings := s1.pm.warnings + 1 } }

/-- It is told of (19 R427). -/
def railTold (rail : Fin 9) (mv : BitVec 16) (s : State) : State :=
  setFlag 2 (raise 0x0123 .aon (detail [du 8 rail.val, du 16 mv.toNat]) (railFallen rail mv s))

theorem railTold_pm (s : State) : (railTold rail mv s).pm = (railFallen rail mv s).pm := by
  simp only [railTold, setFlag_parts, raise_parts]

theorem railTold_seq (s : State) : (railTold rail mv s).seq = s.seq := by
  simp only [railTold, setFlag_parts, raise_parts]
  rfl

theorem railTold_raises (s : State) : Raises 0x0123 (detail [du 8 rail.val, du 16 mv.toNat]) s (railTold rail mv s) :=
  ((raise_raises ..).sooner (kept_setSmb _ ((kept_railDrops rail mv (.refl s)).set_pm _))).later (kept_setFlag _ (.refl _))

theorem abortCal_keeps (s : State) : (abortCal s).pm = s.pm ∧ (abortCal s).seq = s.seq := by
  have h : Only [.out, .win, .mb, .cfg, .led, .link, .dma, .fab, .cal, .nor, .svc, .diag, .evt, .stats, .hostMem, .free] s
      (abortCal s) :=
    only_abortCal (by decide) (by decide) (by decide) (by decide) (by decide) (by decide) (by decide) (by decide) (by decide)
      (by decide) (by decide) (by decide) (by decide) (by decide) (by decide) (by decide) (.refl _ s)
  exact ⟨h.pm (by decide), h.seq (by decide)⟩

theorem failLowSupply_seq (s : State) : (failLowSupply s).seq = s.seq :=
  (only_failLowSupply (fr := [.out, .pm, .win, .mb, .link, .nor, .svc, .evt, .stats, .hostMem]) (by decide) (by decide) (by decide)
    (by decide) (by decide) (by decide) (by decide) (by decide) (by decide) (by decide) (.refl _ s)).seq (by decide)

theorem boundaryStop_pm (c : Nat) (s : State) : (boundaryStop c s).pm = s.pm :=
  (only_boundaryStop (fr := [.out, .win, .rnd, .store, .seq, .trk, .scan, .nor, .evt, .stats, .hostMem, .free]) c
    (by decide) (by decide) (by decide) (by decide) (by decide) (by decide) (by decide) (by decide) (by decide) (by decide)
    (by decide) (by decide) (.refl _ s)).pm (by decide)

theorem railWarns_eq (hrun : running s = true) : railWarns rail mv s =
    failLowSupply (abortCal (boundaryStop 10 (railTold rail mv s))) := by
  have hfallen : running (railFallen rail mv s) = true := hrun
  unfold railFallen at hfallen
  unfold railWarns
  dsimp only at hfallen ⊢
  rw [hfallen]
  rfl

/-- A rail that falls below its warning: told of, flagged, a stripe stopped at a boundary with cause 10 (19 R427). -/
theorem railWarns_effect (hrun : running s = true) :
    bitAt (railWarns rail mv s).pm.railsLow rail.val = true ∧ (railWarns rail mv s).pm.railMv[rail] = mv ∧
      bitAt (railWarns rail mv s).win.status 2 = true ∧
      Raises 0x0123 (detail [du 8 rail.val, du 16 mv.toNat]) s (railWarns rail mv s) ∧
      (s.seq.st.active = true → Stops 10 (stopM false s.seq) (railWarns rail mv s)) := by
  rw [railWarns_eq rail mv hrun]
  obtain ⟨hpm, hseq⟩ := abortCal_keeps (boundaryStop 10 (railTold rail mv s))
  have hmoves : ModeMoves (railTold rail mv s) (failLowSupply (abortCal (boundaryStop 10 (railTold rail mv s)))) :=
    (ModeMoves.of_pm (hpm.trans (boundaryStop_pm ..))).trans (modeMoves_failLowSupply _)
  have htold : Told (railTold rail mv s) (failLowSupply (abortCal (boundaryStop 10 (railTold rail mv s)))) :=
    ((told_boundaryStop ..).trans (told_abortCal _)).trans (told_failLowSupply _)
  refine ⟨?_, ?_, htold.status 2 (bitAt_setFlag 2 _), ?_, fun hactive => ?_⟩
  · rw [hmoves.railsLow, railTold_pm]
    exact railDrops_low rail mv s
  · rw [hmoves.railMv, railTold_pm]
    exact railDrops_mv rail mv s
  · exact (railTold_raises rail mv s).later (kept_failLowSupply (kept_abortCal (kept_boundaryStop 10 (.refl _))))
  · have hstop := stopStripe_stops (s := railTold rail mv s) (by rw [railTold_seq]; exact hactive) 10 false 1 0
    rw [railTold_seq] at hstop
    unfold Stops at hstop ⊢
    rw [failLowSupply_seq, hseq]
    exact hstop

end

/-! ### Commands about the supplies (19 R426-R428) -/

section
variable {s : State} (halive : aonAlive s = true)
include halive

theorem exec_supplyWarning_again {rail : Fin 9} (hlow : bitAt s.pm.railsLow rail.val = true) (mv : BitVec 16) :
    exec (.supplyWarning rail mv) s = .next (railDrops rail mv s) := by
  show execSupplyWarning rail mv s = _
  simp only [execSupplyWarning, halive, hlow, Bool.true_eq_false, if_true, if_false]

theorem exec_supplyWarning_first {rail : Fin 9} (hlow : bitAt s.pm.railsLow rail.val = false) (mv : BitVec 16) :
    exec (.supplyWarning rail mv) s = .next (railWarns rail mv s) := by
  show execSupplyWarning rail mv s = _
  simp only [execSupplyWarning, halive, hlow, Bool.true_eq_false, Bool.false_eq_true, if_false]

theorem exec_supplyRecovered_running (hrails : s.pm.railsLow ≠ 0) (hrun : running s = true) (b : BootIn) :
    exec (.supplyRecovered b) s = .next (raise 0x0124 .aon 0 (recoverRails s)) := by
  have hheld : s.pm.held = .no := by simpa [running] using hrun
  show execSupplyRecovered b s = _
  simp only [execSupplyRecovered, halive, hrails, hheld, Bool.true_eq_false, or_self, if_false]

theorem exec_supplyRecovered_held (hrails : s.pm.railsLow ≠ 0) (hheld : s.pm.held = .supply) (b : BootIn) :
    exec (.supplyRecovered b) s = .next (endHeldReset b (recoverRails s)) := by
  show execSupplyRecovered b s = _
  simp only [execSupplyRecovered, halive, hrails, hheld, Bool.true_eq_false, or_self, if_false]

/-- A rail that trips holds a running device in reset: VDD_AON in a power-on reset, another in one of kind 3 (19 R428). -/
theorem exec_railResetTrip (hrun : running s = true) (rail : Fin 9) (mv : BitVec 16) : exec (.railResetTrip rail mv) s =
    .next (if rail.val = 8 then holdReset 5 3 8 .supply (railDrops rail mv s)
      else holdReset 3 3 rail.val .supply (railDrops rail mv s)) := by
  show execRailResetTrip rail mv s = _
  simp only [execRailResetTrip, halive, hrun, Bool.true_eq_false, if_true, if_false]

theorem railResetTrip_effect (hrun : running s = true) (rail : Fin 9) (mv : BitVec 16) : Runs (.railResetTrip rail mv) s fun t =>
    t.pm.held = .supply ∧ t.seq.gblank = true ∧ t.seq.gstrobe = false ∧ t.keep.slots = s.keep.slots ∧
    t.nor.store = s.nor.store ∧ t.hbmMem = (if rail.val = 8 then [] else s.hbmMem) := by
  refine ⟨_, exec_railResetTrip halive hrun rail mv, ?_⟩
  by_cases hrail : rail.val = 8
  · obtain ⟨hheld, hblank, hstrobe, hslots, hstore, hmem, -⟩ := holdReset_effect 5 3 8 .supply (railDrops rail mv s)
    simp only [hrail, if_true]
    exact ⟨hheld, hblank, hstrobe, hslots, hstore, hmem⟩
  · obtain ⟨hheld, hblank, hstrobe, hslots, hstore, hmem, -⟩ := holdReset_effect 3 3 rail.val .supply (railDrops rail mv s)
    simp only [hrail, if_false]
    exact ⟨hheld, hblank, hstrobe, hslots, hstore, hmem⟩

end

/-! ### Resets that are held, and their end (19 R428, R429) -/

/-- A held reset that ends starts the device (19 R428, R429, R434). -/
theorem endHeldReset_effect (b : BootIn) (s : State) :
    (endHeldReset b s).pm.held = .no ∧ (endHeldReset b s).pm.railsLow = s.pm.railsLow ∧
      (s.pm.heldKind / 16 = 4 → Raises 0x0126 0 s (endHeldReset b s)) ∧
      (s.pm.heldKind % 16 ≠ 4 → b.slotOk = true → (endHeldReset b s).pm.mode = .ready) := by
  have hfreed : Kept s { s with pm := { s.pm with held := .no } } := (Kept.refl s).set_pm _
  unfold endHeldReset
  extract_lets trigger p s1
  have hmoves : ModeMoves { s with pm := { s.pm with held := .no } } s1 := modeMoves_startUp ..
  have hkept : Kept s s1 := kept_startUp _ _ _ _ hfreed
  have hpm : (if trigger = 4 then raise 0x0126 .aon 0 s1 else s1).pm = s1.pm := by
    split
    · simp only [raise_parts]
    · rfl
  rw [hpm]
  refine ⟨hmoves.held, hmoves.railsLow, fun htrigger => ?_, fun hkind hslot => startUp_ready hkind hslot ..⟩
  have hcase : trigger = 4 := htrigger
  rw [if_pos hcase]
  exact (raise_raises ..).sooner hkept

section
variable {s : State}

theorem thermalTrips_holdReset (rail : Nat) (h : Held) (s : State) :
    (holdReset 3 4 rail h s).pm.thermalTrips = s.pm.thermalTrips := by
  show (beginReset 3 4 rail s).pm.thermalTrips = s.pm.thermalTrips
  rw [beginReset_pm]
  rfl

theorem exec_thermalTrip (hrun : running s = true) : exec .thermalTrip s = .next
    { holdReset 3 4 0 .thermal s with pm := { (holdReset 3 4 0 .thermal s).pm with
      thermalTrips := (holdReset 3 4 0 .thermal s).pm.thermalTrips + 1 } } := by
  show execThermalTrip s = _
  rw [execThermalTrip, if_pos hrun]

/-- A die too hot holds the device in reset (19 R429). -/
theorem thermalTrip_effect (hrun : running s = true) : Runs .thermalTrip s fun t =>
    t.pm.held = .thermal ∧ t.pm.thermalTrips = s.pm.thermalTrips + 1 ∧ t.seq.gblank = true ∧ t.seq.gstrobe = false ∧
    t.keep.slots = s.keep.slots ∧ t.hbmMem = s.hbmMem := by
  obtain ⟨hheld, hblank, hstrobe, hslots, -, hmem, -⟩ := holdReset_effect 3 4 0 .thermal s
  have htrips := thermalTrips_holdReset 0 .thermal s
  refine ⟨_, exec_thermalTrip hrun, ?_⟩
  generalize holdReset 3 4 0 .thermal s = u at hheld hblank hstrobe hslots hmem htrips
  exact ⟨hheld, congrArg (· + 1) htrips, hblank, hstrobe, hslots, hmem⟩

variable (b : BootIn) (hheld : s.pm.held = .thermal)
include hheld

theorem exec_thermalRelease_low (hrails : s.pm.railsLow ≠ 0) :
    exec (.thermalResetRelease b) s = .next { s with pm := { s.pm with held := .supply } } := by
  show execThermalResetRelease b s = _
  rw [execThermalResetRelease, if_neg (not_not_intro hheld), if_pos hrails]

theorem exec_thermalRelease_sound (hrails : s.pm.railsLow = 0) :
    exec (.thermalResetRelease b) s = .next (endHeldReset b s) := by
  show execThermalResetRelease b s = _
  rw [execThermalResetRelease, if_neg (not_not_intro hheld), if_neg (not_not_intro hrails)]

end

end Sys2Proof.Machine

open Sys2Proof Sys2Proof.Machine

/-- Settles O52: a rail that falls is told of and stops the stripe; one that trips, or a die too hot, holds the device in reset, and
the end of the hold starts it. -/
theorem suppliesAreWatched : Obligations.SuppliesAreWatched := by
  unfold Obligations.SuppliesAreWatched
  intro s halive
  refine ⟨fun rail mv hrun hlow => ⟨_, exec_supplyWarning_first halive hlow mv, railWarns_effect rail mv hrun⟩,
    fun rail mv hlow => ⟨_, exec_supplyWarning_again halive hlow mv, railDrops_mv rail mv s,
      only_railDrops rail mv (by decide) (.refl _ s)⟩,
    fun b hrails => ⟨fun hrun => ?_, fun hheld => ?_⟩, fun rail mv hrun => railResetTrip_effect halive hrun rail mv,
    thermalTrip_effect, fun b hheld => ⟨fun hrails => ?_, fun hrails => ?_⟩⟩
  · refine ⟨_, exec_supplyRecovered_running halive hrails hrun b, ?_, ?_, (raise_raises ..).sooner (kept_recoverRails (.refl s)),
      (only_recoverRails (by decide) (by decide) (.refl _ s)).raised (by decide) ..⟩
    · simp only [raise_parts]
      rfl
    · simp only [raise_parts]
      rfl
  · obtain ⟨hno, hrailsLow, -, hready⟩ := endHeldReset_effect b (recoverRails s)
    exact ⟨_, exec_supplyRecovered_held halive hrails hheld b, hno, hrailsLow, hready⟩
  · exact ⟨_, exec_thermalRelease_low b hheld hrails, rfl, (Only.refl _ s).set_pm _ (by decide)⟩
  · obtain ⟨hno, -, hraises, hready⟩ := endHeldReset_effect b s
    exact ⟨_, exec_thermalRelease_sound b hheld hrails, hno, hraises, hready⟩
end

section
/-! PROOF. Resets of every kind: RESET_N, power-on, watchdog and commanded resets (19 R430-R434, 22 R469, R474). -/

namespace Sys2Proof.Machine

/-! ### Restarts of the firmware (19 R430) -/

section
variable {s : State}

theorem sendClaim_mb (force : Bool) (s : State) : (sendClaim force s).mb = s.mb :=
  (only_sendClaim (fr := [.out, .link, .stats]) force (by decide) (by decide) (by decide) (.refl _ s)).mb (by decide)

theorem sendRelease_mb (s : State) : (sendRelease s).mb = s.mb :=
  (only_sendRelease (fr := [.out, .link, .stats]) (by decide) (by decide) (by decide) (.refl _ s)).mb (by decide)

/-- With no command in progress a change that fails leaves none (19 R423). -/
theorem failMode_running (h : s.mb.running = []) (status reason : Nat) : (failMode status reason s).mb.running = [] := by
  have hreleased : (if s.pm.changing ∧ s.pm.target = .expose ∧ s.link.held ∧ failMode.linkUp s then sendRelease s else s).mb = s.mb := by
    split
    · exact sendRelease_mb s
    · rfl
  unfold failMode settleMode
  dsimp only
  rw [settle_running, (raise_parts ..).2.2.2.1]
  simp only [hreleased, h, List.filter_nil]

theorem beginChange_running (h : s.mb.running = []) (m : Mode) (trigger : Nat) : (beginChange m trigger s).mb.running = [] := by
  unfold beginChange
  split
  · exact failMode_running h ..
  · dsimp only
    split
    · rw [sendClaim_mb]
      exact h
    · split
      · rw [sendRelease_mb]
        exact h
      · exact h

theorem reenterMode_running (h : s.mb.running = []) : (reenterMode s).mb.running = [] := by
  unfold reenterMode
  split
  · exact h
  · split
    · exact h
    · split
      · exact h
      · exact beginChange_running (by exact h) ..

theorem enterMode_mb (m : Mode) (trigger : Nat) (s : State) : (enterMode m trigger s).mb = s.mb :=
  (only_enterMode (fr := [.out, .pm, .win, .cfg, .led, .lay, .link, .dma, .fab, .keep, .nor, .smb, .diag, .evt, .stats, .hostMem,
    .free]) m trigger (by decide) (by decide) (by decide) (by decide) (by decide) (by decide) (by decide) (by decide) (by decide)
    (by decide) (by decide) (by decide) (by decide) (by decide) (by decide) (by decide) (by decide) (.refl _ s)).mb (by decide)

/-- A restart's state once the commands in progress are gone (19 R430). -/
def restartBegun (s : State) : State :=
  { s with
    mb := { s.mb with running := [] }
    diag := { s.diag with loop := none }
    pm := { s.pm with changing := false, claimWait := false, target := s.pm.mode, commandedReset := none } }

/-- A state that a restart passes from its begin on: no command in progress, power management moved as mode changes move it. -/
structure Restarting (s u : State) : Prop where
  kept : Kept s u
  moves : ModeMoves (restartBegun s) u
  running : u.mb.running = []

theorem restarting_begun (s : State) : Restarting s (restartBegun s) :=
  ⟨⟨rfl, List.suffix_refl _, List.suffix_refl _, id, id, id⟩, .refl _, rfl⟩

theorem Restarting.enterMode {u : State} (h : Restarting s u) (m : Mode) (trigger : Nat) :
    Restarting s (Machine.enterMode m trigger u) :=
  ⟨kept_enterMode m trigger h.kept, h.moves.trans (modeMoves_enterMode ..), by rw [enterMode_mb]; exact h.running⟩

theorem Restarting.set_pm {u : State} (h : Restarting s u) (x : Power) (hx : ModeMoves u { u with pm := x }) :
    Restarting s { u with pm := x } :=
  ⟨h.kept.set_pm x, h.moves.trans hx, h.running⟩

theorem Restarting.fwReady {u : State} (h : Restarting s u) : Restarting s (Machine.fwReady u) :=
  ⟨kept_fwReady h.kept, h.moves.trans (modeMoves_fwReady u), by
    simp only [Machine.fwReady, setFlag_parts]
    exact h.running⟩

/-- A restart tells of the reset once it has begun, and then re-enters the mode, if any (19 R430, R432). -/
theorem restart_cases (kind trigger : Nat) (s : State) : ∃ u, Restarting s u ∧
    (restart kind trigger s = resetOccurred kind trigger s.pm.resetLt u ∨
      restart kind trigger s = reenterMode (resetOccurred kind trigger s.pm.resetLt u)) := by
  have hbegun := restarting_begun s
  unfold restart
  dsimp only
  split
  · exact ⟨_, hbegun, .inl rfl⟩
  · refine ⟨_, ?_, .inr rfl⟩
    generalize hu : (if (s.pm.mode == .ready || (s.pm.mode == .hold && kind == 1)) = true then restartBegun s
      else Machine.enterMode .ready 5 (restartBegun s)) = u
    have hentered : Restarting s u := by
      rw [← hu]
      split
      · exact hbegun
      · exact hbegun.enterMode ..
    unfold restartBegun at hu
    simp only [hu]
    split
    · exact (hentered.set_pm _ ⟨_, _, _, _, _, _, _, _, rfl⟩).fwReady
    · exact hentered.set_pm _ ⟨_, _, _, _, _, _, _, _, rfl⟩

/-- A restart ends the commands in progress and the commanded reset, and tells of itself (19 R430, R432). -/
theorem restart_effect {trigger : Nat} (htrigger : trigger ≠ 3) (kind : Nat) (s : State) :
    (restart kind trigger s).pm.commandedReset = none ∧
      (restart kind trigger s).pm.watchdogResets = s.pm.watchdogResets ∧ (restart kind trigger s).mb.running = [] ∧
      Raises 0x0125 (detail [du 8 (kindCode kind), du 8 (Config.openCode 1 trigger).toNat, du 32 s.pm.resetLt.toNat, du 8 0]) s
        (restart kind trigger s) := by
  obtain ⟨u, hu, hcase⟩ := restart_cases kind trigger s
  have hpm : (resetOccurred kind trigger s.pm.resetLt u).pm = u.pm := resetOccurred_pm ..
  have hrunning : (resetOccurred kind trigger s.pm.resetLt u).mb.running = [] := by
    simp only [resetOccurred, raise_parts]
    exact hu.running
  have hraises := (resetOccurred_raises htrigger kind s.pm.resetLt u).sooner hu.kept
  obtain hcase | hcase := hcase
  · rw [hcase, hpm]
    exact ⟨hu.moves.commandedReset, hu.moves.watchdogResets, hrunning, hraises⟩
  · have hmoves := (hu.moves.then_pm hpm).trans (modeMoves_reenterMode _)
    rw [hcase]
    exact ⟨hmoves.commandedReset, hmoves.watchdogResets, reenterMode_running hrunning, hraises.later (kept_reenterMode (.refl _))⟩

/-- What a restart leaves as it is (19 R430, R431). -/
theorem only_restart_restarts (kind trigger : Nat) (s : State) :
    Only [.out, .pm, .win, .mb, .cfg, .led, .lay, .link, .dma, .fab, .keep, .nor, .svc, .smb, .diag, .evt, .stats, .hostMem, .free] s
      (restart kind trigger s) :=
  only_restart kind trigger (by decide) (by decide) (by decide) (by decide) (by decide) (by decide) (by decide) (by decide)
    (by decide) (by decide) (by decide) (by decide) (by decide) (by decide) (by decide) (by decide) (by decide) (by decide)
    (by decide) (.refl _ s)

/-- A reset that has begun: its LT is recorded, and the beam is dark (19 R432, R436). -/
theorem beginReset_lt (kind trigger rail : Nat) (s : State) : (beginReset kind trigger rail s).pm.resetLt = ltNow s := by
  rw [beginReset_pm]
  rfl

/-- What a commanded or watchdog reset leaves, whichever its kind (19 R430-R433). -/
structure ResetDone (kind trigger : Nat) (s t : State) : Prop where
  commanded : t.pm.commandedReset = none
  running : t.mb.running = []
  gblank : t.seq.gblank = true
  gstrobe : t.seq.gstrobe = false
  raises : Raises 0x0125 (detail [du 8 (kindCode kind), du 8 (Config.openCode 1 trigger).toNat, du 32 (ltNow s).toNat, du 8 0]) s t

theorem resetFirmware_done {trigger : Nat} (htrigger : trigger ≠ 3) (s : State) :
    ResetDone 1 trigger s (resetFirmware trigger s) := by
  obtain ⟨hblank, hstrobe⟩ := beginReset_dark 1 trigger 0 s
  obtain ⟨hcommanded, -, hrunning, hraises⟩ := restart_effect htrigger 1 (beginReset 1 trigger 0 s)
  have hseq := (only_restart_restarts 1 trigger (beginReset 1 trigger 0 s)).seq (by decide)
  rw [beginReset_lt] at hraises
  exact ⟨hcommanded, hrunning, (congrArg Seq.gblank hseq).trans hblank, (congrArg Seq.gstrobe hseq).trans hstrobe,
    hraises.sooner (kept_beginReset _ _ _ (.refl s))⟩

theorem resetFirmware_counts {trigger : Nat} (htrigger : trigger ≠ 3) (s : State) :
    (resetFirmware trigger s).pm.watchdogResets = s.pm.watchdogResets ∧ (resetFirmware trigger s).hbmMem = s.hbmMem := by
  obtain ⟨-, hcount, -, -⟩ := restart_effect htrigger 1 (beginReset 1 trigger 0 s)
  refine ⟨hcount.trans ?_, ((only_restart_restarts ..).hbmMem (by decide)).trans ((only_beginReset_begins ..).hbmMem (by decide))⟩
  rw [beginReset_pm]
  rfl

theorem only_loseDatapath_loses (s : State) :
    Only [.out, .time, .win, .mb, .cfg, .led, .lay, .rnd, .store, .link, .trk, .scan, .dma, .fab, .nor, .svc, .diag, .evt, .stats,
      .hostMem, .free] s (loseDatapath s) :=
  only_loseDatapath (by decide) (by decide) (by decide) (by decide) (by decide) (by decide) (by decide) (by decide) (by decide)
    (by decide) (by decide) (by decide) (by decide) (by decide) (by decide) (by decide) (by decide) (by decide) (by decide)
    (by decide) (by decide) (.refl _ s)

/-- HBM that comes up again changes neither modes, commands nor the sequencer (17 R399, R401, 20 R444). -/
theorem only_hbmUp (s : State) : Only (.hbm :: .keep :: .smb :: .hbmMem :: eventParts) s (scrubRegions (trainHbm (seedHbm s))) :=
  only_scrubRegions (by decide) (by decide) (by decide) (by decide) (by decide) (by decide) (by decide) (by decide) (by decide)
    (only_trainHbm (by decide) (only_seedHbm (by decide) (.refl _ s)))

theorem resetDatapath_done (s : State) : ResetDone 2 1 s (resetDatapath s) := by
  obtain ⟨hblank, hstrobe⟩ := beginReset_dark 2 1 0 s
  have hbegun : Kept s (beginReset 2 1 0 s) := kept_beginReset _ _ _ (.refl s)
  have hlost : Kept s (loseDatapath (beginReset 2 1 0 s)) := kept_loseDatapath hbegun
  have hloses := only_loseDatapath_loses (beginReset 2 1 0 s)
  obtain ⟨hcommanded, -, hrunning, hraises⟩ :=
    restart_effect (trigger := 1) (by decide) 2 (loseDatapath (beginReset 2 1 0 s))
  have hseq := ((only_restart_restarts 2 1 _).seq (by decide)).trans (hloses.seq (by decide))
  have hup := only_hbmUp (restart 2 1 (loseDatapath (beginReset 2 1 0 s)))
  rw [hloses.pm (by decide), beginReset_lt] at hraises
  unfold resetDatapath
  dsimp only
  refine ⟨?_, ?_, ?_, ?_, ?_⟩
  · rw [hup.pm (by decide), hcommanded]
  · rw [hup.mb (by decide), hrunning]
  · rw [hup.seq (by decide), hseq, hblank]
  · rw [hup.seq (by decide), hseq, hstrobe]
  · exact (hraises.sooner hlost).later (kept_scrubRegions (kept_trainHbm (kept_seedHbm (.refl _))))

/-- A reset of kind 3 or 4 starts the device from the boot ROM (19 R430, R434). -/
theorem resetDevice_done (kind : Nat) (b : BootIn) (s : State) : ResetDone kind 1 s (resetDevice kind b s) := by
  have hlt := beginReset_lt kind 1 0 s
  have hbegun : Kept s (beginReset kind 1 0 s) := kept_beginReset _ _ _ (.refl s)
  unfold resetDevice
  dsimp only
  generalize beginReset kind 1 0 s = u at hlt hbegun
  have honly := only_startUp_start kind 1 s.pm.mode b (resetState false (kind == 3) u)
  have hmoves := modeMoves_startUp kind 1 s.pm.mode b (resetState false (kind == 3) u)
  have hraises := startUp_raises (trigger := 1) (by decide) kind s.pm.mode b (resetState false (kind == 3) u)
  have hreset : (resetState false (kind == 3) u).pm.resetLt = ltNow s := hlt
  rw [hreset] at hraises
  refine ⟨hmoves.commandedReset, ?_, ?_, ?_, hraises.sooner (kept_resetState _ _ hbegun)⟩
  · rw [honly.mb (by decide)]
    rfl
  · rw [honly.seq (by decide)]
    rfl
  · rw [honly.seq (by decide)]
    rfl

theorem resetDevice_ready {b : BootIn} (hslot : b.slotOk = true) (s : State) : (resetDevice 3 b s).pm.mode = .ready :=
  startUp_ready (by decide) hslot ..

theorem resetState_mode (por keepHbm : Bool) (s : State) : (resetState por keepHbm s).pm.mode = .recovery := rfl

theorem resetDevice_recovery (b : BootIn) (s : State) : (resetDevice 4 b s).pm.mode = .recovery := by
  unfold resetDevice
  dsimp only
  exact startUp_recovery 1 s.pm.mode b (resetState_mode ..)

end

/-! ### The commands of resets (19 R430, R433, R434, 22 R469, R474) -/

section
variable {s : State}

theorem exec_resetNAsserted (h : s.pm.held ≠ .resetLow) : exec .resetNAsserted s = .next (holdReset 5 5 0 .resetLow s) := by
  show execResetNAsserted s = _
  rw [execResetNAsserted, if_neg h]

/-- A power-on reset clears the watchdog's latch (19 R431). -/
theorem resetNAsserted_wdLatch (s : State) : (holdReset 5 5 0 .resetLow s).seq.wdLatch = false := by
  unfold holdReset
  generalize beginReset 5 5 0 s = u
  exact Bool.and_false _

theorem exec_powerOnReset (h : s.pm.held = .resetLow) (testEn : Bool) (b : BootIn) : exec (.powerOnReset testEn b) s = .next
    (if testEn then { s with pm := { s.pm with held := .testEn } }
      else startUp 5 5 .recovery b (recordReset 5 5 0 { s with pm := { s.pm with held := .no } })) := by
  show execPowerOnReset testEn b s = _
  rw [execPowerOnReset, if_neg (not_not_intro h)]

/-- The start that a power-on reset ends in (19 R434). -/
theorem powerOnStart_effect (b : BootIn) (s : State) :
    (startUp 5 5 .recovery b (recordReset 5 5 0 { s with pm := { s.pm with held := .no } })).pm.held = .no ∧
      (b.slotOk = true →
        (startUp 5 5 .recovery b (recordReset 5 5 0 { s with pm := { s.pm with held := .no } })).pm.mode = .ready) :=
  ⟨(modeMoves_startUp ..).held, fun hslot => startUp_ready (by decide) hslot ..⟩

theorem exec_watchdogReset (hrun : running s = true) (hfw : s.pm.fwState ≠ 0) : exec .watchdogReset s = .next
    (raise 0x0127 .aon 0 { resetFirmware 2 s with
      pm := { (resetFirmware 2 s).pm with watchdogResets := (resetFirmware 2 s).pm.watchdogResets + 1 } }) := by
  show execWatchdogReset s = _
  rw [execWatchdogReset, if_pos ⟨hrun, hfw⟩]

theorem watchdogReset_effect (hrun : running s = true) (hfw : s.pm.fwState ≠ 0) : Runs .watchdogReset s fun t =>
    t.pm.watchdogResets = s.pm.watchdogResets + 1 ∧ t.mb.running = [] ∧ t.seq.gblank = true ∧ t.seq.gstrobe = false ∧
    t.hbmMem = s.hbmMem ∧ Raises 0x0127 0 s t ∧
    Raises 0x0125 (detail [du 8 1, du 8 (Config.openCode 1 2).toNat, du 32 (ltNow s).toNat, du 8 0]) s t := by
  obtain ⟨-, hrunning, hblank, hstrobe, hraises⟩ := resetFirmware_done (trigger := 2) (by decide) s
  obtain ⟨hcount, hmem⟩ := resetFirmware_counts (trigger := 2) (by decide) s
  have hkept : Kept s (resetFirmware 2 s) := kept_resetFirmware 2 (.refl s)
  have hexec := exec_watchdogReset hrun hfw
  generalize resetFirmware 2 s = u at hexec hrunning hblank hstrobe hraises hcount hmem hkept
  refine ⟨_, hexec, ?_, ?_, ?_, ?_, ?_, (raise_raises ..).sooner (hkept.set_pm _),
    hraises.later (kept_raise _ _ _ ((Kept.refl u).set_pm _))⟩
  · simp only [raise_parts, hcount]
  · simp only [raise_parts, hrunning]
  · simp only [raise_parts, hblank]
  · simp only [raise_parts, hstrobe]
  · simp only [raise_parts, hmem]

theorem exec_commandedReset (hrun : running s = true) {kind : Nat} (hkind : s.pm.commandedReset = some kind) (b : BootIn) :
    exec (.commandedResetStart b) s = .next
      (if kind = 1 then resetFirmware 1 s else if kind = 2 then resetDatapath s else resetDevice kind b s) := by
  show execCommandedResetStart b s = _
  simp only [execCommandedResetStart, hkind, hrun, Bool.true_eq_false, if_false]

/-- A commanded reset of each kind (13 R300, 19 R430). -/
theorem commandedReset_effect (hrun : running s = true) {kind : Nat} (hmem : kind ∈ [1, 2, 3, 4])
    (hkind : s.pm.commandedReset = some kind) (b : BootIn) : Runs (.commandedResetStart b) s fun t =>
      t.pm.commandedReset = none ∧ t.mb.running = [] ∧ t.seq.gblank = true ∧ t.seq.gstrobe = false ∧
      (kind = 3 → b.slotOk = true → t.pm.mode = .ready) ∧ (kind = 4 → t.pm.mode = .recovery) ∧
      Raises 0x0125 (detail [du 8 kind, du 8 (Config.openCode 1 1).toNat, du 32 (ltNow s).toNat, du 8 0]) s t := by
  have hexec := exec_commandedReset hrun hkind b
  have hcases : kind = 1 ∨ kind = 2 ∨ kind = 3 ∨ kind = 4 := by simpa using hmem
  obtain rfl | rfl | rfl | rfl := hcases
  · obtain ⟨hcommanded, hrunning, hblank, hstrobe, hraises⟩ := resetFirmware_done (trigger := 1) (by decide) s
    rw [if_pos rfl] at hexec
    exact ⟨_, hexec, hcommanded, hrunning, hblank, hstrobe, fun h => absurd h (by decide), fun h => absurd h (by decide), hraises⟩
  · obtain ⟨hcommanded, hrunning, hblank, hstrobe, hraises⟩ := resetDatapath_done s
    rw [if_neg (by decide), if_pos rfl] at hexec
    exact ⟨_, hexec, hcommanded, hrunning, hblank, hstrobe, fun h => absurd h (by decide), fun h => absurd h (by decide), hraises⟩
  · obtain ⟨hcommanded, hrunning, hblank, hstrobe, hraises⟩ := resetDevice_done 3 b s
    rw [if_neg (by decide), if_neg (by decide)] at hexec
    exact ⟨_, hexec, hcommanded, hrunning, hblank, hstrobe, fun _ hslot => resetDevice_ready hslot s, fun h => absurd h (by decide),
      hraises⟩
  · obtain ⟨hcommanded, hrunning, hblank, hstrobe, hraises⟩ := resetDevice_done 4 b s
    rw [if_neg (by decide), if_neg (by decide)] at hexec
    exact ⟨_, hexec, hcommanded, hrunning, hblank, hstrobe, fun h => absurd h (by decide), fun _ => resetDevice_recovery b s, hraises⟩

end

end Sys2Proof.Machine
end

section
/-! PROOF. Function Level Reset and PERST: channels stopped, the host window cleared (12 R284, 14 R345, 19 R430-R432). -/

namespace Sys2Proof.Machine

/-! ### Channels stopped (14 R345) -/

/-- A descriptor as a reset leaves it: ABORTED unless it was final (14 R340, R345). -/
def interrupted (d : Desc) : Desc :=
  if d.st = .final then d else { d with st := .final, status := BitVec.ofNat 16 stAborted, reason := 11 }

theorem interrupted_open {d : Desc} (h : d.st ≠ .final) :
    interrupted d = { d with st := .final, status := BitVec.ofNat 16 stAborted, reason := 11 } := if_neg h

/-- One channel replaced. -/
def setChannel (c : Fin 16) (x : Channel16) (s : State) : State := { s with dma := { s.dma with ch := s.dma.ch.set c.val x } }

theorem setChannel_same (c : Fin 16) (x : Channel16) (s : State) : (setChannel c x s).dma.ch[c] = x :=
  Vector.getElem_set_self c.isLt

theorem setChannel_ne {c k : Fin 16} (h : k ≠ c) (x : Channel16) (s : State) : (setChannel c x s).dma.ch[k] = s.dma.ch[k] :=
  Vector.getElem_set_ne c.isLt k.isLt fun e => h (Fin.ext e.symm)

theorem interruptDesc_dma (c : Fin 16) (d : Desc) (s : State) : (interruptDesc c.val d s).dma = (setChannel c
    { s.dma.ch[c] with stoppedDescs := (s.dma.ch[c]).stoppedDescs ++ [interrupted d] } s).dma := by
  unfold interruptDesc interrupted
  rw [dif_pos c.isLt]
  dsimp only
  split
  · rfl
  · simp only [raise_parts]
    rfl

/-- Every descriptor of a list is kept, interrupted, by its channel; other channels stay (14 R345). -/
theorem interruptDescs_channel (c k : Fin 16) (l : List Desc) (s : State) : (interruptDescs c.val l s).dma.ch[k] =
    { s.dma.ch[k] with
      stoppedDescs := (s.dma.ch[k]).stoppedDescs ++ if k = c then l.map interrupted else [] } := by
  induction l generalizing s with
  | nil => simp only [interruptDescs, List.map_nil, ite_self, List.append_nil]
  | cons d l ih =>
    rw [interruptDescs, ih, interruptDesc_dma]
    by_cases hk : k = c
    · subst hk
      simp only [setChannel_same, if_true, List.map_cons, List.append_assoc, List.singleton_append]
    · simp only [setChannel_ne hk, hk, if_false]

/-- A channel stopped (14 R345). -/
def stopChannel (c : Fin 16) (s : State) : State :=
  interruptDescs c.val (s.dma.ch[c]).descs (setChannel c { s.dma.ch[c] with descs := [], paced := false } s)

theorem stopChannels_cons (c : Fin 16) (l : List Nat) (s : State) :
    stopChannels (c.val :: l) s = stopChannels l (stopChannel c s) := by
  rw [stopChannels, dif_pos c.isLt]
  rfl

theorem stopChannel_same (c : Fin 16) (s : State) : (stopChannel c s).dma.ch[c] = { s.dma.ch[c] with
    descs := []
    paced := false
    stoppedDescs := (s.dma.ch[c]).stoppedDescs ++ (s.dma.ch[c]).descs.map interrupted } := by
  rw [stopChannel, interruptDescs_channel, setChannel_same, if_pos rfl]

theorem stopChannel_ne {c k : Fin 16} (h : k ≠ c) (s : State) : (stopChannel c s).dma.ch[k] = s.dma.ch[k] := by
  rw [stopChannel, interruptDescs_channel, setChannel_ne h, if_neg h, List.append_nil]

theorem stopChannels_other {k : Fin 16} (l : List (Fin 16)) (h : k ∉ l) (s : State) :
    (stopChannels (l.map Fin.val) s).dma.ch[k] = s.dma.ch[k] := by
  induction l generalizing s with
  | nil => rfl
  | cons c l ih =>
    rw [List.map_cons, stopChannels_cons, ih (List.not_mem_of_not_mem_cons h), stopChannel_ne (List.ne_of_not_mem_cons h)]

/-- A channel of the list has no descriptor left, and keeps those it had, interrupted (14 R345). -/
theorem stopChannels_named {k : Fin 16} (l : List (Fin 16)) (hnodup : l.Nodup) (h : k ∈ l) (s : State) :
    (stopChannels (l.map Fin.val) s).dma.ch[k] = (stopChannel k s).dma.ch[k] := by
  induction l generalizing s with
  | nil => exact absurd h List.not_mem_nil
  | cons c l ih =>
    obtain ⟨hc, hl⟩ := List.nodup_cons.mp hnodup
    rw [List.map_cons, stopChannels_cons]
    by_cases hk : k = c
    · subst hk
      exact stopChannels_other l hc _
    · rw [ih hl ((List.mem_cons.mp h).resolve_left hk), stopChannel_same, stopChannel_same, stopChannel_ne hk]

theorem range_eq_finRange : List.range 16 = (List.finRange 16).map Fin.val := by decide

/-- Every channel stops (14 R345). -/
theorem stopDma_channel (c : Fin 16) (s : State) : ((stopDma s).dma.ch[c]).descs = [] ∧
    ((stopDma s).dma.ch[c]).stoppedDescs = (s.dma.ch[c]).stoppedDescs ++ (s.dma.ch[c]).descs.map interrupted := by
  unfold stopDma
  dsimp only
  rw [range_eq_finRange, stopChannels_named _ (List.nodup_finRange 16) (List.mem_finRange c), stopChannel_same]
  exact ⟨rfl, rfl⟩

theorem stopDma_keeps {s : State} {c : Fin 16} {d : Desc} (hd : d ∈ (s.dma.ch[c]).descs) (hopen : d.st ≠ .final) :
    { d with st := .final, status := BitVec.ofNat 16 stAborted, reason := 11 } ∈ ((stopDma s).dma.ch[c]).stoppedDescs := by
  rw [(stopDma_channel c s).2, ← interrupted_open hopen]
  exact List.mem_append_right _ (List.mem_map_of_mem hd)

/-! ### Events with every ring disabled (12 R281) -/

/-- No ring runs. -/
def ringsIdle (s : State) : Prop := ∀ i, (ring s i).st = 0

theorem eventToRings_idle {s : State} (h : ringsIdle s) (r : EventRec) (l : List (Fin 64)) : eventToRings r l s = s := by
  induction l with
  | nil => rfl
  | cons i l ih =>
    have hidle : eventToRing i r s = s := by
      unfold eventToRing
      dsimp only
      rw [if_neg (fun k => absurd ((h i).symm.trans k.1) (by decide))]
    rw [eventToRings, hidle, ih]

/-- With no ring running an event leaves the window as it is (12 R281). -/
theorem raise_win_idle {s : State} (h : ringsIdle s) (code : Nat) (d : Domain) (det : W128) : (raise code d det s).win = s.win := by
  have hcount : (countEvent code s).win = s.win := by simp only [countEvent_parts]
  have hidle (x : Nor) : ringsIdle { countEvent code s with nor := x } := fun i => by
    unfold ring
    rw [hcount]
    exact h i
  unfold raise recordEvent
  dsimp only
  rw [eventToRings_idle (hidle _)]
  exact hcount

/-! ### The two resets (12 R284, 19 R430, R431) -/

/-- The window after such a reset: no ring runs, and the MSI-X table and WIN_STAGE are at their reset values (12 R284). -/
structure WindowCleared (t : State) : Prop where
  idle : ringsIdle t
  msix : t.win.msix = Win.init.msix
  pba : t.win.pba = 0
  window : t.win.window = 0
  stageEn : t.win.stageEn = false

theorem WindowCleared.of_win {t u : State} (h : WindowCleared u) (k : t.win = u.win) : WindowCleared t :=
  ⟨fun i => by unfold ring; rw [k]; exact h.idle i, by rw [k, h.msix], by rw [k, h.pba], by rw [k, h.window], by rw [k, h.stageEn]⟩

/-- What such a reset leaves, its kind given (12 R284, 14 R345, 19 R432). -/
structure HostReset (kind : Nat) (s t : State) : Prop where
  window : WindowCleared t
  descs : ∀ c : Fin 16, (t.dma.ch[c]).descs = []
  stopped : ∀ (c : Fin 16) (d : Desc), d ∈ (s.dma.ch[c]).descs → d.st ≠ .final →
    { d with st := .final, status := BitVec.ofNat 16 stAborted, reason := 11 } ∈ (t.dma.ch[c]).stoppedDescs
  mode : t.pm.mode = s.pm.mode
  held : t.pm.held = .no
  raises : Raises 0x0125 (detail [du 8 (kindCode kind), du 8 (Config.openCode 1 6).toNat, du 32 (ltNow s).toNat, du 8 0]) s t

section
variable {s t : State}

/-- The reset recorded and told of, once the channels are stopped and the window is cleared (12 R284, 19 R432). -/
theorem hostReset_of {kind : Nat} {u : State} (hdma : u.dma = (stopDma s).dma) (hpm : u.pm = s.pm) (hkept : Kept s u)
    (hcleared : WindowCleared u) (hrun : running s = true) (ht : t = resetOccurred kind 6 (ltNow s) (recordReset kind 6 0 u)) :
    HostReset kind s t := by
  have hrecorded : WindowCleared (recordReset kind 6 0 u) := hcleared.of_win rfl
  have hheld : s.pm.held = .no := by simpa [running] using hrun
  have hpower : t.pm = (recordReset kind 6 0 u).pm := by rw [ht, resetOccurred_pm]
  have hchannels : t.dma = (stopDma s).dma := by
    rw [ht, ← hdma]
    simp only [resetOccurred, raise_parts]
    rfl
  refine ⟨?_, fun c => ?_, fun c d hd hopen => ?_, ?_, ?_, ?_⟩
  · refine hrecorded.of_win ?_
    rw [ht]
    exact raise_win_idle hrecorded.idle ..
  · rw [hchannels]
    exact (stopDma_channel c s).1
  · rw [hchannels]
    exact stopDma_keeps hd hopen
  · rw [hpower, ← hpm]
    rfl
  · rw [hpower, ← hheld, ← hpm]
    rfl
  · rw [ht]
    exact (resetOccurred_raises (by decide) ..).sooner (kept_recordReset _ _ _ hkept)

theorem stopDma_pm (s : State) : (stopDma s).pm = s.pm :=
  (only_stopDma (fr := .dma :: eventParts) (by decide) (by decide) (by decide) (by decide) (by decide) (by decide) (by decide)
    (.refl _ s)).pm (by decide)

/-- The host functions reset and counted (12 R284). -/
def functionCleared (u : State) : State := stat (sk 0x01010001 0x201) (resetFunction u)

/-- The HOST domain reset (19 R431). -/
def hostCleared (u : State) : State :=
  { u with
    win := u.win.afterPerst
    evt := { u.evt with count := [], limit := [] }
    aper := { object := 0, bytes := [], gen := 0 }
    stats := u.stats.filter (fun x => x.1 / 65536 != 0x01010001) }

theorem functionCleared_parts (u : State) : (functionCleared u).dma = u.dma ∧ (functionCleared u).pm = u.pm := ⟨rfl, rfl⟩

theorem hostCleared_parts (u : State) : (hostCleared u).dma = u.dma ∧ (hostCleared u).pm = u.pm := ⟨rfl, rfl⟩

theorem kept_hostCleared (u : State) : Kept u (hostCleared u) := ⟨rfl, List.suffix_refl _, List.suffix_refl _, id, id, id⟩

theorem windowCleared_functionCleared (u : State) : WindowCleared (functionCleared u) := by
  refine ⟨fun i => ?_, rfl, rfl, rfl, rfl⟩
  simp [ring, functionCleared, resetFunction, Ring.disabled]

theorem windowCleared_hostCleared (u : State) : WindowCleared (hostCleared u) := by
  refine ⟨fun i => ?_, rfl, rfl, rfl, rfl⟩
  simp [ring, hostCleared, Win.afterPerst, Win.init, Ring.init]

theorem exec_functionLevelReset (hrun : running s = true) : exec .functionLevelReset s =
    .next (resetOccurred 6 6 (ltNow s) (recordReset 6 6 0 (functionCleared (stopDma s)))) := by
  show execFunctionLevelReset s = _
  rw [execFunctionLevelReset, if_pos hrun, functionCleared]

theorem exec_perst (hrun : running s = true) : exec .perst s =
    .next (resetOccurred 7 6 (ltNow s) (recordReset 7 6 0 (hostCleared (stopDma s)))) := by
  show execPerst s = _
  rw [execPerst, if_pos hrun, hostCleared]

theorem functionLevelReset_effect (hrun : running s = true) : Runs .functionLevelReset s fun t =>
    HostReset 6 s t ∧ Only (.pm :: .dma :: .aper :: eventParts) s t := by
  obtain ⟨hdma, hpm⟩ := functionCleared_parts (stopDma s)
  have hexec := exec_functionLevelReset hrun
  have hkept : Kept s (functionCleared (stopDma s)) := kept_stat _ (kept_resetFunction (kept_stopDma (.refl s)))
  have hcleared := windowCleared_functionCleared (stopDma s)
  generalize functionCleared (stopDma s) = u at hdma hpm hexec hkept hcleared
  exact ⟨_, hexec, hostReset_of hdma (hpm.trans (stopDma_pm s)) hkept hcleared hrun rfl, only_execFunctionLevelReset
    (by decide) (by decide) (by decide) (by decide) (by decide) (by decide) (by decide) (by decide) hexec⟩

theorem perst_effect (hrun : running s = true) : Runs .perst s fun t =>
    HostReset 7 s t ∧ Only (.pm :: .dma :: .aper :: eventParts) s t := by
  obtain ⟨hdma, hpm⟩ := hostCleared_parts (stopDma s)
  have hexec := exec_perst hrun
  have hkept : Kept s (hostCleared (stopDma s)) := (kept_stopDma (.refl s)).trans (kept_hostCleared _)
  have hcleared := windowCleared_hostCleared (stopDma s)
  generalize hostCleared (stopDma s) = u at hdma hpm hexec hkept hcleared
  exact ⟨_, hexec, hostReset_of hdma (hpm.trans (stopDma_pm s)) hkept hcleared hrun rfl, only_execPerst
    (by decide) (by decide) (by decide) (by decide) (by decide) (by decide) (by decide) (by decide) (by decide) hexec⟩

end

end Sys2Proof.Machine

open Sys2Proof Sys2Proof.Machine

/-- Settles O53: every reset darkens the beam and tells of itself; what it clears, and the start that follows, are as its kind says;
resets of the host functions stop the channels and clear the rings. -/
theorem resetsClearAndStart : Obligations.ResetsClearAndStart := by
  unfold Obligations.ResetsClearAndStart
  refine ⟨fun s => ⟨fun hheld => ?_, fun b hheld => ⟨?_, fun hslot => ?_⟩, watchdogReset_effect,
    fun b hrun kind hmem hkind => commandedReset_effect hrun hmem hkind b⟩, fun s hrun x hx => ?_⟩
  · obtain ⟨hlow, hblank, hstrobe, hslots, hstore, hmem, hpending⟩ := holdReset_effect 5 5 0 .resetLow s
    exact ⟨_, exec_resetNAsserted hheld, hlow, hmem, hslots, hblank, hstrobe, resetNAsserted_wdLatch s, hstore, hpending⟩
  · exact ⟨_, exec_powerOnReset hheld true b, rfl, (Only.refl _ s).set_pm _ (by decide)⟩
  · obtain ⟨hno, hready⟩ := powerOnStart_effect b s
    exact ⟨_, exec_powerOnReset hheld false b, hno, hready hslot⟩
  · simp only [List.mem_cons, List.not_mem_nil, or_false] at hx
    obtain rfl | rfl := hx
    · obtain ⟨t, hexec, ⟨⟨hidle, hmsix, hpba, hwindow, hstage⟩, hdescs, hstopped, hmode, hheld, hraises⟩, honly⟩ :=
        functionLevelReset_effect hrun
      exact ⟨t, hexec, hidle, hmsix, hpba, hwindow, hstage, hdescs, hstopped, hmode, hheld, hraises, honly⟩
    · obtain ⟨t, hexec, ⟨⟨hidle, hmsix, hpba, hwindow, hstage⟩, hdescs, hstopped, hmode, hheld, hraises⟩, honly⟩ :=
        perst_effect hrun
      exact ⟨t, hexec, hidle, hmsix, hpba, hwindow, hstage, hdescs, hstopped, hmode, hheld, hraises, honly⟩
end
